-- ==== Sys2Proof/Word.lean ====
section
/-! DEFINITION. The word types of the hub: 32-bit register words (R17), bytes of the wire
formats (R4), and the sparse table type in which State keeps everything numbered. -/
namespace Sys2Proof

/-- A register word: registers are 32 bits wide (section 0.8). -/
abbrev Word := BitVec 32

/-- A byte of a wire format or a memory window. -/
abbrev Byte := BitVec 8

/-- A sparse table: (number, value) pairs with numbers strictly rising and no entry equal to
what an unlisted number reads as. -/
abbrev Tab (α : Type) := List (Nat × α)

end Sys2Proof
end

