-- ==== Sys2Proof/Syntax.lean ====
section
/-! DEFINITION. The commands of the hub: one constructor of Instr per row of spec/opcode_table.json, with the
operands an outside party or the event itself supplies. -/
namespace Sys2Proof

/-- A rational-free LT operand: seconds, nanoseconds and fraction (R5). -/
structure LtOp where
  sec : Nat
  ns : Nat
  frac : Nat
  deriving DecidableEq, Repr

/-- Which reading of the interpolator a stamped event falls on: the 50 ps phase of a core cycle (R47). -/
abbrev Phase := Fin 20

/-- What the port sees of any received frame (R320, R322): destination MAC, VID if tagged, length in bytes, transport (IPv6, or
plain Ethernet for PTP) and UDP destination port, and whether the pair brings the signal inverted (R305). -/
structure RxHead where
  dest : BitVec 48
  tag : Option (Fin 4096)
  len : Nat
  v6 : Bool
  ether : Bool
  port : Fin 65536
  inv : Bool
  deriving DecidableEq, Repr
/-- The network port a frame arrives at, with its head. -/
structure RxPort where
  port : Fin 2
  head : RxHead
  deriving DecidableEq, Repr
/-- The arrival of an echo request, with the data it asks to have echoed (R320). -/
structure EchoRx where
  rx : RxPort
  data : List Byte
  deriving DecidableEq, Repr

/-- A PTP message as the port receives it (R325): its arrival, domain, sender, sequence number, flags, timestamp and
correctionField in 2^-16 ns. `interval` is log2 of the message interval the master announces, in seconds. -/
structure PtpMsg where
  rx : RxPort
  domain : Fin 256
  source : Nat
  seqId : Fin 65536
  twoStep : Bool
  stamp : LtOp
  corr : Int
  interval : Int
  deriving DecidableEq, Repr

/-- The comparison data of a PTP Announce: its arrival, and the data set in order of comparison, the smaller being the better. -/
structure AnnounceMsg where
  rx : RxPort
  domain : Fin 256
  source : Nat
  dataset : List Nat
  interval : Int
  deriving DecidableEq, Repr

/-- What one converter's analogue side did in the window a WINDOW_EDGE closes. -/
structure ConvObs where
  conv : Fin 432
  count : Int
  resid : Fin 16384
  clamp : Bool
  pinOut : Bool
  refLow : Bool
  deriving DecidableEq, Repr

/-- Where a window comparator sees a level that has passed no threshold outwards (R119): inside the re-arm band, or between that band and
the thresholds. -/
inductive Level
  | rearm | between
  deriving DecidableEq, Repr

/-- The interpolator phases of a message received and of its answer sent (R47, Table 2.1). -/
structure Phases where
  rx : Phase
  tx : Phase
  deriving DecidableEq, Repr

/-- What a die word carries beside its type (R35): the 64-bit payload and the CRC. -/
structure DieBody where
  payload : BitVec 64
  crc : Fin 256
  deriving DecidableEq, Repr

/-- An acknowledge or negative acknowledge of a die (R37): the sequence number it names, and its CRC. -/
structure DieSeq where
  seq : Fin 256
  crc : Fin 256
  deriving DecidableEq, Repr

/-- The data of a read response of a die (R38), and the word's CRC. -/
structure DieData where
  data : Word
  crc : Fin 256
  deriving DecidableEq, Repr

/-- The current limit of an excitation driver (R89): not active, active, or active for 1 ms without a break. -/
inductive Limiting
  | off | active | long
  deriving DecidableEq, Repr

/-- Where the comparator of a channel sees the level. -/
structure SeenLevel where
  n : Fin 384
  level : Level
  deriving DecidableEq, Repr

/-- A 20-byte VC1 message of Table 12.5: byte 0, HOPS, ORIGIN and its LT. -/
structure Vc1Msg where
  byte0 : Fin 256
  hops : Fin 256
  origin : Fin 65536
  time : LtOp
  deriving DecidableEq, Repr

/-- A monitored reference (R81): the reference of a die or the buffer of a region. -/
inductive RefPoint
  | die (d : Fin 4)
  | region (g : Fin 8)
  deriving DecidableEq, Repr

/-- What a converter measured at the region reference of +0.8 and of -0.8 of full scale (R143). -/
structure RefPair where
  plus : Int
  minus : Int
  deriving DecidableEq, Repr

/-- What one pass of steps 2 to 4 of a calibration measured (R143): W at each step of the OFS search, both references at each step of the
GAIN search, and the verification's zero and references, all in Wide LSB. -/
structure CalPass where
  ofs : List Int
  gain : List RefPair
  zero : Int
  ver : RefPair
  deriving DecidableEq, Repr

/-- What a calibration of one gain code measured (R143): both references at each step of the QTRIM search, where FULL applies, and each
pass of steps 2 to 4. -/
structure CalMeas where
  qtrim : List RefPair
  passes : List CalPass
  deriving DecidableEq, Repr

/-- What an impedance check measured (R167, R169): OVR in a phase, generator self-check, R and X in milliohm. -/
structure ImpMeas where
  ovr : Bool
  toneFail : Bool
  r : Nat
  x : Int
  deriving DecidableEq, Repr

/-- A monitored supply of Table 16.1: VIN_CORE, VDD_IO, VDD_LANE, VDD_LANE_H, AVDD and AVDD_L of a die, VAON. -/
inductive Supply
  | core | io | lane | laneH | avdd (d : Fin 4) | avddL (d : Fin 4) | vaon
  deriving DecidableEq, Repr

/-- How a targeted self-test ends (R396). -/
inductive Verdict
  | pass | fail | inconclusive | notRun
  deriving DecidableEq, Repr


/-- The way a register write of a command came in (R315): the hub's own management SPI, a network port, or a Chainpo
link. -/
inductive Via
  | spi
  | port (p : Fin 2)
  | link (k : Fin 2)
  deriving DecidableEq, Repr

/-- What a received frame addresses (R322, Table 12.2): a service, or something the hub does not support. -/
inductive Service
  | command (addr : BitVec 128) (sport : Fin 65536) (payload : List Byte)
  | ptp | arp | ndp | echo
  | unsupported
  deriving DecidableEq, Repr
/-- A received frame (R322): its head, the IP destination and the UDP checksum of a datagram, and what it carries. -/
structure Frame where
  head : RxHead
  dst : BitVec 128
  sum : Fin 65536
  service : Service
  deriving DecidableEq, Repr

/-- What the two channels of Tailstock read at a cycle start (R402): the seal and address switches, the safe inputs, SAFE_RST,
the readbacks of STO and SBC, each by channel A and by channel B, and channel B's packet-clock count since the last start. -/
structure CycleObs where
  sealA : Fin 65536
  sealB : Fin 65536
  sadrA : Fin 256
  sadrB : Fin 256
  siA : Fin 65536
  siB : Fin 65536
  rstA : Bool
  rstB : Bool
  stoA : Fin 16
  stoB : Fin 16
  sbcA : Fin 16
  sbcB : Fin 16
  packets : Nat
  deriving DecidableEq, Repr

/-- Where a command datagram comes in (R350): the management SPI, or a network port from an address and UDP port. -/
inductive CmdEntry
  | spi
  | net (p : Fin 2) (addr : BitVec 128) (sport : Fin 65536)
  deriving DecidableEq, Repr

/-- A command datagram but for its opcode, which the row gives (Table 13.3): its header fields and parameters, and what a
transmission error adds to its CRC. -/
structure CmdReq where
  entry : CmdEntry
  ver : Fin 256
  ackreq : Bool
  more : Bool
  tag : Fin 64
  target : Fin 65536
  sseq : BitVec 32
  srcid : BitVec 32
  params : List Byte
  crcErr : BitVec 32
  deriving DecidableEq, Repr

/-- The commands and events of the hub, in the order of spec/opcode_table.json. -/
inductive Instr
  | pairLowerRead (a : Nat)
  | pairLowerWrite (a : Nat) (v : Word)
  | pairUpperWrite (a : Nat) (v : Word)
  | registerWrite (a : Nat) (v : Word)
  | aliasWrite (a : Nat) (v : Word)
  | gougeImageWrite (a : Nat) (v : Word)
  | snapPinEdge (ph : Phase)
  | snapCtrlSoft (v : Word)
  | snapshotBroadcastRx (k : Fin 2) (m : Vc1Msg)
  | snapshotStrobe
  | snapshotTransferDone
  | windowEdge (g : Fin 8) (obs : List ConvObs)
  | windowResult (d : Fin 4) (w : DieBody)
  | resultDeadline (n : Fin 384)
  | openWireCleared (n : Fin 384)
  | dieLinkBadWord (d : Fin 4) (typ : Fin 256) (payload : BitVec 64) (crc : Fin 256)
  | dieLinkNakRx (d : Fin 4) (w : DieSeq)
  | dieLinkAckRx (d : Fin 4) (w : DieSeq)
  | dieLinkDown (d : Fin 4)
  | dieLinkRetry (d : Fin 4)
  | dieLinkUp (d : Fin 4) (restart : Bool)
  | feRegisterWriteArrival (d : Fin 4)
  | dieLinkReadResponse (d : Fin 4) (a : Nat) (w : DieData)
  | sequencerEventWord (d : Fin 4) (w : DieBody)
  | faultReportWord (d : Fin 4) (w : DieBody)
  | gridMark
  | spnLtsRead
  | syncRx (m : PtpMsg) (ph : Phase) (frq : BitVec 32)
  | followUpRx (m : PtpMsg) (frq : BitVec 32)
  | delayReqSend (t : Fin 2) (ph : Phase)
  | delayRespRx (m : PtpMsg) (frq : BitVec 32)
  | pdelayReqSend (ph : Phase)
  | pdelayReqRx (m : PtpMsg) (ph : Phases)
  | pdelayRespRx (m : PtpMsg) (followUp : Bool) (ph : Phase)
  | announceRx (m : AnnounceMsg)
  | announceReceiptTimeout (t : Fin 2)
  | syncTimeout (t : Fin 2)
  | ppsInEdge (ph : Phase) (frq : BitVec 32)
  | ppsMissing
  | tcExchangeTimeout
  | trackerQualified (t : Fin 3)
  | trackerLockChange (t : Fin 3)
  | domainDisagreement
  | holdExpired
  | spnSwForce (v : Word)
  | revertSwitch
  | spnCtrlStep (v : Word)
  | startAfterStep (g : Fin 8)
  | refclkLoss
  | refclkRelock (cycles : Nat)
  | regionRestart (g : Fin 8)
  | ppsOutRise
  | ppsOutFall
  | cmpArm (m : Fin 16) (v : Word)
  | cmpFire (m : Fin 16)
  | cmpCtrlDisarm (m : Fin 16) (v : Word)
  | trigOutPulseEnd
  | timeExchangeStart
  | timeT1Rx (k : Fin 2) (xseq : Fin 16) (stamp : BitVec 40) (ph : Phase)
  | fullTimeWordRx (k : Fin 2) (xseq : Fin 16) (tstat : Fin 256) (sender : Fin 65536) (t : LtOp)
  | timeT3Rx (k : Fin 2) (xseq : Fin 16) (stamp : BitVec 40) (ph : Phase)
  | timeT4Rx (k : Fin 2) (xseq : Fin 16) (stamp : BitVec 40) (frq : BitVec 32)
  | timeStatusNoticeRx (k : Fin 2) (m : Vc1Msg)
  | referenceDeviation (p : RefPoint) (on : Bool)
  | senseOpen (c : Fin 48) (on : Bool)
  | excRegulationFault (c : Fin 48) (on : Bool)
  | excDropout (c : Fin 48) (on : Bool)
  | vexcLow (g : Fin 8) (on : Bool)
  | excCurrentLimit (c : Fin 48) (l : Limiting)
  | excShutdown (c : Fin 48)
  | cluExcCtrlClrShut (c : Fin 48) (v : Word)
  | excAutoReversal (c : Fin 48)
  | excRampEnd (c : Fin 48)
  | settlePeriodEnd (c : Fin 48)
  | excMeasUpdate (c : Fin 48) (imeas vsense vdrive vhead : Fin 65536)
  | integratorCheckDone (k : Fin 432) (levelBad refBad : Bool)
  | strobeMisaligned (d : Fin 4)
  | rgnCtrlStart (g : Fin 8) (v : Word)
  | rgnCtrlStop (g : Fin 8) (v : Word)
  | regionStartPoint (g : Fin 8)
  | mainsEdge (ph : Phase)
  | mainsHold
  | mainsHoldEnd
  | comparatorCrossing (n : Fin 384)
  | burstEnd (n : Fin 384)
  | comparatorHoldoffEnd (n : Fin 384)
  | comparatorOverrun (n : Fin 384)
  | comparatorStuck (n : Fin 384)
  | comparatorBandReentry (l : SeenLevel)
  | halt (g : Fin 8)
  | nop (g : Fin 8)
  | waitCmp (g : Fin 8)
  | cal (g : Fin 8)
  | imp (g : Fin 8)
  | calimp (g : Fin 8)
  | calNext (g : Fin 8)
  | impNext (g : Fin 8)
  | calimpNext (g : Fin 8)
  | excSet (g : Fin 8)
  | excPol (g : Fin 8)
  | mark (g : Fin 8)
  | jump (g : Fin 8)
  | waitIdle (g : Fin 8)
  | seqInvalidEntry (g : Fin 8)
  | seqDelayExpiry (g : Fin 8)
  | rgnSeqRunSet (g : Fin 8) (v : Word)
  | rgnSeqRunClear (g : Fin 8) (v : Word)
  | autoScheduleImp (g : Fin 8)
  | autoScheduleCal (g : Fin 8)
  | chSteadyCtrlCalReq (n : Fin 384) (v : Word)
  | chSteadyCtrlImpReq (n : Fin 384) (v : Word)
  | chSteadyCtrlRetest (n : Fin 384) (v : Word)
  | sprCtrlCalReq (c : Fin 48) (v : Word)
  | sprCtrlRetest (c : Fin 48) (v : Word)
  | calibrationDone (k : Fin 432) (m : CalMeas)
  | calTimeout (k : Fin 432)
  | calOverdue (n : Fin 384)
  | impedanceCheckDone (n : Fin 384) (m : ImpMeas)
  | chImpCfgSetref (n : Fin 384) (v : Word)
  | refillEnd (n : Fin 384)
  | fillEnd (n : Fin 384)
  | chainOutput (n : Fin 384)
  | chBqCtrlCommit (n : Fin 384) (v : Word)
  | statisticsBlockEnd (n : Fin 384)
  | switchChange (n : Fin 384) (w : Fin 4)
  | chOutWRead (n : Fin 384)
  | capCtrlArm (b : Fin 16) (v : Word)
  | capCtrlDisarm (b : Fin 16) (v : Word)
  | capCtrlSoft (b : Fin 16) (v : Word)
  | capCtrlRel (b : Fin 16) (v : Word)
  | captureAllocTakesEffect (b : Fin 16)
  | rowDecision (b : Fin 16)
  | captureRecordComplete (b : Fin 16)
  | captureHoldEnd (b : Fin 16)
  | trigInEdge (falling : Bool) (ph : Phase)
  | ringTriggerRx (k : Fin 2) (m : Vc1Msg)
  | strCtrlStart (c : Fin 512) (v : Word)
  | strCtrlStop (c : Fin 512) (v : Word)
  | strCtrlAbort (c : Fin 512) (v : Word)
  | streamRowAppend (c : Fin 512)
  | spillDrain (c : Fin 512)
  | packetFlush (c : Fin 512)
  | descriptorDue (c : Fin 512)
  | packetSend (c : Fin 512) (stored : Bool)
  | streamConfirmation (c : Fin 512) (pseq : BitVec 32)
  | dropEntry (c : Fin 512) (pseq : BitVec 32)
  | gougeBlockStart
  | gougeVerifyDone (mismatch : Bool)
  | gougeStallEnd
  | ggeCtrlRetest (v : Word)
  | gougeSelftestDone (v : Verdict)
  | lneGrpRate (q : Fin 4) (v : Word)
  | lneTxeqWrite (i : Fin 10) (v : Word)
  | laneStateRequest (i : Fin 10) (req : Fin 4)
  | laneStateChangeDone (i : Fin 10)
  | laneStateTimeout (i : Fin 10)
  | laneLos (i : Fin 10)
  | laneLosClear (i : Fin 10)
  | cdrLockLoss (i : Fin 10) (on : Bool)
  | eyeMeasurement (i : Fin 10) (h : Fin 65) (v : Fin 256) (ctle : Fin 16) (taps : BitVec 30)
  | eqLow (i : Fin 10)
  | pllLockLoss (q : Fin 4)
  | pllLocked (q : Fin 4)
  | lneCtrlTmode (i : Fin 10) (via : Via) (v : Word)
  | lneCtrlErrinj (i : Fin 10) (v : Word)
  | prbsLock (i : Fin 10)
  | prbsReseed (i : Fin 10) (errors : Fin 1025)
  | frameRx (p : Fin 2) (f : Frame)
  | arpRequestRx (p : RxPort) (target sender : BitVec 32) (mac : BitVec 48)
  | arpReplyRx (p : RxPort) (ip : BitVec 32) (mac : BitVec 48)
  | neighbourSolicitationRx (p : RxPort) (target source : BitVec 128)
  | neighbourAdvertisementRx (p : RxPort) (ip : BitVec 128) (mac : BitVec 48)
  | icmpEchoRequest (p : EchoRx) (v6 : Bool) (dest source : BitVec 128) (ident seq : Fin 65536)
  | destResolveRetry
  | netCtrlExitEnClear (p : Fin 2) (v : Word)
  | linkTraining (k : Fin 2)
  | trainRx (k : Fin 2) (block : BitVec 64)
  | linkTrained (k : Fin 2)
  | chpCtrlRetrain (k : Fin 2) (v : Word)
  | alignRx (k : Fin 2) (block : BitVec 64)
  | cellRx (k : Fin 2) (header : BitVec 64) (payload : List Byte)
  | lctlRx (k : Fin 2) (block : BitVec 64)
  | lctlSend (k : Fin 2)
  | chainpoLinkDown (k : Fin 2)
  | chainpoLinkRetry (k : Fin 2)
  | streamCellRx (k : Fin 2) (payload : List Byte)
  | exitPacketExpiry
  | enumerationSend
  | enumerationRx (k : Fin 2) (hops : Fin 256) (origin : Fin 65536) (links : Fin 4) (xst : Fin 64) (actLt : LtOp)
  | tableSettled
  | exitEligible (p : Fin 2)
  | echoError (p : Fin 2)
  | exitPortFailure (p : Fin 2)
  | exitEventRx (k : Fin 2) (hops : Fin 256) (origin : Fin 65536) (evt : Fin 256) (p : Fin 2) (target : Fin 65536) (time : LtOp)
  | mirrorSend
  | mirrorRx (k : Fin 2) (image : List Byte)
  | mirrorExpiry
  | chpRingSwitch (v : Word)
  | switchOldPortStop (p : Fin 2)
  | commandPart (op : Fin 128) (r : CmdReq)
  | partsTimeout (srcid : BitVec 32) (tag : Fin 64)
  | ident (r : CmdReq)
  | read (r : CmdReq)
  | write (r : CmdReq)
  | writeMask (r : CmdReq)
  | readList (r : CmdReq)
  | writeList (r : CmdReq)
  | readWord (r : CmdReq)
  | snapshot (r : CmdReq)
  | capture (r : CmdReq)
  | ringInfo (r : CmdReq)
  | setHubid (r : CmdReq)
  | powerLevel (r : CmdReq)
  | powerMode (r : CmdReq)
  | reset (r : CmdReq)
  | commandResetExpiry
  | safeParam (r : CmdReq)
  | safeTlg (r : CmdReq)
  | vc2CellRx (k : Fin 2) (payload : List Byte)
  | vc2ReassemblyTimeout (entry xid : Fin 65536)
  | forwardTimeout (xid : Fin 65536)
  | regRead (a : Word) (n stride : Fin 65536) (crcErr : BitVec 32)
  | regWrite (a : Word) (n stride : Fin 65536) (words : List Word) (crcErr : BitVec 32)
  | cmdSend (datagram : List Byte)
  | cmdRecv (clocked : Nat)
  | spiBadFrame (b : Fin 256)
  | spiFrameAbort
  | cmdHubidWrite (v : Word)
  | faultEvent (src : Fin 256) (inst : Fin 1024) (detail : BitVec 48)
  | fltForceWrite (w : Fin 8) (v : Word)
  | fltStickyClear (w : Fin 8) (v : Word)
  | fltListClear (src : Fin 256) (x : Fin 16) (v : Word)
  | fltCtrlClrAll (v : Word)
  | fltFirstValidClear (v : Word)
  | fltLogRidxWrite (v : Word)
  | eccError (part : Fin 6) (uncorrectable : Bool) (addr : Word) (detail : BitVec 48)
  | stageHoldTimeout
  | firmwareWatchdog
  | aliveToggle
  | selftestDone (v : Verdict)
  | selftestRequeue
  | safetyCycle (o : CycleObs)
  | crossChannelWord (w : DieBody)
  | telegramWatchdog
  | cycleTimeout
  | cycleFaultClear
  | inputFilterChange (chB : Bool) (j : Fin 16)
  | discrepancyTimeout (j : Fin 16)
  | testPulseStart
  | testPulseEnd
  | encoderEdge (x : Fin 4) (tracks : Fin 4) (fast : Bool)
  | ss1TimeLimit (x : Fin 4)
  | sbcRelease (x : Fin 4)
  | outputOffTest (x : Fin 4) (chB sbc low : Bool)
  | safeRstEdge
  | safeRstHeld
  | paramCrcCheck (ok : Bool)
  | powerOnReset (hid : Fin 16)
  | supplyPowerFail (sup : Supply)
  | resetPin
  | brownOut
  | resetRelease (hid : Fin 16)
  | headstockStartDone
  | supplyWarning (sup : Supply) (mv : Fin 65536)
  | supplyWarningClear (sup : Supply)
  | vddcOutOfRegulation (mv : Fin 65536)
  | temperatureWarning (d : Fin 5) (t : Fin 65536)
  | xt32Stopped
  | pwrReqLevel (v : Word)
  | pwrReqMode (v : Word)
  | powerChangeDone
  | powerChangeTimeout
  | watchWake (g : Fin 8) (uv : Word)
  | wakePin
  | alarmWake
  | pcsLinkChange (p : Fin 2) (up : Bool)
  | datagramPassedEchoMonitor (origin : Fin 65536) (c : Fin 512) (pseq : BitVec 32)
  | spareAvailable (c : Fin 48)
  deriving DecidableEq, Repr

end Sys2Proof
end

