-- ==== Sys2Proof/WellFormed.lean ====
section
/-! DEFINITION. When the operands of a command are ones an outside party can supply: times that exist, addresses of 32 bits,
payloads that fit their carriers. -/
namespace Sys2Proof

/-- An LT names an instant (R5): 64-bit seconds, nanoseconds below a second, a 16-bit fraction. -/
def LtOp.ok (t : LtOp) : Bool := decide (t.sec < 2 ^ 64) && decide (t.ns ≤ 999999999) && decide (t.frac < 65536)
/-- A PTP message: a 10-byte source port identity, a 64-bit correction, an interval of 8 bits. -/
def PtpMsg.ok (m : PtpMsg) : Bool :=
  m.stamp.ok && decide (m.source < 2 ^ 80) && decide (m.corr.natAbs < 2 ^ 63) && decide (m.interval.natAbs ≤ 127)
/-- An Announce message. -/
def AnnounceMsg.ok (m : AnnounceMsg) : Bool := decide (m.source < 2 ^ 80) && decide (m.interval.natAbs ≤ 127)
/-- A command datagram: PLEN has 16 bits (Table 13.3). -/
def CmdReq.ok (r : CmdReq) : Bool := decide (r.params.length ≤ 65535)
/-- A frame of a port: its command payload fits the longest UDP datagram, and the frame is longer than what it carries. -/
def Frame.ok (f : Frame) : Bool :=
  match f.service with
  | .command _ _ payload => decide (payload.length ≤ 65507) && decide (payload.length < f.head.len)
  | _ => true
/-- An echo request is longer than the data it carries. -/
def EchoRx.ok (e : EchoRx) : Bool := decide (e.data.length < e.rx.head.len)
/-- An address of 32 bits (Table 13.4). -/
def addrFits (a : Nat) : Bool := decide (a < 2 ^ 32)
/-- A cell payload (R329): at most 32 blocks of 8 bytes, and its header bytes at least. -/
def cellFits (n : Nat) (payload : List Byte) : Bool := decide (n ≤ payload.length) && decide (payload.length ≤ 256)
/-- Observations of a window edge: each converter of the region at most once (R10). -/
def obsOk (g : Fin 8) (obs : List ConvObs) : Bool :=
  obs.all (fun o => decide (o.conv.val / 54 = g.val)) && decide ((obs.map (fun o => o.conv)).Nodup)
/-- A Wide result (R13). -/
def wideFits (v : Int) : Bool := decide (v.natAbs < 2 ^ 31)
/-- Results at both references. -/
def RefPair.ok (p : RefPair) : Bool := wideFits p.plus && wideFits p.minus
/-- A pass of a calibration (R143): 12 steps for OFS and 12 for GAIN. -/
def CalPass.ok (p : CalPass) : Bool :=
  decide (p.ofs.length = 12) && p.ofs.all wideFits && decide (p.gain.length = 12) && p.gain.all RefPair.ok && wideFits p.zero && p.ver.ok
/-- The measurements of a calibration (R143, R145): 10 steps of the QTRIM search or none, and at most 7 passes. -/
def CalMeas.ok (m : CalMeas) : Bool :=
  (decide (m.qtrim.length = 10) || m.qtrim.isEmpty) && m.qtrim.all RefPair.ok && decide (m.passes.length ≤ 7) && m.passes.all CalPass.ok
/-- The parameters of POWER name a kind (Table 13.4). -/
def kindIs (k : Nat) (r : CmdReq) : Bool := decide ((r.params.head?).map BitVec.toNat = some k)

/-- The command is well formed. -/
def Instr.wf (i : Instr) : Bool :=
  match i with
  | .pairLowerRead a => addrFits a
  | .pairLowerWrite a _ => addrFits a
  | .pairUpperWrite a _ => addrFits a
  | .registerWrite a _ => addrFits a
  | .aliasWrite a _ => addrFits a
  | .gougeImageWrite a _ => addrFits a
  | .snapPinEdge _ => true
  | .snapCtrlSoft _ => true
  | .snapshotBroadcastRx _ m => m.time.ok
  | .snapshotStrobe => true
  | .snapshotTransferDone => true
  | .windowEdge g obs => obsOk g obs
  | .windowResult _ _ => true
  | .resultDeadline _ => true
  | .openWireCleared _ => true
  | .dieLinkBadWord _ _ _ _ => true
  | .dieLinkNakRx _ _ => true
  | .dieLinkAckRx _ _ => true
  | .dieLinkDown _ => true
  | .dieLinkRetry _ => true
  | .dieLinkUp _ _ => true
  | .feRegisterWriteArrival _ => true
  | .dieLinkReadResponse _ a _ => addrFits a
  | .sequencerEventWord _ _ => true
  | .faultReportWord _ _ => true
  | .gridMark => true
  | .spnLtsRead => true
  | .syncRx m _ _ => m.ok
  | .followUpRx m _ => m.ok
  | .delayReqSend _ _ => true
  | .delayRespRx m _ => m.ok
  | .pdelayReqSend _ => true
  | .pdelayReqRx m _ => m.ok
  | .pdelayRespRx m _ _ => m.ok
  | .announceRx m => m.ok
  | .announceReceiptTimeout _ => true
  | .syncTimeout _ => true
  | .ppsInEdge _ _ => true
  | .ppsMissing => true
  | .tcExchangeTimeout => true
  | .trackerQualified _ => true
  | .trackerLockChange _ => true
  | .domainDisagreement => true
  | .holdExpired => true
  | .spnSwForce _ => true
  | .revertSwitch => true
  | .spnCtrlStep _ => true
  | .startAfterStep _ => true
  | .refclkLoss => true
  | .refclkRelock _ => true
  | .regionRestart _ => true
  | .ppsOutRise => true
  | .ppsOutFall => true
  | .cmpArm _ _ => true
  | .cmpFire _ => true
  | .cmpCtrlDisarm _ _ => true
  | .trigOutPulseEnd => true
  | .timeExchangeStart => true
  | .timeT1Rx _ _ _ _ => true
  | .fullTimeWordRx _ _ _ _ t => t.ok
  | .timeT3Rx _ _ _ _ => true
  | .timeT4Rx _ _ _ _ => true
  | .timeStatusNoticeRx _ m => m.time.ok
  | .referenceDeviation _ _ => true
  | .senseOpen _ _ => true
  | .excRegulationFault _ _ => true
  | .excDropout _ _ => true
  | .vexcLow _ _ => true
  | .excCurrentLimit _ _ => true
  | .excShutdown _ => true
  | .cluExcCtrlClrShut _ _ => true
  | .excAutoReversal _ => true
  | .excRampEnd _ => true
  | .settlePeriodEnd _ => true
  | .excMeasUpdate _ _ _ _ _ => true
  | .integratorCheckDone _ _ _ => true
  | .strobeMisaligned _ => true
  | .rgnCtrlStart _ _ => true
  | .rgnCtrlStop _ _ => true
  | .regionStartPoint _ => true
  | .mainsEdge _ => true
  | .mainsHold => true
  | .mainsHoldEnd => true
  | .comparatorCrossing _ => true
  | .burstEnd _ => true
  | .comparatorHoldoffEnd _ => true
  | .comparatorOverrun _ => true
  | .comparatorStuck _ => true
  | .comparatorBandReentry _ => true
  | .halt _ => true
  | .nop _ => true
  | .waitCmp _ => true
  | .cal _ => true
  | .imp _ => true
  | .calimp _ => true
  | .calNext _ => true
  | .impNext _ => true
  | .calimpNext _ => true
  | .excSet _ => true
  | .excPol _ => true
  | .mark _ => true
  | .jump _ => true
  | .waitIdle _ => true
  | .seqInvalidEntry _ => true
  | .seqDelayExpiry _ => true
  | .rgnSeqRunSet _ _ => true
  | .rgnSeqRunClear _ _ => true
  | .autoScheduleImp _ => true
  | .autoScheduleCal _ => true
  | .chSteadyCtrlCalReq _ _ => true
  | .chSteadyCtrlImpReq _ _ => true
  | .chSteadyCtrlRetest _ _ => true
  | .sprCtrlCalReq _ _ => true
  | .sprCtrlRetest _ _ => true
  | .calibrationDone _ m => m.ok
  | .calTimeout _ => true
  | .calOverdue _ => true
  | .impedanceCheckDone _ _ => true
  | .chImpCfgSetref _ _ => true
  | .refillEnd _ => true
  | .fillEnd _ => true
  | .chainOutput _ => true
  | .chBqCtrlCommit _ _ => true
  | .statisticsBlockEnd _ => true
  | .switchChange _ _ => true
  | .chOutWRead _ => true
  | .capCtrlArm _ _ => true
  | .capCtrlDisarm _ _ => true
  | .capCtrlSoft _ _ => true
  | .capCtrlRel _ _ => true
  | .captureAllocTakesEffect _ => true
  | .rowDecision _ => true
  | .captureRecordComplete _ => true
  | .captureHoldEnd _ => true
  | .trigInEdge _ _ => true
  | .ringTriggerRx _ m => m.time.ok
  | .strCtrlStart _ _ => true
  | .strCtrlStop _ _ => true
  | .strCtrlAbort _ _ => true
  | .streamRowAppend _ => true
  | .spillDrain _ => true
  | .packetFlush _ => true
  | .descriptorDue _ => true
  | .packetSend _ _ => true
  | .streamConfirmation _ _ => true
  | .dropEntry _ _ => true
  | .gougeBlockStart => true
  | .gougeVerifyDone _ => true
  | .gougeStallEnd => true
  | .ggeCtrlRetest _ => true
  | .gougeSelftestDone _ => true
  | .lneGrpRate _ _ => true
  | .lneTxeqWrite _ _ => true
  | .laneStateRequest _ _ => true
  | .laneStateChangeDone _ => true
  | .laneStateTimeout _ => true
  | .laneLos _ => true
  | .laneLosClear _ => true
  | .cdrLockLoss _ _ => true
  | .eyeMeasurement _ _ _ _ _ => true
  | .eqLow _ => true
  | .pllLockLoss _ => true
  | .pllLocked _ => true
  | .lneCtrlTmode _ _ _ => true
  | .lneCtrlErrinj _ _ => true
  | .prbsLock _ => true
  | .prbsReseed _ _ => true
  | .frameRx _ f => f.ok
  | .arpRequestRx _ _ _ _ => true
  | .arpReplyRx _ _ _ => true
  | .neighbourSolicitationRx _ _ _ => true
  | .neighbourAdvertisementRx _ _ _ => true
  | .icmpEchoRequest e _ _ _ _ _ => e.ok
  | .destResolveRetry => true
  | .netCtrlExitEnClear _ _ => true
  | .linkTraining _ => true
  | .trainRx _ _ => true
  | .linkTrained _ => true
  | .chpCtrlRetrain _ _ => true
  | .alignRx _ _ => true
  | .cellRx _ _ payload => cellFits 0 payload
  | .lctlRx _ _ => true
  | .lctlSend _ => true
  | .chainpoLinkDown _ => true
  | .chainpoLinkRetry _ => true
  | .streamCellRx _ payload => cellFits 8 payload
  | .exitPacketExpiry => true
  | .enumerationSend => true
  | .enumerationRx _ _ _ _ _ actLt => actLt.ok
  | .tableSettled => true
  | .exitEligible _ => true
  | .echoError _ => true
  | .exitPortFailure _ => true
  | .exitEventRx _ _ _ _ _ _ time => time.ok
  | .mirrorSend => true
  | .mirrorRx _ image => decide (160 ≤ image.length)
  | .mirrorExpiry => true
  | .chpRingSwitch _ => true
  | .switchOldPortStop _ => true
  | .commandPart _ r => r.ok
  | .partsTimeout _ _ => true
  | .ident r => r.ok
  | .read r => r.ok
  | .write r => r.ok
  | .writeMask r => r.ok
  | .readList r => r.ok
  | .writeList r => r.ok
  | .readWord r => r.ok
  | .snapshot r => r.ok
  | .capture r => r.ok
  | .ringInfo r => r.ok
  | .setHubid r => r.ok
  | .powerLevel r => r.ok && kindIs 1 r
  | .powerMode r => r.ok && kindIs 2 r
  | .reset r => r.ok
  | .commandResetExpiry => true
  | .safeParam r => r.ok
  | .safeTlg r => r.ok
  | .vc2CellRx _ payload => cellFits 28 payload
  | .vc2ReassemblyTimeout _ _ => true
  | .forwardTimeout _ => true
  | .regRead _ _ _ _ => true
  | .regWrite _ _ _ words _ => decide (words.length ≤ 65535)
  | .cmdSend datagram => decide (datagram.length ≤ 65535)
  | .cmdRecv _ => true
  | .spiBadFrame b => !([1, 2, 3, 4].contains b.val)
  | .spiFrameAbort => true
  | .cmdHubidWrite _ => true
  | .faultEvent _ _ _ => true
  | .fltForceWrite _ _ => true
  | .fltStickyClear _ _ => true
  | .fltListClear _ _ _ => true
  | .fltCtrlClrAll _ => true
  | .fltFirstValidClear _ => true
  | .fltLogRidxWrite _ => true
  | .eccError _ _ _ _ => true
  | .stageHoldTimeout => true
  | .firmwareWatchdog => true
  | .aliveToggle => true
  | .selftestDone _ => true
  | .selftestRequeue => true
  | .safetyCycle _ => true
  | .crossChannelWord _ => true
  | .telegramWatchdog => true
  | .cycleTimeout => true
  | .cycleFaultClear => true
  | .inputFilterChange _ _ => true
  | .discrepancyTimeout _ => true
  | .testPulseStart => true
  | .testPulseEnd => true
  | .encoderEdge _ _ _ => true
  | .ss1TimeLimit _ => true
  | .sbcRelease _ => true
  | .outputOffTest _ _ _ _ => true
  | .safeRstEdge => true
  | .safeRstHeld => true
  | .paramCrcCheck _ => true
  | .powerOnReset _ => true
  | .supplyPowerFail _ => true
  | .resetPin => true
  | .brownOut => true
  | .resetRelease _ => true
  | .headstockStartDone => true
  | .supplyWarning _ _ => true
  | .supplyWarningClear _ => true
  | .vddcOutOfRegulation _ => true
  | .temperatureWarning _ _ => true
  | .xt32Stopped => true
  | .pwrReqLevel _ => true
  | .pwrReqMode _ => true
  | .powerChangeDone => true
  | .powerChangeTimeout => true
  | .watchWake _ _ => true
  | .wakePin => true
  | .alarmWake => true
  | .pcsLinkChange _ _ => true
  | .datagramPassedEchoMonitor _ _ _ => true
  | .spareAvailable _ => true

end Sys2Proof
end

