-- ==== Sys2Proof/Decode.lean ====
section
/-! DEFINITION. The opcode table gives no row any bits, so no word spells a command. -/
namespace Sys2Proof

/-- The command a word of the opcode table spells. Every row of spec/opcode_table.json has an empty list of fields: the commands
of this block are events and register accesses, not encoded instructions (log 7). -/
def decodeTableWord (_nbits _w : Nat) : Option Instr := none

end Sys2Proof
end

