-- ==== Sys2Proof/Config.lean ====
section
/-! DEFINITION. What one hub fixes and what the spec leaves open: production and strapping values,
and the free values, opaque constants that nothing in Lean can evaluate. -/
namespace Sys2Proof

/-- GLB_DEVID.VARIANT: 0x01 is BH384-AX (Table 17.5 states no value). DESIGN CHOICE, log 1. -/
def Config.variant : Nat := 1
/-- GLB_DEVID.SREV (Table 17.5 states no value). DESIGN CHOICE, log 1. -/
def Config.siliconRevision : Nat := 0
/-- GLB_FWVER (Table 17.5 states no value). DESIGN CHOICE, log 1. -/
def Config.firmwareVersion : Nat := 0
/-- GLB_UID, 64 bits (Table 17.5 states no value). DESIGN CHOICE, log 1. -/
def Config.serialNumber : Nat := 0
/-- GLB_MAC, 48 bits (Table 17.5 states no value). DESIGN CHOICE, log 1. -/
def Config.baseMac : Nat := 0
/-- The straps HID[3:0] of the modelled package at State.reset. DESIGN CHOICE, log 2. -/
def Config.strapHid : Nat := 0
/-- The address switch SADR at State.reset. DESIGN CHOICE, log 2. -/
def Config.strapSadr : Nat := 0
/-- The seal switches SEAL at State.reset. DESIGN CHOICE, log 2. -/
def Config.strapSeal : Nat := 0
/-- Production value of every OFS, GAIN and QTRIM trim (R142 states none). DESIGN CHOICE, log 3. -/
def Config.productionTrim : Nat := 0
/-- Measured VDDC in mV after reset: the PL0 setpoint of Table 16.2. DESIGN CHOICE, log 4. -/
def Config.resetVddc : Nat := 620
/-- Die temperatures after reset in 1/16 degree (Table 16.10 states none). DESIGN CHOICE, log 4. -/
def Config.resetTemp : Nat := 0

/-- The free value number `n` of a run: what an undefined result holds. It has no body, so no
proof can see it; the state's counter `free` numbers the occasions (log 5). -/
opaque Config.freeValue : Nat → Nat

/-- The hash the Gouge match finder applies to four bytes (R276; log 16). -/
opaque Config.gougeHash : Nat → Nat
/-- The code lengths Gouge chooses for symbol counts in a dynamic block (R282, R283; log 16). -/
opaque Config.gougeLengths : List Nat → List Nat

end Sys2Proof
end

