-- ==== Sys2Proof/Machine/Bits.lean ====
section
/-! DEFINITION. Bit fields, signed readings, saturation, rounding and big-endian bytes: the
arithmetic every family shares. -/
namespace Sys2Proof.Machine

/-- Bits [hi:lo] of a number. -/
def bitsOf (v hi lo : Nat) : Nat := (v / 2 ^ lo) % 2 ^ (hi - lo + 1)

/-- A number with bits [hi:lo] replaced. -/
def putBits (v hi lo x : Nat) : Nat :=
  v - bitsOf v hi lo * 2 ^ lo + (x % 2 ^ (hi - lo + 1)) * 2 ^ lo

/-- The two's-complement reading of the low `w` bits. -/
def signed (w v : Nat) : Int :=
  if v % 2 ^ w < 2 ^ (w - 1) then (v % 2 ^ w : Int) else (v % 2 ^ w : Int) - 2 ^ w

/-- The low `w` bits of an integer in two's complement. -/
def twos (w : Nat) (i : Int) : Nat := (i % (2 ^ w : Int)).toNat

/-- Clamp an integer into a range. -/
def clampI (lo hi i : Int) : Int := if i < lo then lo else if hi < i then hi else i

/-- Clamp a rational into a range. -/
def clampQ (lo hi q : Rat) : Rat := if q < lo then lo else if hi < q then hi else q

/-- Nearest integer, halves away from zero (R105). -/
def roundAway (q : Rat) : Int :=
  if q < 0 then -((-q + 1 / 2).floor) else (q + 1 / 2).floor

/-- Quotient of integers rounded to the nearest integer, halves away from zero. -/
def divAway (a : Int) (b : Nat) : Int :=
  if a < 0 then -((2 * (-a) + b) / (2 * b)) else (2 * a + b) / (2 * b)

/-- Increment with saturation at the largest value of a `w`-bit count. -/
def satInc (w v n : Nat) : Nat := min (v + n) (2 ^ w - 1)

/-- `n` bytes of a number, most significant first (R4). -/
def beBytes : Nat → Nat → List Byte
  | 0, _ => []
  | n + 1, v => BitVec.ofNat 8 (v / 256 ^ n) :: beBytes n v

/-- The number a byte list spells, most significant first (R4). -/
def beNat (bs : List Byte) : Nat := bs.foldl (fun a b => a * 256 + b.toNat) 0

/-- `n` bytes from offset `o`; absent bytes read zero. -/
def bytesAt (bs : List Byte) (o n : Nat) : List Byte :=
  (List.range n).map (fun i => (bs[o + i]?).getD 0)

/-- The big-endian number at bytes [o, o + n). -/
def natAt (bs : List Byte) (o n : Nat) : Nat := beNat (bytesAt bs o n)

/-- Numbers with a set bit below `w`, rising. -/
def setBitsOf (w v : Nat) : List Nat := (List.range w).filter (fun i => v.testBit i)

/-- 1 for true. -/
def b2n (b : Bool) : Nat := if b then 1 else 0

/-- One step of an MSB-first CRC of width `w`. -/
def crcStep (w poly : Nat) (c : Nat) (bit : Bool) : Nat :=
  let top := c.testBit (w - 1) != bit
  let c' := (c * 2) % 2 ^ w
  if top then c' ^^^ poly else c'

/-- The bits of a byte, most significant first. -/
def byteBits (b : Byte) : List Bool :=
  [7, 6, 5, 4, 3, 2, 1, 0].map (fun i => b.toNat.testBit i)

/-- MSB-first CRC over bytes. -/
def crcMsb (w poly init : Nat) (bs : List Byte) : Nat :=
  bs.foldl (fun c b => (byteBits b).foldl (crcStep w poly) c) init

/-- CRC-8 of R35: x^8 + x^5 + x^3 + x^2 + x + 1, initial value 0xFF. -/
def crc8 (bs : List Byte) : Nat := crcMsb 8 0x2F 0xFF bs

/-- One bit step of the reflected CRC-32C register. -/
def crc32cBit (c : Nat) : Nat := if c % 2 = 1 then (c / 2) ^^^ 0x82F63B78 else c / 2

/-- One byte step of the reflected CRC-32C register. -/
def crc32cByte (c : Nat) (b : Byte) : Nat := Nat.repeat crc32cBit 8 (c ^^^ b.toNat)

/-- CRC-32C of R225: polynomial 0x1EDC_6F41 reflected, initial value and final XOR all ones. -/
def crc32c (bs : List Byte) : Nat := (bs.foldl crc32cByte 0xFFFFFFFF) ^^^ 0xFFFFFFFF

/-- The nanosecond in the unit of LT, 2^-16 ns. -/
def nsU : Nat := 65536
/-- The second in the unit of LT. -/
def secU : Nat := 65536 * 1000000000
/-- The packet interval of 48.828125 ns in the unit of LT (R48). -/
def pktU : Nat := 3200000
/-- The 10-second grid interval in the unit of LT (R106). -/
def gridU : Nat := 10 * secU
/-- One cycle of the 32.768 kHz clock in the unit of LT (R66: 30.517578125 us). -/
def cycU : Nat := 2000000000

/-- Seconds of an LT. -/
def ltSec (t : Nat) : Nat := t / secU
/-- Nanoseconds of an LT. -/
def ltNs (t : Nat) : Nat := t % secU / nsU
/-- Fraction of an LT. -/
def ltFrac (t : Nat) : Nat := t % nsU
/-- The LT a seconds, nanoseconds and fraction triple names (R5). -/
def mkLt (sec ns frac : Nat) : Nat := secU * sec + nsU * ns + frac
/-- LT on the wire, 14 bytes (R5). -/
def ltBytes (t : Nat) : List Byte := beBytes 8 (ltSec t) ++ beBytes 4 (ltNs t) ++ beBytes 2 (ltFrac t)
/-- LT read from 14 bytes at offset `o`; none when its nanoseconds exceed 999,999,999 (R5). -/
def ltAt (bs : List Byte) (o : Nat) : Option Nat :=
  if natAt bs (o + 8) 4 ≤ 999999999 then
    some (mkLt (natAt bs o 8) (natAt bs (o + 8) 4) (natAt bs (o + 12) 2))
  else none
/-- ST of an LT: low 18 bits of the seconds, then the nanoseconds (R7). -/
def stOf (t : Nat) : Nat := (ltSec t % 2 ^ 18) * 2 ^ 30 + ltNs t
/-- An ST names an instant (R7). -/
def stValid (st : Nat) : Bool := decide (st % 2 ^ 30 ≤ 999999999)
/-- A - B of two ST values in nanoseconds by R8. -/
def stDiff (a b : Nat) : Int :=
  signed 18 (twos 18 ((a / 2 ^ 30 : Int) - (b / 2 ^ 30 : Int))) * 1000000000
    + ((a % 2 ^ 30 : Int) - (b % 2 ^ 30 : Int))
/-- The LT an ST names, nearest to `now` by R8 (in whole nanoseconds of the ST). -/
def stToLt (now st : Nat) : Int :=
  ((now / nsU : Nat) : Int) * nsU + stDiff st (stOf now) * nsU
/-- `k` steps of 50 ps, rounded to 2^-16 ns (R6). -/
def ps50 (k : Nat) : Nat := (k * 32768 + 5) / 10
/-- The stamp of an event in the core cycle that holds `t` at an interpolator phase: 50 ps steps from the cycle's start (R6, R47). -/
def stampOf (t phase : Nat) : Nat := t / nsU * nsU + ps50 phase
/-- An instant quantised to 50 ps (R6): the stamp of what happens at `t` (log 63). -/
def stamp50 (t : Nat) : Nat := t / nsU * nsU + ps50 (t % nsU * 10 / 32768)

end Sys2Proof.Machine
end

