-- ==== Sys2Proof/Machine/Layout.lean ====
section
/-! DEFINITION. The register layout of the hub, one descriptor per register of the tables of
spec/ (the tables named in R447 and R449): its address, its copies, the die that holds it, and its fields with
access code (R17) and reset value. R.<NAME> is the address of a register, F.<NAME>_<FIELD> a field. -/
namespace Sys2Proof.Machine

/-- The access codes of Table 0.7 (R17). -/
inductive Acc | ro | rw | wo | w1c | rc | sc | rwl
  deriving DecidableEq, Repr

/-- One field of a register: bits [hi:lo], access code, reset value. -/
structure Fld where
  hi : Nat
  lo : Nat
  acc : Acc
  reset : Nat
  deriving DecidableEq, Repr

/-- Every register of the hub by name (spare copies of the unit registers are named SPR_). -/
inductive Reg
  | GLB_DEVID | GLB_FWVER | GLB_UID | GLB_UID_HI | GLB_MAC | GLB_MAC_HI | GLB_SCRATCH | GLB_ACCERR
  | GLB_ACCADR | SNAP_CTRL | SNAP_STAT | SNAP_SEQ | SNAP_LTS | SNAP_LTS_HI | SNAP_LTN | SNAP_LTF
  | DLK_STAT | PRC_DEMAND | PRC_CAP | PRC_STAT | PRC_FIRLEN | PRC_SWMAP | PWR_REQ | PWR_STAT
  | PWR_RST | PWR_WREC | PWR_WCAUSE | PWR_WACNT | PWR_WACNT_HI | PWR_ACNT | PWR_ACNT_HI | PWR_WLTS
  | PWR_WLTS_HI | PWR_WLTN | PWR_WLTF | PWR_NOTE | PWR_WCFG | PWR_WTHR | PWR_WTHR2 | PWR_ALARM
  | PWR_TEMP | PWR_TWARN | PWR_SUP | PWR_VDDC | PWR_BANK | PWR_BANK1 | PRC_FIRC | SPN_CTRL
  | SPN_STAT | SPN_LTS | SPN_LTS_HI | SPN_LTN | SPN_LTF | SPN_SET | SPN_SET_HI | SPN_SETN
  | SPN_SETF | SPN_RATE | SPN_RATE_HI | SPN_SLEW | TRK_CFG | TRK_QUAL | TRK_STAT | TRK_OFS
  | TRK_OFS_HI | TRK_FRQ | SPN_SW | SPN_SW2 | SPN_HOLD | SPN_STEPTHR | SPN_PPS | SPN_PPS_OFS
  | SPN_HOP_ASYM_U | SPN_HOP_ASYM_D | CMP_T | CMP_T_HI | CMP_PER | CMP_CTRL | FLT_CTRL | FLT_FIRST
  | FLT_FIRST_T | FLT_FIRST_T_HI | FLT_OVF | FLT_LOG | FLT_STQ | FLT_ST_LAST | FLT_FORCE_INST | FLT_ALIVE
  | FLT_RAW | FLT_STICKY | FLT_FORCE | FLT_EN | FLT_REACT | FLT_CNT | FLT_LIST | CMD_CFG
  | CMD_STAT | CMD_SPI_STAT | CMD_LAST | CMD_HUBID | LNE_CTRL | LNE_TXEQ | LNE_RXEQ | LNE_DFE
  | LNE_STAT | LNE_PERR | LNE_EYE | LNE_EQCFG | LNE_GRP | NET_CTRL | NET_STAT | NET_MAC
  | NET_MAC_HI | NET_MTU | NET_IP4 | NET_IP4_GW | NET_IP4_PFX | NET_IP6 | NET_IP6_GW | NET_IP6_PFX
  | NET_PTP_ASYM | NET_PTP_CFG | NET_GCFG | NET_SPORT | DST_ADDR | DST_PORT | CHP_CTRL | CHP_STAT
  | CHP_PEER | CHP_RING | CHP_ACT | CHP_MIRR | CHP_SWT | CHP_NEXP | STR_CTRL | STR_CFG
  | STR_FIFO | STR_SEND | STR_MEMB | STR_PSEQ | STR_STAT | STR_FSTAT | STR_WP | STR_SP
  | STR_RP | STR_RATE | STR_WIRE | STR_ICNT | STR_ICNT_HI | STR_RBUD | STR_BUDGET | STR_GSTAT
  | STR_FSUM | STR_WSUM | STR_GSTORE | STR_ML | GGE_CTRL | GGE_STAT | GGE_LOAD | GGE_CAP
  | GGE_POOL | GGE_OBUF | GGE_CTX | GGE_CSTAT | GGE_CIN | GGE_COUT | CAP_RING | CAP_BOWL
  | CAP_CTRL | CAP_CFG | CAP_BUF | CAP_SLOT | CAP_PRE | CAP_MEAS | CAP_MEAS_CFG | CAP_STR
  | CAP_STAT | CAP_ERR | CAP_RDQ | CAP_SEQ | CAP_LOST_T | CAP_LOST_T_HI | CAP_LAST_T | CAP_LAST_T_HI
  | CAP_CND | CAP_CND_V1 | CAP_CND_V2 | CAP_CHL | TLS_STAT | TLS_SI | TLS_SIRAW | TLS_AX
  | TLS_SPD | TLS_PCRC | TLS_SW | TLS_TLG | TLS_TLGST | TLS_CYC | CLU_EXC_CTRL | CLU_EXC_SET
  | CLU_EXC_STAT | CLU_EXC_MEAS | CLU_EXC_MEAS2 | RGN_CTRL | RGN_WIN | RGN_START | RGN_START_HI | RGN_STAT
  | RGN_WSEQ | RGN_MAINS | RGN_SEQ_CTRL | RGN_SEQ_STAT | RGN_SEQ_ROT | RGN_SEQ_MASK | RGN_SEQ_MASK_HI | RGN_SEQ_CMPL
  | RGN_STEADY_CFG | RGN_CAL_CFG | RGN_STEADY_AUTO | RGN_STEADY_STAT | RGN_SEQ_STR | RGN_SEQ_ENT | RGN_SEQ_ENT_HI | CH_AIN
  | CH_AIN_STAT | CH_EVT_CTRL | CH_EVT_THR | CH_EVT_STUCK | CH_EVT_STAT | CH_EVT_LAST | CH_EVT_LAST_HI | CH_RAW_CNT
  | CH_RAW_RES | CH_STEADY_CTRL | CH_STEADY_STAT | CH_CAL_STAT | CH_CAL_T | CH_CAL_T_HI | CH_MATCH | CH_MATCH_G
  | CH_TRIM | CH_CALV | CH_QTRIM | CH_HLT_CFG | CH_HLT_STAT | CH_OW_T | CH_OW_T_HI | CH_IMP_LIM
  | CH_IMP_CFG | CH_IMP_REF | CH_IMP_R | CH_IMP_X | CH_IMP_STAT | CH_IMP_T | CH_IMP_T_HI | CH_IMP_GOOD
  | CH_IMP_GOOD_HI | CH_PRC_CTRL | CH_PRC_FIR | CH_COR_GAIN | CH_COR_OFS | CH_BQ_COEF | CH_BQ_CTRL | CH_SCL_MUL
  | CH_SCL_CFG | CH_SCL_OFS | CH_STAT_CFG | CH_SW_CFG | CH_SW_UP | CH_SW_LO | CH_SW_STAT | CH_GRP
  | CH_OUT_W | CH_OUT_Q | CH_OUT_T | CH_OUT_T_HI | CH_OUT_S | CH_RQ_CFG | CH_EVT_STR | SPR_CTRL
  | SPR_STAT | SPR_CAL_STAT | SPR_CAL_T | SPR_CAL_T_HI | SPR_TRIM | SPR_CALV | SPR_QTRIM
  deriving DecidableEq, Repr

/-- A register descriptor: copies of the register lie at `base` plus multiples of the strides. -/
structure RegDesc where
  reg : Reg
  base : Nat
  dims : List (Nat × Nat)
  fe : Bool
  flds : List Fld
  deriving DecidableEq, Repr

/-- Address of GLB_DEVID (R447, Table 17.5). -/
def R.GLB_DEVID : Nat := 0x0
/-- Address of GLB_FWVER (R447, Table 17.5). -/
def R.GLB_FWVER : Nat := 0x4
/-- Address of GLB_UID (R447, Table 17.5). -/
def R.GLB_UID : Nat := 0x8
/-- Address of GLB_UID_HI (R447, Table 17.5). -/
def R.GLB_UID_HI : Nat := 0xC
/-- Address of GLB_MAC (R447, Table 17.5). -/
def R.GLB_MAC : Nat := 0x10
/-- Address of GLB_MAC_HI (R447, Table 17.5). -/
def R.GLB_MAC_HI : Nat := 0x14
/-- Address of GLB_SCRATCH (R447, Table 17.5). -/
def R.GLB_SCRATCH : Nat := 0x18
/-- Address of GLB_ACCERR (R447, Table 17.5). -/
def R.GLB_ACCERR : Nat := 0x20
/-- Address of GLB_ACCADR (R447, Table 17.5). -/
def R.GLB_ACCADR : Nat := 0x24
/-- Address of SNAP_CTRL (R43, Table 1.8). -/
def R.SNAP_CTRL : Nat := 0x100
/-- Address of SNAP_STAT (R43, Table 1.8). -/
def R.SNAP_STAT : Nat := 0x104
/-- Address of SNAP_SEQ (R43, Table 1.8). -/
def R.SNAP_SEQ : Nat := 0x108
/-- Address of SNAP_LTS (R43, Table 1.8). -/
def R.SNAP_LTS : Nat := 0x110
/-- Address of SNAP_LTS_HI (R43, Table 1.8). -/
def R.SNAP_LTS_HI : Nat := 0x114
/-- Address of SNAP_LTN (R43, Table 1.8). -/
def R.SNAP_LTN : Nat := 0x118
/-- Address of SNAP_LTF (R43, Table 1.8). -/
def R.SNAP_LTF : Nat := 0x11C
/-- Address of DLK_STAT (R39, Table 1.6). -/
def R.DLK_STAT (i : Nat) : Nat := 0x200 + 0x4 * i
/-- Address of PRC_DEMAND (R210, Table 7.8). -/
def R.PRC_DEMAND : Nat := 0x400
/-- Address of PRC_CAP (R210, Table 7.8). -/
def R.PRC_CAP : Nat := 0x404
/-- Address of PRC_STAT (R210, Table 7.8). -/
def R.PRC_STAT : Nat := 0x408
/-- Address of PRC_FIRLEN (R210, Table 7.8). -/
def R.PRC_FIRLEN (i : Nat) : Nat := 0x410 + 0x4 * i
/-- Address of PRC_SWMAP (R210, Table 7.8). -/
def R.PRC_SWMAP (i : Nat) : Nat := 0x480 + 0x4 * i
/-- Address of PWR_REQ (R445, Table 16.10). -/
def R.PWR_REQ : Nat := 0x600
/-- Address of PWR_STAT (R445, Table 16.10). -/
def R.PWR_STAT : Nat := 0x604
/-- Address of PWR_RST (R445, Table 16.10). -/
def R.PWR_RST : Nat := 0x608
/-- Address of PWR_WREC (R445, Table 16.10). -/
def R.PWR_WREC : Nat := 0x60C
/-- Address of PWR_WCAUSE (R445, Table 16.10). -/
def R.PWR_WCAUSE : Nat := 0x610
/-- Address of PWR_WACNT (R445, Table 16.10). -/
def R.PWR_WACNT : Nat := 0x614
/-- Address of PWR_WACNT_HI (R445, Table 16.10). -/
def R.PWR_WACNT_HI : Nat := 0x618
/-- Address of PWR_ACNT (R445, Table 16.10). -/
def R.PWR_ACNT : Nat := 0x61C
/-- Address of PWR_ACNT_HI (R445, Table 16.10). -/
def R.PWR_ACNT_HI : Nat := 0x620
/-- Address of PWR_WLTS (R445, Table 16.10). -/
def R.PWR_WLTS : Nat := 0x624
/-- Address of PWR_WLTS_HI (R445, Table 16.10). -/
def R.PWR_WLTS_HI : Nat := 0x628
/-- Address of PWR_WLTN (R445, Table 16.10). -/
def R.PWR_WLTN : Nat := 0x62C
/-- Address of PWR_WLTF (R445, Table 16.10). -/
def R.PWR_WLTF : Nat := 0x630
/-- Address of PWR_NOTE (R445, Table 16.10). -/
def R.PWR_NOTE (i : Nat) : Nat := 0x640 + 0x4 * i
/-- Address of PWR_WCFG (R445, Table 16.10). -/
def R.PWR_WCFG : Nat := 0x650
/-- Address of PWR_WTHR (R445, Table 16.10). -/
def R.PWR_WTHR : Nat := 0x654
/-- Address of PWR_WTHR2 (R445, Table 16.10). -/
def R.PWR_WTHR2 : Nat := 0x658
/-- Address of PWR_ALARM (R445, Table 16.10). -/
def R.PWR_ALARM : Nat := 0x65C
/-- Address of PWR_TEMP (R445, Table 16.10). -/
def R.PWR_TEMP (i : Nat) : Nat := 0x660 + 0x4 * i
/-- Address of PWR_TWARN (R445, Table 16.10). -/
def R.PWR_TWARN : Nat := 0x674
/-- Address of PWR_SUP (R445, Table 16.10). -/
def R.PWR_SUP : Nat := 0x678
/-- Address of PWR_VDDC (R445, Table 16.10). -/
def R.PWR_VDDC : Nat := 0x67C
/-- Address of PWR_BANK (R445, Table 16.10). -/
def R.PWR_BANK (i : Nat) : Nat := 0x700 + 0x4 * i
/-- Address of PWR_BANK1 (R445, Table 16.10). -/
def R.PWR_BANK1 (i : Nat) : Nat := 0x740 + 0x4 * i
/-- Address of PRC_FIRC (R210, Table 7.8). -/
def R.PRC_FIRC (i j : Nat) : Nat := 0x4000 + 0x400 * i + 0x4 * j
/-- Address of SPN_CTRL (R75, Table 2.10). -/
def R.SPN_CTRL : Nat := 0x10000
/-- Address of SPN_STAT (R75, Table 2.10). -/
def R.SPN_STAT : Nat := 0x10004
/-- Address of SPN_LTS (R75, Table 2.10). -/
def R.SPN_LTS : Nat := 0x10010
/-- Address of SPN_LTS_HI (R75, Table 2.10). -/
def R.SPN_LTS_HI : Nat := 0x10014
/-- Address of SPN_LTN (R75, Table 2.10). -/
def R.SPN_LTN : Nat := 0x10018
/-- Address of SPN_LTF (R75, Table 2.10). -/
def R.SPN_LTF : Nat := 0x1001C
/-- Address of SPN_SET (R75, Table 2.10). -/
def R.SPN_SET : Nat := 0x10020
/-- Address of SPN_SET_HI (R75, Table 2.10). -/
def R.SPN_SET_HI : Nat := 0x10024
/-- Address of SPN_SETN (R75, Table 2.10). -/
def R.SPN_SETN : Nat := 0x10028
/-- Address of SPN_SETF (R75, Table 2.10). -/
def R.SPN_SETF : Nat := 0x1002C
/-- Address of SPN_RATE (R75, Table 2.10). -/
def R.SPN_RATE : Nat := 0x10030
/-- Address of SPN_RATE_HI (R75, Table 2.10). -/
def R.SPN_RATE_HI : Nat := 0x10034
/-- Address of SPN_SLEW (R75, Table 2.10). -/
def R.SPN_SLEW : Nat := 0x10038
/-- Address of TRK_CFG (R75, Table 2.10). -/
def R.TRK_CFG (i : Nat) : Nat := 0x10040 + 0x20 * i
/-- Address of TRK_QUAL (R75, Table 2.10). -/
def R.TRK_QUAL (i : Nat) : Nat := 0x10044 + 0x20 * i
/-- Address of TRK_STAT (R75, Table 2.10). -/
def R.TRK_STAT (i : Nat) : Nat := 0x10048 + 0x20 * i
/-- Address of TRK_OFS (R75, Table 2.10). -/
def R.TRK_OFS (i : Nat) : Nat := 0x1004C + 0x20 * i
/-- Address of TRK_OFS_HI (R75, Table 2.10). -/
def R.TRK_OFS_HI (i : Nat) : Nat := 0x10050 + 0x20 * i
/-- Address of TRK_FRQ (R75, Table 2.10). -/
def R.TRK_FRQ (i : Nat) : Nat := 0x10054 + 0x20 * i
/-- Address of SPN_SW (R75, Table 2.10). -/
def R.SPN_SW : Nat := 0x100A0
/-- Address of SPN_SW2 (R75, Table 2.10). -/
def R.SPN_SW2 : Nat := 0x100A4
/-- Address of SPN_HOLD (R75, Table 2.10). -/
def R.SPN_HOLD : Nat := 0x100A8
/-- Address of SPN_STEPTHR (R75, Table 2.10). -/
def R.SPN_STEPTHR : Nat := 0x100AC
/-- Address of SPN_PPS (R75, Table 2.10). -/
def R.SPN_PPS : Nat := 0x100B0
/-- Address of SPN_PPS_OFS (R75, Table 2.10). -/
def R.SPN_PPS_OFS : Nat := 0x100B4
/-- Address of SPN_HOP_ASYM_U (R75, Table 2.10). -/
def R.SPN_HOP_ASYM_U : Nat := 0x100B8
/-- Address of SPN_HOP_ASYM_D (R75, Table 2.10). -/
def R.SPN_HOP_ASYM_D : Nat := 0x100BC
/-- Address of CMP_T (R75, Table 2.10). -/
def R.CMP_T (i : Nat) : Nat := 0x10100 + 0x20 * i
/-- Address of CMP_T_HI (R75, Table 2.10). -/
def R.CMP_T_HI (i : Nat) : Nat := 0x10104 + 0x20 * i
/-- Address of CMP_PER (R75, Table 2.10). -/
def R.CMP_PER (i : Nat) : Nat := 0x10108 + 0x20 * i
/-- Address of CMP_CTRL (R75, Table 2.10). -/
def R.CMP_CTRL (i : Nat) : Nat := 0x1010C + 0x20 * i
/-- Address of FLT_CTRL (R398, Table 14.9). -/
def R.FLT_CTRL : Nat := 0x20000
/-- Address of FLT_FIRST (R398, Table 14.9). -/
def R.FLT_FIRST : Nat := 0x20004
/-- Address of FLT_FIRST_T (R398, Table 14.9). -/
def R.FLT_FIRST_T : Nat := 0x20008
/-- Address of FLT_FIRST_T_HI (R398, Table 14.9). -/
def R.FLT_FIRST_T_HI : Nat := 0x2000C
/-- Address of FLT_OVF (R398, Table 14.9). -/
def R.FLT_OVF : Nat := 0x20010
/-- Address of FLT_LOG (R398, Table 14.9). -/
def R.FLT_LOG : Nat := 0x20014
/-- Address of FLT_STQ (R398, Table 14.9). -/
def R.FLT_STQ : Nat := 0x20018
/-- Address of FLT_ST_LAST (R398, Table 14.9). -/
def R.FLT_ST_LAST : Nat := 0x2001C
/-- Address of FLT_FORCE_INST (R398, Table 14.9). -/
def R.FLT_FORCE_INST : Nat := 0x20020
/-- Address of FLT_ALIVE (R398, Table 14.9). -/
def R.FLT_ALIVE : Nat := 0x20024
/-- Address of FLT_RAW (R398, Table 14.9). -/
def R.FLT_RAW (i : Nat) : Nat := 0x20100 + 0x4 * i
/-- Address of FLT_STICKY (R398, Table 14.9). -/
def R.FLT_STICKY (i : Nat) : Nat := 0x20120 + 0x4 * i
/-- Address of FLT_FORCE (R398, Table 14.9). -/
def R.FLT_FORCE (i : Nat) : Nat := 0x20140 + 0x4 * i
/-- Address of FLT_EN (R398, Table 14.9). -/
def R.FLT_EN (i : Nat) : Nat := 0x20160 + 0x4 * i
/-- Address of FLT_REACT (R398, Table 14.9). -/
def R.FLT_REACT (i : Nat) : Nat := 0x20200 + 0x4 * i
/-- Address of FLT_CNT (R398, Table 14.9). -/
def R.FLT_CNT (i : Nat) : Nat := 0x20300 + 0x4 * i
/-- Address of FLT_LIST (R398, Table 14.9). -/
def R.FLT_LIST (i j : Nat) : Nat := 0x24000 + 0x40 * i + 0x4 * j
/-- Address of CMD_CFG (R380, Table 13.9). -/
def R.CMD_CFG : Nat := 0x30000
/-- Address of CMD_STAT (R380, Table 13.9). -/
def R.CMD_STAT : Nat := 0x30004
/-- Address of CMD_SPI_STAT (R380, Table 13.9). -/
def R.CMD_SPI_STAT : Nat := 0x30008
/-- Address of CMD_LAST (R380, Table 13.9). -/
def R.CMD_LAST : Nat := 0x3000C
/-- Address of CMD_HUBID (R380, Table 13.9). -/
def R.CMD_HUBID : Nat := 0x30010
/-- Address of LNE_CTRL (R318, Table 11.8). -/
def R.LNE_CTRL (i : Nat) : Nat := 0x40000 + 0x40 * i
/-- Address of LNE_TXEQ (R318, Table 11.8). -/
def R.LNE_TXEQ (i : Nat) : Nat := 0x40004 + 0x40 * i
/-- Address of LNE_RXEQ (R318, Table 11.8). -/
def R.LNE_RXEQ (i : Nat) : Nat := 0x40008 + 0x40 * i
/-- Address of LNE_DFE (R318, Table 11.8). -/
def R.LNE_DFE (i : Nat) : Nat := 0x4000C + 0x40 * i
/-- Address of LNE_STAT (R318, Table 11.8). -/
def R.LNE_STAT (i : Nat) : Nat := 0x40010 + 0x40 * i
/-- Address of LNE_PERR (R318, Table 11.8). -/
def R.LNE_PERR (i : Nat) : Nat := 0x40014 + 0x40 * i
/-- Address of LNE_EYE (R318, Table 11.8). -/
def R.LNE_EYE (i : Nat) : Nat := 0x40018 + 0x40 * i
/-- Address of LNE_EQCFG (R318, Table 11.8). -/
def R.LNE_EQCFG (i : Nat) : Nat := 0x4001C + 0x40 * i
/-- Address of LNE_GRP (R319, Table 11.9). -/
def R.LNE_GRP (i : Nat) : Nat := 0x40800 + 0x10 * i
/-- Address of NET_CTRL (R347, Table 12.13). -/
def R.NET_CTRL (i : Nat) : Nat := 0x50000 + 0x100 * i
/-- Address of NET_STAT (R347, Table 12.13). -/
def R.NET_STAT (i : Nat) : Nat := 0x50004 + 0x100 * i
/-- Address of NET_MAC (R347, Table 12.13). -/
def R.NET_MAC (i : Nat) : Nat := 0x50008 + 0x100 * i
/-- Address of NET_MAC_HI (R347, Table 12.13). -/
def R.NET_MAC_HI (i : Nat) : Nat := 0x5000C + 0x100 * i
/-- Address of NET_MTU (R347, Table 12.13). -/
def R.NET_MTU (i : Nat) : Nat := 0x50010 + 0x100 * i
/-- Address of NET_IP4 (R347, Table 12.13). -/
def R.NET_IP4 (i : Nat) : Nat := 0x50014 + 0x100 * i
/-- Address of NET_IP4_GW (R347, Table 12.13). -/
def R.NET_IP4_GW (i : Nat) : Nat := 0x50018 + 0x100 * i
/-- Address of NET_IP4_PFX (R347, Table 12.13). -/
def R.NET_IP4_PFX (i : Nat) : Nat := 0x5001C + 0x100 * i
/-- Address of NET_IP6 (R347, Table 12.13). -/
def R.NET_IP6 (i j : Nat) : Nat := 0x50020 + 0x100 * i + 0x4 * j
/-- Address of NET_IP6_GW (R347, Table 12.13). -/
def R.NET_IP6_GW (i j : Nat) : Nat := 0x50030 + 0x100 * i + 0x4 * j
/-- Address of NET_IP6_PFX (R347, Table 12.13). -/
def R.NET_IP6_PFX (i : Nat) : Nat := 0x50040 + 0x100 * i
/-- Address of NET_PTP_ASYM (R347, Table 12.13). -/
def R.NET_PTP_ASYM (i : Nat) : Nat := 0x50044 + 0x100 * i
/-- Address of NET_PTP_CFG (R347, Table 12.13). -/
def R.NET_PTP_CFG (i : Nat) : Nat := 0x50048 + 0x100 * i
/-- Address of NET_GCFG (R348, Table 12.14). -/
def R.NET_GCFG : Nat := 0x50800
/-- Address of NET_SPORT (R348, Table 12.14). -/
def R.NET_SPORT : Nat := 0x50804
/-- Address of DST_ADDR (R348, Table 12.14). -/
def R.DST_ADDR (i j : Nat) : Nat := 0x51000 + 0x20 * i + 0x4 * j
/-- Address of DST_PORT (R348, Table 12.14). -/
def R.DST_PORT (i : Nat) : Nat := 0x51010 + 0x20 * i
/-- Address of CHP_CTRL (R349, Table 12.15). -/
def R.CHP_CTRL (i : Nat) : Nat := 0x60000 + 0x100 * i
/-- Address of CHP_STAT (R349, Table 12.15). -/
def R.CHP_STAT (i : Nat) : Nat := 0x60004 + 0x100 * i
/-- Address of CHP_PEER (R349, Table 12.15). -/
def R.CHP_PEER (i : Nat) : Nat := 0x60008 + 0x100 * i
/-- Address of CHP_RING (R349, Table 12.16). -/
def R.CHP_RING : Nat := 0x60800
/-- Address of CHP_ACT (R349, Table 12.16). -/
def R.CHP_ACT : Nat := 0x60804
/-- Address of CHP_MIRR (R349, Table 12.16). -/
def R.CHP_MIRR : Nat := 0x60808
/-- Address of CHP_SWT (R349, Table 12.16). -/
def R.CHP_SWT : Nat := 0x6080C
/-- Address of CHP_NEXP (R349, Table 12.16). -/
def R.CHP_NEXP : Nat := 0x60810
/-- Address of STR_CTRL (R264, Table 9.11). -/
def R.STR_CTRL (i : Nat) : Nat := 0x70000 + 0x40 * i
/-- Address of STR_CFG (R264, Table 9.11). -/
def R.STR_CFG (i : Nat) : Nat := 0x70004 + 0x40 * i
/-- Address of STR_FIFO (R264, Table 9.11). -/
def R.STR_FIFO (i : Nat) : Nat := 0x70008 + 0x40 * i
/-- Address of STR_SEND (R264, Table 9.11). -/
def R.STR_SEND (i : Nat) : Nat := 0x7000C + 0x40 * i
/-- Address of STR_MEMB (R264, Table 9.11). -/
def R.STR_MEMB (i : Nat) : Nat := 0x70010 + 0x40 * i
/-- Address of STR_PSEQ (R264, Table 9.11). -/
def R.STR_PSEQ (i : Nat) : Nat := 0x70014 + 0x40 * i
/-- Address of STR_STAT (R264, Table 9.11). -/
def R.STR_STAT (i : Nat) : Nat := 0x70018 + 0x40 * i
/-- Address of STR_FSTAT (R264, Table 9.11). -/
def R.STR_FSTAT (i : Nat) : Nat := 0x7001C + 0x40 * i
/-- Address of STR_WP (R264, Table 9.11). -/
def R.STR_WP (i : Nat) : Nat := 0x70020 + 0x40 * i
/-- Address of STR_SP (R264, Table 9.11). -/
def R.STR_SP (i : Nat) : Nat := 0x70024 + 0x40 * i
/-- Address of STR_RP (R264, Table 9.11). -/
def R.STR_RP (i : Nat) : Nat := 0x70028 + 0x40 * i
/-- Address of STR_RATE (R264, Table 9.11). -/
def R.STR_RATE (i : Nat) : Nat := 0x7002C + 0x40 * i
/-- Address of STR_WIRE (R264, Table 9.11). -/
def R.STR_WIRE (i : Nat) : Nat := 0x70030 + 0x40 * i
/-- Address of STR_ICNT (R264, Table 9.11). -/
def R.STR_ICNT (i : Nat) : Nat := 0x70034 + 0x40 * i
/-- Address of STR_ICNT_HI (R264, Table 9.11). -/
def R.STR_ICNT_HI (i : Nat) : Nat := 0x70038 + 0x40 * i
/-- Address of STR_RBUD (R264, Table 9.11). -/
def R.STR_RBUD (i : Nat) : Nat := 0x7003C + 0x40 * i
/-- Address of STR_BUDGET (R265, Table 9.12). -/
def R.STR_BUDGET : Nat := 0x78000
/-- Address of STR_GSTAT (R265, Table 9.12). -/
def R.STR_GSTAT : Nat := 0x78004
/-- Address of STR_FSUM (R265, Table 9.12). -/
def R.STR_FSUM : Nat := 0x78008
/-- Address of STR_WSUM (R265, Table 9.12). -/
def R.STR_WSUM : Nat := 0x7800C
/-- Address of STR_GSTORE (R265, Table 9.12). -/
def R.STR_GSTORE : Nat := 0x78010
/-- Address of STR_ML (R265, Table 9.12). -/
def R.STR_ML (i : Nat) : Nat := 0x7A000 + 0x4 * i
/-- Address of GGE_CTRL (R294, Table 10.10). -/
def R.GGE_CTRL : Nat := 0x80000
/-- Address of GGE_STAT (R294, Table 10.10). -/
def R.GGE_STAT : Nat := 0x80004
/-- Address of GGE_LOAD (R294, Table 10.10). -/
def R.GGE_LOAD : Nat := 0x80008
/-- Address of GGE_CAP (R294, Table 10.10). -/
def R.GGE_CAP : Nat := 0x8000C
/-- Address of GGE_POOL (R294, Table 10.10). -/
def R.GGE_POOL : Nat := 0x80010
/-- Address of GGE_OBUF (R294, Table 10.10). -/
def R.GGE_OBUF : Nat := 0x80014
/-- Address of GGE_CTX (R294, Table 10.11). -/
def R.GGE_CTX (i : Nat) : Nat := 0x81000 + 0x10 * i
/-- Address of GGE_CSTAT (R294, Table 10.11). -/
def R.GGE_CSTAT (i : Nat) : Nat := 0x81004 + 0x10 * i
/-- Address of GGE_CIN (R294, Table 10.11). -/
def R.GGE_CIN (i : Nat) : Nat := 0x81008 + 0x10 * i
/-- Address of GGE_COUT (R294, Table 10.11). -/
def R.GGE_COUT (i : Nat) : Nat := 0x8100C + 0x10 * i
/-- Address of CAP_RING (R235, Table 8.8). -/
def R.CAP_RING : Nat := 0x90000
/-- Address of CAP_BOWL (R235, Table 8.8). -/
def R.CAP_BOWL : Nat := 0x90004
/-- Address of CAP_CTRL (R235, Table 8.9). -/
def R.CAP_CTRL (i : Nat) : Nat := 0x91000 + 0x400 * i
/-- Address of CAP_CFG (R235, Table 8.9). -/
def R.CAP_CFG (i : Nat) : Nat := 0x91004 + 0x400 * i
/-- Address of CAP_BUF (R235, Table 8.9). -/
def R.CAP_BUF (i : Nat) : Nat := 0x91008 + 0x400 * i
/-- Address of CAP_SLOT (R235, Table 8.9). -/
def R.CAP_SLOT (i : Nat) : Nat := 0x9100C + 0x400 * i
/-- Address of CAP_PRE (R235, Table 8.9). -/
def R.CAP_PRE (i : Nat) : Nat := 0x91010 + 0x400 * i
/-- Address of CAP_MEAS (R235, Table 8.9). -/
def R.CAP_MEAS (i : Nat) : Nat := 0x91014 + 0x400 * i
/-- Address of CAP_MEAS_CFG (R235, Table 8.9). -/
def R.CAP_MEAS_CFG (i : Nat) : Nat := 0x91018 + 0x400 * i
/-- Address of CAP_STR (R235, Table 8.9). -/
def R.CAP_STR (i : Nat) : Nat := 0x9101C + 0x400 * i
/-- Address of CAP_STAT (R235, Table 8.9). -/
def R.CAP_STAT (i : Nat) : Nat := 0x91020 + 0x400 * i
/-- Address of CAP_ERR (R235, Table 8.9). -/
def R.CAP_ERR (i : Nat) : Nat := 0x91024 + 0x400 * i
/-- Address of CAP_RDQ (R235, Table 8.9). -/
def R.CAP_RDQ (i : Nat) : Nat := 0x91028 + 0x400 * i
/-- Address of CAP_SEQ (R235, Table 8.9). -/
def R.CAP_SEQ (i : Nat) : Nat := 0x9102C + 0x400 * i
/-- Address of CAP_LOST_T (R235, Table 8.9). -/
def R.CAP_LOST_T (i : Nat) : Nat := 0x91030 + 0x400 * i
/-- Address of CAP_LOST_T_HI (R235, Table 8.9). -/
def R.CAP_LOST_T_HI (i : Nat) : Nat := 0x91034 + 0x400 * i
/-- Address of CAP_LAST_T (R235, Table 8.9). -/
def R.CAP_LAST_T (i : Nat) : Nat := 0x91038 + 0x400 * i
/-- Address of CAP_LAST_T_HI (R235, Table 8.9). -/
def R.CAP_LAST_T_HI (i : Nat) : Nat := 0x9103C + 0x400 * i
/-- Address of CAP_CND (R235, Table 8.9). -/
def R.CAP_CND (i j : Nat) : Nat := 0x91100 + 0x400 * i + 0x10 * j
/-- Address of CAP_CND_V1 (R235, Table 8.9). -/
def R.CAP_CND_V1 (i j : Nat) : Nat := 0x91104 + 0x400 * i + 0x10 * j
/-- Address of CAP_CND_V2 (R235, Table 8.9). -/
def R.CAP_CND_V2 (i j : Nat) : Nat := 0x91108 + 0x400 * i + 0x10 * j
/-- Address of CAP_CHL (R235, Table 8.9). -/
def R.CAP_CHL (i j : Nat) : Nat := 0x91200 + 0x400 * i + 0x4 * j
/-- Address of TLS_STAT (R424, Table 15.14). -/
def R.TLS_STAT : Nat := 0xA0000
/-- Address of TLS_SI (R424, Table 15.14). -/
def R.TLS_SI : Nat := 0xA0004
/-- Address of TLS_SIRAW (R424, Table 15.14). -/
def R.TLS_SIRAW : Nat := 0xA0008
/-- Address of TLS_AX (R424, Table 15.14). -/
def R.TLS_AX (i : Nat) : Nat := 0xA0010 + 0x4 * i
/-- Address of TLS_SPD (R424, Table 15.14). -/
def R.TLS_SPD (i : Nat) : Nat := 0xA0020 + 0x4 * i
/-- Address of TLS_PCRC (R424, Table 15.14). -/
def R.TLS_PCRC : Nat := 0xA0030
/-- Address of TLS_SW (R424, Table 15.14). -/
def R.TLS_SW : Nat := 0xA0034
/-- Address of TLS_TLG (R424, Table 15.14). -/
def R.TLS_TLG : Nat := 0xA0038
/-- Address of TLS_TLGST (R424, Table 15.14). -/
def R.TLS_TLGST : Nat := 0xA003C
/-- Address of TLS_CYC (R424, Table 15.14). -/
def R.TLS_CYC : Nat := 0xA0040
/-- Address of CLU_EXC_CTRL (R98, Table 3.8). -/
def R.CLU_EXC_CTRL (i : Nat) : Nat := 0x100000 + 0x1000 * i
/-- Address of CLU_EXC_SET (R98, Table 3.8). -/
def R.CLU_EXC_SET (i : Nat) : Nat := 0x100004 + 0x1000 * i
/-- Address of CLU_EXC_STAT (R98, Table 3.8). -/
def R.CLU_EXC_STAT (i : Nat) : Nat := 0x100008 + 0x1000 * i
/-- Address of CLU_EXC_MEAS (R98, Table 3.8). -/
def R.CLU_EXC_MEAS (i : Nat) : Nat := 0x10000C + 0x1000 * i
/-- Address of CLU_EXC_MEAS2 (R98, Table 3.8). -/
def R.CLU_EXC_MEAS2 (i : Nat) : Nat := 0x100010 + 0x1000 * i
/-- Address of RGN_CTRL (R126, Table 4.9). -/
def R.RGN_CTRL (i : Nat) : Nat := 0x200000 + 0x1000 * i
/-- Address of RGN_WIN (R126, Table 4.9). -/
def R.RGN_WIN (i : Nat) : Nat := 0x200004 + 0x1000 * i
/-- Address of RGN_START (R126, Table 4.9). -/
def R.RGN_START (i : Nat) : Nat := 0x200008 + 0x1000 * i
/-- Address of RGN_START_HI (R126, Table 4.9). -/
def R.RGN_START_HI (i : Nat) : Nat := 0x20000C + 0x1000 * i
/-- Address of RGN_STAT (R126, Table 4.9). -/
def R.RGN_STAT (i : Nat) : Nat := 0x200010 + 0x1000 * i
/-- Address of RGN_WSEQ (R126, Table 4.9). -/
def R.RGN_WSEQ (i : Nat) : Nat := 0x200014 + 0x1000 * i
/-- Address of RGN_MAINS (R126, Table 4.9). -/
def R.RGN_MAINS (i : Nat) : Nat := 0x200018 + 0x1000 * i
/-- Address of RGN_SEQ_CTRL (R159, Table 5.10). -/
def R.RGN_SEQ_CTRL (i : Nat) : Nat := 0x200040 + 0x1000 * i
/-- Address of RGN_SEQ_STAT (R159, Table 5.10). -/
def R.RGN_SEQ_STAT (i : Nat) : Nat := 0x200044 + 0x1000 * i
/-- Address of RGN_SEQ_ROT (R159, Table 5.10). -/
def R.RGN_SEQ_ROT (i : Nat) : Nat := 0x200048 + 0x1000 * i
/-- Address of RGN_SEQ_MASK (R159, Table 5.10). -/
def R.RGN_SEQ_MASK (i : Nat) : Nat := 0x20004C + 0x1000 * i
/-- Address of RGN_SEQ_MASK_HI (R159, Table 5.10). -/
def R.RGN_SEQ_MASK_HI (i : Nat) : Nat := 0x200050 + 0x1000 * i
/-- Address of RGN_SEQ_CMPL (R159, Table 5.10). -/
def R.RGN_SEQ_CMPL (i : Nat) : Nat := 0x200054 + 0x1000 * i
/-- Address of RGN_STEADY_CFG (R159, Table 5.10). -/
def R.RGN_STEADY_CFG (i : Nat) : Nat := 0x200060 + 0x1000 * i
/-- Address of RGN_CAL_CFG (R159, Table 5.10). -/
def R.RGN_CAL_CFG (i : Nat) : Nat := 0x200064 + 0x1000 * i
/-- Address of RGN_STEADY_AUTO (R159, Table 5.10). -/
def R.RGN_STEADY_AUTO (i : Nat) : Nat := 0x200068 + 0x1000 * i
/-- Address of RGN_STEADY_STAT (R159, Table 5.10). -/
def R.RGN_STEADY_STAT (i : Nat) : Nat := 0x20006C + 0x1000 * i
/-- Address of RGN_SEQ_STR (R267, Table R267). -/
def R.RGN_SEQ_STR (i : Nat) : Nat := 0x200070 + 0x1000 * i
/-- Address of RGN_SEQ_ENT (R159, Table 5.10). -/
def R.RGN_SEQ_ENT (i j : Nat) : Nat := 0x200800 + 0x1000 * i + 0x8 * j
/-- Address of RGN_SEQ_ENT_HI (R159, Table 5.10). -/
def R.RGN_SEQ_ENT_HI (i j : Nat) : Nat := 0x200804 + 0x1000 * i + 0x8 * j
/-- Address of CH_AIN (R97, Table 3.7). -/
def R.CH_AIN (i : Nat) : Nat := 0x1000000 + 0x400 * i
/-- Address of CH_AIN_STAT (R97, Table 3.7). -/
def R.CH_AIN_STAT (i : Nat) : Nat := 0x1000004 + 0x400 * i
/-- Address of CH_EVT_CTRL (R127, Table 4.10). -/
def R.CH_EVT_CTRL (i : Nat) : Nat := 0x1000010 + 0x400 * i
/-- Address of CH_EVT_THR (R127, Table 4.10). -/
def R.CH_EVT_THR (i : Nat) : Nat := 0x1000014 + 0x400 * i
/-- Address of CH_EVT_STUCK (R127, Table 4.10). -/
def R.CH_EVT_STUCK (i : Nat) : Nat := 0x1000018 + 0x400 * i
/-- Address of CH_EVT_STAT (R127, Table 4.10). -/
def R.CH_EVT_STAT (i : Nat) : Nat := 0x100001C + 0x400 * i
/-- Address of CH_EVT_LAST (R127, Table 4.10). -/
def R.CH_EVT_LAST (i : Nat) : Nat := 0x1000020 + 0x400 * i
/-- Address of CH_EVT_LAST_HI (R127, Table 4.10). -/
def R.CH_EVT_LAST_HI (i : Nat) : Nat := 0x1000024 + 0x400 * i
/-- Address of CH_RAW_CNT (R127, Table 4.10). -/
def R.CH_RAW_CNT (i : Nat) : Nat := 0x1000028 + 0x400 * i
/-- Address of CH_RAW_RES (R127, Table 4.10). -/
def R.CH_RAW_RES (i : Nat) : Nat := 0x100002C + 0x400 * i
/-- Address of CH_STEADY_CTRL (R160, Table 5.11). -/
def R.CH_STEADY_CTRL (i : Nat) : Nat := 0x1000040 + 0x400 * i
/-- Address of CH_STEADY_STAT (R160, Table 5.11). -/
def R.CH_STEADY_STAT (i : Nat) : Nat := 0x1000044 + 0x400 * i
/-- Address of CH_CAL_STAT (R160, Table 5.11). -/
def R.CH_CAL_STAT (i : Nat) : Nat := 0x1000048 + 0x400 * i
/-- Address of CH_CAL_T (R160, Table 5.11). -/
def R.CH_CAL_T (i : Nat) : Nat := 0x100004C + 0x400 * i
/-- Address of CH_CAL_T_HI (R160, Table 5.11). -/
def R.CH_CAL_T_HI (i : Nat) : Nat := 0x1000050 + 0x400 * i
/-- Address of CH_MATCH (R160, Table 5.11). -/
def R.CH_MATCH (i : Nat) : Nat := 0x1000054 + 0x400 * i
/-- Address of CH_MATCH_G (R160, Table 5.11). -/
def R.CH_MATCH_G (i : Nat) : Nat := 0x1000058 + 0x400 * i
/-- Address of CH_TRIM (R160, Table 5.11). -/
def R.CH_TRIM (i j : Nat) : Nat := 0x1000080 + 0x400 * i + 0x8 * j
/-- Address of CH_CALV (R160, Table 5.11). -/
def R.CH_CALV (i j : Nat) : Nat := 0x1000084 + 0x400 * i + 0x8 * j
/-- Address of CH_QTRIM (R160, Table 5.11). -/
def R.CH_QTRIM (i : Nat) : Nat := 0x10000C0 + 0x400 * i
/-- Address of CH_HLT_CFG (R178, Table 6.7). -/
def R.CH_HLT_CFG (i : Nat) : Nat := 0x1000100 + 0x400 * i
/-- Address of CH_HLT_STAT (R178, Table 6.7). -/
def R.CH_HLT_STAT (i : Nat) : Nat := 0x1000104 + 0x400 * i
/-- Address of CH_OW_T (R178, Table 6.7). -/
def R.CH_OW_T (i : Nat) : Nat := 0x1000108 + 0x400 * i
/-- Address of CH_OW_T_HI (R178, Table 6.7). -/
def R.CH_OW_T_HI (i : Nat) : Nat := 0x100010C + 0x400 * i
/-- Address of CH_IMP_LIM (R178, Table 6.7). -/
def R.CH_IMP_LIM (i : Nat) : Nat := 0x1000110 + 0x400 * i
/-- Address of CH_IMP_CFG (R178, Table 6.7). -/
def R.CH_IMP_CFG (i : Nat) : Nat := 0x1000114 + 0x400 * i
/-- Address of CH_IMP_REF (R178, Table 6.7). -/
def R.CH_IMP_REF (i : Nat) : Nat := 0x1000118 + 0x400 * i
/-- Address of CH_IMP_R (R178, Table 6.7). -/
def R.CH_IMP_R (i : Nat) : Nat := 0x100011C + 0x400 * i
/-- Address of CH_IMP_X (R178, Table 6.7). -/
def R.CH_IMP_X (i : Nat) : Nat := 0x1000120 + 0x400 * i
/-- Address of CH_IMP_STAT (R178, Table 6.7). -/
def R.CH_IMP_STAT (i : Nat) : Nat := 0x1000124 + 0x400 * i
/-- Address of CH_IMP_T (R178, Table 6.7). -/
def R.CH_IMP_T (i : Nat) : Nat := 0x1000128 + 0x400 * i
/-- Address of CH_IMP_T_HI (R178, Table 6.7). -/
def R.CH_IMP_T_HI (i : Nat) : Nat := 0x100012C + 0x400 * i
/-- Address of CH_IMP_GOOD (R178, Table 6.7). -/
def R.CH_IMP_GOOD (i : Nat) : Nat := 0x1000130 + 0x400 * i
/-- Address of CH_IMP_GOOD_HI (R178, Table 6.7). -/
def R.CH_IMP_GOOD_HI (i : Nat) : Nat := 0x1000134 + 0x400 * i
/-- Address of CH_PRC_CTRL (R209, Table 7.7). -/
def R.CH_PRC_CTRL (i : Nat) : Nat := 0x1000180 + 0x400 * i
/-- Address of CH_PRC_FIR (R209, Table 7.7). -/
def R.CH_PRC_FIR (i : Nat) : Nat := 0x1000184 + 0x400 * i
/-- Address of CH_COR_GAIN (R209, Table 7.7). -/
def R.CH_COR_GAIN (i : Nat) : Nat := 0x1000188 + 0x400 * i
/-- Address of CH_COR_OFS (R209, Table 7.7). -/
def R.CH_COR_OFS (i : Nat) : Nat := 0x100018C + 0x400 * i
/-- Address of CH_BQ_COEF (R209, Table 7.7). -/
def R.CH_BQ_COEF (i j k : Nat) : Nat := 0x1000190 + 0x400 * i + 0x14 * j + 0x4 * k
/-- Address of CH_BQ_CTRL (R209, Table 7.7). -/
def R.CH_BQ_CTRL (i : Nat) : Nat := 0x10001B8 + 0x400 * i
/-- Address of CH_SCL_MUL (R209, Table 7.7). -/
def R.CH_SCL_MUL (i : Nat) : Nat := 0x10001C0 + 0x400 * i
/-- Address of CH_SCL_CFG (R209, Table 7.7). -/
def R.CH_SCL_CFG (i : Nat) : Nat := 0x10001C4 + 0x400 * i
/-- Address of CH_SCL_OFS (R209, Table 7.7). -/
def R.CH_SCL_OFS (i : Nat) : Nat := 0x10001C8 + 0x400 * i
/-- Address of CH_STAT_CFG (R209, Table 7.7). -/
def R.CH_STAT_CFG (i : Nat) : Nat := 0x10001D0 + 0x400 * i
/-- Address of CH_SW_CFG (R209, Table 7.7). -/
def R.CH_SW_CFG (i : Nat) : Nat := 0x10001D4 + 0x400 * i
/-- Address of CH_SW_UP (R209, Table 7.7). -/
def R.CH_SW_UP (i j : Nat) : Nat := 0x10001D8 + 0x400 * i + 0x8 * j
/-- Address of CH_SW_LO (R209, Table 7.7). -/
def R.CH_SW_LO (i j : Nat) : Nat := 0x10001DC + 0x400 * i + 0x8 * j
/-- Address of CH_SW_STAT (R209, Table 7.7). -/
def R.CH_SW_STAT (i : Nat) : Nat := 0x10001F8 + 0x400 * i
/-- Address of CH_GRP (R209, Table 7.7). -/
def R.CH_GRP (i : Nat) : Nat := 0x10001FC + 0x400 * i
/-- Address of CH_OUT_W (R209, Table 7.7). -/
def R.CH_OUT_W (i : Nat) : Nat := 0x1000200 + 0x400 * i
/-- Address of CH_OUT_Q (R209, Table 7.7). -/
def R.CH_OUT_Q (i : Nat) : Nat := 0x1000204 + 0x400 * i
/-- Address of CH_OUT_T (R209, Table 7.7). -/
def R.CH_OUT_T (i : Nat) : Nat := 0x1000208 + 0x400 * i
/-- Address of CH_OUT_T_HI (R209, Table 7.7). -/
def R.CH_OUT_T_HI (i : Nat) : Nat := 0x100020C + 0x400 * i
/-- Address of CH_OUT_S (R209, Table 7.7). -/
def R.CH_OUT_S (i : Nat) : Nat := 0x1000210 + 0x400 * i
/-- Address of CH_RQ_CFG (R209, Table 7.7). -/
def R.CH_RQ_CFG (i : Nat) : Nat := 0x1000214 + 0x400 * i
/-- Address of CH_EVT_STR (R267, Table R267). -/
def R.CH_EVT_STR (i : Nat) : Nat := 0x1000240 + 0x400 * i
/-- Address of SPR_CTRL (R161, Table 5.12). -/
def R.SPR_CTRL (i : Nat) : Nat := 0x1800040 + 0x400 * i
/-- Address of SPR_STAT (R161, Table 5.12). -/
def R.SPR_STAT (i : Nat) : Nat := 0x1800044 + 0x400 * i
/-- Address of SPR_CAL_STAT (R449, Table 17.4). -/
def R.SPR_CAL_STAT (i : Nat) : Nat := 0x1800048 + 0x400 * i
/-- Address of SPR_CAL_T (R449, Table 17.4). -/
def R.SPR_CAL_T (i : Nat) : Nat := 0x180004C + 0x400 * i
/-- Address of SPR_CAL_T_HI (R449, Table 17.4). -/
def R.SPR_CAL_T_HI (i : Nat) : Nat := 0x1800050 + 0x400 * i
/-- Address of SPR_TRIM (R449, Table 17.4). -/
def R.SPR_TRIM (i j : Nat) : Nat := 0x1800080 + 0x400 * i + 0x8 * j
/-- Address of SPR_CALV (R449, Table 17.4). -/
def R.SPR_CALV (i j : Nat) : Nat := 0x1800084 + 0x400 * i + 0x8 * j
/-- Address of SPR_QTRIM (R449, Table 17.4). -/
def R.SPR_QTRIM (i : Nat) : Nat := 0x18000C0 + 0x400 * i

def F.GLB_DEVID_DEVICE : Fld := ⟨31, 16, .ro, 0x384⟩
def F.GLB_DEVID_VARIANT : Fld := ⟨15, 8, .ro, 0⟩
def F.GLB_DEVID_SREV : Fld := ⟨7, 0, .ro, 0⟩
def F.GLB_FWVER_MAJOR : Fld := ⟨31, 24, .ro, 0⟩
def F.GLB_FWVER_MINOR : Fld := ⟨23, 16, .ro, 0⟩
def F.GLB_FWVER_BUILD : Fld := ⟨15, 0, .ro, 0⟩
def F.GLB_UID_UID_LO : Fld := ⟨31, 0, .ro, 0⟩
def F.GLB_UID_HI_UID_HI : Fld := ⟨31, 0, .ro, 0⟩
def F.GLB_MAC_MAC_LO : Fld := ⟨31, 0, .ro, 0⟩
def F.GLB_MAC_HI_MAC_HI : Fld := ⟨15, 0, .ro, 0⟩
def F.GLB_SCRATCH_SCR : Fld := ⟨31, 0, .rw, 0⟩
def F.GLB_ACCERR_LOCKCNT : Fld := ⟨31, 24, .rc, 0⟩
def F.GLB_ACCERR_IGNCNT : Fld := ⟨23, 16, .rc, 0⟩
def F.GLB_ACCERR_LOCK : Fld := ⟨1, 1, .w1c, 0⟩
def F.GLB_ACCERR_IGN : Fld := ⟨0, 0, .w1c, 0⟩
def F.GLB_ACCADR_ADDR : Fld := ⟨31, 0, .ro, 0⟩
def F.SNAP_CTRL_FWD : Fld := ⟨4, 4, .rw, 0⟩
def F.SNAP_CTRL_RING_EN : Fld := ⟨3, 3, .rw, 1⟩
def F.SNAP_CTRL_CMP_EN : Fld := ⟨2, 2, .rw, 0⟩
def F.SNAP_CTRL_PIN_EN : Fld := ⟨1, 1, .rw, 0⟩
def F.SNAP_CTRL_SOFT : Fld := ⟨0, 0, .sc, 0⟩
def F.SNAP_STAT_MISSED : Fld := ⟨31, 24, .rc, 0⟩
def F.SNAP_STAT_CAUSE : Fld := ⟨19, 16, .ro, 0⟩
def F.SNAP_STAT_LATE : Fld := ⟨8, 8, .w1c, 0⟩
def F.SNAP_STAT_BUSY : Fld := ⟨0, 0, .ro, 0⟩
def F.SNAP_SEQ_SEQ : Fld := ⟨31, 0, .ro, 0⟩
def F.SNAP_LTS_SEC_LO : Fld := ⟨31, 0, .ro, 0⟩
def F.SNAP_LTS_HI_SEC_HI : Fld := ⟨31, 0, .ro, 0⟩
def F.SNAP_LTN_NS : Fld := ⟨31, 0, .ro, 0⟩
def F.SNAP_LTF_FRAC : Fld := ⟨15, 0, .ro, 0⟩
def F.DLK_STAT_DOWNCNT : Fld := ⟨31, 24, .rc, 0⟩
def F.DLK_STAT_WDROP : Fld := ⟨23, 16, .rc, 0⟩
def F.DLK_STAT_RETRY : Fld := ⟨15, 8, .rc, 0⟩
def F.DLK_STAT_STALE : Fld := ⟨2, 2, .w1c, 0⟩
def F.DLK_STAT_RESTART : Fld := ⟨1, 1, .w1c, 0⟩
def F.DLK_STAT_UP : Fld := ⟨0, 0, .ro, 0⟩
def F.PRC_DEMAND_DEMAND : Fld := ⟨31, 0, .ro, 0xc350⟩
def F.PRC_CAP_CAP : Fld := ⟨31, 0, .ro, 0⟩
def F.PRC_STAT_REFUSED : Fld := ⟨0, 0, .w1c, 0⟩
def F.PRC_FIRLEN_NT : Fld := ⟨8, 0, .rwl, 1⟩
def F.PRC_SWMAP_EN : Fld := ⟨31, 31, .rw, 0⟩
def F.PRC_SWMAP_INV : Fld := ⟨30, 30, .rw, 0⟩
def F.PRC_SWMAP_CHAN : Fld := ⟨10, 2, .rw, 0⟩
def F.PRC_SWMAP_SW : Fld := ⟨1, 0, .rw, 0⟩
def F.PWR_REQ_KIND : Fld := ⟨9, 8, .wo, 0⟩
def F.PWR_REQ_VALUE : Fld := ⟨1, 0, .wo, 0⟩
def F.PWR_STAT_REFCNT : Fld := ⟨31, 24, .rc, 0⟩
def F.PWR_STAT_REFC : Fld := ⟨23, 20, .ro, 0⟩
def F.PWR_STAT_PENDV : Fld := ⟨17, 17, .ro, 0⟩
def F.PWR_STAT_PKIND : Fld := ⟨16, 16, .ro, 0⟩
def F.PWR_STAT_PVAL : Fld := ⟨15, 14, .ro, 0⟩
def F.PWR_STAT_TRANS : Fld := ⟨13, 13, .ro, 0⟩
def F.PWR_STAT_CKIND : Fld := ⟨12, 12, .ro, 0⟩
def F.PWR_STAT_CVAL : Fld := ⟨11, 10, .ro, 0⟩
def F.PWR_STAT_RUNPL : Fld := ⟨9, 8, .ro, 0⟩
def F.PWR_STAT_MODE : Fld := ⟨5, 4, .ro, 0⟩
def F.PWR_STAT_PL : Fld := ⟨1, 0, .ro, 0⟩
def F.PWR_RST_INHUSH : Fld := ⟨5, 5, .ro, 0⟩
def F.PWR_RST_WAKE_FLAG : Fld := ⟨4, 4, .ro, 0⟩
def F.PWR_RST_BOR : Fld := ⟨3, 3, .ro, 0⟩
def F.PWR_RST_CMD : Fld := ⟨2, 2, .ro, 0⟩
def F.PWR_RST_PIN : Fld := ⟨1, 1, .ro, 0⟩
def F.PWR_RST_POR : Fld := ⟨0, 0, .ro, 0⟩
def F.PWR_WREC_ENTRY : Fld := ⟨31, 24, .ro, 0⟩
def F.PWR_WREC_COPY : Fld := ⟨8, 8, .ro, 0⟩
def F.PWR_WREC_WRSTAT : Fld := ⟨1, 0, .ro, 0⟩
def F.PWR_WCAUSE_ALARM : Fld := ⟨9, 9, .ro, 0⟩
def F.PWR_WCAUSE_PIN : Fld := ⟨8, 8, .ro, 0⟩
def F.PWR_WCAUSE_WATCH : Fld := ⟨7, 0, .ro, 0⟩
def F.PWR_WACNT_ACNT_LO : Fld := ⟨31, 0, .ro, 0⟩
def F.PWR_WACNT_HI_ACNT_HI : Fld := ⟨31, 0, .ro, 0⟩
def F.PWR_ACNT_ACNT_LO : Fld := ⟨31, 0, .ro, 0⟩
def F.PWR_ACNT_HI_ACNT_HI : Fld := ⟨31, 0, .ro, 0⟩
def F.PWR_WLTS_SEC_LO : Fld := ⟨31, 0, .ro, 0⟩
def F.PWR_WLTS_HI_SEC_HI : Fld := ⟨31, 0, .ro, 0⟩
def F.PWR_WLTN_NS : Fld := ⟨31, 0, .ro, 0⟩
def F.PWR_WLTF_FRAC : Fld := ⟨15, 0, .ro, 0⟩
def F.PWR_NOTE_NOTE : Fld := ⟨31, 0, .rw, 0⟩
def F.PWR_WCFG_WATCHEN : Fld := ⟨31, 24, .rw, 0⟩
def F.PWR_WCFG_ALARM_EN : Fld := ⟨9, 9, .rw, 0⟩
def F.PWR_WCFG_PIN_EN : Fld := ⟨8, 8, .rw, 1⟩
def F.PWR_WTHR_THR (i : Nat) : Fld := ⟨8 * i + 7, 8 * i, .rw, 10⟩
def F.PWR_WTHR2_THR (i : Nat) : Fld := ⟨8 * i + 7, 8 * i, .rw, 10⟩
def F.PWR_ALARM_ALARM : Fld := ⟨31, 0, .rw, 0⟩
def F.PWR_TEMP_T : Fld := ⟨15, 0, .ro, 0⟩
def F.PWR_TWARN_TWARN : Fld := ⟨7, 0, .rw, 0x73⟩
def F.PWR_SUP_XT32 : Fld := ⟨14, 14, .ro, 0⟩
def F.PWR_SUP_VDDC : Fld := ⟨13, 13, .ro, 0⟩
def F.PWR_SUP_VAON : Fld := ⟨12, 12, .ro, 0⟩
def F.PWR_SUP_AVDDL : Fld := ⟨11, 8, .ro, 0⟩
def F.PWR_SUP_AVDD : Fld := ⟨7, 4, .ro, 0⟩
def F.PWR_SUP_LANEH : Fld := ⟨3, 3, .ro, 0⟩
def F.PWR_SUP_LANE : Fld := ⟨2, 2, .ro, 0⟩
def F.PWR_SUP_IO : Fld := ⟨1, 1, .ro, 0⟩
def F.PWR_SUP_CORE : Fld := ⟨0, 0, .ro, 0⟩
def F.PWR_VDDC_MV : Fld := ⟨15, 0, .ro, 0⟩
def F.PWR_BANK_WORD : Fld := ⟨31, 0, .ro, 0⟩
def F.PWR_BANK1_WORD : Fld := ⟨31, 0, .ro, 0⟩
def F.PRC_FIRC_H : Fld := ⟨31, 0, .rwl, 0⟩
def F.SPN_CTRL_AUTOSTEP : Fld := ⟨8, 8, .rw, 1⟩
def F.SPN_CTRL_STEP : Fld := ⟨3, 3, .sc, 0⟩
def F.SPN_CTRL_MODE : Fld := ⟨1, 0, .rw, 0⟩
def F.SPN_STAT_STEPREF : Fld := ⟨31, 24, .rc, 0⟩
def F.SPN_STAT_SWREF : Fld := ⟨23, 16, .rc, 0⟩
def F.SPN_STAT_DOM : Fld := ⟨8, 8, .ro, 0⟩
def F.SPN_STAT_TQ : Fld := ⟨3, 0, .ro, 4⟩
def F.SPN_LTS_SEC_LO : Fld := ⟨31, 0, .ro, 0⟩
def F.SPN_LTS_HI_SEC_HI : Fld := ⟨31, 0, .ro, 0⟩
def F.SPN_LTN_NS : Fld := ⟨31, 0, .ro, 0⟩
def F.SPN_LTF_FRAC : Fld := ⟨15, 0, .ro, 0⟩
def F.SPN_SET_SEC_LO : Fld := ⟨31, 0, .rw, 0⟩
def F.SPN_SET_HI_SEC_HI : Fld := ⟨31, 0, .rw, 0⟩
def F.SPN_SETN_NS : Fld := ⟨31, 0, .rw, 0⟩
def F.SPN_SETF_FRAC : Fld := ⟨15, 0, .rw, 0⟩
def F.SPN_RATE_RATE_LO : Fld := ⟨31, 0, .rw, 0⟩
def F.SPN_RATE_HI_RATE_HI : Fld := ⟨15, 0, .rw, 0⟩
def F.SPN_SLEW_MAX : Fld := ⟨7, 0, .rw, 0x64⟩
def F.TRK_CFG_DOMAIN : Fld := ⟨31, 24, .rw, 0⟩
def F.TRK_CFG_SRC : Fld := ⟨19, 16, .rw, 0⟩
def F.TRK_CFG_TAU : Fld := ⟨15, 6, .rw, 0⟩
def F.TRK_CFG_EN : Fld := ⟨0, 0, .rw, 0⟩
def F.TRK_QUAL_QTIME : Fld := ⟨31, 16, .rw, 0⟩
def F.TRK_QUAL_LOCK_THR : Fld := ⟨15, 0, .rw, 0⟩
def F.TRK_STAT_LOSTCNT : Fld := ⟨31, 24, .rc, 0⟩
def F.TRK_STAT_STATE : Fld := ⟨3, 0, .ro, 0⟩
def F.TRK_OFS_OFS_LO : Fld := ⟨31, 0, .ro, 0⟩
def F.TRK_OFS_HI_OFS_HI : Fld := ⟨31, 0, .ro, 0⟩
def F.TRK_FRQ_FRQ : Fld := ⟨31, 0, .ro, 0⟩
def F.SPN_SW_SW_THR : Fld := ⟨31, 16, .rw, 0xc8⟩
def F.SPN_SW_FTHR : Fld := ⟨15, 8, .rw, 0x32⟩
def F.SPN_SW_REVERT : Fld := ⟨2, 2, .rw, 0⟩
def F.SPN_SW_FORCE : Fld := ⟨1, 1, .sc, 0⟩
def F.SPN_SW_PREF : Fld := ⟨0, 0, .rw, 0⟩
def F.SPN_SW2_DIS_THR : Fld := ⟨31, 16, .rw, 0x3e8⟩
def F.SPN_SW2_REVTIME : Fld := ⟨15, 0, .rw, 0x258⟩
def F.SPN_HOLD_SYNCLOSS : Fld := ⟨31, 24, .rw, 8⟩
def F.SPN_HOLD_HOLD_MAX : Fld := ⟨23, 0, .rw, 0xe10⟩
def F.SPN_STEPTHR_STEPTHR : Fld := ⟨31, 0, .rw, 0xf4240⟩
def F.SPN_PPS_WIDTH : Fld := ⟨25, 16, .rw, 0x64⟩
def F.SPN_PPS_WIN : Fld := ⟨15, 8, .rw, 0xa⟩
def F.SPN_PPS_QUAL : Fld := ⟨3, 3, .rw, 1⟩
def F.SPN_PPS_PERIOD : Fld := ⟨2, 2, .rw, 0⟩
def F.SPN_PPS_OUT_EN : Fld := ⟨0, 0, .rw, 0⟩
def F.SPN_PPS_OFS_OFS : Fld := ⟨31, 0, .rw, 0⟩
def F.SPN_HOP_ASYM_U_ASYM : Fld := ⟨31, 0, .rw, 0⟩
def F.SPN_HOP_ASYM_D_ASYM : Fld := ⟨31, 0, .rw, 0⟩
def F.CMP_T_T_LO : Fld := ⟨31, 0, .rw, 0⟩
def F.CMP_T_HI_T_HI : Fld := ⟨15, 0, .rw, 0⟩
def F.CMP_PER_PER : Fld := ⟨31, 0, .rw, 0⟩
def F.CMP_CTRL_MISSED : Fld := ⟨31, 24, .rc, 0⟩
def F.CMP_CTRL_PW : Fld := ⟨23, 16, .rw, 0⟩
def F.CMP_CTRL_ACT_SEQ : Fld := ⟨10, 10, .rw, 0⟩
def F.CMP_CTRL_ACT_CAP : Fld := ⟨9, 9, .rw, 0⟩
def F.CMP_CTRL_ACT_SNAP : Fld := ⟨8, 8, .rw, 0⟩
def F.CMP_CTRL_LATE_FIRE : Fld := ⟨4, 4, .rw, 0⟩
def F.CMP_CTRL_LATE : Fld := ⟨3, 3, .w1c, 0⟩
def F.CMP_CTRL_BADT : Fld := ⟨2, 2, .w1c, 0⟩
def F.CMP_CTRL_ARMED : Fld := ⟨1, 1, .ro, 0⟩
def F.CMP_CTRL_DISARM : Fld := ⟨0, 0, .sc, 0⟩
def F.FLT_CTRL_FN_TEST : Fld := ⟨8, 8, .rw, 0⟩
def F.FLT_CTRL_CLR_ALL : Fld := ⟨0, 0, .sc, 0⟩
def F.FLT_FIRST_VALID : Fld := ⟨31, 31, .w1c, 0⟩
def F.FLT_FIRST_FORCED : Fld := ⟨30, 30, .ro, 0⟩
def F.FLT_FIRST_REAL : Fld := ⟨29, 29, .ro, 0⟩
def F.FLT_FIRST_INST : Fld := ⟨25, 16, .ro, 0⟩
def F.FLT_FIRST_SOURCE : Fld := ⟨7, 0, .ro, 0⟩
def F.FLT_FIRST_T_T_LO : Fld := ⟨31, 0, .ro, 0⟩
def F.FLT_FIRST_T_HI_T_HI : Fld := ⟨15, 0, .ro, 0⟩
def F.FLT_OVF_OVF : Fld := ⟨31, 31, .ro, 0⟩
def F.FLT_OVF_OVFCNT : Fld := ⟨15, 0, .ro, 0⟩
def F.FLT_LOG_LOST : Fld := ⟨31, 16, .rc, 0⟩
def F.FLT_LOG_RIDX : Fld := ⟨15, 8, .rw, 0⟩
def F.FLT_LOG_WIDX : Fld := ⟨7, 0, .ro, 0⟩
def F.FLT_STQ_DROP : Fld := ⟨31, 24, .rc, 0⟩
def F.FLT_STQ_CUR : Fld := ⟨15, 8, .ro, 0⟩
def F.FLT_STQ_BUSY : Fld := ⟨7, 7, .ro, 0⟩
def F.FLT_STQ_QLEN : Fld := ⟨5, 0, .ro, 0⟩
def F.FLT_ST_LAST_SOURCE : Fld := ⟨31, 24, .ro, 0⟩
def F.FLT_ST_LAST_VERDICT : Fld := ⟨18, 16, .ro, 0⟩
def F.FLT_ST_LAST_INST : Fld := ⟨9, 0, .ro, 0⟩
def F.FLT_FORCE_INST_INST : Fld := ⟨9, 0, .rw, 0x3ff⟩
def F.FLT_ALIVE_PARR : Fld := ⟨4, 4, .ro, 0⟩
def F.FLT_ALIVE_ALARM : Fld := ⟨3, 3, .ro, 0⟩
def F.FLT_ALIVE_IWD : Fld := ⟨2, 2, .ro, 0⟩
def F.FLT_ALIVE_FWD : Fld := ⟨1, 1, .ro, 0⟩
def F.FLT_ALIVE_HOLD : Fld := ⟨0, 0, .ro, 1⟩
def F.FLT_RAW_RAW : Fld := ⟨31, 0, .ro, 0⟩
def F.FLT_STICKY_STICKY : Fld := ⟨31, 0, .w1c, 0⟩
def F.FLT_FORCE_FORCE : Fld := ⟨31, 0, .rw, 0⟩
def F.FLT_EN_EN : Fld := ⟨31, 0, .rw, 0⟩
def F.FLT_REACT_REACT (i : Nat) : Fld := ⟨2 * i + 1, 2 * i, .rw, 0⟩
def F.FLT_CNT_CNT (i : Nat) : Fld := ⟨8 * i + 7, 8 * i, .rc, 0⟩
def F.FLT_LIST_LIST : Fld := ⟨31, 0, .w1c, 0⟩
def F.CMD_CFG_FWDTMO : Fld := ⟨15, 8, .rw, 0x32⟩
def F.CMD_CFG_NETWR : Fld := ⟨0, 0, .rw, 1⟩
def F.CMD_STAT_CRCERR : Fld := ⟨31, 24, .rc, 0⟩
def F.CMD_STAT_REFCNT : Fld := ⟨23, 16, .rc, 0⟩
def F.CMD_STAT_DUPCNT : Fld := ⟨15, 8, .rc, 0⟩
def F.CMD_STAT_INFLT : Fld := ⟨6, 0, .ro, 0⟩
def F.CMD_SPI_STAT_RQCNT : Fld := ⟨3, 0, .ro, 0⟩
def F.CMD_LAST_OPCODE : Fld := ⟨31, 24, .ro, 0⟩
def F.CMD_LAST_STATUS : Fld := ⟨23, 16, .ro, 0⟩
def F.CMD_LAST_SRCLO : Fld := ⟨15, 0, .ro, 0⟩
def F.CMD_HUBID_SITE : Fld := ⟨15, 4, .rw, 0⟩
def F.CMD_HUBID_HID : Fld := ⟨3, 0, .ro, 0⟩
def F.LNE_CTRL_OWN : Fld := ⟨15, 15, .rw, 0⟩
def F.LNE_CTRL_TXINV : Fld := ⟨13, 13, .rw, 0⟩
def F.LNE_CTRL_RXINV : Fld := ⟨12, 12, .rw, 0⟩
def F.LNE_CTRL_TMODE : Fld := ⟨11, 8, .rw, 0⟩
def F.LNE_CTRL_PRBS : Fld := ⟨7, 5, .rw, 4⟩
def F.LNE_CTRL_PINV : Fld := ⟨4, 4, .rw, 0⟩
def F.LNE_CTRL_ERRINJ : Fld := ⟨3, 3, .sc, 0⟩
def F.LNE_CTRL_PSREQ : Fld := ⟨1, 0, .rw, 2⟩
def F.LNE_TXEQ_POST : Fld := ⟨20, 16, .rw, 0⟩
def F.LNE_TXEQ_MAIN : Fld := ⟨13, 8, .rw, 0⟩
def F.LNE_TXEQ_PRE : Fld := ⟨3, 0, .rw, 0⟩
def F.LNE_RXEQ_CTLE_AUTO : Fld := ⟨31, 31, .rw, 1⟩
def F.LNE_RXEQ_DFE_AUTO : Fld := ⟨30, 30, .rw, 1⟩
def F.LNE_RXEQ_CTLE : Fld := ⟨3, 0, .rw, 0⟩
def F.LNE_DFE_T1 : Fld := ⟨29, 24, .ro, 0⟩
def F.LNE_DFE_T2 : Fld := ⟨23, 18, .ro, 0⟩
def F.LNE_DFE_T3 : Fld := ⟨17, 12, .ro, 0⟩
def F.LNE_DFE_T4 : Fld := ⟨11, 6, .ro, 0⟩
def F.LNE_DFE_T5 : Fld := ⟨5, 0, .ro, 0⟩
def F.LNE_STAT_LOSCNT : Fld := ⟨31, 24, .rc, 0⟩
def F.LNE_STAT_CFGERR : Fld := ⟨11, 11, .w1c, 0⟩
def F.LNE_STAT_TREF : Fld := ⟨10, 10, .w1c, 0⟩
def F.LNE_STAT_PRBS_LOCK : Fld := ⟨9, 9, .ro, 0⟩
def F.LNE_STAT_CDR_LOCK : Fld := ⟨8, 8, .ro, 0⟩
def F.LNE_STAT_LOS : Fld := ⟨7, 7, .ro, 1⟩
def F.LNE_STAT_EQLOW : Fld := ⟨6, 6, .ro, 0⟩
def F.LNE_STAT_PENDV : Fld := ⟨5, 5, .ro, 0⟩
def F.LNE_STAT_PSPEND : Fld := ⟨4, 3, .ro, 0⟩
def F.LNE_STAT_TRANS : Fld := ⟨2, 2, .ro, 0⟩
def F.LNE_STAT_PSCUR : Fld := ⟨1, 0, .ro, 2⟩
def F.LNE_PERR_ERR : Fld := ⟨31, 0, .rc, 0⟩
def F.LNE_EYE_EQF : Fld := ⟨31, 24, .ro, 0⟩
def F.LNE_EYE_EYE_V : Fld := ⟨15, 8, .ro, 0⟩
def F.LNE_EYE_EYE_H : Fld := ⟨6, 0, .ro, 0⟩
def F.LNE_EQCFG_EQTHR : Fld := ⟨15, 8, .rw, 0x40⟩
def F.LNE_GRP_LOCKCNT : Fld := ⟨31, 24, .rc, 0⟩
def F.LNE_GRP_CFGERR : Fld := ⟨9, 9, .w1c, 0⟩
def F.LNE_GRP_PLL_LOCK : Fld := ⟨8, 8, .ro, 0⟩
def F.LNE_GRP_RATE : Fld := ⟨3, 0, .rwl, 0⟩
def F.NET_CTRL_EXIT_EN : Fld := ⟨31, 31, .rw, 0⟩
def F.NET_CTRL_AN_EN : Fld := ⟨28, 28, .rw, 1⟩
def F.NET_CTRL_FEC : Fld := ⟨27, 27, .rw, 0⟩
def F.NET_CTRL_VLAN_EN : Fld := ⟨26, 26, .rwl, 0⟩
def F.NET_CTRL_PTP_TR : Fld := ⟨25, 24, .rw, 0⟩
def F.NET_CTRL_PTP_P2P : Fld := ⟨23, 23, .rw, 0⟩
def F.NET_CTRL_PTP_1STEP : Fld := ⟨22, 22, .rw, 1⟩
def F.NET_CTRL_PCP : Fld := ⟨15, 12, .rwl, 0⟩
def F.NET_CTRL_VID : Fld := ⟨11, 0, .rwl, 0⟩
def F.NET_STAT_ECHOERR : Fld := ⟨31, 24, .rc, 0⟩
def F.NET_STAT_RXDROP : Fld := ⟨23, 16, .rc, 0⟩
def F.NET_STAT_MTUERR : Fld := ⟨5, 5, .w1c, 0⟩
def F.NET_STAT_IPCONF : Fld := ⟨4, 4, .w1c, 0⟩
def F.NET_STAT_LINK : Fld := ⟨3, 3, .ro, 0⟩
def F.NET_STAT_XSTATE : Fld := ⟨2, 0, .ro, 0⟩
def F.NET_MAC_MAC_LO : Fld := ⟨31, 0, .rwl, 0⟩
def F.NET_MAC_HI_MAC_HI : Fld := ⟨15, 0, .rwl, 0⟩
def F.NET_MTU_MTU : Fld := ⟨13, 0, .rwl, 0x5dc⟩
def F.NET_IP4_ADDR : Fld := ⟨31, 0, .rwl, 0⟩
def F.NET_IP4_GW_GW : Fld := ⟨31, 0, .rwl, 0⟩
def F.NET_IP4_PFX_PFX : Fld := ⟨5, 0, .rwl, 0x18⟩
def F.NET_IP6_ADDR : Fld := ⟨31, 0, .rwl, 0⟩
def F.NET_IP6_GW_GW : Fld := ⟨31, 0, .rwl, 0⟩
def F.NET_IP6_PFX_PFX : Fld := ⟨6, 0, .rwl, 0x40⟩
def F.NET_PTP_ASYM_ASYM : Fld := ⟨31, 0, .rw, 0⟩
def F.NET_PTP_CFG_ANN_TMO : Fld := ⟨23, 16, .rw, 3⟩
def F.NET_PTP_CFG_LOG_PDLY : Fld := ⟨15, 8, .rw, 0⟩
def F.NET_GCFG_CMDPORT : Fld := ⟨31, 16, .rw, 0x7710⟩
def F.NET_GCFG_LDT : Fld := ⟨15, 8, .rw, 1⟩
def F.NET_GCFG_ECHO_N : Fld := ⟨7, 4, .rw, 2⟩
def F.NET_SPORT_SPORT : Fld := ⟨15, 0, .rw, 0x7711⟩
def F.DST_ADDR_ADDR : Fld := ⟨31, 0, .rwl, 0⟩
def F.DST_PORT_V : Fld := ⟨31, 31, .rwl, 0⟩
def F.DST_PORT_IP6 : Fld := ⟨30, 30, .rwl, 0⟩
def F.DST_PORT_PORT : Fld := ⟨15, 0, .rwl, 0⟩
def F.CHP_CTRL_GENMAX : Fld := ⟨5, 4, .rw, 3⟩
def F.CHP_CTRL_WMAX : Fld := ⟨3, 2, .rw, 2⟩
def F.CHP_CTRL_RETRAIN : Fld := ⟨1, 1, .sc, 0⟩
def F.CHP_CTRL_EN : Fld := ⟨0, 0, .rw, 1⟩
def F.CHP_STAT_DOWNCNT : Fld := ⟨31, 24, .rc, 0⟩
def F.CHP_STAT_REPLAY : Fld := ⟨23, 16, .rc, 0⟩
def F.CHP_STAT_BLKERR : Fld := ⟨15, 8, .rc, 0⟩
def F.CHP_STAT_GEN : Fld := ⟨5, 4, .ro, 0⟩
def F.CHP_STAT_WIDTH : Fld := ⟨3, 2, .ro, 0⟩
def F.CHP_STAT_UP : Fld := ⟨0, 0, .ro, 0⟩
def F.CHP_PEER_PEERID : Fld := ⟨15, 0, .ro, 0xffff⟩
def F.CHP_RING_NHUBS : Fld := ⟨28, 24, .ro, 1⟩
def F.CHP_RING_POS : Fld := ⟨19, 16, .ro, 0⟩
def F.CHP_RING_SWREF : Fld := ⟨4, 4, .w1c, 0⟩
def F.CHP_RING_NOEXIT : Fld := ⟨3, 3, .ro, 0⟩
def F.CHP_RING_ACTHERE : Fld := ⟨2, 2, .ro, 0⟩
def F.CHP_RING_SWITCH : Fld := ⟨1, 1, .sc, 0⟩
def F.CHP_ACT_ACTID : Fld := ⟨31, 16, .ro, 0xffff⟩
def F.CHP_ACT_APORT : Fld := ⟨0, 0, .ro, 0⟩
def F.CHP_MIRR_AGE : Fld := ⟨31, 16, .ro, 0xffff⟩
def F.CHP_MIRR_GEN : Fld := ⟨15, 0, .ro, 0⟩
def F.CHP_SWT_TGTID : Fld := ⟨31, 16, .rw, 0xffff⟩
def F.CHP_SWT_TGTPORT : Fld := ⟨0, 0, .rw, 0⟩
def F.CHP_NEXP_NEXP : Fld := ⟨4, 0, .rw, 0⟩
def F.STR_CTRL_ABORT : Fld := ⟨2, 2, .sc, 0⟩
def F.STR_CTRL_STOP : Fld := ⟨1, 1, .sc, 0⟩
def F.STR_CTRL_START : Fld := ⟨0, 0, .sc, 0⟩
def F.STR_CFG_KIND : Fld := ⟨31, 31, .rwl, 0⟩
def F.STR_CFG_GGE : Fld := ⟨30, 30, .rwl, 0⟩
def F.STR_CFG_SPILL : Fld := ⟨29, 29, .rwl, 0⟩
def F.STR_CFG_TAP : Fld := ⟨27, 26, .rwl, 3⟩
def F.STR_CFG_FORMAT : Fld := ⟨25, 24, .rwl, 0⟩
def F.STR_CFG_DESC_PER : Fld := ⟨23, 16, .rwl, 0xa⟩
def F.STR_CFG_MAXP : Fld := ⟨8, 0, .rwl, 0x2c⟩
def F.STR_FIFO_SIZE : Fld := ⟨27, 16, .rwl, 0⟩
def F.STR_FIFO_BASE : Fld := ⟨10, 0, .rwl, 0⟩
def F.STR_SEND_DST : Fld := ⟨19, 16, .rwl, 0⟩
def F.STR_SEND_FLUSH : Fld := ⟨13, 0, .rwl, 0xa⟩
def F.STR_MEMB_NCH : Fld := ⟨22, 16, .rwl, 0⟩
def F.STR_MEMB_MLBASE : Fld := ⟨10, 0, .rwl, 0⟩
def F.STR_PSEQ_PSEQ : Fld := ⟨31, 0, .rwl, 0⟩
def F.STR_STAT_GAPCNT : Fld := ⟨31, 24, .rc, 0⟩
def F.STR_STAT_CAUSE : Fld := ⟨15, 12, .ro, 0⟩
def F.STR_STAT_ABLOST : Fld := ⟨7, 7, .w1c, 0⟩
def F.STR_STAT_CFGERR : Fld := ⟨6, 6, .w1c, 0⟩
def F.STR_STAT_SPILLING : Fld := ⟨5, 5, .ro, 0⟩
def F.STR_STAT_GAP : Fld := ⟨4, 4, .ro, 0⟩
def F.STR_STAT_STATE : Fld := ⟨2, 0, .ro, 0⟩
def F.STR_FSTAT_PKTS : Fld := ⟨31, 16, .ro, 0⟩
def F.STR_FSTAT_SPILLPG : Fld := ⟨12, 0, .ro, 0⟩
def F.STR_WP_WP : Fld := ⟨18, 0, .ro, 0⟩
def F.STR_SP_SP : Fld := ⟨18, 0, .ro, 0⟩
def F.STR_RP_RP : Fld := ⟨18, 0, .ro, 0⟩
def F.STR_RATE_F : Fld := ⟨31, 0, .ro, 0⟩
def F.STR_WIRE_V : Fld := ⟨31, 0, .ro, 0⟩
def F.STR_ICNT_ICNT_LO : Fld := ⟨31, 0, .ro, 0⟩
def F.STR_ICNT_HI_ICNT_HI : Fld := ⟨31, 0, .ro, 0⟩
def F.STR_RBUD_RB : Fld := ⟨31, 0, .rwl, 0⟩
def F.STR_BUDGET_BUD : Fld := ⟨31, 0, .rw, 0⟩
def F.STR_GSTAT_NOROUTE : Fld := ⟨31, 24, .rc, 0⟩
def F.STR_GSTAT_REFCNT : Fld := ⟨23, 16, .rc, 0⟩
def F.STR_GSTAT_POOLPG : Fld := ⟨11, 0, .ro, 0⟩
def F.STR_FSUM_FSUM : Fld := ⟨31, 0, .ro, 0⟩
def F.STR_WSUM_WSUM : Fld := ⟨31, 0, .ro, 0⟩
def F.STR_GSTORE_COUNT : Fld := ⟨5, 0, .ro, 0⟩
def F.STR_ML_CHAN : Fld := ⟨8, 0, .rwl, 0⟩
def F.GGE_CTRL_RETEST : Fld := ⟨0, 0, .sc, 0⟩
def F.GGE_STAT_MISCNT : Fld := ⟨31, 24, .rc, 0⟩
def F.GGE_STAT_RSSCNT : Fld := ⟨23, 16, .rc, 0⟩
def F.GGE_STAT_STALL : Fld := ⟨9, 9, .ro, 0⟩
def F.GGE_STAT_VERDICT : Fld := ⟨5, 4, .ro, 0⟩
def F.GGE_STAT_STATE : Fld := ⟨1, 0, .ro, 0⟩
def F.GGE_LOAD_LOAD : Fld := ⟨31, 0, .ro, 0⟩
def F.GGE_CAP_CAP : Fld := ⟨31, 0, .ro, 0⟩
def F.GGE_POOL_USED : Fld := ⟨28, 16, .ro, 0⟩
def F.GGE_POOL_FREE : Fld := ⟨12, 0, .ro, 0x1000⟩
def F.GGE_OBUF_FILL : Fld := ⟨11, 0, .ro, 0⟩
def F.GGE_CTX_RSTBLK : Fld := ⟨31, 16, .rwl, 0x40⟩
def F.GGE_CTX_CONT : Fld := ⟨15, 15, .rwl, 0⟩
def F.GGE_CTX_TBL : Fld := ⟨13, 12, .rwl, 0⟩
def F.GGE_CTX_EFFORT : Fld := ⟨9, 8, .rwl, 1⟩
def F.GGE_CTX_PRED : Fld := ⟨5, 4, .rwl, 1⟩
def F.GGE_CTX_HSC : Fld := ⟨2, 0, .rwl, 2⟩
def F.GGE_CSTAT_FSCNT : Fld := ⟨31, 24, .rc, 0⟩
def F.GGE_CSTAT_REFC : Fld := ⟨23, 20, .ro, 0⟩
def F.GGE_CSTAT_GRAN : Fld := ⟨12, 0, .ro, 0⟩
def F.GGE_CIN_CIN : Fld := ⟨31, 0, .ro, 0⟩
def F.GGE_COUT_COUT : Fld := ⟨31, 0, .ro, 0⟩
def F.CAP_RING_ECHO : Fld := ⟨23, 16, .rw, 0⟩
def F.CAP_RING_RXEN : Fld := ⟨15, 8, .rw, 0⟩
def F.CAP_BOWL_ALLOCPG : Fld := ⟨28, 16, .ro, 0⟩
def F.CAP_BOWL_SPILLPG : Fld := ⟨12, 0, .ro, 0⟩
def F.CAP_CTRL_REL : Fld := ⟨3, 3, .sc, 0⟩
def F.CAP_CTRL_SOFT : Fld := ⟨2, 2, .sc, 0⟩
def F.CAP_CTRL_DISARM : Fld := ⟨1, 1, .sc, 0⟩
def F.CAP_CTRL_ARM : Fld := ⟨0, 0, .sc, 0⟩
def F.CAP_CFG_ALLOC : Fld := ⟨31, 31, .rwl, 0⟩
def F.CAP_CFG_AUTO : Fld := ⟨30, 30, .rwl, 0⟩
def F.CAP_CFG_OVW : Fld := ⟨29, 29, .rwl, 0⟩
def F.CAP_CFG_HOSTC : Fld := ⟨28, 28, .rwl, 1⟩
def F.CAP_CFG_STRC : Fld := ⟨27, 27, .rwl, 0⟩
def F.CAP_CFG_TOUTPW : Fld := ⟨23, 16, .rwl, 0⟩
def F.CAP_CFG_TAP : Fld := ⟨13, 12, .rwl, 0⟩
def F.CAP_CFG_FORMAT : Fld := ⟨9, 8, .rwl, 0⟩
def F.CAP_CFG_HOLDOFF : Fld := ⟨7, 0, .rwl, 0⟩
def F.CAP_BUF_PAGES : Fld := ⟨28, 16, .rwl, 0⟩
def F.CAP_BUF_BASE : Fld := ⟨11, 0, .rwl, 0⟩
def F.CAP_SLOT_NREC : Fld := ⟨28, 16, .ro, 0⟩
def F.CAP_SLOT_SLOTPG : Fld := ⟨12, 0, .rwl, 1⟩
def F.CAP_PRE_POST : Fld := ⟨31, 16, .rwl, 0⟩
def F.CAP_PRE_PRE : Fld := ⟨15, 0, .rwl, 0⟩
def F.CAP_MEAS_Z : Fld := ⟨31, 0, .rwl, 0⟩
def F.CAP_MEAS_CFG_ZSRC : Fld := ⟨0, 0, .rwl, 1⟩
def F.CAP_STR_STR : Fld := ⟨8, 0, .rwl, 0⟩
def F.CAP_STAT_LOSTCNT : Fld := ⟨31, 24, .rc, 0⟩
def F.CAP_STAT_OVWCNT : Fld := ⟨23, 16, .rc, 0⟩
def F.CAP_STAT_HOLDCNT : Fld := ⟨15, 8, .rc, 0⟩
def F.CAP_STAT_CFGERR : Fld := ⟨7, 7, .w1c, 0⟩
def F.CAP_STAT_LATE : Fld := ⟨6, 6, .w1c, 0⟩
def F.CAP_STAT_ALLOCW : Fld := ⟨5, 5, .ro, 0⟩
def F.CAP_STAT_STATE : Fld := ⟨3, 0, .ro, 0⟩
def F.CAP_ERR_CAUSE : Fld := ⟨3, 0, .ro, 0⟩
def F.CAP_RDQ_HSEQ : Fld := ⟨31, 16, .ro, 0⟩
def F.CAP_RDQ_VALID : Fld := ⟨15, 15, .ro, 0⟩
def F.CAP_RDQ_SLOT : Fld := ⟨12, 0, .ro, 0⟩
def F.CAP_SEQ_SEQ : Fld := ⟨31, 0, .ro, 0⟩
def F.CAP_LOST_T_T_LO : Fld := ⟨31, 0, .rc, 0⟩
def F.CAP_LOST_T_HI_T_HI : Fld := ⟨15, 0, .ro, 0⟩
def F.CAP_LAST_T_T_LO : Fld := ⟨31, 0, .ro, 0⟩
def F.CAP_LAST_T_HI_T_HI : Fld := ⟨15, 0, .ro, 0⟩
def F.CAP_CND_EN : Fld := ⟨31, 31, .rwl, 0⟩
def F.CAP_CND_FWD : Fld := ⟨30, 30, .rwl, 0⟩
def F.CAP_CND_LINE : Fld := ⟨29, 27, .rwl, 0⟩
def F.CAP_CND_TYPE : Fld := ⟨23, 20, .rwl, 0⟩
def F.CAP_CND_CHAN : Fld := ⟨17, 9, .rwl, 0⟩
def F.CAP_CND_PARAM : Fld := ⟨3, 0, .rwl, 0⟩
def F.CAP_CND_V1_V1 : Fld := ⟨31, 0, .rwl, 0⟩
def F.CAP_CND_V2_V2 : Fld := ⟨31, 0, .rwl, 0⟩
def F.CAP_CHL_VALID : Fld := ⟨31, 31, .rwl, 0⟩
def F.CAP_CHL_MEAS : Fld := ⟨30, 30, .rwl, 0⟩
def F.CAP_CHL_CHAN : Fld := ⟨8, 0, .rwl, 0⟩
def F.TLS_STAT_LCAUSE : Fld := ⟨27, 24, .ro, 0⟩
def F.TLS_STAT_PRES : Fld := ⟨23, 16, .ro, 0⟩
def F.TLS_STAT_CONN : Fld := ⟨11, 10, .ro, 0⟩
def F.TLS_STAT_GSTATE : Fld := ⟨1, 0, .ro, 0⟩
def F.TLS_SI_SIFLT : Fld := ⟨31, 16, .ro, 0⟩
def F.TLS_SI_SIST : Fld := ⟨15, 0, .ro, 0⟩
def F.TLS_SIRAW_SIB : Fld := ⟨31, 16, .ro, 0⟩
def F.TLS_SIRAW_SIA : Fld := ⟨15, 0, .ro, 0⟩
def F.TLS_AX_DEM : Fld := ⟨20, 16, .ro, 0⟩
def F.TLS_AX_SBCREL : Fld := ⟨11, 11, .ro, 0⟩
def F.TLS_AX_STOA : Fld := ⟨10, 10, .ro, 0⟩
def F.TLS_AX_STOB : Fld := ⟨9, 9, .ro, 0⟩
def F.TLS_AX_RSTOK : Fld := ⟨8, 8, .ro, 0⟩
def F.TLS_AX_ASTATE : Fld := ⟨2, 0, .ro, 0⟩
def F.TLS_SPD_V : Fld := ⟨31, 0, .ro, 0⟩
def F.TLS_PCRC_PCRC : Fld := ⟨31, 0, .ro, 0⟩
def F.TLS_SW_SADR : Fld := ⟨23, 16, .ro, 0⟩
def F.TLS_SW_SEAL : Fld := ⟨15, 0, .ro, 0⟩
def F.TLS_TLG_CN : Fld := ⟨31, 0, .ro, 0⟩
def F.TLS_TLGST_REFCNT : Fld := ⟨31, 16, .ro, 0⟩
def F.TLS_TLGST_LASTREF : Fld := ⟨7, 0, .ro, 0⟩
def F.TLS_CYC_CYC : Fld := ⟨31, 0, .ro, 0⟩
def F.CLU_EXC_CTRL_ALT_PER : Fld := ⟨31, 24, .rw, 0⟩
def F.CLU_EXC_CTRL_SETTLE : Fld := ⟨23, 20, .rw, 2⟩
def F.CLU_EXC_CTRL_ILIM_T : Fld := ⟨15, 8, .rw, 0xa⟩
def F.CLU_EXC_CTRL_CLR_SHUT : Fld := ⟨5, 5, .sc, 0⟩
def F.CLU_EXC_CTRL_SENSE : Fld := ⟨4, 4, .rw, 0⟩
def F.CLU_EXC_CTRL_POL : Fld := ⟨2, 2, .rw, 0⟩
def F.CLU_EXC_CTRL_EN : Fld := ⟨0, 0, .rw, 0⟩
def F.CLU_EXC_SET_VSET : Fld := ⟨8, 0, .rw, 0xfa⟩
def F.CLU_EXC_STAT_LIMCNT : Fld := ⟨31, 24, .rc, 0⟩
def F.CLU_EXC_STAT_SHUT : Fld := ⟨7, 7, .ro, 0⟩
def F.CLU_EXC_STAT_DROP : Fld := ⟨6, 6, .ro, 0⟩
def F.CLU_EXC_STAT_SOPEN : Fld := ⟨5, 5, .ro, 0⟩
def F.CLU_EXC_STAT_ILIM : Fld := ⟨4, 4, .ro, 0⟩
def F.CLU_EXC_STAT_RAMP : Fld := ⟨3, 3, .ro, 0⟩
def F.CLU_EXC_STAT_POL_ACT : Fld := ⟨2, 2, .ro, 0⟩
def F.CLU_EXC_STAT_ON : Fld := ⟨0, 0, .ro, 0⟩
def F.CLU_EXC_MEAS_IMEAS : Fld := ⟨31, 16, .ro, 0⟩
def F.CLU_EXC_MEAS_VSENSE : Fld := ⟨15, 0, .ro, 0⟩
def F.CLU_EXC_MEAS2_VDRIVE : Fld := ⟨31, 16, .ro, 0⟩
def F.CLU_EXC_MEAS2_VHEAD : Fld := ⟨15, 0, .ro, 0⟩
def F.RGN_CTRL_WHEN : Fld := ⟨2, 2, .rw, 0⟩
def F.RGN_CTRL_STOP : Fld := ⟨1, 1, .sc, 0⟩
def F.RGN_CTRL_START : Fld := ⟨0, 0, .sc, 0⟩
def F.RGN_WIN_MODE : Fld := ⟨31, 31, .rwl, 0⟩
def F.RGN_WIN_MCYC : Fld := ⟨30, 27, .rwl, 5⟩
def F.RGN_WIN_LEN : Fld := ⟨22, 0, .rwl, 0x1f4000⟩
def F.RGN_START_T_LO : Fld := ⟨31, 0, .rw, 0⟩
def F.RGN_START_HI_T_HI : Fld := ⟨15, 0, .rw, 0⟩
def F.RGN_STAT_REFCNT : Fld := ⟨31, 24, .rc, 0⟩
def F.RGN_STAT_CAUSE : Fld := ⟨15, 12, .ro, 0⟩
def F.RGN_STAT_MHOLD : Fld := ⟨4, 4, .ro, 0⟩
def F.RGN_STAT_STATE : Fld := ⟨2, 0, .ro, 0⟩
def F.RGN_WSEQ_WSEQ : Fld := ⟨31, 0, .ro, 0⟩
def F.RGN_MAINS_PERIOD : Fld := ⟨31, 0, .ro, 0⟩
def F.RGN_SEQ_CTRL_START_IDX : Fld := ⟨15, 8, .rw, 0⟩
def F.RGN_SEQ_CTRL_RUN : Fld := ⟨0, 0, .rw, 0⟩
def F.RGN_SEQ_STAT_ERRIDX : Fld := ⟨31, 24, .ro, 0⟩
def F.RGN_SEQ_STAT_PC : Fld := ⟨23, 16, .ro, 0⟩
def F.RGN_SEQ_STAT_SPILL : Fld := ⟨15, 8, .rc, 0⟩
def F.RGN_SEQ_STAT_QWAIT : Fld := ⟨3, 3, .ro, 0⟩
def F.RGN_SEQ_STAT_ERR : Fld := ⟨2, 2, .w1c, 0⟩
def F.RGN_SEQ_STAT_STATE : Fld := ⟨1, 0, .ro, 0⟩
def F.RGN_SEQ_ROT_ROTSPARE : Fld := ⟨8, 8, .rw, 0⟩
def F.RGN_SEQ_ROT_POS : Fld := ⟨5, 0, .rw, 0⟩
def F.RGN_SEQ_MASK_MASK_LO : Fld := ⟨31, 0, .rw, 0xffffffff⟩
def F.RGN_SEQ_MASK_HI_SPMASK : Fld := ⟨21, 16, .rw, 0x3f⟩
def F.RGN_SEQ_MASK_HI_MASK_HI : Fld := ⟨15, 0, .rw, 0xffff⟩
def F.RGN_SEQ_CMPL_CMPL : Fld := ⟨15, 0, .w1c, 0⟩
def F.RGN_STEADY_CFG_MATCH_THR : Fld := ⟨31, 16, .rw, 0x32⟩
def F.RGN_STEADY_CFG_GAPCAL : Fld := ⟨9, 9, .rw, 0⟩
def F.RGN_STEADY_CFG_BRW_CAL : Fld := ⟨8, 8, .rw, 1⟩
def F.RGN_STEADY_CFG_BRW_FAIL : Fld := ⟨7, 7, .rw, 1⟩
def F.RGN_STEADY_CFG_CAL_ITER : Fld := ⟨6, 4, .rw, 2⟩
def F.RGN_STEADY_CFG_OVL : Fld := ⟨2, 0, .rw, 1⟩
def F.RGN_CAL_CFG_CAL_LIM : Fld := ⟨31, 16, .rw, 0x7d0⟩
def F.RGN_CAL_CFG_CAL_TMO : Fld := ⟨15, 8, .rw, 0xc8⟩
def F.RGN_CAL_CFG_VERC : Fld := ⟨7, 4, .rw, 2⟩
def F.RGN_CAL_CFG_CALC : Fld := ⟨3, 0, .rw, 2⟩
def F.RGN_STEADY_AUTO_CAL_PER : Fld := ⟨31, 16, .rw, 0xe10⟩
def F.RGN_STEADY_AUTO_IMP_PER : Fld := ⟨15, 0, .rw, 0x64⟩
def F.RGN_STEADY_STAT_LOSTCNT : Fld := ⟨31, 24, .ro, 0⟩
def F.RGN_STEADY_STAT_QLEN : Fld := ⟨23, 16, .ro, 0⟩
def F.RGN_STEADY_STAT_BRW : Fld := ⟨7, 6, .ro, 0⟩
def F.RGN_STEADY_STAT_COMMIT : Fld := ⟨5, 3, .ro, 0⟩
def F.RGN_STEADY_STAT_FREE : Fld := ⟨2, 0, .ro, 6⟩
def F.RGN_SEQ_STR_EN : Fld := ⟨31, 31, .rw, 0⟩
def F.RGN_SEQ_STR_STR : Fld := ⟨8, 0, .rw, 0⟩
def F.RGN_SEQ_ENT_REP : Fld := ⟨31, 16, .rwl, 0⟩
def F.RGN_SEQ_ENT_DLY : Fld := ⟨15, 0, .rwl, 0⟩
def F.RGN_SEQ_ENT_HI_OP : Fld := ⟨31, 26, .rwl, 0⟩
def F.RGN_SEQ_ENT_HI_TGT : Fld := ⟨23, 16, .rwl, 0⟩
def F.RGN_SEQ_ENT_HI_ARG : Fld := ⟨15, 0, .rwl, 0⟩
def F.CH_AIN_PFOLLOW : Fld := ⟨16, 16, .rw, 1⟩
def F.CH_AIN_CMB : Fld := ⟨15, 15, .rw, 0⟩
def F.CH_AIN_BIAS : Fld := ⟨11, 10, .rw, 1⟩
def F.CH_AIN_REF : Fld := ⟨8, 8, .rw, 0⟩
def F.CH_AIN_GAIN : Fld := ⟨2, 0, .rw, 0⟩
def F.CH_AIN_STAT_CMERR : Fld := ⟨15, 15, .ro, 0⟩
def F.CH_AIN_STAT_RLOW : Fld := ⟨14, 14, .ro, 0⟩
def F.CH_AIN_STAT_PEND : Fld := ⟨13, 13, .ro, 0⟩
def F.CH_AIN_STAT_BIAS_ACT : Fld := ⟨11, 10, .ro, 1⟩
def F.CH_AIN_STAT_REF_ACT : Fld := ⟨8, 8, .ro, 0⟩
def F.CH_AIN_STAT_GAIN_ACT : Fld := ⟨2, 0, .ro, 0⟩
def F.CH_EVT_CTRL_BURST : Fld := ⟨31, 16, .rw, 1⟩
def F.CH_EVT_CTRL_HOLDOFF : Fld := ⟨15, 8, .rw, 1⟩
def F.CH_EVT_CTRL_MODE : Fld := ⟨0, 0, .rw, 0⟩
def F.CH_EVT_THR_UPPER : Fld := ⟨31, 24, .rw, 0xc0⟩
def F.CH_EVT_THR_LOWER : Fld := ⟨23, 16, .rw, 0x40⟩
def F.CH_EVT_THR_HYST : Fld := ⟨3, 0, .rw, 2⟩
def F.CH_EVT_STUCK_STUCK_T : Fld := ⟨15, 0, .rw, 0x3e8⟩
def F.CH_EVT_STAT_OVRCNT : Fld := ⟨31, 16, .rc, 0⟩
def F.CH_EVT_STAT_CFGERR : Fld := ⟨4, 4, .ro, 0⟩
def F.CH_EVT_STAT_STUCK : Fld := ⟨3, 3, .ro, 0⟩
def F.CH_EVT_STAT_HOLD : Fld := ⟨2, 2, .ro, 0⟩
def F.CH_EVT_STAT_BURST : Fld := ⟨1, 1, .ro, 0⟩
def F.CH_EVT_STAT_ARMED : Fld := ⟨0, 0, .ro, 0⟩
def F.CH_EVT_LAST_T_LO : Fld := ⟨31, 0, .ro, 0⟩
def F.CH_EVT_LAST_HI_T_HI : Fld := ⟨15, 0, .ro, 0⟩
def F.CH_RAW_CNT_COUNT : Fld := ⟨31, 0, .ro, 0⟩
def F.CH_RAW_RES_OVR : Fld := ⟨18, 18, .ro, 0⟩
def F.CH_RAW_RES_INTB : Fld := ⟨17, 17, .ro, 0⟩
def F.CH_RAW_RES_RESID : Fld := ⟨13, 0, .ro, 0⟩
def F.CH_STEADY_CTRL_RETEST : Fld := ⟨4, 4, .sc, 0⟩
def F.CH_STEADY_CTRL_FULL : Fld := ⟨3, 3, .rw, 0⟩
def F.CH_STEADY_CTRL_IMP_REQ : Fld := ⟨2, 2, .sc, 0⟩
def F.CH_STEADY_CTRL_CAL_REQ : Fld := ⟨1, 1, .sc, 0⟩
def F.CH_STEADY_STAT_GAPCNT : Fld := ⟨31, 24, .rc, 0⟩
def F.CH_STEADY_STAT_SRC : Fld := ⟨19, 16, .ro, 0⟩
def F.CH_STEADY_STAT_MATCHERR : Fld := ⟨10, 10, .w1c, 0⟩
def F.CH_STEADY_STAT_CALFAIL : Fld := ⟨9, 9, .w1c, 0⟩
def F.CH_STEADY_STAT_OVERDUE : Fld := ⟨8, 8, .ro, 0⟩
def F.CH_STEADY_STAT_STATE : Fld := ⟨2, 0, .ro, 0⟩
def F.CH_CAL_STAT_RF : Fld := ⟨31, 16, .ro, 0xffff⟩
def F.CH_CAL_STAT_RES : Fld := ⟨11, 8, .ro, 0⟩
def F.CH_CAL_STAT_GCODE : Fld := ⟨2, 0, .ro, 0⟩
def F.CH_CAL_T_T_LO : Fld := ⟨31, 0, .ro, 0⟩
def F.CH_CAL_T_HI_T_HI : Fld := ⟨15, 0, .ro, 0⟩
def F.CH_MATCH_MO : Fld := ⟨31, 0, .ro, 0⟩
def F.CH_MATCH_G_MG : Fld := ⟨31, 0, .ro, 0⟩
def F.CH_TRIM_OFS : Fld := ⟨31, 20, .rwl, 0⟩
def F.CH_TRIM_GAIN : Fld := ⟨19, 8, .rwl, 0⟩
def F.CH_CALV_EG : Fld := ⟨31, 16, .ro, 0⟩
def F.CH_CALV_EO : Fld := ⟨15, 0, .ro, 0⟩
def F.CH_QTRIM_QTRIM : Fld := ⟨9, 0, .rwl, 0⟩
def F.CH_HLT_CFG_OW_CLR : Fld := ⟨15, 12, .rw, 2⟩
def F.CH_HLT_CFG_SPOL : Fld := ⟨9, 8, .rw, 0⟩
def F.CH_HLT_CFG_OW_EN : Fld := ⟨0, 0, .rw, 1⟩
def F.CH_HLT_STAT_OWCNT : Fld := ⟨31, 16, .rc, 0⟩
def F.CH_HLT_STAT_REFILL : Fld := ⟨8, 8, .ro, 0⟩
def F.CH_HLT_STAT_OPEN : Fld := ⟨3, 3, .ro, 0⟩
def F.CH_HLT_STAT_OWD : Fld := ⟨2, 2, .ro, 0⟩
def F.CH_HLT_STAT_TRANS : Fld := ⟨1, 1, .w1c, 0⟩
def F.CH_OW_T_T_LO : Fld := ⟨31, 0, .ro, 0⟩
def F.CH_OW_T_HI_T_HI : Fld := ⟨15, 0, .ro, 0⟩
def F.CH_IMP_LIM_RHI : Fld := ⟨31, 16, .rw, 0⟩
def F.CH_IMP_LIM_RLO : Fld := ⟨15, 0, .rw, 0⟩
def F.CH_IMP_CFG_SETREF : Fld := ⟨31, 31, .sc, 0⟩
def F.CH_IMP_CFG_DRIFT : Fld := ⟨15, 0, .rw, 0⟩
def F.CH_IMP_REF_RREF : Fld := ⟨31, 0, .rw, 0⟩
def F.CH_IMP_R_R : Fld := ⟨31, 0, .ro, 0⟩
def F.CH_IMP_X_X : Fld := ⟨31, 0, .ro, 0⟩
def F.CH_IMP_STAT_FAILCNT : Fld := ⟨31, 24, .rc, 0⟩
def F.CH_IMP_STAT_RES : Fld := ⟨3, 0, .ro, 0⟩
def F.CH_IMP_T_T_LO : Fld := ⟨31, 0, .ro, 0⟩
def F.CH_IMP_T_HI_T_HI : Fld := ⟨15, 0, .ro, 0⟩
def F.CH_IMP_GOOD_T_LO : Fld := ⟨31, 0, .ro, 0⟩
def F.CH_IMP_GOOD_HI_T_HI : Fld := ⟨15, 0, .ro, 0⟩
def F.CH_PRC_CTRL_K : Fld := ⟨28, 16, .rwl, 1⟩
def F.CH_PRC_CTRL_D : Fld := ⟨14, 8, .rwl, 1⟩
def F.CH_PRC_CTRL_FILLINV : Fld := ⟨7, 7, .rw, 1⟩
def F.CH_PRC_CTRL_NBQ : Fld := ⟨5, 4, .rwl, 0⟩
def F.CH_PRC_CTRL_FIREN : Fld := ⟨3, 3, .rwl, 0⟩
def F.CH_PRC_FIR_SET : Fld := ⟨3, 0, .rw, 0⟩
def F.CH_COR_GAIN_DG : Fld := ⟨31, 0, .rw, 0x40000000⟩
def F.CH_COR_OFS_DO : Fld := ⟨31, 0, .rw, 0⟩
def F.CH_BQ_COEF_COEF : Fld := ⟨31, 0, .rw, 0⟩
def F.CH_BQ_CTRL_COMMIT1 : Fld := ⟨9, 9, .sc, 0⟩
def F.CH_BQ_CTRL_COMMIT0 : Fld := ⟨8, 8, .sc, 0⟩
def F.CH_BQ_CTRL_FHOLD : Fld := ⟨7, 0, .rw, 0x10⟩
def F.CH_SCL_MUL_MUL : Fld := ⟨31, 0, .rw, 1⟩
def F.CH_SCL_CFG_SH : Fld := ⟨4, 0, .rw, 0⟩
def F.CH_SCL_OFS_SOFS : Fld := ⟨31, 0, .rw, 0⟩
def F.CH_STAT_CFG_NBLK : Fld := ⟨31, 16, .rw, 0⟩
def F.CH_SW_CFG_EVEN (w : Nat) : Fld := ⟨8 * w + 7, 8 * w + 7, .rw, 0⟩
def F.CH_SW_CFG_DEB (w : Nat) : Fld := ⟨8 * w + 6, 8 * w + 4, .rw, 0⟩
def F.CH_SW_CFG_INVP (w : Nat) : Fld := ⟨8 * w + 3, 8 * w + 2, .rw, 0⟩
def F.CH_SW_CFG_MODE (w : Nat) : Fld := ⟨8 * w + 1, 8 * w + 1, .rw, 0⟩
def F.CH_SW_CFG_EN (w : Nat) : Fld := ⟨8 * w + 0, 8 * w + 0, .rw, 0⟩
def F.CH_SW_UP_UP : Fld := ⟨31, 0, .rw, 0x7fffffff⟩
def F.CH_SW_LO_LO : Fld := ⟨31, 0, .rw, 0x80000001⟩
def F.CH_SW_STAT_CHGCNT : Fld := ⟨31, 16, .rc, 0⟩
def F.CH_SW_STAT_CFGERR : Fld := ⟨7, 4, .ro, 0⟩
def F.CH_SW_STAT_STATE : Fld := ⟨3, 0, .ro, 0⟩
def F.CH_GRP_GRP : Fld := ⟨31, 0, .rw, 0⟩
def F.CH_OUT_W_W : Fld := ⟨31, 0, .ro, 0x80000000⟩
def F.CH_OUT_Q_OSEQ : Fld := ⟨31, 16, .ro, 0⟩
def F.CH_OUT_Q_SW : Fld := ⟨11, 8, .ro, 0⟩
def F.CH_OUT_Q_QUAL : Fld := ⟨7, 0, .ro, 0x80⟩
def F.CH_OUT_T_T_LO : Fld := ⟨31, 0, .ro, 0⟩
def F.CH_OUT_T_HI_T_HI : Fld := ⟨15, 0, .ro, 0⟩
def F.CH_OUT_S_S : Fld := ⟨31, 0, .ro, 0x80000000⟩
def F.CH_RQ_CFG_TAP : Fld := ⟨1, 0, .rw, 3⟩
def F.CH_EVT_STR_EN : Fld := ⟨31, 31, .rw, 0⟩
def F.CH_EVT_STR_STR : Fld := ⟨8, 0, .rw, 0⟩
def F.SPR_CTRL_RETEST : Fld := ⟨1, 1, .sc, 0⟩
def F.SPR_CTRL_CAL_REQ : Fld := ⟨0, 0, .sc, 0⟩
def F.SPR_STAT_CHAN : Fld := ⟨21, 16, .ro, 0⟩
def F.SPR_STAT_BORROWED : Fld := ⟨8, 8, .ro, 0⟩
def F.SPR_STAT_STATE : Fld := ⟨2, 0, .ro, 0⟩
def F.SPR_CAL_STAT_RF : Fld := ⟨31, 16, .ro, 0xffff⟩
def F.SPR_CAL_STAT_RES : Fld := ⟨11, 8, .ro, 0⟩
def F.SPR_CAL_STAT_GCODE : Fld := ⟨2, 0, .ro, 0⟩
def F.SPR_CAL_T_T_LO : Fld := ⟨31, 0, .ro, 0⟩
def F.SPR_CAL_T_HI_T_HI : Fld := ⟨15, 0, .ro, 0⟩
def F.SPR_TRIM_OFS : Fld := ⟨31, 20, .rwl, 0⟩
def F.SPR_TRIM_GAIN : Fld := ⟨19, 8, .rwl, 0⟩
def F.SPR_CALV_EG : Fld := ⟨31, 16, .ro, 0⟩
def F.SPR_CALV_EO : Fld := ⟨15, 0, .ro, 0⟩
def F.SPR_QTRIM_QTRIM : Fld := ⟨9, 0, .rwl, 0⟩

def descGlb0 : List RegDesc :=
  [ ⟨.GLB_DEVID, 0x0, [], false, [F.GLB_DEVID_DEVICE, F.GLB_DEVID_VARIANT, F.GLB_DEVID_SREV]⟩,
    ⟨.GLB_FWVER, 0x4, [], false, [F.GLB_FWVER_MAJOR, F.GLB_FWVER_MINOR, F.GLB_FWVER_BUILD]⟩,
    ⟨.GLB_UID, 0x8, [], false, [F.GLB_UID_UID_LO]⟩,
    ⟨.GLB_UID_HI, 0xC, [], false, [F.GLB_UID_HI_UID_HI]⟩,
    ⟨.GLB_MAC, 0x10, [], false, [F.GLB_MAC_MAC_LO]⟩,
    ⟨.GLB_MAC_HI, 0x14, [], false, [F.GLB_MAC_HI_MAC_HI]⟩,
    ⟨.GLB_SCRATCH, 0x18, [], false, [F.GLB_SCRATCH_SCR]⟩,
    ⟨.GLB_ACCERR, 0x20, [], false, [F.GLB_ACCERR_LOCKCNT, F.GLB_ACCERR_IGNCNT, F.GLB_ACCERR_LOCK, F.GLB_ACCERR_IGN]⟩,
    ⟨.GLB_ACCADR, 0x24, [], false, [F.GLB_ACCADR_ADDR]⟩,
    ⟨.SNAP_CTRL, 0x100, [], false, [F.SNAP_CTRL_FWD, F.SNAP_CTRL_RING_EN, F.SNAP_CTRL_CMP_EN, F.SNAP_CTRL_PIN_EN, F.SNAP_CTRL_SOFT]⟩,
    ⟨.SNAP_STAT, 0x104, [], false, [F.SNAP_STAT_MISSED, F.SNAP_STAT_CAUSE, F.SNAP_STAT_LATE, F.SNAP_STAT_BUSY]⟩,
    ⟨.SNAP_SEQ, 0x108, [], false, [F.SNAP_SEQ_SEQ]⟩ ]
def descGlb1 : List RegDesc :=
  [ ⟨.SNAP_LTS, 0x110, [], false, [F.SNAP_LTS_SEC_LO]⟩,
    ⟨.SNAP_LTS_HI, 0x114, [], false, [F.SNAP_LTS_HI_SEC_HI]⟩,
    ⟨.SNAP_LTN, 0x118, [], false, [F.SNAP_LTN_NS]⟩,
    ⟨.SNAP_LTF, 0x11C, [], false, [F.SNAP_LTF_FRAC]⟩,
    ⟨.DLK_STAT, 0x200, [(0x4, 4)], false, [F.DLK_STAT_DOWNCNT, F.DLK_STAT_WDROP, F.DLK_STAT_RETRY, F.DLK_STAT_STALE, F.DLK_STAT_RESTART, F.DLK_STAT_UP]⟩,
    ⟨.PRC_DEMAND, 0x400, [], false, [F.PRC_DEMAND_DEMAND]⟩,
    ⟨.PRC_CAP, 0x404, [], false, [F.PRC_CAP_CAP]⟩,
    ⟨.PRC_STAT, 0x408, [], false, [F.PRC_STAT_REFUSED]⟩,
    ⟨.PRC_FIRLEN, 0x410, [(0x4, 16)], false, [F.PRC_FIRLEN_NT]⟩,
    ⟨.PRC_SWMAP, 0x480, [(0x4, 32)], false, [F.PRC_SWMAP_EN, F.PRC_SWMAP_INV, F.PRC_SWMAP_CHAN, F.PRC_SWMAP_SW]⟩,
    ⟨.PWR_REQ, 0x600, [], false, [F.PWR_REQ_KIND, F.PWR_REQ_VALUE]⟩,
    ⟨.PWR_STAT, 0x604, [], false, [F.PWR_STAT_REFCNT, F.PWR_STAT_REFC, F.PWR_STAT_PENDV, F.PWR_STAT_PKIND, F.PWR_STAT_PVAL, F.PWR_STAT_TRANS, F.PWR_STAT_CKIND, F.PWR_STAT_CVAL, F.PWR_STAT_RUNPL, F.PWR_STAT_MODE, F.PWR_STAT_PL]⟩ ]
def descGlb2 : List RegDesc :=
  [ ⟨.PWR_RST, 0x608, [], false, [F.PWR_RST_INHUSH, F.PWR_RST_WAKE_FLAG, F.PWR_RST_BOR, F.PWR_RST_CMD, F.PWR_RST_PIN, F.PWR_RST_POR]⟩,
    ⟨.PWR_WREC, 0x60C, [], false, [F.PWR_WREC_ENTRY, F.PWR_WREC_COPY, F.PWR_WREC_WRSTAT]⟩,
    ⟨.PWR_WCAUSE, 0x610, [], false, [F.PWR_WCAUSE_ALARM, F.PWR_WCAUSE_PIN, F.PWR_WCAUSE_WATCH]⟩,
    ⟨.PWR_WACNT, 0x614, [], false, [F.PWR_WACNT_ACNT_LO]⟩,
    ⟨.PWR_WACNT_HI, 0x618, [], false, [F.PWR_WACNT_HI_ACNT_HI]⟩,
    ⟨.PWR_ACNT, 0x61C, [], false, [F.PWR_ACNT_ACNT_LO]⟩,
    ⟨.PWR_ACNT_HI, 0x620, [], false, [F.PWR_ACNT_HI_ACNT_HI]⟩,
    ⟨.PWR_WLTS, 0x624, [], false, [F.PWR_WLTS_SEC_LO]⟩,
    ⟨.PWR_WLTS_HI, 0x628, [], false, [F.PWR_WLTS_HI_SEC_HI]⟩,
    ⟨.PWR_WLTN, 0x62C, [], false, [F.PWR_WLTN_NS]⟩,
    ⟨.PWR_WLTF, 0x630, [], false, [F.PWR_WLTF_FRAC]⟩,
    ⟨.PWR_NOTE, 0x640, [(0x4, 4)], false, [F.PWR_NOTE_NOTE]⟩ ]
def descGlb3 : List RegDesc :=
  [ ⟨.PWR_WCFG, 0x650, [], false, [F.PWR_WCFG_WATCHEN, F.PWR_WCFG_ALARM_EN, F.PWR_WCFG_PIN_EN]⟩,
    ⟨.PWR_WTHR, 0x654, [], false, [F.PWR_WTHR_THR 0, F.PWR_WTHR_THR 1, F.PWR_WTHR_THR 2, F.PWR_WTHR_THR 3]⟩,
    ⟨.PWR_WTHR2, 0x658, [], false, [F.PWR_WTHR2_THR 0, F.PWR_WTHR2_THR 1, F.PWR_WTHR2_THR 2, F.PWR_WTHR2_THR 3]⟩,
    ⟨.PWR_ALARM, 0x65C, [], false, [F.PWR_ALARM_ALARM]⟩,
    ⟨.PWR_TEMP, 0x660, [(0x4, 5)], false, [F.PWR_TEMP_T]⟩,
    ⟨.PWR_TWARN, 0x674, [], false, [F.PWR_TWARN_TWARN]⟩,
    ⟨.PWR_SUP, 0x678, [], false, [F.PWR_SUP_XT32, F.PWR_SUP_VDDC, F.PWR_SUP_VAON, F.PWR_SUP_AVDDL, F.PWR_SUP_AVDD, F.PWR_SUP_LANEH, F.PWR_SUP_LANE, F.PWR_SUP_IO, F.PWR_SUP_CORE]⟩,
    ⟨.PWR_VDDC, 0x67C, [], false, [F.PWR_VDDC_MV]⟩,
    ⟨.PWR_BANK, 0x700, [(0x4, 16)], false, [F.PWR_BANK_WORD]⟩,
    ⟨.PWR_BANK1, 0x740, [(0x4, 16)], false, [F.PWR_BANK1_WORD]⟩,
    ⟨.PRC_FIRC, 0x4000, [(0x400, 16), (0x4, 256)], false, [F.PRC_FIRC_H]⟩ ]
/-- The registers of block Glb (R446). -/
def descGlb : List RegDesc := descGlb0 ++ descGlb1 ++ descGlb2 ++ descGlb3

def descSpn0 : List RegDesc :=
  [ ⟨.SPN_CTRL, 0x10000, [], false, [F.SPN_CTRL_AUTOSTEP, F.SPN_CTRL_STEP, F.SPN_CTRL_MODE]⟩,
    ⟨.SPN_STAT, 0x10004, [], false, [F.SPN_STAT_STEPREF, F.SPN_STAT_SWREF, F.SPN_STAT_DOM, F.SPN_STAT_TQ]⟩,
    ⟨.SPN_LTS, 0x10010, [], false, [F.SPN_LTS_SEC_LO]⟩,
    ⟨.SPN_LTS_HI, 0x10014, [], false, [F.SPN_LTS_HI_SEC_HI]⟩,
    ⟨.SPN_LTN, 0x10018, [], false, [F.SPN_LTN_NS]⟩,
    ⟨.SPN_LTF, 0x1001C, [], false, [F.SPN_LTF_FRAC]⟩,
    ⟨.SPN_SET, 0x10020, [], false, [F.SPN_SET_SEC_LO]⟩,
    ⟨.SPN_SET_HI, 0x10024, [], false, [F.SPN_SET_HI_SEC_HI]⟩,
    ⟨.SPN_SETN, 0x10028, [], false, [F.SPN_SETN_NS]⟩,
    ⟨.SPN_SETF, 0x1002C, [], false, [F.SPN_SETF_FRAC]⟩,
    ⟨.SPN_RATE, 0x10030, [], false, [F.SPN_RATE_RATE_LO]⟩,
    ⟨.SPN_RATE_HI, 0x10034, [], false, [F.SPN_RATE_HI_RATE_HI]⟩ ]
def descSpn1 : List RegDesc :=
  [ ⟨.SPN_SLEW, 0x10038, [], false, [F.SPN_SLEW_MAX]⟩,
    ⟨.TRK_CFG, 0x10040, [(0x20, 3)], false, [F.TRK_CFG_DOMAIN, F.TRK_CFG_SRC, F.TRK_CFG_TAU, F.TRK_CFG_EN]⟩,
    ⟨.TRK_QUAL, 0x10044, [(0x20, 3)], false, [F.TRK_QUAL_QTIME, F.TRK_QUAL_LOCK_THR]⟩,
    ⟨.TRK_STAT, 0x10048, [(0x20, 3)], false, [F.TRK_STAT_LOSTCNT, F.TRK_STAT_STATE]⟩,
    ⟨.TRK_OFS, 0x1004C, [(0x20, 3)], false, [F.TRK_OFS_OFS_LO]⟩,
    ⟨.TRK_OFS_HI, 0x10050, [(0x20, 3)], false, [F.TRK_OFS_HI_OFS_HI]⟩,
    ⟨.TRK_FRQ, 0x10054, [(0x20, 3)], false, [F.TRK_FRQ_FRQ]⟩,
    ⟨.SPN_SW, 0x100A0, [], false, [F.SPN_SW_SW_THR, F.SPN_SW_FTHR, F.SPN_SW_REVERT, F.SPN_SW_FORCE, F.SPN_SW_PREF]⟩,
    ⟨.SPN_SW2, 0x100A4, [], false, [F.SPN_SW2_DIS_THR, F.SPN_SW2_REVTIME]⟩,
    ⟨.SPN_HOLD, 0x100A8, [], false, [F.SPN_HOLD_SYNCLOSS, F.SPN_HOLD_HOLD_MAX]⟩,
    ⟨.SPN_STEPTHR, 0x100AC, [], false, [F.SPN_STEPTHR_STEPTHR]⟩,
    ⟨.SPN_PPS, 0x100B0, [], false, [F.SPN_PPS_WIDTH, F.SPN_PPS_WIN, F.SPN_PPS_QUAL, F.SPN_PPS_PERIOD, F.SPN_PPS_OUT_EN]⟩ ]
def descSpn2 : List RegDesc :=
  [ ⟨.SPN_PPS_OFS, 0x100B4, [], false, [F.SPN_PPS_OFS_OFS]⟩,
    ⟨.SPN_HOP_ASYM_U, 0x100B8, [], false, [F.SPN_HOP_ASYM_U_ASYM]⟩,
    ⟨.SPN_HOP_ASYM_D, 0x100BC, [], false, [F.SPN_HOP_ASYM_D_ASYM]⟩,
    ⟨.CMP_T, 0x10100, [(0x20, 16)], false, [F.CMP_T_T_LO]⟩,
    ⟨.CMP_T_HI, 0x10104, [(0x20, 16)], false, [F.CMP_T_HI_T_HI]⟩,
    ⟨.CMP_PER, 0x10108, [(0x20, 16)], false, [F.CMP_PER_PER]⟩,
    ⟨.CMP_CTRL, 0x1010C, [(0x20, 16)], false, [F.CMP_CTRL_MISSED, F.CMP_CTRL_PW, F.CMP_CTRL_ACT_SEQ, F.CMP_CTRL_ACT_CAP, F.CMP_CTRL_ACT_SNAP, F.CMP_CTRL_LATE_FIRE, F.CMP_CTRL_LATE, F.CMP_CTRL_BADT, F.CMP_CTRL_ARMED, F.CMP_CTRL_DISARM]⟩ ]
/-- The registers of block Spn (R446). -/
def descSpn : List RegDesc := descSpn0 ++ descSpn1 ++ descSpn2

def descFlt0 : List RegDesc :=
  [ ⟨.FLT_CTRL, 0x20000, [], false, [F.FLT_CTRL_FN_TEST, F.FLT_CTRL_CLR_ALL]⟩,
    ⟨.FLT_FIRST, 0x20004, [], false, [F.FLT_FIRST_VALID, F.FLT_FIRST_FORCED, F.FLT_FIRST_REAL, F.FLT_FIRST_INST, F.FLT_FIRST_SOURCE]⟩,
    ⟨.FLT_FIRST_T, 0x20008, [], false, [F.FLT_FIRST_T_T_LO]⟩,
    ⟨.FLT_FIRST_T_HI, 0x2000C, [], false, [F.FLT_FIRST_T_HI_T_HI]⟩,
    ⟨.FLT_OVF, 0x20010, [], false, [F.FLT_OVF_OVF, F.FLT_OVF_OVFCNT]⟩,
    ⟨.FLT_LOG, 0x20014, [], false, [F.FLT_LOG_LOST, F.FLT_LOG_RIDX, F.FLT_LOG_WIDX]⟩,
    ⟨.FLT_STQ, 0x20018, [], false, [F.FLT_STQ_DROP, F.FLT_STQ_CUR, F.FLT_STQ_BUSY, F.FLT_STQ_QLEN]⟩,
    ⟨.FLT_ST_LAST, 0x2001C, [], false, [F.FLT_ST_LAST_SOURCE, F.FLT_ST_LAST_VERDICT, F.FLT_ST_LAST_INST]⟩,
    ⟨.FLT_FORCE_INST, 0x20020, [], false, [F.FLT_FORCE_INST_INST]⟩,
    ⟨.FLT_ALIVE, 0x20024, [], false, [F.FLT_ALIVE_PARR, F.FLT_ALIVE_ALARM, F.FLT_ALIVE_IWD, F.FLT_ALIVE_FWD, F.FLT_ALIVE_HOLD]⟩,
    ⟨.FLT_RAW, 0x20100, [(0x4, 8)], false, [F.FLT_RAW_RAW]⟩,
    ⟨.FLT_STICKY, 0x20120, [(0x4, 8)], false, [F.FLT_STICKY_STICKY]⟩ ]
def descFlt1 : List RegDesc :=
  [ ⟨.FLT_FORCE, 0x20140, [(0x4, 8)], false, [F.FLT_FORCE_FORCE]⟩,
    ⟨.FLT_EN, 0x20160, [(0x4, 8)], false, [F.FLT_EN_EN]⟩,
    ⟨.FLT_REACT, 0x20200, [(0x4, 16)], false, [F.FLT_REACT_REACT 0, F.FLT_REACT_REACT 1, F.FLT_REACT_REACT 2, F.FLT_REACT_REACT 3, F.FLT_REACT_REACT 4, F.FLT_REACT_REACT 5, F.FLT_REACT_REACT 6, F.FLT_REACT_REACT 7, F.FLT_REACT_REACT 8, F.FLT_REACT_REACT 9, F.FLT_REACT_REACT 10, F.FLT_REACT_REACT 11, F.FLT_REACT_REACT 12, F.FLT_REACT_REACT 13, F.FLT_REACT_REACT 14, F.FLT_REACT_REACT 15]⟩,
    ⟨.FLT_CNT, 0x20300, [(0x4, 64)], false, [F.FLT_CNT_CNT 0, F.FLT_CNT_CNT 1, F.FLT_CNT_CNT 2, F.FLT_CNT_CNT 3]⟩,
    ⟨.FLT_LIST, 0x24000, [(0x40, 256), (0x4, 16)], false, [F.FLT_LIST_LIST]⟩ ]
/-- The registers of block Flt (R446). -/
def descFlt : List RegDesc := descFlt0 ++ descFlt1

def descCmd0 : List RegDesc :=
  [ ⟨.CMD_CFG, 0x30000, [], false, [F.CMD_CFG_FWDTMO, F.CMD_CFG_NETWR]⟩,
    ⟨.CMD_STAT, 0x30004, [], false, [F.CMD_STAT_CRCERR, F.CMD_STAT_REFCNT, F.CMD_STAT_DUPCNT, F.CMD_STAT_INFLT]⟩,
    ⟨.CMD_SPI_STAT, 0x30008, [], false, [F.CMD_SPI_STAT_RQCNT]⟩,
    ⟨.CMD_LAST, 0x3000C, [], false, [F.CMD_LAST_OPCODE, F.CMD_LAST_STATUS, F.CMD_LAST_SRCLO]⟩,
    ⟨.CMD_HUBID, 0x30010, [], false, [F.CMD_HUBID_SITE, F.CMD_HUBID_HID]⟩ ]
/-- The registers of block Cmd (R446). -/
def descCmd : List RegDesc := descCmd0

def descLne0 : List RegDesc :=
  [ ⟨.LNE_CTRL, 0x40000, [(0x40, 10)], false, [F.LNE_CTRL_OWN, F.LNE_CTRL_TXINV, F.LNE_CTRL_RXINV, F.LNE_CTRL_TMODE, F.LNE_CTRL_PRBS, F.LNE_CTRL_PINV, F.LNE_CTRL_ERRINJ, F.LNE_CTRL_PSREQ]⟩,
    ⟨.LNE_TXEQ, 0x40004, [(0x40, 10)], false, [F.LNE_TXEQ_POST, F.LNE_TXEQ_MAIN, F.LNE_TXEQ_PRE]⟩,
    ⟨.LNE_RXEQ, 0x40008, [(0x40, 10)], false, [F.LNE_RXEQ_CTLE_AUTO, F.LNE_RXEQ_DFE_AUTO, F.LNE_RXEQ_CTLE]⟩,
    ⟨.LNE_DFE, 0x4000C, [(0x40, 10)], false, [F.LNE_DFE_T1, F.LNE_DFE_T2, F.LNE_DFE_T3, F.LNE_DFE_T4, F.LNE_DFE_T5]⟩,
    ⟨.LNE_STAT, 0x40010, [(0x40, 10)], false, [F.LNE_STAT_LOSCNT, F.LNE_STAT_CFGERR, F.LNE_STAT_TREF, F.LNE_STAT_PRBS_LOCK, F.LNE_STAT_CDR_LOCK, F.LNE_STAT_LOS, F.LNE_STAT_EQLOW, F.LNE_STAT_PENDV, F.LNE_STAT_PSPEND, F.LNE_STAT_TRANS, F.LNE_STAT_PSCUR]⟩,
    ⟨.LNE_PERR, 0x40014, [(0x40, 10)], false, [F.LNE_PERR_ERR]⟩,
    ⟨.LNE_EYE, 0x40018, [(0x40, 10)], false, [F.LNE_EYE_EQF, F.LNE_EYE_EYE_V, F.LNE_EYE_EYE_H]⟩,
    ⟨.LNE_EQCFG, 0x4001C, [(0x40, 10)], false, [F.LNE_EQCFG_EQTHR]⟩,
    ⟨.LNE_GRP, 0x40800, [(0x10, 4)], false, [F.LNE_GRP_LOCKCNT, F.LNE_GRP_CFGERR, F.LNE_GRP_PLL_LOCK, F.LNE_GRP_RATE]⟩ ]
/-- The registers of block Lne (R446). -/
def descLne : List RegDesc := descLne0

def descNet0 : List RegDesc :=
  [ ⟨.NET_CTRL, 0x50000, [(0x100, 2)], false, [F.NET_CTRL_EXIT_EN, F.NET_CTRL_AN_EN, F.NET_CTRL_FEC, F.NET_CTRL_VLAN_EN, F.NET_CTRL_PTP_TR, F.NET_CTRL_PTP_P2P, F.NET_CTRL_PTP_1STEP, F.NET_CTRL_PCP, F.NET_CTRL_VID]⟩,
    ⟨.NET_STAT, 0x50004, [(0x100, 2)], false, [F.NET_STAT_ECHOERR, F.NET_STAT_RXDROP, F.NET_STAT_MTUERR, F.NET_STAT_IPCONF, F.NET_STAT_LINK, F.NET_STAT_XSTATE]⟩,
    ⟨.NET_MAC, 0x50008, [(0x100, 2)], false, [F.NET_MAC_MAC_LO]⟩,
    ⟨.NET_MAC_HI, 0x5000C, [(0x100, 2)], false, [F.NET_MAC_HI_MAC_HI]⟩,
    ⟨.NET_MTU, 0x50010, [(0x100, 2)], false, [F.NET_MTU_MTU]⟩,
    ⟨.NET_IP4, 0x50014, [(0x100, 2)], false, [F.NET_IP4_ADDR]⟩,
    ⟨.NET_IP4_GW, 0x50018, [(0x100, 2)], false, [F.NET_IP4_GW_GW]⟩,
    ⟨.NET_IP4_PFX, 0x5001C, [(0x100, 2)], false, [F.NET_IP4_PFX_PFX]⟩,
    ⟨.NET_IP6, 0x50020, [(0x100, 2), (0x4, 4)], false, [F.NET_IP6_ADDR]⟩,
    ⟨.NET_IP6_GW, 0x50030, [(0x100, 2), (0x4, 4)], false, [F.NET_IP6_GW_GW]⟩,
    ⟨.NET_IP6_PFX, 0x50040, [(0x100, 2)], false, [F.NET_IP6_PFX_PFX]⟩,
    ⟨.NET_PTP_ASYM, 0x50044, [(0x100, 2)], false, [F.NET_PTP_ASYM_ASYM]⟩ ]
def descNet1 : List RegDesc :=
  [ ⟨.NET_PTP_CFG, 0x50048, [(0x100, 2)], false, [F.NET_PTP_CFG_ANN_TMO, F.NET_PTP_CFG_LOG_PDLY]⟩,
    ⟨.NET_GCFG, 0x50800, [], false, [F.NET_GCFG_CMDPORT, F.NET_GCFG_LDT, F.NET_GCFG_ECHO_N]⟩,
    ⟨.NET_SPORT, 0x50804, [], false, [F.NET_SPORT_SPORT]⟩,
    ⟨.DST_ADDR, 0x51000, [(0x20, 16), (0x4, 4)], false, [F.DST_ADDR_ADDR]⟩,
    ⟨.DST_PORT, 0x51010, [(0x20, 16)], false, [F.DST_PORT_V, F.DST_PORT_IP6, F.DST_PORT_PORT]⟩ ]
/-- The registers of block Net (R446). -/
def descNet : List RegDesc := descNet0 ++ descNet1

def descChp0 : List RegDesc :=
  [ ⟨.CHP_CTRL, 0x60000, [(0x100, 2)], false, [F.CHP_CTRL_GENMAX, F.CHP_CTRL_WMAX, F.CHP_CTRL_RETRAIN, F.CHP_CTRL_EN]⟩,
    ⟨.CHP_STAT, 0x60004, [(0x100, 2)], false, [F.CHP_STAT_DOWNCNT, F.CHP_STAT_REPLAY, F.CHP_STAT_BLKERR, F.CHP_STAT_GEN, F.CHP_STAT_WIDTH, F.CHP_STAT_UP]⟩,
    ⟨.CHP_PEER, 0x60008, [(0x100, 2)], false, [F.CHP_PEER_PEERID]⟩,
    ⟨.CHP_RING, 0x60800, [], false, [F.CHP_RING_NHUBS, F.CHP_RING_POS, F.CHP_RING_SWREF, F.CHP_RING_NOEXIT, F.CHP_RING_ACTHERE, F.CHP_RING_SWITCH]⟩,
    ⟨.CHP_ACT, 0x60804, [], false, [F.CHP_ACT_ACTID, F.CHP_ACT_APORT]⟩,
    ⟨.CHP_MIRR, 0x60808, [], false, [F.CHP_MIRR_AGE, F.CHP_MIRR_GEN]⟩,
    ⟨.CHP_SWT, 0x6080C, [], false, [F.CHP_SWT_TGTID, F.CHP_SWT_TGTPORT]⟩,
    ⟨.CHP_NEXP, 0x60810, [], false, [F.CHP_NEXP_NEXP]⟩ ]
/-- The registers of block Chp (R446). -/
def descChp : List RegDesc := descChp0

def descStr0 : List RegDesc :=
  [ ⟨.STR_CTRL, 0x70000, [(0x40, 512)], false, [F.STR_CTRL_ABORT, F.STR_CTRL_STOP, F.STR_CTRL_START]⟩,
    ⟨.STR_CFG, 0x70004, [(0x40, 512)], false, [F.STR_CFG_KIND, F.STR_CFG_GGE, F.STR_CFG_SPILL, F.STR_CFG_TAP, F.STR_CFG_FORMAT, F.STR_CFG_DESC_PER, F.STR_CFG_MAXP]⟩,
    ⟨.STR_FIFO, 0x70008, [(0x40, 512)], false, [F.STR_FIFO_SIZE, F.STR_FIFO_BASE]⟩,
    ⟨.STR_SEND, 0x7000C, [(0x40, 512)], false, [F.STR_SEND_DST, F.STR_SEND_FLUSH]⟩,
    ⟨.STR_MEMB, 0x70010, [(0x40, 512)], false, [F.STR_MEMB_NCH, F.STR_MEMB_MLBASE]⟩,
    ⟨.STR_PSEQ, 0x70014, [(0x40, 512)], false, [F.STR_PSEQ_PSEQ]⟩,
    ⟨.STR_STAT, 0x70018, [(0x40, 512)], false, [F.STR_STAT_GAPCNT, F.STR_STAT_CAUSE, F.STR_STAT_ABLOST, F.STR_STAT_CFGERR, F.STR_STAT_SPILLING, F.STR_STAT_GAP, F.STR_STAT_STATE]⟩,
    ⟨.STR_FSTAT, 0x7001C, [(0x40, 512)], false, [F.STR_FSTAT_PKTS, F.STR_FSTAT_SPILLPG]⟩,
    ⟨.STR_WP, 0x70020, [(0x40, 512)], false, [F.STR_WP_WP]⟩,
    ⟨.STR_SP, 0x70024, [(0x40, 512)], false, [F.STR_SP_SP]⟩,
    ⟨.STR_RP, 0x70028, [(0x40, 512)], false, [F.STR_RP_RP]⟩,
    ⟨.STR_RATE, 0x7002C, [(0x40, 512)], false, [F.STR_RATE_F]⟩ ]
def descStr1 : List RegDesc :=
  [ ⟨.STR_WIRE, 0x70030, [(0x40, 512)], false, [F.STR_WIRE_V]⟩,
    ⟨.STR_ICNT, 0x70034, [(0x40, 512)], false, [F.STR_ICNT_ICNT_LO]⟩,
    ⟨.STR_ICNT_HI, 0x70038, [(0x40, 512)], false, [F.STR_ICNT_HI_ICNT_HI]⟩,
    ⟨.STR_RBUD, 0x7003C, [(0x40, 512)], false, [F.STR_RBUD_RB]⟩,
    ⟨.STR_BUDGET, 0x78000, [], false, [F.STR_BUDGET_BUD]⟩,
    ⟨.STR_GSTAT, 0x78004, [], false, [F.STR_GSTAT_NOROUTE, F.STR_GSTAT_REFCNT, F.STR_GSTAT_POOLPG]⟩,
    ⟨.STR_FSUM, 0x78008, [], false, [F.STR_FSUM_FSUM]⟩,
    ⟨.STR_WSUM, 0x7800C, [], false, [F.STR_WSUM_WSUM]⟩,
    ⟨.STR_GSTORE, 0x78010, [], false, [F.STR_GSTORE_COUNT]⟩,
    ⟨.STR_ML, 0x7A000, [(0x4, 2048)], false, [F.STR_ML_CHAN]⟩ ]
/-- The registers of block Str (R446). -/
def descStr : List RegDesc := descStr0 ++ descStr1

def descGge0 : List RegDesc :=
  [ ⟨.GGE_CTRL, 0x80000, [], false, [F.GGE_CTRL_RETEST]⟩,
    ⟨.GGE_STAT, 0x80004, [], false, [F.GGE_STAT_MISCNT, F.GGE_STAT_RSSCNT, F.GGE_STAT_STALL, F.GGE_STAT_VERDICT, F.GGE_STAT_STATE]⟩,
    ⟨.GGE_LOAD, 0x80008, [], false, [F.GGE_LOAD_LOAD]⟩,
    ⟨.GGE_CAP, 0x8000C, [], false, [F.GGE_CAP_CAP]⟩,
    ⟨.GGE_POOL, 0x80010, [], false, [F.GGE_POOL_USED, F.GGE_POOL_FREE]⟩,
    ⟨.GGE_OBUF, 0x80014, [], false, [F.GGE_OBUF_FILL]⟩,
    ⟨.GGE_CTX, 0x81000, [(0x10, 512)], false, [F.GGE_CTX_RSTBLK, F.GGE_CTX_CONT, F.GGE_CTX_TBL, F.GGE_CTX_EFFORT, F.GGE_CTX_PRED, F.GGE_CTX_HSC]⟩,
    ⟨.GGE_CSTAT, 0x81004, [(0x10, 512)], false, [F.GGE_CSTAT_FSCNT, F.GGE_CSTAT_REFC, F.GGE_CSTAT_GRAN]⟩,
    ⟨.GGE_CIN, 0x81008, [(0x10, 512)], false, [F.GGE_CIN_CIN]⟩,
    ⟨.GGE_COUT, 0x8100C, [(0x10, 512)], false, [F.GGE_COUT_COUT]⟩ ]
/-- The registers of block Gge (R446). -/
def descGge : List RegDesc := descGge0

def descCap0 : List RegDesc :=
  [ ⟨.CAP_RING, 0x90000, [], false, [F.CAP_RING_ECHO, F.CAP_RING_RXEN]⟩,
    ⟨.CAP_BOWL, 0x90004, [], false, [F.CAP_BOWL_ALLOCPG, F.CAP_BOWL_SPILLPG]⟩,
    ⟨.CAP_CTRL, 0x91000, [(0x400, 16)], false, [F.CAP_CTRL_REL, F.CAP_CTRL_SOFT, F.CAP_CTRL_DISARM, F.CAP_CTRL_ARM]⟩,
    ⟨.CAP_CFG, 0x91004, [(0x400, 16)], false, [F.CAP_CFG_ALLOC, F.CAP_CFG_AUTO, F.CAP_CFG_OVW, F.CAP_CFG_HOSTC, F.CAP_CFG_STRC, F.CAP_CFG_TOUTPW, F.CAP_CFG_TAP, F.CAP_CFG_FORMAT, F.CAP_CFG_HOLDOFF]⟩,
    ⟨.CAP_BUF, 0x91008, [(0x400, 16)], false, [F.CAP_BUF_PAGES, F.CAP_BUF_BASE]⟩,
    ⟨.CAP_SLOT, 0x9100C, [(0x400, 16)], false, [F.CAP_SLOT_NREC, F.CAP_SLOT_SLOTPG]⟩,
    ⟨.CAP_PRE, 0x91010, [(0x400, 16)], false, [F.CAP_PRE_POST, F.CAP_PRE_PRE]⟩,
    ⟨.CAP_MEAS, 0x91014, [(0x400, 16)], false, [F.CAP_MEAS_Z]⟩,
    ⟨.CAP_MEAS_CFG, 0x91018, [(0x400, 16)], false, [F.CAP_MEAS_CFG_ZSRC]⟩,
    ⟨.CAP_STR, 0x9101C, [(0x400, 16)], false, [F.CAP_STR_STR]⟩,
    ⟨.CAP_STAT, 0x91020, [(0x400, 16)], false, [F.CAP_STAT_LOSTCNT, F.CAP_STAT_OVWCNT, F.CAP_STAT_HOLDCNT, F.CAP_STAT_CFGERR, F.CAP_STAT_LATE, F.CAP_STAT_ALLOCW, F.CAP_STAT_STATE]⟩,
    ⟨.CAP_ERR, 0x91024, [(0x400, 16)], false, [F.CAP_ERR_CAUSE]⟩ ]
def descCap1 : List RegDesc :=
  [ ⟨.CAP_RDQ, 0x91028, [(0x400, 16)], false, [F.CAP_RDQ_HSEQ, F.CAP_RDQ_VALID, F.CAP_RDQ_SLOT]⟩,
    ⟨.CAP_SEQ, 0x9102C, [(0x400, 16)], false, [F.CAP_SEQ_SEQ]⟩,
    ⟨.CAP_LOST_T, 0x91030, [(0x400, 16)], false, [F.CAP_LOST_T_T_LO]⟩,
    ⟨.CAP_LOST_T_HI, 0x91034, [(0x400, 16)], false, [F.CAP_LOST_T_HI_T_HI]⟩,
    ⟨.CAP_LAST_T, 0x91038, [(0x400, 16)], false, [F.CAP_LAST_T_T_LO]⟩,
    ⟨.CAP_LAST_T_HI, 0x9103C, [(0x400, 16)], false, [F.CAP_LAST_T_HI_T_HI]⟩,
    ⟨.CAP_CND, 0x91100, [(0x400, 16), (0x10, 8)], false, [F.CAP_CND_EN, F.CAP_CND_FWD, F.CAP_CND_LINE, F.CAP_CND_TYPE, F.CAP_CND_CHAN, F.CAP_CND_PARAM]⟩,
    ⟨.CAP_CND_V1, 0x91104, [(0x400, 16), (0x10, 8)], false, [F.CAP_CND_V1_V1]⟩,
    ⟨.CAP_CND_V2, 0x91108, [(0x400, 16), (0x10, 8)], false, [F.CAP_CND_V2_V2]⟩,
    ⟨.CAP_CHL, 0x91200, [(0x400, 16), (0x4, 64)], false, [F.CAP_CHL_VALID, F.CAP_CHL_MEAS, F.CAP_CHL_CHAN]⟩ ]
/-- The registers of block Cap (R446). -/
def descCap : List RegDesc := descCap0 ++ descCap1

def descTls0 : List RegDesc :=
  [ ⟨.TLS_STAT, 0xA0000, [], false, [F.TLS_STAT_LCAUSE, F.TLS_STAT_PRES, F.TLS_STAT_CONN, F.TLS_STAT_GSTATE]⟩,
    ⟨.TLS_SI, 0xA0004, [], false, [F.TLS_SI_SIFLT, F.TLS_SI_SIST]⟩,
    ⟨.TLS_SIRAW, 0xA0008, [], false, [F.TLS_SIRAW_SIB, F.TLS_SIRAW_SIA]⟩,
    ⟨.TLS_AX, 0xA0010, [(0x4, 4)], false, [F.TLS_AX_DEM, F.TLS_AX_SBCREL, F.TLS_AX_STOA, F.TLS_AX_STOB, F.TLS_AX_RSTOK, F.TLS_AX_ASTATE]⟩,
    ⟨.TLS_SPD, 0xA0020, [(0x4, 4)], false, [F.TLS_SPD_V]⟩,
    ⟨.TLS_PCRC, 0xA0030, [], false, [F.TLS_PCRC_PCRC]⟩,
    ⟨.TLS_SW, 0xA0034, [], false, [F.TLS_SW_SADR, F.TLS_SW_SEAL]⟩,
    ⟨.TLS_TLG, 0xA0038, [], false, [F.TLS_TLG_CN]⟩,
    ⟨.TLS_TLGST, 0xA003C, [], false, [F.TLS_TLGST_REFCNT, F.TLS_TLGST_LASTREF]⟩,
    ⟨.TLS_CYC, 0xA0040, [], false, [F.TLS_CYC_CYC]⟩ ]
/-- The registers of block Tls (R446). -/
def descTls : List RegDesc := descTls0

def descClu0 : List RegDesc :=
  [ ⟨.CLU_EXC_CTRL, 0x100000, [(0x1000, 48)], true, [F.CLU_EXC_CTRL_ALT_PER, F.CLU_EXC_CTRL_SETTLE, F.CLU_EXC_CTRL_ILIM_T, F.CLU_EXC_CTRL_CLR_SHUT, F.CLU_EXC_CTRL_SENSE, F.CLU_EXC_CTRL_POL, F.CLU_EXC_CTRL_EN]⟩,
    ⟨.CLU_EXC_SET, 0x100004, [(0x1000, 48)], true, [F.CLU_EXC_SET_VSET]⟩,
    ⟨.CLU_EXC_STAT, 0x100008, [(0x1000, 48)], true, [F.CLU_EXC_STAT_LIMCNT, F.CLU_EXC_STAT_SHUT, F.CLU_EXC_STAT_DROP, F.CLU_EXC_STAT_SOPEN, F.CLU_EXC_STAT_ILIM, F.CLU_EXC_STAT_RAMP, F.CLU_EXC_STAT_POL_ACT, F.CLU_EXC_STAT_ON]⟩,
    ⟨.CLU_EXC_MEAS, 0x10000C, [(0x1000, 48)], true, [F.CLU_EXC_MEAS_IMEAS, F.CLU_EXC_MEAS_VSENSE]⟩,
    ⟨.CLU_EXC_MEAS2, 0x100010, [(0x1000, 48)], true, [F.CLU_EXC_MEAS2_VDRIVE, F.CLU_EXC_MEAS2_VHEAD]⟩ ]
/-- The registers of block Clu (R446). -/
def descClu : List RegDesc := descClu0

def descRgn0 : List RegDesc :=
  [ ⟨.RGN_CTRL, 0x200000, [(0x1000, 8)], true, [F.RGN_CTRL_WHEN, F.RGN_CTRL_STOP, F.RGN_CTRL_START]⟩,
    ⟨.RGN_WIN, 0x200004, [(0x1000, 8)], true, [F.RGN_WIN_MODE, F.RGN_WIN_MCYC, F.RGN_WIN_LEN]⟩,
    ⟨.RGN_START, 0x200008, [(0x1000, 8)], true, [F.RGN_START_T_LO]⟩,
    ⟨.RGN_START_HI, 0x20000C, [(0x1000, 8)], true, [F.RGN_START_HI_T_HI]⟩,
    ⟨.RGN_STAT, 0x200010, [(0x1000, 8)], true, [F.RGN_STAT_REFCNT, F.RGN_STAT_CAUSE, F.RGN_STAT_MHOLD, F.RGN_STAT_STATE]⟩,
    ⟨.RGN_WSEQ, 0x200014, [(0x1000, 8)], true, [F.RGN_WSEQ_WSEQ]⟩,
    ⟨.RGN_MAINS, 0x200018, [(0x1000, 8)], true, [F.RGN_MAINS_PERIOD]⟩,
    ⟨.RGN_SEQ_CTRL, 0x200040, [(0x1000, 8)], true, [F.RGN_SEQ_CTRL_START_IDX, F.RGN_SEQ_CTRL_RUN]⟩,
    ⟨.RGN_SEQ_STAT, 0x200044, [(0x1000, 8)], true, [F.RGN_SEQ_STAT_ERRIDX, F.RGN_SEQ_STAT_PC, F.RGN_SEQ_STAT_SPILL, F.RGN_SEQ_STAT_QWAIT, F.RGN_SEQ_STAT_ERR, F.RGN_SEQ_STAT_STATE]⟩,
    ⟨.RGN_SEQ_ROT, 0x200048, [(0x1000, 8)], true, [F.RGN_SEQ_ROT_ROTSPARE, F.RGN_SEQ_ROT_POS]⟩,
    ⟨.RGN_SEQ_MASK, 0x20004C, [(0x1000, 8)], true, [F.RGN_SEQ_MASK_MASK_LO]⟩,
    ⟨.RGN_SEQ_MASK_HI, 0x200050, [(0x1000, 8)], true, [F.RGN_SEQ_MASK_HI_SPMASK, F.RGN_SEQ_MASK_HI_MASK_HI]⟩ ]
def descRgn1 : List RegDesc :=
  [ ⟨.RGN_SEQ_CMPL, 0x200054, [(0x1000, 8)], true, [F.RGN_SEQ_CMPL_CMPL]⟩,
    ⟨.RGN_STEADY_CFG, 0x200060, [(0x1000, 8)], true, [F.RGN_STEADY_CFG_MATCH_THR, F.RGN_STEADY_CFG_GAPCAL, F.RGN_STEADY_CFG_BRW_CAL, F.RGN_STEADY_CFG_BRW_FAIL, F.RGN_STEADY_CFG_CAL_ITER, F.RGN_STEADY_CFG_OVL]⟩,
    ⟨.RGN_CAL_CFG, 0x200064, [(0x1000, 8)], true, [F.RGN_CAL_CFG_CAL_LIM, F.RGN_CAL_CFG_CAL_TMO, F.RGN_CAL_CFG_VERC, F.RGN_CAL_CFG_CALC]⟩,
    ⟨.RGN_STEADY_AUTO, 0x200068, [(0x1000, 8)], true, [F.RGN_STEADY_AUTO_CAL_PER, F.RGN_STEADY_AUTO_IMP_PER]⟩,
    ⟨.RGN_STEADY_STAT, 0x20006C, [(0x1000, 8)], true, [F.RGN_STEADY_STAT_LOSTCNT, F.RGN_STEADY_STAT_QLEN, F.RGN_STEADY_STAT_BRW, F.RGN_STEADY_STAT_COMMIT, F.RGN_STEADY_STAT_FREE]⟩,
    ⟨.RGN_SEQ_STR, 0x200070, [(0x1000, 8)], false, [F.RGN_SEQ_STR_EN, F.RGN_SEQ_STR_STR]⟩,
    ⟨.RGN_SEQ_ENT, 0x200800, [(0x1000, 8), (0x8, 256)], true, [F.RGN_SEQ_ENT_REP, F.RGN_SEQ_ENT_DLY]⟩,
    ⟨.RGN_SEQ_ENT_HI, 0x200804, [(0x1000, 8), (0x8, 256)], true, [F.RGN_SEQ_ENT_HI_OP, F.RGN_SEQ_ENT_HI_TGT, F.RGN_SEQ_ENT_HI_ARG]⟩ ]
/-- The registers of block Rgn (R446). -/
def descRgn : List RegDesc := descRgn0 ++ descRgn1

def descCh0 : List RegDesc :=
  [ ⟨.CH_AIN, 0x1000000, [(0x400, 384)], true, [F.CH_AIN_PFOLLOW, F.CH_AIN_CMB, F.CH_AIN_BIAS, F.CH_AIN_REF, F.CH_AIN_GAIN]⟩,
    ⟨.CH_AIN_STAT, 0x1000004, [(0x400, 384)], true, [F.CH_AIN_STAT_CMERR, F.CH_AIN_STAT_RLOW, F.CH_AIN_STAT_PEND, F.CH_AIN_STAT_BIAS_ACT, F.CH_AIN_STAT_REF_ACT, F.CH_AIN_STAT_GAIN_ACT]⟩,
    ⟨.CH_EVT_CTRL, 0x1000010, [(0x400, 384)], true, [F.CH_EVT_CTRL_BURST, F.CH_EVT_CTRL_HOLDOFF, F.CH_EVT_CTRL_MODE]⟩,
    ⟨.CH_EVT_THR, 0x1000014, [(0x400, 384)], true, [F.CH_EVT_THR_UPPER, F.CH_EVT_THR_LOWER, F.CH_EVT_THR_HYST]⟩,
    ⟨.CH_EVT_STUCK, 0x1000018, [(0x400, 384)], true, [F.CH_EVT_STUCK_STUCK_T]⟩,
    ⟨.CH_EVT_STAT, 0x100001C, [(0x400, 384)], true, [F.CH_EVT_STAT_OVRCNT, F.CH_EVT_STAT_CFGERR, F.CH_EVT_STAT_STUCK, F.CH_EVT_STAT_HOLD, F.CH_EVT_STAT_BURST, F.CH_EVT_STAT_ARMED]⟩,
    ⟨.CH_EVT_LAST, 0x1000020, [(0x400, 384)], true, [F.CH_EVT_LAST_T_LO]⟩,
    ⟨.CH_EVT_LAST_HI, 0x1000024, [(0x400, 384)], true, [F.CH_EVT_LAST_HI_T_HI]⟩,
    ⟨.CH_RAW_CNT, 0x1000028, [(0x400, 384)], true, [F.CH_RAW_CNT_COUNT]⟩,
    ⟨.CH_RAW_RES, 0x100002C, [(0x400, 384)], true, [F.CH_RAW_RES_OVR, F.CH_RAW_RES_INTB, F.CH_RAW_RES_RESID]⟩,
    ⟨.CH_STEADY_CTRL, 0x1000040, [(0x400, 384)], false, [F.CH_STEADY_CTRL_RETEST, F.CH_STEADY_CTRL_FULL, F.CH_STEADY_CTRL_IMP_REQ, F.CH_STEADY_CTRL_CAL_REQ]⟩,
    ⟨.CH_STEADY_STAT, 0x1000044, [(0x400, 384)], false, [F.CH_STEADY_STAT_GAPCNT, F.CH_STEADY_STAT_SRC, F.CH_STEADY_STAT_MATCHERR, F.CH_STEADY_STAT_CALFAIL, F.CH_STEADY_STAT_OVERDUE, F.CH_STEADY_STAT_STATE]⟩ ]
def descCh1 : List RegDesc :=
  [ ⟨.CH_CAL_STAT, 0x1000048, [(0x400, 384)], false, [F.CH_CAL_STAT_RF, F.CH_CAL_STAT_RES, F.CH_CAL_STAT_GCODE]⟩,
    ⟨.CH_CAL_T, 0x100004C, [(0x400, 384)], false, [F.CH_CAL_T_T_LO]⟩,
    ⟨.CH_CAL_T_HI, 0x1000050, [(0x400, 384)], false, [F.CH_CAL_T_HI_T_HI]⟩,
    ⟨.CH_MATCH, 0x1000054, [(0x400, 384)], false, [F.CH_MATCH_MO]⟩,
    ⟨.CH_MATCH_G, 0x1000058, [(0x400, 384)], false, [F.CH_MATCH_G_MG]⟩,
    ⟨.CH_TRIM, 0x1000080, [(0x400, 384), (0x8, 8)], true, [F.CH_TRIM_OFS, F.CH_TRIM_GAIN]⟩,
    ⟨.CH_CALV, 0x1000084, [(0x400, 384), (0x8, 8)], true, [F.CH_CALV_EG, F.CH_CALV_EO]⟩,
    ⟨.CH_QTRIM, 0x10000C0, [(0x400, 384)], true, [F.CH_QTRIM_QTRIM]⟩,
    ⟨.CH_HLT_CFG, 0x1000100, [(0x400, 384)], false, [F.CH_HLT_CFG_OW_CLR, F.CH_HLT_CFG_SPOL, F.CH_HLT_CFG_OW_EN]⟩,
    ⟨.CH_HLT_STAT, 0x1000104, [(0x400, 384)], false, [F.CH_HLT_STAT_OWCNT, F.CH_HLT_STAT_REFILL, F.CH_HLT_STAT_OPEN, F.CH_HLT_STAT_OWD, F.CH_HLT_STAT_TRANS]⟩,
    ⟨.CH_OW_T, 0x1000108, [(0x400, 384)], false, [F.CH_OW_T_T_LO]⟩,
    ⟨.CH_OW_T_HI, 0x100010C, [(0x400, 384)], false, [F.CH_OW_T_HI_T_HI]⟩ ]
def descCh2 : List RegDesc :=
  [ ⟨.CH_IMP_LIM, 0x1000110, [(0x400, 384)], false, [F.CH_IMP_LIM_RHI, F.CH_IMP_LIM_RLO]⟩,
    ⟨.CH_IMP_CFG, 0x1000114, [(0x400, 384)], false, [F.CH_IMP_CFG_SETREF, F.CH_IMP_CFG_DRIFT]⟩,
    ⟨.CH_IMP_REF, 0x1000118, [(0x400, 384)], false, [F.CH_IMP_REF_RREF]⟩,
    ⟨.CH_IMP_R, 0x100011C, [(0x400, 384)], false, [F.CH_IMP_R_R]⟩,
    ⟨.CH_IMP_X, 0x1000120, [(0x400, 384)], false, [F.CH_IMP_X_X]⟩,
    ⟨.CH_IMP_STAT, 0x1000124, [(0x400, 384)], false, [F.CH_IMP_STAT_FAILCNT, F.CH_IMP_STAT_RES]⟩,
    ⟨.CH_IMP_T, 0x1000128, [(0x400, 384)], false, [F.CH_IMP_T_T_LO]⟩,
    ⟨.CH_IMP_T_HI, 0x100012C, [(0x400, 384)], false, [F.CH_IMP_T_HI_T_HI]⟩,
    ⟨.CH_IMP_GOOD, 0x1000130, [(0x400, 384)], false, [F.CH_IMP_GOOD_T_LO]⟩,
    ⟨.CH_IMP_GOOD_HI, 0x1000134, [(0x400, 384)], false, [F.CH_IMP_GOOD_HI_T_HI]⟩,
    ⟨.CH_PRC_CTRL, 0x1000180, [(0x400, 384)], false, [F.CH_PRC_CTRL_K, F.CH_PRC_CTRL_D, F.CH_PRC_CTRL_FILLINV, F.CH_PRC_CTRL_NBQ, F.CH_PRC_CTRL_FIREN]⟩,
    ⟨.CH_PRC_FIR, 0x1000184, [(0x400, 384)], false, [F.CH_PRC_FIR_SET]⟩ ]
def descCh3 : List RegDesc :=
  [ ⟨.CH_COR_GAIN, 0x1000188, [(0x400, 384)], false, [F.CH_COR_GAIN_DG]⟩,
    ⟨.CH_COR_OFS, 0x100018C, [(0x400, 384)], false, [F.CH_COR_OFS_DO]⟩,
    ⟨.CH_BQ_COEF, 0x1000190, [(0x400, 384), (0x14, 2), (0x4, 5)], false, [F.CH_BQ_COEF_COEF]⟩,
    ⟨.CH_BQ_CTRL, 0x10001B8, [(0x400, 384)], false, [F.CH_BQ_CTRL_COMMIT1, F.CH_BQ_CTRL_COMMIT0, F.CH_BQ_CTRL_FHOLD]⟩,
    ⟨.CH_SCL_MUL, 0x10001C0, [(0x400, 384)], false, [F.CH_SCL_MUL_MUL]⟩,
    ⟨.CH_SCL_CFG, 0x10001C4, [(0x400, 384)], false, [F.CH_SCL_CFG_SH]⟩,
    ⟨.CH_SCL_OFS, 0x10001C8, [(0x400, 384)], false, [F.CH_SCL_OFS_SOFS]⟩,
    ⟨.CH_STAT_CFG, 0x10001D0, [(0x400, 384)], false, [F.CH_STAT_CFG_NBLK]⟩,
    ⟨.CH_SW_CFG, 0x10001D4, [(0x400, 384)], false, [F.CH_SW_CFG_EVEN 0, F.CH_SW_CFG_DEB 0, F.CH_SW_CFG_INVP 0, F.CH_SW_CFG_MODE 0, F.CH_SW_CFG_EN 0, F.CH_SW_CFG_EVEN 1, F.CH_SW_CFG_DEB 1, F.CH_SW_CFG_INVP 1, F.CH_SW_CFG_MODE 1, F.CH_SW_CFG_EN 1, F.CH_SW_CFG_EVEN 2, F.CH_SW_CFG_DEB 2, F.CH_SW_CFG_INVP 2, F.CH_SW_CFG_MODE 2, F.CH_SW_CFG_EN 2, F.CH_SW_CFG_EVEN 3, F.CH_SW_CFG_DEB 3, F.CH_SW_CFG_INVP 3, F.CH_SW_CFG_MODE 3, F.CH_SW_CFG_EN 3]⟩,
    ⟨.CH_SW_UP, 0x10001D8, [(0x400, 384), (0x8, 4)], false, [F.CH_SW_UP_UP]⟩,
    ⟨.CH_SW_LO, 0x10001DC, [(0x400, 384), (0x8, 4)], false, [F.CH_SW_LO_LO]⟩,
    ⟨.CH_SW_STAT, 0x10001F8, [(0x400, 384)], false, [F.CH_SW_STAT_CHGCNT, F.CH_SW_STAT_CFGERR, F.CH_SW_STAT_STATE]⟩ ]
def descCh4 : List RegDesc :=
  [ ⟨.CH_GRP, 0x10001FC, [(0x400, 384)], false, [F.CH_GRP_GRP]⟩,
    ⟨.CH_OUT_W, 0x1000200, [(0x400, 384)], false, [F.CH_OUT_W_W]⟩,
    ⟨.CH_OUT_Q, 0x1000204, [(0x400, 384)], false, [F.CH_OUT_Q_OSEQ, F.CH_OUT_Q_SW, F.CH_OUT_Q_QUAL]⟩,
    ⟨.CH_OUT_T, 0x1000208, [(0x400, 384)], false, [F.CH_OUT_T_T_LO]⟩,
    ⟨.CH_OUT_T_HI, 0x100020C, [(0x400, 384)], false, [F.CH_OUT_T_HI_T_HI]⟩,
    ⟨.CH_OUT_S, 0x1000210, [(0x400, 384)], false, [F.CH_OUT_S_S]⟩,
    ⟨.CH_RQ_CFG, 0x1000214, [(0x400, 384)], false, [F.CH_RQ_CFG_TAP]⟩,
    ⟨.CH_EVT_STR, 0x1000240, [(0x400, 384)], false, [F.CH_EVT_STR_EN, F.CH_EVT_STR_STR]⟩ ]
/-- The registers of block Ch (R446). -/
def descCh : List RegDesc := descCh0 ++ descCh1 ++ descCh2 ++ descCh3 ++ descCh4

def descSpr0 : List RegDesc :=
  [ ⟨.SPR_CTRL, 0x1800040, [(0x400, 48)], true, [F.SPR_CTRL_RETEST, F.SPR_CTRL_CAL_REQ]⟩,
    ⟨.SPR_STAT, 0x1800044, [(0x400, 48)], true, [F.SPR_STAT_CHAN, F.SPR_STAT_BORROWED, F.SPR_STAT_STATE]⟩,
    ⟨.SPR_CAL_STAT, 0x1800048, [(0x400, 48)], true, [F.SPR_CAL_STAT_RF, F.SPR_CAL_STAT_RES, F.SPR_CAL_STAT_GCODE]⟩,
    ⟨.SPR_CAL_T, 0x180004C, [(0x400, 48)], true, [F.SPR_CAL_T_T_LO]⟩,
    ⟨.SPR_CAL_T_HI, 0x1800050, [(0x400, 48)], true, [F.SPR_CAL_T_HI_T_HI]⟩,
    ⟨.SPR_TRIM, 0x1800080, [(0x400, 48), (0x8, 8)], true, [F.SPR_TRIM_OFS, F.SPR_TRIM_GAIN]⟩,
    ⟨.SPR_CALV, 0x1800084, [(0x400, 48), (0x8, 8)], true, [F.SPR_CALV_EG, F.SPR_CALV_EO]⟩,
    ⟨.SPR_QTRIM, 0x18000C0, [(0x400, 48)], true, [F.SPR_QTRIM_QTRIM]⟩ ]
/-- The registers of block Spr (R446). -/
def descSpr : List RegDesc := descSpr0

/-- The descriptors of the block an address lies in (Table 17.1). -/
def descsAt (a : Nat) : List RegDesc :=
  if 0x0 ≤ a ∧ a < 0x10000 then descGlb else
  if 0x10000 ≤ a ∧ a < 0x20000 then descSpn else
  if 0x20000 ≤ a ∧ a < 0x30000 then descFlt else
  if 0x30000 ≤ a ∧ a < 0x40000 then descCmd else
  if 0x40000 ≤ a ∧ a < 0x50000 then descLne else
  if 0x50000 ≤ a ∧ a < 0x60000 then descNet else
  if 0x60000 ≤ a ∧ a < 0x70000 then descChp else
  if 0x70000 ≤ a ∧ a < 0x80000 then descStr else
  if 0x80000 ≤ a ∧ a < 0x90000 then descGge else
  if 0x90000 ≤ a ∧ a < 0xA0000 then descCap else
  if 0xA0000 ≤ a ∧ a < 0xB0000 then descTls else
  if 0x100000 ≤ a ∧ a < 0x130000 then descClu else
  if 0x200000 ≤ a ∧ a < 0x208000 then descRgn else
  if 0x1000000 ≤ a ∧ a < 0x1060000 then descCh else
  if 0x1800000 ≤ a ∧ a < 0x180C000 then descSpr else
  []

/-- The copy indices of an offset under a descriptor's strides, if it is one. -/
def matchDims : Nat → List (Nat × Nat) → Option (List Nat)
  | off, [] => if off = 0 then some [] else none
  | off, (st, c) :: ds =>
    if off / st < c then (matchDims (off % st) ds).map (fun l => off / st :: l) else none

/-- The descriptor and copy indices of an address in a list of descriptors. -/
def findDesc (a : Nat) : List RegDesc → Option (RegDesc × List Nat)
  | [] => none
  | d :: ds =>
    if d.base ≤ a then
      match matchDims (a - d.base) d.dims with
      | some ix => some (d, ix)
      | none => findDesc a ds
    else findDesc a ds

/-- The register at an address: none for a reserved address (R446). -/
def lookupReg (a : Nat) : Option (RegDesc × List Nat) := findDesc a (descsAt a)

end Sys2Proof.Machine
end

