-- ==== Sys2Proof/Machine/Reset.lean ====
section
/-! DEFINITION. The reset value of every register: the values of the tables of spec/, and for registers whose table
gives none the values Config names (log entries 1 to 4). -/
namespace Sys2Proof.Machine

/-- The defined fault sources (R381: Tables 2.9, 3.6, 4.8, 5.9, 6.6, 7.6, 9.10, 11, 12, 13, 14.2, 15, 16.9, R26, R37). -/
def sourceDefined (n : Nat) : Bool :=
  decide (n ≤ 13) || decide (32 ≤ n ∧ n ≤ 41) || decide (48 ≤ n ∧ n ≤ 54) || decide (64 ≤ n ∧ n ≤ 75)
    || decide (80 ≤ n ∧ n ≤ 88) || decide (96 ≤ n ∧ n ≤ 102) || decide (104 ≤ n ∧ n ≤ 120)
    || decide (128 ≤ n ∧ n ≤ 140) || decide (160 ≤ n ∧ n ≤ 163) || decide (168 ≤ n ∧ n ≤ 172)
    || decide (184 ≤ n ∧ n ≤ 187) || decide (n = 190) || decide (192 ≤ n ∧ n ≤ 203)
    || decide (224 ≤ n ∧ n ≤ 246) || decide (248 ≤ n ∧ n ≤ 251)

/-- The reaction class a source resets to (R392). -/
def resetReact (n : Nat) : Nat :=
  if [49, 69, 96, 104, 130, 140, 193, 198, 199].contains n then 0
  else if [99, 101, 102, 133].contains n then 2
  else if sourceDefined n then 1 else 0

/-- The trim register at its production value (R142), OFS and GAIN. -/
def trimReset : Nat := (Config.productionTrim % 4096) * 2 ^ 20 + (Config.productionTrim % 4096) * 2 ^ 8

/-- Reset values that depend on the copy of the register or that Config names; none: the fields' own reset values. -/
def resetOver (r : Reg) (ix : List Nat) : Option Nat :=
  match r, ix with
  | .GLB_DEVID, _ => some (0x0384 * 2 ^ 16 + Config.variant * 256 + Config.siliconRevision)
  | .GLB_FWVER, _ => some Config.firmwareVersion
  | .GLB_UID, _ => some (Config.serialNumber % 2 ^ 32)
  | .GLB_UID_HI, _ => some (Config.serialNumber / 2 ^ 32)
  | .GLB_MAC, _ => some (Config.baseMac % 2 ^ 32)
  | .GLB_MAC_HI, _ => some (Config.baseMac / 2 ^ 32 % 2 ^ 16)
  | .NET_MAC, [p] => some ((Config.baseMac + p) % 2 ^ 32)
  | .NET_MAC_HI, [p] => some ((Config.baseMac + p) / 2 ^ 32 % 2 ^ 16)
  | .PWR_RST, _ => some 1
  | .PWR_TEMP, _ => some Config.resetTemp
  | .PWR_VDDC, _ => some Config.resetVddc
  | .PRC_CAP, _ => some 600000
  | .GGE_CAP, _ => some 12000
  | .TRK_CFG, [0] => some (256 * 64)
  | .TRK_CFG, [1] => some (2 ^ 24 + 256 * 64)
  | .TRK_CFG, [_] => some (2 * 2 ^ 16 + 16 * 64 + 1)
  | .TRK_QUAL, [t] => some (if t = 2 then 16 * 2 ^ 16 + 2 else 60000 * 2 ^ 16 + 100)
  | .FLT_EN, [w] =>
    some (((List.range 32).map (fun j => if sourceDefined (32 * w + j) then 2 ^ j else 0)).foldl (· + ·) 0)
  | .FLT_REACT, [v] =>
    some (((List.range 16).map (fun i => resetReact (16 * v + i) * 4 ^ i)).foldl (· + ·) 0)
  | .CH_BQ_COEF, [_, _, i] => some (if i = 0 then 0x10000000 else 0)
  | .PRC_FIRC, [_, i] => some (if i = 0 then 0x40000000 else 0)
  | .LNE_TXEQ, [i] => some (if i < 2 then 50 * 256 else 4 * 2 ^ 16 + 50 * 256)
  | .LNE_GRP, [q] => some (if q < 2 then 0 else 4)
  | .CMD_HUBID, _ => some (Config.strapHid % 16)
  | .TLS_SW, _ => some ((Config.strapSadr % 256) * 2 ^ 16 + Config.strapSeal % 65536)
  | .CH_TRIM, _ => some trimReset
  | .SPR_TRIM, _ => some trimReset
  | .CH_QTRIM, _ => some (Config.productionTrim % 1024)
  | .SPR_QTRIM, _ => some (Config.productionTrim % 1024)
  | _, _ => none

/-- The reset value of a register from its fields. -/
def fieldsReset (fs : List Fld) : Nat := fs.foldl (fun a f => a + f.reset * 2 ^ f.lo) 0

/-- The value of the word at an address after reset; reserved addresses read zero (R18). -/
def resetWord (a : Nat) : Word :=
  match lookupReg a with
  | none => 0
  | some (d, ix) => BitVec.ofNat 32 ((resetOver d.reg ix).getD (fieldsReset d.flds))

end Sys2Proof.Machine
end

