-- ==== Sys2Proof/Machine/Codec.lean ====
section
/-! DEFINITION. The Gouge code (sections 10.3 to 10.5): the predictor, the match finder, the code tables, the block and
its decoder, as functions of a payload and a context image. -/
namespace Sys2Proof.Machine

/-- What a block depends on besides its payload and history: HSC, PRED, EFFORT, TBL, members, and the row form. -/
structure GgeCfg where
  hsc : Nat
  pred : Nat
  effort : Nat
  tbl : Nat
  nch : Nat
  fmt : Nat
  timed : Bool
  deriving DecidableEq, Repr

/-- One image of a context (section 10.2): history, the two reference rows, the rows since the reset, the counters. -/
structure GgeImage where
  hist : List Byte
  rowA : List Byte
  rowB : List Byte
  rows : Nat
  cbn : Nat
  root : Nat
  pseq : Nat
  reset : Bool
  deriving DecidableEq, Repr

/-- The image a start without CONT leaves (R292). -/
def GgeImage.init : GgeImage := ⟨[], [], [], 0, 0, 0, 0, true⟩

/-- Kinds of predicted elements (Table 10.3). -/
inductive ElemKind | offset | value | xorred
  deriving DecidableEq, Repr

/-- The elements of a row: bytes and kind (Table 10.3). -/
def rowElems (c : GgeCfg) : List (Nat × ElemKind) :=
  (if c.timed then [(8, ElemKind.offset)] else [])
    ++ (if c.fmt = 1 ∨ c.fmt = 2 then
          List.replicate c.nch (4, ElemKind.value) ++ List.replicate ((c.nch + 3) / 4) (4, ElemKind.xorred)
        else (List.replicate c.nch [(3, ElemKind.value), (1, ElemKind.xorred)]).flatten)
/-- The row length B' of R251. -/
def rowLen (c : GgeCfg) : Nat := (rowElems c).foldl (fun a e => a + e.1) 0

/-- The zigzag code of a residual modulo 2^w (R274). -/
def zig (w r : Nat) : Nat := if r < 2 ^ (w - 1) then 2 * r else 2 * (2 ^ w - r) - 1
/-- The residual of a code. -/
def unzig (w z : Nat) : Nat := if z % 2 = 0 then z / 2 else 2 ^ w - (z + 1) / 2
/-- The prediction of an element (R274): none since the reset 0, order 1, order 2. -/
def predict (k : ElemKind) (w pred rows a b : Nat) : Nat :=
  if rows = 0 then 0
  else if k = ElemKind.value ∧ pred ≠ 1 ∧ 2 ≤ rows then (2 * a + 2 ^ w - b) % 2 ^ w else a
/-- The code of an element. -/
def codeElem (k : ElemKind) (w pred rows a b v : Nat) : Nat :=
  let p := predict k w pred rows a b
  match k with
  | .xorred => v ^^^ p
  | _ => zig w ((v + 2 ^ w - p) % 2 ^ w)
/-- The element of a code. -/
def uncodeElem (k : ElemKind) (w pred rows a b z : Nat) : Nat :=
  let p := predict k w pred rows a b
  match k with
  | .xorred => z ^^^ p
  | _ => (p + unzig w z) % 2 ^ w

/-- Apply an element function along a row. -/
def mapRow (f : ElemKind → Nat → Nat → Nat → Nat → Nat) :
    List (Nat × ElemKind) → List Byte → List Byte → List Byte → List Byte
  | [], _, _, _ => []
  | (n, k) :: es, v, a, b =>
    beBytes n (f k (8 * n) (natAt a 0 n) (natAt b 0 n) (natAt v 0 n)) ++ mapRow f es (v.drop n) (a.drop n) (b.drop n)
/-- A raw row becomes row a (R275). -/
def GgeImage.pushRow (m : GgeImage) (row : List Byte) : GgeImage :=
  { m with rowA := row, rowB := m.rowA, rows := min (m.rows + 1) 2 }

/-- Transform `n` rows of a payload (R274). -/
def transformRows (c : GgeCfg) : Nat → GgeImage → List Byte → List Byte × GgeImage
  | 0, m, _ => ([], m)
  | n + 1, m, bs =>
    let row := bs.take (rowLen c)
    let z := mapRow (fun k w a b v => codeElem k w c.pred m.rows a b v) (rowElems c) row m.rowA m.rowB
    let r := transformRows c n (m.pushRow row) (bs.drop (rowLen c))
    (z ++ r.1, r.2)
/-- Recover `n` rows of a transformed payload. -/
def untransformRows (c : GgeCfg) : Nat → GgeImage → List Byte → List Byte × GgeImage
  | 0, m, _ => ([], m)
  | n + 1, m, bs =>
    let z := bs.take (rowLen c)
    let row := mapRow (fun k w a b v => uncodeElem k w c.pred m.rows a b v) (rowElems c) z m.rowA m.rowB
    let r := untransformRows c n (m.pushRow row) (bs.drop (rowLen c))
    (row ++ r.1, r.2)
/-- The predictor runs on this payload. -/
def predicts (c : GgeCfg) (samples : Bool) : Bool := samples && decide (c.pred ≠ 0) && decide (rowLen c ≠ 0)
/-- R274 on a payload: the transformed bytes and the image with its rows. -/
def transform (c : GgeCfg) (samples : Bool) (m : GgeImage) (bs : List Byte) : List Byte × GgeImage :=
  if predicts c samples then transformRows c (bs.length / rowLen c) m bs else (bs, m)
/-- The inverse of R274. -/
def untransform (c : GgeCfg) (samples : Bool) (m : GgeImage) (bs : List Byte) : List Byte × GgeImage :=
  if predicts c samples then untransformRows c (bs.length / rowLen c) m bs else (bs, m)

/-- HSIZE (R271). -/
def hsize (c : GgeCfg) : Nat := 1024 * 2 ^ c.hsc
/-- Append transformed bytes to the history, which keeps its last HSIZE bytes (R276). -/
def GgeImage.pushHist (m : GgeImage) (c : GgeCfg) (t : List Byte) : GgeImage :=
  let h := m.hist ++ t
  { m with hist := h.drop (h.length - hsize c) }

/-- A token of a body (R276). -/
inductive Tok
  | lit (b : Nat)
  | mat (len dist : Nat)
  deriving DecidableEq, Repr

/-- Candidates per position (Table 10.1). -/
def candidates (effort : Nat) : Nat := if effort = 0 then 4 else if effort = 1 then 16 else 64
/-- Four bytes of a buffer as a number. -/
def four (a : Array Nat) (i : Nat) : Nat :=
  (a.getD i 0) * 16777216 + (a.getD (i + 1) 0) * 65536 + (a.getD (i + 2) 0) * 256 + a.getD (i + 3) 0
/-- Length of the match between two places, at most `n`. -/
def matchLen (a : Array Nat) (q i : Nat) : Nat → Nat
  | 0 => 0
  | n + 1 => if a.getD q 0 = a.getD i 0 then matchLen a (q + 1) (i + 1) n + 1 else 0
/-- The longest match at a place, the nearest on a tie (R276); the hash the engine uses is left open (log 16). -/
def bestMatch (a : Array Nat) (stop effort i : Nat) : Nat × Nat :=
  if stop < i + 4 then (0, 0)
  else
    let qs := (List.range (min i 32768)).map (fun d => i - 1 - d)
    if qs.all (fun q => decide (four a q ≠ four a i)) then (0, 0)
    else
      let cs := (qs.filter (fun q => decide (Config.gougeHash (four a q) = Config.gougeHash (four a i)))).take
        (candidates effort)
      cs.foldl (fun (b : Nat × Nat) q =>
        let l := matchLen a q i (min 259 (stop - i))
        if 4 ≤ l ∧ b.1 < l then (l, i - q) else b) (0, 0)
/-- Parse a payload into literals and matches (R276). -/
def parseToks (a : Array Nat) (stop effort : Nat) : Nat → Nat → List Tok
  | 0, _ => []
  | n + 1, i =>
    if stop ≤ i then []
    else
      let m := bestMatch a stop effort i
      if m.1 < 4 ∨ m.1 < (bestMatch a stop effort (i + 1)).1 then Tok.lit (a.getD i 0) :: parseToks a stop effort n (i + 1)
      else Tok.mat m.1 m.2 :: parseToks a stop effort n (i + m.1)
/-- The tokens of a transformed payload behind a history. -/
def tokensOf (effort : Nat) (hist t : List Byte) : List Tok :=
  let a := ((hist ++ t).map BitVec.toNat).toArray
  parseToks a (hist.length + t.length) effort t.length hist.length

/-- Length symbols: first symbol, extra bits, base of the first (Table 10.5). -/
def lenRows : List (Nat × Nat × Nat) :=
  [(257, 0, 4), (265, 1, 12), (269, 2, 20), (273, 3, 36), (277, 4, 68), (281, 5, 132), (285, 0, 260)]
/-- Symbol, extra bits and extra value of a match length. -/
def lenSym (l : Nat) : Nat × Nat × Nat :=
  let r := (lenRows.reverse.find? (fun r => decide (r.2.2 ≤ l))).getD (257, 0, 4)
  (r.1 + (l - r.2.2) / 2 ^ r.2.1, r.2.1, (l - r.2.2) % 2 ^ r.2.1)
/-- Extra bits and base of a length symbol. -/
def symLen (y : Nat) : Nat × Nat :=
  let r := (lenRows.reverse.find? (fun r => decide (r.1 ≤ y))).getD (257, 0, 4)
  (r.2.1, r.2.2 + (y - r.1) * 2 ^ r.2.1)
/-- Extra bits and base of a distance code (Table 10.6). -/
def distBase (d : Nat) : Nat × Nat :=
  if d < 4 then (0, d + 1)
  else
    let k := (d - 2) / 2
    (k, if d % 2 = 0 then 2 ^ (k + 1) + 1 else 3 * 2 ^ k + 1)
/-- Code, extra bits and extra value of a distance. -/
def distSym (x : Nat) : Nat × Nat × Nat :=
  let d := ((List.range 30).reverse.find? (fun d => decide ((distBase d).2 ≤ x))).getD 0
  (d, (distBase d).1, x - (distBase d).2)

/-- The static lengths of literals and lengths (Table 10.7). -/
def staticLit : List Nat :=
  [2] ++ List.replicate 15 6 ++ List.replicate 241 10 ++ List.replicate 8 6 ++ List.replicate 20 8
/-- The static lengths of distances. -/
def staticDist : List Nat := List.replicate 30 5
/-- Number of symbols with a code length. -/
def lenCount (ls : List Nat) (l : Nat) : Nat := if l = 0 then 0 else (ls.filter (fun x => decide (x = l))).length
/-- The first code of a length (R280). -/
def firstCode (ls : List Nat) : Nat → Nat
  | 0 => 0
  | l + 1 => (firstCode ls l + lenCount ls l) * 2
/-- The code of a symbol (R280): its length and value. -/
def codeOf (ls : List Nat) (y : Nat) : Nat × Nat :=
  let l := (ls[y]?).getD 0
  (l, firstCode ls l + lenCount (ls.take y) l)
/-- A table satisfies R280: lengths at most 15 and the sum of 2^-l at most 1. -/
def tableOk (ls : List Nat) : Bool :=
  ls.all (fun l => decide (l ≤ 15)) && decide (ls.foldl (fun a l => if l = 0 then a else a + 2 ^ (15 - l)) 0 ≤ 2 ^ 15)

/-- The `w` bits of a number, most significant first (R279). -/
def natBits : Nat → Nat → List Bool
  | 0, _ => []
  | w + 1, v => v.testBit w :: natBits w v
/-- Bytes of a bit stream from bit 7 down, the last filled with zeros (R279). -/
def packBits : Nat → List Bool → List Byte
  | 0, _ => []
  | n + 1, bs =>
    BitVec.ofNat 8 ((List.range 8).foldl (fun a i => 2 * a + b2n ((bs[i]?).getD false)) 0) :: packBits n (bs.drop 8)
/-- Bits of a token. -/
def tokBits (lit dist : List Nat) : Tok → List Bool
  | .lit b => let c := codeOf lit b; natBits c.1 c.2
  | .mat l x =>
    let (y, ey, vy) := lenSym l
    let (d, ed, vd) := distSym x
    natBits (codeOf lit y).1 (codeOf lit y).2 ++ natBits ey vy ++ natBits (codeOf dist d).1 (codeOf dist d).2
      ++ natBits ed vd
/-- Bits of the tokens and EOB. -/
def bodyBits (lit dist : List Nat) (ts : List Tok) : List Bool :=
  (ts.map (tokBits lit dist)).flatten ++ natBits (codeOf lit 256).1 (codeOf lit 256).2

/-- Count of each literal and length symbol, EOB once. -/
def litCounts (ts : List Tok) : List Nat :=
  let ys := 256 :: ts.map (fun t => match t with
    | .lit b => b
    | .mat l _ => (lenSym l).1)
  (List.range 285).map (fun y => (ys.filter (fun x => decide (x = y))).length)
/-- Count of each distance code. -/
def distCounts (ts : List Tok) : List Nat :=
  let ys := ts.filterMap (fun t => match t with
    | .lit _ => none
    | .mat _ x => some (distSym x).1)
  (List.range 30).map (fun y => (ys.filter (fun x => decide (x = y))).length)
/-- The lengths serve these counts: a legal table in which every counted symbol has a code. -/
def serves (ls cs : List Nat) : Bool :=
  tableOk ls && decide (ls.length = cs.length) && (List.range cs.length).all (fun y =>
    decide ((cs[y]?).getD 0 = 0) || decide ((ls[y]?).getD 0 ≠ 0))
/-- The dynamic lengths the engine chooses for these counts: open but for R280 and R282 (log 16). -/
def dynLens (cs : List Nat) : List Nat :=
  let ls := Config.gougeLengths cs
  if serves ls cs then ls else cs.map (fun c => if c = 0 then 0 else 9)

/-- Drop trailing zeros, keeping at least `n` entries. -/
def trimLens (n : Nat) (ls : List Nat) : List Nat :=
  let k := (ls.reverse.dropWhile (fun l => decide (l = 0))).length
  ls.take (max n k)
/-- The items of a list of lengths: runs of zeros of at most 16, taken greedily (R282). -/
def lenItems : Nat → List Nat → List Bool
  | 0, _ => []
  | _ + 1, [] => []
  | n + 1, 0 :: t =>
    let z := min 15 (t.takeWhile (fun l => decide (l = 0))).length
    natBits 4 0 ++ natBits 4 z ++ lenItems n (t.drop z)
  | n + 1, l :: t => natBits 4 l ++ lenItems n t
/-- The table section (R282). -/
def tableBits (lit dist : List Nat) : List Bool :=
  let a := trimLens 257 lit
  let b := trimLens 1 dist
  natBits 5 (a.length - 257) ++ natBits 5 (b.length - 1) ++ lenItems (a.length + b.length) (a ++ b)

/-- Whole bytes of a bit count. -/
def wholeBytes (n : Nat) : Nat := (n + 7) / 8
/-- The form of a body: BTYPE, its bytes and PAD (R283). -/
def chooseBody (c : GgeCfg) (ts : List Tok) (payload : List Byte) : Nat × List Byte × Nat :=
  let ulen := payload.length
  let sb := bodyBits staticLit staticDist ts
  let sn := wholeBytes sb.length
  let stored := (0, payload, 0)
  let pack := fun (t : Nat) (bs : List Bool) =>
    (t, packBits (wholeBytes bs.length) bs, 8 * wholeBytes bs.length - bs.length)
  if c.tbl = 2 then stored
  else if c.tbl = 1 then (if sn < ulen then pack 1 sb else stored)
  else
    let dl := dynLens (litCounts ts)
    let dd := dynLens (distCounts ts)
    let db := tableBits dl dd ++ bodyBits dl dd ts
    let dn := wholeBytes db.length
    if ulen ≤ sn ∧ ulen ≤ dn then stored else if dn < sn then pack 2 db else pack 1 sb

/-- The 16-byte block header (Table 10.4). -/
def blockHeader (c : GgeCfg) (btype : Nat) (reset fstore samples : Bool) (pad blen cbn root : Nat)
    (payload : List Byte) : List Byte :=
  let p := if samples then c.pred else 0
  beBytes 1 1 ++ beBytes 1 (btype + 4 * b2n reset + 8 * b2n fstore + 16 * p) ++ beBytes 1 (32 * pad + c.hsc)
    ++ beBytes 1 (if p = 0 then 0 else c.nch) ++ beBytes 2 blen ++ beBytes 2 cbn ++ beBytes 4 root
    ++ beBytes 4 (crc32c payload)

/-- A block as encoded: its bytes, the encoder image it leaves, and whether it is a RESET block. -/
structure Block where
  bytes : List Byte
  image : GgeImage
  reset : Bool
  deriving DecidableEq, Repr

/-- The image a block starts from: a RESET block clears the history and the rows (R276, R283). -/
def GgeImage.opened (m : GgeImage) (reset : Bool) (pseq : Nat) : GgeImage :=
  if reset then { m with hist := [], rowA := [], rowB := [], rows := 0, cbn := 0, root := pseq, reset := true } else m
/-- The image after a block (R278, R283): one with FSTORE leaves history and rows and makes the next a RESET block. -/
def GgeImage.after (m : GgeImage) (c : GgeCfg) (rst : Nat) (samples fstore reset : Bool) (pseq : Nat)
    (payload : List Byte) : GgeImage :=
  let m := m.opened reset pseq
  let m := if fstore then m else
    let (t, n) := transform c samples m payload
    n.pushHist c t
  let k := (m.cbn + 1) % 65536
  { m with cbn := k, reset := fstore || (decide (rst ≠ 0) && decide (rst ≤ k)), pseq := (pseq + 1) % 2 ^ 32 }

/-- Encode a payload as a Gouge block (R283). -/
def encodeBlock (c : GgeCfg) (rst : Nat) (m : GgeImage) (samples fstore : Bool) (pseq : Nat)
    (payload : List Byte) : Block :=
  let reset := m.reset
  let o := m.opened reset pseq
  let body := if fstore then (0, payload, 0) else
    let t := (transform c samples o payload).1
    chooseBody c (tokensOf c.effort o.hist t) payload
  ⟨blockHeader c body.1 reset fstore samples body.2.2 body.2.1.length o.cbn o.root payload ++ body.2.1,
    m.after c rst samples fstore reset pseq payload, reset⟩

/-- Read one symbol (R280): its number and the bits left. -/
def readSym (ls : List Nat) : Nat → Nat → Nat → List Bool → Option (Nat × List Bool)
  | 0, _, _, _ => none
  | _ + 1, _, _, [] => none
  | n + 1, len, v, b :: bs =>
    let v := 2 * v + b2n b
    match (List.range ls.length).find? (fun y => decide (codeOf ls y = (len + 1, v))) with
    | some y => some (y, bs)
    | none => readSym ls n (len + 1) v bs
/-- Read `w` bits. -/
def readBits : Nat → Nat → List Bool → Option (Nat × List Bool)
  | 0, v, bs => some (v, bs)
  | _ + 1, _, [] => none
  | w + 1, v, b :: bs => readBits w (2 * v + b2n b) bs
/-- Copy a match from the bytes produced so far, which may overlap it (R276). -/
def copyMatch (out : List Byte) (dist : Nat) : Nat → List Byte
  | 0 => out
  | n + 1 => copyMatch (out ++ [(out[out.length - dist]?).getD 0]) dist n
/-- Decode tokens up to EOB: the transformed bytes behind the history, and the bits left (R282). -/
def decodeToks (lit dist : List Nat) (limit : Nat) : Nat → List Byte → List Bool → Option (List Byte × List Bool)
  | 0, _, _ => none
  | n + 1, out, bs =>
    if limit < out.length then none
    else match readSym lit 15 0 0 bs with
      | none => none
      | some (y, bs) =>
        if y = 256 then some (out, bs)
        else if y < 256 then decodeToks lit dist limit n (out ++ [BitVec.ofNat 8 y]) bs
        else
          let e := symLen y
          match readBits e.1 0 bs with
          | none => none
          | some (ve, bs) =>
            match readSym dist 15 0 0 bs with
            | none => none
            | some (d, bs) =>
              match readBits (distBase d).1 0 bs with
              | none => none
              | some (vd, bs) =>
                let x := (distBase d).2 + vd
                if out.length < x ∨ 29 < d then none
                else decodeToks lit dist limit n (copyMatch out x (e.2 + ve)) bs
/-- Read code lengths (R282). -/
def readLens : Nat → Nat → List Bool → List Nat → Option (List Nat × List Bool)
  | 0, _, _, _ => none
  | f + 1, want, bs, acc =>
    if acc.length = want then some (acc, bs)
    else match readBits 4 0 bs with
      | none => none
      | some (0, bs) =>
        match readBits 4 0 bs with
        | none => none
        | some (z, bs) => if want < acc.length + z + 1 then none
          else readLens f want bs (acc ++ List.replicate (z + 1) 0)
      | some (l, bs) => readLens f want bs (acc ++ [l])
/-- The tables of a body and the bits after them: none where they are invalid. -/
def readTables (btype : Nat) (bs : List Bool) : Option (List Nat × List Nat × List Bool) :=
  if btype = 1 then some (staticLit, staticDist, bs)
  else if btype = 2 then
    match readBits 5 0 bs with
    | none => none
    | some (nl, bs) =>
      match readBits 5 0 bs with
      | none => none
      | some (nd, bs) =>
        if 285 < nl + 257 ∨ 30 < nd + 1 then none
        else match readLens 400 (nl + 257 + nd + 1) bs [] with
          | none => none
          | some (ls, bs) =>
            let lit := ls.take (nl + 257)
            let dist := ls.drop (nl + 257)
            if tableOk lit && tableOk dist && decide ((lit[256]?).getD 0 ≠ 0) then some (lit, dist, bs) else none
  else none
/-- The in-line decoder (R282, R284): the payload of a static or dynamic body, by the verifier image. -/
def decodeBody (c : GgeCfg) (m : GgeImage) (samples : Bool) (btype pad ulen : Nat) (body : List Byte) :
    Option (List Byte) :=
  let bits := (body.map byteBits).flatten
  match readTables btype bits with
  | none => none
  | some (lit, dist, bs) =>
    match decodeToks lit dist (m.hist.length + ulen) (bits.length + 1) m.hist bs with
    | none => none
    | some (out, rest) =>
      let t := out.drop m.hist.length
      if t.length = ulen ∧ rest.length = pad ∧ pad < 8 ∧ rest.all (fun b => !b) then
        some (untransform c samples m t).1
      else none
/-- The check before a block's release (R284): the decoded bytes and their CRC equal the payload's. -/
def verifyBlock (c : GgeCfg) (m : GgeImage) (samples : Bool) (pseq : Nat) (payload : List Byte) (b : Block) : Bool :=
  let btype := natAt b.bytes 1 1 % 4
  let body := b.bytes.drop 16
  let got := if btype = 0 then some body
    else decodeBody c (m.opened b.reset pseq) samples btype (natAt b.bytes 2 1 / 32) payload.length body
  match got with
  | some p => decide (natAt b.bytes 4 2 = body.length) && decide (p = payload) && decide (natAt b.bytes 12 4 = crc32c p)
  | none => false

end Sys2Proof.Machine
end

