-- ==== Sys2Proof/Machine/Tab.lean ====
section
/-! DEFINITION. The operations over sparse tables: read, write in canonical form, and the
predicate that the form holds. Registers, memory bytes and per-entity state all use them. -/
namespace Sys2Proof.Machine

/-- Read entry `k`; an unlisted number reads as `d k`. -/
def tabGet {α : Type} (d : Nat → α) : Tab α → Nat → α
  | [], k => d k
  | (a, v) :: t, k => if a = k then v else tabGet d t k

/-- Insert or replace entry `k`, keeping the numbers rising. -/
def tabIns {α : Type} : Tab α → Nat → α → Tab α
  | [], k, v => [(k, v)]
  | (a, x) :: t, k, v =>
    if a = k then (k, v) :: t else if k < a then (k, v) :: (a, x) :: t else (a, x) :: tabIns t k v

/-- Remove every entry `k`. -/
def tabDel {α : Type} : Tab α → Nat → Tab α
  | [], _ => []
  | (a, x) :: t, k => if a = k then tabDel t k else (a, x) :: tabDel t k

/-- Write entry `k`: writing what an unlisted entry reads as removes the entry. -/
def tabPut {α : Type} [DecidableEq α] (d : Nat → α) (t : Tab α) (k : Nat) (v : α) : Tab α :=
  if v = d k then tabDel t k else tabIns t k v

/-- The numbers are strictly rising. -/
def tabRising {α : Type} : Tab α → Bool
  | [] => true
  | [_] => true
  | a :: b :: t => decide (a.1 < b.1) && tabRising (b :: t)

/-- The canonical form: rising numbers, and no entry equal to its default. -/
def tabWf {α : Type} [DecidableEq α] (d : Nat → α) (t : Tab α) : Bool :=
  tabRising t && t.all (fun p => decide (p.2 ≠ d p.1))

end Sys2Proof.Machine
end

