-- ==== Sys2Proof/Machine/State.lean ====
section
/-! DEFINITION. The state of the hub as plain data: the registers of every block, the state behind them that the
spec describes, the memories, the queue of waiting commands and what has left the hub. -/
namespace Sys2Proof.Machine

/-- Why the machine stops with a fault. -/
inductive Fault
  /-- Raised by supplyWarning when a supply lies between its power-good threshold and the bottom of
  its operating range, where R426 (R2) gives no behaviour. Safe: nothing is claimed of the hub there. -/
  | outsideConditions
  deriving DecidableEq, Repr

/-- Why a command has no outcome. -/
inductive Refusal
  /-- The command has no meaning in the model yet; the mnemonic names it. Raised by exec's arms only. Safe. -/
  | notModelled (mnemonic : String)
  deriving DecidableEq, Repr

/-- What every frame of a network port carries (R322, R324, R305): the VLAN tag as PCP and VID, the traffic class or DSCP, and whether the
lane inverts the data it sends. -/
structure FrameHead where
  tag : Option (Nat × Nat)
  dscp : Nat
  inv : Bool
  deriving DecidableEq, Repr

/-- What leaves the hub, oldest first in `State.out`: the model's own record of its outputs. -/
inductive Out
  /-- An 80-bit word on the die link of FE die `d` (R35, Table 1.4): type, payload and CRC. -/
  | dieWord (d typ payload crc : Nat)
  /-- A control block on lane `lane` of Chainpo link `k` (R327, Table 12.3): the lanes of the link that invert what they send (R305), a
  bit each, and the 64-bit block. -/
  | block (k lane inv bits : Nat)
  /-- A cell on virtual channel `vc` of Chainpo link `k` (R329): the lane of its first block, the others following lane by lane (R327), and the
  lanes that invert it (R305). -/
  | cell (k lane inv vc seq : Nat) (bytes : List Byte)
  /-- A PTP message sent by network port `p` (R325): its frame, transport (PTP_TR), kind, domain, sequence, timestamp, correction. -/
  | ptp (p : Nat) (head : FrameHead) (transport kind domain seq stamp : Nat) (corr : Int)
  /-- A UDP datagram leaving network port `p` (R248, R324, R350): its frame, TTL or hop limit, DF (IPv4), the destination's family and
  address (for a stream datagram its MAC address behind them, R323), the source and destination UDP ports, the checksum, and the payload. -/
  | udp (p : Nat) (head : FrameHead) (ttl : Nat) (df : Bool) (addr : List Nat) (sport dport sum : Nat) (payload : List Byte)
  /-- Another frame of network port `p` (R320, R323): kind and fields. -/
  | frame (p : Nat) (head : FrameHead) (kind : Nat) (fields : List Nat)
  /-- What MSDO carries in a frame of the management SPI (R376, R377): the number of 0x00 bytes that answer the frame's own bytes, and the
  bytes that follow once the result is ready. -/
  | spi (zeros : Nat) (bytes : List Byte)
  /-- A pulse or level on a named pin: pin number, value, instant. -/
  | pin (pin value time : Nat)
  /-- A PRBS or latency test action of lane `i` (R313, R314). -/
  | lane (i kind value : Nat)
  deriving DecidableEq, Repr

/-- What the last register access answered: value, status code of Table 13.5 (0 OK) and the words read. -/
structure Bus where
  value : Nat
  status : Nat
  words : List Nat
  deriving DecidableEq, Repr

/-- A scheduled snapshot (R42): its instant, its causes and whether it was late (R41). -/
structure SnapReq where
  time : Nat
  cause : Nat
  late : Bool
  deriving DecidableEq, Repr

/-- The snapshot unit of section 1.6. -/
structure SnapState where
  sched : List SnapReq
  running : Option SnapReq
  latched : Tab Word
  page : Tab Word
  taken : Bool
  deriving DecidableEq, Repr

/-- One die link as HD sees it (R37 to R39): the sequence numbers of the next word sent and of the next one awaited, whether words are
being discarded and how often the awaited word has failed, the word last asked for again and how often, the replay buffer
(type and payload, newest last), the last acknowledge, writes queued while down, writes on their way, reads in progress, the
shadow of the die's registers that reads show while the link is down, and the last grid mark. -/
structure DieLink where
  everUp : Bool
  txSeq : Nat
  rxSeq : Nat
  discarding : Bool
  fails : Nat
  nakSeq : Nat
  attempts : Nat
  replay : List (Nat × Nat)
  acked : Nat
  queued : List (Nat × Word)
  toFe : List (Nat × Word)
  reads : List Nat
  shadow : Tab Word
  grid : Nat
  deriving DecidableEq, Repr

/-- The target of a targeted self-test (Table 14.5); a memory line by its partition and number (log 108). -/
inductive TestTarget
  | conv (k : Nat)
  | die (d : Nat)
  | line (part line : Nat)
  | array
  | gouge
  deriving DecidableEq, Repr

/-- A queued or running self-test (R395): the source that queued it (0xFF none), its target and instance. -/
structure SelfTest where
  src : Nat
  target : TestTarget
  inst : Nat
  waited : Bool
  deriving DecidableEq, Repr

/-- The fault collector behind its registers (chapter 14). -/
structure FltState where
  lines : List (Nat × Nat)
  lastHigh : Tab Nat
  lseq : Nat
  queue : List SelfTest
  waiting : List SelfTest
  running : Option SelfTest
  notRun : List SelfTest
  ended : List (SelfTest × Nat)
  spareLines : Nat
  remapped : List Nat
  started : Bool
  restarting : Bool
  wdLate : Bool
  stageHeld : Bool
  parr : Bool
  parrSrc : Nat
  alivePin : Bool
  bad : List (Nat × List Byte)
  deriving DecidableEq, Repr

/-- One time tracker behind its registers (section 2.2). -/
structure Tracker where
  validSince : Nat
  readySince : Nat
  lastMeas : Option Nat
  interval : Nat
  inRun : Nat
  outRun : Nat
  measCount : Nat
  restored : Bool
  misses : Nat
  lastSync : Nat
  bestSource : Option Nat
  bestSet : List Nat
  announceLt : Nat
  announceInt : Int
  syncSeq : Nat
  syncT1 : Option Nat
  syncT2 : Nat
  syncCorr : Int
  syncDone : Bool
  reqSeq : Nat
  reqT3 : Option Nat
  reqInterval : Int
  reqAt : Option Nat
  pdAt : Option Nat
  meanDelay : Option Int
  pdSeq : Nat
  pdT1 : Option Nat
  pdT2 : Nat
  pdT4 : Nat
  pdCorr : Int
  deriving DecidableEq, Repr

/-- One compare unit behind its registers (section 2.8): the absolute target. -/
structure CmpUnit where
  target : Int
  deriving DecidableEq, Repr

/-- A two-way time exchange in progress (R335, R336); `xseq` 16 while none has come yet. -/
structure TimeXchg where
  xseq : Nat
  t1 : Option Nat
  fullT1 : Option Nat
  t2 : Nat
  t3 : Nat
  deriving DecidableEq, Repr

/-- Spindle behind its registers (chapter 2). -/
structure SpnState where
  refclk : Bool
  lossLt : Nat
  lossAlways : Nat
  relockLt : Nat
  steering : Option Nat
  freq : Rat
  trackers : Tab Tracker
  holdSince : Option Nat
  steered : Bool
  ownTq : Nat
  ringTq : Nat
  ringDom : Nat
  over135 : Bool
  over138 : Bool
  disCount : Nat
  stepUntil : Nat
  gridDue : Bool
  gridSent : Nat
  fromFree : Bool
  ppsHigh : Bool
  ppsNext : Nat
  ppsFall : Nat
  ppsLast : Option Nat
  ppsMissed : Nat
  cmps : Tab CmpUnit
  pulses : List Nat
  xchg : TimeXchg
  txXseq : Nat
  txT4 : Option Nat
  voided : Nat
  deriving DecidableEq, Repr

/-- The excitation of a cluster as a boundary found it (R92): the driver, its ramp, polarity and setpoint, the reversal count and the
settle period; and what the boundary has done to the polarity: POL written, an automatic reversal made. -/
structure ExcBound where
  on : Bool
  ramp : Bool
  pol : Bool
  vset : Nat
  altCount : Nat
  settleLeft : Nat
  settleHeld : Bool
  settleNow : Bool
  settleNo : Nat
  written : Bool
  auto : Bool
  deriving DecidableEq, Repr

/-- The excitation driver of a cluster behind its registers (section 3.4): its settle period, windows since the last change of
polarity, sources that began in the open window, and the boundary its changes combine at (R92). -/
structure CluState where
  settleLeft : Nat
  settleHeld : Bool
  settleNow : Bool
  settleNo : Nat
  altCount : Nat
  onsets : List Nat
  bound : ExcBound
  deriving DecidableEq, Repr

/-- A window result the intake expects (R27): the window, who converts it and what flags the window carries. -/
structure Expect where
  conv : Nat
  chan : Nat
  wseq : Nat
  npk : Nat
  openLt : Nat
  closeLt : Nat
  due : Nat
  delivers : Bool
  evt : Bool
  spol : Nat
  negate : Bool
  undef : Bool
  settle : Bool
  period : Nat
  suspect : Bool
  subst : Bool
  caldue : Bool
  refBad : Bool
  mo : Int
  mg : Rat
  tone : Rat
  ovr : Bool
  owen : Bool
  deriving DecidableEq, Repr

/-- One converter (unit or spare) behind its registers (chapter 4). -/
structure ConvState where
  failing : Bool
  stopped : Bool
  lastIntb : Option Bool
  strobe : Bool
  calibrated : Bool
  lastPass : Option Nat
  lastWin : Option Nat
  deriving DecidableEq, Repr

/-- What a Steady operation does (section 5.2). -/
inductive OpKind | cal | imp | calimp | retest | subst | sprCal | sprRetest
  deriving DecidableEq, Repr

/-- A Steady operation (R136): target channel, or spare cluster for spare operations. -/
structure SteadyOp where
  kind : OpKind
  chan : Nat
  prio : Nat
  idx : Nat
  full : Bool
  deriving DecidableEq, Repr

/-- The stage of a running operation (R138). -/
inductive OpStage | connect | overlap | cover | handback | gap | free | selftest | watch
  deriving DecidableEq, Repr

/-- A running operation: the converter it runs on, the spare that covers it, its stage and counters. -/
structure RunOp where
  op : SteadyOp
  unit : Nat
  spare : Option Nat
  stage : OpStage
  left : Nat
  diff : Rat
  count : Nat
  mg : Rat
  mo : Int
  startLt : Nat
  endLt : Option Nat
  impDone : Bool
  calDone : Bool
  tries : Nat
  gapFirst : Nat
  gapCount : Nat
  gcode : Nat
  calAt : Nat
  waitTest : Bool
  deriving DecidableEq, Repr

/-- A region behind its registers: schedule, waiting writes, sequencer and Steady queue. -/
structure RegionState where
  edge : Nat
  next : Nat
  npk : Nat
  earliest : Nat
  whenSt : Bool
  afterStep : Bool
  restart : Bool
  stopAfter : Nat
  runs : List (Nat × Option Nat)
  waiting : List (Nat × Word × Nat)
  started : Bool
  startAfter : Nat
  stopReq : Bool
  reps : Nat
  delay : Nat
  delaying : Bool
  execs : Nat
  loops : Tab Nat
  cmplAt : Tab Nat
  queue : List SteadyOp
  running : List RunOp
  idleAt : Nat
  autoImpAt : Nat
  autoCalAt : Nat
  autoImpPos : Nat
  autoCalPos : Nat
  wins : List (Nat × Nat)
  fails : List (Nat × Nat)
  freed : List (Nat × Nat)
  gone : List Nat
  events : List (Nat × Nat)
  lag : List (Nat × Word)
  faults : Option (List (Nat × Nat))
  deriving DecidableEq, Repr

/-- The mains estimator shared by all regions (R113). -/
structure MainsState where
  last : Option Nat
  acceptedAt : Option Nat
  intervals : List Nat
  period : Option Rat
  hold : Bool
  holdRun : Nat
  accepted : Nat
  deriving DecidableEq, Repr

/-- A value at a tap (R186): tap, name, Wide value, quality, Scaled value, switch states. -/
structure TapVal where
  tap : Nat
  name : Nat
  len : Nat
  wide : Int
  qual : Nat
  scaled : Int
  deriving DecidableEq, Repr

/-- A boxcar output in the delay line: value, flags, whether every window of its block was fed (R193). -/
structure BoxOut where
  v : Int
  flags : Nat
  full : Bool
  deriving DecidableEq, Repr

/-- The state of one biquad section (R184). -/
structure BqState where
  x1 : Int
  x2 : Int
  y1 : Int
  y2 : Int
  deriving DecidableEq, Repr

/-- An open statistics block (R195). -/
structure StatBlock where
  active : Bool
  name : Nat
  ns : Nat
  nv : Nat
  minV : Int
  maxV : Int
  tMin : Nat
  tMax : Nat
  sum : Int
  sumSq : Nat
  qual : Nat
  fromStart : Bool
  deriving DecidableEq, Repr

/-- A closed statistics block whose record is not yet queued (R195, R196). -/
structure StatDone where
  block : StatBlock
  byStop : Bool
  byNblk : Bool
  deriving DecidableEq, Repr

/-- A slot whose last window has been delivered and whose output is not complete yet (R191). -/
structure SlotReady where
  name : Nat
  len : Nat
  idx : Nat
  closeLt : Nat
  line : List BoxOut
  box : Option BoxOut
  clears : Bool
  held : Bool
  fillInv : Bool
  sat : Bool
  event : Bool
  deriving DecidableEq, Repr

/-- The processing chain of a channel (chapter 7). -/
structure ChainState where
  synced : Bool
  blkSum : Int
  blkFed : Nat
  blkFlags : Nat
  blkSat : Bool
  blkName : Nat
  slotName : Nat
  slotSat : Bool
  slotClear : Bool
  lastBox : Option BoxOut
  delay : List BoxOut
  filling : Bool
  startFill : Bool
  refill : Bool
  fillMet : Bool
  fillCount : Nat
  policy : Nat
  inPeriod : Bool
  period : Nat
  inSettle : Bool
  ready : List SlotReady
  bq0 : BqState
  bq1 : BqState
  firHist : List Nat
  lastOut : Option (Int × Int × Nat)
  oseq : List Nat
  stats : StatBlock
  statDone : List StatDone
  swCount : List Nat
  swPend : List (Nat × Bool × Nat × Int × Nat)
  deriving DecidableEq, Repr

/-- What a change of processing leaves to the windows that closed before its boundary and are still to be delivered (R202): the boundary, the
words in effect before it, whether the statistics block closes after them, and the switches whose counts begin anew. -/
structure PrcUndo where
  since : Nat
  old : List (Nat × Word)
  close : Bool
  sws : List Nat
  deriving DecidableEq, Repr

/-- A channel behind its registers: sensor health, event mode, matches, taps and chain. -/
structure ChanState where
  expects : List Expect
  lastRaw : Option Int
  lastClean : Option Int
  onset : Option (Nat × Nat × Nat)
  openFirst : Nat
  openCount : Nat
  clean : Nat
  clearAt : Option Nat
  lastGoodLt : Nat
  lastGoodR : Nat
  everGood : Bool
  usable : Option (Nat × Int)
  commitMo : Int
  commitMg : Rat
  baseSpare : Option Nat
  matchBase : Option Nat
  matchPair : List Nat
  lastMo : Int
  lost : Bool
  overdue : Bool
  crossLt : Nat
  burstFrom : Option Nat
  burstLeft : Nat
  holdLeft : Nat
  inBandSince : Option Nat
  outSince : Option Nat
  stuckLeft : Nat
  stuckSaid : Bool
  ovrInWindow : Bool
  novr : Nat
  recent : List TapVal
  waiting : List (Nat × Word × Nat)
  undo : Option PrcUndo
  chain : ChainState
  deriving DecidableEq, Repr

/-- A packet of a stream context from RP on (R245, R246): its number, its image and the items it holds. -/
structure Pkt where
  pseq : Nat
  first : Nat
  units : Nat
  bytes : List Byte
  idxFirst : Nat
  items : Nat
  ltFirst : Nat
  ltLast : Nat
  gapOnly : Bool
  coded : Bool
  sent : Bool
  passed : Bool
  deriving DecidableEq, Repr

/-- The packet a context is assembling (R247); `deep` says that it may take the reserve of R262. -/
structure OpenPkt where
  ptype : Nat
  first : Nat
  payload : List Byte
  name : Nat
  count : Nat
  idxFirst : Nat
  items : Nat
  ltLast : Nat
  opened : Nat
  deep : Bool
  deriving DecidableEq, Repr

/-- A gap being counted (R256, R258). -/
structure GapInfo where
  cause : Nat
  ltFirst : Nat
  ltLast : Nat
  idxFirst : Nat
  count : Nat
  deriving DecidableEq, Repr

/-- A page of Bowl that holds spilled units (R255): page, first unit, units. -/
structure SpillPage where
  page : Nat
  first : Nat
  count : Nat
  deriving DecidableEq, Repr

/-- A REFCLK loss a context has still to report (R259): the instants of the loss and of the relock, the member regions that were
CONVERTING at the loss, and those of them whose restart is awaited. -/
structure LossInfo where
  lossLt : Nat
  relockLt : Option Nat
  conv : List Nat
  waits : List Nat
  deriving DecidableEq, Repr

/-- A stream context behind its registers (chapter 9). -/
structure StrState where
  wp : Nat
  sp : Nat
  rp : Nat
  wr : Nat
  pkts : List Pkt
  cur : Option OpenPkt
  gap : Option GapInfo
  gapWaits : List GapInfo
  stopWaits : Option Nat
  spill : List SpillPage
  starts : Nat
  startLt : Nat
  fresh : Bool
  rseq : Nat
  nextRow : Nat
  lastRow : Option Nat
  descAt : Option Nat
  descWaits : Bool
  over34 : Bool
  aborted : Bool
  lossAt : Option LossInfo
  deriving DecidableEq, Repr

/-- A packet image in the gap store (R261). -/
structure GapPkt where
  ctx : Nat
  pkt : Pkt
  deriving DecidableEq, Repr

/-- A trigger event waiting for the row it falls in (R219, R220): TYPE, its parameter, LT, origin, known late. -/
structure CapEvent where
  typ : Nat
  param : Nat
  time : Nat
  origin : Nat
  deriving DecidableEq, Repr

/-- One captured row: its name and each member's Wide value, quality byte and Scaled value. -/
structure CapRow where
  name : Nat
  vals : List (Int × Nat × Int)
  deriving DecidableEq, Repr

/-- A record being made (R217, R226). -/
structure CapRec where
  slot : Nat
  cause : Nat
  mask : Nat
  tlt : Nat
  rflags : Nat
  origin : Nat
  extra : Nat
  lost : Nat
  pre : List CapRow
  rows : List CapRow
  row0 : Nat
  deriving DecidableEq, Repr

/-- A completed slot (R224): record number, and whether the host still holds it. -/
structure CapSlot where
  slot : Nat
  seq : Nat
  host : Bool
  deriving DecidableEq, Repr

/-- A capture buffer behind its registers (chapter 8). -/
structure CapState where
  armAt : Option Nat
  nextRow : Nat
  slot : Nat
  pre : List CapRow
  kept : Nat
  prev : Tab (Option Int)
  fwd : Tab (Option Int)
  since : Nat
  cur : Option CapRec
  fin : Option CapRec
  holdLeft : Nat
  disarmAt : Option Nat
  events : List CapEvent
  done : List CapSlot
  lostSince : Nat
  lostFresh : Bool
  seq : Nat
  deriving DecidableEq, Repr


/-- How an unconfirmed packet of a compressed context was sent (R288, R289). -/
structure GgeRec where
  pseq : Nat
  fstore : Bool
  reset : Bool
  deriving DecidableEq, Repr

/-- A compressed context (section 10.2): its three images, how its unconfirmed packets were sent, memory errors in its
images, whether its image window has been written since it stopped, a RESET that its next new block owes (R283, R290), and the
settings of its last start with the FMT byte of its packets (R291). -/
structure GgeCtx where
  enc : GgeImage
  ver : GgeImage
  anchor : GgeImage
  recs : List GgeRec
  memBad : Bool
  anchorBad : Bool
  inMem : Bool
  resetDue : Bool
  cfg : GgeCfg
  fmtByte : Nat
  deriving DecidableEq, Repr

/-- What Gouge works on (R268): its context, packet, the image it started from, the block, whether it is a descriptor that passes
through, whether it carries the RESET its context owes, and the 64-bit words of it that stand in the output buffer (R287). -/
structure GgeJob where
  ctx : Nat
  pkt : Pkt
  before : GgeImage
  blk : Block
  fstore : Bool
  raw : Bool
  due : Bool
  words : Nat
  deriving DecidableEq, Repr

/-- A released packet in the output buffer (R269). -/
structure GgeOut where
  ctx : Nat
  pseq : Nat
  bytes : List Byte
  units : Nat
  deriving DecidableEq, Repr

/-- Gouge behind its registers (chapter 10), with the lasting OUT_OF_SERVICE and a RETEST written (R285). -/
structure GgeState where
  ctxs : Tab GgeCtx
  last : Nat
  job : Option GgeJob
  outs : List GgeOut
  oos : Bool
  retest : Bool
  deriving DecidableEq, Repr

/-- A cell as it was sent (R329): its sequence number, virtual channel and payload. -/
structure LinkCell where
  seq : Nat
  vc : Nat
  bytes : List Byte
  deriving DecidableEq, Repr

/-- A cell that waits for credit (R331): its virtual channel and payload, and the blocks of the other link's buffer it still takes up
there because it came from that link. -/
structure WaitCell where
  vc : Nat
  bytes : List Byte
  back : Nat
  deriving DecidableEq, Repr

/-- A Chainpo link behind its registers (section 12.2): training with the rate the lanes change to and the start of the TRAIN blocks,
the sequence numbers of both directions, the replay buffer, the credit counts of the six virtual channels, the cells that
wait for credit, the lanes deskewed, and the blocks of the stream sent so far (R327). -/
structure LinkState where
  training : Bool
  heardGen : Nat
  heardWidth : Nat
  txSeq : Nat
  rxSeq : Nat
  waitReplay : Bool
  replay : List LinkCell
  fails : Nat
  sent : List Nat
  freed : List Nat
  mine : List Nat
  waiting : List WaitCell
  nextRate : Option Nat
  trainFrom : Option Nat
  aligned : List Nat
  heard : List Nat
  downAt : Nat
  lctlAt : Nat
  mirror : List Byte
  txBlocks : Nat
  deriving DecidableEq, Repr

/-- A hub of the segment as enumeration messages gave it (R338): its ID, the link it was heard on, HOPS, LINKS, XST and
the LT at which its active port became active. -/
structure SegHub where
  id : Nat
  link : Nat
  hops : Nat
  links : Nat
  xst : Nat
  actLt : Nat
  deriving DecidableEq, Repr

/-- A lane behind its registers (section 11.6): what its controller and its owner last requested, the change in progress with its start, whether that change is past its bound, the run of low eye figures, whether the latency has been measured
since L2 (R311), and the PRBS checker (R314): the sequence that arrives and its register, the checker's register and the polarity
at its lock. -/
structure LaneState where
  ctl : Nat
  asked : Nat
  target : Nat
  since : Nat
  late : Bool
  eqRun : Nat
  eyeAt : Nat
  lat : Bool
  srcSeq : Nat
  src : Nat
  chk : Nat
  pol : Bool
  deriving DecidableEq, Repr

/-- A packet the active exit holds unsent (R323, R334): its origin, context, destination, PSEQ, image and when its last
cell came. -/
structure ExitPkt where
  origin : Nat
  ctx : Nat
  dst : Nat
  pseq : Nat
  bytes : List Byte
  since : Nat
  deriving DecidableEq, Repr

/-- The newest mirror image a hub holds (R341). -/
structure Mirror where
  exit : Nat
  port : Nat
  gen : Nat
  time : Nat
  bytes : List Byte
  deriving DecidableEq, Repr

/-- A network port behind its registers (sections 12.1 and 12.5). -/
structure PortState where
  linkAt : Nat
  downAt : Nat
  losAt : Option Nat
  echoes : List Nat
  deriving DecidableEq, Repr

/-- The exit and the ring behind their registers (chapter 12): timers of the segment table, the mirror, the caches of the
active exit, packets being reassembled, held, on the way through the echo monitor, and confirmed; the entries a mirror brought with its
capture instant, and the instant of the SWITCH event. -/
structure RingState where
  enumAt : Nat
  changedAt : Nat
  settled : Bool
  table : List SegHub
  actLt : Nat
  lastAct : Option Nat
  hadPath : Bool
  mirror : Option Mirror
  mirGen : Nat
  mirAt : Nat
  switching : Option (Nat × Nat)
  switchAt : Nat
  stopAt : Option Nat
  arp : List (Nat × Nat × Nat)
  nd : List (Nat × Nat × Nat)
  unresolved : List Nat
  retryAt : Nat
  parts : List ExitPkt
  held : List ExitPkt
  air : List (Nat × Nat × Nat)
  confs : List (Nat × Nat × Nat)
  mconfs : List (Nat × Nat × Nat)
  mconfAt : Nat
  port : Tab PortState
  deriving DecidableEq, Repr

/-- Where a command came from and what its reply must carry (R350, R352 to R354): entry hub, entry path (0 network, 1 SPI),
message number, network source, whether it came along the ring, and the header fields a reply repeats. -/
structure ReqCtx where
  entry : Nat
  path : Nat
  xid : Nat
  saddr : Nat
  sport : Nat
  ring : Bool
  op : Nat
  tag : Nat
  ack : Bool
  target : Nat
  sseq : Nat
  srcid : Nat
  deriving DecidableEq, Repr

/-- A safe input (section 15.4): the filtered states of both channels (true: no demand), the samples in a new state, the
cycles of disagreement, and input FAULT with what it has shown since. -/
structure SafeInput where
  fa : Bool
  fb : Bool
  ca : Nat
  cb : Nat
  disc : Nat
  fault : Bool
  sawDemand : Bool
  sawFree : Bool
  deriving DecidableEq, Repr

/-- An axis as one channel has it (sections 15.5 and 15.6): its state of Table 15.14, whether a restart needs a reset edge, SS1's start
and speed and whether a collector request began it, the commands of the channel's own STO output and SBC switch, the channel's encoder
count with its past counts, and the cycles its readbacks have disagreed with its commands. -/
structure SafeDrive where
  st : Nat
  needEdge : Bool
  ss1From : Nat
  v0 : Rat
  byReq : Bool
  sto : Bool
  sbc : Bool
  stoFrom : Nat
  cnt : Nat
  hist : List Nat
  stoBad : Nat
  sbcBad : Nat
  deriving DecidableEq, Repr

/-- An axis in channels A and B (R401), the encoder tracks, and whether the counts differ (R404). -/
structure SafeAxis where
  a : SafeDrive
  b : SafeDrive
  tracks : Nat
  diff : Bool
  deriving DecidableEq, Repr

/-- What a channel compares with the other's word (R404): the commands of the previous cycle, whether the word was missing or its
commands differed in this cycle; and SAFE_RST as it has sampled it (R419): the cycles it has been high, and the last falling edge. -/
structure SafeChan where
  sto : Nat
  sbc : Nat
  ss1 : Nat
  missing : Bool
  cmdDiff : Bool
  high : Nat
  fall : Option Nat
  deriving DecidableEq, Repr

/-- Tailstock behind its views (chapter 15): what both channels hold alike, what each has of its own, what waits for the safety cycle, and
the events and views that its end brings out. A queued telegram stands with the copy that channel B has of it. -/
structure TlsState where
  g : Nat
  set : List Byte
  setCrc : Nat
  next : Option (List Byte)
  setCyc : Nat
  cyc : Nat
  startLt : Nat
  startTick : Option Nat
  goodRun : Nat
  timing : Bool
  gapSaid : Bool
  seals : List Nat
  inputs : List SafeInput
  axes : List SafeAxis
  chA : SafeChan
  chB : SafeChan
  word : Option Nat
  sistB : Nat
  tpLow : Option Nat
  queue : List (ReqCtx × List Byte × List Byte)
  replies : List (ReqCtx × List Byte)
  answers : List (ReqCtx × Nat × List Byte)
  conn : Nat
  synced : Bool
  cn : Nat
  accepted : Nat
  axRun : Nat
  axSto : Nat
  resetBit : Bool
  tlgEdge : Bool
  held : Bool
  collector : Bool
  collectorCyc : Nat
  pres : Nat
  lcause : Nat
  tlgRefs : Nat
  tlgLast : Nat
  evs : List (Nat × Nat)
  deriving DecidableEq, Repr

/-- A command whose parts are being gathered (R360): where it came from, its version, the SSEQ of the next part, the parameters
so far, the way in of its parts, and when the latest came. -/
structure HsPart where
  ctx : ReqCtx
  ver : Nat
  next : Nat
  params : List Byte
  via : Via
  heard : Nat
  deriving DecidableEq, Repr

/-- A source ID Headstock tracks (R359): the highest SSEQ accepted and those accepted of its window. -/
structure HsSource where
  id : Nat
  high : Nat
  taken : List Nat
  deriving DecidableEq, Repr

/-- A VC2 message being reassembled (R352): its entry hub and message number, the link, its routing header and content so far,
and when its first cell came. -/
structure Vc2Part where
  entry : Nat
  xid : Nat
  link : Nat
  head : List Byte
  bytes : List Byte
  since : Nat
  deriving DecidableEq, Repr

/-- Headstock behind its registers (chapter 13): commands in parts, tags in flight by source ID, tracked sources (the most
recently heard last), forwarded commands with the instant their wait ends, the next message number, VC2 messages being
reassembled, ring-wide messages executed, message numbers that timed out, the SPI reply queue, this hub's own replies that wait for room in
it, and those of other hubs that wait in the ring: link, blocks they take up there, datagram (R378). -/
structure HsState where
  parts : List HsPart
  flight : List (Nat × Nat)
  sources : List HsSource
  fwd : List (ReqCtx × Nat)
  xid : Nat
  vc2 : List Vc2Part
  seen : List (Nat × Nat)
  late : List Nat
  spiq : List (List Byte)
  spiw : List (List Byte)
  ringw : List (Nat × Nat × List Byte)
  deriving DecidableEq, Repr

/-- A power change in progress (R435): kind (1 level, 2 mode), value, ENTRY of the request, its start, and whether it has been
reported past its bound. -/
structure PwrChange where
  kind : Nat
  value : Nat
  entry : Nat
  since : Nat
  late : Bool
  deriving DecidableEq, Repr

/-- The power unit behind its registers (chapter 16): reset and Hush, the cause of the last reset, the change in progress and
the request that waits, both copies of the wake record, what the wake logic has latched, supplies below power-good, RESET_N,
the 32.768 kHz clock, Doze, spares being powered or powered in Doze, the straps, the reset instant, the pending reset of a
command, and VDDC as measured out of regulation. -/
structure PwrState where
  inReset : Bool
  hush : Bool
  cause : Nat
  inHush : Bool
  change : Option PwrChange
  waiting : Option (Nat × Nat × Nat)
  bank0 : List Nat
  bank1 : List Nat
  wakeCause : Nat
  wakeAcnt : Nat
  suppliesBad : List Supply
  resetN : Bool
  xt32 : Bool
  doze : Bool
  powering : List (Nat × Nat)
  powered : List (Nat × Nat)
  hid : Nat
  resetAt : Nat
  cmdReset : Option Nat
  vddc : Option Nat
  deriving DecidableEq, Repr

/-- The state of the hub. -/
structure State where
  /-- the commands waiting, first in, first out -/
  pending : List Instr
  /-- LT, in units of 2^-16 ns (R5, R44) -/
  lt : Nat
  /-- the always-on domain's time since VAON power-up, in the same unit (R434) -/
  always : Nat
  /-- the model's own counter of free values -/
  free : Nat
  /-- every register, by address; an unlisted one holds its reset value -/
  regs : Tab Word
  /-- the values in effect on the FE dies and in the chains of registers whose writes wait (R39, R202) -/
  act : Tab Word
  /-- lower words of register pairs held until their upper word is written (R9) -/
  held : Tab (Option Word)
  /-- words latched for the next read of an upper or grouped register (R9, R46, R201) -/
  latch : Tab (Option Word)
  /-- the memory windows of section 17.6, byte by byte -/
  mem : List Host.Cell
  /-- what has left the hub -/
  out : List Out
  /-- the answer of the last access -/
  bus : Bus
  snap : SnapState
  dlk : Tab DieLink
  flt : FltState
  spn : SpnState
  clu : Tab CluState
  conv : Tab ConvState
  rgn : Tab RegionState
  mains : MainsState
  chan : Tab ChanState
  str : Tab StrState
  gapStore : List GapPkt
  gge : GgeState
  cap : Tab CapState
  /-- the Chainpo links CU (0) and CD (1) -/
  lnk : Tab LinkState
  /-- the other hubs of the segment (R338) -/
  seg : List SegHub
  /-- VC1 messages accepted (R230, R332): MTYPE, ORIGIN, message byte 0 and LT -/
  seenTrig : List (Nat × Nat × Nat × Nat)
  /-- a stop request of the fault collector waits for Tailstock (R392) -/
  stopReq : Bool
  /-- the ten lanes (chapter 11) -/
  lane : Tab LaneState
  /-- the ring and the exit (chapter 12) -/
  ring : RingState
  /-- Tailstock (chapter 15) -/
  tls : TlsState
  /-- Headstock (chapter 13) -/
  hs : HsState
  pwr : PwrState
  deriving DecidableEq, Repr

/-- A die link before its first link-up. -/
def DieLink.init : DieLink := ⟨false, 0, 0, false, 0, 0, 0, [], 0, [], [], [], [], 0⟩
/-- The fault collector after reset. -/
def FltState.init : FltState :=
  ⟨[], [], 0, [], [], none, [], [], 64, [], false, false, false, false, false, 0, false, []⟩
/-- A tracker after reset. -/
def Tracker.init : Tracker :=
  ⟨0, 0, none, 0, 0, 0, 0, false, 0, 0, none, [], 0, 0, 0, none, 0, 0, true, 0, none, 0, none, none, none, 0, none, 0, 0, 0⟩
/-- Spindle after reset (R57): FREE, LT at 0 s, RATE 0. -/
def SpnState.init : SpnState :=
  { refclk := true, lossLt := 0, lossAlways := 0, relockLt := 0, steering := none, freq := 0, trackers := [],
    holdSince := none, steered := false, ownTq := 4, ringTq := 4, ringDom := 0, over135 := false, over138 := false,
    disCount := 0, stepUntil := 0, gridDue := false, gridSent := 0, fromFree := true, ppsHigh := false, ppsNext := 0, ppsFall := 0, ppsLast := none,
    ppsMissed := 0, cmps := [], pulses := [], xchg := ⟨16, none, none, 0, 0⟩, txXseq := 0, txT4 := none, voided := 0 }
/-- An excitation driver after reset: off (R90). -/
def CluState.init : CluState := ⟨0, false, false, 0, 0, [], ⟨false, false, false, 250, 0, 0, false, false, 0, false, false⟩⟩
/-- A converter after reset. -/
def ConvState.init : ConvState := ⟨false, false, none, false, false, none, none⟩
/-- A region after reset: STOPPED (R442). -/
def RegionState.init : RegionState :=
  { edge := 0, next := 0, npk := 0, earliest := 0, whenSt := false, afterStep := false, restart := false,
    stopAfter := 0, runs := [], waiting := [], started := false, startAfter := 0, stopReq := false,
    reps := 0, delay := 0, delaying := false, execs := 0, loops := [], cmplAt := [], queue := [], running := [],
    idleAt := 0, autoImpAt := 0, autoCalAt := 0, autoImpPos := 0, autoCalPos := 0, wins := [], fails := [],
    freed := [], gone := [], events := [], lag := [], faults := none }
/-- The mains estimator after reset. -/
def MainsState.init : MainsState := ⟨none, none, [], none, false, 0, 0⟩
/-- No statistics block open. -/
def StatBlock.init : StatBlock := ⟨false, 0, 0, 0, 0, 0, 0, 0, 0, 0, 0, true⟩
/-- A cleared biquad section (R189). -/
def BqState.init : BqState := ⟨0, 0, 0, 0⟩
/-- A processing chain after reset. -/
def ChainState.init : ChainState :=
  { synced := false, blkSum := 0, blkFed := 0, blkFlags := 0, blkSat := false, blkName := 0, slotName := 0,
    slotSat := false, slotClear := false, lastBox := none, delay := [], filling := false, startFill := false,
    refill := false, fillMet := false, fillCount := 0, policy := 0, inPeriod := false, period := 0, inSettle := false, ready := [],
    bq0 := BqState.init, bq1 := BqState.init, firHist := [], lastOut := none, oseq := [0, 0, 0, 0],
    stats := StatBlock.init, statDone := [], swCount := [0, 0, 0, 0], swPend := [] }
/-- A channel after reset. -/
def ChanState.init : ChanState :=
  { expects := [], lastRaw := none, lastClean := none, onset := none, openFirst := 0, openCount := 0, clean := 0,
    clearAt := none, lastGoodLt := 0, lastGoodR := 0, everGood := false, usable := none, commitMo := 0,
    commitMg := 1, baseSpare := none, matchBase := none, matchPair := [], lastMo := 0, lost := false, overdue := false, crossLt := 0, burstFrom := none,
    burstLeft := 0, holdLeft := 0, inBandSince := none, outSince := none, stuckLeft := 0, stuckSaid := false,
    ovrInWindow := false, novr := 0, recent := [], waiting := [], undo := none, chain := ChainState.init }
/-- A stream context after reset: STOPPED and empty. -/
def StrState.init : StrState :=
  { wp := 0, sp := 0, rp := 0, wr := 0, pkts := [], cur := none, gap := none, gapWaits := [], stopWaits := none, spill := [],
    starts := 0, startLt := 0, fresh := false, rseq := 0, nextRow := 0, lastRow := none, descAt := none,
    descWaits := false, over34 := false, aborted := false, lossAt := none }
/-- A compressed context before its first start. -/
def GgeCtx.init : GgeCtx :=
  ⟨GgeImage.init, GgeImage.init, GgeImage.init, [], false, false, false, false, ⟨2, 1, 1, 0, 0, 0, false⟩, 0⟩
/-- Gouge after reset: in service and empty. -/
def GgeState.init : GgeState := ⟨[], 511, none, [], false, false⟩
/-- A Chainpo link that is down. -/
def LinkState.init : LinkState :=
  ⟨false, 0, 0, 0, 0, false, [], 0, [0, 0, 0, 0, 0, 0], [0, 0, 0, 0, 0, 0], [0, 0, 0, 0, 0, 0], [], none, none, [], [], 0, 0, [], 0⟩
/-- A capture buffer after reset: IDLE. -/
def CapState.init : CapState :=
  { armAt := none, nextRow := 0, slot := 0, pre := [], kept := 0, prev := [], fwd := [], since := 0, cur := none,
    fin := none, holdLeft := 0, disarmAt := none, events := [], done := [], lostSince := 0, lostFresh := true,
    seq := 0 }
/-- The power unit after a power-on reset with every supply good and RESET_N high. -/
def PwrState.init : PwrState :=
  { inReset := false, hush := false, cause := 1, inHush := false, change := none, waiting := none,
    bank0 := List.replicate 16 0, bank1 := List.replicate 16 0, wakeCause := 0, wakeAcnt := 0, suppliesBad := [],
    resetN := true, xt32 := false, doze := false, powering := [], powered := [], hid := Config.strapHid, resetAt := 0,
    cmdReset := none, vddc := none }
/-- A lane after reset: in L2 Dormant, which its controller asks for (R309). -/
def LaneState.init : LaneState := ⟨2, 2, 2, 0, false, 0, 0, false, 4, 0, 0, false⟩
/-- A network port after reset. -/
def PortState.init : PortState := ⟨0, 0, some 0, []⟩
/-- The ring after reset: a segment of one, no exit active since (R339). -/
def RingState.init : RingState :=
  { enumAt := 0, changedAt := 0, settled := false, table := [], actLt := 0, lastAct := none, hadPath := false, mirror := none,
    mirGen := 0, mirAt := 0, switching := none, switchAt := 0, stopAt := none, arp := [], nd := [], unresolved := [], retryAt := 0,
    parts := [], held := [], air := [], confs := [], mconfs := [], mconfAt := 0, port := [] }
/-- A safe input when a set takes effect: both channels show demand. -/
def SafeInput.init : SafeInput := ⟨false, false, 0, 0, 0, false, false, false⟩
/-- An axis in a channel after reset: DISABLED, de-energised (R420). -/
def SafeDrive.init : SafeDrive :=
  { st := 0, needEdge := true, ss1From := 0, v0 := 0, byReq := false, sto := false, sbc := false, stoFrom := 0, cnt := 0, hist := [],
    stoBad := 0, sbcBad := 0 }
/-- An axis after reset. -/
def SafeAxis.init : SafeAxis := ⟨SafeDrive.init, SafeDrive.init, 0, false⟩
/-- A channel after reset. -/
def SafeChan.init : SafeChan := ⟨0, 0, 0, false, false, 0, none⟩
/-- Tailstock after reset: NOPARAM (R420). -/
def TlsState.init : TlsState :=
  { g := 0, set := [], setCrc := 0, next := none, setCyc := 0, cyc := 0, startLt := 0, startTick := none, goodRun := 0, timing := false,
    gapSaid := false, seals := [Config.strapSeal, Config.strapSeal, Config.strapSadr, Config.strapSadr],
    inputs := List.replicate 16 SafeInput.init, axes := List.replicate 4 SafeAxis.init, chA := SafeChan.init, chB := SafeChan.init,
    word := none, sistB := 0, tpLow := none, queue := [], replies := [], answers := [],
    conn := 0, synced := false, cn := 0, accepted := 0, axRun := 0, axSto := 0, resetBit := true, tlgEdge := false,
    held := false, collector := false, collectorCyc := 0, pres := 0, lcause := 0, tlgRefs := 0, tlgLast := 0, evs := [] }
/-- Headstock after reset: nothing in flight. -/
def HsState.init : HsState := ⟨[], [], [], [], 0, [], [], [], [], [], []⟩

/-- The hub right after its internal reset is released at power-on (R442): every register at its reset value, every
block in the state the chapters give for reset, memory with nothing listed, no command waiting. -/
def State.reset : State :=
  { pending := [], lt := 0, always := 0, free := 0, regs := [], act := [], held := [], latch := [], mem := [],
    out := [], bus := ⟨0, 0, []⟩, snap := ⟨[], none, [], [], false⟩, dlk := [], flt := FltState.init,
    spn := SpnState.init, clu := [], conv := [], rgn := [], mains := MainsState.init, chan := [],
    str := [], gapStore := [], gge := GgeState.init, cap := [], seenTrig := [],
    lnk := [], seg := [], lane := [], ring := RingState.init, tls := TlsState.init, hs := HsState.init,
    stopReq := false,
    pwr := PwrState.init }

end Sys2Proof.Machine
end

