-- ==== Sys2Proof/Machine/Ops.lean ====
section
/-! DEFINITION. The shared operations over State: registers and their fields, per-entity state, memory, time,
outputs and free values. Every meaning goes through them. -/
namespace Sys2Proof.Machine

/-- The outcome of a command. -/
abbrev Res := Host.Outcome State Fault Refusal

/-- The word a register holds. -/
def State.reg (s : State) (a : Nat) : Word := tabGet resetWord s.regs a
/-- Write a register word. -/
def State.setReg (s : State) (a : Nat) (w : Word) : State := { s with regs := tabPut resetWord s.regs a w }
/-- Read a field of a register. -/
def State.fld (s : State) (a : Nat) (f : Fld) : Nat := bitsOf (s.reg a).toNat f.hi f.lo
/-- Write a field of a register. -/
def State.setFld (s : State) (a : Nat) (f : Fld) (v : Nat) : State :=
  s.setReg a (BitVec.ofNat 32 (putBits (s.reg a).toNat f.hi f.lo v))
/-- A one-bit field is set. -/
def State.flag (s : State) (a : Nat) (f : Fld) : Bool := decide (s.fld a f ≠ 0)
/-- Write a one-bit field. -/
def State.setFlag (s : State) (a : Nat) (f : Fld) (b : Bool) : State := s.setFld a f (b2n b)
/-- Add `n` to a count field, which saturates at its largest value. -/
def State.bumpBy (s : State) (a : Nat) (f : Fld) (n : Nat) : State :=
  s.setFld a f (satInc (f.hi - f.lo + 1) (s.fld a f) n)
/-- Add one to a saturating count field. -/
def State.bump (s : State) (a : Nat) (f : Fld) : State := s.bumpBy a f 1
/-- A field read as a signed number. -/
def State.fldI (s : State) (a : Nat) (f : Fld) : Int := signed (f.hi - f.lo + 1) (s.fld a f)

/-- The value in effect of a register whose writes may wait (R39, R202). -/
def State.actReg (s : State) (a : Nat) : Word := tabGet resetWord s.act a
/-- Put a value into effect. -/
def State.setAct (s : State) (a : Nat) (w : Word) : State := { s with act := tabPut resetWord s.act a w }
/-- A field of the value in effect. -/
def State.actFld (s : State) (a : Nat) (f : Fld) : Nat := bitsOf (s.actReg a).toNat f.hi f.lo
/-- A one-bit field of the value in effect. -/
def State.actFlag (s : State) (a : Nat) (f : Fld) : Bool := decide (s.actFld a f ≠ 0)
/-- Write a field of the value in effect. -/
def State.setActFld (s : State) (a : Nat) (f : Fld) (v : Nat) : State :=
  s.setAct a (BitVec.ofNat 32 (putBits (s.actReg a).toNat f.hi f.lo v))

/-- One field of a word after a write of `v` (R17): RW and RWL take the value, a W1C bit written 1 clears, the rest
keep theirs. -/
def fieldWrite (v : Nat) (old : Nat) (f : Fld) : Nat :=
  match f.acc with
  | .rw => putBits old f.hi f.lo (bitsOf v f.hi f.lo)
  | .rwl => putBits old f.hi f.lo (bitsOf v f.hi f.lo)
  | .w1c => putBits old f.hi f.lo (bitsOf old f.hi f.lo - (bitsOf old f.hi f.lo &&& bitsOf v f.hi f.lo))
  | _ => old
/-- A word after a write, field by field. -/
def wordWrite (flds : List Fld) (old v : Nat) : Nat := flds.foldl (fieldWrite v) old
/-- The write sets a reserved bit or would change an RO field (R456). -/
def writeIgnored (flds : List Fld) (old v : Nat) : Bool :=
  flds.any (fun f => decide (f.acc = .ro) && decide (bitsOf v f.hi f.lo ≠ bitsOf old f.hi f.lo))
    || decide (flds.foldl (fun r f => putBits r f.hi f.lo 0) v ≠ 0)
/-- Record an ignored write (R456). -/
def State.noteIgnored (s : State) (a : Nat) : State :=
  ((s.setFlag R.GLB_ACCERR F.GLB_ACCERR_IGN true).bump R.GLB_ACCERR F.GLB_ACCERR_IGNCNT).setReg R.GLB_ACCADR
    (BitVec.ofNat 32 a)
/-- Record a refusal with LOCKED (R456). -/
def State.noteLocked (s : State) (a : Nat) : State :=
  ((s.setFlag R.GLB_ACCERR F.GLB_ACCERR_LOCK true).bump R.GLB_ACCERR F.GLB_ACCERR_LOCKCNT).setReg R.GLB_ACCADR
    (BitVec.ofNat 32 a)
/-- Apply a write to a register per field by its access codes (R17), and record what of it is ignored (R456), which stands whatever the
write itself clears (R455). -/
def State.writeFlds (s : State) (a : Nat) (flds : List Fld) (v : Word) : State :=
  let old := (s.reg a).toNat
  let t := s.setReg a (BitVec.ofNat 32 (wordWrite flds old v.toNat))
  if writeIgnored flds old v.toNat then t.noteIgnored a else t

/-- Write a 48-bit ST into a register pair. -/
def State.setSt (s : State) (lo hi : Nat) (st : Nat) : State :=
  (s.setReg lo (BitVec.ofNat 32 st)).setReg hi (BitVec.ofNat 32 (st / 2 ^ 32))
/-- Read a 64-bit register pair. -/
def State.pair (s : State) (lo hi : Nat) : Nat := (s.reg lo).toNat + (s.reg hi).toNat * 2 ^ 32
/-- Write a 64-bit register pair. -/
def State.setPair (s : State) (lo hi v : Nat) : State :=
  (s.setReg lo (BitVec.ofNat 32 v)).setReg hi (BitVec.ofNat 32 (v / 2 ^ 32))

/-- The byte a memory window address holds; one nothing has written reads zero (log 6). -/
def State.byte (s : State) (a : Nat) : Byte := tabGet (fun _ => 0) s.mem a
/-- Write one byte of a memory window. -/
def State.setByte (s : State) (a : Nat) (b : Byte) : State := { s with mem := tabPut (fun _ => 0) s.mem a b }
/-- Write consecutive bytes. -/
def State.setBytes (s : State) (a : Nat) : List Byte → State
  | [] => s
  | b :: bs => (s.setByte a b).setBytes (a + 1) bs
/-- Read `n` consecutive bytes. -/
def State.bytes (s : State) (a n : Nat) : List Byte := (List.range n).map (fun i => s.byte (a + i))
/-- The memory is in its canonical form. -/
def memWf (m : List Host.Cell) : Bool := tabWf (fun _ => (0 : Byte)) m

/-- Append to what has left the hub. -/
def State.emit (s : State) (o : Out) : State := { s with out := s.out ++ [o] }
/-- A fresh free value (log 5). -/
def State.fresh (s : State) : Nat × State := (Config.freeValue s.free, { s with free := s.free + 1 })

/-- The hub acts: not held in reset and not in Hush. -/
def State.awake (s : State) : Bool := !s.pwr.inReset && !s.pwr.hush
/-- Time passes by `u` units: the always-on count runs in every mode while its clock does (R434), LT only while the timing
core does (R44, R66). -/
def State.pass (s : State) (u : Nat) : State :=
  { s with always := if s.pwr.xt32 then s.always else s.always + u, lt := if s.spn.refclk && s.awake then s.lt + u else s.lt }
/-- An event due at instant `t` happens: time has reached it (log 8). -/
def State.moveTo (s : State) (t : Nat) : State := if s.lt < t then s.pass (t - s.lt) else s
/-- A meaning acts only while the hub is awake; a reset or sleeping hub ignores it (R442, R443; log 9). -/
def State.act! (s : State) (t : State) : Res := .next (if s.awake then t else s)
/-- ACNT (R434): cycles of the 32.768 kHz clock. -/
def State.acnt (s : State) : Nat := s.always / cycU
/-- Status of the last access. -/
def State.answer (s : State) (v : Nat) (st : Nat) : State := { s with bus := ⟨v, st, []⟩ }

/-- The hub ID (R12): site part and HID. -/
def State.hubId (s : State) : Nat := (s.reg R.CMD_HUBID).toNat % 65536
/-- The time status byte (R55). -/
def State.timeStatus (s : State) : Nat := s.fld R.SPN_STAT F.SPN_STAT_DOM * 128 + s.fld R.SPN_STAT F.SPN_STAT_TQ
/-- The hub is the active exit of its ring. -/
def State.isExit (s : State) : Bool := s.flag R.CHP_RING F.CHP_RING_ACTHERE

def State.dl (s : State) (d : Nat) : DieLink := tabGet (fun _ => DieLink.init) s.dlk d
def State.setDl (s : State) (d : Nat) (x : DieLink) : State :=
  { s with dlk := tabPut (fun _ => DieLink.init) s.dlk d x }
def State.trk (s : State) (t : Nat) : Tracker := tabGet (fun _ => Tracker.init) s.spn.trackers t
def State.setTrk (s : State) (t : Nat) (x : Tracker) : State :=
  { s with spn := { s.spn with trackers := tabPut (fun _ => Tracker.init) s.spn.trackers t x } }
def State.cl (s : State) (c : Nat) : CluState := tabGet (fun _ => CluState.init) s.clu c
def State.setCl (s : State) (c : Nat) (x : CluState) : State :=
  { s with clu := tabPut (fun _ => CluState.init) s.clu c x }
def State.cv (s : State) (k : Nat) : ConvState := tabGet (fun _ => ConvState.init) s.conv k
def State.setCv (s : State) (k : Nat) (x : ConvState) : State :=
  { s with conv := tabPut (fun _ => ConvState.init) s.conv k x }
def State.rg (s : State) (g : Nat) : RegionState := tabGet (fun _ => RegionState.init) s.rgn g
def State.setRg (s : State) (g : Nat) (x : RegionState) : State :=
  { s with rgn := tabPut (fun _ => RegionState.init) s.rgn g x }
def State.ch (s : State) (n : Nat) : ChanState := tabGet (fun _ => ChanState.init) s.chan n
def State.setCh (s : State) (n : Nat) (x : ChanState) : State :=
  { s with chan := tabPut (fun _ => ChanState.init) s.chan n x }
def State.st (s : State) (c : Nat) : StrState := tabGet (fun _ => StrState.init) s.str c
def State.setStr (s : State) (c : Nat) (x : StrState) : State :=
  { s with str := tabPut (fun _ => StrState.init) s.str c x }
def State.lk (s : State) (k : Nat) : LinkState := tabGet (fun _ => LinkState.init) s.lnk k
def State.setLk (s : State) (k : Nat) (x : LinkState) : State :=
  { s with lnk := tabPut (fun _ => LinkState.init) s.lnk k x }
def State.cp (s : State) (b : Nat) : CapState := tabGet (fun _ => CapState.init) s.cap b
def State.setCp (s : State) (b : Nat) (x : CapState) : State :=
  { s with cap := tabPut (fun _ => CapState.init) s.cap b x }

def State.pt (s : State) (p : Nat) : PortState := tabGet (fun _ => PortState.init) s.ring.port p
def State.setPt (s : State) (p : Nat) (x : PortState) : State :=
  { s with ring := { s.ring with port := tabPut (fun _ => PortState.init) s.ring.port p x } }
def State.ln (s : State) (i : Nat) : LaneState := tabGet (fun _ => LaneState.init) s.lane i
def State.setLn (s : State) (i : Nat) (x : LaneState) : State :=
  { s with lane := tabPut (fun _ => LaneState.init) s.lane i x }

/-- Cluster of a channel (R10). -/
def cluOf (n : Nat) : Nat := n / 8
/-- Region of a channel (R10). -/
def rgnOf (n : Nat) : Nat := n / 48
/-- Own unit of a channel (R10). -/
def unitOf (n : Nat) : Nat := 9 * (n / 8) + n % 8
/-- Spare converter of a cluster (R10). -/
def spareOf (c : Nat) : Nat := 9 * c + 8
/-- Channel of a unit converter (meaningful when it is no spare). -/
def chanOf (k : Nat) : Nat := 8 * (k / 9) + k % 9
/-- The converter is a spare. -/
def isSpare (k : Nat) : Bool := decide (k % 9 = 8)
/-- Channels of a region. -/
def chansOf (g : Nat) : List Nat := (List.range 48).map (fun l => 48 * g + l)
/-- Clusters of a region. -/
def clusOf (g : Nat) : List Nat := (List.range 6).map (fun j => 6 * g + j)

/-- Region states of Table 4.9. -/
def rgStopped : Nat := 0
def rgPending : Nat := 1
def rgConverting : Nat := 2
def rgStopPending : Nat := 3
/-- RGN_STAT.STATE. -/
def State.rgState (s : State) (g : Nat) : Nat := s.fld (R.RGN_STAT g) F.RGN_STAT_STATE
def State.setRgState (s : State) (g v : Nat) : State := s.setFld (R.RGN_STAT g) F.RGN_STAT_STATE v
/-- The region is in mains-tracking mode. -/
def State.rgMains (s : State) (g : Nat) : Bool := s.flag (R.RGN_WIN g) F.RGN_WIN_MODE
/-- The region opens windows: CONVERTING or STOP_PENDING. -/
def State.runs (s : State) (g : Nat) : Bool := decide (s.rgState g = 2) || decide (s.rgState g = 3)
/-- Some region converts or has a start pending (R59, R60). -/
def State.anyActive (s : State) : Bool := (List.range 8).any (fun g => decide (s.rgState g ≠ 0))

/-- Apply an operation for every number of a list, in order. -/
def State.forEach {α : Type} (s : State) (l : List α) (f : State → α → State) : State := l.foldl f s

/-- Move an instant that an elapsed time is counted from by a step of LT, never below 0 (log 79). -/
def shiftT (d : Int) (t : Nat) : Nat := ((t : Int) + d).toNat
/-- Keep a tracker's intervals across a step. -/
def Tracker.shift (d : Int) (x : Tracker) : Tracker :=
  { x with validSince := shiftT d x.validSince, readySince := shiftT d x.readySince,
           lastMeas := x.lastMeas.map (shiftT d), lastSync := shiftT d x.lastSync, announceLt := shiftT d x.announceLt,
           reqAt := x.reqAt.map (shiftT d), pdAt := x.pdAt.map (shiftT d) }
/-- Keep the elapsed times of Spindle across a step: holdover, PPS_OUT, PPS_IN and the pulses. -/
def SpnState.shift (d : Int) (x : SpnState) : SpnState :=
  { x with ppsNext := 0, ppsFall := shiftT d x.ppsFall, ppsLast := x.ppsLast.map (shiftT d), holdSince := x.holdSince.map (shiftT d),
           relockLt := shiftT d x.relockLt, pulses := x.pulses.map (shiftT d),
           trackers := x.trackers.map (fun (e : Nat × Tracker) => (e.1, e.2.shift d)) }
/-- Keep the elapsed times of a region that converts nothing across a step: the waits of its sequencer and running operations. -/
def RegionState.shift (d : Int) (x : RegionState) : RegionState :=
  { x with startAfter := shiftT d x.startAfter, idleAt := shiftT d x.idleAt, fails := x.fails.map (fun e => (e.1, shiftT d e.2)),
           freed := x.freed.map (fun e => (e.1, shiftT d e.2)), gone := x.gone.map (shiftT d), cmplAt := x.cmplAt.map (fun (e : Nat × Nat) => (e.1, shiftT d e.2)),
           running := x.running.map (fun r => { r with startLt := shiftT d r.startLt, calAt := shiftT d r.calAt, endLt := r.endLt.map (shiftT d) }) }
/-- Keep the times of the ring and the exit across a step. -/
def RingState.shift (d : Int) (x : RingState) : RingState :=
  { x with enumAt := shiftT d x.enumAt, changedAt := shiftT d x.changedAt, mirAt := shiftT d x.mirAt, lastAct := x.lastAct.map (shiftT d), stopAt := x.stopAt.map (shiftT d),
           retryAt := shiftT d x.retryAt, arp := x.arp.map (fun e => (e.1, e.2.1, shiftT d e.2.2)),
           nd := x.nd.map (fun e => (e.1, e.2.1, shiftT d e.2.2)),
           parts := x.parts.map (fun e => { e with since := shiftT d e.since }),
           held := x.held.map (fun e => { e with since := shiftT d e.since }) }
/-- Keep the times of a network port across a step. -/
def PortState.shift (d : Int) (x : PortState) : PortState :=
  { linkAt := shiftT d x.linkAt, downAt := shiftT d x.downAt, losAt := x.losAt.map (shiftT d), echoes := x.echoes.map (shiftT d) }
/-- Keep the waits of Headstock across a step. -/
def HsState.shift (d : Int) (x : HsState) : HsState :=
  { x with parts := x.parts.map (fun e => { e with heard := shiftT d e.heard }),
           fwd := x.fwd.map (fun e => (e.1, shiftT d e.2)), vc2 := x.vc2.map (fun e => { e with since := shiftT d e.since }) }
/-- Keep the times of the power unit across a step. -/
def PwrState.shift (d : Int) (x : PwrState) : PwrState :=
  { x with change := x.change.map (fun c => { c with since := shiftT d c.since }), cmdReset := x.cmdReset.map (shiftT d),
           powering := x.powering.map (fun e => (e.1, shiftT d e.2)), powered := x.powered.map (fun e => (e.1, shiftT d e.2)) }
/-- A step of LT by `d` (R60) changes no elapsed time: every instant from which one is counted moves with LT (log 79). -/
def State.shiftTimers (s : State) (d : Int) : State :=
  let s := { s with
    spn := s.spn.shift d, pwr := s.pwr.shift d,
    mains := { s.mains with last := s.mains.last.map (shiftT d), acceptedAt := s.mains.acceptedAt.map (shiftT d) },
    flt := { s.flt with lastHigh := s.flt.lastHigh.map (fun (e : Nat × Nat) => (e.1, max 1 (shiftT d e.2))) } }
  let s := { s with tls := { s.tls with startLt := shiftT d s.tls.startLt } }
  let s := { s with hs := s.hs.shift d }
  let s := { s with ring := s.ring.shift d }
  let s := s.forEach (List.range 2) (fun s p => s.setPt p ((s.pt p).shift d))
  let s := s.forEach (List.range 2) (fun s k => s.setLk k { s.lk k with
    downAt := shiftT d (s.lk k).downAt, lctlAt := shiftT d (s.lk k).lctlAt, trainFrom := (s.lk k).trainFrom.map (shiftT d) })
  let s := s.forEach (List.range 10) (fun s i => s.setLn i { s.ln i with since := shiftT d (s.ln i).since, eyeAt := shiftT d (s.ln i).eyeAt })
  let s := s.forEach (List.range 8) (fun s g => s.setRg g ((s.rg g).shift d))
  let s := s.forEach (s.chan.map (fun e => e.1)) (fun s n => s.setCh n { s.ch n with
    expects := (s.ch n).expects.map (fun e => { e with due := shiftT d e.due }) })
  let s := s.forEach (s.str.map (fun e => e.1)) (fun s c => s.setStr c { s.st c with
    cur := (s.st c).cur.map (fun o => { o with opened := shiftT d o.opened }), descAt := (s.st c).descAt.map (shiftT d) })
  s.forEach (List.range 16) (fun s b => s.setCp b { s.cp b with
    armAt := (s.cp b).armAt.map (shiftT d), disarmAt := (s.cp b).disarmAt.map (shiftT d) })

end Sys2Proof.Machine
end

