-- ==== Sys2Proof/Machine/Faults.lean ====
section
/-! DEFINITION. The fault collector (chapter 14): raising a source, the first-source latch, the log, the reaction
classes, FAULT_N and ALIVE, and the queue of targeted self-tests. -/
namespace Sys2Proof.Machine

/-- Instance of a source of level Hub (R383). -/
def instHub : Nat := 0x3FF

/-- A bit of a per-source bit vector (Table 14.9). -/
def State.srcBit (s : State) (vec : Nat → Nat) (src : Nat) : Bool := (s.reg (vec (src / 32))).toNat.testBit (src % 32)
/-- Write a bit of a per-source bit vector. -/
def State.setSrcBit (s : State) (vec : Nat → Nat) (src : Nat) (b : Bool) : State :=
  s.setReg (vec (src / 32)) (BitVec.ofNat 32 (putBits (s.reg (vec (src / 32))).toNat (src % 32) (src % 32) (b2n b)))
/-- The list bit of an instance (R386). -/
def State.listBit (s : State) (src inst : Nat) : Bool :=
  (s.reg (R.FLT_LIST src (inst / 32))).toNat.testBit (inst % 32)
/-- Set the list bit of an instance; only instances 0 to 511 have one. -/
def State.setListBit (s : State) (src inst : Nat) (b : Bool) : State :=
  if inst < 512 then
    s.setReg (R.FLT_LIST src (inst / 32))
      (BitVec.ofNat 32 (putBits (s.reg (R.FLT_LIST src (inst / 32))).toNat (inst % 32) (inst % 32) (b2n b)))
  else s
/-- Clear the whole list of a source. -/
def State.clearList (s : State) (src : Nat) : State :=
  s.forEach (List.range 16) (fun s x => s.setReg (R.FLT_LIST src x) 0)

/-- EN of a source. -/
def State.srcEn (s : State) (src : Nat) : Bool := s.srcBit R.FLT_EN src
/-- Reaction class of a source (R391). -/
def State.srcClass (s : State) (src : Nat) : Nat := s.fld (R.FLT_REACT (src / 16)) (F.FLT_REACT_REACT (src % 16))

/-- RAW of a source: real line or force line (R384). -/
def State.updRaw (s : State) (src : Nat) : State :=
  s.setSrcBit R.FLT_RAW src (s.srcBit R.FLT_FORCE src || s.flt.lines.any (fun p => decide (p.1 = src)))

/-- Some enabled source at or above a class is sticky (R393, R394). -/
def State.stickyAt (s : State) (cls : Nat) : Bool :=
  (List.range 256).any (fun n => s.srcBit R.FLT_STICKY n && s.srcEn n && decide (cls ≤ s.srcClass n))
/-- FAULT_N is driven low (R393). -/
def State.faultNLow (s : State) : Bool := s.flag R.FLT_CTRL F.FLT_CTRL_FN_TEST || s.stickyAt 1

/-- FLT_ALIVE names the causes that hold ALIVE low (R394). -/
def State.updAlive (s : State) : State :=
  let al := s.stickyAt 2
  let hold := !s.flt.started || s.flt.wdLate || s.flt.stageHeld || al || s.flt.parr
  ((((s.setFlag R.FLT_ALIVE F.FLT_ALIVE_ALARM al).setFlag R.FLT_ALIVE F.FLT_ALIVE_IWD s.flt.stageHeld).setFlag
    R.FLT_ALIVE F.FLT_ALIVE_FWD s.flt.wdLate).setFlag R.FLT_ALIVE F.FLT_ALIVE_PARR s.flt.parr).setFlag
    R.FLT_ALIVE F.FLT_ALIVE_HOLD hold

/-- FLT_STQ shows the queue and the running test (Table 14.9). -/
def State.updStq (s : State) : State :=
  let s := s.setFld R.FLT_STQ F.FLT_STQ_QLEN (s.flt.queue.length)
  let s := s.setFlag R.FLT_STQ F.FLT_STQ_BUSY s.flt.running.isSome
  s.setFld R.FLT_STQ F.FLT_STQ_CUR (match s.flt.running with | some t => t.src | none => 0)

/-- The converters a match of a channel joins (R139): those of the match that is out of limits, else those of the operation that runs on the
channel: its own unit or committed spare, and the other spare serving it. -/
def State.matchConvs (s : State) (n : Nat) : List Nat :=
  let g := rgnOf n
  let run := (s.rg g).running.find? (fun r => decide (r.op.kind ≠ .sprCal) && decide (r.op.kind ≠ .sprRetest) && decide (r.op.chan = n) && r.spare.isSome)
  if (s.ch n).matchPair ≠ [] then (s.ch n).matchPair
  else match run with
  | some r => [r.unit, spareOf (r.spare.getD 0)]
  | none => [unitOf n]

/-- The 64-bit line of memory an event names (Table 14.5): by its address, or, for an event of source 97 that names only the data (R388), by
that name, beyond the numbers of lines (log 108). -/
def lineKey (src detail : Nat) (addr : Option Nat) : Nat :=
  match addr with
  | some a => a / 8
  | none => if src = 97 then 2 ^ 45 + detail else detail / 8
/-- The targets of the self-tests an event of a source queues (Table 14.5). The instance of a memory source is its partition (Table 14.3). -/
def State.testTargets (s : State) (src inst detail : Nat) (addr : Option Nat) : List TestTarget :=
  if [64, 66, 68, 80, 81, 82].contains src then [.conv inst]
  else if src = 67 then (s.matchConvs inst).map .conv
  else if src = 83 then [.die inst]
  else if [96, 97, 98, 100].contains src then [.line inst (lineKey src detail addr)]
  else if src = 101 then [.array]
  else if src = 114 ∨ src = 117 then [.gouge]
  else []

/-- Instance named by a test of a target (R383, R395). -/
def testInst (t : TestTarget) (inst : Nat) : Nat :=
  match t with
  | .conv k => k
  | _ => inst

/-- An error meets a running test (R397): the same target, a converter of the die under test, or the die of the converter under test. -/
def targetMeets (run ev : TestTarget) : Bool :=
  match run, ev with
  | .die d, .conv k => decide (k / 108 = d)
  | .conv k, .die d => decide (k / 108 = d)
  | a, b => decide (a = b)

/-- Start the next queued test when none runs, waiting tests taking the free places first (R395). -/
def State.nextTest (s : State) : State :=
  let s := match s.flt.running, s.flt.queue with
    | none, t :: q => { s with flt := { s.flt with running := some t, queue := q } }
    | _, _ => s
  let s := match s.flt.waiting with
    | t :: w =>
      if s.flt.queue.length < 32 then { s with flt := { s.flt with queue := s.flt.queue ++ [t], waiting := w } } else s
    | [] => s
  s.updStq

/-- A test with this target is queued and not yet running. -/
def State.testQueued (s : State) (t : TestTarget) : Bool :=
  s.flt.queue.any (fun q => decide (q.target = t)) || s.flt.waiting.any (fun q => decide (q.target = t))

/-- The tests of these sources' events are called for by another chapter and never lost, forced ones apart (R139, R146, R285, R395). -/
def calledFor (src : Nat) : Bool := [67, 68, 114, 117].contains src
/-- An operation waits for the verdict of the tests of a target (R395). -/
def State.awaitTest (s : State) (t : TestTarget) : State :=
  let mark := fun (q : SelfTest) => if q.target = t then { q with waited := true } else q
  { s with flt := { s.flt with queue := s.flt.queue.map mark, waiting := s.flt.waiting.map mark, running := s.flt.running.map mark } }
/-- Place a test in the queue, or, when that is full, among those that take the next free place (R395). -/
def State.placeTest (s : State) (q : SelfTest) : State :=
  if s.flt.queue.length < 32 ∧ s.flt.waiting = [] then ({ s with flt := { s.flt with queue := s.flt.queue ++ [q] } }).nextTest
  else ({ s with flt := { s.flt with waiting := s.flt.waiting ++ [q] } }).updStq
/-- Queue a test another chapter calls for and an operation waits for: never lost (R395). -/
def State.callTest (s : State) (src : Nat) (t : TestTarget) (inst : Nat) : State :=
  if s.testQueued t then s.awaitTest t else s.placeTest (SelfTest.mk src t inst true)

/-- REAL of an event: a real line of the source is high, or was within the last 10 us (R385). -/
def State.realSeen (s : State) (src : Nat) : Bool :=
  s.flt.lines.any (fun p => decide (p.1 = src))
    || (match tabGet (fun _ => 0) s.flt.lastHigh src with
        | 0 => false
        | t + 1 => decide (s.lt ≤ t + 10000 * nsU))

/-- Number of the pin ALIVE in `Out.pin`. -/
def pinAlive : Nat := 3
/-- ALIVE is driven low while a condition of R394 fails. -/
def State.aliveLow (s : State) : State :=
  if s.flag R.FLT_ALIVE F.FLT_ALIVE_HOLD && s.flt.alivePin then
    ({ s with flt := { s.flt with alivePin := false } }).emit (.pin pinAlive 0 s.lt)
  else s
/-- The bytes of a fault log entry (Table 14.7). -/
def State.logEntry (s : State) (src inst detail lflags cls : Nat) : List Byte :=
  beBytes 4 s.flt.lseq ++ beBytes 1 src ++ beBytes 1 lflags ++ beBytes 2 inst ++ ltBytes (stamp50 s.lt)
    ++ beBytes 1 s.timeStatus ++ beBytes 1 cls ++ beBytes 6 detail ++ beBytes 2 0

/-- Base of the fault log window (R390). -/
def logBase : Nat := 0x05C00000

/-- Write one log entry, losing the oldest unread one when 255 are unread (R390). -/
def State.writeLog (s : State) (bytes : List Byte) : State :=
  let w := s.fld R.FLT_LOG F.FLT_LOG_WIDX
  let r := s.fld R.FLT_LOG F.FLT_LOG_RIDX
  let s := if (w + 256 - r) % 256 = 255 then
      (s.setFld R.FLT_LOG F.FLT_LOG_RIDX ((r + 1) % 256)).bump R.FLT_LOG F.FLT_LOG_LOST
    else s
  let s := s.setBytes (logBase + 32 * w) bytes
  let s := s.setFld R.FLT_LOG F.FLT_LOG_WIDX ((w + 1) % 256)
  { s with flt := { s.flt with lseq := (s.flt.lseq + 1) % 2 ^ 32 } }

/-- The bits, the latch and the log of one event (R385, R386, R389, R390); `queued` says whether it queued a test. -/
def State.record (s : State) (src inst detail : Nat) (real : Bool) (queued : Bool) : State :=
  let known := if inst = instHub then s.srcBit R.FLT_STICKY src
    else if inst < 512 then s.listBit src inst else false
  let forced := s.srcBit R.FLT_FORCE src
  let cls := s.srcClass src
  let s := s.setSrcBit R.FLT_STICKY src true
  let s := if inst = instHub then s else s.setListBit src inst true
  if s.srcEn src then
    let latch := decide (1 ≤ cls) && !s.flag R.FLT_FIRST F.FLT_FIRST_VALID
    let s := if 1 ≤ cls then
        if latch then
          (s.setReg R.FLT_FIRST (BitVec.ofNat 32
            (2 ^ 31 + b2n forced * 2 ^ 30 + b2n real * 2 ^ 29 + (inst % 1024) * 2 ^ 16 + src))).setSt
            R.FLT_FIRST_T R.FLT_FIRST_T_HI (stOf s.lt)
        else (s.setFlag R.FLT_OVF F.FLT_OVF_OVF true).bump R.FLT_OVF F.FLT_OVF_OVFCNT
      else s
    if known then s.bump (R.FLT_CNT (src / 4)) (F.FLT_CNT_CNT (src % 4))
    else s.writeLog (s.logEntry src inst detail
      (b2n forced + 2 * b2n real + 4 * b2n latch + 8 * b2n queued) cls)
  else s

/-- An event of class STOP asks Tailstock for a stop (R391, R392). -/
def State.stopRequest (s : State) (src : Nat) : State :=
  if s.srcEn src && decide (s.srcClass src = 3) then { s with stopReq := true } else s
/-- Remember that the real line of a source was high now. -/
def State.markHigh (s : State) (src : Nat) : State :=
  { s with flt := { s.flt with lastHigh := tabPut (fun _ => 0) s.flt.lastHigh src (s.lt + 1) } }

/-- A pulse of the real line of a source that has no test of its own (R385). -/
def State.raisePlain (s : State) (src inst detail : Nat) : State :=
  (((s.record src inst detail true false).stopRequest src).updAlive).markHigh src

/-- End the running test with a verdict (R396: 1 PASS, 2 FAIL, 3 INCONCLUSIVE, 4 NOT_RUN): FLT_ST_LAST, sources 118 and 119, and the next test. The effect on
the target stands in `flt.ended` for the target's own chapter. -/
def State.endTest (s : State) (v : Nat) : State :=
  match s.flt.running with
  | none => s
  | some t =>
    let mine := decide (t.target = TestTarget.array) && decide (v ≠ 4)
    let again := if v = 4 ∧ t.waited then [t] else []
    let s := { s with flt := { s.flt with running := none, notRun := s.flt.notRun ++ again, ended := s.flt.ended ++ [(t, v)],
                                          parr := if mine then decide (v = 2) || decide (v = 3) else s.flt.parr,
                                          parrSrc := if mine then 116 + v else s.flt.parrSrc } }
    let s := s.setReg R.FLT_ST_LAST (BitVec.ofNat 32 (t.src * 2 ^ 24 + v * 2 ^ 16 + t.inst % 1024))
    let s := if v = 2 then s.raisePlain 118 t.inst 0 else if v = 3 then s.raisePlain 119 t.inst 0 else s
    s.updAlive.nextTest

/-- Queue the tests of an event, merging with queued ones; a full queue raises source 120, unless the test is called for (R395).
Answers whether one was queued or merged. -/
def State.queueTests (s : State) (src inst : Nat) (called : Bool) : List TestTarget → State × Bool × Bool
  | [] => (s, false, false)
  | t :: ts =>
    let (s, q, full) :=
      if s.testQueued t then (s, true, false)
      else if (s.flt.queue.length < 32 ∧ s.flt.waiting = []) ∨ called then
        (s.placeTest (SelfTest.mk src t (testInst t inst) false), true, false)
      else (s.bump R.FLT_STQ F.FLT_STQ_DROP, false, true)
    let (s, q', full') := s.queueTests src inst called ts
    (s, q || q', full || full')

/-- Tailstock's sources, whose force bits act only in the collector (R421). -/
def tlsSource (src : Nat) : Bool := decide (224 ≤ src) && decide (src ≤ 247)
/-- An event of a source for an instance (R385 to R397): its test, bits, latch, log entry and reaction, and the end of
a running test that it meets. `addr` is the memory address where the event has one; a forced event is called for by no other
chapter (R395), and one of Tailstock's sources does not reach Tailstock (R421). -/
def State.raiseAt (s : State) (src inst detail : Nat) (addr : Option Nat) (real forced : Bool) : State :=
  if !sourceDefined src then s
  else
    let ts := s.testTargets src inst detail addr
    let nested := match s.flt.running with
      | some r => ts.any (fun t => targetMeets r.target t)
      | none => false
    let (s, queued, full) := if nested then (s, false, false) else s.queueTests src inst (calledFor src && !forced) ts
    let s := s.record src inst detail real queued
    let s := if forced && tlsSource src then s else s.stopRequest src
    let s := if full then s.raisePlain 120 instHub 0 else s
    let s := if nested then s.endTest 3 else s
    s.updAlive
/-- A real event of a source for an instance. -/
def State.raiseWith (s : State) (src inst detail : Nat) (real : Bool) : State := s.raiseAt src inst detail none real false

/-- A pulse of a source's real line for an instance, with a DETAIL for the log. -/
def State.raiseD (s : State) (src inst detail : Nat) : State := (s.raiseWith src inst detail true).markHigh src
/-- A pulse of a memory source at an address (R388). -/
def State.raiseMem (s : State) (src part detail addr : Nat) : State :=
  (s.raiseAt src part detail (some addr) true false).markHigh src
/-- A pulse of a source's real line for an instance. -/
def State.raise (s : State) (src inst : Nat) : State := s.raiseD src inst 0
/-- A pulse of a source of level Hub. -/
def State.raiseHub (s : State) (src : Nat) : State := s.raiseD src instHub 0

/-- The real line of an episode, known by a number, rises or falls; its rise is an event for an instance (R384, R385). -/
def State.setEpisode (s : State) (src ep inst : Nat) (on : Bool) : State :=
  let was := s.flt.lines.contains (src, ep)
  if on && !was then
    (({ s with flt := { s.flt with lines := s.flt.lines ++ [(src, ep)] } }).updRaw src).raise src inst
  else if !on && was then
    ((({ s with flt := { s.flt with lines := s.flt.lines.filter (fun p => decide (p ≠ (src, ep))) } }).markHigh
      src)).updRaw src
  else s
/-- The real line of an instance, whose episodes it numbers. -/
def State.setLine (s : State) (src inst : Nat) (on : Bool) : State := s.setEpisode src inst inst on

/-- Put an event in its place among others, by rising source and instance (R387). -/
def insertEvent (e : Nat × Nat) : List (Nat × Nat) → List (Nat × Nat)
  | [] => [e]
  | f :: l => if e.1 < f.1 ∨ (e.1 = f.1 ∧ e.2 < f.2) then e :: f :: l else f :: insertEvent e l
/-- A rising edge of a force line (R385): an event for FLT_FORCE_INST. -/
def State.forceEdge (s : State) (src : Nat) : State :=
  s.raiseAt src (s.fld R.FLT_FORCE_INST F.FLT_FORCE_INST_INST) 0 none (s.realSeen src) true

end Sys2Proof.Machine
end

