-- ==== Sys2Proof/Machine/DieLink.lean ====
section
/-! DEFINITION. The die links (section 1.5): words sent by HD, the replay buffer, and the register writes and reads
that cross them. -/
namespace Sys2Proof.Machine

/-- Words of a die link carry traffic: the link is up and REFCLK is present (R37, R66). -/
def State.dieUp (s : State) (d : Nat) : Bool := s.flag (R.DLK_STAT d) F.DLK_STAT_UP && s.spn.refclk

/-- The CRC-8 of a die word: over its sequence number, type and payload (R35). -/
def dieCrc (seq typ payload : Nat) : Nat := crc8 (beBytes 1 seq ++ beBytes 1 typ ++ beBytes 8 payload)
/-- Send a word to a die: it takes the next sequence number, which enters its CRC, and the 64-word replay buffer (R35, R37). -/
def State.dieSend (s : State) (d typ payload : Nat) : State :=
  if s.dieUp d then
    let x := s.dl d
    let rb := x.replay ++ [(typ, payload)]
    (s.setDl d { x with txSeq := (x.txSeq + 1) % 256, replay := rb.drop (rb.length - 64) }).emit
      (.dieWord d typ payload (dieCrc x.txSeq typ payload))
  else s
/-- Send a register write to a die (Table 1.4). -/
def State.dieWrite (s : State) (d : Nat) (w : Nat × Word) : State := s.dieSend d 0x10 (w.1 * 2 ^ 32 + w.2.toNat)
/-- Time in which a die link carries one word: 25,000,000 words per second (R35). -/
def dieWordU : Nat := 40 * nsU
/-- A core cycle with no command waiting (log 8): at each word time of the links that are up HD, having nothing else to send, sends an
idle word (R35). -/
def State.idleCycle (s : State) : State :=
  let t := s.pass nsU
  if s.lt / dieWordU < t.lt / dieWordU then t.forEach (List.range 4) (fun s d => s.dieSend d 0x3F 0) else t

/-- The region an address of the FE-resident blocks belongs to (R39); the die of a region is g / 2 (R10). -/
def regionOfAddr (a : Nat) : Nat :=
  if a < 0x00200000 then ((a - 0x00100000) / 0x1000) / 6
  else if a < 0x01000000 then (a - 0x00200000) / 0x1000
  else if a < 0x01800000 then ((a - 0x01000000) / 0x400) / 48
  else ((a - 0x01800000) / 0x400) / 6
/-- Die of a region. -/
def dieOf (g : Nat) : Nat := g / 2
/-- The address lies in a block that die `d` holds (R39, R448). -/
def feAddr (d a : Nat) : Bool := decide (0x00100000 ≤ a) && decide (a < 0x01A00000) && decide (dieOf (regionOfAddr a) = d)

/-- Send register writes that take effect together to their die: on a link that is up they are on their way; on one that is down
they are queued, up to 64, or all discarded and counted (R9, R38; log 64). Answers whether they were taken. -/
def State.feWrites (s : State) (d : Nat) (ws : List (Nat × Word)) : State × Bool :=
  let x := s.dl d
  if s.dieUp d then
    ((s.setDl d { x with toFe := x.toFe ++ ws }).forEach ws (fun s w => s.dieWrite d w), true)
  else if x.queued.length + ws.length ≤ 64 then (s.setDl d { x with queued := x.queued ++ ws }, true)
  else (s.bumpBy (R.DLK_STAT d) F.DLK_STAT_WDROP ws.length, false)

/-- A write of a register still waits: for its boundary, on its way to its die, or queued for a link that is down (R38, R39). -/
def State.feWaiting (s : State) (a : Nat) : Bool :=
  let x := s.dl (dieOf (regionOfAddr a))
  (s.rg (regionOfAddr a)).waiting.any (fun w => decide (w.1 = a)) || x.toFe.any (fun w => decide (w.1 = a))
    || x.queued.any (fun w => decide (w.1 = a))
/-- A CLR_SHUT waits for its boundary: the bit reads 1 until then (R17, R89). -/
def State.clrWaits (s : State) (c : Nat) : Bool :=
  let x := s.dl (c / 12)
  (s.rg (c / 6)).waiting.any (fun w => decide (w.1 = R.CLU_EXC_CTRL c) && w.2.1.toNat.testBit 5)
    || (x.toFe ++ x.queued).any (fun w => decide (w.1 = R.CLU_EXC_CTRL c) && w.2.toNat.testBit 5)
/-- A retest of a channel's unit, or of a spare, waits in the queue or runs: RETEST reads 1 until it is complete (R17). -/
def State.retesting (s : State) (ofSpare : Bool) (n : Nat) : Bool :=
  let x := s.rg (if ofSpare then n / 6 else rgnOf n)
  let is := fun (o : SteadyOp) => decide (o.kind = (if ofSpare then OpKind.sprRetest else OpKind.retest)) && decide (o.chan = n)
  x.queue.any is || x.running.any (fun r => is r.op)
/-- The words of a die's registers that show other state of the die: MHOLD, and the bits of actions that are not complete. -/
def State.dieDerived (s : State) (d : Nat) : List (Nat × Word) :=
  let put := fun (a : Nat) (f : Fld) (b : Bool) => (a, BitVec.ofNat 32 (putBits (s.reg a).toNat f.hi f.lo (b2n b)))
  (List.range 2).map (fun g => put (R.RGN_STAT (2 * d + g)) F.RGN_STAT_MHOLD (s.mains.hold && s.rgMains (2 * d + g)))
    ++ (List.range 12).map (fun c => put (R.CLU_EXC_CTRL (12 * d + c)) F.CLU_EXC_CTRL_CLR_SHUT (s.clrWaits (12 * d + c)))
    ++ (List.range 12).map (fun c => put (R.SPR_CTRL (12 * d + c)) F.SPR_CTRL_RETEST (s.retesting true (12 * d + c)))
    ++ (List.range 96).map (fun n => put (R.CH_STEADY_CTRL (96 * d + n)) F.CH_STEADY_CTRL_RETEST (s.retesting false (96 * d + n)))
/-- HD's shadow of a die's registers: what they show now (R38), but the status registers whose Steady event has not arrived (R157). -/
def State.dieView (s : State) (d : Nat) : Tab Word :=
  (s.dieDerived d ++ (s.rg (2 * d)).lag ++ (s.rg (2 * d + 1)).lag).foldl (fun t p => tabPut resetWord t p.1 p.2)
    (s.regs.filter (fun p => feAddr d p.1))
/-- The link of a die carries no words from now on: reads show its registers as HD knew them (R38, R66). A link that has stopped already
keeps what it showed then. -/
def State.dieFreeze (s : State) (d : Nat) : State :=
  if s.dieUp d then s.setDl d { s.dl d with shadow := s.dieView d } else s
/-- A link that was up when REFCLK was lost carries words again: the writes queued meanwhile follow those on their way (R66). -/
def State.dieResume (s : State) (d : Nat) : State :=
  if s.dieUp d then
    let x := s.dl d
    (s.setDl d { x with toFe := x.toFe ++ x.queued, queued := [], shadow := [] }).forEach x.queued (fun s w => s.dieWrite d w)
  else s

/-- The next grid mark HD owes its dies: the 10-second boundary it names, and when it is due (R51): at once after a step, else once in
each interval, between 9 s and 5 s before the boundary. -/
def State.gridDueAt (s : State) : Nat × Nat :=
  let b := (s.lt / gridU + 1) * gridU
  if s.spn.gridDue then (b, s.lt)
  else if s.lt ≤ b - 5 * secU ∧ s.spn.gridSent ≠ b then (b, max s.lt (b - 9 * secU))
  else (b + gridU, b + secU)

/-- GRID_MARK (R51): the ST of the next 10-second boundary goes to each die. -/
def execGridMark (s : State) : Res :=
  s.act! (if s.spn.refclk then
    let (b, due) := s.gridDueAt
    let s := s.moveTo due
    let s := s.forEach (List.range 4) (fun s d =>
      if s.dieUp d then (s.dieSend d 0x12 (stOf b)).setDl d { (s.dieSend d 0x12 (stOf b)).dl d with grid := stOf b } else s)
    { s with spn := { s.spn with gridDue := false, gridSent := if s.spn.gridDue then s.spn.gridSent else b } }
  else s)

/-- A die link goes down (R37, R38): UP clears, the event is counted and source 184 + d raised. Writes on their way stay there; reads
show the registers of the die as HD knew them until the link is up. -/
def State.dieDown (s : State) (d : Nat) : State :=
  if s.flag (R.DLK_STAT d) F.DLK_STAT_UP then
    let s := s.dieFreeze d
    let s := (s.setFlag (R.DLK_STAT d) F.DLK_STAT_UP false).bump (R.DLK_STAT d) F.DLK_STAT_DOWNCNT
    let s := s.setDl d { s.dl d with reads := [] }
    s.raiseD (184 + d) instHub 0
  else s

/-- Word types an FE die may send (Table 1.4). -/
def dieTypeOk (d typ : Nat) : Bool :=
  [0x01, 0x02, 0x03, 0x04, 0x05, 0x21, 0x22, 0x3F].contains typ || (decide (typ = 0x30) && decide (d = 0))
/-- A word from a die is good (R35, R37): a type of Table 1.4 and the CRC of the sequence number awaited. -/
def State.dieGood (s : State) (d typ payload crc : Nat) : Bool :=
  dieTypeOk d typ && decide (crc = dieCrc (s.dl d).rxSeq typ payload)
/-- A good word is counted and ends a discard. DESIGN CHOICE (log 65): the spec gives acknowledges no schedule; HD acknowledges every good
word but idle words and acknowledges. -/
def State.dieTake (s : State) (d typ : Nat) : State :=
  let x := s.dl d
  let s := s.setDl d { x with rxSeq := (x.rxSeq + 1) % 256, discarding := false, fails := 0 }
  if [0x21, 0x22, 0x3F].contains typ then s else s.dieSend d 0x21 x.rxSeq
/-- A good word sent behind the one awaited, whose words are being discarded: the CRC shows a later sequence number (R37; log 65). -/
def State.dieBehind (s : State) (d typ payload crc : Nat) : Bool :=
  (s.dl d).discarding && dieTypeOk d typ
    && (List.range 64).any (fun i => decide (crc = dieCrc (((s.dl d).rxSeq + i + 1) % 256) typ payload))
/-- A word that is not good (R37): the first is answered with a negative acknowledge naming the sequence number awaited; the words
sent behind it are discarded until its replay; a replay that fails is asked for again, and the eighth failed attempt takes
the link down (log 65). -/
def State.dieBad (s : State) (d typ payload crc : Nat) : State :=
  let x := s.dl d
  if s.dieBehind d typ payload crc then s
  else
    let s := (s.setDl d { x with discarding := true, fails := x.fails + 1 }).dieSend d 0x22 x.rxSeq
    if 8 ≤ x.fails + 1 then s.dieDown d else s
/-- A word arrives from a die and, if it is good, has its effect (R35, R37). -/
def State.dieReceive (s : State) (d typ payload crc : Nat) (f : State → State) : State :=
  if !s.dieUp d then s
  else if s.dieGood d typ payload crc then f (s.dieTake d typ)
  else s.dieBad d typ payload crc

/-- A replayed word goes out again with its original sequence number. -/
def State.dieResend (s : State) (d seq : Nat) : List (Nat × Nat) → State
  | [] => s
  | w :: ws => (s.emit (.dieWord d w.1 w.2 (dieCrc (seq % 256) w.1 w.2))).dieResend d (seq + 1) ws
/-- A negative acknowledge (R37): HD replays from the named word out of its buffer; a word asked for the eighth time has failed eight
attempts, and the link is down. -/
def State.dieNak (s : State) (d seq : Nat) : State :=
  let x := s.dl d
  let n := if x.nakSeq = seq then x.attempts + 1 else 1
  let s := s.setDl d { x with nakSeq := seq, attempts := n }
  if 8 ≤ n then s.dieDown d
  else
    let base := (x.txSeq + 256 - x.replay.length) % 256
    (s.bump (R.DLK_STAT d) F.DLK_STAT_RETRY).dieResend d seq (x.replay.drop ((seq + 256 - base) % 256))
/-- DIE_LINK_NAK_RX (R37). -/
def execDieLinkNakRx (d : Fin 4) (w : DieSeq) (s : State) : Res :=
  s.act! (s.dieReceive d.val 0x22 w.seq.val w.crc.val (fun s => s.dieNak d.val w.seq.val))

/-- DIE_LINK_ACK_RX (R37): the words up to the named sequence number are confirmed. -/
def execDieLinkAckRx (d : Fin 4) (w : DieSeq) (s : State) : Res :=
  s.act! (s.dieReceive d.val 0x21 w.seq.val w.crc.val (fun s =>
    let x := s.dl d.val
    let base := (x.txSeq + 256 - x.replay.length) % 256
    let k := (w.seq.val + 256 - base) % 256
    s.setDl d.val { x with acked := w.seq.val, attempts := 0,
                           replay := if k < x.replay.length then x.replay.drop (k + 1) else x.replay }))

/-- DIE_LINK_BAD_WORD (R37): a word that fails its CRC or carries a reserved type; a good idle word is counted, and a good word of another
type arrives by its own row (log 10). -/
def execDieLinkBadWord (d : Fin 4) (typ : Fin 256) (payload : BitVec 64) (crc : Fin 256) (s : State) : Res :=
  s.act! (if s.dieGood d.val typ.val payload.toNat crc.val && decide (typ.val ≠ 0x3F) then s
    else s.dieReceive d.val typ.val payload.toNat crc.val id)

/-- DIE_LINK_RETRY (R37): while the link is down HD tries link-up again. DESIGN CHOICE (log 65): the rule names no word; the model sends
one idle word with sequence number 0. -/
def execDieLinkRetry (d : Fin 4) (s : State) : Res :=
  s.act! (if s.flag (R.DLK_STAT d.val) F.DLK_STAT_UP then s
    else s.emit (.dieWord d.val 0x3F 0 (dieCrc 0 0x3F 0)))

end Sys2Proof.Machine
end

