-- ==== Sys2Proof/Machine/Flags.lean ====
section
/-! DEFINITION. The quality byte (R15, Table 0.6): its flags, their composition and their tests. -/
namespace Sys2Proof.Machine

def qInvalid : Nat := 0x80
def qOpen : Nat := 0x40
def qOver : Nat := 0x20
def qSuspect : Nat := 0x10
def qSettle : Nat := 0x08
def qSubst : Nat := 0x04
def qCaldue : Nat := 0x02
def qEvt : Nat := 0x01

/-- A flag when its condition holds. -/
def flagIf (b : Bool) (q : Nat) : Nat := if b then q else 0
/-- The quality byte has INVALID. -/
def isInvalid (q : Nat) : Bool := q.testBit 7
/-- The quality byte has OPEN. -/
def isOpen (q : Nat) : Bool := q.testBit 6
/-- The quality byte has SETTLE. -/
def isSettle (q : Nat) : Bool := q.testBit 3
/-- Add a flag to a quality byte; flags are independent (R15). -/
def qOr (a b : Nat) : Nat := a ||| b

end Sys2Proof.Machine
end

