-- ==== Sys2Proof/Machine/Operands.lean ====
section
/-! DEFINITION. The forms a sample takes (R13, R14, R173, R185) and the bytes of a row (R213). -/
namespace Sys2Proof.Machine

/-- The Wide pattern of an INVALID sample (R173). -/
def wideInvalid : Int := -2147483648
/-- Saturation of a valid Wide value (R13). -/
def satWide (v : Int) : Int := clampI (-2147483647) 2147483647 v
/-- A Wide value as a 32-bit word. -/
def wideWord (v : Int) : Nat := twos 32 v
/-- The 24-bit Compact value of a Wide value (R14). -/
def compact24 (v : Int) : Nat :=
  if v = wideInvalid then 0x800000 else twos 24 (clampI (-8388607) 8388607 ((v + 128) / 256))
/-- The Compact word: value and quality byte (R14). -/
def compactWord (v : Int) (q : Nat) : Nat :=
  (if isInvalid q then 0x800000 else compact24 v) * 256 + q % 256

/-- A member's value in a row: Wide value, quality byte, Scaled value. -/
abbrev RowVal := Int × Nat × Int
/-- The value of a member whose output does not exist (R215, R238). -/
def noVal : RowVal := (wideInvalid, 0x80, wideInvalid)

/-- Length of a row of `n` members (R212): 0 Compact, 1 Wide, 2 Scaled, 3 acts as Compact. -/
def rowBytes (fmt n : Nat) : Nat := if fmt = 1 ∨ fmt = 2 then 4 * n + 4 * ((n + 3) / 4) else 4 * n
/-- A format code as it acts. -/
def fmtAct (f : Nat) : Nat := if f = 3 then 0 else f
/-- The bytes of a row (R213). -/
def rowImage (fmt : Nat) (vs : List RowVal) : List Byte :=
  if fmt = 1 ∨ fmt = 2 then
    (vs.map (fun v => beBytes 4 (wideWord (if fmt = 2 then v.2.2 else v.1)))).flatten
      ++ vs.map (fun v => BitVec.ofNat 8 v.2.1)
      ++ List.replicate (4 * ((vs.length + 3) / 4) - vs.length) 0
  else (vs.map (fun v => beBytes 4 (compactWord v.1 v.2.1))).flatten

end Sys2Proof.Machine
end

