-- ==== Sys2Proof/Machine/Streams.lean ====
section
/-! DEFINITION. The stream contexts of chapter 9: rows and their names, the FIFO of units and its pointers, packets,
records and their fragments, spill pages, gaps, admission, confirmations and the gap store. -/
namespace Sys2Proof.Machine

/-- K in effect (Table 7.7: 0 acts as 1, above 4,096 as 4,096). -/
def State.chK (s : State) (n : Nat) : Nat := min (max (s.actFld (R.CH_PRC_CTRL n) F.CH_PRC_CTRL_K) 1) 4096
/-- D in effect (Table 7.7: 0 acts as 1, above 64 as 64). -/
def State.chD (s : State) (n : Nat) : Nat := min (max (s.actFld (R.CH_PRC_CTRL n) F.CH_PRC_CTRL_D) 1) 64
/-- Window length in packets in grid mode. -/
def State.rgLen (s : State) (g : Nat) : Nat := s.fld (R.RGN_WIN g) F.RGN_WIN_LEN
/-- Windows of a row at a tap (R214). -/
def State.rowWins (s : State) (tap n : Nat) : Nat :=
  if tap = 3 then s.chK n * s.chD n else if tap = 2 then s.chK n else 1
/-- P_row in packets of a channel in a grid-mode region (R214). -/
def State.rowPackets (s : State) (tap n : Nat) : Nat := s.rowWins tap n * s.rgLen (rgnOf n)

/-- The value of a channel at a tap in the row with a name; INVALID when it has none (R215). -/
def State.tapAt (s : State) (n tap name : Nat) : RowVal :=
  match (s.ch n).recent.find? (fun v => decide (v.tap = tap) && decide (v.name = name)) with
  | some v => (v.wide, v.qual, v.scaled)
  | none => noVal

/-- The first row at or after `lo` that a run of a region forms: one at whose boundary the region converts (R215, R238). -/
def rowInRun (p lo : Nat) (run : Nat × Option Nat) : Option Nat :=
  let name := (max lo run.1 + p - 1) / p * p
  match run.2 with
  | none => some name
  | some e => if name < e then some name else none

/-- The smaller of two optional names. -/
def optMin (a b : Option Nat) : Option Nat :=
  match a, b with
  | some x, some y => some (min x y)
  | some x, none => some x
  | none, y => y

/-- The first row name at or after `lo` of some runs; `p` is the row length in LT units. -/
def firstRow (runs : List (Nat × Option Nat)) (p lo : Nat) : Option Nat :=
  if p = 0 then none else runs.foldl (fun a r => optMin a (rowInRun p lo r)) none
/-- The next row name at or after `lo` over the member regions' runs. -/
def State.nextRowOf (s : State) (gs : List Nat) (p lo : Nat) : Option Nat :=
  firstRow ((gs.map (fun g => (s.rg g).runs)).flatten) p lo

/-- Every window that closes at or before `t` in these regions has been closed and its results have been delivered. -/
def State.rowReady (s : State) (chs : List Nat) (t : Nat) : Bool :=
  chs.all (fun n => (!s.runs (rgnOf n) || decide (t ≤ (s.rg (rgnOf n)).edge))
    && (s.ch n).expects.all (fun e => !e.delivers || decide (t < e.closeLt)))

/-- Members of a context in table order (R237). -/
def State.strMembers (s : State) (c : Nat) : List Nat :=
  (List.range (min (s.fld (R.STR_MEMB c) F.STR_MEMB_NCH) 64)).map
    (fun e => s.fld (R.STR_ML ((s.fld (R.STR_MEMB c) F.STR_MEMB_MLBASE + e) % 2048)) F.STR_ML_CHAN)
def State.strTap (s : State) (c : Nat) : Nat := s.fld (R.STR_CFG c) F.STR_CFG_TAP
def State.strFmt (s : State) (c : Nat) : Nat := fmtAct (s.fld (R.STR_CFG c) F.STR_CFG_FORMAT)
def State.strRecords (s : State) (c : Nat) : Bool := s.flag (R.STR_CFG c) F.STR_CFG_KIND
/-- The payload limit in bytes. -/
def State.strMax (s : State) (c : Nat) : Nat := s.fld (R.STR_CFG c) F.STR_CFG_MAXP * 32
/-- FLUSH in units of 100 us (Table 9.11: 0 acts as 1, above 10,000 as 10,000). -/
def State.strFlush (s : State) (c : Nat) : Nat := min (max (s.fld (R.STR_SEND c) F.STR_SEND_FLUSH) 1) 10000
def State.strState (s : State) (c : Nat) : Nat := s.fld (R.STR_STAT c) F.STR_STAT_STATE
def State.strPages (s : State) (c : Nat) : Nat := s.fld (R.STR_FIFO c) F.STR_FIFO_SIZE
/-- S, the FIFO's units (R243). -/
def State.strUnits (s : State) (c : Nat) : Nat := s.strPages c * 128
/-- The context's rows are timed rows (R237). -/
def State.strTimed (s : State) (c : Nat) : Bool :=
  match s.strMembers c with
  | n :: _ => s.rgMains (rgnOf n)
  | [] => false
/-- Row bytes with the name offset of a timed row: B' of R251. -/
def State.strRowLen (s : State) (c : Nat) : Nat :=
  rowBytes (s.strFmt c) (s.strMembers c).length + (if s.strTimed c then 8 else 0)
/-- P_row in packets; 0 for timed rows. -/
def State.strRow (s : State) (c : Nat) : Nat :=
  match s.strMembers c with
  | n :: _ => if s.strTimed c then 0 else s.rowPackets (s.strTap c) n
  | [] => 0
/-- FMT, header byte 31 (Table 9.4). -/
def State.strFmtByte (s : State) (c : Nat) : Nat :=
  s.strFmt c + 4 * s.strTap c + 16 * b2n (!s.strRecords c && s.strTimed c)

/-- Pages of Bowl held by buffers with ALLOC = 1 (R211). -/
def State.bowlHeld (s : State) (p : Nat) : Bool :=
  (List.range 16).any (fun b => s.flag (R.CAP_CFG b) F.CAP_CFG_ALLOC
    && decide (s.fld (R.CAP_BUF b) F.CAP_BUF_BASE ≤ p)
    && decide (p < s.fld (R.CAP_BUF b) F.CAP_BUF_BASE + s.fld (R.CAP_BUF b) F.CAP_BUF_PAGES))
/-- The page holds spilled units of some context. -/
def State.spillHeld (s : State) (p : Nat) : Bool := s.str.any (fun e => e.2.spill.any (fun q => decide (q.page = p)))
/-- Free pages of the spill pool (R211). -/
def State.spillFree (s : State) : List Nat :=
  (List.range 4096).filter (fun p => !s.bowlHeld p && !s.spillHeld p)
/-- Spill pages held by all contexts. -/
def State.spillPages (s : State) : Nat := s.str.foldl (fun a e => a + e.2.spill.length) 0

/-- Window address of unit ordinal `u` (R243, R453): in the FIFO, or in the spill page that holds it. -/
def State.unitAddr (s : State) (c u : Nat) : Nat :=
  match (s.st c).spill.find? (fun p => decide (p.first ≤ u) && decide (u < p.first + p.count)) with
  | some p => 0x04000000 + p.page * 4096 + 32 * (u - p.first)
  | none => 0x05000000 + s.fld (R.STR_FIFO c) F.STR_FIFO_BASE * 4096 + 32 * (u % max (s.strUnits c) 1)

/-- Keep a context's state and show it in its registers: pointers modulo 2S (R244), complete packets between SP and WP
(R245), spill pages (R255), and source 199 at 3/4 of S. -/
def State.putStr (s : State) (c : Nat) (x : StrState) : State :=
  let u := s.strUnits c
  let ptr := fun p => if u = 0 then 0 else p % (2 * u)
  let past := if 3 * u ≤ 4 * (x.wp - x.rp) ∧ 0 < u then true else if 2 * (x.wp - x.rp) < u then false else x.over34
  let rise := past && !x.over34
  let s := s.setStr c { x with over34 := past }
  let s := s.setFld (R.STR_WP c) F.STR_WP_WP (ptr x.wp)
  let s := s.setFld (R.STR_SP c) F.STR_SP_SP (ptr x.sp)
  let s := s.setFld (R.STR_RP c) F.STR_RP_RP (ptr x.rp)
  let pk := (x.pkts.filter (fun p => decide (x.sp ≤ p.first) && decide (p.first + p.units ≤ x.wp))).length
  let s := s.setFld (R.STR_FSTAT c) F.STR_FSTAT_PKTS (min pk 65535)
  let s := s.setFld (R.STR_FSTAT c) F.STR_FSTAT_SPILLPG x.spill.length
  let s := s.setFlag (R.STR_STAT c) F.STR_STAT_SPILLING (decide (x.spill ≠ []))
  let s := s.setFlag (R.STR_STAT c) F.STR_STAT_GAP x.gap.isSome
  if rise then s.raise 199 c else s

/-- Units of the FIFO that rows, records and descriptors may use: all but the reserve of R262. -/
def State.rowSpace (s : State) (c : Nat) : Nat := s.strUnits c - 4
/-- Copy the oldest spill page into the FIFO when the FIFO has room for all its units beside the reserve (R262), or is empty, and free the
page (R255; log 113). -/
def State.drainSpill (s : State) (c : Nat) : State :=
  let x := s.st c
  match x.spill with
  | [] => s
  | p :: rest =>
    if p.count + (x.wp - x.rp) ≤ s.rowSpace c ∨ (x.wp = x.rp ∧ p.count ≤ s.strUnits c) then
      let data := s.bytes (s.unitAddr c p.first) (32 * p.count)
      let s := s.putStr c { x with spill := rest, wp := x.wp + p.count }
      s.forEach (List.range p.count)
        (fun s i => s.setBytes (s.unitAddr c (p.first + i)) (bytesAt data (32 * i) 32))
    else s

/-- Copy spill pages into the FIFO as far as it has room, oldest first (R255). -/
def State.drainAll (s : State) (c : Nat) : State := s.forEach (s.st c).spill (fun s _ => s.drainSpill c)

/-- Bytes of the open packet that do not fill a unit yet take one (R245). -/
def State.openTail (s : State) (c : Nat) : Nat :=
  match (s.st c).cur with
  | some o => if o.payload.length % 32 = 0 then 0 else 1
  | none => 0
/-- Free units in the FIFO while no spill page is held: with `deep` the reserve of R262 counts. -/
def State.fifoRoom (s : State) (c : Nat) (deep : Bool) : Nat :=
  let x := s.st c
  if x.spill = [] then (if deep then s.strUnits c else s.rowSpace c) - (x.wp - x.rp) else 0
/-- Free units of the spill page being written (R255). -/
def State.pageRoom (s : State) (c : Nat) : Nat :=
  match (s.st c).spill.getLast? with
  | some p => 128 - p.count
  | none => 0
/-- A context has reserved units of a new spill page: for its open packet (R256), or, while it holds pages, for the record of R262. -/
def State.pageOwed (s : State) (c : Nat) : Bool :=
  s.flag (R.STR_CFG c) F.STR_CFG_SPILL
    && ((decide (s.openTail c = 1) && decide (s.fifoRoom c false = 0) && decide (s.pageRoom c = 0))
      || (decide ((s.st c).spill ≠ []) && decide (s.pageRoom c < 4 + s.openTail c)))
/-- Units in free spill pages that no other context has reserved. -/
def State.poolRoom (s : State) (c : Nat) : Nat :=
  let owed := (s.str.filter (fun e => decide (e.1 ≠ c) && s.pageOwed e.1)).length
  if s.flag (R.STR_CFG c) F.STR_CFG_SPILL then 128 * (s.spillFree.length - owed) else 0
/-- Free units as R256 counts them: free FIFO units and with SPILL the free units of spill pages, each less the reserve of R262 unless
`deep`. While pages are held every unit goes to one (R255), so the FIFO's units then count only once they are drained, and the reserve is
four units of the pages (log 113). -/
def State.roomFor (s : State) (c : Nat) (deep : Bool) : Nat :=
  s.fifoRoom c deep + (s.pageRoom c + s.poolRoom c - (if deep then 0 else 4)) - s.openTail c
/-- Free units for rows, records and descriptors. -/
def State.freeUnits (s : State) (c : Nat) : Nat := s.roomFor c false
/-- Free units for the record of R262. -/
def State.freeAll (s : State) (c : Nat) : Nat := s.roomFor c true

/-- Write a unit at the next place and answer that it was stored: in the FIFO, else in the spill page being written or the lowest free
page (R255). The check of R256 has found the room. -/
def State.storeUnit (s : State) (c : Nat) (deep : Bool) (bs : List Byte) : State :=
  let x := s.st c
  let u := x.wr
  let put := fun (s : State) => s.setBytes (s.unitAddr c u) (bytesAt bs 0 32)
  if 0 < s.fifoRoom c deep then put (s.putStr c { x with wp := x.wp + 1, wr := x.wr + 1 })
  else match x.spill.getLast?, s.spillFree with
    | some p, q :: _ =>
      if p.count < 128 then
        put (s.putStr c { x with spill := x.spill.dropLast ++ [{ p with count := p.count + 1 }], wr := x.wr + 1 })
      else put (s.putStr c { x with spill := x.spill ++ [⟨q, x.wr, 1⟩], wr := x.wr + 1 })
    | some p, [] =>
      if p.count < 128 then
        put (s.putStr c { x with spill := x.spill.dropLast ++ [{ p with count := p.count + 1 }], wr := x.wr + 1 })
      else s
    | none, q :: _ => put ((s.putStr c { x with spill := [⟨q, x.wr, 1⟩], wr := x.wr + 1 }).raise 198 c)
    | none, [] => s

/-- Write the bytes of unit ordinal `u`. -/
def State.putUnit (s : State) (c u : Nat) (bs : List Byte) : State := s.setBytes (s.unitAddr c u) (bytesAt bs 0 32)

/-- Open a packet: reserve its header unit (R245). -/
def State.openPkt (s : State) (c ptype name idx : Nat) (deep : Bool) : State :=
  let first := (s.st c).wr
  let s := s.storeUnit c deep []
  s.setStr c { s.st c with cur := some ⟨ptype, first, [], name, 0, idx, 0, name, s.lt, deep⟩ }

/-- Append bytes to the open packet; units are placed as they become complete. -/
def State.putPayload (s : State) (c : Nat) (bs : List Byte) : State :=
  match (s.st c).cur with
  | none => s
  | some o =>
    let pl := o.payload ++ bs
    let s := s.setStr c { s.st c with cur := some { o with payload := pl } }
    let n0 := o.payload.length / 32
    let n1 := pl.length / 32
    s.forEach (List.range (n1 - n0)) (fun s i => s.storeUnit c o.deep (bytesAt pl (32 * (n0 + i)) 32))

/-- The packet header of Table 9.4. -/
def State.pktHeader (s : State) (c : Nat) (o : OpenPkt) (start stop : Bool) : List Byte :=
  beBytes 1 1 ++ beBytes 1 o.ptype ++ beBytes 1 s.timeStatus ++ beBytes 1 (2 * b2n start + 4 * b2n stop)
    ++ beBytes 2 s.hubId ++ beBytes 2 c ++ beBytes 4 (s.reg (R.STR_PSEQ c)).toNat ++ ltBytes o.name
    ++ beBytes 2 o.count ++ beBytes 2 o.payload.length ++ beBytes 1 ((s.st c).starts % 256)
    ++ beBytes 1 (s.strFmtByte c)

/-- Close the open packet: place its last unit, write its header and count it (R245, R247, R248). -/
def State.closePkt (s : State) (c : Nat) (stop : Bool) (gapOnly : Bool) : State :=
  match (s.st c).cur with
  | none => s
  | some o =>
    let tail := o.payload.length % 32
    let s := if tail = 0 then s else s.storeUnit c o.deep (bytesAt o.payload (o.payload.length - tail) tail)
    let hd := s.pktHeader c o (s.st c).fresh stop
    let s := s.putUnit c o.first hd
    let x := s.st c
    let pkt : Pkt :=
      { pseq := (s.reg (R.STR_PSEQ c)).toNat, first := o.first, units := x.wr - o.first, bytes := hd ++ o.payload,
        idxFirst := o.idxFirst, items := o.items, ltFirst := o.name, ltLast := o.ltLast, gapOnly := gapOnly,
        coded := false, sent := false, passed := false }
    let s := s.setReg (R.STR_PSEQ c) (s.reg (R.STR_PSEQ c) + 1)
    s.putStr c { x with cur := none, fresh := false, pkts := x.pkts ++ [pkt] }

/-- ICNT of a context. -/
def State.strIcnt (s : State) (c : Nat) : Nat := s.pair (R.STR_ICNT c) (R.STR_ICNT_HI c)
def State.setIcnt (s : State) (c v : Nat) : State := s.setPair (R.STR_ICNT c) (R.STR_ICNT_HI c) v

/-- A STREAM_GAP record (Table 9.8). -/
def State.gapRecord (s : State) (c : Nat) (g : GapInfo) : List Byte :=
  let last := if g.count = 0 then 0 else g.idxFirst + g.count - 1
  let first := if g.count = 0 then 0 else g.idxFirst
  beBytes 1 0x50 ++ beBytes 1 s.timeStatus ++ beBytes 1 (b2n (decide (g.cause = 2))) ++ beBytes 1 g.cause
    ++ beBytes 2 s.hubId ++ beBytes 2 c ++ ltBytes g.ltFirst ++ ltBytes g.ltLast ++ beBytes 8 first ++ beBytes 8 last
    ++ beBytes 8 g.count ++ beBytes 4 (if s.strRecords c then 0 else (s.strMembers c).length)

/-- A container: FLEN, KIND, CFLAGS, RSEQ and the fragment (R247). -/
def container (kind : Nat) (first last : Bool) (rseq : Nat) (frag : List Byte) : List Byte :=
  beBytes 2 frag.length ++ beBytes 1 kind ++ beBytes 1 (b2n first + 2 * b2n last) ++ beBytes 4 rseq ++ frag

/-- Append a records packet that holds one STREAM_GAP record, closing the open packet first (R247); that of R262 may take the
reserve. -/
def State.appendGap (s : State) (c : Nat) (g : GapInfo) : State :=
  let s := s.closePkt c false false
  let s := s.openPkt c 2 g.ltFirst g.idxFirst (decide (g.cause = 4))
  let s := s.putPayload c (container 0x50 true true (s.st c).rseq (s.gapRecord c g))
  let x := s.st c
  let s := s.setStr c { x with
    rseq := (x.rseq + 1) % 2 ^ 32,
    cur := x.cur.map (fun o => { o with count := 1, items := g.count, ltLast := g.ltLast }) }
  s.closePkt c false true

/-- The descriptor payload (R249). -/
def State.descriptor (s : State) (c : Nat) : List Byte :=
  let ms := s.strMembers c
  beBytes 8 (s.strRow c) ++ beBytes 2 ms.length ++ beBytes 1 (s.strFmtByte c) ++ beBytes 1 0
    ++ beBytes 2 (s.strMax c) ++ beBytes 2 (s.st c).starts ++ (ms.map (beBytes 2)).flatten
    ++ List.replicate (2 * (ms.length % 2)) 0
/-- Units of a descriptor packet. -/
def State.descUnits (s : State) (c : Nat) : Nat := 1 + ((s.descriptor c).length + 31) / 32

/-- Append a descriptor packet; the next period counts from here (R249). -/
def State.appendDesc (s : State) (c : Nat) : State :=
  let s := s.closePkt c false false
  let s := s.openPkt c 3 (s.st c).startLt 0 false
  let s := s.putPayload c (s.descriptor c)
  let s := s.setStr c { s.st c with cur := (s.st c).cur.map (fun o => { o with count := 1 }) }
  let s := s.closePkt c false false
  let per := s.fld (R.STR_CFG c) F.STR_CFG_DESC_PER
  s.setStr c { s.st c with descWaits := false, descAt := if per = 0 then none else some (s.lt + secU * per) }

/-- How a record of `n` bytes is cut behind `len` payload bytes: for each fragment whether it opens a packet, and its
length (R247: 4-byte boundaries, each fragment in an 8-byte container). -/
def cutRecord (maxB : Nat) : Nat → Bool → Nat → Nat → List (Bool × Nat)
  | 0, _, _, _ => []
  | fuel + 1, fresh, len, n =>
    let room := (maxB - len - 8) / 4 * 4
    if n ≤ maxB - len - 8 ∧ len + 8 ≤ maxB then [(fresh, n)]
    else if len + 12 ≤ maxB then (fresh, room) :: cutRecord maxB fuel true 0 (n - room)
    else if fresh ∧ len = 0 then []
    else cutRecord maxB fuel true 0 n

/-- Payload length and presence of an open packet of a type. -/
def State.openLen (s : State) (c ptype : Nat) : Option Nat :=
  match (s.st c).cur with
  | some o => if o.ptype = ptype then some o.payload.length else none
  | none => none

/-- Units a cut record takes. -/
def cutUnits : Nat → List (Bool × Nat) → Nat
  | _, [] => 0
  | len, (fresh, n) :: r =>
    if fresh then 1 + (n + 8 + 31) / 32 + cutUnits (n + 8) r
    else (len + n + 8 + 31) / 32 - (len + 31) / 32 + cutUnits (len + n + 8) r

/-- The plan of a record in a context. -/
def State.recPlan (s : State) (c n : Nat) : List (Bool × Nat) :=
  cutRecord (s.strMax c) (n + 2) (s.openLen c 2).isNone ((s.openLen c 2).getD 0) n

/-- Store a record's fragments. -/
def State.storeFrags (s : State) (c kind lt idx rseq : Nat) (bs : List Byte) :
    Bool → List (Bool × Nat) → State
  | _, [] => s
  | first, (fresh, n) :: r =>
    let s := if fresh then (s.closePkt c false false).openPkt c 2 lt idx false else s
    let s := s.putPayload c (container kind first r.isEmpty rseq (bs.take n))
    let s := s.setStr c { s.st c with cur := (s.st c).cur.map (fun o =>
      { o with count := o.count + 1, items := idx + 1 - o.idxFirst, ltLast := lt }) }
    s.storeFrags c kind lt idx rseq (bs.drop n) false r

/-- The next row continues the open samples packet (R247). -/
def State.rowContinues (s : State) (c name : Nat) : Bool :=
  match (s.st c).cur with
  | some o => decide (o.ptype = 1) && decide (o.payload.length + s.strRowLen c ≤ s.strMax c)
      && (s.strTimed c || decide (o.ltLast + s.strRow c * pktU = name))
  | none => false
/-- Units a row takes. -/
def State.rowUnits (s : State) (c name : Nat) : Nat :=
  match (s.st c).cur, s.rowContinues c name with
  | some o, true => (o.payload.length + s.strRowLen c + 31) / 32 - (o.payload.length + 31) / 32
  | _, _ => 1 + (s.strRowLen c + 31) / 32

/-- An item to append: a row or a record. -/
inductive Item
  | row (bytes : List Byte)
  | record (kind : Nat) (bytes : List Byte)

/-- Units an item takes in packets of its own, behind a packet that is closed. -/
def State.freshUnits (s : State) (c : Nat) (it : Item) : Nat :=
  match it with
  | .row _ => 1 + (s.strRowLen c + 31) / 32
  | .record _ bs => cutUnits 0 (cutRecord (s.strMax c) (bs.length + 2) true 0 bs.length)
/-- Units an item takes. -/
def State.itemUnits (s : State) (c lt : Nat) (it : Item) : Nat :=
  match it with
  | .row _ => s.rowUnits c lt
  | .record _ bs => cutUnits ((s.openLen c 2).getD 0) (s.recPlan c bs.length)

/-- Store an item whose room has been found. -/
def State.storeItem (s : State) (c lt idx : Nat) (it : Item) : State :=
  match it with
  | .row bs =>
    let s := if s.rowContinues c lt then s else (s.closePkt c false false).openPkt c 1 lt idx false
    let off := match (s.st c).cur with
      | some o => lt - o.name
      | none => 0
    let s := s.putPayload c ((if s.strTimed c then beBytes 8 off else []) ++ bs)
    s.setStr c { s.st c with cur := (s.st c).cur.map (fun o =>
      { o with count := o.count + 1, items := o.items + 1, ltLast := lt }) }
  | .record kind bs =>
    let rseq := (s.st c).rseq
    let s := s.storeFrags c kind lt idx rseq bs true (s.recPlan c bs.length)
    s.setStr c { s.st c with rseq := (rseq + 1) % 2 ^ 32 }

/-- Append the STREAM_GAP records that wait, in order, as far as they fit (R259, R260). -/
def State.appendGaps (s : State) (c : Nat) : List GapInfo → State
  | [] => s
  | g :: gs =>
    if 4 ≤ s.freeUnits c then
      let s := s.setStr c { s.st c with gapWaits := gs }
      (s.appendGap c g).appendGaps c gs
    else s
/-- Append what waits for room: the STREAM_GAP records, and then a stop packet (R260). -/
def State.appendWaits (s : State) (c : Nat) : State :=
  let s := (s.drainAll c).appendGaps c (s.st c).gapWaits
  match (s.st c).stopWaits with
  | some t =>
    if (s.st c).gapWaits = [] ∧ 1 ≤ s.freeUnits c then
      let s := (s.openPkt c 2 t (s.strIcnt c) false).closePkt c true false
      s.setStr c { s.st c with stopWaits := none }
    else s
  | none => s

/-- A gap ends (R257): its STREAM_GAP record, a waiting descriptor if there is room for it and the item (R249), and the item. -/
def State.gapEnds (s : State) (c lt idx : Nat) (it : Item) (g : GapInfo) : State :=
  let s := (s.setStr c { s.st c with gap := none }).appendGap c g
  let s := if (s.st c).descWaits ∧ s.descUnits c + s.freshUnits c it ≤ s.freeUnits c then s.appendDesc c else s
  s.storeItem c lt idx it
/-- A gap begins (R256): the open packet closes, GAPCNT and source 197. -/
def State.gapBegins (s : State) (c lt idx : Nat) : State :=
  let s := s.closePkt c false false
  let s := s.putStr c { s.st c with gap := some ⟨1, lt, lt, idx, 1⟩ }
  (s.bump (R.STR_STAT c) F.STR_STAT_GAPCNT).raise 197 c
/-- An item arrives (R256, R257, R249): it is counted; a gap begins when it does not fit and ends when an eighth of the
FIFO is free, after its STREAM_GAP record; a waiting descriptor goes before it when there is room for both. -/
def State.itemArrives (s : State) (c lt : Nat) (it : Item) : State :=
  let idx := s.strIcnt c
  let s := (s.setIcnt c (idx + 1)).appendWaits c
  match (s.st c).gap with
  | some g =>
    if (s.st c).gapWaits = [] ∧ s.strPages c * 4096 / 8 ≤ 32 * s.freeUnits c ∧ s.freshUnits c it + 4 ≤ s.freeUnits c then
      s.gapEnds c lt idx it g
    else s.putStr c { s.st c with gap := some { g with ltLast := lt, count := g.count + 1 } }
  | none =>
    let s := if (s.st c).descWaits ∧ s.descUnits c + s.freshUnits c it ≤ s.freeUnits c then s.appendDesc c else s
    if (s.st c).gapWaits = [] ∧ s.itemUnits c lt it ≤ s.freeUnits c then s.storeItem c lt idx it
    else s.gapBegins c lt idx

/-- Route a record to a context (R239, R240): stored, or counted in NOROUTE with source 200. -/
def State.route (s : State) (en : Bool) (c kind lt : Nat) (bs : List Byte) : State :=
  if en && decide (s.strState c = 1) && s.strRecords c then s.itemArrives c lt (.record kind bs)
  else (s.bump R.STR_GSTAT F.STR_GSTAT_NOROUTE).raiseHub 200
/-- The context of the records of a channel. -/
def State.recordCh (s : State) (n kind lt : Nat) (bs : List Byte) : State :=
  s.route (s.flag (R.CH_EVT_STR n) F.CH_EVT_STR_EN) (s.fld (R.CH_EVT_STR n) F.CH_EVT_STR_STR) kind lt bs

/-- A sequencer event record (Table 9.3) of a region. -/
def State.seqRecord (s : State) (g lt payload : Nat) : State :=
  s.route (s.flag (R.RGN_SEQ_STR g) F.RGN_SEQ_STR_EN) (s.fld (R.RGN_SEQ_STR g) F.RGN_SEQ_STR_STR) 0x40 lt
    (beBytes 1 0x40 ++ beBytes 1 s.timeStatus ++ beBytes 1 g ++ beBytes 1 0 ++ beBytes 2 s.hubId ++ beBytes 2 0
      ++ ltBytes lt ++ beBytes 8 payload ++ beBytes 2 0)

/-- A comparator event record (Table 9.2). -/
def State.cmpRecord (s : State) (n kind novr lt : Nat) : State :=
  s.recordCh n kind lt
    (beBytes 1 kind ++ beBytes 1 s.timeStatus ++ beBytes 2 n ++ beBytes 2 s.hubId ++ beBytes 2 (min novr 0xFFFF)
      ++ ltBytes lt ++ beBytes 2 0)

/-- Ceiling of a quotient; 0 when the divisor is 0. -/
def ceilDiv (a b : Nat) : Nat := if b = 0 then 0 else (a + b - 1) / b

/-- The members of a samples context break R237 (cause 0x3). -/
def State.membersBad (s : State) (c : Nat) : Bool :=
  let nch := s.fld (R.STR_MEMB c) F.STR_MEMB_NCH
  let ms := s.strMembers c
  let tap := s.strTap c
  decide (nch < 1) || decide (64 < nch) || ms.any (fun n => decide (383 < n))
    || (decide (s.strFmt c = 2) && decide (tap ≠ 3))
    || (match ms with
        | [] => true
        | m :: _ =>
          if s.strTimed c then ms.any (fun n => decide (rgnOf n ≠ rgnOf m) || decide (s.chK n ≠ s.chK m)
              || decide (s.chD n ≠ s.chD m))
          else ms.any (fun n => s.rgMains (rgnOf n) || decide (s.rowPackets tap n ≠ s.rowPackets tap m)))

/-- Cause 0x3 or 0x4 of Table 9.5. -/
def State.strBad (s : State) (c : Nat) : Option Nat :=
  let m := s.fld (R.STR_CFG c) F.STR_CFG_MAXP
  if !s.strRecords c && s.membersBad c then some 3
  else if m < 2 ∨ 280 < m ∨ (!s.strRecords c && decide (s.strMax c < s.strRowLen c)) then some 4
  else none

/-- Row rate as a fraction (R251): rows per `den` seconds. -/
def State.rowRate (s : State) (c : Nat) : Nat × Nat :=
  match s.strMembers c with
  | [] => (0, 1)
  | n :: _ =>
    if s.strTimed c then (65, max (s.fld (R.RGN_WIN (rgnOf n)) F.RGN_WIN_MCYC * (s.chK n * s.chD n)) 1)
    else (20480000, max (s.strRow c) 1)

/-- Rows per packet, q (R251). -/
def State.rowsPerPkt (s : State) (c : Nat) : Nat :=
  let (num, den) := s.rowRate c
  min (s.strMax c / max (s.strRowLen c) 1) (max 1 (s.strFlush c * num / (10000 * den)))

/-- F and V, rounded up to whole bytes per second; 0 when cause 0x3 or 0x4 holds (R251). -/
def State.strRates (s : State) (c : Nat) : Nat × Nat :=
  if (s.strBad c).isSome then (0, 0)
  else if s.strRecords c then
    let rb := (s.reg (R.STR_RBUD c)).toNat
    let m := s.strMax c
    (ceilDiv (rb * (m + 64)) m, ceilDiv (rb * (m + 154)) m)
  else
    let (num, den) := s.rowRate c
    let q := s.rowsPerPkt c
    let b := s.strRowLen c
    (ceilDiv (num * (32 + 32 * ((q * b + 31) / 32))) (den * q), ceilDiv (num * (32 + q * b + 90)) (den * q))

/-- Contexts that are not STOPPED. -/
def State.strActive (s : State) : List Nat := (List.range 512).filter (fun c => decide (s.strState c ≠ 0))
/-- Sum of F over the contexts that are not STOPPED. -/
def State.strFsum (s : State) : Nat := s.strActive.foldl (fun a c => a + (s.strRates c).1) 0
/-- Sum of V over the contexts that are not STOPPED. -/
def State.strWsum (s : State) : Nat := s.strActive.foldl (fun a c => a + (s.strRates c).2) 0
/-- Pages held by contexts that are not STOPPED. -/
def State.strPoolPages (s : State) : Nat := s.strActive.foldl (fun a c => a + s.strPages c) 0

/-- The page ranges of two contexts meet. -/
def State.fifoMeets (s : State) (a b : Nat) : Bool :=
  let ba := s.fld (R.STR_FIFO a) F.STR_FIFO_BASE
  let bb := s.fld (R.STR_FIFO b) F.STR_FIFO_BASE
  decide (ba < bb + s.strPages b) && decide (bb < ba + s.strPages a)

/-- Destination entry `d` serves a hub with these addresses: valid, and its family has an address on a port (R323). -/
def State.dstValid (s : State) (d : Nat) (ports : List Nat) : Bool :=
  s.flag (R.DST_PORT d) F.DST_PORT_V
    && ports.any (fun p => if s.flag (R.DST_PORT d) F.DST_PORT_IP6 then
        (List.range 4).any (fun i => decide ((s.reg (R.NET_IP6 p i)).toNat ≠ 0))
      else decide ((s.reg (R.NET_IP4 p)).toNat ≠ 0))

/-- The lowest-numbered refusal cause of a start (Table 9.5); `gouge` says that Gouge refuses the context. The sums hold a context that
is not STOPPED already. -/
def State.startCause (s : State) (c : Nat) (gouge : Bool) : Option Nat :=
  let (f, v) := s.strRates c
  let new := b2n (decide (s.strState c = 0))
  let bad := s.strBad c
  let budget := (s.reg R.STR_BUDGET).toNat
  if s.strPages c = 0 ∨ 2048 < s.fld (R.STR_FIFO c) F.STR_FIFO_BASE + s.strPages c
      ∨ s.strActive.any (fun d => decide (d ≠ c) && s.fifoMeets c d) then some 1
  else if bad = none ∧ s.strPages c * 4096 < ceilDiv (202 * f) 1000 + 32 * (s.fld (R.STR_CFG c) F.STR_CFG_MAXP + 1)
    then some 2
  else if bad.isSome then bad
  else if 40000000 < s.strFsum + new * f then some 5
  else if budget ≠ 0 ∧ budget < s.strWsum + new * v then some 6
  else if s.flag (R.STR_CFG c) F.STR_CFG_GGE ∧ gouge then some 7
  else if !s.dstValid (s.fld (R.STR_SEND c) F.STR_SEND_DST) [0, 1] then some 8
  else if s.strState c ≠ 0 ∨ s.gapStore.any (fun p => decide (p.ctx = c)) then some 9
  else none

/-- A stopped context frees its pages (R260). -/
def State.strStopped (s : State) (c : Nat) : State :=
  let x := s.st c
  let s := s.putStr c { x with spill := [], gap := none, gapWaits := [], stopWaits := none, aborted := false,
                               cur := none, pkts := [], wp := x.rp, sp := x.rp, wr := x.rp, descAt := none,
                               descWaits := false, lossAt := none }
  s.setFld (R.STR_STAT c) F.STR_STAT_STATE 0

/-- STOP_PENDING ends once RP = WP (R260). -/
def State.strSettle (s : State) (c : Nat) : State :=
  let x := s.st c
  if s.strState c = 2 ∧ x.pkts = [] ∧ x.cur = none ∧ x.gapWaits = [] ∧ x.stopWaits = none ∧ x.rp = x.wr then
    s.strStopped c
  else s

/-- The regions whose restart after a REFCLK loss a context awaits (R66, R259): those of its members, or all for a records context, which
has no members. -/
def State.lossWaits (s : State) (c : Nat) (gs : List Nat) : List Nat :=
  if s.strRecords c then gs else gs.filter (fun g => (s.strMembers c).any (fun n => decide (rgnOf n = g)))
/-- The REFCLK loss that a context started before the restart has to report (R259; log 84). -/
def State.lossAtStart (s : State) (c : Nat) : Option LossInfo :=
  let gs := s.lossWaits c ((List.range 8).filter (fun g => (s.rg g).restart))
  if s.spn.refclk && decide (gs = []) then none
  else some ⟨s.spn.lossLt, if s.spn.refclk then some s.spn.relockLt else none, gs, gs⟩
/-- Start a context (R243, R249, R252): empty FIFO, ICNT 0, the descriptor of a samples context. -/
def State.strStart (s : State) (c : Nat) (gouge : Bool) : State :=
  match s.startCause c gouge with
  | some cause =>
    let s := (s.setFlag (R.STR_STAT c) F.STR_STAT_CFGERR true).setFld (R.STR_STAT c) F.STR_STAT_CAUSE cause
    (s.bump R.STR_GSTAT F.STR_GSTAT_REFCNT).raise 196 c
  | none =>
    let s := s.setFld (R.STR_STAT c) F.STR_STAT_STATE 1
    let s := s.setIcnt c 0
    let s := s.putStr c { StrState.init with starts := ((s.st c).starts + 1) % 65536, startLt := s.lt, fresh := true,
                                             nextRow := s.lt, lossAt := s.lossAtStart c }
    if s.strRecords c then s else s.appendDesc c

/-- STOP (R260). -/
def State.strStop (s : State) (c : Nat) : State :=
  if s.strState c = 1 then
    let s := s.setFld (R.STR_STAT c) F.STR_STAT_STATE 2
    let x := s.st c
    let s := match x.cur with
      | some _ => s.closePkt c true false
      | none =>
        s.putStr c { x with gap := none, stopWaits := some s.lt,
                            gapWaits := x.gapWaits ++ x.gap.toList }
    (s.appendWaits c).strSettle c
  else s

/-- Items as the bounds of a STREAM_GAP record give them: index and LT of the first, index and LT of the last. -/
abbrev ItemSpan := (Nat × Nat) × (Nat × Nat)
/-- The span of `n` items from an index on; none of none. -/
def spanOf (idx ltFirst ltLast n : Nat) : List ItemSpan := if n = 0 then [] else [((idx, ltFirst), (idx + n - 1, ltLast))]
/-- The span over two spans. -/
def spanJoin (a b : ItemSpan) : ItemSpan :=
  (if b.1.1 < a.1.1 then b.1 else a.1, if a.2.1 < b.2.1 then b.2 else a.2)
/-- The gap an ABORT reports: every item not confirmed, and a gap that was running (R260, Table 9.8). -/
def State.abortGap (s : State) (c : Nat) : GapInfo :=
  let x := s.st c
  let held := (x.pkts.map (fun p => spanOf p.idxFirst p.ltFirst p.ltLast p.items)).flatten
    ++ (x.cur.toList.map (fun o => spanOf o.idxFirst o.name o.ltLast o.items)).flatten
    ++ ((x.gapWaits ++ x.gap.toList).map (fun g => spanOf g.idxFirst g.ltFirst g.ltLast g.count)).flatten
  match held with
  | [] => ⟨3, s.lt, s.lt, 0, 0⟩
  | a :: r =>
    let t := r.foldl spanJoin a
    ⟨3, t.1.2, t.2.2, t.1.1, t.2.1 + 1 - t.1.1⟩

/-- ABORT, and a second ABORT (R260, R261). -/
def State.strAbort (s : State) (c : Nat) : State :=
  let x := s.st c
  if s.strState c = 0 then s
  else if s.strState c = 2 ∧ x.aborted then
    if 32 ≤ s.gapStore.length then
      (s.setFlag (R.STR_STAT c) F.STR_STAT_ABLOST true).raise 197 c
    else
      let keep := x.pkts.find? (fun p => p.gapOnly)
      let s := { s with gapStore := s.gapStore ++ (keep.map (fun (p : Pkt) => GapPkt.mk c { p with sent := false })).toList }
      s.strStopped c
  else
    let g := s.abortGap c
    let s := s.putStr c { x with cur := none, pkts := [], gap := none, gapWaits := [], stopWaits := none, spill := [],
                                 sp := x.rp, wp := x.rp, wr := x.rp, aborted := true }
    let s := s.setFld (R.STR_STAT c) F.STR_STAT_STATE 2
    s.appendGap c g

/-- Pass the first `k` packets of a context: RP moves over them and their units are free (R246). -/
def State.passPkts (s : State) (c k : Nat) : State :=
  let x := s.st c
  match (x.pkts.take k).getLast? with
  | none => s
  | some p =>
    let rp := p.first + p.units
    s.putStr c { x with pkts := x.pkts.drop k, rp := rp, sp := max x.sp rp }
/-- Release packets: what waited for room is appended, and a stop may be complete (R246, R260). -/
def State.releasePkts (s : State) (c k : Nat) : State := ((s.passPkts c k).appendWaits c).strSettle c

/-- Packets up to and including the one with a PSEQ, among those sent. -/
def pktsUpTo (ps : List Pkt) (q : Nat) : Nat :=
  match ps.findIdx? (fun p => decide (p.pseq = q) && p.sent) with
  | some i => i + 1
  | none => 0

/-- A confirmation of PSEQ (R246, R261, R334): it confirms every earlier packet of the context, and a stored gap
packet with that PSEQ. -/
def State.confirm (s : State) (c pseq : Nat) : State :=
  let s := { s with gapStore := s.gapStore.filter (fun g => !(decide (g.ctx = c) && decide (g.pkt.pseq = pseq))) }
  s.releasePkts c (pktsUpTo (s.st c).pkts pseq)

/-- A drop entry (R262, R334): the named packet and every earlier one are released, and its items are reported by a
STREAM_GAP record with cause 0x4. -/
def State.dropPkt (s : State) (c pseq : Nat) : State :=
  let k := pktsUpTo (s.st c).pkts pseq
  match ((s.st c).pkts.take k).getLast? with
  | none => s
  | some p =>
    let s := s.passPkts c k
    let s := if p.items = 0 ∨ p.gapOnly then s
      else
        let g : GapInfo := ⟨4, p.ltFirst, p.ltLast, p.idxFirst, p.items⟩
        (if 4 ≤ s.freeAll c then s.appendGap c g
          else s.setStr c { s.st c with gapWaits := (s.st c).gapWaits ++ [g] }).raise 197 c
    (s.appendWaits c).strSettle c

/-- Rewind: SP returns to RP in every context, and every stored gap packet is sent again (R246, R261). -/
def State.rewind (s : State) : State :=
  let s := { s with gapStore := s.gapStore.map (fun (g : GapPkt) => { g with pkt := { g.pkt with sent := false } }) }
  s.forEach s.strActive (fun s c =>
    let x := s.st c
    s.putStr c { x with sp := x.rp, pkts := x.pkts.map (fun (p : Pkt) => { p with sent := false, passed := false }) })

/-- Append the row with a name (R238). -/
def State.appendRow (s : State) (c name : Nat) : State :=
  let vals := (s.strMembers c).map (fun n => s.tapAt n (s.strTap c) name)
  let s := s.itemArrives c name (.row (rowImage (s.strFmt c) vals))
  s.setStr c { s.st c with lastRow := some name }

/-- The end of the last run of a region that has stopped. -/
def State.runEnd (s : State) (g : Nat) : Option Nat := ((s.rg g).runs.getLast?).bind (fun r => r.2)
/-- Row boundaries of a mains-tracking region after a name: window numbers that are multiples of the row's windows, with the closing
edge (R187, R237); a row that a stop cuts short closes at the stop. -/
def State.timedRow (s : State) (g k lo : Nat) : Option (Nat × Nat) :=
  let ws := (s.rg g).wins
  let opens := ws.filter (fun w => decide (w.1 % max k 1 = 0) && decide (lo ≤ w.2))
  match opens with
  | a :: rest =>
    match rest.find? (fun b => decide (b.1 = a.1 + k)) with
    | some b => some (a.2, b.2)
    | none => (s.runEnd g).bind (fun e => if a.2 < e then some (a.2, e) else none)
  | [] => none

/-- The next row of a context: its name and its closing edge. -/
def State.strNext (s : State) (c : Nat) : Option (Nat × Nat) :=
  let ms := s.strMembers c
  match ms with
  | [] => none
  | m :: _ =>
    if s.strTimed c then s.timedRow (rgnOf m) (s.rowWins (s.strTap c) m) (s.st c).nextRow
    else
      let p := s.strRow c * pktU
      (s.nextRowOf ((ms.map rgnOf).eraseDups) p (s.st c).nextRow).map (fun n => (n, n + p))

/-- The runs of a region as R259 takes them: one that converted at the loss goes on. -/
def State.lossRuns (s : State) (conv : List Nat) (g : Nat) : List (Nat × Option Nat) :=
  let rs := (s.rg g).runs
  if conv.contains g then rs.dropLast ++ (rs.getLast?.map (fun r => (r.1, none))).toList else rs
/-- The names of the rows of some runs from `lo` on that lie before `hi`. -/
def rowNames (runs : List (Nat × Option Nat)) (p hi : Nat) : Nat → Nat → List Nat
  | 0, _ => []
  | fuel + 1, lo =>
    match firstRow runs p lo with
    | some n => if n < hi then n :: rowNames runs p hi fuel (n + p) else []
    | none => []
/-- First name, last name and number of the rows of some runs from `lo` on that lie before `hi`. The rows from the start of a run that
has not ended are counted, not listed. -/
def rowSpan (runs : List (Nat × Option Nat)) (p lo hi : Nat) : Option (Nat × Nat × Nat) :=
  match firstRow (runs.filter (fun r => r.2.isNone)) p lo with
  | none => none
  | some f =>
    let names := rowNames runs p (min f hi) ((min f hi - lo) / p + 1) lo
    let n := if f < hi then (hi - f + p - 1) / p else 0
    match names, n with
    | [], 0 => none
    | [], k + 1 => some (f, f + k * p, k + 1)
    | a :: r, 0 => some (a, (a :: r).getLast?.getD a, r.length + 1)
    | a :: r, k + 1 => some (a, f + k * p, r.length + 1 + k + 1)
/-- The missing rows of a REFCLK loss (R259): first and last name and count of the rows that would have been formed after the last
appended one and before the first row that opens at or after `newStart`. Of timed rows the length is that of the last windows, so they
are estimated. -/
def State.lossRows (s : State) (c newStart : Nat) (conv : List Nat) : Option (Nat × Nat × Nat) :=
  let ms := s.strMembers c
  let lo := (s.st c).nextRow
  match ms with
  | [] => none
  | m :: _ =>
    let gs := (ms.map rgnOf).eraseDups
    if s.strTimed c then
      let p := s.rowWins (s.strTap c) m * (s.rg (rgnOf m)).npk * pktU
      let first := ((s.rg (rgnOf m)).wins.find? (fun w => decide (w.1 % max (s.rowWins (s.strTap c) m) 1 = 0) && decide (lo ≤ w.2))).elim
        lo (fun w => w.2)
      if p = 0 ∨ newStart ≤ first then none
      else some (first, first + ((newStart - first + p - 1) / p - 1) * p, (newStart - first + p - 1) / p)
    else
      let p := s.strRow c * pktU
      if p = 0 then none
      else rowSpan ((gs.map (fun g => s.lossRuns conv g)).flatten) p lo ((newStart + p - 1) / p * p)

/-- The STREAM_GAP record of a REFCLK loss in a context (R259): the rows missing before those that open at or after `newStart`. A gap
that was running ends before it. -/
def State.lossGap (s : State) (c newStart : Nat) : State :=
  match (s.st c).lossAt with
  | none => s
  | some l =>
    let rows := if s.strRecords c ∨ l.conv = [] then none else s.lossRows c newStart l.conv
    let idx := s.strIcnt c
    let g : GapInfo := match rows with
      | some (a, b, k) => ⟨2, a, b, idx, k⟩
      | none => ⟨2, l.lossLt, l.relockLt.getD s.lt, 0, 0⟩
    let s := (s.setIcnt c (idx + g.count)).closePkt c false false
    let x := s.st c
    let s := s.putStr c { x with gap := none, gapWaits := x.gapWaits ++ x.gap.toList ++ [g], lossAt := none,
                                 nextRow := if rows.isSome then max x.nextRow newStart else x.nextRow }
    (s.appendWaits c).raise 197 c
/-- Contexts that have a REFCLK loss to report and await the restart of a region. -/
def State.lossFor (s : State) (g : Nat) : List Nat :=
  s.strActive.filter (fun c => (s.st c).lossAt.any (fun l => l.waits.contains g))
/-- The restart of a region after a REFCLK loss will not come (R66, R110): a context that awaits no other one reports the loss now, once
REFCLK is back (log 84). -/
def State.lossOff (s : State) (g : Nat) : State :=
  s.forEach (s.lossFor g) (fun s c =>
    match (s.st c).lossAt with
    | some l =>
      let ws := l.waits.filter (fun h => decide (h ≠ g))
      let s := s.setStr c { s.st c with lossAt := some { l with waits := ws } }
      if ws = [] ∧ l.relockLt.isSome then s.lossGap c s.lt else s
    | none => s)

end Sys2Proof.Machine
end

