-- ==== Sys2Proof/Machine/Steady.lean ====
section
/-! DEFINITION. Steady (sections 5.2, 5.3, 5.5): which converter delivers a channel, the queue of operations, cover and
hand-back, gaps, commitment, borrowing, preemption, LOST channels and spares. -/
namespace Sys2Proof.Machine

/-- Local index of a channel, and target value of a spare (chapter 5). -/
def localOf (n : Nat) : Nat := n % 48
/-- An operation of a spare, which has no channel. -/
def OpKind.ofSpare : OpKind → Bool
  | .sprCal => true
  | .sprRetest => true
  | _ => false
/-- The operation contains a calibration. -/
def OpKind.hasCal : OpKind → Bool
  | .imp => false
  | .subst => false
  | _ => true
/-- The operation contains an impedance check. -/
def OpKind.hasImp : OpKind → Bool
  | .imp => true
  | .calimp => true
  | _ => false

/-- The running operation of a channel. -/
def State.opOf (s : State) (n : Nat) : Option RunOp :=
  (s.rg (rgnOf n)).running.find? (fun r => !r.op.kind.ofSpare && decide (r.op.chan = n))
/-- The running operation of a spare. -/
def State.sprOp (s : State) (c : Nat) : Option RunOp :=
  (s.rg (c / 6)).running.find? (fun r => r.op.kind.ofSpare && decide (r.op.chan = c))
/-- Region of an operation. -/
def SteadyOp.region (o : SteadyOp) : Nat := if o.kind.ofSpare then o.chan / 6 else rgnOf o.chan
/-- Two running operations are the same one. -/
def RunOp.same (a b : RunOp) : Bool := decide (a.op.kind.ofSpare = b.op.kind.ofSpare) && decide (a.op.chan = b.op.chan)
/-- Keep a running operation. -/
def State.setOp (s : State) (r : RunOp) : State :=
  let g := r.op.region
  let x := s.rg g
  s.setRg g { x with running := x.running.map (fun q => if q.same r then r else q) }
/-- A running operation is over, now (R128). -/
def State.endOp (s : State) (r : RunOp) : State :=
  let g := r.op.region
  let x := s.rg g
  s.setRg g { x with running := x.running.filter (fun q => !q.same r), idleAt := s.lt }

/-- The converter that is a channel's own when no operation runs: its unit or the spare committed to it (R148). -/
def State.baseConv (s : State) (n : Nat) : Nat :=
  match (s.ch n).baseSpare with
  | some c => spareOf c
  | none => unitOf n
/-- A converter that converts: none when it has stopped (R103). -/
def State.going (s : State) (k : Nat) : Option Nat := if (s.cv k).stopped then none else some k
/-- The converter that delivers a channel's result (R21, R138, R148, R154). -/
def State.delivers (s : State) (n : Nat) : Option Nat :=
  let base := if (s.ch n).lost then none else s.going (s.baseConv n)
  match s.opOf n with
  | none => base
  | some r => match r.stage with
    | .cover => (r.spare.bind (fun c => s.going (spareOf c)))
    | .handback => (r.spare.bind (fun c => s.going (spareOf c)))
    | .watch => (r.spare.bind (fun c => s.going (spareOf c)))
    | .gap => none
    | _ => base
/-- The match of the delivering converter (R139, R140): MG and MO. -/
def State.matchOf (s : State) (n : Nat) : Rat × Int :=
  let base : Rat × Int := if (s.ch n).baseSpare.isSome then ((s.ch n).commitMg, (s.ch n).commitMo) else (1, 0)
  match s.opOf n with
  | none => base
  | some r => match r.stage with
    | .cover => (r.mg, r.mo)
    | .handback => (r.mg, r.mo)
    | .watch => (r.mg, r.mo)
    | _ => base

/-- Steady states of a channel (Table 5.11). -/
def State.steadyCode (s : State) (n : Nat) : Nat :=
  match s.opOf n with
  | none => if (s.ch n).lost then 5 else if (s.ch n).baseSpare.isSome then 4 else 0
  | some r => match r.stage with
    | .overlap => 1
    | .cover => 2
    | .watch => 2
    | .handback => 3
    | _ => if (s.ch n).lost then 5 else if (s.ch n).baseSpare.isSome then 4 else 0
/-- A status register that Steady sets changes at its die: HD's copy keeps the word it holds until the event arrives (R157; log 111). -/
def State.keepShown (s : State) (g a : Nat) : State :=
  let x := s.rg g
  if x.lag.any (fun e => decide (e.1 = a)) then s else s.setRg g { x with lag := x.lag ++ [(a, s.reg a)] }
/-- Show a channel's Steady state in CH_STEADY_STAT. -/
def State.showSteady (s : State) (n : Nat) : State :=
  let a := R.CH_STEADY_STAT n
  let s := s.keepShown (rgnOf n) a
  let s := s.setFld a F.CH_STEADY_STAT_STATE (s.steadyCode n)
  let s := s.setFlag a F.CH_STEADY_STAT_OVERDUE (s.ch n).overdue
  s.setFld a F.CH_STEADY_STAT_SRC (match s.delivers n with
    | none => 15
    | some k => if isSpare k then k / 9 % 6 + 1 else 0)

/-- Spare states (Table 5.12). -/
def spFree : Nat := 0
def spOverlap : Nat := 1
def spCover : Nat := 2
def spHandback : Nat := 3
def spCommitted : Nat := 4
def spFailed : Nat := 5
def spCalibrating : Nat := 6
def State.sprState (s : State) (c : Nat) : Nat := s.fld (R.SPR_STAT c) F.SPR_STAT_STATE
/-- Channel a spare serves. -/
def State.sprChan (s : State) (c : Nat) : Nat := 48 * (c / 6) + s.fld (R.SPR_STAT c) F.SPR_STAT_CHAN
/-- The spare serves a channel. -/
def State.sprServes (s : State) (c : Nat) : Bool := decide (1 ≤ s.sprState c) && decide (s.sprState c ≤ 4)

/-- The figures of RGN_STEADY_STAT (Table 5.10). -/
def State.showRegion (s : State) (g : Nat) : State :=
  let a := R.RGN_STEADY_STAT g
  let s := s.keepShown g a
  let st := (clusOf g).map s.sprState
  let s := s.setFld a F.RGN_STEADY_STAT_LOSTCNT ((chansOf g).filter (fun n => (s.ch n).lost)).length
  let s := s.setFld a F.RGN_STEADY_STAT_QLEN (s.rg g).queue.length
  let s := s.setFld a F.RGN_STEADY_STAT_BRW ((clusOf g).filter (fun c => s.flag (R.SPR_STAT c) F.SPR_STAT_BORROWED)).length
  let s := s.setFld a F.RGN_STEADY_STAT_COMMIT (st.filter (fun v => v = spCommitted ∨ v = spFailed)).length
  s.setFld a F.RGN_STEADY_STAT_FREE (st.filter (fun v => v = spFree)).length

/-- A spare takes a state, serving channel `n` when it serves one. -/
def State.setSpr (s : State) (c st : Nat) (n : Option Nat) : State :=
  let a := R.SPR_STAT c
  let s := s.keepShown (c / 6) a
  let s := s.setFld a F.SPR_STAT_STATE st
  let s := s.setFld a F.SPR_STAT_CHAN (match n with | some m => localOf m | none => 0)
  let s := s.setFlag a F.SPR_STAT_BORROWED (match n with | some m => decide (cluOf m ≠ c) | none => false)
  s.showRegion (c / 6)
/-- A spare becomes FREE, unless it is FAILED (R151); it serves again from the next boundary on, and substitutes from one at least 2 us on
(R148; log 85). -/
def State.freeSpr (s : State) (c : Nat) : State :=
  let g := c / 6
  if s.sprState c = spFailed then s
  else (s.setRg g { s.rg g with freed := (s.rg g).freed ++ [(c, s.lt)] }).setSpr c spFree none

/-- The boundary at which what happens now takes effect (Table 9.3): the present one, or, within an open window, the next; a region that
opens no windows has none, and the present instant stands for it (log 86). -/
def State.soon (s : State) (g : Nat) : Nat := if s.runs g && decide ((s.rg g).edge < s.lt) then (s.rg g).next else s.lt
/-- A Steady or sequencer event (Table 5.8) waits to cross the die link. WSEQ is the number of the window that opens at its boundary. -/
def State.seqEvent (s : State) (g code tgt arg idx detail lt : Nat) : State :=
  let w := (s.reg (R.RGN_WSEQ g)).toNat + b2n (s.runs g && decide ((s.rg g).edge < lt))
  let p := code * 2 ^ 60 + (g % 2) * 2 ^ 59 + (tgt % 256) * 2 ^ 48 + (arg % 65536) * 2 ^ 32 + (idx % 256) * 2 ^ 24
    + w % 16 * 2 ^ 20 + detail % 2 ^ 20
  s.setRg g { s.rg g with events := (s.rg g).events ++ [(p, lt)] }
def evMark : Nat := 1
def evOverlap : Nat := 2
def evSwap : Nat := 3
def evHandback : Nat := 4
def evCaldone : Nat := 5
def evImpdone : Nat := 6
def evSkip : Nat := 7
def evGap : Nat := 8
def evCommit : Nat := 9
def evLost : Nat := 10
def evHalt : Nat := 11

/-- An event of a Steady source (Table 5.9); the two tests of a match out of limits are those of its converters (R139, R395). -/
def State.raiseNow (s : State) (src inst : Nat) : State :=
  if src = 67 then
    let s := s.raise 67 inst
    s.setCh inst { s.ch inst with matchPair := [] }
  else s.raise src inst
/-- An event of a region's boundary: those of one boundary are gathered, to be raised by rising source and instance (R387). -/
def State.sraise (s : State) (g src inst : Nat) : State :=
  match (s.rg g).faults with
  | some l => s.setRg g { s.rg g with faults := some (l ++ [(src, inst)]) }
  | none => s.raiseNow src inst
/-- The events of a boundary are gathered from now on. -/
def State.gather (s : State) (g : Nat) (l : List (Nat × Nat)) : State := s.setRg g { s.rg g with faults := some l }
/-- The gathered events of a boundary are raised (R387). -/
def State.raiseGathered (s : State) (g : Nat) : State :=
  let l := ((s.rg g).faults.getD []).foldl (fun l e => insertEvent e l) []
  (s.setRg g { s.rg g with faults := none }).forEach l (fun s e => s.raiseNow e.1 e.2)

/-- OVL (Table 5.10: 0 acts as 1). -/
def State.ovl (s : State) (g : Nat) : Nat := max (s.fld (R.RGN_STEADY_CFG g) F.RGN_STEADY_CFG_OVL) 1
/-- The value lies beyond MATCH_THR ppm of full scale. -/
def State.matchBad (s : State) (g : Nat) (v : Rat) : Bool :=
  let thr : Rat := ((s.fld (R.RGN_STEADY_CFG g) F.RGN_STEADY_CFG_MATCH_THR : Nat) : Rat) * 2147483648 / 1000000
  decide (thr < v) || decide (v < -thr)
/-- Gain residual a converter holds for a gain code, in 0.01 ppm (R144). -/
def State.egOf (s : State) (k code : Nat) : Int :=
  if isSpare k then s.fldI (R.SPR_CALV (k / 9) code) F.SPR_CALV_EG else s.fldI (R.CH_CALV (chanOf k) code) F.CH_CALV_EG
/-- Gain code of a channel in effect. -/
def State.gainOf (s : State) (n : Nat) : Nat := s.actFld (R.CH_AIN n) F.CH_AIN_GAIN
/-- MG of a cover of a channel by a spare (R139): from the match and the residual of the converter that delivers it before, the spare
last committed to it, though that has failed, or its own unit. -/
def State.coverMg (s : State) (n c : Nat) : Rat :=
  let code := s.gainOf n
  let e := fun (k : Nat) => 1 + ((s.egOf k code : Int) : Rat) / 100000000
  match (s.ch n).matchBase with
  | some d => (s.ch n).commitMg * e (spareOf d) / e (spareOf c)
  | none => e (unitOf n) / e (spareOf c)
/-- Record the match of a cover (R139). -/
def State.showMatch (s : State) (n : Nat) (mg : Rat) (mo : Int) : State :=
  let s := (s.keepShown (rgnOf n) (R.CH_MATCH n)).keepShown (rgnOf n) (R.CH_MATCH_G n)
  (s.setReg (R.CH_MATCH n) (BitVec.ofInt 32 mo)).setReg (R.CH_MATCH_G n)
    (BitVec.ofInt 32 (roundAway ((mg - 1) * 100000000)))

/-- Borrow paths in use (R149). -/
def State.paths (s : State) (g : Nat) : Nat :=
  ((clusOf g).filter (fun c => s.flag (R.SPR_STAT c) F.SPR_STAT_BORROWED)).length
/-- A spare may be taken: FREE, and not released after `since`. -/
def State.sprReady (s : State) (since c : Nat) : Bool :=
  decide (s.sprState c = spFree) && (s.rg (c / 6)).freed.all (fun e => decide (e.1 ≠ c) || decide (e.2 ≤ since))
    && !(s.cv (spareOf c)).stopped
/-- Distance of two clusters. -/
def dist (a b : Nat) : Nat := (a - b) + (b - a)
/-- The nearest ready spare of the region but a cluster's own (R149). -/
def State.nearestSpr (s : State) (since c : Nat) : Option Nat :=
  ((clusOf (c / 6)).filter (fun d => decide (d ≠ c) && s.sprReady since d)).foldl
    (fun b d => match b with
      | none => some d
      | some e => if dist d c < dist e c then some d else some e) none
/-- The spare that serves a channel (R138, R149), released no later than `since`: own, else borrowed; `fail` for a substitution. -/
def State.findSpr (s : State) (since n : Nat) (fail : Bool) : Option Nat :=
  let c := cluOf n
  let g := rgnOf n
  let ownBase := decide ((s.ch n).baseSpare = some c)
  if s.sprReady since c && !ownBase then some c
  else
    let st := s.sprState c
    let may := ownBase || decide (st = spCommitted) || decide (st = spFailed)
      || (fail && decide (1 ≤ st) && decide (st ≤ 3))
    let en := if fail then s.flag (R.RGN_STEADY_CFG g) F.RGN_STEADY_CFG_BRW_FAIL
      else s.flag (R.RGN_STEADY_CFG g) F.RGN_STEADY_CFG_BRW_CAL
    if may && en && decide (s.paths g < 2) then s.nearestSpr since c else none
/-- An operation that no spare serves now may be served later (R153). -/
def State.canWait (s : State) (n : Nat) : Bool :=
  let c := cluOf n
  let g := rgnOf n
  let st := s.sprState c
  (decide ((s.ch n).baseSpare ≠ some c) && decide (st ≠ spCommitted) && decide (st ≠ spFailed))
    || (s.flag (R.RGN_STEADY_CFG g) F.RGN_STEADY_CFG_BRW_CAL
        && (clusOf g).any (fun d => decide (d ≠ c) && decide (s.sprState d ≠ spCommitted)
          && decide (s.sprState d ≠ spFailed)))
/-- Raise source 69 when the spare taken belongs to another cluster (R149). -/
def State.noteBorrow (s : State) (n c : Nat) : State := if cluOf n = c then s else s.sraise (rgnOf n) 69 (rgnOf n)

/-- The overdue state of a channel (R153). -/
def State.setOverdue (s : State) (n : Nat) (b : Bool) : State :=
  (s.setCh n { s.ch n with overdue := b }).setFlag (R.CH_STEADY_STAT n) F.CH_STEADY_STAT_OVERDUE b

/-- An operation is skipped (R153, R170): source 71, a SKIP event, overdue for a calibration, and code 0x7 of a check that had not
completed. -/
def State.skipOp (s : State) (o : SteadyOp) (checked : Bool) (lt : Nat) : State :=
  let n := o.chan
  let s := (s.sraise (rgnOf n) 71 n).seqEvent (rgnOf n) evSkip (localOf n) 0 o.idx 0 lt
  let s := if o.kind.hasCal then s.setOverdue n true else s
  if o.kind.hasImp && !checked then s.setFld (R.CH_IMP_STAT n) F.CH_IMP_STAT_RES 7 else s

/-- Calibrations and impedance checks merge; substitutions and retests merge with no other operation (R136, R155). -/
def OpKind.merging : OpKind → Bool
  | .cal => true
  | .imp => true
  | .calimp => true
  | .sprCal => true
  | _ => false
/-- Two operations merge in the queue (R136): the same target, and both of kinds that merge. -/
def SteadyOp.merges (a b : SteadyOp) : Bool :=
  decide (a.chan = b.chan) && decide (a.kind.ofSpare = b.kind.ofSpare) && a.kind.merging && b.kind.merging
/-- The merged operation. -/
def SteadyOp.merge (a b : SteadyOp) : SteadyOp :=
  { a with kind := if a.kind = b.kind then a.kind else .calimp, prio := min a.prio b.prio, full := a.full || b.full }
/-- Queue an operation (R136): merged, appended, or not queued because the queue is full. -/
def State.queueOp (s : State) (o : SteadyOp) : State × Bool :=
  let g := o.region
  let x := s.rg g
  if x.queue.any (fun q => q.merges o) then
    ((s.setRg g { x with queue := x.queue.map (fun q => if q.merges o then q.merge o else q) }).showRegion g, true)
  else if x.queue.length < 16 then ((s.setRg g { x with queue := x.queue ++ [o] }).showRegion g, true)
  else (s, false)
/-- Queue a request or an automatic operation: a full queue raises source 73 (R136). -/
def State.requestOp (s : State) (o : SteadyOp) : State :=
  let (s, ok) := s.queueOp o
  if ok then s else s.sraise o.region 73 o.region

/-- An operation leaves the queue, now (R128). -/
def State.unqueue (s : State) (g : Nat) (o : SteadyOp) : State :=
  let x := s.rg g
  s.setRg g { x with queue := x.queue.erase o, idleAt := s.lt, gone := if x.queue.contains o then x.gone ++ [s.lt] else x.gone }
/-- The substitution for a failed unit or a LOST channel, the operation of the highest priority (R136). -/
def substOp (n : Nat) : SteadyOp := ⟨.subst, n, 1, 0xFF, false⟩
/-- The converter of a channel has failed and its channel awaits a substitution. -/
def State.failed (s : State) (n : Nat) : Bool := (s.rg (rgnOf n)).fails.any (fun e => decide (e.1 = n))
/-- When the failure of a channel's converter became known. -/
def State.failedAt (s : State) (n : Nat) : Nat := (((s.rg (rgnOf n)).fails.find? (fun e => decide (e.1 = n))).map (fun e => e.2)).getD s.lt

/-- A running operation newly dispatched. -/
def newRun (o : SteadyOp) (unit : Nat) (spare : Option Nat) (st : OpStage) (lt : Nat) : RunOp :=
  { op := o, unit := unit, spare := spare, stage := st, left := 0, diff := 0, count := 0, mg := 1, mo := 0,
    startLt := lt, endLt := none, impDone := false, calDone := false, tries := 0, gapFirst := 0, gapCount := 0,
    gcode := 0, calAt := lt, waitTest := false }
def State.addRun (s : State) (r : RunOp) : State :=
  let g := r.op.region
  s.setRg g { s.rg g with running := (s.rg g).running ++ [r] }

/-- One check runs at a time in a cluster (R167). -/
def State.toneBusy (s : State) (n : Nat) : Bool :=
  (s.rg (rgnOf n)).running.any (fun r => r.op.kind.hasImp && !r.impDone && decide (cluOf r.op.chan = cluOf n))
/-- CH_EVT_CTRL.MODE in effect (R118). -/
def State.evtMode (s : State) (n : Nat) : Bool := s.actFlag (R.CH_EVT_CTRL n) F.CH_EVT_CTRL_MODE
def State.evtArmed (s : State) (n : Nat) : Bool := s.flag (R.CH_EVT_STAT n) F.CH_EVT_STAT_ARMED

/-- A spare takes over the comparator watch of a channel in event mode, and its unit is freed (R141). -/
def State.watchBy (s : State) (r : RunOp) (c lt : Nat) : State :=
  let n := r.op.chan
  let mo := (s.ch n).lastMo
  let s := (s.setOp { r with stage := .watch, mo := mo, startLt := lt, calAt := lt, diff := 0, count := 0 }).setSpr c spCover (some n)
  ((s.showMatch n r.mg mo).seqEvent (rgnOf n) evSwap (localOf n) (c % 6) r.op.idx 0 lt).showSteady n

/-- What dispatching an operation answers: taken from the queue, or left in it; substitutions are served before (R148). -/
def State.dispatchOne (s : State) (o : SteadyOp) (lt : Nat) : State × Bool :=
  if o.kind = OpKind.subst then (s, false)
  else if o.kind = OpKind.sprRetest then
    if s.sprState o.chan = spFailed then
      let k := spareOf o.chan
      let r := newRun o k none .selftest lt
      (((s.setSpr o.chan spCalibrating none).addRun { r with waitTest := true }).callTest 0xFF (.conv k) k, true)
    else (s, true)
  else if o.kind = OpKind.sprCal then
    if s.sprReady (lt - 1) o.chan then
      ((s.setSpr o.chan spCalibrating none).addRun (newRun o (spareOf o.chan) none .free lt), true)
    else (s, decide (s.sprState o.chan = spCommitted) || decide (s.sprState o.chan = spFailed))
  else
    let n := o.chan
    if (s.opOf n).isSome ∨ (s.ch n).lost ∨ s.failed n then (s, false)
    else if o.kind = OpKind.retest then
      if (s.ch n).baseSpare.isNone then (s, true)
      else
        let k := unitOf n
        (((s.addRun { newRun o k (s.ch n).baseSpare .selftest lt with waitTest := true }).callTest 0xFF (.conv k)
          k).showSteady n, true)
    else if o.kind.hasImp && s.toneBusy n then (s, false)
    else if s.evtMode n && !s.evtArmed n then (s, false)
    else
      match s.findSpr (lt - 1) n false with
      | some c =>
        let s := s.noteBorrow n c
        let r := { newRun o (s.baseConv n) (some c) .connect lt with mg := s.coverMg n c }
        if s.evtMode n then ((s.addRun r).watchBy r c lt, true)
        else (((s.addRun r).setSpr c spOverlap (some n)).showSteady n, true)
      | none =>
        if s.canWait n then (s, false)
        else if s.flag (R.RGN_STEADY_CFG (rgnOf n)) F.RGN_STEADY_CFG_GAPCAL then
          ((s.addRun { newRun o (s.baseConv n) none .connect lt with gapFirst := 1 }).showSteady n, true)
        else (s.skipOp o false lt, true)

/-- Operations in the order of dispatch: by priority, then by arrival (R136). -/
def byPrio (q : List SteadyOp) : List SteadyOp :=
  [1, 2, 3, 4, 5].flatMap (fun p => q.filter (fun o => decide (o.prio = p)))
/-- Dispatch at a boundary (R136, R138); in Doze queued operations wait (R433). -/
def State.dispatch (s : State) (g lt : Nat) : State :=
  if s.pwr.doze then s
  else
    (s.forEach (byPrio (s.rg g).queue) (fun s o =>
      let (s, taken) := s.dispatchOne o lt
      if taken then s.unqueue g o else s)).showRegion g

/-- The converters of a match raise source 67 with their two tests while the operation still stands (R139, R395). -/
def State.matchErr (s : State) (n : Nat) : State :=
  let s := s.setCh n { s.ch n with matchPair := s.matchConvs n }
  ((s.keepShown (rgnOf n) (R.CH_STEADY_STAT n)).setFlag (R.CH_STEADY_STAT n) F.CH_STEADY_STAT_MATCHERR true).sraise (rgnOf n) 67 n

/-- The overlap is complete (R139): the spare delivers, or the match is out of limits and the operation is skipped. -/
def State.swap (s : State) (r : RunOp) (c lt : Nat) : State :=
  let n := r.op.chan
  let g := rgnOf n
  let mo := if r.count = 0 then 0 else roundAway (r.diff / r.count)
  let s := s.setCh n { s.ch n with lastMo := mo }
  let s := s.showMatch n r.mg mo
  if s.matchBad g mo then
    let s := s.matchErr n
    ((((s.endOp r).freeSpr c)).skipOp r.op false lt).showSteady n
  else
    let s := (s.setOp { r with stage := .cover, mo := mo, startLt := lt, calAt := lt, diff := 0, count := 0 }).setSpr c spCover (some n)
    (s.seqEvent g evSwap (localOf n) (c % 6) r.op.idx 0 lt).showSteady n

/-- The hand-back is complete (R140, R155): the unit delivers again and the spare is FREE. -/
def State.handBack (s : State) (r : RunOp) (c lt : Nat) : State :=
  let n := r.op.chan
  let g := rgnOf n
  let d : Rat := if r.count = 0 then 0 else r.diff / r.count
  let s := if s.matchBad g d then s.matchErr n else s
  let ppm := roundAway (d * 1000000 / 2147483648)
  let s := s.seqEvent g evHandback (localOf n) (min ppm.natAbs 0xFFFF) r.op.idx 0 lt
  let s := if r.op.kind = OpKind.retest then s.setCh n { s.ch n with baseSpare := none, matchBase := none } else s
  ((s.endOp r).freeSpr c).showSteady n

/-- A gap ends (R154): the count is declared. -/
def State.gapEnd (s : State) (r : RunOp) : State :=
  let n := r.op.chan
  let s := s.seqEvent (rgnOf n) evGap (localOf n) 0 r.op.idx r.gapCount r.gapFirst
  let s := s.keepShown (rgnOf n) (R.CH_STEADY_STAT n)
  let s := (s.bumpBy (R.CH_STEADY_STAT n) F.CH_STEADY_STAT_GAPCNT r.gapCount).sraise (rgnOf n) 75 n
  (s.endOp r).showSteady n

/-- The instant of an operation's end lies before a boundary. -/
def RunOp.ended (r : RunOp) (lt : Nat) : Bool := r.endLt.any (fun t => decide (t < lt))
/-- The instant of an operation's end lies at least 2 us before a boundary (R138). -/
def RunOp.past (r : RunOp) (lt : Nat) : Bool := r.endLt.any (fun t => decide (t + 2000 * nsU ≤ lt))
/-- A boundary of an operation that runs with a gap (R154). -/
def State.advanceGap (s : State) (lt : Nat) (r : RunOp) : State :=
  if r.stage = .connect then
    (s.setOp { r with stage := .gap, gapFirst := lt, gapCount := 0, startLt := lt, calAt := lt }).showSteady r.op.chan
  else if r.stage = .gap then
    let r := { r with gapCount := r.gapCount + 1 }
    if r.past lt then s.gapEnd r else s.setOp r
  else s
/-- A boundary of an operation on a channel in event mode, which has no overlap or hand-back windows (R141). A MODE of 1 that takes effect
while the operation runs applies from that boundary on (log 109). -/
def State.advanceEvt (s : State) (lt : Nat) (r : RunOp) (c : Nat) : State :=
  let n := r.op.chan
  match r.stage with
  | .connect => if s.evtArmed n then s.watchBy { r with mg := s.coverMg n c } c lt else s
  | .overlap => if s.evtArmed n then s.watchBy { r with mg := s.coverMg n c } c lt else s
  | .selftest => s
  | .free =>
    if r.ended lt ∧ s.evtArmed n then s.handBack { r with mg := (s.ch n).commitMg, mo := (s.ch n).commitMo } c lt else s
  | _ =>
    let r := { r with stage := .watch, diff := 0, count := 0 }
    if r.ended lt ∧ s.evtArmed n then s.handBack r c lt
    else if s.sprState c = spHandback then ((s.setOp r).setSpr c spCover (some n)).showSteady n else s.setOp r
/-- A boundary of a covered operation on a channel in continuous mode (R138 to R140): `wOf` gives a converter's value of the window that
closes. A watch that a MODE of 0 ends is a cover from then on (log 109). -/
def State.advanceCont (s : State) (g lt : Nat) (wOf : Nat → Option Int) (r : RunOp) (c : Nat) : State :=
  let n := r.op.chan
  let acc := fun (r : RunOp) (mo : Int) =>
    match wOf (spareOf c), wOf r.unit with
    | some ws, some wu =>
      let u : Rat := if isSpare r.unit then (s.ch n).commitMg * wu + (s.ch n).commitMo else wu
      { r with diff := r.diff + (u - r.mg * ws - mo), count := r.count + 1, left := r.left - 1 }
    | _, _ => { r with left := r.left - 1 }
  let rejoin := fun (r : RunOp) =>
    if r.past lt then
      ((s.setOp { r with stage := .handback, left := s.ovl g, diff := 0, count := 0 }).setSpr c spHandback (some n)).showSteady n
    else s
  match r.stage with
  | .connect =>
    let s := s.setOp { r with stage := .overlap, left := s.ovl g, mg := s.coverMg n c, diff := 0, count := 0 }
    (s.seqEvent g evOverlap (localOf n) (c % 6) r.op.idx 0 lt).showSteady n
  | .overlap =>
    let r := acc r 0
    if r.left = 0 then s.swap r c lt else s.setOp r
  | .cover => rejoin r
  | .watch => rejoin r
  | .free => rejoin { r with mg := (s.ch n).commitMg, mo := (s.ch n).commitMo }
  | .handback =>
    let r := acc r r.mo
    if r.left = 0 then s.handBack r c lt else s.setOp r
  | _ => s
/-- A boundary of a running operation (R138 to R141, R154). -/
def State.advanceOne (s : State) (g lt : Nat) (wOf : Nat → Option Int) (r : RunOp) : State :=
  match r.spare with
  | none => s.advanceGap lt r
  | some c => if s.evtMode r.op.chan then s.advanceEvt lt r c else s.advanceCont g lt wOf r c
/-- Every operation that ran before this boundary. -/
def State.advance (s : State) (g lt : Nat) (wOf : Nat → Option Int) : State :=
  s.forEach (s.rg g).running (fun s r => s.advanceOne g lt wOf r)

/-- A calibration that ran when its operation was aborted shows result 0x5 (Table 5.11). -/
def State.abortCal (s : State) (r : RunOp) : State :=
  if r.op.kind.hasCal && !r.calDone && [OpStage.cover, OpStage.gap, OpStage.watch, OpStage.free].contains r.stage then
    if isSpare r.unit then s.setFld (R.SPR_CAL_STAT (r.unit / 9)) F.SPR_CAL_STAT_RES 5
    else s.setFld (R.CH_CAL_STAT (chanOf r.unit)) F.CH_CAL_STAT_RES 5
  else s

/-- A cover is taken away (R150, R151): the unit delivers again with no overlap, source 74, the operation is skipped. An operation that
had ended is over; only its hand-back is cut short (log 87). -/
def State.dropCover (s : State) (r : RunOp) (lt : Nat) : State :=
  let n := r.op.chan
  let s := (s.abortCal r).endOp r
  (if r.endLt.isSome then s else (s.sraise (rgnOf n) 74 n).skipOp r.op r.impDone lt).showSteady n

/-- The converter of a channel fails (R148): it stops at its next edge, and a substitution is queued, which a full queue does not keep out
(R136; log 88). -/
def State.unitFail (s : State) (n : Nat) : State :=
  let g := rgnOf n
  let k := s.baseConv n
  let s := s.setCv k { s.cv k with failing := !(s.cv k).stopped }
  if s.failed n then s
  else ((s.setRg g { s.rg g with fails := (s.rg g).fails ++ [(n, s.lt)] }).queueOp (substOp n)).1

/-- A spare becomes FAILED (R151): source 66; a channel committed to it awaits a substitution. A cover by it ends at
the edge at which it stops. -/
def State.spareFail (s : State) (c : Nat) : State :=
  if s.sprState c = spFailed then s
  else
    let st := s.sprState c
    let n := s.sprChan c
    let s := match s.sprOp c with
      | some r => (s.abortCal r).endOp r
      | none => s
    let s := if st = spCommitted then s.unitFail n else s
    (s.setSpr c spFailed none).sraise (c / 6) 66 (spareOf c)

/-- A channel is committed to a spare (R148). -/
def State.commitTo (s : State) (n c : Nat) (mg : Rat) (mo : Int) (lt : Nat) : State :=
  let g := rgnOf n
  let s := s.setCh n { s.ch n with baseSpare := some c, matchBase := some c, commitMg := mg, commitMo := mo, lost := false }
  let s := (s.setRg g { s.rg g with fails := (s.rg g).fails.filter (fun e => decide (e.1 ≠ n)) }).unqueue g (substOp n)
  let s := (s.setSpr c spCommitted (some n)).showMatch n mg mo
  ((s.sraise g 65 n).seqEvent g evCommit (localOf n) (c % 6) 0xFF 0 lt).showSteady n

/-- The operation of a failed unit whose spare covers or overlaps it ends with the commitment to that spare. -/
def State.commitCovered (s : State) (r : RunOp) (c lt : Nat) : State :=
  let n := r.op.chan
  let cold := r.stage = OpStage.connect ∨ r.stage = OpStage.overlap
  let s := (s.abortCal r).endOp r
  s.commitTo n c r.mg (if cold then 0 else r.mo) lt

/-- In Doze a spare is powered for a substitution and becomes available 500 us later; it may take over at a boundary at least
2 us on (R433). -/
def State.sprPowered (s : State) (c : Nat) : Option State :=
  if !s.pwr.doze then some s
  else match s.pwr.powered.find? (fun p => decide (p.1 = c)) with
    | some p =>
      if p.2 ≤ s.lt then some { s with pwr := { s.pwr with powered := s.pwr.powered.erase p } } else none
    | none => none
def State.powerSpr (s : State) (c : Nat) : State :=
  if s.pwr.powering.any (fun p => decide (p.1 = c)) || s.pwr.powered.any (fun p => decide (p.1 = c)) then s
  else { s with pwr := { s.pwr with powering := s.pwr.powering ++ [(c, s.lt + 500000 * nsU)] } }

/-- Substitution for a channel whose converter has failed, at a boundary (R148 to R152). A spare that was FREE at the failure takes over at
once, another from a boundary at least 2 us after it becomes available; one whose cover is pre-empted is powered already (R150). While
the own spare can still serve, the channel waits with INVALID samples; it is LOST once that spare is COMMITTED or FAILED and none can be
borrowed. -/
def State.substOne (s : State) (lt n : Nat) : State :=
  let g := rgnOf n
  let c0 := cluOf n
  match s.opOf n with
  | some r =>
    match r.spare with
    | some c => if r.op.kind = OpKind.retest ∨ s.sprState c = spFailed then (s.abortCal r).endOp r
      else s.commitCovered r c lt
    | none => if r.stage = OpStage.gap then (s.abortCal r).gapEnd r else (s.abortCal r).endOp r
  | none =>
    let s := s.setCh n { s.ch n with baseSpare := none }
    let cold := fun (s : State) (c : Nat) => (s.commitTo n c (s.coverMg n c) 0 lt).noteBorrow n c
    let known := s.failedAt n
    match s.findSpr (max known (lt - 2000 * nsU)) n true with
    | some c =>
      match s.sprPowered c with
      | some s => cold s c
      | none => s.powerSpr c
    | none =>
      let st := s.sprState c0
      let own := (s.rg g).running.find? (fun r => !r.op.kind.ofSpare && decide (r.spare = some c0)
        && decide (cluOf r.op.chan = c0) && decide (r.op.kind ≠ OpKind.retest))
      match own with
      | some r =>
        if !(s.ch n).lost ∧ 1 ≤ st ∧ st ≤ 3 ∧ known + 2000 * nsU ≤ lt then cold (s.dropCover r lt) c0
        else s
      | none =>
        if (s.ch n).lost ∨ (st ≠ spCommitted ∧ st ≠ spFailed) then s
        else
          let s := (s.setCh n { s.ch n with lost := true }).unqueue g (substOp n)
          (((s.sraise g 70 n).seqEvent g evLost (localOf n) 0 0xFF 0 lt).showSteady n).showRegion g

/-- Channels that await a substitution: LOST ones first, the lowest first (R152), then by arrival (R136). -/
def State.substAll (s : State) (g lt : Nat) : State :=
  let ns := (chansOf g).filter (fun n => (s.ch n).lost) ++ ((s.rg g).fails.map (fun e => e.1)).filter (fun n => !(s.ch n).lost)
  s.forEach ns (fun s n =>
    let s := s.substOne lt n
    if s.failed n && !(s.ch n).lost then s.substOne lt n else s)

/-- Converters that failed their checks stop at this edge (R103, R125); covers by a failed spare end (R151). -/
def State.stopFailing (s : State) (g lt : Nat) : State :=
  let ks := (List.range 54).map (fun i => 54 * g + i)
  let s := s.forEach ks (fun s k =>
    let x := s.cv k
    if x.failing then s.setCv k { x with failing := false, stopped := true } else s)
  s.forEach (s.rg g).running (fun s r =>
    match r.spare with
    | some c => if s.sprState c = spFailed && decide (r.op.kind ≠ OpKind.retest) then s.dropCover r lt else s
    | none => s)

/-- The boundary work of Steady for a region, in the order: failures, running operations, substitutions, dispatch. -/
def State.steadyEdge (s : State) (g lt : Nat) (wOf : Nat → Option Int) : State :=
  let s := s.setRg g { s.rg g with freed := (s.rg g).freed.filter (fun e => decide (lt < e.2 + 2000 * nsU)) }
  let s := s.stopFailing g lt
  let s := s.advance g lt wOf
  let s := s.substAll g lt
  let s := s.dispatch g lt
  s.forEach ((chansOf g).filter (fun n => s.failed n || (s.opOf n).isSome)) (fun s n => s.showSteady n)

/-- An operation whose overlap was abandoned is queued again, before those that arrived after it; it merges as any other, and a full queue
does not take it (R136, log 56). -/
def State.requeue (s : State) (o : SteadyOp) : State :=
  let g := o.region
  let x := s.rg g
  match x.queue.find? (fun q => q.merges o) with
  | some q => (s.setRg g { x with queue := o.merge q :: x.queue.erase q }).showRegion g
  | none =>
    if x.queue.length < 16 then (s.setRg g { x with queue := o :: x.queue }).showRegion g else s.sraise g 73 g
/-- A window closes at the stop boundary: it counts in the gaps that run (R154). -/
def State.gapWindow (s : State) (g : Nat) : State :=
  s.forEach (s.rg g).running (fun s r => if r.stage = OpStage.gap then s.setOp { r with gapCount := r.gapCount + 1 } else s)
/-- At a region stop overlaps not yet swapped are abandoned, their operations queued again; covers and operations go on
(R156). -/
def State.steadyStop (s : State) (g : Nat) : State :=
  s.forEach (s.rg g).running (fun s r =>
    if r.stage = OpStage.connect ∨ r.stage = OpStage.overlap then
      let s := s.endOp r
      let s := match r.spare with
        | some c => s.freeSpr c
        | none => s
      (s.requeue r.op).showSteady r.op.chan
    else s)
/-- At a region start a channel whose operation has ended converts on its own unit (R156). -/
def State.steadyStart (s : State) (g lt : Nat) : State :=
  let s := s.setRg g { s.rg g with freed := (s.rg g).freed.filter (fun e => decide (lt < e.2 + 2000 * nsU)) }
  let s := s.forEach (s.rg g).running (fun s r =>
    if r.op.kind.ofSpare ∨ r.endLt.isNone then s
    else
      let n := r.op.chan
      match r.stage, r.spare with
      | .gap, _ => s.gapEnd r
      | .selftest, _ => s
      | _, some c =>
        let s := if r.op.kind = OpKind.retest then s.setCh n { s.ch n with baseSpare := none, matchBase := none } else s
        ((s.endOp r).freeSpr c).showSteady n
      | _, none => s)
  let s := (s.stopFailing g lt).substAll g lt
  s.forEach (chansOf g) (fun s n => if s.steadyCode n = 0 ∧ (s.going (unitOf n)).isSome then s else s.showSteady n)

end Sys2Proof.Machine
end

