-- ==== Sys2Proof/Machine/Calib.lean ====
section
/-! DEFINITION. What runs on a freed converter (sections 5.4, 5.5, 6.2): calibrations, their failures and timeouts,
impedance checks, the requests and the automatic scheduler, and the outcome of converter self-tests. -/
namespace Sys2Proof.Machine

/-- Table 5.11 result codes of a calibration. -/
def calPass : Nat := 1
def calRange : Nat := 2
def calResidual : Nat := 3
def calTimeout : Nat := 4
/-- The residual figure RF (R144), rounded and saturated. -/
def calRf (eo eg : Int) : Nat := min (roundAway ((eo.natAbs : Rat) + (eg.natAbs : Rat) * 4 / 5)).toNat 0xFFFF
/-- The search of a trim (R143), in offset binary: from the highest bit down each bit is set and kept unless the measurement shows an
over-correction; `past` holds what each measurement showed. -/
def trimSearch (past : List Bool) : Nat := past.foldl (fun v o => 2 * v + b2n !o) 0
/-- A search of `w` bits ended at an end of the range (R143). -/
def trimEnd (w v : Nat) : Bool := decide (v = 0) || decide (v = 2 ^ w - 1)
/-- The trim of an offset-binary code, in two's complement. -/
def trimOf (w v : Nat) : Nat := (v + 2 ^ (w - 1)) % 2 ^ w
/-- The error at the region references, (W+ - W-) / 2 - 0.8 x 2^31 (R143). -/
def refError (p : RefPair) : Rat := ((p.plus - p.minus : Int) : Rat) / 2 - 2147483648 * 4 / 5
/-- The offset residual EO in 0.01 ppm (R144). -/
def passEo (p : CalPass) : Int := roundAway (((p.zero : Int) : Rat) * 100000000 / 2147483648)
/-- The gain residual EG in 0.01 ppm (R144). -/
def passEg (p : CalPass) : Int := roundAway (refError p.ver / (2147483648 * 4 / 5) * 100000000)
/-- The OFS code a pass finds. -/
def passOfs (p : CalPass) : Nat := trimSearch (p.ofs.map (fun e => decide (e < 0)))
/-- The code a search against the references finds. -/
def refCode (l : List RefPair) : Nat := trimSearch (l.map (fun p => decide (refError p < 0)))

/-- How a calibration of one gain code ends: its result, the packets it took, its working copy of the trims, and the last verification. -/
structure CalEnd where
  res : Nat
  packets : Nat
  qtrim : Nat
  ofs : Nat
  gain : Nat
  ver : Option (Int × Int)
  deriving DecidableEq, Repr
/-- Passes of steps 2 to 4 (R143, R145), at most `iter` of them: a search that ends in range at each step, then the verification; the last
pass above the limit fails. None while the measurements do not bring the calibration to its end. -/
def calPasses (lim cl vl qtrim : Nat) : Nat → Nat → Option (Int × Int) → List CalPass → Option CalEnd
  | 0, _, _, _ => none
  | _ + 1, _, _, [] => none
  | iter + 1, t, ver, p :: ps =>
    if p.ofs.length ≠ 12 ∨ p.gain.length ≠ 12 then none
    else if trimEnd 12 (passOfs p) then some ⟨calRange, t + 12 * cl, qtrim, 0, 0, ver⟩
    else if trimEnd 12 (refCode p.gain) then some ⟨calRange, t + 36 * cl, qtrim, 0, 0, ver⟩
    else
      let t := t + 39 * cl + 3 * vl
      let e : CalEnd := ⟨calPass, t, qtrim, trimOf 12 (passOfs p), trimOf 12 (refCode p.gain), some ((passEo p), (passEg p))⟩
      if calRf (passEo p) (passEg p) ≤ lim then some e
      else if iter = 0 then some { e with res := calResidual }
      else calPasses lim cl vl qtrim iter t (some ((passEo p), (passEg p))) ps

/-- The region of a converter. -/
def rgnOfConv (k : Nat) : Nat := k / 54
/-- Target value of a converter in events (chapter 5). -/
def tgtOf (r : RunOp) : Nat := if r.op.kind.ofSpare then 48 + r.op.chan % 6 else localOf r.op.chan
/-- Gain code a calibration is at. -/
def State.calCode (s : State) (r : RunOp) : Nat := if r.op.kind.ofSpare then r.gcode else s.gainOf r.op.chan
/-- The calibration in progress on a converter. -/
def State.calOn (s : State) (k : Nat) : Option RunOp :=
  (s.rg (rgnOfConv k)).running.find? (fun r => decide (r.unit = k) && r.op.kind.hasCal && !r.calDone && !r.waitTest
    && r.endLt.isNone && (!r.op.kind.hasImp || r.impDone)
    && [OpStage.cover, OpStage.gap, OpStage.watch, OpStage.free].contains r.stage)
/-- FULL applies (R147): requested, the first of the converter since reset, a spare, or a retest (R155). -/
def State.calFull (s : State) (r : RunOp) : Bool :=
  r.op.full || !(s.cv r.unit).calibrated || isSpare r.unit || decide (r.op.kind = OpKind.retest)

/-- Write the result registers of a calibration of a converter (Table 5.11). -/
def State.setCalStat (s : State) (k rf res code : Nat) : State :=
  let a := if isSpare k then R.SPR_CAL_STAT (k / 9) else R.CH_CAL_STAT (chanOf k)
  let s := s.keepShown (rgnOfConv k) a
  ((s.setFld a F.CH_CAL_STAT_RF rf).setFld a F.CH_CAL_STAT_RES res).setFld a F.CH_CAL_STAT_GCODE code
/-- RF as it shows. -/
def State.calRfNow (s : State) (k : Nat) : Nat :=
  s.fld (if isSpare k then R.SPR_CAL_STAT (k / 9) else R.CH_CAL_STAT (chanOf k)) F.CH_CAL_STAT_RF
/-- A trim register takes a value in the die and in the shadow. -/
def State.setTrim (s : State) (a v : Nat) : State := (s.setReg a (BitVec.ofNat 32 v)).setAct a (BitVec.ofNat 32 v)
/-- CAL_LEN in packets (R143, Table 5.10). -/
def State.calLen (s : State) (g : Nat) : Nat := 1024 * 2 ^ min (s.fld (R.RGN_CAL_CFG g) F.RGN_CAL_CFG_CALC) 4
/-- VER_LEN in packets (R143, Table 5.10). -/
def State.verLen (s : State) (g : Nat) : Nat := 51200 * 2 ^ min (s.fld (R.RGN_CAL_CFG g) F.RGN_CAL_CFG_VERC) 4
/-- The instant at which a calibration of one gain code times out (R146). -/
def State.calDue (s : State) (k : Nat) (r : RunOp) : Nat :=
  r.calAt + max (s.fld (R.RGN_CAL_CFG (rgnOfConv k)) F.RGN_CAL_CFG_CAL_TMO) 1 * 1000000 * nsU
/-- The end that a calibration comes to by its measurements (R143 to R145): the QTRIM step where FULL applies, then the passes. -/
def State.calEnd (s : State) (k : Nat) (r : RunOp) (m : CalMeas) : Option CalEnd :=
  let g := rgnOfConv k
  let cl := s.calLen g
  let full := s.calFull r
  let q := refCode m.qtrim
  if full ∧ m.qtrim.length ≠ 10 then none
  else if full && trimEnd 10 q then some ⟨calRange, 20 * cl, 0, 0, 0, none⟩
  else calPasses (s.fld (R.RGN_CAL_CFG g) F.RGN_CAL_CFG_CAL_LIM) cl (s.verLen g) (trimOf 10 q)
    (max (s.fld (R.RGN_STEADY_CFG g) F.RGN_STEADY_CFG_CAL_ITER) 1) (if full then 20 * cl else 0) none m.passes
/-- The trims and residuals of a passed calibration (R143 to R145). -/
def State.passTrims (s : State) (k code : Nat) (full : Bool) (m : CalEnd) : State :=
  let c := k / 9
  let n := chanOf k
  let sp := isSpare k
  let s := s.setTrim (if sp then R.SPR_TRIM c code else R.CH_TRIM n code) (m.ofs * 2 ^ 20 + m.gain * 2 ^ 8)
  let s := if full then s.setTrim (if sp then R.SPR_QTRIM c else R.CH_QTRIM n) m.qtrim else s
  let v := m.ver.getD (0, 0)
  let s := s.setReg (if sp then R.SPR_CALV c code else R.CH_CALV n code)
    (BitVec.ofNat 32 (twos 16 (clampI (-32768) 32767 v.2) * 65536 + twos 16 (clampI (-32768) 32767 v.1)))
  let s := if sp then s.setSt (R.SPR_CAL_T c) (R.SPR_CAL_T_HI c) (stOf s.lt)
    else s.setSt (R.CH_CAL_T n) (R.CH_CAL_T_HI n) (stOf s.lt)
  s.setCv k { s.cv k with calibrated := true, lastPass := some s.always }

/-- The operation on a converter has ended; the boundary work takes it up. -/
def State.opEnded (s : State) (r : RunOp) : State := s.setOp { r with calDone := true, waitTest := false, endLt := some s.lt }

/-- A converter fails its calibration for good (R145, R146): commitment, or a FAILED spare. -/
def State.calFailed (s : State) (r : RunOp) : State :=
  let n := r.op.chan
  let s := if r.op.kind.ofSpare then s
    else (s.setFlag (R.CH_STEADY_STAT n) F.CH_STEADY_STAT_CALFAIL true).setOverdue n true
  match r.op.kind with
  | .sprCal => (s.endOp r).spareFail r.op.chan
  | .sprRetest => (s.endOp r).spareFail r.op.chan
  | .retest => (s.endOp r).showSteady n
  | _ =>
    let s := s.setOp { r with calDone := true, waitTest := false }
    let r := { r with calDone := true, waitTest := false }
    match r.spare with
    | some c => (if isSpare r.unit then s.spareFail (r.unit / 9) else s).commitCovered r c (s.soon (rgnOf n))
    | none => (s.opEnded r).unitFail n

/-- A calibration of one gain code has passed (R145, R147): the trims are taken over, and a spare goes on to its next code. -/
def State.calPassed (s : State) (k : Nat) (r : RunOp) (e : CalEnd) : State :=
  let s := s.passTrims k (s.calCode r) (s.calFull r) e
  if r.op.kind.ofSpare then
    if r.gcode < 7 then s.setOp { r with gcode := r.gcode + 1, tries := 0, calAt := s.lt }
    else ((s.setCv k { s.cv k with failing := false, stopped := false }).endOp r).freeSpr r.op.chan
  else
    let s := s.setOverdue r.op.chan false
    let s := if r.op.kind = OpKind.retest then s.setCv k { s.cv k with failing := false, stopped := false } else s
    s.opEnded r
/-- A calibration ends as `e` says (R143 to R148): its results show, and a pass takes over the trims, a failure leaves them. -/
def State.calEnds (s : State) (k : Nat) (r : RunOp) (e : CalEnd) : State :=
  let g := rgnOfConv k
  let code := s.calCode r
  let s := s.moveTo (r.calAt + e.packets * pktU)
  let rf := match e.ver with
    | some v => calRf v.1 v.2
    | none => s.calRfNow k
  let s := s.setCalStat k rf e.res code
  let s := s.seqEvent g evCaldone (tgtOf r) rf r.op.idx (code * 16 + e.res) (s.soon g)
  if e.res = calPass then s.calPassed k r e else (s.raise 64 k).calFailed r
/-- CALIBRATION_DONE: the calibration on the converter ends once its measurements are complete (log 57), unless it takes longer than its
timeout (R146) or its packets do not come (R66). -/
def State.calDone (s : State) (k : Nat) (m : CalMeas) : State :=
  match s.calOn k with
  | none => s
  | some r =>
    match s.calEnd k r m with
    | none => s
    | some e => if !s.spn.refclk ∨ s.calDue k r < r.calAt + e.packets * pktU then s else s.calEnds k r e
/-- CALIBRATION_DONE. -/
def execCalibrationDone (k : Fin 432) (m : CalMeas) (s : State) : Res := s.act! (s.calDone k.val m)

/-- CAL_TIMEOUT (R146): CAL_TMO after the first integration; previous trims kept, result TIMEOUT, source 68 and its self-test, for which the
operation waits; the second in a row fails. -/
def execCalTimeout (k : Fin 432) (s : State) : Res :=
  s.act! (match s.calOn k.val with
  | none => s
  | some r =>
    let s := s.moveTo (s.calDue k.val r)
    let a := if isSpare k.val then R.SPR_CAL_STAT (k.val / 9) else R.CH_CAL_STAT (chanOf k.val)
    let s := (s.setFld a F.CH_CAL_STAT_RES calTimeout).setFld a F.CH_CAL_STAT_GCODE (s.calCode r)
    let s := if r.op.kind.ofSpare then s
      else s.setFlag (R.CH_STEADY_STAT r.op.chan) F.CH_STEADY_STAT_CALFAIL true
    if 0 < r.tries then (s.raise 68 k.val).calFailed r
    else ((s.setOp { r with waitTest := true, tries := 1 }).raise 68 k.val).awaitTest (.conv k.val))

/-- The verdict of a converter's self-test reaches the operation that waits for it (R146, R155, R161). -/
def State.testForOp (s : State) (r : RunOp) (v : Nat) : State :=
  if v = 1 then s.setOp { r with waitTest := false, calAt := s.lt, stage := if r.stage = OpStage.selftest then .free else r.stage }
  else if v = 3 ∨ v = 2 then
    if r.op.kind = OpKind.retest then (s.endOp r).showSteady r.op.chan
    else if r.op.kind = OpKind.sprRetest then (s.endOp r).spareFail r.op.chan
    else s.calFailed r
  else s

/-- A converter is out of service after a failed self-test (R396). -/
def State.convOut (s : State) (k : Nat) : State :=
  if isSpare k then (s.setCv k { s.cv k with failing := !(s.cv k).stopped }).spareFail (k / 9)
  else if (s.ch (chanOf k)).baseSpare.isSome then s else s.unitFail (chanOf k)
/-- Take up the verdicts of converter tests (R396): codes 1 PASS, 2 FAIL, 3 INCONCLUSIVE, 4 NOT_RUN. -/
def State.settleTests (s : State) : State :=
  let es := s.flt.ended
  let mine := es.filter (fun e => match e.1.target with
    | .conv _ => true
    | .die _ => true
    | _ => false)
  let s := { s with flt := { s.flt with ended := es.filter (fun e => !mine.contains e) } }
  s.forEach mine (fun s e =>
    match e.1.target with
    | .conv k =>
      match (s.rg (rgnOfConv k)).running.find? (fun r => decide (r.unit = k) && r.waitTest) with
      | some r => s.testForOp r e.2
      | none => if e.2 = 2 ∨ e.2 = 3 then s.convOut k else s
    | .die d =>
      let ks := (List.range 108).map (fun i => 108 * d + i)
      s.forEach ks (fun s k =>
        if e.2 = 1 then
          let x := s.cv k
          if x.strobe then s.setCv k { x with strobe := false, stopped := false } else s
        else if e.2 = 2 ∨ e.2 = 3 then s.convOut k else s)
    | _ => s)

/-- INTEGRATOR_CHECK_DONE (R103, R148, R151): a converter that fails either check stops at its next edge; a unit's
channel is moved to a spare there, a spare becomes FAILED. -/
def execIntegratorCheckDone (k : Fin 432) (levelBad refBad : Bool) (s : State) : Res :=
  s.act! (if !levelBad && !refBad then s
  else
    let s := if levelBad then s.raise 80 k.val else s
    let s := if refBad then s.raise 81 k.val else s
    let s := s.settleTests
    let s := s.setCv k.val { s.cv k.val with failing := true }
    if isSpare k.val then s.spareFail (k.val / 9)
    else if (s.ch (chanOf k.val)).baseSpare.isSome then
      match s.opOf (chanOf k.val) with
      | some r => if r.op.kind = OpKind.retest then ((s.abortCal r).endOp r).showSteady (chanOf k.val) else s
      | none => s
    else s.unitFail (chanOf k.val))

/-- STROBE_MISALIGNED (R125, source 83): every converter of the die stops at its next edge. -/
def execStrobeMisaligned (d : Fin 4) (s : State) : Res :=
  s.act! (
    let s := s.raise 83 d.val
    s.forEach ((List.range 108).map (fun i => 108 * d.val + i)) (fun s k =>
      s.setCv k { s.cv k with failing := true, strobe := true }))

/-- CAL_OVERDUE (R153): the last pass of the channel's converter, or the reset, is older than 2 × CAL_PER. -/
def execCalOverdue (n : Fin 384) (s : State) : Res :=
  s.act! (
    let per := s.fld (R.RGN_STEADY_AUTO (rgnOf n.val)) F.RGN_STEADY_AUTO_CAL_PER
    if per = 0 then s
    else
      let due := ((s.cv (s.baseConv n.val)).lastPass.getD s.pwr.resetAt) + 2 * secU * per
      let s := if s.always < due then s.pass (due - s.always) else s
      s.setOverdue n.val true)

/-- The wait of an impedance record's LT: of the last passing check, or zero. -/
def State.impRecord (s : State) (n kind q : Nat) (a b c : Nat) (count rv : Nat) : State :=
  s.recordCh n kind a
    (beBytes 1 kind ++ beBytes 1 s.timeStatus ++ beBytes 2 n ++ beBytes 2 s.hubId
      ++ beBytes 1 (s.fld (R.CH_IMP_STAT n) F.CH_IMP_STAT_RES) ++ beBytes 1 q ++ ltBytes a ++ ltBytes b ++ ltBytes c
      ++ beBytes 2 (min count 0xFFFF) ++ beBytes 4 rv)

/-- The impedance check in progress of a channel. -/
def State.impOn (s : State) (n : Nat) : Option RunOp :=
  match s.opOf n with
  | some r =>
    if r.op.kind.hasImp && !r.impDone && r.endLt.isNone
        && [OpStage.cover, OpStage.gap, OpStage.watch].contains r.stage then some r else none
  | none => none
/-- R or X lies beyond 100 kohm (R169). -/
def impBeyond (m : ImpMeas) : Bool := decide (100000000 < m.r) || decide (100000000 < m.x.natAbs)
/-- The result code of a completed check and its source (Table 6.3). -/
def State.impCode (s : State) (n : Nat) (m : ImpMeas) : Nat × Nat :=
  let lim := R.CH_IMP_LIM n
  let rlo := s.fld lim F.CH_IMP_LIM_RLO
  let rhi := s.fld lim F.CH_IMP_LIM_RHI
  let drift := s.fld (R.CH_IMP_CFG n) F.CH_IMP_CFG_DRIFT
  let ref := (s.reg (R.CH_IMP_REF n)).toNat
  if m.ovr ∨ m.toneFail then (6, 53)
  else if impBeyond m then (5, 50)
  else if rlo ≠ 0 ∧ m.r < rlo * 1000 then (3, 51)
  else if rhi ≠ 0 ∧ rhi * 1000 < m.r then (2, 51)
  else if drift ≠ 0 ∧ ref ≠ 0 ∧ drift * ref < ((m.r - ref) + (ref - m.r)) * 10000 then (4, 52)
  else (1, 0)
/-- A completed impedance check (R167, R169, R170, R171): it ends 102,400 packets after the boundary at which its unit was freed. -/
def State.impDone (s : State) (n : Nat) (m : ImpMeas) : State :=
  match s.impOn n with
  | none => s
  | some r =>
    let s := s.moveTo (r.startLt + 102400 * pktU)
    let (code, src) := s.impCode n m
    let s := if m.toneFail then s.raise 54 (cluOf n) else s
    let prevLt := (s.ch n).lastGoodLt
    let s := s.setFld (R.CH_IMP_STAT n) F.CH_IMP_STAT_RES code
    let s := if code = 1 then s else s.bump (R.CH_IMP_STAT n) F.CH_IMP_STAT_FAILCNT
    let s := s.setSt (R.CH_IMP_T n) (R.CH_IMP_T_HI n) (stOf s.lt)
    let rv := if impBeyond m then 0xFFFFFFFF else m.r
    let s := if code = 6 then s
      else (s.setReg (R.CH_IMP_R n) (BitVec.ofNat 32 rv)).setReg (R.CH_IMP_X n)
        (BitVec.ofInt 32 (if impBeyond m then 0 else m.x))
    let s := if code = 6 ∨ code = 5 then s else s.setCh n { s.ch n with usable := some (m.r, m.x) }
    let s := if code = 1 then
        (s.setSt (R.CH_IMP_GOOD n) (R.CH_IMP_GOOD_HI n) (stOf s.lt)).setCh n
          { s.ch n with lastGoodLt := s.lt, lastGoodR := rv, everGood := true }
      else (s.raise src n).impRecord n 0x04 0 s.lt prevLt 0 0 (if code = 6 then 0xFFFFFFFF else rv)
    let s := s.seqEvent (rgnOf n) evImpdone (localOf n) 0 r.op.idx 0 (s.soon (rgnOf n))
    if r.op.kind.hasCal then s.setOp { r with impDone := true, calAt := s.lt }
    else s.setOp { r with impDone := true, endLt := some s.lt }
/-- IMPEDANCE_CHECK_DONE. -/
def execImpedanceCheckDone (n : Fin 384) (m : ImpMeas) (s : State) : Res :=
  s.act! (if s.spn.refclk then s.impDone n.val m else s)

/-- Fields of CH_IMP_CFG. -/
def impCfgFlds : List Fld := [F.CH_IMP_CFG_SETREF, F.CH_IMP_CFG_DRIFT]
/-- A write of CH_IMP_CFG (R170): SETREF copies the last R when the last result was pass, HIGH, LOW or DRIFT. -/
def State.writeImpCfg (s : State) (n : Nat) (v : Word) : State :=
  let s := s.writeFlds (R.CH_IMP_CFG n) impCfgFlds v
  let res := s.fld (R.CH_IMP_STAT n) F.CH_IMP_STAT_RES
  if v.toNat.testBit 31 ∧ 1 ≤ res ∧ res ≤ 4 then s.setReg (R.CH_IMP_REF n) (s.reg (R.CH_IMP_R n)) else s
/-- CH_IMP_CFG_SETREF. -/
def execChImpCfgSetref (n : Fin 384) (v : Word) (s : State) : Res := s.act! (s.writeImpCfg n.val v)

/-- Fields of CH_STEADY_CTRL. -/
def steadyCtrlFlds : List Fld :=
  [F.CH_STEADY_CTRL_RETEST, F.CH_STEADY_CTRL_FULL, F.CH_STEADY_CTRL_IMP_REQ, F.CH_STEADY_CTRL_CAL_REQ]
/-- A write of CH_STEADY_CTRL (R136, R147, R155): its requests. -/
def State.writeSteadyCtrl (s : State) (n : Nat) (v : Word) : State :=
  let s := s.writeFlds (R.CH_STEADY_CTRL n) steadyCtrlFlds v
  let full := s.flag (R.CH_STEADY_CTRL n) F.CH_STEADY_CTRL_FULL
  let cal := v.toNat.testBit 1
  let imp := v.toNat.testBit 2
  let s := if cal || imp then
      s.requestOp ⟨if cal && imp then .calimp else if cal then .cal else .imp, n, 3, 0xFF, full && cal⟩
    else s
  if v.toNat.testBit 4 && (s.ch n).baseSpare.isSome && !s.retesting false n then s.requestOp ⟨.retest, n, 2, 0xFF, true⟩ else s
/-- CH_STEADY_CTRL_CAL_REQ. -/
def execChSteadyCtrlCalReq (n : Fin 384) (v : Word) (s : State) : Res := s.act! (s.writeSteadyCtrl n.val v)
/-- CH_STEADY_CTRL_IMP_REQ. -/
def execChSteadyCtrlImpReq (n : Fin 384) (v : Word) (s : State) : Res := s.act! (s.writeSteadyCtrl n.val v)
/-- CH_STEADY_CTRL_RETEST. -/
def execChSteadyCtrlRetest (n : Fin 384) (v : Word) (s : State) : Res := s.act! (s.writeSteadyCtrl n.val v)

/-- The requests of a write of SPR_CTRL at the die (R147, R161). -/
def State.sprRequests (s : State) (c : Nat) (v : Word) : State :=
  let s := if v.toNat.testBit 0 then s.requestOp ⟨.sprCal, c, 3, 0xFF, true⟩ else s
  if v.toNat.testBit 1 && decide (s.sprState c = spFailed) && !s.retesting true c then s.requestOp ⟨.sprRetest, c, 2, 0xFF, true⟩ else s

/-- Local channel of a rotation position (R134). -/
def rotChan (i : Nat) : Nat := 8 * (i % 6) + i / 6
/-- A rotation position is enabled by the masks (R134); positions 48 to 53 name spares. -/
def State.rotOn (s : State) (g i : Nat) : Bool :=
  if i < 48 then
    let l := rotChan i
    if l < 32 then (s.reg (R.RGN_SEQ_MASK g)).toNat.testBit l
    else (s.fld (R.RGN_SEQ_MASK_HI g) F.RGN_SEQ_MASK_HI_MASK_HI).testBit (l - 32)
  else (s.fld (R.RGN_SEQ_MASK_HI g) F.RGN_SEQ_MASK_HI_SPMASK).testBit (i - 48)
/-- Positions of the rotation the NEXT operations go round: the spares follow with ROTSPARE = 1 (R134). -/
def State.rotLen (s : State) (g : Nat) : Nat := if s.flag (R.RGN_SEQ_ROT g) F.RGN_SEQ_ROT_ROTSPARE then 54 else 48
/-- The first enabled position at or after `pos` of a rotation of `len` positions, wrapping after the last; spares are left out on
request. -/
def State.rotNext (s : State) (g len pos : Nat) (spares : Bool) : Option Nat :=
  let ps := (List.range len).map (fun d => (min pos len + d) % len)
  ps.find? (fun i => s.rotOn g i && (spares || decide (i < 48)))
/-- The operation at a rotation position. -/
def rotOp (g i : Nat) (kind : OpKind) (prio idx : Nat) : SteadyOp :=
  if i < 48 then ⟨kind, 48 * g + rotChan i, prio, idx, false⟩ else ⟨.sprCal, 6 * g + (i - 48), prio, idx, true⟩

/-- Enabled positions among some. -/
def State.rotCount (s : State) (g : Nat) (ps : List Nat) : Nat := (ps.filter (s.rotOn g)).length
/-- The periods of the automatic scheduler and the positions they are shared by (R137): of impedance checks, and of calibrations. -/
def State.autoRate (s : State) (g : Nat) : (Nat × Nat) × (Nat × Nat) :=
  ((s.fld (R.RGN_STEADY_AUTO g) F.RGN_STEADY_AUTO_IMP_PER, s.rotCount g (List.range 48)),
    (s.fld (R.RGN_STEADY_AUTO g) F.RGN_STEADY_AUTO_CAL_PER, s.rotCount g (List.range 54)))
/-- A change of a period of the automatic scheduler, or of its positions, begins that period anew (R137; DESIGN CHOICE, log 110). -/
def State.autoRetime (s : State) (g : Nat) (old : (Nat × Nat) × (Nat × Nat)) : State :=
  let new := s.autoRate g
  let x := s.rg g
  s.setRg g { x with autoImpAt := if new.1 = old.1 then x.autoImpAt else s.lt, autoCalAt := if new.2 = old.2 then x.autoCalAt else s.lt }
/-- AUTO_SCHEDULE_IMP (R137): every IMP_PER ÷ E the next enabled channel position. -/
def execAutoScheduleImp (g : Fin 8) (s : State) : Res :=
  s.act! (
    let per := s.fld (R.RGN_STEADY_AUTO g.val) F.RGN_STEADY_AUTO_IMP_PER
    let e := s.rotCount g.val (List.range 48)
    if s.rgState g.val ≠ rgConverting ∨ per = 0 ∨ e = 0 then s
    else
      let due := (s.rg g.val).autoImpAt + secU * per / 10 / e
      let s := s.moveTo due
      match s.rotNext g.val 48 (s.rg g.val).autoImpPos false with
      | none => s
      | some i =>
        let s := s.setRg g.val { s.rg g.val with autoImpAt := due, autoImpPos := (i + 1) % 48 }
        s.requestOp (rotOp g.val i .imp 4 0xFF))
/-- AUTO_SCHEDULE_CAL (R137): every CAL_PER ÷ (E + S) the next enabled position, spares included. -/
def execAutoScheduleCal (g : Fin 8) (s : State) : Res :=
  s.act! (
    let per := s.fld (R.RGN_STEADY_AUTO g.val) F.RGN_STEADY_AUTO_CAL_PER
    let e := s.rotCount g.val (List.range 54)
    if s.rgState g.val ≠ rgConverting ∨ per = 0 ∨ e = 0 then s
    else
      let due := (s.rg g.val).autoCalAt + secU * per / e
      let s := s.moveTo due
      match s.rotNext g.val 54 (s.rg g.val).autoCalPos true with
      | none => s
      | some i =>
        let s := s.setRg g.val { s.rg g.val with autoCalAt := due, autoCalPos := (i + 1) % 54 }
        s.requestOp (rotOp g.val i .cal 4 0xFF))

end Sys2Proof.Machine
end

