-- ==== Sys2Proof/Machine/Lanes.lean ====
section
/-! DEFINITION. The serial lanes (chapter 11): groups and rates, the transmit equaliser, lane states and their changes,
loss of signal and of lock, the eye figure and the group PLLs. -/
namespace Sys2Proof.Machine

/-- Group of a lane (Table 11.1). -/
def grpOf (i : Nat) : Nat := if i < 2 then i else if i < 6 then 2 else 3
/-- Lanes of a group (Table 11.1). -/
def grpLanes (q : Nat) : List Nat := (List.range 10).filter (fun i => decide (grpOf i = q))
/-- PSCUR of a lane. -/
def State.psCur (s : State) (i : Nat) : Nat := s.fld (R.LNE_STAT i) F.LNE_STAT_PSCUR
/-- A change is in progress on a lane. -/
def State.psTrans (s : State) (i : Nat) : Bool := s.flag (R.LNE_STAT i) F.LNE_STAT_TRANS
/-- The lane is in L0 with no change in progress. -/
def State.inL0 (s : State) (i : Nat) : Bool := decide (s.psCur i = 0) && !s.psTrans i
/-- The test mode in effect: codes above 0x5 act as 0x0 (Table 11.6). -/
def State.tmode (s : State) (i : Nat) : Nat :=
  if s.fld (R.LNE_CTRL i) F.LNE_CTRL_TMODE ≤ 5 then s.fld (R.LNE_CTRL i) F.LNE_CTRL_TMODE else 0
/-- A requested state: 0b11 acts as L2 Dormant (Table 11.8). -/
def psCode (r : Nat) : Nat := if 2 ≤ r then 2 else r

/-- The transmitter of a lane is active: the hub is awake, the lane is in L0, its group's PLL is locked and REFCLK is present; otherwise
it idles (Table 11.4, R312, R316, Table 16.8). -/
def State.txOn (s : State) (i : Nat) : Bool :=
  s.awake && s.inL0 i && s.flag (R.LNE_GRP (grpOf i)) F.LNE_GRP_PLL_LOCK && s.spn.refclk
/-- The lane carries the data of its port or link: its transmitter is active and no test mode is on (R313). -/
def State.txData (s : State) (i : Nat) : Bool := s.txOn i && decide (s.tmode i = 0)
/-- The receiver of a lane has block lock on its partner's data (R328): in L0 with a signal and a locked CDR. -/
def State.blockLock (s : State) (i : Nat) : Bool :=
  s.inL0 i && s.flag (R.LNE_STAT i) F.LNE_STAT_CDR_LOCK && !s.flag (R.LNE_STAT i) F.LNE_STAT_LOS
/-- The lane inverts its receive data (R305). -/
def State.rxInv (s : State) (i : Nat) : Bool := s.flag (R.LNE_CTRL i) F.LNE_CTRL_RXINV
/-- The lane inverts its transmit data (R305). -/
def State.txInv (s : State) (i : Nat) : Bool := s.flag (R.LNE_CTRL i) F.LNE_CTRL_TXINV
/-- The frame a network port sends in (R322, R324, R305). -/
def State.frameHead (s : State) (p dscp : Nat) : FrameHead :=
  ⟨if s.flag (R.NET_CTRL p) F.NET_CTRL_VLAN_EN then
      some (s.fld (R.NET_CTRL p) F.NET_CTRL_PCP, s.fld (R.NET_CTRL p) F.NET_CTRL_VID) else none, dscp, s.txInv p⟩
/-- The bound of a change of state (Table 11.4, R308). -/
def psBound (src dst : Nat) : Nat :=
  if dst = src then 0
  else if src = 0 ∧ dst = 1 then 100 * nsU
  else if src = 1 ∧ dst = 0 then 1000 * nsU
  else if dst = 2 then 10000 * nsU
  else 500000 * nsU

/-- Whether source 161 is high for a lane: LOS or an unlocked CDR in L0 (R304); it rises only at a start in L0. -/
def State.laneQuiet (s : State) (i : Nat) : State :=
  if s.psCur i ≠ 0 ∨ (!s.flag (R.LNE_STAT i) F.LNE_STAT_LOS && s.flag (R.LNE_STAT i) F.LNE_STAT_CDR_LOCK) then
    s.setLine 161 i false
  else s

/-- Outside L0 the eye registers read zero, the CDR is not locked to data, and EQLOW's count starts anew (R306, R307). -/
def State.leaveL0 (s : State) (i : Nat) : State :=
  let s := (s.setReg (R.LNE_EYE i) 0).setFlag (R.LNE_STAT i) F.LNE_STAT_CDR_LOCK false
  (s.setLn i { s.ln i with eqRun := 0 }).setLine 161 i false

/-- Begin a change of a lane's state (R310). Leaving L0 takes the receiver off the data at once. -/
def State.laneStart (s : State) (i r : Nat) : State :=
  let s := s.setLn i { s.ln i with target := r, since := s.lt, late := false }
  let s := s.setFlag (R.LNE_STAT i) F.LNE_STAT_TRANS true
  if r = 0 then s else s.leaveL0 i

/-- Show or clear the pending slot (R310). -/
def State.laneSlot (s : State) (i : Nat) (p : Option Nat) : State :=
  (s.setFlag (R.LNE_STAT i) F.LNE_STAT_PENDV p.isSome).setFld (R.LNE_STAT i) F.LNE_STAT_PSPEND (p.getD 0)

/-- A request for a lane state (R310, R312, R313): it starts a change, waits in the pending slot, or is kept until REFCLK
returns. -/
def State.laneAsk (s : State) (i r : Nat) : State :=
  let s := s.setLn i { s.ln i with asked := r }
  if !s.spn.refclk then s
  else if s.tmode i ≠ 0 then s.laneSlot i (some r)
  else if s.psTrans i then s.laneSlot i (some r)
  else if s.psCur i = r then s
  else s.laneStart i r

/-- The controller of a lane requests a state; with OWN = 1 the request is ignored (R309). -/
def State.ctlAsk (s : State) (i r : Nat) : State :=
  let s := s.setLn i { s.ln i with ctl := r }
  if s.flag (R.LNE_CTRL i) F.LNE_CTRL_OWN then s else s.laneAsk i r

/-- The controller of a lane is enabled: its port (EXIT_EN) or its link (CHP_CTRL.EN). -/
def State.ctlOn (s : State) (i : Nat) : Bool :=
  if i < 2 then s.flag (R.NET_CTRL i) F.NET_CTRL_EXIT_EN else s.flag (R.CHP_CTRL ((i - 2) / 4)) F.CHP_CTRL_EN
/-- LANE_STATE_REQUEST (R309, R310): a request by the lane's controller; that of a disabled one stays L2 Dormant (R467). -/
def execLaneStateRequest (i : Fin 10) (req : Fin 4) (s : State) : Res :=
  s.act! (s.ctlAsk i.val (if s.ctlOn i.val then psCode req.val else 2))

/-- The group PLL is off when every lane of the group is in L2 (Table 11.4). -/
def State.pllRest (s : State) (q : Nat) : State :=
  if (grpLanes q).all (fun i => decide (s.psCur i = 2) && !s.psTrans i) then
    s.setFlag (R.LNE_GRP q) F.LNE_GRP_PLL_LOCK false
  else s

/-- Lanes whose latency is measured at entry into L0 from L2 and at relock (R311). -/
def measured (i : Nat) : Bool := decide (i = 0) || decide (i = 1) || decide (i = 2) || decide (i = 6)
/-- The measurement of transmit and receive latency of R311. -/
def State.latency (s : State) (i : Nat) : State :=
  if measured i then (s.setLn i { s.ln i with lat := true }).emit (.lane i 2 0) else s

/-- A change of state completes (R308, R310): the state is reached, and the pending request starts or is dropped. In L0
the CDR is locked to a partner that transmits. -/
def State.laneDone (s : State) (i : Nat) : State :=
  let x := s.ln i
  let src := s.psCur i
  let s := if !x.late && decide (x.since + psBound src x.target < s.lt) then s.raise 163 i else s
  let s := s.setFld (R.LNE_STAT i) F.LNE_STAT_PSCUR x.target
  let s := s.setFlag (R.LNE_STAT i) F.LNE_STAT_TRANS false
  let s := if x.target = 0 then
      let s := if src = 2 ∨ !(s.ln i).lat then s.latency i else s
      (s.setFlag (R.LNE_STAT i) F.LNE_STAT_CDR_LOCK (!s.flag (R.LNE_STAT i) F.LNE_STAT_LOS)).setLn i
        { s.ln i with eqRun := 0, eyeAt := s.lt + 100000000 * nsU }
    else if x.target = 2 then s.setLn i { s.ln i with lat := false } else s
  let s := s.pllRest (grpOf i)
  if s.tmode i ≠ 0 then (if x.target = 0 then s else s.laneStart i 0)
  else if s.flag (R.LNE_STAT i) F.LNE_STAT_PENDV then
    let p := s.fld (R.LNE_STAT i) F.LNE_STAT_PSPEND
    let s := s.laneSlot i none
    if p = x.target then s else s.laneStart i p
  else s

/-- LANE_STATE_CHANGE_DONE (R310): an exit from L2 needs the group PLL locked (Table 11.5). -/
def execLaneStateChangeDone (i : Fin 10) (s : State) : Res :=
  s.act! (
    if s.psTrans i.val && s.spn.refclk && (decide ((s.ln i.val).target = 2)
        || s.flag (R.LNE_GRP (grpOf i.val)) F.LNE_GRP_PLL_LOCK) then s.laneDone i.val
    else s)

/-- LANE_STATE_TIMEOUT (R310): the change passes its bound and goes on. -/
def execLaneStateTimeout (i : Fin 10) (s : State) : Res :=
  s.act! (
    let x := s.ln i.val
    if s.psTrans i.val && s.spn.refclk && !x.late then
      let s := s.moveTo (x.since + psBound (s.psCur i.val) x.target)
      (s.setLn i.val { x with late := true }).raise 163 i.val
    else s)

/-- The LOS of a network lane starts or ends the count of R340. -/
def State.losCount (s : State) (i : Nat) (t : Option Nat) : State :=
  if i < 2 then s.setPt i { s.pt i with losAt := t } else s
/-- LANE_LOS (R304). -/
def execLaneLos (i : Fin 10) (s : State) : Res :=
  s.act! (
    if s.flag (R.LNE_STAT i.val) F.LNE_STAT_LOS then s
    else
      let s := (s.setFlag (R.LNE_STAT i.val) F.LNE_STAT_LOS true).bump (R.LNE_STAT i.val) F.LNE_STAT_LOSCNT
      let s := s.losCount i.val (some s.lt)
      if s.inL0 i.val then s.setLine 161 i.val true else s)

/-- CDR_LOCK_LOSS (R304): the CDR cannot follow the data, or follows it again. -/
def execCdrLockLoss (i : Fin 10) (on : Bool) (s : State) : Res :=
  s.act! (
    if !s.inL0 i.val then s
    else if on then
      if s.flag (R.LNE_STAT i.val) F.LNE_STAT_CDR_LOCK then
        (s.setFlag (R.LNE_STAT i.val) F.LNE_STAT_CDR_LOCK false).setLine 161 i.val true
      else s
    else (s.setFlag (R.LNE_STAT i.val) F.LNE_STAT_CDR_LOCK true).laneQuiet i.val)

/-- The eye quality figure (R306): floor of 255 x min(EYE_H / 32, EYE_V / 100 mV), saturated at 255. -/
def eqf (h v : Nat) : Nat := min (min (255 * h / 32) (255 * v / 100)) 255

/-- EYE_MEASUREMENT (R302, R303, R306, R307): the figure, the end of EQLOW at a good one, and what the adaptation of the
receiver has reached. -/
def execEyeMeasurement (i : Fin 10) (h : Fin 65) (v : Fin 256) (ctle : Fin 16) (taps : BitVec 30) (s : State) : Res :=
  s.act! (
    if !s.inL0 i.val then s
    else
      let x := s.ln i.val
      let s := s.moveTo x.eyeAt
      let q := eqf h.val v.val
      let s := s.setReg (R.LNE_EYE i.val) (BitVec.ofNat 32 (q * 2 ^ 24 + v.val * 2 ^ 8 + h.val))
      let low := decide (q < s.fld (R.LNE_EQCFG i.val) F.LNE_EQCFG_EQTHR)
      let s := s.setLn i.val { x with eqRun := if low then min (x.eqRun + 1) 3 else 0, eyeAt := s.lt + 100000000 * nsU }
      let s := if low then s
        else (s.setFlag (R.LNE_STAT i.val) F.LNE_STAT_EQLOW false).setLine 162 i.val false
      let s := if s.flag (R.LNE_RXEQ i.val) F.LNE_RXEQ_CTLE_AUTO then
          s.setFld (R.LNE_RXEQ i.val) F.LNE_RXEQ_CTLE ctle.val else s
      if s.flag (R.LNE_RXEQ i.val) F.LNE_RXEQ_DFE_AUTO
          && decide (s.fld (R.LNE_GRP (grpOf i.val)) F.LNE_GRP_RATE = 3) then
        s.setReg (R.LNE_DFE i.val) (BitVec.ofNat 32 taps.toNat)
      else s)

/-- EQ_LOW (R307): the third low figure in a row. -/
def execEqLow (i : Fin 10) (s : State) : Res :=
  s.act! (
    if decide (3 ≤ (s.ln i.val).eqRun) && s.inL0 i.val && !s.flag (R.LNE_STAT i.val) F.LNE_STAT_EQLOW then
      (s.setFlag (R.LNE_STAT i.val) F.LNE_STAT_EQLOW true).setLine 162 i.val true
    else s)

/-- PLL_LOCK_LOSS (R312): with REFCLK present; the group's transmitters idle until PLL_LOCKED. -/
def execPllLockLoss (q : Fin 4) (s : State) : Res :=
  s.act! (
    if s.spn.refclk && s.flag (R.LNE_GRP q.val) F.LNE_GRP_PLL_LOCK then
      ((s.setFlag (R.LNE_GRP q.val) F.LNE_GRP_PLL_LOCK false).bump (R.LNE_GRP q.val) F.LNE_GRP_LOCKCNT).raise 160 q.val
    else s)

/-- A lane of the group needs its PLL (Table 11.4). -/
def State.pllWanted (s : State) (q : Nat) : Bool :=
  (grpLanes q).any (fun i => decide (s.psCur i ≠ 2) || s.psTrans i)
/-- The group's PLL is locked (R311, Table 11.5): the transmitters leave electrical idle. The lanes that were on when the lock was lost,
and those on their way from L2 to L1, get their latency measurement now; a lane on its way from L2 to L0 gets it as it enters L0. -/
def State.pllLocked (s : State) (q : Nat) : State :=
  if s.spn.refclk && s.pllWanted q && !s.flag (R.LNE_GRP q) F.LNE_GRP_PLL_LOCK then
    (s.setFlag (R.LNE_GRP q) F.LNE_GRP_PLL_LOCK true).forEach
      ((grpLanes q).filter (fun i => decide (s.psCur i ≠ 2) || (s.psTrans i && decide ((s.ln i).target = 1)))) (fun s i => s.latency i)
  else s

/-- Every lane at a loss of REFCLK (R312): electrical idle, its requested state kept. -/
def State.lanesLost (s : State) : State :=
  let s := s.forEach (List.range 10) (fun s i =>
    let s := ((s.setFld (R.LNE_STAT i) F.LNE_STAT_PSCUR 2).setFlag (R.LNE_STAT i) F.LNE_STAT_TRANS false).leaveL0 i |>.laneSlot i none
    s.setLn i { s.ln i with lat := false })
  s.forEach (List.range 4) (fun s q => s.setFlag (R.LNE_GRP q) F.LNE_GRP_PLL_LOCK false)
/-- REFCLK is back (R312): lanes requested in L0 or L1, and lanes in a test mode, re-enter their state. -/
def State.lanesBack (s : State) : State :=
  s.forEach (List.range 10) (fun s i =>
    let r := if s.tmode i ≠ 0 then 0 else (s.ln i).asked
    if r = 2 then s else s.laneStart i r)

/-- Transmit defaults of a rate code as POST, MAIN, PRE (Table 11.3). -/
def txDefault (rate : Nat) : Nat × Nat × Nat :=
  match rate with
  | 0 => (0, 50, 0)
  | 1 => (4, 50, 0)
  | 2 => (11, 48, 4)
  | 3 => (11, 46, 6)
  | 4 => (4, 50, 0)
  | 5 => (6, 52, 2)
  | 6 => (11, 48, 4)
  | _ => (0, 50, 0)
/-- The rate code belongs to the group (Table 11.2). -/
def rateOf (q rate : Nat) : Bool := if q < 2 then decide (rate ≤ 3) else decide (4 ≤ rate) && decide (rate ≤ 6)
/-- A group counts as idle while all its lanes are in L2 (R296). -/
def State.grpIdle (s : State) (q : Nat) : Bool := (grpLanes q).all (fun i => decide (s.psCur i = 2) && !s.psTrans i)
/-- Load the defaults of a rate into a lane (R301). -/
def State.loadTx (s : State) (i rate : Nat) : State :=
  let d := txDefault rate
  s.setReg (R.LNE_TXEQ i) (BitVec.ofNat 32 (d.1 * 2 ^ 16 + d.2.1 * 2 ^ 8 + d.2.2))
/-- Change the rate of a group (R296, R301, R303). -/
def State.setRate (s : State) (q rate : Nat) : State :=
  if s.fld (R.LNE_GRP q) F.LNE_GRP_RATE = rate then s
  else
    let s := s.setFld (R.LNE_GRP q) F.LNE_GRP_RATE rate
    s.forEach (grpLanes q) (fun s i => (s.loadTx i rate).setReg (R.LNE_DFE i) 0)

/-- The performance level a network rate needs, with or without RS-FEC (Table 16.2). -/
def rateLevel (rate : Nat) (fec : Bool) : Nat := if rate = 3 then (if fec then 3 else 2) else 0
/-- The level in effect (R429). -/
def State.level (s : State) : Nat := s.fld R.PWR_STAT F.PWR_STAT_PL
/-- A rate write the level forbids (R430). -/
def State.rateDemand (s : State) (q : Nat) (v : Word) : Bool :=
  decide (q < 2) && decide (bitsOf v.toNat 3 0 ≠ s.fld (R.LNE_GRP q) F.LNE_GRP_RATE)
    && decide (s.level < rateLevel (bitsOf v.toNat 3 0) (s.flag (R.NET_CTRL q) F.NET_CTRL_FEC))
/-- A write of LNE_GRP (R296, R430): CFGERR clears by 1; a rate of the group is applied while it is idle, and one of
another group sets CFGERR. -/
def State.writeLneGrp (s : State) (q : Nat) (v : Word) : State :=
  let a := R.LNE_GRP q
  let rate := bitsOf v.toNat 3 0
  let s := s.writeFlds a [F.LNE_GRP_LOCKCNT, F.LNE_GRP_CFGERR, F.LNE_GRP_PLL_LOCK] (v &&& 0xFFFFFFF0)
  if rate = s.fld a F.LNE_GRP_RATE then s
  else if !s.grpIdle q then s.noteLocked a
  else if !rateOf q rate then s.setFlag a F.LNE_GRP_CFGERR true
  else if s.rateDemand q v then s
  else s.setRate q rate
/-- LNE_GRP_RATE (R296). -/
def execLneGrpRate (q : Fin 4) (v : Word) (s : State) : Res := s.act! (s.writeLneGrp q.val v)

/-- A write of LNE_RXEQ (R302): with CTLE_AUTO = 1 the CTLE field keeps showing the applied value. -/
def State.writeLneRxeq (s : State) (i : Nat) (v : Word) : State :=
  let a := R.LNE_RXEQ i
  let ctle := if v.toNat.testBit 31 then s.fld a F.LNE_RXEQ_CTLE else bitsOf v.toNat 3 0
  s.writeFlds a [F.LNE_RXEQ_CTLE_AUTO, F.LNE_RXEQ_DFE_AUTO, F.LNE_RXEQ_CTLE]
    (BitVec.ofNat 32 (putBits v.toNat F.LNE_RXEQ_CTLE.hi F.LNE_RXEQ_CTLE.lo ctle))

/-- A transmit setting is valid (R300). -/
def txValid (post main pre : Nat) : Bool := decide (pre + main + post ≤ 63) && decide (12 + pre + post ≤ main)
/-- A write of LNE_TXEQ (R300, R301); reserved bits written 1 are ignored in a setting that is not applied too (R456). -/
def State.writeLneTxeq (s : State) (i : Nat) (v : Word) : State :=
  let n := v.toNat
  let flds := [F.LNE_TXEQ_POST, F.LNE_TXEQ_MAIN, F.LNE_TXEQ_PRE]
  if txValid (bitsOf n 20 16) (bitsOf n 13 8) (bitsOf n 3 0) then s.writeFlds (R.LNE_TXEQ i) flds v
  else
    let s := s.setFlag (R.LNE_STAT i) F.LNE_STAT_CFGERR true
    if writeIgnored flds (s.reg (R.LNE_TXEQ i)).toNat n then s.noteIgnored (R.LNE_TXEQ i) else s
/-- LNE_TXEQ_WRITE (R300). -/
def execLneTxeqWrite (i : Fin 10) (v : Word) (s : State) : Res := s.act! (s.writeLneTxeq i.val v)

end Sys2Proof.Machine
end

