-- ==== Sys2Proof/Machine/Link.lean ====
section
/-! DEFINITION. Sending over Chainpo (sections 12.2, 12.4 and 8.7): cells, credit, the replay buffer, and VC1
messages on both links. -/
namespace Sys2Proof.Machine

/-- Buffer of a virtual channel in blocks (Table 12.4). -/
def vcBuffer (vc : Nat) : Nat :=
  match vc with
  | 0 => 128
  | 1 => 64
  | 2 => 512
  | 3 => 2048
  | 4 => 256
  | 5 => 512
  | _ => 0
/-- Priority of a virtual channel, best first (Table 12.4). -/
def vcOrder : List Nat := [1, 0, 4, 2, 5, 3]
/-- Data blocks of a payload. -/
def cellLen (bs : List Byte) : Nat := (bs.length + 7) / 8
/-- Lanes of a width code: x1, x2, x4. -/
def widthLanes (w : Nat) : Nat := 2 ^ w
/-- The link receives cells: it is up and REFCLK is present (Table 12.15, R312). -/
def State.linkUp (s : State) (k : Nat) : Bool := s.flag (R.CHP_STAT k) F.CHP_STAT_UP && s.spn.refclk
/-- The link sends: it is up and every lane of its width carries data (R312, R313, R316). -/
def State.linkTx (s : State) (k : Nat) : Bool :=
  s.linkUp k && (List.range (widthLanes (s.fld (R.CHP_STAT k) F.CHP_STAT_WIDTH))).all (fun j => s.txData (2 + 4 * k + j))
/-- The lanes of a link that invert what they send, a bit each (R305). -/
def State.linkInv (s : State) (k : Nat) : Nat :=
  (List.range 4).foldl (fun n j => n + b2n (s.txInv (2 + 4 * k + j)) * 2 ^ j) 0
/-- The blocks a lane of a link has carried up to an instant, of 66 bits each at its generation's rate (R327, Table 11.2). -/
def laneBlocks (gen t : Nat) : Nat := t * 25 * 2 ^ (gen - 1) / (528 * nsU)
/-- The stamp of the first bit of the block that starts on lane 0 at or next after `t` (R47, R335; log 82). -/
def stripeAt (gen t : Nat) : Nat :=
  let r := 25 * 2 ^ (gen - 1)
  let n := (t * r + 528 * nsU - 1) / (528 * nsU)
  stamp50 ((n * (528 * nsU) + r - 1) / r)
/-- The stamp of a TIME block sent now: it goes out at the next stripe position on lane 0 (R335). -/
def State.stripeStamp (s : State) (k : Nat) : Nat := stripeAt (s.fld (R.CHP_STAT k) F.CHP_STAT_GEN) s.lt
/-- Lanes of a link in use. -/
def State.linkW (s : State) (k : Nat) : Nat := widthLanes (s.fld (R.CHP_STAT k) F.CHP_STAT_WIDTH)
/-- A control block: type and fields with their CRC-8 (Table 12.3). -/
def ctlBlock (body : Nat) : Nat := body * 256 + crc8 (beBytes 7 body)
/-- Send a control block on one lane of a link. -/
def State.sendLane (s : State) (k j bits : Nat) : State := s.emit (.block k j (s.linkInv k) bits)
/-- The next block of the stream has its place: where its stripe is one in 16,384, each lane carries an ALIGN block first (R327). -/
def State.alignDue (s : State) (k : Nat) : State :=
  let w := s.linkW k
  let x := s.lk k
  if x.txBlocks % (16384 * w) = 0 then
    (s.setLk k { x with txBlocks := x.txBlocks + w }).forEach (List.range w) (fun s j => s.sendLane k j (ctlBlock (0x4B * 2 ^ 48 + j * 2 ^ 40)))
  else s
/-- The lane of the next block of the stream (R327). -/
def State.txLane (s : State) (k : Nat) : Nat := (s.lk k).txBlocks % s.linkW k
/-- One block of the stream has gone. -/
def State.countBlock (s : State) (k : Nat) : State := s.setLk k { s.lk k with txBlocks := (s.lk k).txBlocks + 1 }
/-- Send a control block in the stream of a link (R327). -/
def State.sendBlock (s : State) (k bits : Nat) : State :=
  let s := s.alignDue k
  (s.sendLane k (s.txLane k) bits).countBlock k
/-- Send an IDLE block. -/
def State.sendIdle (s : State) (k : Nat) : State := s.sendBlock k (ctlBlock (0x1E * 2 ^ 48))
/-- Send a control block on a link that is up, if its transmitters are active. -/
def State.sendOnLink (s : State) (k bits : Nat) : State := if s.linkTx k then s.sendBlock k bits else s
/-- Send a TIME block, which goes at a stripe position on lane 0 (R335). -/
def State.sendTime (s : State) (k bits : Nat) : State :=
  if s.linkTx k then
    let s := s.alignDue k
    (s.forEach (List.range ((s.linkW k - s.txLane k) % s.linkW k)) (fun s _ => s.sendIdle k)).sendBlock k bits
  else s
/-- Send a cell on a link as it was numbered, if its transmitters are active. -/
def State.putCell (s : State) (k : Nat) (c : LinkCell) : State :=
  if s.linkTx k then
    let s := s.alignDue k
    (s.emit (.cell k (s.txLane k) (s.linkInv k) c.vc c.seq c.bytes)).forEach (List.range (cellLen c.bytes + 1))
      (fun s _ => (s.alignDue k).countBlock k)
  else s
/-- An LCTL block of this hub: ACK, NAK and the freed blocks of a virtual channel (Table 12.3). -/
def LinkState.lctl (x : LinkState) (vc : Nat) (nak : Bool) : Nat :=
  ctlBlock (0x55 * 2 ^ 48 + (x.rxSeq + 255) % 256 * 2 ^ 40 + b2n nak * 2 ^ 39 + vc * 2 ^ 36 + (x.mine[vc]?).getD 0 * 2 ^ 24)
/-- Blocks of this hub's buffer become free; the partner is told at once (R329). -/
def State.freeBlocks (s : State) (k vc n : Nat) : State :=
  if s.linkUp k && decide (n ≠ 0) then
    let x := s.lk k
    let x := { x with mine := x.mine.set vc (((x.mine[vc]?).getD 0 + n) % 4096) }
    (s.setLk k x).sendOnLink k (x.lctl vc false)
  else s
/-- Free space at the partner on a virtual channel (R331). -/
def LinkState.room (x : LinkState) (vc : Nat) : Nat :=
  vcBuffer vc - ((x.sent[vc]?).getD 0 + 4096 - (x.freed[vc]?).getD 0) % 4096
/-- Replace an entry of a list. -/
def setAt (l : List Nat) (i v : Nat) : List Nat := l.set i v
/-- Blocks in the replay buffer. -/
def LinkState.unacked (x : LinkState) : Nat := x.replay.foldl (fun n c => n + cellLen c.bytes + 1) 0
/-- The cell of a virtual channel that may go now: the first that waits there, with room at the partner and in the replay buffer of
4,096 blocks (R329, R331); a CELL takes LEN + 1 blocks. -/
def LinkState.ready (x : LinkState) (vc : Nat) : Option WaitCell :=
  match x.waiting.find? (fun w => decide (w.vc = vc)) with
  | some w => if cellLen w.bytes + 1 ≤ x.room vc ∧ x.unacked + cellLen w.bytes + 1 ≤ 4096 then some w else none
  | none => none
/-- Send a cell from the best virtual channel that has one to go (R331); a cell of the other link leaves that link's buffer. -/
def State.sendNext (s : State) (k : Nat) : Option State :=
  let x := s.lk k
  match (vcOrder.filterMap x.ready).head? with
  | none => none
  | some w =>
    let c : LinkCell := ⟨x.txSeq, w.vc, w.bytes⟩
    let n := ((x.sent[w.vc]?).getD 0 + cellLen w.bytes + 1) % 4096
    let s := s.setLk k { x with waiting := x.waiting.erase w, txSeq := (x.txSeq + 1) % 256,
                                replay := x.replay ++ [c], sent := setAt x.sent w.vc n }
    some ((s.putCell k c).freeBlocks (1 - k) w.vc w.back)
/-- Send every waiting cell that has credit. -/
def State.pump (s : State) (k : Nat) : Nat → State
  | 0 => s
  | n + 1 =>
    match s.sendNext k with
    | some t => t.pump k n
    | none => s
/-- The waiting cells go as far as the transmitters and credit allow. -/
def State.flushLink (s : State) (k : Nat) : State := if s.linkTx k then s.pump k (s.lk k).waiting.length else s
/-- Offer a cell to a link; a link that is down takes none. -/
def State.sendCell (s : State) (k vc : Nat) (bs : List Byte) : State :=
  if s.linkUp k then (s.setLk k { s.lk k with waiting := (s.lk k).waiting ++ [⟨vc, bs, 0⟩] }).flushLink k else s
/-- The cell that a delivery has left waiting on the other link keeps its blocks of this link's buffer until it goes; otherwise they are
free (R329, R331). `before` counts the cells that waited there. -/
def State.settleCredit (s : State) (k vc n before : Nat) : State :=
  let x := s.lk (1 - k)
  if before < x.waiting.length ∧ (x.waiting.getLast?).any (fun w => decide (w.vc = vc) && decide (w.back = 0)) then
    s.setLk (1 - k) { x with waiting := x.waiting.dropLast ++ ((x.waiting.getLast?).map (fun w => { w with back := n })).toList }
  else s.freeBlocks k vc n
/-- PLL_LOCKED (R311, R312): what waited for the transmitters goes. -/
def execPllLocked (q : Fin 4) (s : State) : Res :=
  s.act! (((s.pllLocked q.val).flushLink 0).flushLink 1)
/-- Offer a cell to both links. -/
def State.sendBoth (s : State) (vc : Nat) (bs : List Byte) : State := (s.sendCell 0 vc bs).sendCell 1 vc bs

/-- The 24-byte payload of a VC1 message (R332, Table 12.5). -/
def vc1Payload (mtype byte0 hops origin time : Nat) : List Byte :=
  beBytes 1 mtype ++ beBytes 3 0 ++ beBytes 1 byte0 ++ beBytes 1 hops ++ beBytes 2 origin ++ ltBytes time ++ beBytes 2 0
/-- Send a VC1 message of this hub on both links; it has accepted its own (R230). -/
def State.sendVc1 (s : State) (mtype byte0 time : Nat) : State :=
  ({ s with seenTrig := s.seenTrig ++ [(mtype, s.hubId, byte0, time)] }).sendBoth 1 (vc1Payload mtype byte0 0 s.hubId time)
/-- LT of an operand. -/
def ltOp (t : LtOp) : Nat := mkLt t.sec t.ns t.frac
/-- Forward a VC1 message on the other link with HOPS incremented; HOPS above 15 ends it (R230). Answers whether the
hub takes it: each combination of MTYPE, ORIGIN, message byte 0 and LT once (R332). -/
def State.takeVc1 (s : State) (k mtype : Nat) (m : Vc1Msg) : State × Bool :=
  if 15 ≤ m.hops.val then (s, false)
  else
    let s := s.sendCell (1 - k) 1 (vc1Payload mtype m.byte0.val (m.hops.val + 1) m.origin.val (ltOp m.time))
    let key := (mtype, m.origin.val, m.byte0.val, ltOp m.time)
    if s.seenTrig.contains key then (s, false)
    else ({ s with seenTrig := s.seenTrig ++ [key] }, true)

end Sys2Proof.Machine
end

