-- ==== Sys2Proof/Machine/Trigger.lean ====
section
/-! DEFINITION. Trigger conditions of Bowl capture (sections 8.4, 8.7): the level tests, events, ring triggers and
TRIG_OUT pulses. -/
namespace Sys2Proof.Machine

/-- CAP_STAT.STATE codes (Table 8.9). -/
def capIdle : Nat := 0
def capArmed : Nat := 1
def capPost : Nat := 2
def capHold : Nat := 3
def capFull : Nat := 4
def capDone : Nat := 5
def State.capState (s : State) (b : Nat) : Nat := s.fld (R.CAP_STAT b) F.CAP_STAT_STATE
def State.setCapState (s : State) (b v : Nat) : State := s.setFld (R.CAP_STAT b) F.CAP_STAT_STATE v

/-- Condition `i` is enabled. -/
def State.cndEn (s : State) (b i : Nat) : Bool := s.flag (R.CAP_CND b i) F.CAP_CND_EN
def State.cndType (s : State) (b i : Nat) : Nat := s.fld (R.CAP_CND b i) F.CAP_CND_TYPE
def State.cndChan (s : State) (b i : Nat) : Nat := s.fld (R.CAP_CND b i) F.CAP_CND_CHAN
def State.cndParam (s : State) (b i : Nat) : Nat := s.fld (R.CAP_CND b i) F.CAP_CND_PARAM
def State.cndFwd (s : State) (b i : Nat) : Bool := s.flag (R.CAP_CND b i) F.CAP_CND_FWD
def State.cndLine (s : State) (b i : Nat) : Nat := s.fld (R.CAP_CND b i) F.CAP_CND_LINE

/-- A level condition on a value (Table 8.2, R221): `prev` is the previous valid value, `prevFlag` the FLAG test of the
previous row. -/
def levelMet (typ v1 v2 : Nat) (prev : Option Int) (prevFlag : Bool) (v : Int) (q : Nat) : Bool :=
  let a := signed 32 v1
  let b := signed 32 v2
  if typ = 5 then decide (q % 256 &&& v1 % 256 ≠ 0) && !prevFlag
  else if isInvalid q then false
  else
    match prev with
    | none => false
    | some p =>
      match typ with
      | 1 => decide (p < a) && decide (a ≤ v)
      | 2 => decide (a < p) && decide (v ≤ a)
      | 3 => decide (b ≤ p) && decide (p ≤ a) && (decide (a < v) || decide (v < b))
      | 4 => decide ((v1 : Int) ≤ (if v < p then p - v else v - p))
      | _ => false

/-- An event meets an event condition (Table 8.2). The parameter of a SWITCH event is channel × 8 + OFF × 4 + switch. -/
def State.eventMet (s : State) (b i : Nat) (e : CapEvent) : Bool :=
  let p := s.cndParam b i
  s.cndEn b i && decide (s.cndType b i = e.typ)
    && (match e.typ with
        | 6 => decide (e.param = s.cndChan b i * 8 + p % 8)
        | 7 => decide (e.param = s.cndChan b i)
        | 8 => p.testBit 1 || decide (p % 2 = e.param)
        | 9 => decide (e.param = p)
        | 10 => decide (e.param = s.cndLine b i)
        | 11 => true
        | 12 => decide (e.param = p)
        | _ => false)

/-- Start a TRIG_OUT pulse of `us` microseconds; pulses combine by OR (R69, R231). -/
def State.trigPulse (s : State) (us : Nat) : State :=
  if us = 0 then s
  else
    let s := { s with spn := { s.spn with pulses := s.spn.pulses ++ [s.lt + nsU * 1000 * us] } }
    s.emit (.pin 1 1 s.lt)

/-- Slots of a buffer (R212): SLOTPG 0 acts as 1. -/
def State.capSlotPg (s : State) (b : Nat) : Nat := max (s.fld (R.CAP_SLOT b) F.CAP_SLOT_SLOTPG) 1
def State.capNrec (s : State) (b : Nat) : Nat := s.fld (R.CAP_BUF b) F.CAP_BUF_PAGES / s.capSlotPg b
/-- The slot is in use: armed, being completed, or held by a consumer (R224). -/
def CapState.slotHeld (x : CapState) (k : Nat) : Bool :=
  x.done.any (fun d => decide (d.slot = k)) || x.cur.any (fun r => decide (r.slot = k))
    || x.fin.any (fun r => decide (r.slot = k))
/-- The next free slot in cyclic order (R224). -/
def State.freeSlot (s : State) (b : Nat) : Option Nat :=
  let x := s.cp b
  let k := s.capNrec b
  ((List.range k).map (fun i => (x.slot + i) % k)).find? (fun q => !x.slotHeld q)

/-- The buffer becomes ARMED on the next free slot with an empty pre-trigger area, or FULL (R217, R218). -/
def State.capRearm (s : State) (b : Nat) : State :=
  let x := s.cp b
  match s.freeSlot b with
  | some q => (s.setCp b { x with slot := q, pre := [], kept := 0 }).setCapState b capArmed
  | none => (s.setCp b { x with pre := [], kept := 0 }).setCapState b capFull

/-- The buffer returns to IDLE; a record in POST is closed with RFLAGS bit 3 (R217), and what it kept for later rows goes. -/
def State.capIdleNow (s : State) (b : Nat) : State :=
  let x := s.cp b
  let fin := match x.cur with
    | some r => some { r with rflags := r.rflags ||| 8 }
    | none => x.fin
  (s.setCp b { x with cur := none, fin := fin, pre := [], kept := 0, events := [], armAt := none,
                      disarmAt := none }).setCapState b capIdle

/-- The events a pending arm keeps: those dated at or after its row boundary (R216, R219). -/
def CapState.armEvents (x : CapState) : List CapEvent := x.events.filter (fun e => x.armAt.any (fun a => decide (a ≤ e.time)))
/-- A DISARM takes effect; an arm that is pending then (R218: ARM in DONE) stays so (DESIGN CHOICE, log 90). -/
def State.capDisarmNow (s : State) (b : Nat) : State :=
  let x := s.cp b
  let s := s.capIdleNow b
  s.setCp b { s.cp b with armAt := x.armAt, events := x.armEvents }
/-- An arm takes effect: the row at its boundary is the first one kept (R216, R218). -/
def State.capArmNow (s : State) (b t : Nat) : State :=
  let x := s.cp b
  (s.setCp b { x with armAt := none, nextRow := t, prev := [], fwd := [], since := t, events := x.armEvents }).capRearm b
/-- An arming or a disarming whose row boundary has passed has taken effect (R216, R217). -/
def State.capSync (s : State) (b : Nat) : State :=
  let s := match (s.cp b).disarmAt with
    | some t => if t ≤ s.lt then s.capDisarmNow b else s
    | none => s
  match (s.cp b).armAt with
  | some t => if t ≤ s.lt then s.capArmNow b t else s
  | none => s
/-- Every buffer. -/
def State.capSyncAll (s : State) : State := s.forEach (List.range 16) (fun s b => s.capSync b)

/-- The buffer takes events dated from its arming on: it is not IDLE or DONE, and no record that leads to DONE waits for its
completion (R217, R222). -/
def State.capTakes (s : State) (b : Nat) (time : Nat) : Bool :=
  let st := s.capState b
  decide (st ≠ capIdle) && decide (st ≠ capDone) && decide ((s.cp b).since ≤ time)
    && ((s.cp b).fin.isNone || decide (st ≠ capPost) || s.flag (R.CAP_CFG b) F.CAP_CFG_AUTO)
/-- Offer an event to one buffer, which keeps it for the row it falls in when it takes it, or when its arming boundary is not
after it; else it is ignored (R222). An event of a row already decided is late (R219). -/
def State.offerEvent (s : State) (b : Nat) (e : CapEvent) : State :=
  let x := s.cp b
  let on := s.capTakes b e.time
  if (on || x.armAt.any (fun a => decide (a ≤ e.time))) && (List.range 8).any (fun i => s.eventMet b i e) then
    let s := s.setCp b { x with events := x.events ++ [e] }
    if on && decide (e.time < x.nextRow) then (s.setFlag (R.CAP_STAT b) F.CAP_STAT_LATE true).raise 112 b else s
  else s

/-- An accepted ring trigger at this hub's own conditions: its echo pulse and its event (R230, R231). -/
def State.ringEvent (s : State) (line time origin : Nat) : State :=
  let s := if (s.fld R.CAP_RING F.CAP_RING_ECHO).testBit line then s.trigPulse 1 else s
  s.forEach (List.range 16) (fun s b => (s.capSync b).offerEvent b ⟨10, line, time, origin⟩)

/-- Send a ring trigger on both links; the origin accepts its own message at sending, on an enabled line (R229, R230). -/
def State.sendTrigger (s : State) (line time : Nat) : State :=
  let key := (0x10, s.hubId, line, time)
  if s.seenTrig.contains key then s
  else
    let s := { s with seenTrig := s.seenTrig ++ [key] }
    let s := s.sendVc1 0x10 line time
    if (s.fld R.CAP_RING F.CAP_RING_RXEN).testBit line then s.ringEvent line time s.hubId else s

/-- Ring triggers of the forwarding conditions an event meets in a buffer that is not IDLE (R229), or that arms at or before
the event's LT; one dated before the arming meets none (R216). -/
def State.forwardEvent (s : State) (b : Nat) (e : CapEvent) : State :=
  if (s.capState b = capIdle ∨ e.time < (s.cp b).since) ∧ (s.cp b).armAt.all (fun a => decide (e.time < a)) then s
  else s.forEach (List.range 8) (fun s i =>
    if s.cndFwd b i && s.eventMet b i e then s.sendTrigger (s.cndLine b i) e.time else s)

/-- An event for one buffer. -/
def State.capEventOne (s : State) (b : Nat) (e : CapEvent) : State := ((s.capSync b).offerEvent b e).forwardEvent b e
/-- An event for every buffer. -/
def State.capEvent (s : State) (typ param time : Nat) : State :=
  s.forEach (List.range 16) (fun s b => s.capEventOne b ⟨typ, param, time, s.hubId⟩)

/-- A ring trigger accepted from a link (R230): its event, and the ring triggers of the RING conditions that forward it (R229). -/
def State.acceptRing (s : State) (line time origin : Nat) : State :=
  (s.ringEvent line time origin).forEach (List.range 16) (fun s b => s.forwardEvent b ⟨10, line, time, origin⟩)

/-- The FLAG test on the row just before the one named (R221). -/
def State.prevFlag (s : State) (n tap name p v1 : Nat) : Bool :=
  decide ((s.tapAt n tap (name - p)).2.1 % 256 &&& v1 % 256 ≠ 0)
/-- Forwarding of level conditions as a value becomes available at its tap (R229): the value of a row since arming, against the
latest valid one since arming (R221). -/
def State.levelForward (s : State) (n tap name : Nat) (v : Int) (q : Nat) : State :=
  s.forEach (List.range 16) (fun s b =>
    let s := s.capSync b
    if s.capState b = capIdle ∨ s.fld (R.CAP_CFG b) F.CAP_CFG_TAP ≠ tap ∨ name < (s.cp b).since then s
    else s.forEach (List.range 8) (fun s i =>
      let t := s.cndType b i
      if s.cndEn b i && s.cndFwd b i && decide (1 ≤ t) && decide (t ≤ 5) && decide (s.cndChan b i = n) then
        let x := s.cp b
        let old := tabGet (fun _ => none) x.fwd i
        let v1 := (s.reg (R.CAP_CND_V1 b i)).toNat
        let v2 := (s.reg (R.CAP_CND_V2 b i)).toNat
        let met := levelMet t v1 v2 old (s.prevFlag n tap name (s.rowPackets tap n * pktU) v1) v q
        let now := if isInvalid q then old else some v
        let s := s.setCp b { x with fwd := tabPut (fun _ => none) x.fwd i now }
        if met then s.sendTrigger (s.cndLine b i) name else s
      else s))

end Sys2Proof.Machine
end

