-- ==== Sys2Proof/Machine/Event.lean ====
section
/-! DEFINITION. Comparator-started windows (section 4.7): arming, crossings, bursts, hold-off, overruns and stuck
levels. -/
namespace Sys2Proof.Machine

def State.evtBurst (s : State) (n : Nat) : Bool := s.flag (R.CH_EVT_STAT n) F.CH_EVT_STAT_BURST
def State.evtHold (s : State) (n : Nat) : Bool := s.flag (R.CH_EVT_STAT n) F.CH_EVT_STAT_HOLD
/-- The open window of an event-mode channel belongs to its burst (R118, R120). -/
def State.inBurst (s : State) (n : Nat) : Bool := s.evtBurst n && decide ((s.ch n).burstLeft ≠ 0)
/-- The comparator acts only while the region is CONVERTING (R118). -/
def State.cmpActs (s : State) (n : Nat) : Bool := s.spn.refclk && s.evtMode n && decide (s.rgState (rgnOf n) = rgConverting)
/-- The packet edge at or after an instant. -/
def packetEdge (t : Nat) : Nat := (t + pktU - 1) / pktU * pktU

/-- The thresholds of R119 leave no re-arm band. -/
def State.evtThrBad (s : State) (n : Nat) : Bool :=
  let a := R.CH_EVT_THR n
  decide (s.actFld a F.CH_EVT_THR_UPPER ≤ s.actFld a F.CH_EVT_THR_LOWER + 2 * s.actFld a F.CH_EVT_THR_HYST)
/-- Check the thresholds of an event-mode channel (R119): CFGERR and source 84. -/
def State.evtCheck (s : State) (n : Nat) : State :=
  let a := R.CH_EVT_STAT n
  let bad := s.evtMode n && s.evtThrBad n
  let rise := bad && !s.flag a F.CH_EVT_STAT_CFGERR
  let s := s.setFlag a F.CH_EVT_STAT_CFGERR bad
  let s := if bad then s.setFlag a F.CH_EVT_STAT_ARMED false else s
  if rise then s.raise 84 n else s

/-- Not armed, hold-off ended, the level not yet seen in the re-arm band (R124; log 13). -/
def State.evtIdle (s : State) (n : Nat) : State :=
  let a := R.CH_EVT_STAT n
  let s := (((s.setFlag a F.CH_EVT_STAT_ARMED false).setFlag a F.CH_EVT_STAT_BURST false).setFlag a
    F.CH_EVT_STAT_HOLD false).setFlag a F.CH_EVT_STAT_STUCK false
  (s.setCh n { s.ch n with burstFrom := none, burstLeft := 0, holdLeft := 0, inBandSince := none, outSince := none,
                           stuckLeft := 0, stuckSaid := false, ovrInWindow := false }).setLine 86 n false
/-- Re-arm at a boundary when the hold-off has ended and the level has been in the re-arm band since before it
(R121). -/
def State.evtRearm (s : State) (n lt : Nat) : State :=
  let a := R.CH_EVT_STAT n
  let x := s.ch n
  if s.cmpActs n && !s.evtArmed n && !s.evtBurst n && !s.evtHold n && x.burstFrom.isNone && !s.evtThrBad n
      && x.inBandSince.any (fun t => decide (t < lt)) then
    s.setFlag a F.CH_EVT_STAT_ARMED true
  else s

/-- COMPARATOR_CROSSING (R120): an armed unit sees the level leave the threshold band. -/
def execComparatorCrossing (n : Fin 384) (s : State) : Res :=
  s.act! (
    let n := n.val
    if s.cmpActs n && s.evtArmed n then
      let t := packetEdge s.lt
      let s := s.moveTo t
      let k := s.actFld (R.CH_EVT_STUCK n) F.CH_EVT_STUCK_STUCK_T
      let s := s.setFlag (R.CH_EVT_STAT n) F.CH_EVT_STAT_ARMED false
      let s := s.setSt (R.CH_EVT_LAST n) (R.CH_EVT_LAST_HI n) (stOf t)
      let s := s.setCh n { s.ch n with crossLt := t, burstFrom := some (t + 3000 * nsU), inBandSince := none,
                                       outSince := some t, stuckLeft := if k = 0 then 0 else k + 2, stuckSaid := false,
                                       novr := 0 }
      (s.cmpRecord n 0x30 0 t).capEvent 7 n t
    else s)

/-- BURST_END (R121): the last burst window has closed; the hold-off runs. -/
def execBurstEnd (n : Fin 384) (s : State) : Res :=
  s.act! (
    let n := n.val
    if s.evtBurst n && decide ((s.ch n).burstLeft = 0) then
      let a := R.CH_EVT_STAT n
      let s := (s.setFlag a F.CH_EVT_STAT_BURST false).setFlag a F.CH_EVT_STAT_HOLD true
      s.setCh n { s.ch n with holdLeft := max (s.actFld (R.CH_EVT_CTRL n) F.CH_EVT_CTRL_HOLDOFF) 1 }
    else s)

/-- COMPARATOR_HOLDOFF_END (R121): the hold-off has ended; the re-arm test of this boundary. -/
def execComparatorHoldoffEnd (n : Fin 384) (s : State) : Res :=
  s.act! (
    let n := n.val
    if s.evtHold n && decide ((s.ch n).holdLeft = 0) then
      (s.setFlag (R.CH_EVT_STAT n) F.CH_EVT_STAT_HOLD false).evtRearm n (s.rg (rgnOf n)).edge
    else s)

/-- COMPARATOR_OVERRUN (R122): a unit that is not armed sees a departure past a threshold. -/
def execComparatorOverrun (n : Fin 384) (s : State) : Res :=
  s.act! (
    let n := n.val
    if s.cmpActs n && !s.evtArmed n then
      let t := packetEdge s.lt
      let s := s.moveTo t
      let x := s.ch n
      let s := s.setCh n { x with novr := x.novr + 1, inBandSince := none, outSince := some t, ovrInWindow := true }
      let s := s.bump (R.CH_EVT_STAT n) F.CH_EVT_STAT_OVRCNT
      let s := s.cmpRecord n 0x31 (x.novr + 1) t
      if x.ovrInWindow then s else s.raise 87 n
    else s)

/-- COMPARATOR_STUCK (R123): the level has been outside the band since the crossing at the closing edge of the
STUCK_T-th window. -/
def execComparatorStuck (n : Fin 384) (s : State) : Res :=
  s.act! (
    let n := n.val
    let x := s.ch n
    if s.cmpActs n && decide (x.stuckLeft = 1) && !x.stuckSaid && x.outSince.any (fun t => decide (t = x.crossLt)) then
      let s := s.setCh n { x with stuckSaid := true }
      let s := s.setFlag (R.CH_EVT_STAT n) F.CH_EVT_STAT_STUCK true
      (s.cmpRecord n 0x32 x.novr (s.rg (rgnOf n)).edge).setLine 86 n true
    else s)

/-- COMPARATOR_BAND_REENTRY (R119, R121, R123): where the comparator sees the level: inside the re-arm band, which ends a stuck episode, or
between it and the thresholds (log 13). -/
def execComparatorBandReentry (l : SeenLevel) (s : State) : Res :=
  s.act! (
    let n := l.n.val
    if s.cmpActs n then
      let x := s.ch n
      match l.level with
      | .rearm =>
        ((s.setCh n { x with inBandSince := if x.inBandSince.isSome then x.inBandSince else some s.lt, outSince := none,
                             stuckLeft := 0 }).setFlag (R.CH_EVT_STAT n) F.CH_EVT_STAT_STUCK false).setLine 86 n false
      | .between => s.setCh n { x with inBandSince := none, outSince := none }
    else s)

/-- The boundary work of a comparator at the end of a window (R120 to R123): the burst, hold-off and stuck counts, the
re-arm test, and the start of a burst that is due. -/
def State.evtEdge (s : State) (n lt : Nat) : State :=
  let x := s.ch n
  let s := s.setCh n { x with
    burstLeft := if s.evtBurst n then x.burstLeft - 1 else x.burstLeft,
    holdLeft := if s.evtHold n then x.holdLeft - 1 else x.holdLeft,
    stuckLeft := if x.stuckLeft ≤ 1 then x.stuckLeft else x.stuckLeft - 1, ovrInWindow := false }
  let s := s.evtRearm n lt
  if (s.ch n).burstFrom.any (fun t => decide (t ≤ lt)) then
    (s.setFlag (R.CH_EVT_STAT n) F.CH_EVT_STAT_BURST true).setCh n { s.ch n with
      burstFrom := none, burstLeft := max (s.actFld (R.CH_EVT_CTRL n) F.CH_EVT_CTRL_BURST) 1 }
  else s

/-- A write of an event-mode register takes effect at a boundary (R124): a change of MODE ends a burst or leaves the
unit unarmed. -/
def State.evtWrite (s : State) (n a : Nat) (v : Word) : State :=
  let was := s.evtMode n
  let s := s.setAct a v
  let s := if s.evtMode n = was then s else s.evtIdle n
  s.evtCheck n
/-- At a region start (R124). -/
def State.evtStart (s : State) (n : Nat) : State := if s.evtMode n then (s.evtIdle n).evtCheck n else s
/-- At a region stop a burst ends (R124). -/
def State.evtStop (s : State) (n : Nat) : State :=
  if s.evtMode n then s.evtIdle n else s

end Sys2Proof.Machine
end

