-- ==== Sys2Proof/Machine/Frames.lean ====
section
/-! DEFINITION. Frames of the network ports as they arrive (R305, R313, R320 to R322): the port's addresses, and what the active exit
accepts. -/
namespace Sys2Proof.Machine

/-- XSTATE codes (Table 12.13). -/
def xNone : Nat := 0
def xIneligible : Nat := 1
def xStandby : Nat := 2
def xActive : Nat := 3
def xFailed : Nat := 4
def State.xState (s : State) (p : Nat) : Nat := s.fld (R.NET_STAT p) F.NET_STAT_XSTATE
def State.setX (s : State) (p v : Nat) : State := s.setFld (R.NET_STAT p) F.NET_STAT_XSTATE v

/-- The port is the active exit (R321). -/
def State.isActive (s : State) (p : Nat) : Bool := decide (s.xState p = xActive)
def State.portMac (s : State) (p : Nat) : Nat := (s.reg (R.NET_MAC_HI p)).toNat * 2 ^ 32 + (s.reg (R.NET_MAC p)).toNat
def State.ip4 (s : State) (p : Nat) : Nat := (s.reg (R.NET_IP4 p)).toNat
/-- A 128-bit number held in four words, first bytes at the lowest offset (R347). -/
def State.quad (s : State) (a : Nat → Nat) : Nat :=
  (List.range 4).foldl (fun v i => v * 2 ^ 32 + (s.reg (a i)).toNat) 0
def State.ip6 (s : State) (p : Nat) : Nat := s.quad (R.NET_IP6 p)
/-- The link-local address by modified EUI-64 from the MAC (Table 12.1). -/
def State.ip6Local (s : State) (p : Nat) : Nat :=
  let m := s.portMac p
  0xFE80 * 2 ^ 112 + ((m / 2 ^ 24) ^^^ 0x020000) * 2 ^ 40 + 0xFFFE * 2 ^ 24 + m % 2 ^ 24
/-- The IP MTU: values outside 576 to 9,216 act as the nearer limit (Table 12.13). -/
def State.mtu (s : State) (p : Nat) : Nat := min (max (s.fld (R.NET_MTU p) F.NET_MTU_MTU) 576) 9216

/-- The frame's tag agrees with the port (R322, Table 12.1; log 43): priority-tagged frames are accepted. -/
def State.tagOk (s : State) (p : Nat) (tag : Option (Fin 4096)) : Bool :=
  match tag with
  | some v => decide (v.val = 0)
      || (s.flag (R.NET_CTRL p) F.NET_CTRL_VLAN_EN && decide (v.val = s.fld (R.NET_CTRL p) F.NET_CTRL_VID))
  | none => !s.flag (R.NET_CTRL p) F.NET_CTRL_VLAN_EN
/-- The longest frame of a port (Table 12.1). -/
def State.maxFrame (s : State) (p : Nat) (tagged : Bool) : Nat := s.mtu p + 18 + (if tagged then 4 else 0)
/-- The MAC address of the solicited-node multicast of an IPv6 address (RFC 2464, RFC 4861). -/
def solicitedMac (ip6 : Nat) : Nat := 0x3333FF000000 + ip6 % 2 ^ 24
/-- MAC addresses of the PTP destinations of Table 12.1: the two IPv4 groups, the two IPv6 groups and the two of Ethernet. -/
def ptpMacs : List Nat := [0x01005E000181, 0x01005E00006B, 0x333300000181, 0x33330000006B, 0x011B19000000, 0x0180C200000E]
/-- The port takes the destination address (R322): its own MAC, broadcast for ARP, the solicited-node multicast of its IPv6 addresses, or a PTP
address. -/
def State.macOk (s : State) (p : Nat) (dest : Nat) (arp : Bool) : Bool :=
  decide (dest = s.portMac p) || (arp && decide (dest = 0xFFFFFFFFFFFF))
    || (decide (s.ip6 p ≠ 0) && decide (dest = solicitedMac (s.ip6 p))) || decide (dest = solicitedMac (s.ip6Local p))
    || ptpMacs.contains dest
/-- The frame is a PTP message on the transport that PTP_TR selects (Table 12.2, Table 12.13). -/
def State.ptpOk (s : State) (p : Nat) (h : RxHead) : Bool :=
  let tr := s.fld (R.NET_CTRL p) F.NET_CTRL_PTP_TR
  if tr = 2 then h.ether
  else !h.ether && decide (h.v6 = decide (tr = 1)) && (decide (h.port.val = 319) || decide (h.port.val = 320))
/-- The frame is addressed to a service of Table 12.2. -/
def State.serviceOk (s : State) (p : Nat) (h : RxHead) (svc : Service) : Bool :=
  match svc with
  | .command _ _ _ => !h.ether && decide (h.port.val = s.fld R.NET_GCFG F.NET_GCFG_CMDPORT)
  | .ptp => s.ptpOk p h
  | .arp => !h.v6
  | .ndp => h.v6
  | .echo => true
  | .unsupported => false
/-- The active exit accepts a frame (R320 to R322). -/
def State.frameOk (s : State) (p : Nat) (h : RxHead) (svc : Service) : Bool :=
  s.isActive p && s.macOk p h.dest.toNat (decide (svc = .arp)) && s.tagOk p h.tag && decide (h.len ≤ s.maxFrame p h.tag.isSome)
    && s.serviceOk p h svc
/-- The receiver of a port brings frames: its lane is in no test mode (R313), and its RXINV undoes the inversion of the pair (R305). -/
def State.rxLive (s : State) (p : Nat) (h : RxHead) : Bool := decide (s.tmode p = 0) && decide (s.rxInv p = h.inv)
/-- A frame arrives: accepted, it has its effect `t`; else it is discarded and counted (R320, R321; log 43). -/
def State.rxGate (s : State) (p : Nat) (h : RxHead) (svc : Service) (t : State) : State :=
  if !s.rxLive p h then s
  else if s.frameOk p h svc then t
  else s.bump (R.NET_STAT p) F.NET_STAT_RXDROP

/-- An address of the port (Table 12.1): its IPv4 address, or its global or link-local IPv6 address. -/
def State.ownIp (s : State) (p : Nat) (v6 : Bool) (a : Nat) : Bool :=
  if v6 then (decide (a ≠ 0) && decide (a = s.ip6 p)) || decide (a = s.ip6Local p) else decide (a ≠ 0) && decide (a = s.ip4 p)
/-- The sum of the 16-bit words of some bytes, an odd last byte being padded with zero (RFC 768). -/
def sum16 : List Byte → Nat
  | a :: b :: l => a.toNat * 256 + b.toNat + sum16 l
  | [a] => a.toNat * 256
  | [] => 0
/-- The UDP checksum of a datagram over its pseudo-header, ports, length and payload (RFC 768, RFC 8200; Table 12.1): never 0. -/
def udpSum (v6 : Bool) (src dst sport dport : Nat) (bs : List Byte) : Nat :=
  let w := if v6 then 16 else 4
  let n := sum16 (beBytes w src) + sum16 (beBytes w dst) + 17 + 2 * (8 + bs.length) + sport + dport + sum16 bs
  65535 - n % 65535
/-- A received checksum agrees with the one computed; on IPv4 a 0 says that none was sent (RFC 768; log 83). -/
def udpSumOk (v6 : Bool) (got want : Nat) : Bool := decide (got = want) || (!v6 && decide (got = 0))

end Sys2Proof.Machine
end

