-- ==== Sys2Proof/Machine/Gouge.lean ====
section
/-! DEFINITION. Gouge (chapter 10): the engine behind the compressed contexts, its load and pool, verification,
self-test, stall, rewind, abort and context images. -/
namespace Sys2Proof.Machine

def State.gg (s : State) (c : Nat) : GgeCtx := tabGet (fun _ => GgeCtx.init) s.gge.ctxs c
def State.setGg (s : State) (c : Nat) (x : GgeCtx) : State :=
  { s with gge := { s.gge with ctxs := tabPut (fun _ => GgeCtx.init) s.gge.ctxs c x } }
/-- The context is compressed (R250). -/
def State.ggeOn (s : State) (c : Nat) : Bool := s.flag (R.STR_CFG c) F.STR_CFG_GGE
/-- Compressed contexts that are not STOPPED. -/
def State.ggeActive (s : State) : List Nat := s.strActive.filter s.ggeOn

/-- The settings of a context as they act (Table 10.11). -/
def State.ggeCfg (s : State) (c : Nat) : GgeCfg :=
  let a := R.GGE_CTX c
  { hsc := min (s.fld a F.GGE_CTX_HSC) 4, pred := min (s.fld a F.GGE_CTX_PRED) 2,
    effort := min (s.fld a F.GGE_CTX_EFFORT) 2,
    tbl := (let t := s.fld a F.GGE_CTX_TBL; if t = 3 then 0 else t),
    nch := if s.strRecords c then 0 else (s.strMembers c).length, fmt := s.strFmt c,
    timed := !s.strRecords c && s.strTimed c }
def State.ggeRst (s : State) (c : Nat) : Nat := s.fld (R.GGE_CTX c) F.GGE_CTX_RSTBLK
/-- The effort weight in halves (Table 10.1). -/
def effortW (e : Nat) : Nat := if e = 0 then 2 else if e = 1 then 3 else 8
/-- F x w of a context in halves of a byte per second (R272). -/
def State.ggeLoadOf (s : State) (c : Nat) : Nat := (s.strRates c).1 * effortW (s.ggeCfg c).effort
/-- GGE_LOAD in kB/s (R273), rounded up. -/
def State.ggeLoad (s : State) : Nat := ceilDiv (s.ggeActive.foldl (fun a c => a + s.ggeLoadOf c) 0) 2000
/-- Granules of a context (R271). -/
def State.ggeGran (s : State) (c : Nat) : Nat := 3 * (2 ^ (s.ggeCfg c).hsc + 1)
def State.ggeUsed (s : State) : Nat := s.ggeActive.foldl (fun a c => a + s.ggeGran c) 0

/-- Engine states of GGE_STAT (R285). -/
def State.ggeState (s : State) : Nat := s.fld R.GGE_STAT F.GGE_STAT_STATE
/-- A self-test of the engine is queued or runs. -/
def State.ggeTesting (s : State) : Bool :=
  s.testQueued .gouge || s.flt.running.any (fun t => decide (t.target = TestTarget.gouge))
/-- The next new block of every context is a RESET block (R283). -/
def State.ggeResetAll (s : State) : State :=
  let s := { s with gge := { s.gge with job := s.gge.job.map (fun (j : GgeJob) => { j with due := false }) } }
  s.forEach s.ggeActive (fun s c => s.setGg c { s.gg c with resetDue := true })
/-- The engine's test ends with a verdict (R285): OUT_OF_SERVICE lasts until a RETEST has been written and a test passes. -/
def State.ggeVerdict (s : State) (v : Nat) : State :=
  if v = 1 then
    let s := s.setFld R.GGE_STAT F.GGE_STAT_VERDICT 1
    if s.gge.oos && !s.gge.retest then s.setFld R.GGE_STAT F.GGE_STAT_STATE 2
    else (({ s with gge := { s.gge with oos := false, retest := s.gge.retest && s.ggeTesting } }).setFld
      R.GGE_STAT F.GGE_STAT_STATE 0).ggeResetAll
  else if v = 4 then s
  else
    let s := { s with gge := { s.gge with oos := true, retest := s.gge.retest && s.ggeTesting } }
    ((s.setFld R.GGE_STAT F.GGE_STAT_VERDICT v).setFld R.GGE_STAT F.GGE_STAT_STATE 2).raiseHub 115
/-- Take up the verdicts of engine tests (R285), and show SELFTEST while one is queued or runs. -/
def State.ggeSync (s : State) : State :=
  let mine := s.flt.ended.filter (fun e => decide (e.1.target = TestTarget.gouge))
  let s := if mine = [] then s
    else { s with flt := { s.flt with ended := s.flt.ended.filter (fun e => !decide (e.1.target = TestTarget.gouge)) } }
  let s := s.forEach mine (fun s e => s.ggeVerdict e.2)
  if s.ggeTesting then s.setFld R.GGE_STAT F.GGE_STAT_STATE 1 else s
/-- GGE_VERIFY is reported, and the self-test of the engine starts unless one is already running, which it ends (R284, R285, R397);
a resent block that is not sent identically is reported with it (R289; DESIGN CHOICE, log 91: source 117 of one mismatch is no second
error and shares the test of source 114). -/
def State.ggeMismatch (s : State) (c : Nat) (resend : Bool) : State :=
  let s := ((s.bump R.GGE_STAT F.GGE_STAT_MISCNT).raise 114 c).awaitTest .gouge
  (if resend then (((s.record 117 c 0 true s.ggeTesting).stopRequest 117).updAlive).markHigh 117 else s).ggeSync

/-- The bytes of an image (Table 10.8) with an ICRC. Where the next block is a RESET block, its CBN is 0 and its ROOT its own PSEQ. -/
def imageBytes (c : GgeCfg) (fmtByte : Nat) (m : GgeImage) (icrc : Nat) : List Byte :=
  let pad := fun (n : Nat) (l : List Byte) => l.take n ++ List.replicate (n - l.length) 0
  beBytes 1 1 ++ beBytes 1 c.hsc ++ beBytes 1 c.pred ++ beBytes 1 c.nch ++ beBytes 1 fmtByte
    ++ beBytes 1 (b2n m.reset + 2 * m.rows) ++ beBytes 2 m.hist.length ++ beBytes 2 (if m.reset then 0 else m.cbn) ++ beBytes 2 0
    ++ beBytes 4 (if m.reset then m.pseq else m.root) ++ beBytes 4 m.pseq ++ beBytes 8 0 ++ beBytes 4 icrc ++ pad 512 m.rowA ++ pad 512 m.rowB
    ++ List.replicate (hsize c - m.hist.length) 0 ++ m.hist
/-- The anchor image of a context with its ICRC, in the settings of its last start (R291). -/
def State.anchorBytes (s : State) (c : Nat) : List Byte :=
  let x := s.gg c
  let m := { x.anchor with reset := x.anchor.reset || x.resetDue }
  imageBytes x.cfg x.fmtByte m (crc32c (imageBytes x.cfg x.fmtByte m 0))
/-- Base of an image (R291). -/
def imageBase (c : Nat) : Nat := if c = 128 then 0x06800000 else 0x05800000 + c * 0x8000
/-- The context and offset of a Gouge image address (R291). -/
def imageAt (a : Nat) : Option (Nat × Nat) :=
  if 0x06800000 ≤ a ∧ a < 0x06808000 then some (128, a - 0x06800000)
  else if 0x05800000 ≤ a ∧ a < 0x06800000 ∧ (a - 0x05800000) / 0x8000 ≠ 128 then
    some ((a - 0x05800000) / 0x8000, (a - 0x05800000) % 0x8000)
  else none
/-- The byte of an image window (R291): the anchor image, or what was written since the context stopped. -/
def State.imageByte (s : State) (c o : Nat) : Byte :=
  if (s.gg c).inMem then s.byte (imageBase c + o) else ((s.anchorBytes c)[o]?).getD 0
/-- A written image as a start with CONT = 1 reads it (R292): none where it is invalid. -/
def State.loadImage (s : State) (c : Nat) : Option GgeImage :=
  let cfg := s.ggeCfg c
  let bs := (List.range (1056 + hsize cfg)).map (s.imageByte c)
  let zeroed := bs.take 28 ++ List.replicate 4 0 ++ bs.drop 32
  let hl := natAt bs 6 2
  let rl := rowLen cfg
  if natAt bs 28 4 = crc32c zeroed ∧ natAt bs 0 1 = 1 ∧ natAt bs 1 1 = cfg.hsc ∧ natAt bs 2 1 = cfg.pred
      ∧ natAt bs 3 1 = cfg.nch ∧ natAt bs 4 1 = s.strFmtByte c ∧ hl ≤ hsize cfg
      ∧ natAt bs 16 4 = (s.reg (R.STR_PSEQ c)).toNat then
    some { hist := bs.drop (1056 + hsize cfg - hl), rowA := bytesAt bs 32 rl, rowB := bytesAt bs 544 rl,
           rows := min (natAt bs 5 1 / 2 % 4) 2, cbn := natAt bs 8 2, root := natAt bs 12 4, pseq := natAt bs 16 4,
           reset := (natAt bs 5 1).testBit 0 || (decide (s.ggeRst c ≠ 0) && decide (s.ggeRst c ≤ natAt bs 8 2)) }
  else none

/-- The case of Table 10.2 in which Gouge refuses a start, the new context included in the sums once; an EFFORT above the level counts
as 0x2 (R430), and an image is loaded only by a context that is STOPPED. An invalid image is answered with 0x4 whatever else holds (R292),
else the lowest case (log 92). -/
def State.ggeRefusal (s : State) (c : Nat) : Option Nat :=
  let others := s.ggeActive.filter (fun d => decide (d ≠ c))
  if s.flag (R.GGE_CTX c) F.GGE_CTX_CONT && decide (s.strState c = 0) && (s.loadImage c).isNone then some 4
  else if 4096 < others.foldl (fun a d => a + s.ggeGran d) (s.ggeGran c) then some 1
  else if 2000 * s.fld R.GGE_CAP F.GGE_CAP_CAP < others.foldl (fun a d => a + s.ggeLoadOf d) (s.ggeLoadOf c)
      ∨ s.level < (s.ggeCfg c).effort then some 2
  else if s.ggeState ≠ 0 then some 3
  else none
/-- The case a start is refused in, where Gouge is asked: cause 0x7 is tested (R252). -/
def State.ggeAsked (s : State) (c : Nat) : Option Nat :=
  if s.ggeOn c && (s.strBad c).isNone then s.ggeRefusal c else none
/-- Gouge refuses a start (R272, R292): the case, and GGE_IMAGE for an invalid image. -/
def State.ggeRefuse (s : State) (c r : Nat) : State :=
  let s := s.setFld (R.GGE_CSTAT c) F.GGE_CSTAT_REFC r
  if r = 4 then s.raise 116 c else s
/-- A compressed context starts from an image or from the cleared one (R292). -/
def State.ggeOpen (s : State) (c : Nat) : State :=
  let img := if s.flag (R.GGE_CTX c) F.GGE_CTX_CONT then (s.loadImage c).getD GgeImage.init
    else { GgeImage.init with pseq := (s.reg (R.STR_PSEQ c)).toNat }
  s.setGg c { GgeCtx.init with enc := img, ver := img, anchor := img, inMem := false, cfg := s.ggeCfg c,
                               fmtByte := s.strFmtByte c }
/-- Start a context, with Gouge's part of it (R252, R272, R292). -/
def State.ctxStart (s : State) (c : Nat) : State :=
  let s := s.ggeSync
  let ref := s.ggeAsked c
  let t := match ref with
    | some r => s.ggeRefuse c r
    | none => if s.ggeOn c && (s.startCause c false).isNone then s.ggeOpen c else s
  t.strStart c ref.isSome

/-- Discard a context's words in the output buffer and the block in progress, with its stall (R287, R289, R290). -/
def State.ggeDiscard (s : State) (c : Nat) : State :=
  let job := s.gge.job.filter (fun j => decide (j.ctx ≠ c))
  let t := { s with gge := { s.gge with outs := s.gge.outs.filter (fun o => decide (o.ctx ≠ c)), job := job } }
  if job = s.gge.job then t else t.setFlag R.GGE_STAT F.GGE_STAT_STALL false
/-- A second ABORT that the full gap store refuses (R260): nothing is discarded. -/
def State.abortRefused (s : State) (c : Nat) : Bool :=
  decide (s.strState c = 2) && (s.st c).aborted && decide (32 ≤ s.gapStore.length)
/-- ABORT of a context (R260, R290). -/
def State.ctxAbort (s : State) (c : Nat) : State :=
  if s.strState c ≠ 0 && s.ggeOn c && !s.abortRefused c then
    let s := s.ggeDiscard c
    let x := s.gg c
    (s.setGg c { x with enc := x.anchor, ver := x.anchor, memBad := false, recs := [], resetDue := true }).strAbort c
  else s.strAbort c
/-- Rewind (R246, R289): the anchor images go into the encoder and verifier images, and SP returns to RP. -/
def State.rewindAll (s : State) : State :=
  let s := s.forEach s.ggeActive (fun s c =>
    let s := s.ggeDiscard c
    let x := s.gg c
    let s := s.setGg c { x with enc := x.anchor, ver := x.anchor, memBad := false }
    s.setStr c { s.st c with pkts := (s.st c).pkts.map (fun (p : Pkt) => { p with coded := false }) })
  s.rewind

/-- PTYPE of a packet (Table 9.4). -/
def Pkt.ptype (p : Pkt) : Nat := natAt p.bytes 1 1
/-- The payload of a packet image. -/
def Pkt.payload (p : Pkt) : List Byte := p.bytes.drop 32
/-- How a packet was sent before, if it was (R288). -/
def GgeCtx.recOf (x : GgeCtx) (q : Nat) : Option GgeRec := x.recs.find? (fun r => decide (r.pseq = q))
/-- The anchor image takes up a confirmed packet (R288). -/
def State.anchorStep (s : State) (c : Nat) (p : Pkt) : State :=
  let x := s.gg c
  if p.ptype = 3 then s.setGg c { x with anchor := { x.anchor with pseq := (p.pseq + 1) % 2 ^ 32 } }
  else
    let r := (x.recOf p.pseq).getD ⟨p.pseq, false, false⟩
    let m := x.anchor.after x.cfg (s.ggeRst c) (decide (p.ptype = 1)) r.fstore (x.anchor.reset || r.reset) p.pseq
      p.payload
    s.setGg c { x with anchor := m, recs := x.recs.filter (fun q => decide (q.pseq ≠ p.pseq)) }
/-- Packets a confirmation or a drop releases update the anchor image first (R288). -/
def State.ggeConfirm (s : State) (c pseq : Nat) : State :=
  if s.ggeOn c then
    let ps := (s.st c).pkts
    s.forEach (ps.take (pktsUpTo ps pseq)) (fun s p => s.anchorStep c p)
  else s

/-- Units of the output buffer that released packets take (R269). -/
def State.ggeHeld (s : State) : Nat := s.gge.outs.foldl (fun a o => a + o.units) 0
/-- Units of a packet as it leaves Gouge. -/
def outUnits (n : Nat) : Nat := 1 + (n + 31) / 32
/-- 64-bit words of what Gouge works on: the header unit and the block, or the descriptor. -/
def GgeJob.len (j : GgeJob) : Nat := if j.raw then ceilDiv j.pkt.bytes.length 8 else 4 + ceilDiv j.blk.bytes.length 8
/-- Units in use in the output buffer, those of the block in progress included (R269). -/
def State.ggeFill (s : State) : Nat := s.ggeHeld + s.gge.job.elim 0 (fun j => ceilDiv j.words 4)
/-- A released packet joins the output buffer. -/
def State.ggePut (s : State) (o : GgeOut) : State := { s with gge := { s.gge with job := none, outs := s.gge.outs ++ [o] } }
/-- Write the words of the work in progress that the output buffer has room for; Gouge stalls where some have none (R287). A
descriptor passes through once all of it is there (R268). -/
def State.ggeWrite (s : State) (j : GgeJob) : State :=
  let n := min j.len (4 * (2048 - s.ggeHeld))
  let s := ({ s with gge := { s.gge with job := some { j with words := n } } }).setFlag R.GGE_STAT F.GGE_STAT_STALL (decide (n < j.len))
  if j.raw ∧ n = j.len then s.ggePut ⟨j.ctx, j.pkt.pseq, j.pkt.bytes, j.pkt.units⟩ else s
/-- The next packet of a context at its send pointer. -/
def State.nextPkt (s : State) (c : Nat) : Option Pkt :=
  (s.st c).pkts.find? (fun p => decide (p.first = (s.st c).sp) && decide (p.first + p.units ≤ (s.st c).wp))
/-- SP advances over a packet (R246, R269). -/
def State.takePkt (s : State) (c : Nat) (p : Pkt) (coded sent : Bool) : State :=
  let x := s.st c
  s.putStr c { x with
    sp := p.first + p.units,
    pkts := x.pkts.map (fun (q : Pkt) => if q.pseq = p.pseq then { q with coded := coded, sent := sent } else q) }

/-- The block Gouge makes of a packet (R283, R285, R289): a new one is sent FSTORE while the engine is not IN_SERVICE; a resent one
as it was sent (log 92), but the first one of a context whose anchor image is bad. -/
def State.ggeJobOf (s : State) (c : Nat) (p : Pkt) : GgeJob :=
  let x := s.gg c
  let resent := (x.recOf p.pseq).isSome
  let r := (x.recOf p.pseq).getD ⟨p.pseq, false, false⟩
  let fs := r.fstore || (resent && x.anchorBad) || (!resent && decide (s.ggeState ≠ 0))
  let due := !resent && x.resetDue
  let m := { x.enc with reset := x.enc.reset || r.reset || due }
  ⟨c, p, m, encodeBlock x.cfg (s.ggeRst c) m (decide (p.ptype = 1)) fs p.pseq p.payload, fs, false, due, 0⟩
/-- A resent block goes out FSTORE that was not sent so before (R289). -/
def State.ggeLost (s : State) (c : Nat) (p : Pkt) : Bool :=
  (s.gg c).anchorBad && ((s.gg c).recOf p.pseq).any (fun r => !r.fstore)
/-- Gouge takes the next packet of a context (R268, R269, R289): a descriptor passes through, any other becomes a block. -/
def State.ggeTake (s : State) (c : Nat) (p : Pkt) : State :=
  let s := ({ s with gge := { s.gge with last := c } }).takePkt c p true false
  if p.ptype = 3 then s.ggeWrite ⟨c, p, (s.gg c).enc, ⟨[], (s.gg c).enc, false⟩, false, true, false, 0⟩
  else
    let t := s.ggeWrite (s.ggeJobOf c p)
    if s.ggeLost c p then (t.raise 117 c).ggeSync else t
/-- GOUGE_BLOCK_START (R268): the next complete packet in round-robin order of contexts is taken and encoded. -/
def State.ggeStart (s : State) : State :=
  let s := s.ggeSync
  match s.gge.job with
  | some _ => s
  | none =>
    let order := (List.range 512).map (fun i => (s.gge.last + 1 + i) % 512)
    match order.find? (fun c => decide (s.strState c ≠ 0) && s.ggeOn c && (s.nextPkt c).isSome) with
    | none => s
    | some c => match s.nextPkt c with
      | none => s
      | some p => s.ggeTake c p
/-- GOUGE_BLOCK_START (R268). -/
def execGougeBlockStart (s : State) : Res := s.act! s.ggeStart

/-- The context after a block's release: both images, how its packet was sent (R288), and what the block has settled. -/
def GgeCtx.released (x : GgeCtx) (j : GgeJob) : GgeCtx :=
  let resent := (x.recOf j.pkt.pseq).isSome
  { x with
    enc := j.blk.image, ver := j.blk.image, anchorBad := x.anchorBad && !resent, resetDue := x.resetDue && !j.due,
    recs := x.recs.filter (fun r => decide (r.pseq ≠ j.pkt.pseq)) ++ [⟨j.pkt.pseq, j.fstore, j.blk.reset⟩] }
/-- A block is released to the output buffer (R269, R284), and counted (Tables 10.10 and 10.11). -/
def State.ggeRelease (s : State) (j : GgeJob) : State :=
  let c := j.ctx
  let resent := ((s.gg c).recOf j.pkt.pseq).isSome
  let hd := j.pkt.bytes.take 3 ++ [(((j.pkt.bytes)[3]?).getD 0) ||| 1] ++ bytesAt j.pkt.bytes 4 28
  let s := s.ggePut ⟨c, j.pkt.pseq, hd ++ j.blk.bytes, outUnits j.blk.bytes.length⟩
  let s := s.setGg c ((s.gg c).released j)
  let s := s.setReg (R.GGE_CIN c) (s.reg (R.GGE_CIN c) + BitVec.ofNat 32 j.pkt.payload.length)
  let s := s.setReg (R.GGE_COUT c) (s.reg (R.GGE_COUT c) + BitVec.ofNat 32 j.blk.bytes.length)
  let s := if j.fstore then s.bump (R.GGE_CSTAT c) F.GGE_CSTAT_FSCNT else s
  if j.fstore && resent then s.bump R.GGE_STAT F.GGE_STAT_RSSCNT else s
/-- A block that failed its check is replaced by a stored one with FSTORE under its PSEQ, which is checked in its turn (R284,
R287). -/
def State.ggeReplace (s : State) (j : GgeJob) : State :=
  let c := j.ctx
  let x := s.gg c
  let s := (s.setGg c { x with memBad := false }).ggeMismatch c ((x.recOf j.pkt.pseq).any (fun r => !r.fstore) && !j.fstore)
  let b := encodeBlock x.cfg (s.ggeRst c) j.before (decide (j.pkt.ptype = 1)) true j.pkt.pseq j.pkt.payload
  s.ggeWrite { j with fstore := true, blk := b }
/-- GOUGE_VERIFY_DONE (R284, R289): the check of a block whose words are all present; `mismatch` says that the hardware's check found
the decoded bytes different, and a memory error in one of the context's images counts as a mismatch. -/
def State.ggeVerify (s : State) (mismatch : Bool) : State :=
  match s.gge.job with
  | none => s
  | some j =>
    if s.flag R.GGE_STAT F.GGE_STAT_STALL then s
    else
      let x := s.gg j.ctx
      if !mismatch && !x.memBad && verifyBlock x.cfg x.ver (decide (j.pkt.ptype = 1)) j.pkt.pseq j.pkt.payload j.blk then
        s.ggeRelease j
      else s.ggeReplace j
/-- GOUGE_VERIFY_DONE (R284). -/
def execGougeVerifyDone (mismatch : Bool) (s : State) : Res := s.act! (s.ggeSync.ggeVerify mismatch)

/-- GOUGE_STALL_END (R287): room has appeared; the words that now fit are written, and the stall ends with the last of them. -/
def execGougeStallEnd (s : State) : Res :=
  s.act! (match s.gge.job with
    | some j => if s.flag R.GGE_STAT F.GGE_STAT_STALL then s.ggeWrite j else s
    | none => s)

/-- Fields of GGE_CTRL. -/
def ggeCtrlFlds : List Fld := [F.GGE_CTRL_RETEST]
/-- A write of GGE_CTRL (R285, R395): RETEST queues a test that no source names, or merges with a queued one; while it reads 1 a
further one is ignored (R455). -/
def State.writeGgeCtrl (s : State) (v : Word) : State :=
  let s := (s.ggeSync).writeFlds R.GGE_CTRL ggeCtrlFlds v
  if v.toNat.testBit 0 && !(s.gge.retest && s.ggeTesting) then
    (({ s with gge := { s.gge with retest := true } }).callTest 0xFF .gouge instHub).ggeSync
  else s
/-- GGE_CTRL_RETEST (R285). -/
def execGgeCtrlRetest (v : Word) (s : State) : Res := s.act! (s.writeGgeCtrl v)
/-- Verdict codes of FLT_ST_LAST (R396). -/
def verdictCode : Verdict → Nat
  | .pass => 1
  | .fail => 2
  | .inconclusive => 3
  | .notRun => 4
/-- GOUGE_SELFTEST_DONE (R285): the running engine test ends with its verdict. -/
def execGougeSelftestDone (v : Verdict) (s : State) : Res :=
  s.act! (
    if s.flt.running.any (fun t => decide (t.target = TestTarget.gouge)) then (s.endTest (verdictCode v)).ggeSync
    else s)

/-- The packet whose image holds a 32-byte unit of the stream pool, or of a spill page: its context, its PSEQ, its place among the packets of
the context (none for the open packet), and the unit's number in it. -/
structure UnitAt where
  ctx : Nat
  pseq : Nat
  place : Option Nat
  unit : Nat
  deriving DecidableEq, Repr
/-- The unit of a packet, from ordinal `first` on, that stands at an address. -/
def State.unitOf? (s : State) (c first n a : Nat) : Option Nat := (List.range n).find? (fun i => decide (s.unitAddr c (first + i) = a))
/-- What a context holds in the unit at an address. -/
def State.unitIn (s : State) (a c : Nat) : Option UnitAt :=
  let x := s.st c
  let closed := (List.range x.pkts.length).findSome? (fun i => (x.pkts[i]?).bind (fun p =>
    (s.unitOf? c p.first p.units a).map (fun u => UnitAt.mk c p.pseq (some i) u)))
  match closed with
  | some u => some u
  | none => x.cur.bind (fun o => (s.unitOf? c o.first (x.wr - o.first) a).map
      (fun u => UnitAt.mk c (s.reg (R.STR_PSEQ c)).toNat none u))
/-- What stands in the unit at an address. -/
def State.unitAt (s : State) (a : Nat) : Option UnitAt := (s.str.map (fun e => e.1)).findSome? (fun c => s.unitIn a c)
/-- The buffer and the record SEQ of an address of Bowl: the record a slot keeps, or the one the armed slot is to hold (R224). -/
def State.recordAt (s : State) (a : Nat) : Option (Nat × Nat) :=
  (List.range 16).findSome? (fun b =>
    let page := (a - 0x04000000) / 4096
    let base := s.fld (R.CAP_BUF b) F.CAP_BUF_BASE
    let q := (page - base) / max (s.fld (R.CAP_SLOT b) F.CAP_SLOT_SLOTPG) 1
    if s.flag (R.CAP_CFG b) F.CAP_CFG_ALLOC && decide (base ≤ page) && decide (page < base + s.fld (R.CAP_BUF b) F.CAP_BUF_PAGES) then
      some (b, match (s.cp b).done.find? (fun d => decide (d.slot = q)) with
        | some d => d.seq
        | none => (s.cp b).seq)
    else none)
/-- DETAIL of source 97 (R388): the data that an address of a partition holds; none where it holds none. A spilled unit is named as its
stream data (log 108). -/
def State.dataDetail (s : State) (part a : Nat) : Option Nat :=
  if part = 2 then (imageAt a).map (fun p => p.1 * 2 ^ 32)
  else match s.unitAt (a / 32 * 32) with
    | some u => some (u.ctx * 2 ^ 32 + u.pseq)
    | none => if part = 0 ∧ 0x04000000 ≤ a then (s.recordAt a).map (fun p => p.1 * 2 ^ 32 + p.2) else none
/-- The first address of the data that a DETAIL of source 97 names (R388); 0 where the hub holds it no longer. -/
def State.dataAddr (s : State) (part detail : Nat) : Nat :=
  let c := bitsOf detail 40 32
  if part = 2 then imageBase c
  else if part = 1 then
    match (s.st c).pkts.find? (fun p => decide (p.pseq = detail % 2 ^ 32)) with
    | some p => s.unitAddr c p.first
    | none => 0
  else
    let b := bitsOf detail 35 32
    match (s.cp b).done.find? (fun d => decide (d.seq = detail % 2 ^ 32)) with
    | some d => 0x04000000 + (s.fld (R.CAP_BUF b) F.CAP_BUF_BASE + d.slot * s.fld (R.CAP_SLOT b) F.CAP_SLOT_SLOTPG) * 4096
    | none => 0

end Sys2Proof.Machine
end

