-- ==== Sys2Proof/Machine/Snapshot.lean ====
section
/-! DEFINITION. Snapshot requests (R40 to R42): their instants, merging, refusal and forwarding round the ring. -/
namespace Sys2Proof.Machine

/-- 20 us, the transfer time (R42). -/
def snapHold : Nat := 20000 * nsU
/-- 2,000 ns after a request (Table 1.7). -/
def snapDelay : Nat := 2000 * nsU
/-- Bits of SNAP_STAT.CAUSE. -/
def causePin : Nat := 1
def causeCmp : Nat := 2
def causeCmd : Nat := 4
def causeRing : Nat := 8

/-- Two instants lie within 20 us. DESIGN CHOICE (log 66): R42 does not say whether exactly 20 us counts; it does not here. -/
def near (a b : Nat) : Bool := decide (a < b + snapHold) && decide (b < a + snapHold)
/-- Insert a request in time order. -/
def insSnap (r : SnapReq) : List SnapReq → List SnapReq
  | [] => [r]
  | a :: t => if r.time < a.time then r :: a :: t else a :: insSnap r t

/-- A snapshot request for an instant (R42): merged with a scheduled snapshot or the one in progress, scheduled, or refused and
counted in MISSED. Answers whether the hub takes it. -/
def State.snapRequest (s : State) (time cause : Nat) (late : Bool) : State × Bool :=
  let s := if late then s.setFlag R.SNAP_STAT F.SNAP_STAT_LATE true else s
  if s.snap.sched.any (fun r => decide (r.time = time)) then
    ({ s with snap := { s.snap with sched := s.snap.sched.map (fun (r : SnapReq) =>
        if r.time = time then { r with cause := r.cause ||| cause, late := r.late || late } else r) } }, true)
  else if s.snap.running.any (fun r => decide (r.time = time)) then
    (({ s with snap := { s.snap with running := s.snap.running.map (fun (r : SnapReq) =>
        { r with cause := r.cause ||| cause, late := r.late || late }) } }).setFld R.SNAP_STAT F.SNAP_STAT_CAUSE
        (s.fld R.SNAP_STAT F.SNAP_STAT_CAUSE ||| cause), true)
  else if s.snap.sched.any (fun r => near r.time time) || (s.snap.running.any (fun r => near r.time time))
      || decide (4 ≤ s.snap.sched.length) then
    (s.bump R.SNAP_STAT F.SNAP_STAT_MISSED, false)
  else ({ s with snap := { s.snap with sched := insSnap ⟨time, cause, late⟩ s.snap.sched } }, true)

/-- A local request made at `req` for an instant, forwarded with FWD at the later of the instant and 50 us after the
request (R41). -/
def State.snapLocal (s : State) (req time cause : Nat) (late fwd : Bool) : State :=
  if fwd && s.flag R.SNAP_CTRL F.SNAP_CTRL_FWD then
    let t := max time (req + 50000 * nsU)
    let (s, taken) := s.snapRequest t cause late
    if taken then s.sendVc1 0x11 0 t else s
  else (s.snapRequest time cause late).1

/-- SNAP_PIN_EDGE (R40, R47): with PIN_EN, a snapshot at the stamp + 2,000 ns. -/
def execSnapPinEdge (ph : Phase) (s : State) : Res :=
  s.act! (if s.spn.refclk && s.flag R.SNAP_CTRL F.SNAP_CTRL_PIN_EN then
    let t := stampOf s.lt ph.val
    s.snapLocal t (t + snapDelay) causePin false true
  else s)

/-- Fields of SNAP_CTRL. -/
def snapCtrlFlds : List Fld :=
  [F.SNAP_CTRL_FWD, F.SNAP_CTRL_RING_EN, F.SNAP_CTRL_CMP_EN, F.SNAP_CTRL_PIN_EN, F.SNAP_CTRL_SOFT]
/-- A write of SNAP_CTRL: its fields, and with SOFT a snapshot request at the write + 2,000 ns (Table 1.7). -/
def State.writeSnapCtrl (s : State) (v : Word) : State :=
  let s := s.writeFlds R.SNAP_CTRL snapCtrlFlds v
  if v.toNat.testBit 0 then s.snapLocal s.lt (s.lt + snapDelay) causeCmd false true else s

/-- SNAP_CTRL_SOFT (R40). -/
def execSnapCtrlSoft (v : Word) (s : State) : Res := s.act! (s.writeSnapCtrl v)

/-- A snapshot broadcast arrives (R40, R41, R332): forwarded, and with RING_EN a snapshot at its instant, or at arrival + 2,000 ns
with LATE when the instant has passed. -/
def State.snapBroadcast (s : State) (k : Nat) (m : Vc1Msg) : State :=
  let (s, take) := s.takeVc1 k 0x11 m
  if take && s.flag R.SNAP_CTRL F.SNAP_CTRL_RING_EN then
    let t := ltOp m.time
    if t < s.lt then (s.snapRequest (s.lt + snapDelay) causeRing true).1
    else (s.snapRequest t causeRing false).1
  else s
/-- SNAPSHOT_BROADCAST_RX (R40). -/
def execSnapshotBroadcastRx (k : Fin 2) (m : Vc1Msg) (s : State) : Res := s.act! (s.snapBroadcast k.val m)

end Sys2Proof.Machine
end

