-- ==== Sys2Proof/Machine/Spindle.lean ====
section
/-! DEFINITION. Spindle (chapter 2): trackers, time quality, the servo, steps, switches, holdover, PTP, PPS, compare
units and the two-way exchange over Chainpo. The losses of REFCLK stand in Refclk.lean. -/
namespace Sys2Proof.Machine

/-- Tracker states (Table 2.3). -/
def tkDisabled : Nat := 0
def tkNoSource : Nat := 1
def tkQualifying : Nat := 2
def tkReady : Nat := 3
def tkAcquire : Nat := 4
def tkLocked : Nat := 5
def State.tkState (s : State) (t : Nat) : Nat := s.fld (R.TRK_STAT t) F.TRK_STAT_STATE
def State.setTkState (s : State) (t v : Nat) : State := s.setFld (R.TRK_STAT t) F.TRK_STAT_STATE v
/-- TRACK mode (Table 2.10). -/
def State.trackMode (s : State) : Bool := decide (s.fld R.SPN_CTRL F.SPN_CTRL_MODE = 1)
/-- The network port of the active exit on this hub. -/
def State.exitPort (s : State) : Option Nat := if s.isExit then some (s.fld R.CHP_ACT F.CHP_ACT_APORT) else none
/-- The Chainpo link towards the active exit: the upstream neighbour's side (section 2.2). -/
def State.upLink (s : State) : Option Nat :=
  if s.isExit then none
  else (s.seg.find? (fun h => decide (h.id = s.fld R.CHP_ACT F.CHP_ACT_ACTID))).map (fun h => h.link)
/-- A tracker the ring role uses and TRK_CFG enables; of two on PPS_IN only T0 (R52, R67). -/
def State.tkUsed (s : State) (t : Nat) : Bool :=
  s.flag (R.TRK_CFG t) F.TRK_CFG_EN && (if t = 2 then !s.isExit else s.isExit)
    && !(decide (t = 1) && decide (s.fld (R.TRK_CFG 0) F.TRK_CFG_SRC = 1) && decide (s.fld (R.TRK_CFG 1) F.TRK_CFG_SRC = 1))
/-- Latest offset of a tracker, in 2^-16 ns. -/
def State.tkOfs (s : State) (t : Nat) : Int := signed 64 (s.pair (R.TRK_OFS t) (R.TRK_OFS_HI t))
def absI (x : Int) : Nat := x.natAbs

/-- PPS_OUT may be high (R68): OUT_EN, and with QUAL a time quality other than FREERUN and HOLD_EXPIRED. -/
def State.ppsAllowed (s : State) : Bool :=
  let tq := s.fld R.SPN_STAT F.SPN_STAT_TQ
  s.flag R.SPN_PPS F.SPN_PPS_OUT_EN && !(s.flag R.SPN_PPS F.SPN_PPS_QUAL && (decide (tq = 4) || decide (tq = 3)))
/-- A pulse in progress ends where PPS_OUT is held low (R68). -/
def State.ppsGate (s : State) : State :=
  if s.spn.ppsHigh && !s.ppsAllowed then
    ({ s with spn := { s.spn with ppsHigh := false } }).emit (.pin 0 0 (stamp50 s.lt))
  else s
/-- Show TQ and DOM (R55, R56), and at the active exit tell the ring of a change from the time status `old` (R332). -/
def State.updTqFrom (s : State) (old : Nat) : State :=
  let s := if s.isExit then s.setFld R.SPN_STAT F.SPN_STAT_TQ s.spn.ownTq
    else (s.setFld R.SPN_STAT F.SPN_STAT_TQ (max s.spn.ownTq s.spn.ringTq)).setFld R.SPN_STAT F.SPN_STAT_DOM s.spn.ringDom
  let s := s.ppsGate
  if s.isExit ∧ s.timeStatus ≠ old then s.sendVc1 0x12 s.timeStatus (stamp50 s.lt) else s
/-- Show TQ and DOM, and tell the ring of a change from what they show now. -/
def State.updTq (s : State) : State := s.updTqFrom s.timeStatus
/-- A PTP message arrives while REFCLK is present (R66): the active exit takes it as any frame for its PTP port (R322). -/
def State.ptpRx (s : State) (r : RxPort) (t : State) : Res := s.act! (if s.spn.refclk then s.rxGate r.port.val r.head .ptp t else s)
/-- A row of Spindle acts only while REFCLK is present: without it there are no timestamps, and the network ports and lanes stand (R66,
R312). -/
def State.timed (s : State) (t : State) : Res := s.act! (if s.spn.refclk then t else s)
/-- The hub's own TQ from the steering tracker (Table 2.4); `old` is the time status before. -/
def State.setOwnTqFrom (s : State) (old : Nat) : State :=
  let q := match s.spn.steering with
    | some t => if s.tkState t = tkLocked then 0 else 1
    | none => if !s.spn.steered then 4 else if s.spn.ownTq = 3 then 3 else 2
  ({ s with spn := { s.spn with ownTq := q } }).updTqFrom old
/-- The hub's own TQ, told to the ring where it changes. -/
def State.setOwnTq (s : State) : State := s.setOwnTqFrom s.timeStatus

/-- The limit of RATE in ppb (R45). -/
def rateMax : Rat := 48828125 / 100
/-- Apply a rate in ppb: RATE in 2^-48, clamped, with source 136 while the clamp acts (R45, R58). -/
def State.applyRate (s : State) (ppb : Rat) : State :=
  let r := roundAway (clampQ (-rateMax) rateMax ppb * 2 ^ 48 / 1000000000)
  let s := s.setPair R.SPN_RATE R.SPN_RATE_HI (twos 48 r)
  s.setLine 136 instHub (decide (ppb < -rateMax) || decide (rateMax < ppb))
/-- A written RATE in FREE mode, clamped (R45). -/
def State.applyRateWord (s : State) (v : Nat) : State :=
  let r := signed 48 v
  let c := clampI (-(2 ^ 37)) (2 ^ 37) r
  (s.setPair R.SPN_RATE R.SPN_RATE_HI (twos 48 c)).setLine 136 instHub (decide (c ≠ r))

/-- Perform the actions of a compare unit at an instant (R69). -/
def State.cmpActions (s : State) (m t : Nat) : State :=
  let a := R.CMP_CTRL m
  let s := s.trigPulse (s.fld a F.CMP_CTRL_PW)
  let s := if s.flag a F.CMP_CTRL_ACT_SNAP && s.flag R.SNAP_CTRL F.SNAP_CTRL_CMP_EN then
      s.snapLocal t t causeCmp false true else s
  let s := if s.flag a F.CMP_CTRL_ACT_CAP then s.capEvent 9 m t else s
  if s.flag a F.CMP_CTRL_ACT_SEQ then
    s.forEach (List.range 8) (fun s g =>
      let s := if (s.fld (R.RGN_SEQ_CMPL g) F.RGN_SEQ_CMPL_CMPL).testBit m then s
        else s.setRg g { s.rg g with cmplAt := tabPut (fun _ => 0) (s.rg g).cmplAt m t }
      s.setFld (R.RGN_SEQ_CMPL g) F.RGN_SEQ_CMPL_CMPL (s.fld (R.RGN_SEQ_CMPL g) F.RGN_SEQ_CMPL_CMPL ||| 2 ^ m))
  else s

def CmpUnit.none : CmpUnit := ⟨0⟩
def State.cmpU (s : State) (m : Nat) : CmpUnit := tabGet (fun _ => CmpUnit.none) s.spn.cmps m
def State.setCmpU (s : State) (m : Nat) (t : Int) : State :=
  { s with spn := { s.spn with cmps := tabPut (fun _ => CmpUnit.none) s.spn.cmps m ⟨t⟩ } }
/-- The period that acts: 1 to 999 ns act as 1,000 ns (R71); 0 is one-shot. -/
def State.cmpPer (s : State) (m : Nat) : Nat :=
  let p := (s.reg (R.CMP_PER m)).toNat
  nsU * (if 0 < p ∧ p < 1000 then 1000 else p)
def State.cmpArmed (s : State) (m : Nat) : Bool := s.flag (R.CMP_CTRL m) F.CMP_CTRL_ARMED
/-- Targets target + i × per at or before `lim`. -/
def passedTargets (target : Int) (per : Nat) (lim : Int) : Nat :=
  if lim < target then 0 else if per = 0 then 1 else ((lim - target) / per).toNat + 1

/-- A forward step over compare targets (R71): each armed unit whose targets passed fires once, sets LATE and counts
the others in MISSED. -/
def State.cmpStep (s : State) : State :=
  s.forEach (List.range 16) (fun s m =>
    let t := (s.cmpU m).target
    let k := passedTargets t (s.cmpPer m) s.lt
    if s.cmpArmed m ∧ 0 < k then
      let s := s.setFlag (R.CMP_CTRL m) F.CMP_CTRL_LATE true
      let s := (s.bumpBy (R.CMP_CTRL m) F.CMP_CTRL_MISSED (k - 1)).raise 139 m
      let s := if s.cmpPer m = 0 then s.setFlag (R.CMP_CTRL m) F.CMP_CTRL_ARMED false
        else s.setCmpU m (t + k * s.cmpPer m)
      s.cmpActions m s.lt
    else s)

/-- Set LT to a new value (R60): source 140, fresh grid marks (R51), late compares after a forward step (R71). Snapshots that wait are kept
(log 122). -/
def State.stepTo (s : State) (new : Nat) : State :=
  let d := (new : Int) - s.lt
  let s := s.shiftTimers d
  let s := { s with lt := new, spn := { s.spn with stepUntil := new + 1000 * nsU, gridDue := true } }
  let s := s.forEach s.strActive (fun s c => s.setStr c { s.st c with nextRow := new })
  let s := s.forEach (List.range 16) (fun s b => s.setCp b { s.cp b with nextRow := new })
  let s := s.raiseHub 140
  if 0 < d then s.cmpStep else s

/-- A tracker starts to steer (R53, R58, R61, R65); a change of DOM or TQ is told to the ring (R332). -/
def State.startSteer (s : State) (t : Nat) : State :=
  let old := s.timeStatus
  let fresh := s.spn.fromFree || decide (s.spn.ownTq = 4)
  let f : Rat := if fresh then ((signed 32 (s.reg (R.TRK_FRQ t)).toNat : Int) : Rat) / 1000 else s.spn.freq
  let s := s.setTkState t (if 16 ≤ (s.trk t).inRun then tkLocked else tkAcquire)
  let s := if t < 2 then s.setFld R.SPN_STAT F.SPN_STAT_DOM t else s
  let s := { s with spn := { s.spn with steering := some t, freq := f, steered := true, fromFree := false, holdSince := none } }
  s.setOwnTqFrom old

/-- Holdover (R65): RATE at f, source 131, TQ HOLDOVER. -/
def State.enterHoldover (s : State) : State :=
  let s := { s with spn := { s.spn with steering := none, holdSince := some s.lt, ownTq := 2 } }
  let s := if s.trackMode then s.applyRate s.spn.freq else s
  (s.raiseHub 131).updTq

/-- The seamless switch criteria for an alternate PTP tracker (Table 2.5). -/
def State.switchOk (s : State) (o : Nat) : Bool :=
  let x := s.trk o
  decide (s.tkState o = tkReady)
    && (match x.lastMeas with | some m => decide (s.lt ≤ m + 2 * x.interval) | none => false)
    && decide (absI (s.tkOfs o) ≤ nsU * s.fld R.SPN_SW F.SPN_SW_SW_THR)
    && decide (absI (signed 32 (s.reg (R.TRK_FRQ o)).toNat) ≤ s.fld R.SPN_SW F.SPN_SW_FTHR * 1000)
/-- A tracker that steered is READY from now on (R52, R63). -/
def State.demote (s : State) (t : Nat) : State := (s.setTkState t tkReady).setTrk t { s.trk t with readySince := s.lt }
/-- A switch to the other PTP tracker: never a step, f kept, source 130 (R62). -/
def State.switchTo (s : State) (o : Nat) : State :=
  let s := match s.spn.steering with
    | some t => if tkReady < s.tkState t then s.demote t else s
    | none => s
  (s.startSteer o).raiseHub 130

/-- Drop a tracker's source without a reaction of the servo. -/
def State.dropSource (s : State) (t : Nat) : State :=
  let s := (s.setTkState t tkNoSource).bump (R.TRK_STAT t) F.TRK_STAT_LOSTCNT
  s.setTrk t { s.trk t with lastMeas := none, inRun := 0, outRun := 0, measCount := 0, restored := false, misses := 0,
                            syncT1 := none, syncDone := true, meanDelay := none }

/-- A tracker loses its source (R54): sources 128, 129 or 137, then a switch or holdover if it steered. -/
def State.loseSource (s : State) (t : Nat) : State :=
  if s.tkState t ≤ tkNoSource then s
  else
    let steer := decide (s.spn.steering = some t)
    let s := s.dropSource t
    let s := if t = 2 then s.raiseHub 137 else if steer then s.raiseHub 128 else s.raise 129 t
    if steer then
      if t < 2 ∧ s.trackMode ∧ s.switchOk (1 - t) then s.switchTo (1 - t) else s.enterHoldover
    else s

/-- A PTP tracker has a source to lose. -/
def State.ptpOn (s : State) (t : Nat) : Bool :=
  decide (tkNoSource < s.tkState t) && decide (s.fld (R.TRK_CFG t) F.TRK_CFG_SRC ≠ 1)
/-- PTP trackers lose their source at one instant: when both do, and one of them steered, holdover with no switch (R64). -/
def State.loseAll (s : State) (ts : List Nat) : State :=
  let ts := ts.filter s.ptpOn
  if ts.length = 2 ∧ (s.spn.steering = some 0 ∨ s.spn.steering = some 1) then
    let st := s.spn.steering.getD 0
    (((s.dropSource 0).dropSource 1).raiseHub 128).raise 129 (1 - st) |>.enterHoldover
  else s.forEach ts (fun s t => s.loseSource t)
/-- The active port loses its link: so do its PTP trackers (R54). -/
def State.losePort (s : State) : State := s.loseAll [0, 1]

/-- Give every tracker the state its configuration and the ring role ask for (R52). -/
def State.refreshTrackers (s : State) : State :=
  s.forEach [0, 1, 2] (fun s t =>
    if s.tkUsed t then (if s.tkState t = tkDisabled then s.setTkState t tkNoSource else s)
    else if s.tkState t = tkDisabled then s
    else
      let steer := decide (s.spn.steering = some t)
      let s := (s.setTkState t tkDisabled).setTrk t Tracker.init
      if steer then s.enterHoldover else s)

/-- The source of a tracker has shown itself valid (R52). -/
def State.sourceValid (s : State) (t : Nat) : State :=
  if s.tkState t = tkNoSource then
    (s.setTkState t tkQualifying).setTrk t { s.trk t with validSince := s.lt }
  else s

/-- The servo of R58 at a measurement `theta` (in 2^-16 ns) of the steering tracker, `dt` after the previous one. DESIGN CHOICE (log 76): the
measurement that makes an automatic step applies RATE = f, p being 0. -/
def State.servo (s : State) (t : Nat) (theta : Int) (dt : Nat) : State :=
  let thr := nsU * (s.reg R.SPN_STEPTHR).toNat
  let past := decide (thr < absI theta)
  if past ∧ !s.anyActive ∧ s.flag R.SPN_CTRL F.SPN_CTRL_AUTOSTEP ∧ s.tkState t = tkAcquire then
    (s.stepTo ((s.lt : Int) - theta).toNat).applyRate s.spn.freq
  else
    let conv := (List.range 8).any (fun g => s.runs g)
    let rise := past && conv && !s.spn.over135
    let s := { s with spn := { s.spn with over135 := past && conv } }
    let s := if rise then s.raiseHub 135 else s
    let tau : Rat := ((max (s.fld (R.TRK_CFG t) F.TRK_CFG_TAU) 1 : Nat) : Rat) / 16
    let slew : Rat := ((min (max (s.fld R.SPN_SLEW F.SPN_SLEW_MAX) 1) 200 : Nat) : Rat) * 1000
    let p := clampQ (-slew) slew (-(theta : Rat) / 65536 / tau)
    let lim := rateMax
    let f := clampQ (-lim) lim (s.spn.freq + p * ((dt : Rat) / secU) / (4 * tau))
    ({ s with spn := { s.spn with freq := f } }).applyRate (f + p)

/-- A measurement of a tracker's source: offset, frequency, and its nominal interval (R52, R53, R58, R64). DESIGN CHOICE (log 77): while
neither PTP tracker steers, the measurements of both count towards the 16 of R64; the count goes on across a switch, although the
tracker that does not steer is then the other one (log 99). -/
def State.measure (s : State) (t : Nat) (theta : Int) (frq : Nat) (iv : Nat) : State :=
  let s := s.sourceValid t
  let s := s.setPair (R.TRK_OFS t) (R.TRK_OFS_HI t) (twos 64 theta)
  let s := s.setReg (R.TRK_FRQ t) (BitVec.ofNat 32 frq)
  let x := s.trk t
  let thr := nsU * s.fld (R.TRK_QUAL t) F.TRK_QUAL_LOCK_THR
  let dt := match x.lastMeas with | some m => s.lt - m | none => 0
  let s := s.setTrk t { x with
    lastMeas := some s.lt, interval := iv, measCount := x.measCount + 1,
    inRun := if absI theta ≤ thr then x.inRun + 1 else 0,
    outRun := if 4 * thr < absI theta then x.outRun + 1 else 0 }
  let both := decide (tkReady ≤ s.tkState 0) && decide (tkReady ≤ s.tkState 1)
  let dis := both && decide (nsU * s.fld R.SPN_SW2 F.SPN_SW2_DIS_THR < absI (s.tkOfs 0 - s.tkOfs 1))
  let s := if t < 2 ∧ s.spn.steering ≠ some t then
      { s with spn := { s.spn with disCount := if dis then s.spn.disCount + 1 else 0,
                                   over138 := s.spn.over138 && dis } }
    else s
  if s.spn.steering = some t ∧ s.trackMode then s.servo t theta dt else s

/-- 2^i seconds in the unit of LT. -/
def pow2Sec (i : Int) : Nat := if i < 0 then secU / 2 ^ (-i).toNat else secU * 2 ^ i.toNat
/-- The PTP tracker of a domain at the active exit (R325). -/
def State.ptpTracker (s : State) (domain : Nat) : Option Nat :=
  if s.isExit then
    [0, 1].find? (fun t => s.tkUsed t && decide (s.fld (R.TRK_CFG t) F.TRK_CFG_SRC = 0)
      && decide (s.fld (R.TRK_CFG t) F.TRK_CFG_DOMAIN = domain))
  else none
/-- delayAsymmetry of the active port (R325). -/
def State.ptpAsym (s : State) : Int := signed 32 (s.reg (R.NET_PTP_ASYM (s.exitPort.getD 0))).toNat
/-- P2P delay mechanism on the active port. -/
def State.ptpP2p (s : State) : Bool := s.flag (R.NET_CTRL (s.exitPort.getD 0)) F.NET_CTRL_PTP_P2P

/-- The measurement of a Sync once its timestamps and the mean path delay are known (R325): the offset
t2 - t1 - corrections - delay - asymmetry. -/
def State.ptpMeasure (s : State) (t : Nat) (frq : Nat) : State :=
  let x := s.trk t
  match x.syncT1, x.meanDelay with
  | some t1, some md =>
    if x.syncDone then s
    else
      let theta := (x.syncT2 : Int) - t1 - x.syncCorr - md - s.ptpAsym
      (s.setTrk t { x with syncDone := true }).measure t theta frq x.interval
  | _, _ => s

/-- The Sync intervals the hub accepts (R325): 2^-7 s to 2 s. -/
def syncInterval (i : Int) : Bool := decide (-7 ≤ i) && decide (i ≤ 1)
/-- SYNC_RX (R325): a Sync of the selected master of a tracked domain, at an interval the hub accepts. -/
def execSyncRx (m : PtpMsg) (ph : Phase) (frq : BitVec 32) (s : State) : Res :=
  s.ptpRx m.rx (if !syncInterval m.interval then s else
    let s := s.refreshTrackers
    match s.ptpTracker m.domain.val with
    | none => s
    | some t =>
      let x := s.trk t
      if x.bestSource = some m.source then
        let s := s.sourceValid t
        let s := s.setTrk t { s.trk t with
          syncSeq := m.seqId.val, syncT2 := stampOf s.lt ph.val, syncCorr := m.corr, syncDone := false,
          syncT1 := if m.twoStep then none else some (ltOp m.stamp), misses := 0, lastSync := s.lt,
          interval := pow2Sec m.interval }
        s.ptpMeasure t frq.toNat
      else s)

/-- FOLLOW_UP_RX (R325): the precise origin timestamp of a two-step Sync. -/
def execFollowUpRx (m : PtpMsg) (frq : BitVec 32) (s : State) : Res :=
  s.ptpRx m.rx (match s.ptpTracker m.domain.val with
    | none => s
    | some t =>
      let x := s.trk t
      if x.bestSource = some m.source ∧ x.syncSeq = m.seqId.val ∧ x.syncT1 = none then
        (s.setTrk t { x with syncT1 := some (ltOp m.stamp), syncCorr := x.syncCorr + m.corr }).ptpMeasure t frq.toNat
      else s)

/-- A PTP message leaves a port whose lane carries data, on the transport PTP_TR selects, with DSCP 46 on IP (R324, R325, Table 12.13). -/
def State.sendPtp (s : State) (p kind domain seq stamp : Nat) (corr : Int) : State :=
  let tr := s.fld (R.NET_CTRL p) F.NET_CTRL_PTP_TR % 3
  if s.txData p then s.emit (.ptp p (s.frameHead p (if tr = 2 then 0 else 46)) tr kind domain seq stamp corr) else s
/-- When the next request is due after the one sent at `last` (R325): an interval of 2^`log` s later, the first one at once. -/
def State.reqDue (s : State) (last : Option Nat) (log : Int) : Nat :=
  match last with
  | some t => t + pow2Sec log
  | none => s.lt
/-- DELAY_REQ_SEND (R325): the active exit sends a Delay_Req of tracker t's domain at the interval of the master's Delay_Resp, and keeps
t3. Before a Delay_Resp the interval is 1 s (log 101). -/
def execDelayReqSend (t : Fin 2) (ph : Phase) (s : State) : Res :=
  s.timed (match s.exitPort with
    | none => s
    | some p =>
      if s.tkUsed t.val ∧ s.fld (R.TRK_CFG t.val) F.TRK_CFG_SRC = 0 ∧ !s.ptpP2p then
        let x := s.trk t.val
        let s := s.moveTo (s.reqDue x.reqAt x.reqInterval)
        let t3 := stampOf s.lt ph.val
        let q := (x.reqSeq + 1) % 65536
        (s.setTrk t.val { x with reqSeq := q, reqT3 := some t3, reqAt := some s.lt }).sendPtp p 1 (s.fld (R.TRK_CFG t.val) F.TRK_CFG_DOMAIN) q t3 0
      else s)

/-- DELAY_RESP_RX (R325): the E2E mean path delay ((t2 - t3) + (t4 - t1) - corrections) / 2. -/
def execDelayRespRx (m : PtpMsg) (frq : BitVec 32) (s : State) : Res :=
  s.ptpRx m.rx (match s.ptpTracker m.domain.val with
    | none => s
    | some t =>
      let x := s.trk t
      match x.reqT3, x.syncT1 with
      | some t3, some t1 =>
        if x.reqSeq = m.seqId.val ∧ x.bestSource = some m.source then
          let md := divAway (((x.syncT2 : Int) - t3) + ((ltOp m.stamp : Int) - t1) - x.syncCorr - m.corr) 2
          (s.setTrk t { x with reqT3 := none, reqInterval := m.interval, meanDelay := some md }).ptpMeasure t frq.toNat
        else s
      | _, _ => s)

/-- PDELAY_REQ_SEND (R325): the active exit sends a Pdelay_Req every 2^LOG_PDLY s and keeps t1. -/
def execPdelayReqSend (ph : Phase) (s : State) : Res :=
  s.timed (match s.exitPort with
    | none => s
    | some p =>
      if s.ptpP2p then
        let s := s.moveTo (s.reqDue (s.trk 0).pdAt (signed 8 (s.fld (R.NET_PTP_CFG p) F.NET_PTP_CFG_LOG_PDLY)))
        let t1 := stampOf s.lt ph.val
        let q := ((s.trk 0).pdSeq + 1) % 65536
        let s := s.forEach [0, 1] (fun s t => s.setTrk t { s.trk t with pdSeq := q, pdT1 := some t1, pdCorr := 0, pdAt := some s.lt })
        s.sendPtp p 2 0 q t1 0
      else s)

/-- The core cycle after the present one, in which an answer to what was just received is sent (log 63). -/
def State.nextCycle (s : State) : State := s.moveTo ((s.lt / nsU + 1) * nsU)
/-- PDELAY_REQ_RX (R325): answered on the active port with P2P, in one-step form (kind 3, the turnaround in the
correction) or as Pdelay_Resp and Pdelay_Resp_Follow_Up (kinds 4 and 5); the receipt and the answer are both stamped (Table 2.1). -/
def execPdelayReqRx (m : PtpMsg) (ph : Phases) (s : State) : Res :=
  s.ptpRx m.rx (match s.exitPort with
    | none => s
    | some p =>
      if s.ptpP2p then
        let t2 := stampOf s.lt ph.rx.val
        let s := s.nextCycle
        let t3 := stampOf s.lt ph.tx.val
        if s.flag (R.NET_CTRL p) F.NET_CTRL_PTP_1STEP then
          s.sendPtp p 3 m.domain.val m.seqId.val t2 (m.corr + ((t3 : Int) - t2))
        else
          (s.sendPtp p 4 m.domain.val m.seqId.val t2 0).sendPtp p 5 m.domain.val m.seqId.val t3 m.corr
      else s)

/-- PDELAY_RESP_RX (R325): a Pdelay_Resp gives t2 and its receipt t4, its follow-up t3; a one-step response carries the
turnaround in its correctionField. The mean link delay is ((t4 - t1) - (t3 - t2) - corrections) / 2. -/
def execPdelayRespRx (m : PtpMsg) (followUp : Bool) (ph : Phase) (s : State) : Res :=
  s.ptpRx m.rx (if s.isExit ∧ s.ptpP2p then
    let x := s.trk 0
    match x.pdT1 with
    | none => s
    | some t1 =>
      if x.pdSeq ≠ m.seqId.val then s
      else if followUp then
        let md := divAway (((x.pdT4 : Int) - t1) - ((ltOp m.stamp : Int) - x.pdT2) - x.pdCorr - m.corr) 2
        s.forEach [0, 1] (fun s t => s.setTrk t { s.trk t with pdT1 := none, meanDelay := some md })
      else
        let t4 := stampOf s.lt ph.val
        if m.twoStep then
          s.forEach [0, 1] (fun s t => s.setTrk t { s.trk t with pdT2 := ltOp m.stamp, pdT4 := t4, pdCorr := m.corr })
        else
          let md := divAway (((t4 : Int) - t1) - m.corr) 2
          s.forEach [0, 1] (fun s t => s.setTrk t { s.trk t with pdT1 := none, meanDelay := some md })
  else s)

/-- One data set is better than another: the first difference decides, the smaller being better (Table 12.1). -/
def betterSet : List Nat → List Nat → Bool
  | [], _ => false
  | _ :: _, [] => true
  | a :: as, b :: bs => if a < b then true else if b < a then false else betterSet as bs

/-- ANNOUNCE_RX (R325): best-master selection of the domain and a restart of the receipt timeout. -/
def execAnnounceRx (m : AnnounceMsg) (s : State) : Res :=
  s.ptpRx m.rx (
    let s := s.refreshTrackers
    match s.ptpTracker m.domain.val with
    | none => s
    | some t =>
      let x := s.trk t
      if x.bestSource = some m.source then
        s.setTrk t { x with bestSet := m.dataset, announceLt := s.lt, announceInt := m.interval }
      else if x.bestSource = none ∨ betterSet m.dataset x.bestSet then
        s.setTrk t { x with bestSource := some m.source, bestSet := m.dataset, announceLt := s.lt,
                            announceInt := m.interval, syncT1 := none, syncDone := true, reqT3 := none }
      else s)

/-- When a PTP tracker's Announce messages run out (R54, R325): ANN_TMO announce intervals after the last one. -/
def State.announceEnd (s : State) (t : Nat) : Nat :=
  let x := s.trk t
  x.announceLt + s.fld (R.NET_PTP_CFG (s.exitPort.getD 0)) F.NET_PTP_CFG_ANN_TMO * pow2Sec x.announceInt
/-- When a PTP tracker's Sync messages run out (R54): SYNCLOSS intervals after the last one; 0 acts as 1. -/
def State.syncEnd (s : State) (t : Nat) : Nat :=
  let x := s.trk t
  x.lastSync + max (s.fld R.SPN_HOLD F.SPN_HOLD_SYNCLOSS) 1 * x.interval
/-- A PTP tracker loses its source now, with the other one when its messages have run out too (R54, R64). -/
def State.losePtp (s : State) (t : Nat) : State :=
  let o := 1 - t
  s.loseAll (if decide (s.announceEnd o ≤ s.lt) || decide (s.syncEnd o ≤ s.lt) then [0, 1] else [t])
/-- ANNOUNCE_RECEIPT_TIMEOUT (R54, R325): ANN_TMO announce intervals after the last Announce. -/
def execAnnounceReceiptTimeout (t : Fin 2) (s : State) : Res :=
  s.timed (
    if (s.trk t.val).bestSource = none ∨ s.fld (R.TRK_CFG t.val) F.TRK_CFG_SRC = 1 then s
    else
      let s := (s.moveTo (s.announceEnd t.val)).losePtp t.val
      s.setTrk t.val { s.trk t.val with bestSource := none, bestSet := [] })

/-- SYNC_TIMEOUT (R54): SYNCLOSS consecutive expected Sync messages are missing. -/
def execSyncTimeout (t : Fin 2) (s : State) : Res :=
  s.timed (if s.ptpOn t.val then (s.moveTo (s.syncEnd t.val)).losePtp t.val else s)

/-- The tracker that follows PPS_IN (R67). -/
def State.ppsTracker (s : State) : Option Nat :=
  [0, 1].find? (fun t => s.tkUsed t && decide (s.fld (R.TRK_CFG t) F.TRK_CFG_SRC = 1))

/-- PPS_IN_EDGE (R67): an accepted edge measures its offset from the nearest whole second. -/
def execPpsInEdge (ph : Phase) (frq : BitVec 32) (s : State) : Res :=
  s.timed (
    let s := s.refreshTrackers
    match s.ppsTracker with
    | none => s
    | some t =>
      let e := stampOf s.lt ph.val
      let whole := (e + secU / 2) / secU * secU
      let theta : Int := (e : Int) - whole
      if s.spn.ppsLast.any (fun p => decide (e < p + secU / 2)) then s
      else if tkReady ≤ s.tkState t ∧ nsU * 1000 * s.fld R.SPN_PPS F.SPN_PPS_WIN < absI theta then
        { s with spn := { s.spn with ppsMissed := s.spn.ppsMissed + 1 } }
      else ({ s with spn := { s.spn with ppsLast := some e, ppsMissed := 0 } }).measure t theta frq.toNat secU)

/-- PPS_MISSING (R54, R67): three consecutive seconds without an accepted edge; a restored tracker that has seen none counts from its
restoring. -/
def execPpsMissing (s : State) : Res :=
  s.timed (match s.ppsTracker with
    | some t =>
      if s.tkState t ≤ tkNoSource then s
      else (((s.moveTo (s.spn.ppsLast.getD (s.trk t).validSince + 3 * secU)).loseSource t).raiseHub 134)
    | none => s)

/-- TC_EXCHANGE_TIMEOUT (R54): 4 ms without a completed exchange. -/
def execTcExchangeTimeout (s : State) : Res :=
  s.timed (if s.tkState 2 ≤ tkNoSource then s
    else (s.moveTo (((s.trk 2).lastMeas.getD s.lt) + 4000000 * nsU)).loseSource 2)

/-- Select a READY tracker when none steers (R61, R65). -/
def State.selectTracker (s : State) (t : Nat) : State :=
  if s.spn.steering.isSome ∨ !s.trackMode then s
  else
    let pref := s.fld R.SPN_SW F.SPN_SW_PREF
    if t = 2 then s.startSteer 2
    else if s.tkState pref = tkReady then s.startSteer pref
    else s.startSteer t

/-- The end of QTIME of a tracker's source (R52). -/
def State.qualDue (s : State) (t : Nat) : Nat := (s.trk t).validSince + nsU * 1000000 * s.fld (R.TRK_QUAL t) F.TRK_QUAL_QTIME
/-- A tracker becomes READY (R52). -/
def State.trackerReady (s : State) (t : Nat) : State :=
  (s.setTkState t tkReady).setTrk t { s.trk t with readySince := s.lt, restored := false }
/-- A qualifying tracker may become READY now (R52, R53): QTIME of validity has passed; a source restored from the mirrored state asks for 16
measurements in its place. -/
def State.qualReady (s : State) (t : Nat) : Bool :=
  decide (s.tkState t = tkQualifying)
    && (if (s.trk t).restored then decide (16 ≤ (s.trk t).measCount) else decide (s.qualDue t ≤ s.lt))
/-- TRACKER_QUALIFIED (R52, R53, R61): QTIME of validity, or 16 measurements of a restored source, makes the tracker READY, with the other one
when that holds of it at the same instant; one is selected if no tracker steers. -/
def execTrackerQualified (t : Fin 3) (s : State) : Res :=
  s.timed (
    let s := if s.tkState t.val = tkQualifying ∧ !(s.trk t.val).restored then s.moveTo (s.qualDue t.val) else s
    if s.qualReady t.val then
      let o := 1 - t.val
      let other := decide (t.val < 2) && s.qualReady o
      let s := s.trackerReady t.val
      (if other then s.trackerReady o else s).selectTracker t.val
    else s)

/-- TRACKER_LOCK_CHANGE (R53): 16 consecutive measurements within LOCK_THR lock; 16 above 4 × LOCK_THR unlock. -/
def execTrackerLockChange (t : Fin 3) (s : State) : Res :=
  s.timed (
    let x := s.trk t.val
    if s.tkState t.val = tkAcquire ∧ 16 ≤ x.inRun then (s.setTkState t.val tkLocked).setOwnTq
    else if s.tkState t.val = tkLocked ∧ 16 ≤ x.outRun then (s.setTkState t.val tkAcquire).setOwnTq
    else s)

/-- DOMAIN_DISAGREEMENT (R64): 16 consecutive measurements of the non-steering tracker; once per excursion. -/
def execDomainDisagreement (s : State) : Res :=
  s.timed (if 16 ≤ s.spn.disCount ∧ !s.spn.over138 then
    ({ s with spn := { s.spn with over138 := true } }).raiseHub 138 else s)

/-- HOLD_EXPIRED (R65). -/
def execHoldExpired (s : State) : Res :=
  s.timed (match s.spn.holdSince with
    | none => s
    | some t =>
      if s.spn.ownTq ≠ 2 then s
      else
        let s := s.moveTo (t + secU * s.fld R.SPN_HOLD F.SPN_HOLD_HOLD_MAX)
        (({ s with spn := { s.spn with ownTq := 3 } }).raiseHub 132).updTq)

/-- Fields of SPN_SW. -/
def spnSwFlds : List Fld := [F.SPN_SW_SW_THR, F.SPN_SW_FTHR, F.SPN_SW_REVERT, F.SPN_SW_FORCE, F.SPN_SW_PREF]
/-- A write of SPN_SW; FORCE switches to the other PTP tracker or is refused in SWREF (R63). -/
def State.writeSpnSw (s : State) (v : Word) : State :=
  let s := s.writeFlds R.SPN_SW spnSwFlds v
  if v.toNat.testBit 1 then
    match s.spn.steering with
    | some t => if t < 2 ∧ s.switchOk (1 - t) then s.switchTo (1 - t) else s.bump R.SPN_STAT F.SPN_STAT_SWREF
    | none => s.bump R.SPN_STAT F.SPN_STAT_SWREF
  else s
/-- SPN_SW_FORCE (R63). -/
def execSpnSwForce (v : Word) (s : State) : Res := s.act! (s.writeSpnSw v)

/-- REVERT_SWITCH (R63): the PREF tracker READY for REVTIME takes over if Table 2.5 is met. -/
def execRevertSwitch (s : State) : Res :=
  s.timed (
    let p := s.fld R.SPN_SW F.SPN_SW_PREF
    if s.flag R.SPN_SW F.SPN_SW_REVERT ∧ s.spn.steering = some (1 - p) ∧ s.tkState p = tkReady then
      let s := s.moveTo ((s.trk p).readySince + secU * s.fld R.SPN_SW2 F.SPN_SW2_REVTIME)
      if s.switchOk p then s.switchTo p else s
    else s)

/-- Fields of SPN_CTRL. -/
def spnCtrlFlds : List Fld := [F.SPN_CTRL_AUTOSTEP, F.SPN_CTRL_STEP, F.SPN_CTRL_MODE]
/-- The LT that SPN_SET names. -/
def State.spnTarget (s : State) : Nat :=
  mkLt (s.pair R.SPN_SET R.SPN_SET_HI) (s.reg R.SPN_SETN).toNat (s.fld R.SPN_SETF F.SPN_SETF_FRAC)
/-- What a write of SPN_CTRL does to the servo; `was` says whether the mode was TRACK before (R58). DESIGN CHOICE (log 75): a tracker that steers
when TRACK mode ends is READY from then on and TQ becomes HOLDOVER, with no holdover that could expire and no source 131. -/
def State.modeSet (s : State) (was : Bool) : State :=
  if was ∧ !s.trackMode then
    let s' := match s.spn.steering with
      | some t => ({ s with spn := { s.spn with steering := none } }).demote t
      | none => s
    ({ s' with spn := { s'.spn with fromFree := true } }).setOwnTq
  else if !was ∧ s.trackMode then
    match [2, 0, 1].find? (fun t => decide (s.tkState t = tkReady)) with
    | some t => s.selectTracker t
    | none => s
  else s
/-- A write of SPN_CTRL: the mode, and STEP (R58, R60). -/
def State.writeSpnCtrl (s : State) (v : Word) : State :=
  let s := (s.writeFlds R.SPN_CTRL spnCtrlFlds v).modeSet s.trackMode
  if v.toNat.testBit 3 && (!s.spn.refclk || decide (s.spn.stepUntil ≤ s.lt)) then
    if s.anyActive ∨ 999999999 < (s.reg R.SPN_SETN).toNat ∨ !s.spn.refclk then s.bump R.SPN_STAT F.SPN_STAT_STEPREF
    else s.stepTo s.spnTarget
  else s
/-- SPN_CTRL_STEP (R60). -/
def execSpnCtrlStep (v : Word) (s : State) : Res := s.act! (s.writeSpnCtrl v)

/-- SPN_LTS_READ (R46): the answer is LT seconds [31:0]; the other words of LT are latched from the same cycle. -/
def execSpnLtsRead (s : State) : Res :=
  s.act! (
    let l := tabPut (fun _ => none) s.latch R.SPN_LTS_HI (some (BitVec.ofNat 32 (ltSec s.lt / 2 ^ 32)))
    let l := tabPut (fun _ => none) l R.SPN_LTN (some (BitVec.ofNat 32 (ltNs s.lt)))
    let l := tabPut (fun _ => none) l R.SPN_LTF (some (BitVec.ofNat 32 (ltFrac s.lt)))
    ({ s with latch := l }).answer (ltSec s.lt % 2 ^ 32) 0)

/-- The next rise of PPS_OUT at or after `lo`: a whole second or grid boundary shifted by SPN_PPS_OFS (R68). -/
def State.ppsRiseAt (s : State) (lo : Nat) : Nat :=
  let per := if s.flag R.SPN_PPS F.SPN_PPS_PERIOD then gridU else secU
  let ofs := signed 32 (s.reg R.SPN_PPS_OFS).toNat * 4096
  (((lo : Int) - ofs + per - 1) / per * per + ofs).toNat
/-- PPS_OUT_RISE (R68): suppressed by QUAL while TQ is FREERUN or HOLD_EXPIRED. -/
def execPpsOutRise (s : State) : Res :=
  s.timed (if s.flag R.SPN_PPS F.SPN_PPS_OUT_EN then
    let t := s.ppsRiseAt (max s.lt s.spn.ppsNext)
    let s := s.moveTo t
    let s := { s with spn := { s.spn with ppsNext := t + 1 } }
    if s.ppsAllowed then
      let w := min (max (s.fld R.SPN_PPS F.SPN_PPS_WIDTH) 1) 999
      ({ s with spn := { s.spn with ppsHigh := true, ppsFall := t + nsU * 1000000 * w } }).emit (.pin 0 1 t)
    else s
  else s)
/-- PPS_OUT_FALL (R68): after WIDTH ms. -/
def execPpsOutFall (s : State) : Res :=
  s.act! (if s.spn.ppsHigh then
    let s := s.moveTo s.spn.ppsFall
    ({ s with spn := { s.spn with ppsHigh := false } }).emit (.pin 0 0 s.lt)
  else s)

/-- A write of CMP_T_HI (R9, R69, R70): the held lower word and this one take effect together and arm the unit. DESIGN CHOICE (log 100):
without REFCLK no core cycle exists at which a late unit with LATE_FIRE could fire; it is armed with its target, which the relock
passes by R71. -/
def State.armCmp (s : State) (m : Nat) (v : Word) : State :=
  let s := match tabGet (fun _ => none) s.held (R.CMP_T m) with
    | some lo => ({ s with held := tabPut (fun _ => none) s.held (R.CMP_T m) none }).setReg (R.CMP_T m) lo
    | none => s
  let s := s.writeFlds (R.CMP_T_HI m) [F.CMP_T_HI_T_HI] v
  let st := s.pair (R.CMP_T m) (R.CMP_T_HI m)
  let c := R.CMP_CTRL m
  if !stValid st then (s.setFlag c F.CMP_CTRL_ARMED false).setFlag c F.CMP_CTRL_BADT true
  else
    let t := stToLt s.lt st
    let per := s.cmpPer m
    let k := passedTargets t per ((s.lt : Int) + 500 * nsU - 1)
    let fire := s.flag c F.CMP_CTRL_LATE_FIRE
    if k = 0 ∨ (fire ∧ !s.spn.refclk) then (s.setFlag c F.CMP_CTRL_ARMED true).setCmpU m t
    else
      let s := ((s.setFlag c F.CMP_CTRL_LATE true).raise 139 m)
      let s := s.bumpBy c F.CMP_CTRL_MISSED (if fire then k - 1 else k)
      let s := if per = 0 then s.setFlag c F.CMP_CTRL_ARMED false
        else (s.setFlag c F.CMP_CTRL_ARMED true).setCmpU m (t + k * per)
      if fire then s.cmpActions m s.lt else s
/-- CMP_ARM (R69, R70). -/
def execCmpArm (m : Fin 16) (v : Word) (s : State) : Res := s.act! (s.armCmp m.val v)

/-- CMP_FIRE (R69, R71, R72): the unit reaches its target. -/
def execCmpFire (m : Fin 16) (s : State) : Res :=
  s.act! (if s.cmpArmed m.val ∧ s.spn.refclk then
    let t := (s.cmpU m.val).target
    let s := s.moveTo t.toNat
    let per := s.cmpPer m.val
    let s := if per = 0 then s.setFlag (R.CMP_CTRL m.val) F.CMP_CTRL_ARMED false else s.setCmpU m.val (t + per)
    s.cmpActions m.val t.toNat
  else s)

/-- Fields of CMP_CTRL. -/
def cmpCtrlFlds : List Fld :=
  [F.CMP_CTRL_MISSED, F.CMP_CTRL_PW, F.CMP_CTRL_ACT_SEQ, F.CMP_CTRL_ACT_CAP, F.CMP_CTRL_ACT_SNAP,
   F.CMP_CTRL_LATE_FIRE, F.CMP_CTRL_LATE, F.CMP_CTRL_BADT, F.CMP_CTRL_ARMED, F.CMP_CTRL_DISARM]
/-- A write of CMP_CTRL; DISARM disarms (Table 2.10). -/
def State.writeCmpCtrl (s : State) (m : Nat) (v : Word) : State :=
  let s := s.writeFlds (R.CMP_CTRL m) cmpCtrlFlds v
  if v.toNat.testBit 0 then s.setFlag (R.CMP_CTRL m) F.CMP_CTRL_ARMED false else s
/-- CMP_CTRL_DISARM (R69). -/
def execCmpCtrlDisarm (m : Fin 16) (v : Word) (s : State) : Res := s.act! (s.writeCmpCtrl m.val v)

/-- TRIG_OUT_PULSE_END (R69): the earliest pulse ends; TRIG_OUT falls when none is left. -/
def execTrigOutPulseEnd (s : State) : Res :=
  s.act! (match s.spn.pulses with
    | [] => s
    | a :: r =>
      let t := r.foldl min a
      let s := s.moveTo t
      let s := { s with spn := { s.spn with pulses := s.spn.pulses.erase t } }
      if s.spn.pulses = [] then s.emit (.pin 1 0 s.lt) else s)

/-- A TIME block (Table 12.3): TTYPE, XSEQ and the stamp, its nanoseconds modulo 2^24. -/
def timeBlock (ttype xseq t : Nat) : Nat :=
  let body := 0x99 * 2 ^ 48 + ttype * 2 ^ 44 + xseq * 2 ^ 40 + t % 2 ^ 40
  body * 256 + crc8 (beBytes 7 body)
/-- The full-time word (Table 12.7). -/
def fullTimeWord (xseq tstat hub t : Nat) : List Byte :=
  beBytes 1 4 ++ beBytes 1 xseq ++ beBytes 1 tstat ++ beBytes 1 0 ++ beBytes 2 hub ++ beBytes 2 0 ++ ltBytes t
    ++ beBytes 2 0
/-- TIME_EXCHANGE_START (R335): at each whole millisecond T1 goes out on every link away from the active exit, stamped with its first bit at
the next stripe position. -/
def execTimeExchangeStart (s : State) : Res :=
  s.timed (
    let ms := 1000000 * nsU
    let links := if s.isExit then [0, 1] else match s.upLink with
      | some u => [1 - u]
      | none => []
    let s := s.moveTo ((s.lt / ms + 1) * ms)
    let x := s.spn.txXseq
    let s := s.forEach (links.filter (fun k => s.linkTx k)) (fun s k =>
      let t1 := s.stripeStamp k
      (s.sendTime k (timeBlock 1 x t1)).sendCell k 0 (fullTimeWord x s.timeStatus s.hubId t1))
    { s with spn := { s.spn with txXseq := (x + 1) % 16, txT4 := none } })

/-- An exchange is over; its XSEQ is kept, so that a later part of it is no part of a new one. -/
def TimeXchg.closed (x : TimeXchg) : TimeXchg := ⟨x.xseq, none, none, 0, 0⟩
/-- An exchange is void (R336); four in a row count as no exchange (R54). -/
def State.voidExchange (s : State) : State :=
  let s := { s with spn := { s.spn with voided := s.spn.voided + 1, xchg := s.spn.xchg.closed } }
  if 4 ≤ s.spn.voided then ({ s with spn := { s.spn with voided := 0 } }).loseSource 2 else s
/-- TIME_T1_RX (R335): stamped t2 and answered with T3 at the first stripe position from the next core cycle on, stamped t3. -/
def execTimeT1Rx (k : Fin 2) (xseq : Fin 16) (stamp : BitVec 40) (ph : Phase) (s : State) : Res :=
  s.timed (
    let s := s.refreshTrackers
    if s.upLink = some k.val then
      let s := if s.spn.xchg.t1.isSome then s.voidExchange else s
      let t2 := stampOf s.lt ph.val
      let s := s.nextCycle
      let t3 := s.stripeStamp k.val
      let s := { s with spn := { s.spn with xchg := ⟨xseq.val, some stamp.toNat, none, t2, t3⟩ } }
      s.sendTime k.val (timeBlock 2 xseq.val t3)
    else s)
/-- A full-time word arrives for an exchange whose T1 has not: the open exchange lacks its T4 and this one its T1, so each is void (R336). -/
def State.missingT1 (s : State) (xseq : Nat) : State :=
  let s := if s.spn.xchg.t1.isSome then s.voidExchange else s
  ({ s with spn := { s.spn with xchg := ⟨xseq, none, none, 0, 0⟩ } }).voidExchange
/-- A full-time word arrives (R335, R56): the full LT of t1 and the active exit's time status. -/
def State.fullTimeWord (s : State) (k xseq tstat t : Nat) : State :=
  if s.upLink = some k then
    let s := if s.spn.xchg.xseq ≠ xseq then s.missingT1 xseq
      else if s.spn.xchg.t1.isSome then
        { s with spn := { s.spn with xchg := { s.spn.xchg with fullT1 := some t } } } else s
    ({ s with spn := { s.spn with ringTq := min (tstat % 16) 4, ringDom := tstat / 128 } }).updTq
  else s
/-- FULL_TIME_WORD_RX (R335). -/
def execFullTimeWordRx (k : Fin 2) (xseq : Fin 16) (tstat : Fin 256) (_sender : Fin 65536) (t : LtOp) (s : State) : Res :=
  s.timed (s.fullTimeWord k.val xseq.val tstat.val (ltOp t))
/-- TIME_T3_RX (R335): stamped t4 and returned in T4. -/
def execTimeT3Rx (k : Fin 2) (xseq : Fin 16) (_stamp : BitVec 40) (ph : Phase) (s : State) : Res :=
  s.timed (if s.upLink ≠ some k.val then
    let t4 := stampOf s.lt ph.val
    ({ s with spn := { s.spn with txT4 := some t4 } }).sendTime k.val (timeBlock 3 xseq.val t4)
  else s)
/-- A stamp of 40 bits extended by the multiple of 2^24 ns that brings it nearest to `near` (R336). -/
def extendStamp (near : Nat) (stamp : Nat) : Int := (near : Int) + signed 40 (twos 40 ((stamp : Int) - near))
/-- TIME_T4_RX (R336, R73): the exchange is complete and measures TC, or is void. -/
def execTimeT4Rx (k : Fin 2) (xseq : Fin 16) (stamp : BitVec 40) (frq : BitVec 32) (s : State) : Res :=
  s.timed (if s.upLink = some k.val then
    let x := s.spn.xchg
    match x.t1, x.fullT1 with
    | some _, some t1 =>
      let t4 := extendStamp t1 stamp.toNat
      if x.xseq ≠ xseq.val ∨ 8000000 * (nsU : Int) < t4 - t1 then s.voidExchange
      else
        let asym := signed 32 (s.reg (if k.val = 0 then R.SPN_HOP_ASYM_U else R.SPN_HOP_ASYM_D)).toNat
        let theta := divAway (((x.t2 : Int) - t1) - (t4 - x.t3) - asym) 2
        let s := { s with spn := { s.spn with voided := 0, xchg := x.closed } }
        s.measure 2 theta frq.toNat (1000000 * nsU)
    | _, _ => s.voidExchange
  else s)

/-- A time status notice arrives (R56, R332): the active exit's TQ and DOM. -/
def State.timeNotice (s : State) (k : Nat) (m : Vc1Msg) : State :=
  let (s, take) := s.takeVc1 k 0x12 m
  if take ∧ !s.isExit then
    ({ s with spn := { s.spn with ringTq := min (m.byte0.val % 16) 4, ringDom := m.byte0.val / 128 } }).updTq
  else s
/-- TIME_STATUS_NOTICE_RX (R56). -/
def execTimeStatusNoticeRx (k : Fin 2) (m : Vc1Msg) (s : State) : Res := s.act! (s.timeNotice k.val m)

end Sys2Proof.Machine
end

