-- ==== Sys2Proof/Machine/Net.lean ====
section
/-! DEFINITION. The network ports (section 12.1) as the active exit uses them: addresses and caches, destinations and
their resolution, the sending of stream datagrams and their confirmation. -/
namespace Sys2Proof.Machine

def State.dstAddr (s : State) (d : Nat) : Nat := s.quad (R.DST_ADDR d)
/-- Two addresses of `w` bits share a prefix of `len` bits. -/
def samePrefix (w len a b : Nat) : Bool := decide (a / 2 ^ (w - len) = b / 2 ^ (w - len))

/-- Port `p` sends frames: it is the active exit (R321), and its lane carries data (R312, R313). -/
def State.portSends (s : State) (p : Nat) : Bool := s.isActive p && s.txData p
/-- A frame from port `p` leaves the hub (R321); only PTP and commands carry a DSCP (R324). -/
def State.sendFrame (s : State) (p kind : Nat) (fields : List Nat) : State :=
  if s.portSends p then s.emit (.frame p (s.frameHead p 0) kind fields) else s
/-- A UDP datagram leaves port `p`, with hop limit 64 (R324; for commands log 83), with DF on IPv4 and its checksum (Table 12.1). -/
def State.sendUdp (s : State) (p dscp : Nat) (addr : List Nat) (sport dport : Nat) (bs : List Byte) : State :=
  let v6 := decide (addr.headD 4 = 6)
  let sum := udpSum v6 (if v6 then s.ip6 p else s.ip4 p) ((addr[1]?).getD 0) sport dport bs
  if s.portSends p then s.emit (.udp p (s.frameHead p dscp) 64 (!v6) addr sport dport sum bs) else s
/-- A datagram of Headstock leaves from CMDPORT (R350), with DSCP 46 (R324). -/
def State.sendCmdUdp (s : State) (p : Nat) (addr : List Nat) (dport : Nat) (bs : List Byte) : State :=
  s.sendUdp p 46 addr (s.fld R.NET_GCFG F.NET_GCFG_CMDPORT) dport bs
/-- Frame kinds of `Out.frame`: ARP reply, ARP request, gratuitous ARP, neighbour solicitation, advertisement,
unsolicited advertisement and echo reply. -/
def fkArpReply : Nat := 1
def fkArpRequest : Nat := 2
def fkArpGratuitous : Nat := 3
def fkSolicit : Nat := 4
def fkAdvert : Nat := 5
def fkAdvertUnsol : Nat := 6
def fkEcho : Nat := 7

/-- Entry `d` names a family 6 destination. -/
def State.dst6 (s : State) (d : Nat) : Bool := s.flag (R.DST_PORT d) F.DST_PORT_IP6
/-- Entry `d` names a multicast group, whose MAC address is formed by rule (R323). -/
def State.dstGroup (s : State) (d : Nat) : Bool :=
  if s.dst6 d then decide (s.dstAddr d / 2 ^ 120 = 0xFF) else decide (s.dstAddr d % 2 ^ 32 / 2 ^ 28 = 0xE)
/-- The address to resolve for entry `d` on port `p`: the destination on the link, else the gateway (R323). -/
def State.hop (s : State) (p d : Nat) : Nat :=
  if s.dst6 d then
    let a := s.dstAddr d
    if samePrefix 128 (min (max (s.fld (R.NET_IP6_PFX p) F.NET_IP6_PFX_PFX) 1) 128) a (s.ip6 p) then a
    else s.quad (R.NET_IP6_GW p)
  else
    let a := s.dstAddr d % 2 ^ 32
    if samePrefix 32 (min (max (s.fld (R.NET_IP4_PFX p) F.NET_IP4_PFX_PFX) 1) 32) a (s.ip4 p) then a
    else (s.reg (R.NET_IP4_GW p)).toNat
/-- The cache of a family holds an address. -/
def State.cached (s : State) (v6 : Bool) (a : Nat) : Bool :=
  (if v6 then s.ring.nd else s.ring.arp).any (fun e => decide (e.1 = a))
/-- The MAC address a datagram for entry `d` goes to from port `p` (R323): of a multicast group by RFC 1112 or RFC 2464, else that the
cache holds for the next hop. -/
def State.dstMac (s : State) (p d : Nat) : Nat :=
  if s.dstGroup d then
    if s.dst6 d then 0x333300000000 + s.dstAddr d % 2 ^ 32 else 0x01005E000000 + s.dstAddr d % 2 ^ 23
  else match (if s.dst6 d then s.ring.nd else s.ring.arp).find? (fun e => decide (e.1 = s.hop p d)) with
    | some e => e.2.1
    | none => 0
/-- Entry `d` serves on port `p`: valid, its family has an address there, and its next hop is resolved (R323). -/
def State.dstServes (s : State) (p d : Nat) : Bool :=
  s.dstValid d [p] && (s.dstGroup d || (decide (s.hop p d ≠ 0) && s.cached (s.dst6 d) (s.hop p d)))
/-- Ask the network for the next hop of entry `d` (R323). -/
def State.solicit (s : State) (p d : Nat) : State :=
  if s.dstValid d [p] && !s.dstGroup d && decide (s.hop p d ≠ 0) then
    s.sendFrame p (if s.dst6 d then fkSolicit else fkArpRequest) [s.hop p d]
  else s
/-- Entry `d` is unresolved: source 202 once for the episode, and a first request (R323). -/
def State.unresolve (s : State) (p d : Nat) : State :=
  if s.ring.unresolved.contains d then s
  else
    let at0 := if s.ring.unresolved = [] then s.lt + 100000000 * nsU else s.ring.retryAt
    (({ s with ring := { s.ring with unresolved := s.ring.unresolved ++ [d], retryAt := at0 } }).setEpisode 202 d instHub
      true).solicit p d
/-- Unresolved destinations are so no longer: their episodes are over (R323, R384). -/
def State.resolveAll (s : State) (gone : Nat → Bool) : State :=
  let ds := s.ring.unresolved.filter gone
  ({ s with ring := { s.ring with unresolved := s.ring.unresolved.filter (fun d => !gone d) } }).forEach ds
    (fun s d => s.setEpisode 202 d instHub false)

/-- A confirmation or drop entry of a packet (R334), to this hub's context or along the ring to its origin. Kept for the mirror (R341):
of the confirmations of a context the last, and every drop entry, up to 8,192 (Table 12.10). -/
def State.confirmTo (s : State) (origin c pseq : Nat) (drop : Bool) : State :=
  let rest := s.ring.confs.filter (fun e => !(decide (e.1 = origin) && decide (e.2.1 = c)))
  let l := rest ++ [(origin, c + 32768 * b2n drop, pseq)]
  let s := { s with ring := { s.ring with confs := l.drop (l.length - 8192) } }
  if origin = s.hubId then
    if drop then (s.ggeConfirm c pseq).dropPkt c pseq else (s.ggeConfirm c pseq).confirm c pseq
  else match s.seg.find? (fun h => decide (h.id = origin)) with
    | some h => s.sendCell h.link 4 (beBytes 2 origin ++ beBytes 2 (c + 32768 * b2n drop) ++ beBytes 4 pseq)
    | none => s

/-- A packet that the exit may have had before it loaded its mirror: FIRST of its header (Table 9.4) is not after the capture (log 115). -/
def State.mayBeResent (s : State) (e : ExitPkt) : Bool := (ltAt e.bytes 12).all (fun t => decide (t ≤ s.ring.mconfAt))
/-- A mirrored confirmation entry covers the resent packet (R342). -/
def State.covered (s : State) (e : ExitPkt) : Bool :=
  s.mayBeResent e && s.ring.mconfs.any (fun m => decide (m.1 = e.origin) && decide (m.2.1 % 512 = e.ctx)
    && decide (signed 32 (m.2.2 + 2 ^ 32 - e.pseq) ≥ 0))
/-- The entry that covers it is the drop entry of this very packet (R334). -/
def State.coveredDrop (s : State) (e : ExitPkt) : Bool := s.ring.mconfs.contains (e.origin, e.ctx + 32768, e.pseq)
/-- Length of the datagram of a packet: IP header, UDP header and image (R250). -/
def State.dgramLen (s : State) (e : ExitPkt) : Nat := (if s.dst6 e.dst then 40 else 20) + 8 + e.bytes.length
/-- The active port may send datagrams: its link is up and LOS of its lane is clear (R334). -/
def State.exitClear (s : State) (p : Nat) : Bool :=
  s.portSends p && s.flag (R.NET_STAT p) F.NET_STAT_LINK && !s.flag (R.LNE_STAT p) F.LNE_STAT_LOS && s.spn.refclk
/-- The exit can dispose of a packet now: it is confirmed already, does not fit, or can be sent. -/
def State.exitReady (s : State) (p : Nat) (e : ExitPkt) : Bool :=
  s.covered e || (s.dstServes p e.dst && s.exitClear p)
/-- Dispose of a packet at the exit (R323, R324, R334, R342): answer it again as the mirrored entry did, drop it with MTUERR and source
203, or send its datagram, which then passes the echo monitor. The packets of a context arrive in order: once one is sent, the
mirrored entries of that context cover none to come. -/
def State.exitSend (s : State) (p : Nat) (e : ExitPkt) : State :=
  if s.covered e then s.confirmTo e.origin e.ctx e.pseq (s.coveredDrop e)
  else if s.mtu p < s.dgramLen e then
    ((s.setFlag (R.NET_STAT p) F.NET_STAT_MTUERR true).raise 203 p).confirmTo e.origin e.ctx e.pseq true
  else
    let a := (if s.dst6 e.dst then [6, s.dstAddr e.dst] else [4, s.dstAddr e.dst % 2 ^ 32]) ++ [s.dstMac p e.dst]
    ({ s with ring := { s.ring with air := s.ring.air ++ [(e.origin, e.ctx, e.pseq)],
                                    mconfs := s.ring.mconfs.filter (fun m => !(decide (m.1 = e.origin) && decide (m.2.1 % 512 = e.ctx))) } }).sendUdp
      p 0 a (s.fld R.NET_SPORT F.NET_SPORT_SPORT) (s.fld (R.DST_PORT e.dst) F.DST_PORT_PORT) e.bytes
/-- Offer a packet to the exit: disposed of, or kept for at most 2 ms (R334) while its destination is resolved or the port
is quiet. -/
def State.exitOffer (s : State) (p : Nat) (e : ExitPkt) : State :=
  let s := if s.covered e || s.dstServes p e.dst then s else s.unresolve p e.dst
  if s.exitReady p e then s.exitSend p e else { s with ring := { s.ring with held := s.ring.held ++ [e] } }
/-- 2 ms, the longest time the exit holds a packet of another hub (R334). -/
def exitHold : Nat := 2000000 * nsU
/-- Offer every held packet again; those held too long are discarded unconfirmed (R334). -/
def State.exitFlush (s : State) (p : Nat) : State :=
  let l := s.ring.held.filter (fun e => decide (s.lt ≤ e.since + exitHold))
  ({ s with ring := { s.ring with held := [] } }).forEach l (fun s e => s.exitOffer p e)
/-- LANE_LOS_CLEAR (R304): the exit sends what it held for the LOS of its lane (R334). -/
def execLaneLosClear (i : Fin 10) (s : State) : Res :=
  s.act! (
    let s := ((s.setFlag (R.LNE_STAT i.val) F.LNE_STAT_LOS false).laneQuiet i.val).losCount i.val none
    if decide (i.val < 2) && s.isActive i.val then s.exitFlush i.val else s)

/-- EXIT_PACKET_EXPIRY (R334). -/
def execExitPacketExpiry (s : State) : Res :=
  s.act! (match s.ring.held with
    | [] => s
    | e :: _ =>
      let s := s.moveTo (e.since + exitHold)
      { s with ring := { s.ring with held := s.ring.held.filter (fun e => decide (s.lt < e.since + exitHold)) } })

/-- DATAGRAM_PASSED_ECHO_MONITOR (R334): the packet is confirmed. -/
def execDatagramPassedEchoMonitor (origin : Fin 65536) (c : Fin 512) (pseq : BitVec 32) (s : State) : Res :=
  s.act! (
    let k := (origin.val, c.val, pseq.toNat)
    if s.ring.air.contains k then
      ({ s with ring := { s.ring with air := s.ring.air.erase k } }).confirmTo origin.val c.val pseq.toNat false
    else s)

/-- A path to the active exit exists: this hub is it, or a link that is up leads to it (R246, R253). -/
def State.hasPath (s : State) : Bool := s.isExit || (match s.upLink with | some k => s.linkUp k | none => false)
/-- A path that was lost and is back rewinds every context (R246). -/
def State.pathSync (s : State) : State :=
  let now := s.hasPath
  let s' := if now && !s.ring.hadPath then s.rewindAll else s
  { s' with ring := { s'.ring with hadPath := now } }

/-- The cells of a packet towards the exit: up to 248 bytes of the image behind the segment header (R333, Table 12.6). -/
def segCells (origin dst c pseq : Nat) : Nat → Bool → List Byte → List (List Byte)
  | 0, _, _ => []
  | fuel + 1, first, bs =>
    let last := decide (bs.length ≤ 248)
    let sctx := 32768 * b2n first + 16384 * b2n last + 512 * dst + c
    (beBytes 2 origin ++ beBytes 2 sctx ++ beBytes 4 pseq ++ bs.take 248)
      :: (if last then [] else segCells origin dst c pseq fuel false (bs.drop 248))
/-- Send an image of this hub towards the exit. -/
def State.sendUp (s : State) (k c pseq : Nat) (bs : List Byte) : State :=
  s.forEach (segCells s.hubId (s.fld (R.STR_SEND c) F.STR_SEND_DST) c pseq (bs.length + 1) true bs)
    (fun s cell => s.sendCell k 3 cell)
/-- The sender may read now (R253): the exit can send, or the link towards it is up and has VC3 credit. -/
def State.senderFree (s : State) (e : ExitPkt) : Bool :=
  match s.exitPort with
  | some p => s.exitReady p e
  | none => match s.upLink with
    | some k => s.linkTx k && (s.lk k).waiting.all (fun w => decide (w.vc ≠ 3))
    | none => false
/-- What PACKET_SEND reads for a context: its stored gap packet, the head of Gouge's output buffer, or the packet at SP
(R246, R261, R269). -/
def State.sendItem (s : State) (c : Nat) (stored : Bool) : Option (Nat × List Byte) :=
  if stored then match s.gapStore.find? (fun g => !g.pkt.sent) with
    | some g => if g.ctx = c then some (g.pkt.pseq, g.pkt.bytes) else none
    | none => none
  else if s.ggeOn c then match s.gge.outs with
    | o :: _ => if o.ctx = c then some (o.pseq, o.bytes) else none
    | [] => none
  else (s.nextPkt c).map (fun p => (p.pseq, p.bytes))
/-- Mark what was read as sent. -/
def State.sendTake (s : State) (c : Nat) (stored : Bool) (q : Nat) : State :=
  let mark := fun (p : Pkt) => if p.pseq = q then { p with sent := true } else p
  if stored then
    { s with gapStore := s.gapStore.map (fun (g : GapPkt) => if g.ctx = c then { g with pkt := mark g.pkt } else g) }
  else if s.ggeOn c then
    let s := { s with gge := { s.gge with outs := s.gge.outs.tail } }
    s.setStr c { s.st c with pkts := (s.st c).pkts.map mark }
  else match s.nextPkt c with
    | some p => s.takePkt c p false true
    | none => s
/-- Send the next packet of a context, when a path and credit exist (R246). -/
def State.packetSend (s : State) (c : Nat) (stored : Bool) : State :=
  match s.sendItem c stored with
  | none => s
  | some (q, bs) =>
    let e : ExitPkt := ⟨s.hubId, c, s.fld (R.STR_SEND c) F.STR_SEND_DST, q, bs, s.lt⟩
    if s.senderFree e then
      let way := (s.exitPort, s.upLink)
      let s := s.sendTake c stored q
      match way.1, way.2 with
      | some p, _ => s.exitSend p e
      | none, some k => s.sendUp k c q bs
      | none, none => s
    else match s.exitPort with
      | some p => if s.dstServes p e.dst then s else s.unresolve p e.dst
      | none => s
/-- PACKET_SEND (R246). -/
def execPacketSend (c : Fin 512) (stored : Bool) (s : State) : Res := s.act! (s.packetSend c.val stored)

/-- STREAM_CONFIRMATION (R246, R334). -/
def execStreamConfirmation (c : Fin 512) (pseq : BitVec 32) (s : State) : Res :=
  s.act! ((s.ggeConfirm c.val pseq.toNat).confirm c.val pseq.toNat)
/-- DROP_ENTRY (R262, R334). -/
def execDropEntry (c : Fin 512) (pseq : BitVec 32) (s : State) : Res :=
  s.act! ((s.ggeConfirm c.val pseq.toNat).dropPkt c.val pseq.toNat)

/-- A write of STR_CTRL (R260): ABORT before STOP before START. -/
def State.writeStrCtrl (s : State) (c : Nat) (v : Word) : State :=
  let s := s.writeFlds (R.STR_CTRL c) [F.STR_CTRL_ABORT, F.STR_CTRL_STOP, F.STR_CTRL_START] v
  if v.toNat.testBit 2 then s.ctxAbort c
  else if v.toNat.testBit 1 then s.strStop c
  else if v.toNat.testBit 0 then s.ctxStart c
  else s
/-- STR_CTRL_START (R252). -/
def execStrCtrlStart (c : Fin 512) (v : Word) (s : State) : Res := s.act! (s.writeStrCtrl c.val v)
/-- STR_CTRL_STOP (R260). -/
def execStrCtrlStop (c : Fin 512) (v : Word) (s : State) : Res := s.act! (s.writeStrCtrl c.val v)
/-- STR_CTRL_ABORT (R260). -/
def execStrCtrlAbort (c : Fin 512) (v : Word) (s : State) : Res := s.act! (s.writeStrCtrl c.val v)

/-- STREAM_ROW_APPEND (R238): at the row's closing edge + 200 us. -/
def execStreamRowAppend (c : Fin 512) (s : State) : Res :=
  s.act! (
    if s.strState c.val = 1 ∧ !s.strRecords c.val then
      match s.strNext c.val with
      | some (name, close) =>
        if s.rowReady (s.strMembers c.val) close then
          let s := s.moveTo (close + 200000 * nsU)
          let s := if (s.st c.val).lossAt.any (fun l => l.relockLt.any (fun t => decide (t ≤ name))) then s.lossGap c.val name else s
          let s := s.appendRow c.val name
          s.setStr c.val { s.st c.val with nextRow := close }
        else s
      | none => s
    else s)
/-- SPILL_DRAIN (R255). -/
def execSpillDrain (c : Fin 512) (s : State) : Res := s.act! (s.drainSpill c.val)
/-- PACKET_FLUSH (R247): FLUSH x 100 us after its first item the open packet closes. -/
def execPacketFlush (c : Fin 512) (s : State) : Res :=
  s.act! (match (s.st c.val).cur with
    | some o => (s.moveTo (o.opened + nsU * 100000 * s.strFlush c.val)).closePkt c.val false false
    | none => s)
/-- DESCRIPTOR_DUE (R249): appended, or waiting for room. -/
def execDescriptorDue (c : Fin 512) (s : State) : Res :=
  s.act! (match (s.st c.val).descAt with
    | some t =>
      if s.strState c.val = 1 then
        let s := s.moveTo t
        if (s.st c.val).gap = none ∧ (s.st c.val).gapWaits = [] ∧ s.descUnits c.val ≤ s.freeUnits c.val then
          s.appendDesc c.val
        else s.setStr c.val { s.st c.val with descAt := none, descWaits := true }
      else s
    | none => s)

/-- ARP_REQUEST_RX (R320): a request for the port's address is answered. -/
def execArpRequestRx (p : RxPort) (target sender : BitVec 32) (mac : BitVec 48) (s : State) : Res :=
  let i := p.port.val
  s.act! (s.rxGate i p.head .arp (if s.ownIp i false target.toNat then
    s.sendFrame i fkArpReply [target.toNat, s.portMac i, sender.toNat, mac.toNat] else s))
/-- NEIGHBOUR_SOLICITATION_RX (R320): a solicitation for the port's global or link-local address is answered. -/
def execNeighbourSolicitationRx (p : RxPort) (target source : BitVec 128) (s : State) : Res :=
  let i := p.port.val
  s.act! (s.rxGate i p.head .ndp (if s.ownIp i true target.toNat then
    s.sendFrame i fkAdvert [target.toNat, s.portMac i, source.toNat] else s))
/-- Keep an entry in a cache of 32, the oldest going first (Table 12.10). -/
def cachePut (l : List (Nat × Nat × Nat)) (a mac now : Nat) : List (Nat × Nat × Nat) :=
  let r := l.filter (fun e => decide (e.1 ≠ a)) ++ [(a, mac, now)]
  r.drop (r.length - 32)
/-- Destinations that now serve leave the unresolved list, and the held packets are offered again (R323). -/
def State.resolved (s : State) (p : Nat) : State :=
  (s.resolveAll (fun d => s.dstServes p d)).exitFlush p
/-- The port's own address is claimed for another MAC (R326). -/
def State.ipConflict (s : State) (p : Nat) : State := (s.setFlag (R.NET_STAT p) F.NET_STAT_IPCONF true).raise 201 p
/-- ARP_REPLY_RX (R323, R326). -/
def execArpReplyRx (p : RxPort) (ip : BitVec 32) (mac : BitVec 48) (s : State) : Res :=
  let i := p.port.val
  s.act! (s.rxGate i p.head .arp (
    if s.ownIp i false ip.toNat then (if mac.toNat = s.portMac i then s else s.ipConflict i)
    else ({ s with ring := { s.ring with arp := cachePut s.ring.arp ip.toNat mac.toNat s.lt } }).resolved i))
/-- NEIGHBOUR_ADVERTISEMENT_RX (R323, R326). -/
def execNeighbourAdvertisementRx (p : RxPort) (ip : BitVec 128) (mac : BitVec 48) (s : State) : Res :=
  let i := p.port.val
  s.act! (s.rxGate i p.head .ndp (
    if s.ownIp i true ip.toNat then (if mac.toNat = s.portMac i then s else s.ipConflict i)
    else ({ s with ring := { s.ring with nd := cachePut s.ring.nd ip.toNat mac.toNat s.lt } }).resolved i))
/-- ICMP_ECHO_REQUEST (R320): answered with an echo reply on the active exit, which carries the data of the request. -/
def execIcmpEchoRequest (p : EchoRx) (v6 : Bool) (dest source : BitVec 128) (ident seq : Fin 65536) (s : State) : Res :=
  let i := p.rx.port.val
  s.act! (s.rxGate i p.rx.head .echo (if s.ownIp i v6 dest.toNat then
    s.sendFrame i fkEcho ([b2n v6, source.toNat, ident.val, seq.val] ++ p.data.map (fun b => b.toNat)) else s))
/-- DEST_RESOLVE_RETRY (R323): every 100 ms the exit resolves again. -/
def execDestResolveRetry (s : State) : Res :=
  s.act! (match s.exitPort with
    | none => s
    | some p =>
      if s.ring.unresolved = [] then s
      else
        let s := s.moveTo s.ring.retryAt
        let s := { s with ring := { s.ring with retryAt := s.lt + 100000000 * nsU } }
        let s := s.resolved p
        s.forEach s.ring.unresolved (fun s d => s.solicit p d))

end Sys2Proof.Machine
end

