-- ==== Sys2Proof/Machine/Ring.lean ====
section
/-! DEFINITION. The ring (sections 12.4 and 12.5): segment table, enumeration, eligibility and choice of the exit, exit
events, mirror, failover and the commanded switch. -/
namespace Sys2Proof.Machine

/-- The flag of a link as the ring sees it (Table 12.8). -/
def State.linkFlag (s : State) (k : Nat) : Bool := s.flag (R.CHP_STAT k) F.CHP_STAT_UP
/-- This hub is the head or the tail of its segment (R337). -/
def State.atEnd (s : State) : Bool := !s.linkFlag 0 || !s.linkFlag 1
/-- A segment of one (R337). -/
def State.alone (s : State) : Bool := !s.linkFlag 0 && !s.linkFlag 1
/-- LINKS and XST of this hub (Table 12.8). -/
def State.ownLinks (s : State) : Nat := b2n (s.linkFlag 0) + 2 * b2n (s.linkFlag 1)
def State.ownXst (s : State) : Nat := s.xState 0 + 8 * s.xState 1
/-- XSTATE of port `p` in an XST byte. -/
def xstPort (xst p : Nat) : Nat := xst / 8 ^ p % 8
/-- Some port of a hub in an XST byte is active. -/
def xstActive (xst : Nat) : Bool := decide (xstPort xst 0 = xActive) || decide (xstPort xst 1 = xActive)

/-- The enumeration message of this hub (Table 12.8). -/
def State.enumBytes (s : State) : List Byte :=
  beBytes 1 1 ++ beBytes 1 0 ++ beBytes 2 s.hubId ++ beBytes 1 s.ownLinks ++ beBytes 1 s.ownXst ++ beBytes 2 0
    ++ ltBytes (if xstActive s.ownXst then s.ring.actLt else 0) ++ beBytes 2 0
/-- Send the enumeration message on both links (R338). -/
def State.sendEnum (s : State) : State :=
  ({ s with ring := { s.ring with enumAt := s.lt } }).sendBoth 0 s.enumBytes
/-- A change of the segment: the table settles 100 us later (R338). -/
def State.segTouch (s : State) : State := { s with ring := { s.ring with changedAt := s.lt, settled := false } }
/-- This hub's links or exit states changed: it tells the segment (R338). -/
def State.segChanged (s : State) : State := s.sendEnum.segTouch
/-- ENUMERATION_SEND (R338): every 100 ms. -/
def execEnumerationSend (s : State) : Res := s.act! ((s.moveTo (s.ring.enumAt + 100000000 * nsU)).sendEnum)

/-- A port of the segment is active as far as this hub knows. -/
def State.segActive (s : State) : Bool := xstActive s.ownXst || s.seg.any (fun h => xstActive h.xst)
/-- The segment has just lost its active port: the 30 ms of R339 run from here. -/
def State.noteLoss (s : State) (was : Bool) : State :=
  if was && !s.segActive then { s with ring := { s.ring with lastAct := some s.lt } } else s
/-- 30 ms: the age limit of a mirror and the wait of R339. -/
def mirLimit : Nat := 30000000 * nsU
/-- The hub holds a valid mirror (R341). -/
def State.mirrorValid (s : State) : Bool :=
  match s.ring.mirror with
  | some m => decide (s.lt ≤ m.time + mirLimit)
  | none => false
/-- A port may activate as far as the mirror goes (R339). -/
def State.mirrorOk (s : State) : Bool :=
  s.mirrorValid || (!s.segActive && (match s.ring.lastAct with
    | some t => decide (t + mirLimit < s.lt)
    | none => true))
/-- 100 ms of R339. -/
def goodTime : Nat := 100000000 * nsU
/-- The instant at which a port's link and echo monitor have been good for 100 ms (R339). -/
def State.goodAt (s : State) (p : Nat) : Nat := max (s.pt p).linkAt (((s.pt p).echoes.getLast?).getD 0) + goodTime
/-- An exit candidate (R339). -/
def State.candidate (s : State) (p : Nat) : Bool := s.flag (R.NET_CTRL p) F.NET_CTRL_EXIT_EN && s.atEnd
/-- Link and echo monitor have been good for 100 ms (R339). -/
def State.portGood (s : State) (p : Nat) : Bool :=
  s.flag (R.NET_STAT p) F.NET_STAT_LINK && decide (s.goodAt p ≤ s.lt)
/-- An eligible candidate (R339): of two such ports of a hub only port A is used, unless the hub is alone in its segment. -/
def State.eligible (s : State) (p : Nat) : Bool :=
  s.candidate p && s.portGood p && s.mirrorOk && (decide (p = 0) || s.alone || !(s.candidate 0 && s.portGood 0))
/-- XSTATE a port has now (Table 12.13); an active port stays active, and a failed one failed until eligible (R340). -/
def State.xNow (s : State) (p : Nat) : Nat :=
  if s.isActive p then xActive
  else if !s.candidate p then xNone
  else if s.eligible p then xStandby
  else if s.xState p = xFailed then xFailed
  else xIneligible
/-- A candidate lacks only a valid mirror (R341, source 194). -/
def State.lacksMirror (s : State) : Bool :=
  [0, 1].any (fun p => s.candidate p && s.portGood p && !s.isActive p && !s.mirrorOk)
/-- Bring both ports' states up to date, and tell the segment of a change. -/
def State.portsSet (s : State) : State :=
  let old := s.ownXst
  let s := (s.setX 0 (s.xNow 0)).setX 1 (s.xNow 1)
  if s.ownXst = old then s else s.segChanged
/-- Source 194 while a standby port lacks a valid mirror (R341). -/
def State.mirrorLine (s : State) : State := s.setLine 194 instHub s.lacksMirror
/-- Bring both ports and source 194 up to date. -/
def State.portsSync (s : State) : State := s.portsSet.mirrorLine

/-- An exit event (Table 12.9). -/
def State.exitEvent (s : State) (evt p target : Nat) : State :=
  s.sendBoth 0 (beBytes 1 2 ++ beBytes 1 0 ++ beBytes 2 s.hubId ++ beBytes 1 evt ++ beBytes 1 p ++ beBytes 2 target
    ++ ltBytes (stamp50 s.lt) ++ beBytes 2 0)
def evtFail : Nat := 1
def evtActive : Nat := 2
def evtStandby : Nat := 3
def evtSwitch : Nat := 4

/-- The exit this hub follows changes (R246, R339): CHP_ACT, the trackers its role uses, and a rewind. TC holds over only where the
upstream direction changes (R75). -/
def State.followExit (s : State) (id p : Nat) : State :=
  let up := s.upLink
  let same := decide (s.fld R.CHP_ACT F.CHP_ACT_ACTID = id) && decide (s.fld R.CHP_ACT F.CHP_ACT_APORT = p)
  let s := s.setReg R.CHP_ACT (BitVec.ofNat 32 (id * 65536 + p))
  let s := s.setFlag R.CHP_RING F.CHP_RING_ACTHERE (decide (id = s.hubId) && xstActive s.ownXst)
  if same then s.refreshTrackers.updTq.pathSync
  else
    let s := (if s.upLink = up then s else s.loseSource 2).refreshTrackers.updTq
    let s := s.rewindAll
    { s with ring := { s.ring with hadPath := s.hasPath } }

/-- Log2 of an interval in seconds, as the mirror carries it (Table 12.10). -/
def logSec (iv : Nat) : Nat :=
  match [-7, -6, -5, -4, -3, -2, -1, 0, 1].find? (fun i => decide (pow2Sec i = iv)) with
  | some i => twos 8 i
  | none => 0
/-- The PTP part of one tracker in the mirror (Table 12.10). -/
def State.mirTracker (s : State) (t : Nat) : List Byte :=
  let x := s.trk t
  beBytes 1 (s.tkState t) ++ beBytes 1 (s.fld (R.TRK_CFG t) F.TRK_CFG_DOMAIN) ++ beBytes 1 (logSec x.interval)
    ++ beBytes 1 (twos 8 x.reqInterval) ++ beBytes 10 (x.bestSource.getD 0) ++ beBytes 2 x.syncSeq
    ++ beBytes 8 (twos 64 (x.meanDelay.getD 0)) ++ beBytes 8 (twos 64 (roundAway (s.spn.freq * 2 ^ 48 / 1000000000)))
    ++ ltBytes (x.lastMeas.getD 0) ++ beBytes 18 0
/-- Age of a cache entry in seconds. -/
def State.ageOf (s : State) (t w : Nat) : Nat := min ((s.lt - t) / secU) (2 ^ w - 1)
/-- The mirror image of the active exit (Table 12.10). -/
def State.mirrorImage (s : State) (p gen : Nat) : List Byte :=
  let head := fun (crc : Nat) => beBytes 1 3 ++ beBytes 1 p ++ beBytes 2 s.hubId ++ beBytes 4 gen ++ ltBytes (stamp50 s.lt)
    ++ beBytes 2 s.ring.arp.length ++ beBytes 2 s.ring.nd.length ++ beBytes 2 (min s.ring.confs.length 8192) ++ beBytes 4 crc
  let body := s.mirTracker 0 ++ s.mirTracker 1
    ++ (s.ring.arp.map (fun e => beBytes 4 e.1 ++ beBytes 6 e.2.1 ++ beBytes 2 (s.ageOf e.2.2 16))).flatten
    ++ (s.ring.nd.map (fun e => beBytes 16 e.1 ++ beBytes 6 e.2.1 ++ beBytes 1 0 ++ beBytes 1 (s.ageOf e.2.2 8))).flatten
    ++ ((s.ring.confs.drop (s.ring.confs.length - 8192)).map
        (fun e => beBytes 2 e.1 ++ beBytes 2 e.2.1 ++ beBytes 4 e.2.2)).flatten
  head (crc32c (head 0 ++ body)) ++ body
/-- Cut an image into cells of up to 256 bytes, each with MTYPE in front (R332). -/
def pieces256 : Nat → List Byte → List (List Byte)
  | 0, _ => []
  | fuel + 1, bs => if bs.length ≤ 256 then [bs] else bs.take 256 :: pieces256 fuel (3 :: bs.drop 256)
/-- Send an image on VC5 of a link, in successive cells (R341). -/
def State.sendMirror (s : State) (k : Nat) (bs : List Byte) : State :=
  s.forEach (pieces256 bs.length bs) (fun s c => s.sendCell k 5 c)
/-- The active exit sends its mirror now (R341). -/
def State.mirrorNow (s : State) (p : Nat) : State :=
  let g := (s.ring.mirGen + 1) % 2 ^ 32
  let s := { s with ring := { s.ring with mirGen := g, mirAt := s.lt } }
  let bs := s.mirrorImage p g
  (s.sendMirror 0 bs).sendMirror 1 bs
/-- MIRROR_SEND (R341): every 10 ms from the active exit. -/
def execMirrorSend (s : State) : Res :=
  s.act! (match s.exitPort with
    | some p => (s.moveTo (s.ring.mirAt + 10000000 * nsU)).mirrorNow p
    | none => s)

/-- Load a tracker from its part of a mirror (R75, R342): its master, sequence, path delay and last measurement; it qualifies anew,
and its messages are awaited from now on. -/
def State.loadTracker (s : State) (t : Nat) (b : List Byte) : State :=
  let x := s.trk t
  let live := decide (tkNoSource < natAt b 0 1) && s.tkUsed t
  let s := s.setTrk t { x with
    bestSource := if natAt b 4 10 = 0 then none else some (natAt b 4 10), syncSeq := natAt b 14 2,
    meanDelay := some (signed 64 (natAt b 16 8)), restored := live, measCount := 0, announceLt := s.lt, lastSync := s.lt,
    lastMeas := match ltAt b 32 with
      | some 0 => none
      | o => o,
    interval := pow2Sec (signed 8 (natAt b 2 1)), reqInterval := signed 8 (natAt b 3 1) }
  if live then (s.setTkState t tkNoSource).sourceValid t else s
/-- Entries of a mirror section. -/
def mirEntries (b : List Byte) (o n len : Nat) (f : List Byte → Nat × Nat × Nat) : List (Nat × Nat × Nat) :=
  (List.range n).map (fun i => f (bytesAt b (o + len * i) len))
/-- Load the PTP and cache sections of a mirror (R342). DESIGN CHOICE (log 78): f becomes the mirrored one, while RATE stays what this hub
applies until a tracker is READY and steers. -/
def State.loadMirror (s : State) (m : Mirror) : State :=
  let b := m.bytes
  let na := natAt b 22 2
  let nn := natAt b 24 2
  let o := 160 + 12 * na
  let ago := fun n => s.lt - secU * n
  let s := { s with
    ring := { s.ring with
      mirGen := m.gen
      arp := mirEntries b 160 na 12 (fun e => (natAt e 0 4, natAt e 4 6, ago (natAt e 10 2)))
      nd := mirEntries b o nn 24 (fun e => (natAt e 0 16, natAt e 16 6, ago (natAt e 23 1)))
      confs := mirEntries b (o + 24 * nn) (natAt b 26 2) 8 (fun e => (natAt e 0 2, natAt e 2 2, natAt e 4 4))
      mconfs := mirEntries b (o + 24 * nn) (natAt b 26 2) 8 (fun e => (natAt e 0 2, natAt e 2 2, natAt e 4 4))
      mconfAt := m.time }
    spn := { s.spn with freq := (signed 64 (natAt b 56 8) : Rat) * 1000000000 / 2 ^ 48 } }
  (s.loadTracker 0 (bytesAt b 32 64)).loadTracker 1 (bytesAt b 96 64)

/-- A commanded switch is done, or can no longer be: CHP_RING.SWITCH returns to 0 (R17, R344). -/
def State.endSwitch (s : State) : State :=
  ({ s with ring := { s.ring with switching := none } }).setFlag R.CHP_RING F.CHP_RING_SWITCH false
/-- What the ring holds as a port of this hub becomes the active exit: nothing of an earlier exit. -/
def RingState.asExit (x : RingState) (t : Nat) : RingState :=
  { x with actLt := stamp50 t, stopAt := none, held := [], parts := [], air := [], mirAt := t, arp := [], nd := [],
           confs := [], mconfs := [], mconfAt := 0 }
/-- The trackers of a new exit (R342): from the valid mirror, or from NO_SOURCE. -/
def State.exitTrackers (s : State) (valid : Bool) : State :=
  match s.ring.mirror, valid with
  | some m, true => s.loadMirror m
  | _, _ => s.forEach [0, 1] (fun s t => if s.tkUsed t then (s.setTrk t Tracker.init).setTkState t tkNoSource else s)
/-- What a new exit tells its network (R342): for each configured address one gratuitous ARP or one unsolicited advertisement. -/
def State.announceExit (s : State) (p : Nat) : State :=
  let s := if s.ip4 p = 0 then s else s.sendFrame p fkArpGratuitous [s.ip4 p, s.portMac p]
  if s.ip6 p = 0 then s else s.sendFrame p fkAdvertUnsol [s.ip6 p, s.portMac p]
/-- A port becomes the active exit (R342). -/
def State.activate (s : State) (p : Nat) : State :=
  let valid := s.mirrorValid
  let t := s.endSwitch.resolveAll (fun _ => true)
  let s := { t with ring := t.ring.asExit t.lt }
  let s := ((s.setX p xActive).followExit s.hubId p).exitTrackers valid
  let s := (s.raise 193 p).mirrorLine
  let s := (if valid then s else s.raise 195 p).announceExit p
  let s := (s.exitEvent evtActive p 0).setFlag R.CHP_RING F.CHP_RING_NOEXIT false
  (s.setLine 171 instHub false).segChanged
/-- The active port of this hub stops being it (R321, R340, R343): `x` is its new XSTATE. -/
def State.deactivate (s : State) (p x : Nat) : State :=
  let was := s.segActive
  let s := s.setX p x
  let s := s.resolveAll (fun _ => true)
  let s := { s with ring := { s.ring with actLt := 0, held := [], parts := [], air := [] } }
  let s := (s.setFlag R.CHP_RING F.CHP_RING_ACTHERE false).noteLoss was
  s.refreshTrackers.updTq.pathSync

/-- Ports of a hub in an XST byte with a code. -/
def xstWith (id actLt xst code : Nat) : List (Nat × Nat × Nat) :=
  ([0, 1].filter (fun p => decide (xstPort xst p = code))).map (fun p => (actLt, id, p))
/-- Ports of the segment with a code, as (ACTLT, hub ID, port). -/
def State.portsWith (s : State) (code : Nat) : List (Nat × Nat × Nat) :=
  xstWith s.hubId s.ring.actLt s.ownXst code ++ (s.seg.map (fun h => xstWith h.id h.actLt h.xst code)).flatten
/-- Lexicographic order of (ACTLT, hub ID, port) (R339). -/
def earlier (a b : Nat × Nat × Nat) : Bool :=
  decide (a.1 < b.1) || (decide (a.1 = b.1) && (decide (a.2.1 < b.2.1) || (decide (a.2.1 = b.2.1) && decide (a.2.2 < b.2.2))))
/-- The first of a list in that order. -/
def firstOf (l : List (Nat × Nat × Nat)) : Option (Nat × Nat × Nat) :=
  l.foldl (fun a b => match a with
    | none => some b
    | some a => if earlier b a then some b else some a) none

/-- Walk outwards along a link: entries stay while each hub between has its outer link up (R337). -/
def walkSeg (k : Nat) (l : List SegHub) : Nat → Nat → List SegHub
  | 0, _ => []
  | fuel + 1, h =>
    match l.find? (fun e => decide (e.link = k) && decide (e.hops = h)) with
    | some e => e :: (if e.links.testBit k then walkSeg k l fuel (h + 1) else [])
    | none => []
/-- The hubs that can be reached over links that are up (R337). -/
def State.reach (s : State) : List SegHub :=
  (if s.linkFlag 0 then walkSeg 0 s.seg 16 1 else []) ++ (if s.linkFlag 1 then walkSeg 1 s.seg 16 1 else [])
/-- The table has changed: partial packets of origins whose path was there and has changed or gone are discarded (R333). -/
def State.dropParts (s : State) (before : List SegHub) : State :=
  let path := fun (l : List SegHub) (o : Nat) => (l.find? (fun h => decide (h.id = o))).map (fun h => (h.link, h.hops))
  { s with ring := { s.ring with
      parts := s.ring.parts.filter (fun q => decide (path before q.origin = none ∨ path before q.origin = path s.reach q.origin)) } }
/-- The table as it settles: without hubs that cannot be reached any more, and without partial packets of origins whose path changed
(R333, R337). -/
def State.pruneSeg (s : State) : State :=
  let keep := s.reach
  { s with seg := keep, ring := { s.ring with
      table := keep
      parts := s.ring.parts.filter (fun q => keep.any (fun h => decide (h.id = q.origin))) } }
/-- Another hub of the segment carries this hub's ID (R26). -/
def State.idConflict (s : State) : Bool := s.seg.any (fun h => decide (h.id = s.hubId))
/-- Position and size of the segment, and source 170 (R337, R338). -/
def State.showSeg (s : State) : State :=
  let n := s.seg.length + 1
  let s := s.setFld R.CHP_RING F.CHP_RING_NHUBS n
  let s := s.setFld R.CHP_RING F.CHP_RING_POS (s.seg.filter (fun h => decide (h.link = 0))).length
  s.setLine 170 instHub (decide (s.fld R.CHP_NEXP F.CHP_NEXP_NEXP ≠ 0) && decide (n < s.fld R.CHP_NEXP F.CHP_NEXP_NEXP))

/-- Apply the exit rules to the settled table (R339); answers the port of this hub that is to become active. -/
def State.exitRules (s : State) : State × Option Nat :=
  let act := s.portsWith xActive
  match firstOf act with
  | some (_, id, p) =>
    let s := s.forEach [0, 1] (fun s q =>
      if s.isActive q && !(decide (id = s.hubId) && decide (p = q)) then
        ((s.deactivate q xStandby).exitEvent evtStandby q 0).segChanged
      else s)
    (((s.setFlag R.CHP_RING F.CHP_RING_NOEXIT false).setLine 171 instHub false).followExit id p, none)
  | none =>
    match firstOf ((s.portsWith xStandby).map (fun c => (0, c.2.1, c.2.2))) with
    | some (_, id, p) =>
      ((s.setFlag R.CHP_RING F.CHP_RING_NOEXIT false).setLine 171 instHub false, if id = s.hubId then some p else none)
    | none =>
      let s := (s.setReg R.CHP_ACT 0xFFFF0000).setFlag R.CHP_RING F.CHP_RING_ACTHERE false
      (((s.refreshTrackers.updTq.setFlag R.CHP_RING F.CHP_RING_NOEXIT true).setLine 171 instHub true).pathSync, none)
/-- A commanded switch whose target has left the standby ports of the settled table ends. -/
def State.switchStill (s : State) : State :=
  match s.ring.switching with
  | some (id, p) =>
    if (s.portsWith xStandby).any (fun c => decide (c.2.1 = id) && decide (c.2.2 = p)) then s else s.endSwitch
  | none => s
/-- The table has settled (R338, R339): sources 170, 171, 190, 193, 194 and 195 in rising order (R387). -/
def State.tableSettled (s : State) : State :=
  let was := s.segActive
  let s := ((({ s with ring := { s.ring with settled := true } }).pruneSeg).noteLoss was).showSeg.portsSet
  if s.ring.settled then
    let (s, go) := s.exitRules
    let s := s.setLine 190 instHub s.idConflict
    (match go with
      | some p => s.activate p
      | none => s.mirrorLine).switchStill
  else (s.setLine 190 instHub s.idConflict).mirrorLine
/-- TABLE_SETTLED (R338, R339): 100 us after the last change. -/
def execTableSettled (s : State) : Res :=
  s.act! (
    if s.ring.settled then s
    else (s.moveTo (s.ring.changedAt + 100000 * nsU)).tableSettled)

/-- EXIT_ELIGIBLE (R339): a candidate's link and echo monitor have been good for 100 ms. -/
def execExitEligible (p : Fin 2) (s : State) : Res :=
  s.act! (
    if s.candidate p.val && s.flag (R.NET_STAT p.val) F.NET_STAT_LINK then (s.moveTo (s.goodAt p.val)).portsSync else s)

/-- A message of VC0 is forwarded on the other link with HOPS incremented; HOPS above 15 ends it (R338, R340). -/
def State.forwardVc0 (s : State) (k : Nat) (bs : List Byte) : State :=
  let h := natAt bs 1 1
  if 15 ≤ h then s else s.sendCell (1 - k) 0 (bs.take 1 ++ beBytes 1 (h + 1) ++ bs.drop 2)
/-- Put a hub into the table at its link and HOPS. -/
def segPut (l : List SegHub) (h : SegHub) : List SegHub :=
  l.filter (fun e => !(decide (e.link = h.link) && decide (e.hops = h.hops))) ++ [h]
/-- An enumeration message arrives with `hops` links crossed before this one (R338): HOPS counts this link too. -/
def State.enumRx (s : State) (k hops origin links xst actLt : Nat) : State :=
  if 15 ≤ hops then s.raiseHub 172
  else
    let msg := beBytes 1 1 ++ beBytes 1 hops ++ beBytes 2 origin ++ beBytes 1 links ++ beBytes 1 xst ++ beBytes 2 0
      ++ ltBytes actLt ++ beBytes 2 0
    let s := s.forwardVc0 k msg
    if !s.linkFlag k then s
    else
      let was := s.segActive
      let h : SegHub := ⟨origin, k, hops + 1, links, xst, actLt⟩
      let s := if s.seg.contains h then s else ({ s with seg := segPut s.seg h }.dropParts s.reach).segTouch
      let s := s.noteLoss was
      s.setLine 190 instHub s.idConflict
/-- ENUMERATION_RX (R338, R26). -/
def execEnumerationRx (k : Fin 2) (hops : Fin 256) (origin : Fin 65536) (links : Fin 4) (xst : Fin 64) (actLt : LtOp)
    (s : State) : Res :=
  s.act! (s.enumRx k.val hops.val origin.val links.val xst.val (ltOp actLt))

/-- Replace the code of port `p` in an XST byte. -/
def xstSet (xst p code : Nat) : Nat := xst - xstPort xst p * 8 ^ p + code * 8 ^ p
/-- A commanded switch towards a port of a hub, its SWITCH event of instant `time` (R344): the active exit sends a fresh mirror, which the
target waits for; a target of the same hub holds it at once. -/
def State.onSwitch (s : State) (target p time : Nat) : State :=
  let s := { s with ring := { s.ring with switching := some (target, p), switchAt := time } }
  match s.exitPort with
  | some q =>
    let s := s.mirrorNow q
    if target = s.hubId ∧ p ≠ q then
      let m : Mirror := ⟨s.hubId, q, s.ring.mirGen, s.lt, s.mirrorImage q s.ring.mirGen⟩
      (((({ s with ring := { s.ring with mirror := some m } }).setFld R.CHP_MIRR F.CHP_MIRR_GEN m.gen).deactivate q xStandby)).activate p
    else s
  | none => s
/-- An exit event arrives (R340, R343, R344). -/
def State.exitEventRx (s : State) (k hops origin evt p target time : Nat) : State :=
  if 15 ≤ hops then s
  else
    let s := s.forwardVc0 k (beBytes 1 2 ++ beBytes 1 hops ++ beBytes 2 origin ++ beBytes 1 evt ++ beBytes 1 p
      ++ beBytes 2 target ++ ltBytes time ++ beBytes 2 0)
    let was := s.segActive
    let upd := fun (code lt : Nat) => s.seg.map (fun (h : SegHub) =>
      if h.id = origin then { h with xst := xstSet h.xst p code, actLt := lt } else h)
    if evt = evtFail then (({ s with seg := upd xFailed 0 }).noteLoss was).segTouch
    else if evt = evtStandby then (({ s with seg := upd xStandby 0 }).noteLoss was).segTouch
    else if evt = evtActive then
      let s := ({ s with seg := upd xActive time }).segTouch
      match s.exitPort, s.ring.switching with
      | some q, some _ =>
        let s := ((s.setX q xStandby).setFlag R.CHP_RING F.CHP_RING_ACTHERE false).endSwitch
        let s := { s with ring := { s.ring with stopAt := some s.lt, actLt := 0 } }
        ((s.exitEvent evtStandby q 0).segChanged).followExit origin p
      | some _, none => s
      | none, _ => s.endSwitch.followExit origin p
    else if evt = evtSwitch then s.onSwitch target p time
    else s
/-- EXIT_EVENT_RX (R340). -/
def execExitEventRx (k : Fin 2) (hops : Fin 256) (origin : Fin 65536) (evt : Fin 256) (p : Fin 2) (target : Fin 65536)
    (time : LtOp) (s : State) : Res :=
  s.act! (s.exitEventRx k.val hops.val origin.val evt.val p.val target.val (ltOp time))

/-- SWITCH_OLD_PORT_STOP (R343): within 2 ms of the new port's ACTIVE the old port sends no stream datagram any more. -/
def execSwitchOldPortStop (p : Fin 2) (s : State) : Res :=
  s.act! (match s.ring.stopAt with
    | some _ =>
      if s.isActive p.val then s
      else { s with ring := { s.ring with stopAt := none, held := [], parts := [], air := [] } }
    | none => s)

/-- The length a mirror image has by its own counts (Table 12.10). -/
def mirLen (b : List Byte) : Nat := 160 + 12 * natAt b 22 2 + 24 * natAt b 24 2 + 8 * natAt b 26 2
/-- MCRC of a mirror image checks (Table 12.10). -/
def mirOk (b : List Byte) : Bool :=
  decide (160 ≤ b.length) && decide (b.length = mirLen b) && decide (natAt b 0 1 = 3)
    && decide (crc32c (b.take 28 ++ beBytes 4 0 ++ b.drop 32) = natAt b 28 4)
/-- A mirror image arrives (R341, R344): forwarded; the newest by GEN whose MCRC checks is kept, one that is no longer valid giving way to
any; a switch target activates on the image sent for the switch, which is captured at or after the SWITCH event. -/
def State.mirrorRx (s : State) (k : Nat) (b : List Byte) : State :=
  let s := s.sendMirror (1 - k) b
  match mirOk b, ltAt b 8 with
  | true, some t =>
    let m : Mirror := ⟨natAt b 2 2, natAt b 1 1, natAt b 4 4, t, b⟩
    let newer := match s.ring.mirror with
      | some o => !s.mirrorValid || decide (0 < signed 32 (m.gen + 2 ^ 32 - o.gen))
      | none => true
    if s.isExit || !newer then s
    else
      let s := ({ s with ring := { s.ring with mirror := some m } }).setFld R.CHP_MIRR F.CHP_MIRR_GEN m.gen
      match s.ring.switching with
      | some (id, p) => if id = s.hubId ∧ s.ring.switchAt ≤ m.time ∧ s.eligible p then s.activate p else s.portsSync
      | none => s.portsSync
  | _, _ => s
/-- MIRROR_RX (R341). -/
def execMirrorRx (k : Fin 2) (image : List Byte) (s : State) : Res := s.act! (s.mirrorRx k.val image)
/-- MIRROR_EXPIRY (R341): 30 ms after its capture a mirror is no longer valid. -/
def execMirrorExpiry (s : State) : Res :=
  s.act! (match s.ring.mirror with
    | some m => (({ (s.moveTo (m.time + mirLimit + 1)) with
        ring := { (s.moveTo (m.time + mirLimit + 1)).ring with mirror := none } }).setFld R.CHP_MIRR F.CHP_MIRR_GEN 0).portsSync
    | none => s)

/-- A write of CHP_RING; SWITCH commands a switch to CHP_SWT, refused unless the target is an eligible standby (R344); it reads 1 until
the switch is done (R17), a second one till then being ignored (R455). -/
def State.writeChpRing (s : State) (v : Word) : State :=
  let s := s.writeFlds R.CHP_RING [F.CHP_RING_NHUBS, F.CHP_RING_POS, F.CHP_RING_SWREF, F.CHP_RING_NOEXIT,
    F.CHP_RING_ACTHERE, F.CHP_RING_SWITCH] v
  if v.toNat.testBit 1 && !s.flag R.CHP_RING F.CHP_RING_SWITCH then
    let id := s.fld R.CHP_SWT F.CHP_SWT_TGTID
    let p := s.fld R.CHP_SWT F.CHP_SWT_TGTPORT
    if (s.portsWith xStandby).any (fun c => decide (c.2.1 = id) && decide (c.2.2 = p)) then
      let s := s.setFlag R.CHP_RING F.CHP_RING_SWITCH true
      (s.sendBoth 0 (beBytes 1 2 ++ beBytes 1 0 ++ beBytes 2 s.hubId ++ beBytes 1 evtSwitch ++ beBytes 1 p ++ beBytes 2 id
        ++ ltBytes (stamp50 s.lt) ++ beBytes 2 0)).onSwitch id p (stamp50 s.lt)
    else s.setFlag R.CHP_RING F.CHP_RING_SWREF true
  else s
/-- CHP_RING_SWITCH (R344). -/
def execChpRingSwitch (v : Word) (s : State) : Res := s.act! (s.writeChpRing v)

/-- An exit port fails (R340): the active one stops at once, raises source 192 and sends FAIL. -/
def State.portFails (s : State) (p : Nat) : State :=
  if s.isActive p then
    (((s.deactivate p xFailed).raise 192 p).exitEvent evtFail p 0).segChanged
  else if s.candidate p then (if s.xState p = xFailed then s else (s.setX p xFailed).segChanged)
  else s
/-- LDT in effect (Table 12.14). -/
def State.ldt (s : State) : Nat := min (max (s.fld R.NET_GCFG F.NET_GCFG_LDT) 1) 100 * 1000000 * nsU
/-- EXIT_PORT_FAILURE (R340): ECHO_N echo errors within 10 ms, or link down or LOS for LDT without a break. -/
def execExitPortFailure (p : Fin 2) (s : State) : Res :=
  s.act! (
    let x := s.pt p.val
    let n := max (s.fld R.NET_GCFG F.NET_GCFG_ECHO_N) 1
    let echo := decide (n ≤ (x.echoes.filter (fun t => decide (s.lt ≤ t + 10000000 * nsU))).length)
    let since := (if s.flag (R.NET_STAT p.val) F.NET_STAT_LINK then [] else [x.downAt]) ++ x.losAt.toList
    if echo then s.portFails p.val
    else match since with
      | t :: ts => (s.moveTo (ts.foldl min t + s.ldt)).portFails p.val
      | [] => s)
/-- ECHO_ERROR (R340): counted; the errors of the last 10 ms and the wait of R339 are kept. -/
def execEchoError (p : Fin 2) (s : State) : Res :=
  s.act! (
    let x := s.pt p.val
    let s := s.bump (R.NET_STAT p.val) F.NET_STAT_ECHOERR
    let s := s.setPt p.val { x with
      echoes := x.echoes.filter (fun t => decide (s.lt ≤ t + 10000000 * nsU)) ++ [s.lt] }
    s.portsSync)
/-- PCS_LINK_CHANGE (R339, R340, R54): LINK, the 100 ms wait, the start of the LDT count, and on loss the PTP source of the
active port's trackers. -/
def State.pcsLink (s : State) (p : Nat) (up : Bool) : State :=
  if s.flag (R.NET_STAT p) F.NET_STAT_LINK = up ∨ (up ∧ s.tmode p ≠ 0) then s
  else
    let s := s.setFlag (R.NET_STAT p) F.NET_STAT_LINK up
    let s := s.setPt p (if up then { s.pt p with linkAt := s.lt } else { s.pt p with downAt := s.lt })
    let s := if !up && s.isActive p then s.losePort else s
    s.portsSync
def execPcsLinkChange (p : Fin 2) (up : Bool) (s : State) : Res := s.act! (s.pcsLink p.val up)

/-- A NET_CTRL write that the level forbids: RS-FEC at 25.78125 Gb/s (R430). -/
def State.fecDemand (s : State) (p : Nat) (v : Word) : Bool :=
  v.toNat.testBit 27 && !s.flag (R.NET_CTRL p) F.NET_CTRL_FEC
    && decide (s.level < rateLevel (s.fld (R.LNE_GRP p) F.LNE_GRP_RATE) true)
/-- Fields of NET_CTRL. -/
def netCtrlFlds : List Fld :=
  [F.NET_CTRL_EXIT_EN, F.NET_CTRL_AN_EN, F.NET_CTRL_FEC, F.NET_CTRL_VLAN_EN, F.NET_CTRL_PTP_TR, F.NET_CTRL_PTP_P2P,
   F.NET_CTRL_PTP_1STEP, F.NET_CTRL_PCP, F.NET_CTRL_VID]
/-- The RWL fields of NET_CTRL would change. -/
def State.netCtrlLock (s : State) (p : Nat) (v : Word) : Bool :=
  [F.NET_CTRL_VLAN_EN, F.NET_CTRL_PCP, F.NET_CTRL_VID].any
    (fun f => decide (bitsOf v.toNat f.hi f.lo ≠ s.fld (R.NET_CTRL p) f))
/-- A write of NET_CTRL (R321, R347, R430): while the port is the active exit its RWL fields are locked; EXIT_EN asks for
the lane's state, and clearing it on the active exit port hands the exit over. -/
def State.writeNetCtrl (s : State) (p : Nat) (v : Word) : State :=
  if s.isActive p && s.netCtrlLock p v then s.noteLocked (R.NET_CTRL p)
  else if s.fecDemand p v then s
  else
    let was := s.flag (R.NET_CTRL p) F.NET_CTRL_EXIT_EN
    let s := s.writeFlds (R.NET_CTRL p) netCtrlFlds v
    let now := s.flag (R.NET_CTRL p) F.NET_CTRL_EXIT_EN
    if was && !now then
      let s := if s.isActive p then
          ((s.deactivate p xNone).exitEvent evtStandby p 0).segChanged else s.portsSync
      s.ctlAsk p 2
    else if !was && now then (s.ctlAsk p 0).portsSync
    else s
/-- NET_CTRL_EXIT_EN_CLEAR (R321). -/
def execNetCtrlExitEnClear (p : Fin 2) (v : Word) (s : State) : Res := s.act! (s.writeNetCtrl p.val v)

end Sys2Proof.Machine
end

