-- ==== Sys2Proof/Machine/Chainpo.lean ====
section
/-! DEFINITION. The Chainpo links (section 12.2): training, control blocks, cells with their acknowledgement, replay and
credit, and the loss of a link. -/
namespace Sys2Proof.Machine

/-- Lanes of a link (section 12.2). -/
def linkLanes (k : Nat) : List Nat := (List.range 4).map (fun j => 2 + 4 * k + j)
/-- The generation this hub allows: CHP_CTRL and the level's limit, whichever is lower (R328, R430). -/
def State.allowGen (s : State) (k : Nat) : Nat :=
  min (max (s.fld (R.CHP_CTRL k) F.CHP_CTRL_GENMAX) 1) (if s.level = 0 then 2 else 3)
/-- The width this hub allows (R328, R430, Table 16.2). -/
def State.allowWidth (s : State) (k : Nat) : Nat :=
  min (min (s.fld (R.CHP_CTRL k) F.CHP_CTRL_WMAX) 2) (if s.level = 1 ∧ s.allowGen k = 3 then 1 else 2)
/-- The generation both sides allow. -/
def State.trainGen (s : State) (k : Nat) : Nat := min (s.allowGen k) (s.lk k).heardGen

/-- Block types with a CRC-8 (Table 12.3). -/
def ctlTypes : List Nat := [0x1E, 0x4B, 0x2D, 0x55, 0x99]
/-- A block arrives as one of type `typ`: a bad CRC-8 or an unknown type is discarded and counted (R328). -/
def State.ctlCheck (s : State) (k b typ : Nat) : State × Bool :=
  if b % 256 = crc8 (beBytes 7 (b / 256)) ∧ ctlTypes.contains (bitsOf b 63 56) then (s, decide (bitsOf b 63 56 = typ))
  else (s.bump (R.CHP_STAT k) F.CHP_STAT_BLKERR, false)
/-- Send TRAIN on the locked lanes; the first of a stage starts its 100 us (R328). -/
def State.sendTrain (s : State) (k : Nat) : State :=
  let js := (List.range 4).filter (fun j => s.txData (2 + 4 * k + j) && s.blockLock (2 + 4 * k + j))
  let s := if js = [] then s else s.setLk k { s.lk k with trainFrom := some ((s.lk k).trainFrom.getD s.lt) }
  s.forEach js (fun s j => s.sendLane k j (ctlBlock (0x2D * 2 ^ 48 + s.hubId * 2 ^ 32 + s.allowGen k * 2 ^ 30
    + s.allowWidth k * 2 ^ 28 + j * 2 ^ 24)))
/-- The lanes of a link go to L0 and TRAIN is sent (R328). -/
def State.trainLanes (s : State) (k : Nat) : State := (s.forEach (linkLanes k) (fun s i => s.ctlAsk i 0)).sendTrain k
/-- Train at a rate (R328): when the rate changes, the controller first takes the lanes to L2 Dormant (R296). -/
def State.trainAt (s : State) (k rate : Nat) : State :=
  let s := s.setLk k { s.lk k with training := true, heard := [], aligned := [], trainFrom := none, nextRate := none }
  if s.fld (R.LNE_GRP (2 + k)) F.LNE_GRP_RATE = rate then s.trainLanes k
  else s.forEach (linkLanes k) (fun s i => s.ctlAsk i 2) |>.setLk k { s.lk k with nextRate := some rate }
/-- All lanes are in L2 Dormant: the rate changes and they go to L0 (R296, R328). -/
def State.trainRate (s : State) (k rate : Nat) : State :=
  if s.grpIdle (2 + k) then ((s.setLk k { s.lk k with nextRate := none }).setRate (2 + k) rate).trainLanes k else s

/-- The link is no longer up: table, time source and path follow (R54, R333, R337). -/
def State.linkDrop (s : State) (k : Nat) : State :=
  if s.linkFlag k then
    let s := if s.upLink = some k then s.loseSource 2 else s
    let was := s.segActive
    let paths := s.reach
    let s := ((s.setFlag (R.CHP_STAT k) F.CHP_STAT_UP false).setFld (R.CHP_STAT k) F.CHP_STAT_GEN 0).setFld (R.CHP_STAT k)
      F.CHP_STAT_WIDTH 0
    let s := s.forEach (s.lk k).waiting (fun s w => s.freeBlocks (1 - k) w.vc w.back)
    let s := s.setLk (1 - k) { s.lk (1 - k) with waiting := (s.lk (1 - k)).waiting.map (fun w => { w with back := 0 }) }
    let s := s.setLk k { LinkState.init with downAt := s.lt }
    let s := { s with hs := { s.hs with ringw := s.hs.ringw.map (fun (w : Nat × Nat × List Byte) => if w.1 = k then (k, 0, w.2.2) else w) } }
    let s := { s with seg := s.seg.filter (fun h => decide (h.link ≠ k)) }.dropParts paths
    ((s.noteLoss was).pathSync).segChanged.portsSync
  else s
/-- A link goes down (R330): source 168, and the cells of the replay buffer are discarded. -/
def State.linkDown (s : State) (k : Nat) : State :=
  if s.linkFlag k then ((s.linkDrop k).bump (R.CHP_STAT k) F.CHP_STAT_DOWNCNT).raise 168 k else s
/-- CHAINPO_LINK_DOWN (R330). -/
def execChainpoLinkDown (k : Fin 2) (s : State) : Res := s.act! (s.linkDown k.val)

/-- The next stage of training (R328): at Gen1 first, then at the generation both sides allow, the lanes passing L2 Dormant between
(R296). -/
def State.trainStep (s : State) (k : Nat) : State :=
  let x := s.lk k
  if !s.flag (R.CHP_CTRL k) F.CHP_CTRL_EN || s.linkFlag k || !s.spn.refclk then s
  else if !x.training then (s.setLk k { x with heardGen := 0, heardWidth := 0 }).trainAt k 4
  else if x.nextRate.isSome then s.trainRate k (x.nextRate.getD 4)
  else if x.heard ≠ [] ∧ s.fld (R.LNE_GRP (2 + k)) F.LNE_GRP_RATE ≠ 3 + s.trainGen k then s.trainAt k (3 + s.trainGen k)
  else s.sendTrain k
/-- LINK_TRAINING (R328). -/
def execLinkTraining (k : Fin 2) (s : State) : Res := s.act! (s.trainStep k.val)
/-- CHAINPO_LINK_RETRY (R330): every 1 ms. -/
def execChainpoLinkRetry (k : Fin 2) (s : State) : Res :=
  s.act! (
    if s.flag (R.CHP_CTRL k.val) F.CHP_CTRL_EN && !s.linkFlag k.val && s.spn.refclk then
      let s := s.moveTo ((s.lk k.val).downAt + 1000000 * nsU)
      (s.setLk k.val { s.lk k.val with downAt := s.lt }).trainStep k.val
    else s)
/-- TRAIN_RX (R328, R330): the partner's ID, GENMAX and WMAX; on a link that is up the partner trains again. -/
def execTrainRx (k : Fin 2) (block : BitVec 64) (s : State) : Res :=
  s.act! (
    let b := block.toNat
    let (s, ok) := s.ctlCheck k.val b 0x2D
    if !ok then s
    else
      let s := s.linkDown k.val
      let s := s.setFld (R.CHP_PEER k.val) F.CHP_PEER_PEERID (bitsOf b 55 40)
      let x := s.lk k.val
      let j := bitsOf b 35 32
      s.setLk k.val { x with heardGen := max (bitsOf b 39 38) 1, heardWidth := min (bitsOf b 37 36) 2,
                             heard := if j < 4 ∧ !x.heard.contains j then x.heard ++ [j] else x.heard })
/-- Lanes 0 to n - 1 are locked at both ends: here, and at the partner, which sends TRAIN on its locked lanes (R328). -/
def State.lanesLocked (s : State) (k n : Nat) : Bool :=
  (List.range n).all (fun j => s.txData (2 + 4 * k + j) && s.blockLock (2 + 4 * k + j) && (s.lk k).heard.contains j)
/-- The widest allowed width whose lanes are all locked (R328). -/
def State.trainWidth (s : State) (k : Nat) : Option Nat :=
  [2, 1, 0].find? (fun w => decide (w ≤ min (s.allowWidth k) (s.lk k).heardWidth) && s.lanesLocked k (widthLanes w))
/-- Training completes after 100 us of TRAIN (R328): the link is up, and source 169 tells of a width below the allowance. -/
def State.linkTrained (s : State) (k : Nat) : State :=
  if !(s.lk k).training || !s.spn.refclk || decide (s.fld (R.LNE_GRP (2 + k)) F.LNE_GRP_RATE ≠ 3 + s.trainGen k) then s
  else match s.trainWidth k, (s.lk k).trainFrom with
    | some w, some t0 =>
      let s := s.moveTo (t0 + 100000 * nsU)
      let top := min (s.allowWidth k) (s.lk k).heardWidth
      let gen := s.trainGen k
      let s := s.setLk k { LinkState.init with lctlAt := s.lt }
      let s := (((s.setFlag (R.CHP_STAT k) F.CHP_STAT_UP true).setFld (R.CHP_STAT k) F.CHP_STAT_GEN gen).setFld
        (R.CHP_STAT k) F.CHP_STAT_WIDTH w)
      let s := s.forEach ((linkLanes k).drop (widthLanes w)) (fun s i => s.ctlAsk i 2)
      let s := (if w < top then s.raise 169 k else s).setFlag (R.CHP_CTRL k) F.CHP_CTRL_RETRAIN false
      (s.segChanged.portsSync).pathSync
    | _, _ => s
/-- LINK_TRAINED (R328). -/
def execLinkTrained (k : Fin 2) (s : State) : Res := s.act! (s.linkTrained k.val)

/-- A write of CHP_CTRL (R328): RETRAIN trains the link again and reads 1 until it is up (R17), a second one till then being ignored
(R455), and EN stops or starts it. -/
def State.writeChpCtrl (s : State) (k : Nat) (v : Word) : State :=
  let was := s.flag (R.CHP_CTRL k) F.CHP_CTRL_EN
  let s := s.writeFlds (R.CHP_CTRL k) [F.CHP_CTRL_GENMAX, F.CHP_CTRL_WMAX, F.CHP_CTRL_RETRAIN, F.CHP_CTRL_EN] v
  let now := s.flag (R.CHP_CTRL k) F.CHP_CTRL_EN
  if !now then
    let s := s.setFlag (R.CHP_CTRL k) F.CHP_CTRL_RETRAIN false
    if was then ((s.linkDrop k).setLk k LinkState.init).forEach (linkLanes k) (fun s i => s.ctlAsk i 2) else s
  else if v.toNat.testBit 1 && !s.flag (R.CHP_CTRL k) F.CHP_CTRL_RETRAIN then
    let s := (s.setFlag (R.CHP_CTRL k) F.CHP_CTRL_RETRAIN true).linkDrop k
    (s.setLk k { s.lk k with training := false }).trainStep k
  else if !was then s.trainStep k
  else s
/-- CHP_CTRL_RETRAIN (R328). -/
def execChpCtrlRetrain (k : Fin 2) (v : Word) (s : State) : Res := s.act! (s.writeChpCtrl k.val v)

/-- The lanes of a link are deskewed (R327): each has had an ALIGN block since the link came up; one lane alone needs none. -/
def State.deskewed (s : State) (k : Nat) : Bool :=
  decide (s.linkW k = 1) || (List.range (s.linkW k)).all (fun j => (s.lk k).aligned.contains j)
/-- ALIGN_RX (R327): the lane whose ALIGN block came; the lanes are deskewed against it. -/
def execAlignRx (k : Fin 2) (block : BitVec 64) (s : State) : Res :=
  s.act! (
    let (s, ok) := s.ctlCheck k.val block.toNat 0x4B
    let j := bitsOf block.toNat 55 48
    let x := s.lk k.val
    if ok && decide (j < 4) && !x.aligned.contains j then s.setLk k.val { x with aligned := x.aligned ++ [j] } else s)

/-- A core cycle with no command waiting (log 8): where a link has a block time in it and nothing else to send, each lane carries an IDLE
block (R327, Table 12.3; log 82). -/
def State.linkTick (s : State) (before : Nat) (k : Nat) : State :=
  let gen := s.fld (R.CHP_STAT k) F.CHP_STAT_GEN
  let b := laneBlocks gen s.lt
  if s.linkTx k && decide (laneBlocks gen before < b) then
    s.forEach (List.range (s.linkW k)) (fun s _ => s.sendIdle k)
  else s
/-- What one core cycle with an empty queue does: the die links and the Chainpo links carry what they carry when nothing else is to be
sent. -/
def State.idleStep (s : State) : State := (s.idleCycle.linkTick s.lt 0).linkTick s.lt 1
/-- LCTL_SEND (R329): at least every 2 us; one for each virtual channel. -/
def execLctlSend (k : Fin 2) (s : State) : Res :=
  s.act! (
    if s.linkTx k.val then
      let s := s.moveTo ((s.lk k.val).lctlAt + 2000 * nsU)
      let s := s.setLk k.val { s.lk k.val with lctlAt := s.lt }
      s.forEach (List.range 6) (fun s vc => s.sendBlock k.val ((s.lk k.val).lctl vc false))
    else s)
/-- The cells after an ACK (R329). -/
def afterAck (rb : List LinkCell) (ack : Nat) : List LinkCell :=
  match rb with
  | [] => []
  | c :: _ => let n := (ack + 256 - c.seq) % 256; if n < rb.length then rb.drop (n + 1) else rb
/-- LCTL_RX (R329 to R331): acknowledged cells leave the replay buffer, a NAK replays the rest, and credit returns; eight
failed sends of one cell take the link down. -/
def execLctlRx (k : Fin 2) (block : BitVec 64) (s : State) : Res :=
  s.act! (
    let b := block.toNat
    let (s, ok) := s.ctlCheck k.val b 0x55
    if !ok || !s.linkUp k.val then s
    else
      let x := s.lk k.val
      let rb := afterAck x.replay (bitsOf b 55 48)
      let nak := b.testBit 47
      let fails := (if rb.length < x.replay.length then 0 else x.fails) + b2n nak
      let s := s.setLk k.val { x with replay := rb, fails := fails, freed := setAt x.freed (bitsOf b 46 44) (bitsOf b 43 32) }
      if nak && decide (8 ≤ fails) then s.linkDown k.val
      else
        let s := if nak then (s.bump (R.CHP_STAT k.val) F.CHP_STAT_REPLAY).forEach rb (fun s c => s.putCell k.val c) else s
        s.flushLink k.val)

/-- A cell arrives (R329, R331): its CRC and sequence are checked; a good one is acknowledged and answered for delivery; any other is
answered with a NAK. Blocks of lanes that are not deskewed form no good cell (R327; log 82). -/
def State.cellCheck (s : State) (k hdr : Nat) (bs : List Byte) : State × Option (Nat × List Byte) :=
  let x := s.lk k
  let vc := bitsOf hdr 55 53
  let len := bitsOf hdr 52 47
  let good := decide (bitsOf hdr 63 56 = 0xC3) && decide (vc < 6) && decide (len ≤ 32) && decide (bs.length = 8 * len)
    && decide (bitsOf hdr 31 0 = crc32c (bytesAt (beBytes 8 hdr) 0 4 ++ bs)) && decide (bitsOf hdr 46 39 = x.rxSeq) && s.deskewed k
  if !s.linkUp k then (s, none)
  else if good then
    let s := s.setLk k { x with rxSeq := (x.rxSeq + 1) % 256, waitReplay := false, lctlAt := s.lt }
    (s.sendOnLink k ((s.lk k).lctl vc false), some (vc, bs))
  else ((s.setLk k { x with waitReplay := true, lctlAt := s.lt }).sendOnLink k (x.lctl (min vc 5) true), none)

/-- The bytes a complete packet image has by its own header; cells are padded to whole blocks (R329, R333). -/
def trimImage (bs : List Byte) : List Byte :=
  if (natAt bs 3 1).testBit 0 then bs.take (48 + natAt bs 36 2) else bs.take (32 + natAt bs 28 2)
/-- A VC3 cell at the active exit (R333): packets of each origin are put together apart; one whose cells disagree is
discarded. -/
def State.reassemble (s : State) (p : Nat) (bs : List Byte) : State :=
  let origin := natAt bs 0 2
  let sctx := natAt bs 2 2
  let q := natAt bs 4 4
  let first := sctx.testBit 15
  let last := sctx.testBit 14
  let rest := s.ring.parts.filter (fun e => decide (e.origin ≠ origin))
  let old := s.ring.parts.find? (fun e => decide (e.origin = origin))
  let part : Option ExitPkt :=
    if first then some ⟨origin, sctx % 512, sctx / 512 % 16, q, bs.drop 8, s.lt⟩
    else match old with
      | some e => if e.ctx = sctx % 512 ∧ e.dst = sctx / 512 % 16 ∧ e.pseq = q then
          some { e with bytes := e.bytes ++ bs.drop 8, since := s.lt } else none
      | none => none
  match part with
  | none => { s with ring := { s.ring with parts := rest } }
  | some e =>
    if last then
      ({ s with ring := { s.ring with parts := rest } }).exitOffer p { e with bytes := trimImage e.bytes }
    else { s with ring := { s.ring with parts := rest ++ [e] } }
/-- A VC3 cell: reassembled at the active exit, forwarded towards it elsewhere (R333). -/
def State.streamCell (s : State) (k : Nat) (bs : List Byte) : State :=
  match s.exitPort with
  | some p => s.reassemble p bs
  | none => s.sendCell (1 - k) 3 bs
/-- STREAM_CELL_RX (R333). -/
def execStreamCellRx (k : Fin 2) (payload : List Byte) (s : State) : Res := s.act! (s.streamCell k.val payload)

end Sys2Proof.Machine
end

