-- ==== Sys2Proof/Machine/LaneTest.lean ====
section
/-! DEFINITION. LNE_CTRL and the test modes of a lane (sections 11.6 and 11.7). -/
namespace Sys2Proof.Machine

/-- A command's way in uses lane `i` (R315). -/
def State.viaLane (s : State) (via : Via) (i : Nat) : Bool :=
  match via with
  | .spi => false
  | .port p => decide (i = p.val)
  | .link k => decide (2 + 4 * k.val ≤ i)
      && decide (i < 2 + 4 * k.val + widthLanes (s.fld (R.CHP_STAT k.val) F.CHP_STAT_WIDTH)) && s.linkFlag k.val
/-- A write of TMODE other than 0 over the lane's own traffic is refused (R315). -/
def State.tmodeRefused (s : State) (i : Nat) (via : Via) (v : Word) : Bool :=
  decide (bitsOf v.toNat 11 8 ≠ 0) && s.viaLane via i
/-- The port or link of a lane sees its link down (R313). -/
def State.laneTraffic (s : State) (i : Nat) : State :=
  if i < 2 then s.pcsLink i false
  else
    let k := grpOf i - 2
    if i - (2 + 4 * k) < widthLanes (s.fld (R.CHP_STAT k) F.CHP_STAT_WIDTH) then s.linkDown k else s
/-- A test mode begins: no traffic, and the lane is held in L0 (R313). -/
def State.testOn (s : State) (i : Nat) : State :=
  let s := s.laneTraffic i
  if s.psTrans i ∨ s.psCur i = 0 ∨ !s.spn.refclk then s else s.laneStart i 0
/-- A test mode ends: the request made meanwhile is acted on (R313). -/
def State.testOff (s : State) (i : Nat) : State :=
  let s := s.laneSlot i none
  let r := (s.ln i).asked
  if s.psTrans i then s.laneSlot i (some r)
  else if s.psCur i = r ∨ !s.spn.refclk then s else s.laneStart i r
/-- What a lane's transmitter does in a test, in `Out.lane` (Table 11.6, R305, R314): the mode, the sequence, and the inversions of the PRBS
and of the lane. -/
def State.testSends (s : State) (i : Nat) : Nat :=
  let a := R.LNE_CTRL i
  let q := s.fld a F.LNE_CTRL_PRBS
  s.tmode i + 16 * (if q ≤ 4 then q else 4) + 128 * s.fld a F.LNE_CTRL_PINV + 256 * s.fld a F.LNE_CTRL_TXINV

/-- Exponents n and m of the PRBS polynomial x^n + x^m + 1 of a code; other codes act as PRBS31 (R314, Table 11.8). -/
def prbsPoly (q : Nat) : Nat × Nat :=
  match q with
  | 0 => (7, 6)
  | 1 => (9, 5)
  | 2 => (15, 14)
  | 3 => (23, 18)
  | _ => (31, 28)
/-- The bit that follows the last n bits of a sequence, the newest in bit 0 of the register. -/
def prbsNext (p : Nat × Nat) (r : Nat) : Bool := r.testBit (p.1 - 1) != r.testBit (p.2 - 1)
/-- The register after a bit. -/
def prbsShift (p : Nat × Nat) (r : Nat) (b : Bool) : Nat := (2 * r + b2n b) % 2 ^ p.1
/-- The next `k` bits of a sequence, and the register behind them. -/
def prbsRun (p : Nat × Nat) : Nat → Nat → List Bool × Nat
  | 0, r => ([], r)
  | k + 1, r =>
    let b := prbsNext p r
    let t := prbsRun p k (prbsShift p r b)
    (b :: t.1, t.2)
/-- The checker: the bits that differ from the sequence it runs by itself, and its register behind them. -/
def prbsCheck (p : Nat × Nat) : List Bool → Nat → Nat × Nat
  | [], r => (0, r)
  | b :: bs, r =>
    let e := prbsNext p r
    let t := prbsCheck p bs (prbsShift p r e)
    (t.1 + b2n (b != e), t.2)
/-- The checker seeds itself from the first n bits and locks after 64 correct ones: its register then. -/
def prbsSeed (p : Nat × Nat) (bs : List Bool) : Option Nat :=
  let r := (bs.take p.1).foldl (prbsShift p) 0
  let t := prbsCheck p ((bs.drop p.1).take 64) r
  if t.1 = 0 then some t.2 else none
/-- Invert the first `n` bits. -/
def flipFirst : Nat → List Bool → List Bool
  | n + 1, b :: bs => (!b) :: flipFirst n bs
  | _, bs => bs
/-- The sequence selected on a lane. -/
def State.prbsSeq (s : State) (i : Nat) : Nat := s.fld (R.LNE_CTRL i) F.LNE_CTRL_PRBS
/-- The inversion between the sequence that arrives and the one the checker expects (R305, R314): in the near-end serial loopback those of
transmitter and receiver, PINV acting on both ends; else RXINV and PINV, taken against their values at the lock. -/
def State.prbsPol (s : State) (i : Nat) : Bool :=
  if s.tmode i = 2 then s.txInv i != s.rxInv i else s.rxInv i != s.flag (R.LNE_CTRL i) F.LNE_CTRL_PINV
/-- The checker takes `k` received bits, the first `bad` of them wrong on their way (R314): each wrong bit counts in LNE_PERR, which
saturates. Answers how many were wrong. -/
def State.prbsTake (s : State) (i k bad : Nat) : Nat × State :=
  let x := s.ln i
  let src := if s.tmode i = 2 then s.prbsSeq i else x.srcSeq
  let sent := prbsRun (prbsPoly src) k x.src
  let inv := s.prbsPol i != x.pol
  let got := prbsCheck (prbsPoly (s.prbsSeq i)) ((flipFirst bad sent.1).map (fun b => b != inv)) x.chk
  (got.1, (s.setLn i { x with src := sent.2, chk := got.2 }).bumpBy (R.LNE_PERR i) F.LNE_PERR_ERR got.1)
/-- A PRBS checker runs in the modes 0x1 and 0x2 (Table 11.6). -/
def State.prbsOn (s : State) (i : Nat) : Bool := decide (1 ≤ s.tmode i) && decide (s.tmode i ≤ 2) && s.inL0 i
/-- The checker is locked. -/
def State.prbsLocked (s : State) (i : Nat) : Bool := s.flag (R.LNE_STAT i) F.LNE_STAT_PRBS_LOCK

/-- Fields of LNE_CTRL. -/
def lneCtrlFlds : List Fld :=
  [F.LNE_CTRL_TMODE, F.LNE_CTRL_OWN, F.LNE_CTRL_TXINV, F.LNE_CTRL_RXINV, F.LNE_CTRL_PRBS, F.LNE_CTRL_PINV, F.LNE_CTRL_ERRINJ,
   F.LNE_CTRL_PSREQ]
/-- ERRINJ (R314): one transmitted bit is inverted, which the checker of the near-end serial loopback finds. -/
def State.injectErr (s : State) (i : Nat) : State :=
  let s := if s.txOn i then s.emit (.lane i 1 0) else s
  if decide (s.tmode i = 2) && s.prbsOn i && s.prbsLocked i then (s.prbsTake i 1 1).2 else s
/-- A write of LNE_CTRL that is not refused (R305, R309, R313, R314). -/
def State.applyLneCtrl (s : State) (i : Nat) (v : Word) : State :=
  let a := R.LNE_CTRL i
  let old := s.tmode i
  let was := s.testSends i
  let own := s.flag a F.LNE_CTRL_OWN
  let s := s.writeFlds a lneCtrlFlds v
  let new := s.tmode i
  let s := if old = new then s
    else
      let s := s.setFlag (R.LNE_STAT i) F.LNE_STAT_PRBS_LOCK false
      if old = 0 then s.testOn i else if new = 0 then s.testOff i else s
  let s := if s.flag a F.LNE_CTRL_OWN then
      (if psCode (s.fld a F.LNE_CTRL_PSREQ) = (s.ln i).asked then s else s.laneAsk i (psCode (s.fld a F.LNE_CTRL_PSREQ)))
    else if own then s.laneAsk i (s.ln i).ctl else s
  let s := if (old ≠ 0 ∨ new ≠ 0) ∧ s.testSends i ≠ was then s.emit (.lane i 0 (s.testSends i)) else s
  if v.toNat.testBit 3 then s.injectErr i else s
/-- A write of LNE_CTRL: one refused by R315 changes nothing but TREF. -/
def State.writeLneCtrl (s : State) (i : Nat) (via : Via) (v : Word) : State :=
  if s.tmodeRefused i via v then s.setFlag (R.LNE_STAT i) F.LNE_STAT_TREF true else s.applyLneCtrl i v
/-- LNE_CTRL_TMODE (R313, R315). -/
def execLneCtrlTmode (i : Fin 10) (via : Via) (v : Word) (s : State) : Res := s.act! (s.writeLneCtrl i.val via v)
/-- LNE_CTRL_ERRINJ (R314): one transmitted bit is inverted. -/
def execLneCtrlErrinj (i : Fin 10) (v : Word) (s : State) : Res := s.act! (s.writeLneCtrl i.val .spi v)

/-- PRBS_LOCK (R314): the checker has seeded itself and found 64 consecutive correct bits: those of the partner's sequence, or in the
near-end serial loopback those of this lane's own generator, as the inversions of the lane leave them. The phase of a sequence is free (log 114). -/
def State.prbsLock (s : State) (i : Nat) : State :=
  let p := prbsPoly (s.prbsSeq i)
  let r := 1 + s.fresh.1 % (2 ^ p.1 - 1)
  let s := s.fresh.2
  let lock := fun (src chk : Nat) =>
    (s.setLn i { s.ln i with srcSeq := s.prbsSeq i, src := src, chk := chk, pol := s.prbsPol i }).setFlag (R.LNE_STAT i)
      F.LNE_STAT_PRBS_LOCK true
  if s.tmode i = 2 then
    let t := prbsRun p (p.1 + 64) r
    match prbsSeed p (t.1.map (fun b => b != s.prbsPol i)) with
    | some c => lock t.2 c
    | none => s
  else lock r r
/-- PRBS_LOCK (R314). -/
def execPrbsLock (i : Fin 10) (s : State) : Res := s.act! (if s.prbsOn i.val && !s.prbsLocked i.val then s.prbsLock i.val else s)
/-- PRBS_RESEED (R314): 1,024 bits received while locked, of which the line made `errors` wrong; 32 or more errors clear PRBS_LOCK. -/
def execPrbsReseed (i : Fin 10) (errors : Fin 1025) (s : State) : Res :=
  s.act! (
    if s.prbsOn i.val && s.prbsLocked i.val then
      let t := s.prbsTake i.val 1024 errors.val
      if 32 ≤ t.1 then t.2.setFlag (R.LNE_STAT i.val) F.LNE_STAT_PRBS_LOCK false else t.2
    else s)

end Sys2Proof.Machine
end

