-- ==== Sys2Proof/Machine/Chain.lean ====
section
/-! DEFINITION. The processing chain of a channel (chapter 7): what the stages are fed, boxcar, FIR, biquads, scaling,
fill and settle policies, statistics, threshold switches, the digital word and live changes of configuration. -/
namespace Sys2Proof.Machine

/-- The limit of an internal value I: 2^47 - 2^16 (R179). -/
def iMax : Int := 2 ^ 47 - 2 ^ 16
/-- Saturate an internal value; answers whether it did (R180). -/
def satI (v : Int) : Int × Bool := (clampI (-iMax) iMax v, decide (v < -iMax) || decide (iMax < v))
/-- An internal value as Wide (R185). -/
def wideOfI (v : Int) : Int := satWide (divAway v 65536)
/-- A tap value of a stage: INVALID reads as R173 says. -/
def tapWide (v : Int) (q : Nat) : Int := if isInvalid q then wideInvalid else wideOfI v

/-- A sample as the intake delivers it (R27): its window, Wide value and quality byte. -/
structure Sample where
  openLt : Nat
  closeLt : Nat
  npk : Nat
  wseq : Nat
  wide : Int
  qual : Nat
  evt : Bool
  spol : Nat
  period : Nat
  deriving DecidableEq, Repr

/-- Values kept of each tap of a channel. -/
def keepTaps : Nat := 48
/-- A value joins those kept, in the place of the oldest of its tap once there are enough. -/
def joinTap (l : List TapVal) (v : TapVal) : List TapVal :=
  match l.filter (fun w => decide (w.tap = v.tap)) with
  | w :: r => (if r.length + 1 < keepTaps then l else l.erase w) ++ [v]
  | [] => l ++ [v]

/-- Show the newest value at the selected tap in CH_OUT_W and its companions (R201); a tap with no value shows what reset leaves (Table 7.7). -/
def State.showOut (s : State) (n : Nat) : State :=
  let tap := s.actFld (R.CH_RQ_CFG n) F.CH_RQ_CFG_TAP
  match (s.ch n).recent.reverse.find? (fun v => decide (v.tap = tap)) with
  | none => s.forEach [R.CH_OUT_W n, R.CH_OUT_Q n, R.CH_OUT_T n, R.CH_OUT_T_HI n, R.CH_OUT_S n] (fun s a => s.setReg a (resetWord a))
  | some v =>
    let sw := (s.ch n).chain.swPend.foldl (fun a p => putBits a p.1 p.1 (b2n p.2.1))
      (s.fld (R.CH_SW_STAT n) F.CH_SW_STAT_STATE)
    let s := s.setReg (R.CH_OUT_W n) (BitVec.ofInt 32 v.wide)
    let s := s.setReg (R.CH_OUT_Q n)
      (BitVec.ofNat 32 ((((s.ch n).chain.oseq[tap]?).getD 0 % 65536) * 65536 + sw * 256 + v.qual % 256))
    let s := s.setSt (R.CH_OUT_T n) (R.CH_OUT_T_HI n) (stOf v.name)
    s.setReg (R.CH_OUT_S n) (BitVec.ofInt 32 v.scaled)

/-- A value becomes available at a tap (R186): it is kept for rows, counted, shown and offered to forwarding. -/
def State.pushTap (s : State) (n : Nat) (v : TapVal) : State :=
  let x := s.ch n
  let k := ((x.chain.oseq[v.tap]?).getD 0) + 1
  let s := s.setCh n { x with recent := joinTap x.recent v,
                              chain := { x.chain with oseq := x.chain.oseq.set v.tap k } }
  let s := if s.actFld (R.CH_RQ_CFG n) F.CH_RQ_CFG_TAP = v.tap then s.showOut n else s
  s.levelForward n v.tap v.name v.wide v.qual

/-- FIREN in effect. -/
def State.chFir (s : State) (n : Nat) : Bool := s.actFlag (R.CH_PRC_CTRL n) F.CH_PRC_CTRL_FIREN
/-- NBQ in effect: 0b11 acts as 0b10. -/
def State.chNbq (s : State) (n : Nat) : Nat := min (s.actFld (R.CH_PRC_CTRL n) F.CH_PRC_CTRL_NBQ) 2
/-- Coefficient set in effect. -/
def State.chSet (s : State) (n : Nat) : Nat := s.actFld (R.CH_PRC_FIR n) F.CH_PRC_FIR_SET
/-- N_T of a set: 0 acts as 1, above 256 as 256 (Table 7.8). -/
def State.firTaps (s : State) (k : Nat) : Nat := min (max (s.fld (R.PRC_FIRLEN k) F.PRC_FIRLEN_NT) 1) 256
def State.chFhold (s : State) (n : Nat) : Nat := s.actFld (R.CH_BQ_CTRL n) F.CH_BQ_CTRL_FHOLD

/-- Stage 1 (R181): the correction of a Wide value, and whether it saturates. -/
def State.stage1 (s : State) (n : Nat) (x : Int) : Int × Bool :=
  satI (divAway (x * (s.actReg (R.CH_COR_GAIN n)).toInt + (s.actReg (R.CH_COR_OFS n)).toInt * 2 ^ 30) (2 ^ 14))

/-- A saturation at a stage: the first in a slot raises source 106 (R180). -/
def State.noteSat (s : State) (n : Nat) (already sat : Bool) : State :=
  if sat && !already then s.raise 106 n else s

/-- FIR sum over a line of boxcar outputs, newest first (R183). -/
def State.firSum (s : State) (k : Nat) : Nat → List BoxOut → Int → Int
  | _, [], acc => acc
  | i, b :: bs, acc => s.firSum k (i + 1) bs (acc + (s.reg (R.PRC_FIRC k i)).toInt * b.v)

/-- One biquad section (R184): output, saturation and the new state. -/
def bqStep (c : Nat → Int) (x : Int) (b : BqState) : Int × Bool × BqState :=
  let r := satI (divAway (c 0 * x + c 1 * b.x1 + c 2 * b.x2 - c 3 * b.y1 - c 4 * b.y2) (2 ^ 28))
  (r.1, r.2, ⟨x, b.x1, r.1, b.y1⟩)
/-- Coefficient of a section in use. -/
def State.bqCoef (s : State) (n q i : Nat) : Int := (s.actReg (R.CH_BQ_COEF n q i)).toInt

/-- Switch `w` is ON, with changes not yet carried out counted (R197). -/
def State.swOn (s : State) (n w : Nat) : Bool :=
  match (s.ch n).chain.swPend.reverse.find? (fun p => decide (p.1 = w)) with
  | some p => p.2.1
  | none => (s.fld (R.CH_SW_STAT n) F.CH_SW_STAT_STATE).testBit w
def State.swEn (s : State) (n w : Nat) : Bool := s.actFlag (R.CH_SW_CFG n) (F.CH_SW_CFG_EN w)
def State.swErr (s : State) (n w : Nat) : Bool := (s.fld (R.CH_SW_STAT n) F.CH_SW_STAT_CFGERR).testBit w
/-- Count of a switch. -/
def State.setSwCount (s : State) (n w k : Nat) : State :=
  let x := s.ch n
  s.setCh n { x with chain := { x.chain with swCount := x.chain.swCount.set w k } }
/-- Evaluate switch `w` at an output (R197, R198). -/
def State.swEval (s : State) (n w name : Nat) (wide : Int) (q : Nat) : State :=
  if !s.swEn n w || s.swErr n w then s
  else
    let on := s.swOn n w
    let up := (s.actReg (R.CH_SW_UP n w)).toInt
    let lo := (s.actReg (R.CH_SW_LO n w)).toInt
    let flip := fun (s : State) (dst : Bool) =>
      let s := s.setSwCount n w 0
      let x := s.ch n
      s.setCh n { x with chain := { x.chain with swPend := x.chain.swPend ++ [(w, dst, name, wide, q)] } }
    if isInvalid q then
      let p := s.actFld (R.CH_SW_CFG n) (F.CH_SW_CFG_INVP w)
      let s := s.setSwCount n w 0
      if p = 1 ∧ on then flip s false else if p = 2 ∧ !on then flip s true else s
    else
      let low := s.actFlag (R.CH_SW_CFG n) (F.CH_SW_CFG_MODE w)
      let want := if low != on then decide (wide ≤ lo) else decide (up ≤ wide)
      if want then
        let k := (((s.ch n).chain.swCount[w]?).getD 0) + 1
        if s.actFld (R.CH_SW_CFG n) (F.CH_SW_CFG_DEB w) < k then flip s (!on) else s.setSwCount n w k
      else s.setSwCount n w 0

/-- SW_OUT pin `p` as driven (R200): none for high impedance. -/
def State.swOut (s : State) (p : Nat) : Option Bool :=
  if s.flag (R.PRC_SWMAP p) F.PRC_SWMAP_EN then
    let c := s.fld (R.PRC_SWMAP p) F.PRC_SWMAP_CHAN
    if 384 ≤ c then some false
    else some ((s.fld (R.CH_SW_STAT c) F.CH_SW_STAT_STATE).testBit (s.fld (R.PRC_SWMAP p) F.PRC_SWMAP_SW)
      != s.flag (R.PRC_SWMAP p) F.PRC_SWMAP_INV)
  else none
/-- Number of pin SW_OUT[0] in `Out.pin`. -/
def pinSwOut : Nat := 100
/-- Drive the SW_OUT pins that follow a switch. -/
def State.driveSw (s : State) (n w : Nat) : State :=
  s.forEach (List.range 32) (fun s p =>
    if s.fld (R.PRC_SWMAP p) F.PRC_SWMAP_CHAN = n ∧ s.fld (R.PRC_SWMAP p) F.PRC_SWMAP_SW = w then
      match s.swOut p with
      | some b => s.emit (.pin (pinSwOut + p) (b2n b) s.lt)
      | none => s
    else s)

/-- A switch changes state (R199, R200, R220): count, pins, capture event, and with EVEN source 104 and a record. -/
def State.swChange (s : State) (n w : Nat) (dst : Bool) (name : Nat) (wide : Int) (q : Nat) : State :=
  let a := R.CH_SW_STAT n
  let st := putBits (s.fld a F.CH_SW_STAT_STATE) w w (b2n dst)
  let s := (s.setFld a F.CH_SW_STAT_STATE st).bump a F.CH_SW_STAT_CHGCNT
  let s := s.driveSw n w
  let s := s.capEvent 6 (n * 8 + b2n (!dst) * 4 + w) name
  if s.actFlag (R.CH_SW_CFG n) (F.CH_SW_CFG_EVEN w) then
    (s.raise 104 n).recordCh n 0x11 name
      (beBytes 1 0x11 ++ beBytes 1 s.timeStatus ++ beBytes 2 n ++ beBytes 2 s.hubId ++ beBytes 1 (w * 16 + st)
        ++ beBytes 1 q ++ ltBytes name ++ beBytes 4 (wideWord wide) ++ beBytes 2 (s.fld a F.CH_SW_STAT_CHGCNT % 65536))
  else s

/-- The newest output of the chain. -/
def State.newestOut (s : State) (n : Nat) : Nat × Int × Nat :=
  match (s.ch n).recent.reverse.find? (fun v => decide (v.tap = 3)) with
  | some v => (v.name, v.wide, v.qual)
  | none => (0, wideInvalid, 0x80)
/-- The threshold check of a switch (R198): LO at or above UP on an enabled switch holds it OFF. -/
def State.swCheck (s : State) (n w : Nat) : State :=
  let a := R.CH_SW_STAT n
  let bad := s.swEn n w && decide ((s.actReg (R.CH_SW_UP n w)).toInt ≤ (s.actReg (R.CH_SW_LO n w)).toInt)
  let s := s.setFld a F.CH_SW_STAT_CFGERR (putBits (s.fld a F.CH_SW_STAT_CFGERR) w w (b2n bad))
  if bad then
    let s := s.raise 105 n
    let x := s.ch n
    let s := s.setCh n { x with chain := { x.chain with swPend := x.chain.swPend.filter (fun p => decide (p.1 ≠ w)) } }
    if (s.fld a F.CH_SW_STAT_STATE).testBit w then
      let o := s.newestOut n
      s.swChange n w false o.1 o.2.1 o.2.2
    else s
  else s

/-- The value whose square is the largest not above a number. -/
def isqrtAux : Nat → Nat → Nat → Nat
  | 0, r, _ => r
  | b + 1, r, v => let t := r + 2 ^ b
                   isqrtAux b (if t * t ≤ v then t else r) v
/-- Floor of the square root of a number below 2^66. -/
def isqrt (v : Nat) : Nat := isqrtAux 33 0 v

/-- The record of a statistics block (Table 7.3). -/
def State.statRecord (s : State) (n : Nat) (d : StatDone) : List Byte :=
  let b := d.block
  let inv := decide (b.nv = 0)
  let v := fun (x : Int) => beBytes 4 (wideWord (if inv then wideInvalid else x))
  beBytes 1 0x10 ++ beBytes 1 s.timeStatus ++ beBytes 2 n ++ beBytes 2 s.hubId
    ++ beBytes 1 (if inv then qInvalid else b.qual)
    ++ beBytes 1 (b2n b.fromStart + 2 * b2n d.byStop + 4 * b2n d.byNblk) ++ ltBytes b.name
    ++ beBytes 2 (min b.ns 0xFFFF) ++ beBytes 2 (min b.nv 0xFFFF) ++ v b.minV ++ v b.maxV ++ v (divAway b.sum b.nv)
    ++ beBytes 4 (if inv then 0 else isqrt (b.sumSq / b.nv))
    ++ ltBytes (if inv then 0 else b.tMin) ++ ltBytes (if inv then 0 else b.tMax) ++ beBytes 2 0

/-- Close the open statistics block (R195, R196): its record waits to be queued. -/
def State.statClose (s : State) (n : Nat) (byStop byNblk : Bool) : State :=
  let x := s.ch n
  let c := x.chain
  let next := { StatBlock.init with fromStart := byStop || byNblk }
  if c.stats.active then
    s.setCh n { x with chain := { c with stats := next, statDone := c.statDone ++ [⟨c.stats, byStop, byNblk⟩] } }
  else if byStop || byNblk then s.setCh n { x with chain := { c with stats := next } } else s

/-- A valid output enters a block. -/
def StatBlock.add (b : StatBlock) (name : Nat) (v : Int) (q : Nat) : StatBlock :=
  let first := decide (b.nv = 0)
  { b with nv := b.nv + 1, minV := if first || decide (v < b.minV) then v else b.minV,
           maxV := if first || decide (b.maxV < v) then v else b.maxV,
           tMin := if first || decide (v < b.minV) then name else b.tMin,
           tMax := if first || decide (b.maxV < v) then name else b.tMax,
           sum := b.sum + v, sumSq := b.sumSq + (v * v).toNat, qual := b.qual ||| q }

/-- Block statistics at an output (R195): the block ends with the slot before its aligned boundary (R187). -/
def State.statOutput (s : State) (n idx name : Nat) (v : Int) (q : Nat) : State :=
  let nblk := s.actFld (R.CH_STAT_CFG n) F.CH_STAT_CFG_NBLK
  if nblk = 0 then s
  else
    let x := s.ch n
    let b := x.chain.stats
    let b := if b.active then b else { b with active := true, name := name }
    let b := { b with ns := b.ns + 1 }
    let b := if isInvalid q then b else b.add name v q
    let s := s.setCh n { x with chain := { x.chain with stats := b } }
    if (idx + 1) % nblk = 0 then s.statClose n false false else s

/-- The Scaled value of a chain output (R185). -/
def State.scaled (s : State) (n : Nat) (y : Int) : Int :=
  let sh := 16 + s.actFld (R.CH_SCL_CFG n) F.CH_SCL_CFG_SH
  satWide (divAway (y * (s.actReg (R.CH_SCL_MUL n)).toInt + (s.actReg (R.CH_SCL_OFS n)).toInt * 2 ^ sh) (2 ^ sh))

/-- Deliver a chain output at T3: the tap, the switches and the statistics (R191, R201). -/
def State.putOutput (s : State) (n : Nat) (r : SlotReady) (wide sc : Int) (q : Nat) : State :=
  let x := s.ch n
  let s := s.setCh n { x with chain := { x.chain with lastOut := some (wide, sc, q) } }
  let s := s.forEach [0, 1, 2, 3] (fun s w => s.swEval n w r.name wide q)
  let s := s.pushTap n ⟨3, r.name, r.len, wide, q, sc⟩
  if r.event then s else s.statOutput n r.idx r.name wide q

/-- Stages 3 and 4 of a slot that is not an event window: value, flags, saturation (R183, R184, R192). -/
def State.stages34 (s : State) (n : Nat) (r : SlotReady) : State × Int × Nat × Bool :=
  let x := s.ch n
  let c := if r.clears then { x.chain with bq0 := BqState.init, bq1 := BqState.init } else x.chain
  let s := s.setCh n { x with chain := c }
  let fir : Option (Int × Bool × Nat) :=
    if s.chFir n then
      let line := r.line.take (s.firTaps (s.chSet n))
      let v := satI (divAway (s.firSum (s.chSet n) 0 line 0) (2 ^ 30))
      some (v.1, v.2, line.foldl (fun a b => a ||| b.flags) 0)
    else r.box.map (fun (b : BoxOut) => (b.v, false, b.flags))
  match fir with
  | none => (s, 0, 0, false)
  | some (v, sat, fl) =>
    let hist := (fl :: c.firHist).take 256
    let s := s.setCh n { s.ch n with chain := { c with firHist := hist } }
    let nbq := s.chNbq n
    if nbq = 0 then (s, v, fl, sat)
    else
      let q := (hist.take (s.chFhold n + 1)).foldl (fun a b => a ||| b) 0
      let a := bqStep (s.bqCoef n 0) v c.bq0
      let s := s.setCh n { s.ch n with chain := { (s.ch n).chain with bq0 := a.2.2 } }
      if nbq = 1 then (s, a.1, q, sat || a.2.1)
      else
        let b := bqStep (s.bqCoef n 1) a.1 c.bq1
        (s.setCh n { s.ch n with chain := { (s.ch n).chain with bq1 := b.2.2 } }, b.1, q, sat || a.2.1 || b.2.1)

/-- The output of the oldest closed slot (R191): value, flags, held value under RESTART, Scaled value. -/
def State.chainOutput (s : State) (n : Nat) : State :=
  let x := s.ch n
  match x.chain.ready with
  | [] => s
  | r :: rest =>
    let s := s.setCh n { x with chain := { x.chain with ready := rest } }
    let s := if r.closeLt + 100000 * nsU < s.lt then s.raise 108 n else s
    let (s, y, fl, sat) := if r.event then
        (s, (r.box.map (fun (b : BoxOut) => b.v)).getD 0, (r.box.map (fun (b : BoxOut) => b.flags)).getD 0, false)
      else s.stages34 n r
    let s := s.noteSat n r.sat sat
    let past := flagIf (r.sat || sat) qOver
    if r.held then
      match x.chain.lastOut with
      | some (w, sc, q) => s.putOutput n r w sc (qOr (qOr q qSettle) past)
      | none => s.putOutput n r wideInvalid wideInvalid (qOr (qOr qInvalid qSettle) past)
    else
      let q := qOr (qOr fl past) (flagIf r.fillInv qInvalid)
      if isInvalid q then s.putOutput n r wideInvalid wideInvalid q
      else s.putOutput n r (wideOfI y) (s.scaled n y) q

/-- Complete every closed slot, before a change of configuration at the next slot boundary. -/
def State.flushOutputs (s : State) (n : Nat) : State :=
  s.forEach (s.ch n).chain.ready (fun s _ => s.chainOutput n)

/-- A window of the channel that closed by `t` is still to be delivered. -/
def State.lateWindow (s : State) (n t : Nat) : Bool := (s.ch n).expects.any (fun e => e.delivers && decide (e.closeLt ≤ t))
/-- The fields of a switch change in a write of CH_SW_CFG. -/
def swDiffers (w : Nat) (old v : Word) : Bool := decide ((old.toNat / 2 ^ (8 * w)) % 128 ≠ (v.toNat / 2 ^ (8 * w)) % 128)
/-- The switches whose counts a write begins anew. -/
def swsOf (o : Nat) (old v : Word) : List Nat :=
  if o = 0x1D4 then [0, 1, 2, 3].filter (fun w => swDiffers w old v)
  else if 0x1D8 ≤ o ∧ o < 0x1F8 ∧ old ≠ v then [(o - 0x1D8) / 8] else []
/-- A write changes NBLK, which closes the open statistics block (R202). -/
def nblkDiffers (o : Nat) (old v : Word) : Bool := decide (o = 0x1D0) && decide (old.toNat / 65536 ≠ v.toNat / 65536)
/-- A processing register takes a new value (R202, R203, R198). -/
def State.applyPrc (s : State) (n a : Nat) (v : Word) : State :=
  let o := a % 0x400
  let old := s.actReg a
  let s := s.setAct a v
  if o = 0x1B8 then
    let s := s.setAct a (v &&& 0xFF)
    let take := fun (s : State) (q : Nat) => s.forEach (List.range 5) (fun s i =>
      s.setAct (R.CH_BQ_COEF n q i) (s.reg (R.CH_BQ_COEF n q i)))
    let s := if v.toNat.testBit 8 then take s 0 else s
    if v.toNat.testBit 9 then take s 1 else s
  else if o = 0x1D4 then
    s.forEach (swsOf o old v) (fun s w =>
      let s := s.setSwCount n w 0
      if old.toNat.testBit (8 * w) = v.toNat.testBit (8 * w) then s else s.swCheck n w)
  else if 0x1D8 ≤ o ∧ o < 0x1F8 then
    s.forEach (swsOf o old v) (fun s w =>
      let s := s.setSwCount n w 0
      if s.swEn n w then s.swCheck n w else s)
  else if o = 0x214 then s.showOut n
  else s
/-- The registers whose words in effect a write changes for the chain; TAP only selects what is shown. -/
def prcTouches (n a : Nat) : List Nat :=
  let o := a % 0x400
  if o = 0x214 then []
  else if o = 0x1B8 then a :: ((List.range 5).map (R.CH_BQ_COEF n 0) ++ (List.range 5).map (R.CH_BQ_COEF n 1))
  else [a]
/-- A window that a change awaited has been delivered: with the last of them the statistics block closes and the counts of the changed
switches begin anew (R198, R202). -/
def State.prcSettle (s : State) (n : Nat) : State :=
  match (s.ch n).undo with
  | none => s
  | some u =>
    if s.lateWindow n u.since then s
    else
      let s := s.setCh n { s.ch n with undo := none }
      let s := if u.close then s.statClose n false true else s
      s.forEach u.sws (fun s w => s.setSwCount n w 0)
/-- Writes take effect together at a boundary `t` of the channel (R202): closed slots are completed first; the windows that closed by then and
are still to be delivered are processed with the words in effect before. -/
def State.applyDue (s : State) (n t : Nat) (due : List (Nat × Word)) : State :=
  if due = [] then s
  else
    let s := s.flushOutputs n
    let u := (s.ch n).undo.getD ⟨t, [], false, []⟩
    let as := ((due.map (fun w => prcTouches n w.1)).flatten).filter (fun a => !u.old.any (fun e => decide (e.1 = a)))
    let u := { u with old := u.old ++ as.map (fun a => (a, s.actReg a)) }
    let r := due.foldl (fun (r : State × PrcUndo) w =>
      let old := r.1.actReg w.1
      let o := w.1 % 0x400
      (r.1.applyPrc n w.1 w.2,
        { r.2 with close := r.2.close || nblkDiffers o old w.2, sws := r.2.sws ++ swsOf o old w.2 })) (s, u)
    (r.1.setCh n { r.1.ch n with undo := some r.2 }).prcSettle n
/-- The writes that wait for a slot boundary take effect at one, at least 10 us after each (R202). -/
def State.applyWaiting (s : State) (n t : Nat) : State :=
  let x := s.ch n
  let due := x.waiting.filter (fun w => decide (w.2.2 + 10000 * nsU ≤ t))
  (s.setCh n { x with waiting := x.waiting.filter (fun w => !decide (w.2.2 + 10000 * nsU ≤ t)) }).applyDue n t
    (due.map (fun w => (w.1, w.2.1)))
/-- Every waiting write takes effect, when the region stops converting at `t` (R202). -/
def State.applyAllWaiting (s : State) (n t : Nat) : State :=
  let x := s.ch n
  (s.setCh n { x with waiting := [] }).applyDue n t (x.waiting.map (fun w => (w.1, w.2.1)))
/-- A window is processed with the words that were in effect when it closed (R202). -/
def State.asBefore (s : State) (n closeLt : Nat) (f : State → State) : State :=
  match (s.ch n).undo with
  | none => f s
  | some u =>
    if u.since < closeLt then f s
    else
      let now := u.old.map (fun e => (e.1, s.actReg e.1))
      let s := s.forEach u.old (fun s e => s.setAct e.1 e.2)
      let s := (f s).flushOutputs n
      (s.forEach now (fun s e => s.setAct e.1 e.2)).prcSettle n

/-- The state of stages 2 to 4 cleared at a region start (R189); a fill begins. -/
def State.chainStart (s : State) (n : Nat) : State :=
  let s := (s.flushOutputs n).statClose n true false
  let x := s.ch n
  let c := x.chain
  let s := s.setCh n { x with lastRaw := none, lastClean := none, chain := { ChainState.init with
    filling := true, startFill := true, swCount := c.swCount, swPend := c.swPend, statDone := c.statDone } }
  s.setFlag (R.CH_HLT_STAT n) F.CH_HLT_STAT_REFILL false

/-- Index of a window in the alignment of R187: its place in packets after LT 0, or its number in mains tracking. -/
def State.indexOf (s : State) (n openLt npk wseq : Nat) : Nat :=
  if s.rgMains (rgnOf n) then wseq else openLt / (max npk 1 * pktU)
/-- Index of a sample's window. -/
def State.winIndex (s : State) (n : Nat) (w : Sample) : Nat := s.indexOf n w.openLt w.npk w.wseq
/-- The last raw value whose window carried none of INVALID, OPEN, OVER, SUSPECT and SETTLE, after a window (R175). -/
def cleanRaw (x : ChanState) (w : Sample) : Option Int := if w.qual &&& 0xF8 = 0 then some w.wide else x.lastClean
/-- What stages 2 to 4 are fed in a window (R174 to R176): the chain with its policy state, and the value if any. Each settle period keeps the
policy in effect at its first window; a refill goes on under the next one (log 89). -/
def State.chainPolicy (s : State) (n : Nat) (w : Sample) : State × Option Int :=
  let x := s.ch n
  let c := x.chain
  let inv := isInvalid w.qual
  let settle := isSettle w.qual
  let refilling := c.refill && !c.fillMet
  let begins := settle && (!c.inPeriod || decide (w.period ≠ c.period))
  let pol := if begins then w.spol else c.policy
  let raw := if inv then x.lastRaw.getD 0 else w.wide
  let held := if pol = 1 ∧ settle then x.lastClean.getD raw else raw
  let x' := { x with
    lastRaw := if inv then x.lastRaw else some w.wide,
    lastClean := cleanRaw x w }
  let c := { c with policy := pol, inPeriod := settle, period := w.period }
  if settle && decide (pol = 2) then
    let c := if begins then
        { c with inSettle := true, blkSum := 0, blkFed := 0, delay := [], lastBox := none, slotClear := true,
                 filling := false, startFill := false, refill := false, fillMet := false, fillCount := 0 }
      else c
    ((s.setCh n { x' with chain := c }).setFlag (R.CH_HLT_STAT n) F.CH_HLT_STAT_REFILL false, none)
  else if c.inSettle then
    let c := { c with inSettle := false, filling := true, refill := true, fillMet := false, fillCount := 0 }
    ((s.setCh n { x' with chain := c }).setFlag (R.CH_HLT_STAT n) F.CH_HLT_STAT_REFILL true,
      if inv then none else some held)
  else (s.setCh n { x' with chain := c }, if refilling && inv then none else some held)

/-- The block of a channel closes (R182): its mean enters the delay line and the tap T2; none was fed, no output. -/
def State.closeBlock (s : State) (n k : Nat) (closeLen : Nat) : State :=
  let x := s.ch n
  let c := x.chain
  if c.blkFed = 0 then
    s.setCh n { x with chain := { c with blkSum := 0, blkFlags := 0, blkSat := false, lastBox := none } }
  else
    let v := satI (divAway c.blkSum c.blkFed)
    let fl := c.blkFlags
    let q := qOr fl (flagIf (c.blkSat || v.2) qOver)
    let b : BoxOut := ⟨v.1, fl, decide (c.blkFed = k)⟩
    let s := s.noteSat n c.slotSat v.2
    let s := s.setCh n { s.ch n with chain := { c with
      blkSum := 0, blkFed := 0, blkFlags := 0, blkSat := false, lastBox := some b, slotSat := c.slotSat || v.2,
      delay := (b :: c.delay).take 256 } }
    s.pushTap n ⟨2, c.blkName, closeLen, tapWide v.1 q, q, wideInvalid⟩

/-- The slot of a channel closes (R188, R193, R194): whether its fill ends, and what its output will carry. -/
def State.closeSlot (s : State) (n idx len closeLt : Nat) : State :=
  let x := s.ch n
  let c := x.chain
  let inputs := if s.chFir n then
      let l := c.delay.take (s.firTaps (s.chSet n))
      decide (l.length = s.firTaps (s.chSet n)) && l.all (fun b => b.full)
    else c.lastBox.any (fun b => b.full)
  let met := c.filling && !c.fillMet && inputs && (decide (s.chNbq n = 0) || decide (s.chFhold n ≤ c.fillCount))
  let fm := c.fillMet || met
  let r : SlotReady :=
    { name := c.slotName, len := len, idx := idx, closeLt := closeLt, line := c.delay, box := c.lastBox,
      clears := c.slotClear, held := c.inSettle || (c.refill && !fm),
      fillInv := c.filling && c.startFill && !fm && s.actFlag (R.CH_PRC_CTRL n) F.CH_PRC_CTRL_FILLINV,
      sat := c.slotSat, event := false }
  s.setCh n { x with chain := { c with ready := c.ready ++ [r], slotSat := false, slotClear := false, fillMet := fm,
                                       fillCount := if inputs then c.fillCount + 1 else c.fillCount } }

/-- Deliver a sample to the chain (step 5 of Table 1.2): taps T0 and T1, boxcar block, slot (R179 to R193). -/
def State.chainFeed (s : State) (n : Nat) (w : Sample) : State :=
  let inv := isInvalid w.qual
  let len := w.closeLt - w.openLt
  let s := s.pushTap n ⟨0, w.openLt, len, if inv then wideInvalid else w.wide, w.qual, wideInvalid⟩
  let k := s.chK n
  let m := k * s.chD n
  let j := s.winIndex n w
  let raw := if inv then (s.ch n).lastRaw.getD 0 else w.wide
  let own := s.stage1 n raw
  let q1 := qOr w.qual (flagIf own.2 qOver)
  let s := s.pushTap n ⟨1, w.openLt, len, tapWide own.1 q1, q1, wideInvalid⟩
  if w.evt then
    let x := s.ch n
    let s := s.setCh n { x with lastRaw := if inv then x.lastRaw else some w.wide, lastClean := cleanRaw x w,
                                chain := { x.chain with synced := false } }
    let s := s.noteSat n false own.2
    let r : SlotReady :=
      { name := w.openLt, len := len, idx := 0, closeLt := w.closeLt, line := [], box := some ⟨own.1, q1, true⟩,
        clears := false, held := false, fillInv := false, sat := own.2, event := true }
    s.setCh n { s.ch n with chain := { (s.ch n).chain with ready := (s.ch n).chain.ready ++ [r] } }
  else
    let (s, fed) := s.chainPolicy n w
    let c := (s.ch n).chain
    if !c.synced && decide (j % m ≠ 0) then s
    else
      let s := if j % m = 0 then
          s.setCh n { s.ch n with chain := { c with synced := true, slotName := w.openLt, slotSat := false,
                                                    lastBox := none } }
        else s
      let c := (s.ch n).chain
      let s := if j % k = 0 then
          s.setCh n { s.ch n with chain := { c with blkName := w.openLt, blkSum := 0, blkFed := 0, blkFlags := 0,
                                                    blkSat := false } }
        else s
      let c := (s.ch n).chain
      let i1 := match fed with
        | some v => s.stage1 n v
        | none => (0, false)
      let sat := i1.2 || own.2
      let s := s.noteSat n c.slotSat sat
      let s := s.setCh n { s.ch n with chain := { c with
        blkSum := c.blkSum + i1.1, blkFed := c.blkFed + b2n fed.isSome, blkFlags := c.blkFlags ||| w.qual,
        blkSat := c.blkSat || sat, slotSat := c.slotSat || sat } }
      let s := if (j + 1) % k = 0 then s.closeBlock n k (w.closeLt - (s.ch n).chain.blkName) else s
      if (j + 1) % m = 0 then s.closeSlot n (j / m) (w.closeLt - (s.ch n).chain.slotName) w.closeLt else s

/-- No window of a channel awaits its sample and its region does not convert. -/
def State.chainQuiet (s : State) (n : Nat) : Bool :=
  !s.runs (rgnOf n) && (s.ch n).expects.all (fun e => !e.delivers)

/-- CHAIN_OUTPUT (R191): the output of the oldest slot that has closed. -/
def execChainOutput (n : Fin 384) (s : State) : Res := s.act! (s.chainOutput n.val)

/-- The end of a fill whose conditions a slot has met (R193). -/
def State.fillDone (s : State) (n : Nat) : State :=
  let x := s.ch n
  if x.chain.fillMet then
    (s.setCh n { x with chain := { x.chain with filling := false, startFill := false, refill := false,
                                                fillMet := false } }).setFlag (R.CH_HLT_STAT n)
      F.CH_HLT_STAT_REFILL false
  else s
/-- REFILL_END (R175, R176): the refill is complete and REFILL clears. -/
def execRefillEnd (n : Fin 384) (s : State) : Res :=
  s.act! (if (s.ch n.val).chain.refill then s.fillDone n.val else s)
/-- FILL_END (R193): the fill after a region start is complete. -/
def execFillEnd (n : Fin 384) (s : State) : Res :=
  s.act! (if (s.ch n.val).chain.refill then s else s.fillDone n.val)

/-- Queue the record of the oldest closed block; a block open at a stop closes first (R195, R196). -/
def State.statEnd (s : State) (n : Nat) : State :=
  let s := if s.chainQuiet n then (s.flushOutputs n).statClose n true false else s
  let x := s.ch n
  match x.chain.statDone with
  | [] => s
  | d :: rest =>
    let s := s.setCh n { x with chain := { x.chain with statDone := rest } }
    let s := if d.block.nv = 0 then s.raise 107 n else s
    s.recordCh n 0x10 d.block.name (s.statRecord n d)
/-- STATISTICS_BLOCK_END (R195, R196). -/
def execStatisticsBlockEnd (n : Fin 384) (s : State) : Res := s.act! (s.statEnd n.val)

/-- SWITCH_CHANGE (R197 to R200): switch `w` carries out the change its outputs have called for. -/
def execSwitchChange (n : Fin 384) (w : Fin 4) (s : State) : Res :=
  s.act! (
    let x := s.ch n.val
    match x.chain.swPend.find? (fun p => decide (p.1 = w.val)) with
    | none => s
    | some p =>
      let s := s.setCh n.val { x with chain := { x.chain with swPend := x.chain.swPend.erase p } }
      s.swChange n.val w.val p.2.1 p.2.2.1 p.2.2.2.1 p.2.2.2.2)

/-- CH_OUT_W_READ (R201): the answer is CH_OUT_W; the other four words are latched from the same output. -/
def execChOutWRead (n : Fin 384) (s : State) : Res :=
  s.act! (
    let s := s.forEach [R.CH_OUT_Q n.val, R.CH_OUT_T n.val, R.CH_OUT_T_HI n.val, R.CH_OUT_S n.val]
      (fun s a => { s with latch := tabPut (fun _ => none) s.latch a (some (s.reg a)) })
    s.answer (s.reg (R.CH_OUT_W n.val)).toNat 0)

/-- Fields of CH_BQ_CTRL. -/
def bqCtrlFlds : List Fld := [F.CH_BQ_CTRL_COMMIT1, F.CH_BQ_CTRL_COMMIT0, F.CH_BQ_CTRL_FHOLD]
/-- A processing write takes effect at once where the region is STOPPED, else at the slot boundary of R202. -/
def State.prcWrite (s : State) (n a : Nat) (v : Word) : State :=
  if s.rgState (rgnOf n) = rgStopped then s.applyDue n s.lt [(a, v)]
  else s.setCh n { s.ch n with waiting := (s.ch n).waiting ++ [(a, v, s.lt)] }
/-- A bit of a write that waits for its slot boundary: COMMIT0 and COMMIT1 read 1 until then (R17, R203). -/
def State.waitsBit (s : State) (n a i : Nat) : Bool := (s.ch n).waiting.any (fun w => decide (w.1 = a) && w.2.1.toNat.testBit i)
/-- A write of CH_BQ_CTRL (R203); a commit that waits already is not asked for again (R455). -/
def State.writeBqCtrl (s : State) (n : Nat) (v : Word) : State :=
  let a := R.CH_BQ_CTRL n
  let keep := [8, 9].foldl (fun w i => if s.waitsBit n a i then putBits w i i 0 else w) v.toNat
  (s.writeFlds a bqCtrlFlds v).prcWrite n a (BitVec.ofNat 32 keep)
/-- CH_BQ_CTRL_COMMIT (R203). -/
def execChBqCtrlCommit (n : Fin 384) (v : Word) (s : State) : Res := s.act! (s.writeBqCtrl n.val v)

end Sys2Proof.Machine
end

