-- ==== Sys2Proof/Machine/Demand.lean ====
section
/-! DEFINITION. The processing demand of a configuration and its check against the performance level (R206, R207,
R232, R31). -/
namespace Sys2Proof.Machine

/-- Window rate of a region in windows per second (Table 7.5). -/
def State.winRate (s : State) (g : Nat) : Rat :=
  if s.flag (R.RGN_WIN g) F.RGN_WIN_MODE then (65 : Rat) / (max (s.fld (R.RGN_WIN g) F.RGN_WIN_MCYC) 1 : Nat)
  else (20480000 : Rat) / (max (s.fld (R.RGN_WIN g) F.RGN_WIN_LEN) 1 : Nat)

/-- Enabled switches of a channel. -/
def State.swCountEn (s : State) (n : Nat) : Nat :=
  ((List.range 4).filter (fun w => s.flag (R.CH_SW_CFG n) (F.CH_SW_CFG_EN w))).length

/-- Chain demand of a channel in MAC/s (Table 7.5). -/
def State.chDemand (s : State) (n : Nat) : Rat :=
  let rw := s.winRate (rgnOf n)
  let evt := s.flag (R.CH_EVT_CTRL n) F.CH_EVT_CTRL_MODE
  let a := R.CH_PRC_CTRL n
  let k := min (max (s.fld a F.CH_PRC_CTRL_K) 1) 4096
  let d := min (max (s.fld a F.CH_PRC_CTRL_D) 1) 64
  let ro := if evt then rw else rw / (k * d : Nat)
  let f := if !evt && s.flag a F.CH_PRC_CTRL_FIREN then
      min (max (s.fld (R.PRC_FIRLEN (s.fld (R.CH_PRC_FIR n) F.CH_PRC_FIR_SET)) F.PRC_FIRLEN_NT) 1) 256
    else 0
  let st := if s.fld (R.CH_STAT_CFG n) F.CH_STAT_CFG_NBLK ≠ 0 then 3 else 0
  3 * rw + ro * (f + 5 * min (s.fld a F.CH_PRC_CTRL_NBQ) 2 + 1 + st + s.swCountEn n : Nat)

/-- Valid list entries of a buffer in list order: channel and MEAS (R213). -/
def State.capEntries (s : State) (b : Nat) : List (Nat × Bool) :=
  ((List.range 64).filter (fun e => s.flag (R.CAP_CHL b e) F.CAP_CHL_VALID)).map
    (fun e => (s.fld (R.CAP_CHL b e) F.CAP_CHL_CHAN, s.flag (R.CAP_CHL b e) F.CAP_CHL_MEAS))
/-- Enabled level conditions of a buffer (types 0x1 to 0x5). -/
def State.capLevels (s : State) (b : Nat) : List Nat :=
  (List.range 8).filter (fun i => s.cndEn b i && decide (1 ≤ s.cndType b i) && decide (s.cndType b i ≤ 5))
/-- Members and level-condition channels of a buffer. -/
def State.capChans (s : State) (b : Nat) : List Nat :=
  (s.capEntries b).map (fun e => e.1) ++ (s.capLevels b).map (fun i => s.cndChan b i)
def State.capTap (s : State) (b : Nat) : Nat := s.fld (R.CAP_CFG b) F.CAP_CFG_TAP
def State.capFmt (s : State) (b : Nat) : Nat := fmtAct (s.fld (R.CAP_CFG b) F.CAP_CFG_FORMAT)
/-- P_row in packets of a buffer (R214). -/
def State.capRow (s : State) (b : Nat) : Nat :=
  match s.capEntries b with
  | e :: _ => s.rowPackets (s.capTap b) e.1
  | [] => 0
/-- Entries with MEAS. -/
def State.capMeas (s : State) (b : Nat) : List Nat :=
  ((s.capEntries b).filter (fun e => e.2)).map (fun e => e.1)
/-- Capture demand of a buffer (R232). -/
def State.capDemand (s : State) (b : Nat) : Rat :=
  let p := s.capRow b
  if p = 0 then 0
  else (20480000 : Rat) / (p : Nat)
    * ((s.capEntries b).length + 2 * (s.capLevels b).length + 6 * (s.capMeas b).length : Nat)

/-- The buffer counts in the capture term: not IDLE or DONE, or its arming is pending. A boundary that has passed has had its effect. -/
def State.capCounts (s : State) (b : Nat) : Bool :=
  let s := s.capSync b
  (decide (s.capState b ≠ capIdle) && decide (s.capState b ≠ capDone)) || (s.cp b).armAt.isSome

/-- The demand in MAC/s, with regions a start names and buffers an ARM names (R206). -/
def State.demandWith (s : State) (rs bs : List Nat) : Rat :=
  let chans := ((List.range 8).filter (fun g => decide (s.rgState g ≠ 0) || rs.contains g)).map
    (fun g => (chansOf g).foldl (fun a n => a + s.chDemand n) (0 : Rat))
  let caps := ((List.range 16).filter (fun b => s.capCounts b || bs.contains b)).map (fun b => s.capDemand b)
  50000000 + chans.foldl (fun a x => a + x) 0 + caps.foldl (fun a x => a + x) 0
/-- The demand of the applied configuration. -/
def State.demand (s : State) : Rat := s.demandWith [] []
/-- The guaranteed throughput of the level in MAC/s (R206). -/
def State.prcCap (s : State) : Rat := (1000 * s.fld R.PRC_CAP F.PRC_CAP_CAP : Nat)
/-- The demand exceeds the level (R31). -/
def State.overDemand (s : State) (rs bs : List Nat) : Bool := decide (s.prcCap < s.demandWith rs bs)
/-- PRC_DEMAND: rounded up to a whole kMAC/s (R206). -/
def State.prcDemand (s : State) : Nat := ((s.demand / 1000).ceil).toNat

end Sys2Proof.Machine
end

