-- ==== Sys2Proof/Machine/Capture.lean ====
section
/-! DEFINITION. Bowl capture (chapter 8): arming, row decisions, records and their measurements, consumers, and the
commands CAP_CTRL_ARM to CAPTURE_HOLD_END. -/
namespace Sys2Proof.Machine

/-- B_row of a buffer (R212). -/
def State.capRowLen (s : State) (b : Nat) : Nat := rowBytes (s.capFmt b) (s.capEntries b).length
def State.capPreN (s : State) (b : Nat) : Nat := s.fld (R.CAP_PRE b) F.CAP_PRE_PRE
def State.capPostN (s : State) (b : Nat) : Nat := s.fld (R.CAP_PRE b) F.CAP_PRE_POST
/-- Bytes of the header and the measurement blocks. -/
def State.capHead (s : State) (b : Nat) : Nat := 72 + 48 * (s.capMeas b).length
/-- Bytes of the largest record (R212). -/
def State.capNeed (s : State) (b : Nat) : Nat :=
  s.capHead b + (s.capPreN b + 1 + s.capPostN b) * s.capRowLen b
/-- First page and page count of a buffer. -/
def State.capBase (s : State) (b : Nat) : Nat := s.fld (R.CAP_BUF b) F.CAP_BUF_BASE
def State.capPages (s : State) (b : Nat) : Nat := s.fld (R.CAP_BUF b) F.CAP_BUF_PAGES
/-- Window address of a slot (R224). -/
def State.capSlotAddr (s : State) (b q : Nat) : Nat := 0x04000000 + (s.capBase b + q * s.capSlotPg b) * 4096

/-- Pages of the buffer lie among those another buffer with ALLOC = 1 holds (R211). -/
def State.capOverlap (s : State) (b : Nat) : Bool :=
  (List.range 16).any (fun c => decide (c ≠ b) && s.flag (R.CAP_CFG c) F.CAP_CFG_ALLOC
    && decide (s.capPages c ≠ 0) && decide (s.capPages b ≠ 0)
    && decide (s.capBase b < s.capBase c + s.capPages c) && decide (s.capBase c < s.capBase b + s.capPages b))
/-- The settings break R214. -/
def State.capRowsBad (s : State) (b : Nat) : Bool :=
  (s.capChans b).any (fun n => s.rgMains (rgnOf n) || decide (s.rowPackets (s.capTap b) n ≠ s.capRow b))

/-- The first cause of Table 8.1 that refuses an arm. -/
def State.armCause (s : State) (b : Nat) : Option Nat :=
  let es := s.capEntries b
  let typ := fun i => s.cndType b i
  if !s.flag (R.CAP_CFG b) F.CAP_CFG_ALLOC || s.flag (R.CAP_STAT b) F.CAP_STAT_ALLOCW || decide (s.capPages b = 0)
      || decide (4096 < s.capBase b + s.capPages b) || s.capOverlap b then some 1
  else if s.capNrec b = 0 ∨ s.capSlotPg b * 4096 < s.capNeed b then some 2
  else if es = [] ∨ (s.capChans b).any (fun n => decide (383 < n)) ∨ 8 < (s.capMeas b).length
      ∨ (s.capFmt b = 2 ∧ s.capTap b ≠ 3) then some 3
  else if s.capRowsBad b then some 4
  else if (List.range 8).all (fun i => !s.cndEn b i) ∨ (List.range 8).any (fun i => decide (13 ≤ typ i)) then some 5
  else if !s.flag (R.CAP_CFG b) F.CAP_CFG_HOSTC && !s.flag (R.CAP_CFG b) F.CAP_CFG_STRC then some 6
  else if s.overDemand [] [b] then some 7
  else none

/-- An ARM is refused (R216, Table 8.1): CFGERR, the cause, and CAP_CFG reported. -/
def State.refuseArm (s : State) (b cause : Nat) : State :=
  ((s.setFlag (R.CAP_STAT b) F.CAP_STAT_CFGERR true).setFld (R.CAP_ERR b) F.CAP_ERR_CAUSE cause).raise 113 b
/-- The earlier of a boundary that waits and a new one. -/
def sooner (o : Option Nat) (t : Nat) : Nat := min (o.getD t) t
/-- ARM (R216, R218). One written again while an arm waits is checked as any other; the earlier boundary stands (log 90). -/
def State.capArm (s : State) (b : Nat) : State :=
  let st := s.capState b
  if st ≠ capIdle ∧ st ≠ capDone then s
  else
    match s.armCause b with
    | some c => s.refuseArm b c
    | none =>
      let p := max (s.capRow b * pktU) 1
      s.setCp b { s.cp b with armAt := some (sooner (s.cp b).armAt ((s.lt + 10000 * nsU + p - 1) / p * p)) }
/-- DISARM (R217, R218). -/
def State.capDisarm (s : State) (b : Nat) : State :=
  if s.capState b = capIdle then s
  else
    let p := max (s.capRow b * pktU) 1
    s.setCp b { s.cp b with disarmAt := some (sooner (s.cp b).disarmAt ((s.lt + p - 1) / p * p)) }

/-- CAP_RDQ shows the oldest host record not released (R224). -/
def State.showRdq (s : State) (b : Nat) : State :=
  match (s.cp b).done.find? (fun d => d.host) with
  | some d =>
    let s := s.setFld (R.CAP_RDQ b) F.CAP_RDQ_HSEQ (d.seq % 65536)
    (s.setFlag (R.CAP_RDQ b) F.CAP_RDQ_VALID true).setFld (R.CAP_RDQ b) F.CAP_RDQ_SLOT d.slot
  | none =>
    let s := s.setFld (R.CAP_RDQ b) F.CAP_RDQ_HSEQ 0
    (s.setFlag (R.CAP_RDQ b) F.CAP_RDQ_VALID false).setFld (R.CAP_RDQ b) F.CAP_RDQ_SLOT 0
/-- Keep the slots some consumer still holds; a FULL buffer becomes ARMED once a slot is free (R217, R224). -/
def State.capFreed (s : State) (b : Nat) : State :=
  let x := s.cp b
  let s := (s.setCp b { x with done := x.done.filter (fun d => d.host) }).showRdq b
  if s.capState b = capFull ∧ (s.freeSlot b).isSome then s.capRearm b else s
/-- REL (R224): the oldest host record is released. -/
def State.capRel (s : State) (b : Nat) : State :=
  let x := s.cp b
  match x.done.findIdx? (fun d => d.host) with
  | some i =>
    (s.setCp b { x with done := x.done.modify i (fun (d : CapSlot) => { d with host := false }) }).capFreed b
  | none => s
/-- SOFT (Table 8.2): an event at the write or receipt + 2,000 ns. -/
def State.capSoft (s : State) (b : Nat) : State := s.capEventOne b ⟨11, 0, s.lt + 2000 * nsU, s.hubId⟩

/-- Fields of CAP_CTRL. -/
def capCtrlFlds : List Fld := [F.CAP_CTRL_REL, F.CAP_CTRL_SOFT, F.CAP_CTRL_DISARM, F.CAP_CTRL_ARM]
/-- A write of CAP_CTRL (R216 to R218, R222): each bit acts, in the order REL, DISARM, ARM, SOFT (log 12), and reads 0
again at once. -/
def State.writeCapCtrl (s : State) (b : Nat) (v : Word) : State :=
  let s := (s.capSync b).writeFlds (R.CAP_CTRL b) capCtrlFlds v
  let s := if v.toNat.testBit 3 then s.capRel b else s
  let s := if v.toNat.testBit 1 then s.capDisarm b else s
  let s := if v.toNat.testBit 0 then s.capArm b else s
  if v.toNat.testBit 2 then s.capSoft b else s

/-- CAP_CTRL_ARM (R216, R218). -/
def execCapCtrlArm (b : Fin 16) (v : Word) (s : State) : Res := s.act! (s.writeCapCtrl b.val v)
/-- CAP_CTRL_DISARM (R217, R218). -/
def execCapCtrlDisarm (b : Fin 16) (v : Word) (s : State) : Res := s.act! (s.writeCapCtrl b.val v)
/-- CAP_CTRL_SOFT (R218, R222). -/
def execCapCtrlSoft (b : Fin 16) (v : Word) (s : State) : Res := s.act! (s.writeCapCtrl b.val v)
/-- CAP_CTRL_REL (R218, R224). -/
def execCapCtrlRel (b : Fin 16) (v : Word) (s : State) : Res := s.act! (s.writeCapCtrl b.val v)

/-- Spilled data occupies a page of the buffer. -/
def State.capSpilled (s : State) (b : Nat) : Bool :=
  s.str.any (fun e => e.2.spill.any (fun q => decide (s.capBase b ≤ q.page)
    && decide (q.page < s.capBase b + s.capPages b)))
/-- After a write of CAP_CFG or CAP_BUF: ALLOCW while spilled data occupies the pages (R211). -/
def State.capAllocCheck (s : State) (b : Nat) : State :=
  s.setFlag (R.CAP_STAT b) F.CAP_STAT_ALLOCW (s.flag (R.CAP_CFG b) F.CAP_CFG_ALLOC && s.capSpilled b)
/-- CAPTURE_ALLOC_TAKES_EFFECT (R211): every page has been released. -/
def execCaptureAllocTakesEffect (b : Fin 16) (s : State) : Res := s.act! (s.capAllocCheck b.val)

/-- The values of a row (R213, R215). -/
def State.capRowVals (s : State) (b name : Nat) : CapRow :=
  ⟨name, (s.capEntries b).map (fun e => s.tapAt e.1 (s.capTap b) name)⟩
/-- Write a row at a row position of a slot (R225). -/
def State.capPutRow (s : State) (b q pos : Nat) (r : CapRow) : State :=
  s.setBytes (s.capSlotAddr b q + s.capHead b + pos * s.capRowLen b) (rowImage (s.capFmt b) r.vals)

/-- Level condition `i` is met in the row, and the previous values it leaves (R221). -/
def State.capLevel (s : State) (b name : Nat) (i : Nat) : Bool × CapState :=
  let x := s.cp b
  let v := s.tapAt (s.cndChan b i) (s.capTap b) name
  let v1 := (s.reg (R.CAP_CND_V1 b i)).toNat
  let v2 := (s.reg (R.CAP_CND_V2 b i)).toNat
  let met := levelMet (s.cndType b i) v1 v2 (tabGet (fun _ => none) x.prev i)
    (s.prevFlag (s.cndChan b i) (s.capTap b) name (s.capRow b * pktU) v1) v.1 v.2.1
  (met, if isInvalid v.2.1 then x else { x with prev := tabPut (fun _ => none) x.prev i (some v.1) })
/-- The level conditions met in a row. -/
def State.capLevelsMet (s : State) (b name : Nat) : State × List Nat :=
  (s.capLevels b).foldl (fun (a : State × List Nat) i =>
    let r := a.1.capLevel b name i
    (a.1.setCp b r.2, if r.1 then a.2 ++ [i] else a.2)) (s, [])

/-- A trigger decided while the buffer is FULL and no slot can be reclaimed is lost (R223). -/
def State.capLose (s : State) (b tlt : Nat) : State :=
  let x := s.cp b
  let s := s.bump (R.CAP_STAT b) F.CAP_STAT_LOSTCNT
  let s := if x.lostFresh then s.setSt (R.CAP_LOST_T b) (R.CAP_LOST_T_HI b) (stOf tlt) else s
  (s.setCp b { x with lostFresh := false, lostSince := min (x.lostSince + 1) 0xFFFF }).raise 110 b
/-- Reclaim the oldest completed slot (R223): its stream transfer finished at its completion. -/
def State.capReclaim (s : State) (b : Nat) : Option (State × Nat) :=
  let x := s.cp b
  if s.flag (R.CAP_CFG b) F.CAP_CFG_OVW then
    match x.done with
    | d :: _ =>
      let s := (s.setCp b { x with done := x.done.erase d }).showRdq b
      some (((s.bump (R.CAP_STAT b) F.CAP_STAT_OVWCNT).raise 111 b), d.slot)
    | [] => none
  else none

/-- TLT and origin of a condition met in a row (Table 8.2). -/
def State.capTlt (s : State) (b name i : Nat) (evs : List CapEvent) : Nat × Nat :=
  if s.cndType b i ≤ 5 then (name, s.hubId)
  else match evs.find? (fun e => s.eventMet b i e) with
    | some e => (e.time, e.origin)
    | none => (name, s.hubId)

/-- Start a record in slot `q` with the trigger row (R217, R222, R231). -/
def State.capStart (s : State) (b q name : Nat) (mets : List Nat) (evs : List CapEvent) (row : CapRow) : State :=
  let x := s.cp b
  let i := mets.foldl min 7
  let (tlt, origin) := s.capTlt b name i evs
  let pre := s.capPreN b
  let typ := s.cndType b i
  let late := evs.any (fun e => decide (e.time < name) && mets.any (fun j => s.eventMet b j e))
  let rf := b2n late + 2 * b2n (decide (typ = 10)) + 4 * b2n (decide (x.pre.length < pre))
    + 16 * b2n (mets.any (fun j => s.cndFwd b j))
  let rec0 : CapRec :=
    { slot := q, cause := i, mask := mets.foldl (fun a j => a ||| 2 ^ j) 0, tlt := tlt, rflags := rf, origin := origin,
      extra := 0, lost := x.lostSince, pre := x.pre, rows := [row],
      row0 := if x.kept < pre then 0 else x.kept % max pre 1 }
  let s := s.setCp b { x with cur := some rec0, pre := [], kept := 0, lostSince := 0 }
  let s := s.capPutRow b q pre row
  let s := (s.setCapState b capPost).setSt (R.CAP_LAST_T b) (R.CAP_LAST_T_HI b) (stOf tlt)
  let s := s.trigPulse (s.fld (R.CAP_CFG b) F.CAP_CFG_TOUTPW)
  if typ = 12 then s else s.capEvent 12 b tlt

/-- The record in POST is complete once its last row has been decided (R217). -/
def State.capLastRow (s : State) (b : Nat) : State :=
  let x := s.cp b
  match x.cur with
  | some r => if s.capPostN b < r.rows.length then s.setCp b { x with cur := none, fin := some r } else s
  | none => s

/-- Ring triggers of the forwarding level conditions met in a row, where its value has not sent them already: a row without an
output has no value at the tap (R215, R229). -/
def State.capLevelsSend (s : State) (b name : Nat) (lv : List Nat) : State :=
  s.forEach lv (fun s i => if s.cndFwd b i then s.sendTrigger (s.cndLine b i) name else s)
/-- A formed row is decided (R217, R219, R222, R223). -/
def State.capDecide (s : State) (b name : Nat) (evs : List CapEvent) : State :=
  let row := s.capRowVals b name
  let (s, lv) := s.capLevelsMet b name
  let s := s.capLevelsSend b name lv
  let mets := lv ++ (List.range 8).filter (fun i => decide (6 ≤ s.cndType b i) && evs.any (fun e => s.eventMet b i e))
  let st := s.capState b
  let x := s.cp b
  if st = capArmed then
    if mets = [] then
      let pre := s.capPreN b
      if pre = 0 then s
      else
        let s := s.capPutRow b x.slot (x.kept % pre) row
        let ps := x.pre ++ [row]
        s.setCp b { x with pre := ps.drop (ps.length - pre), kept := x.kept + 1 }
    else (s.capStart b x.slot name mets evs row).capLastRow b
  else if st = capPost then
    match x.cur with
    | some r =>
      let s := s.capPutRow b r.slot (s.capPreN b + r.rows.length) row
      (s.setCp b { x with cur := some { r with rows := r.rows ++ [row],
                                               extra := min (r.extra + mets.length) 0xFFFF } }).capLastRow b
    | none => s
  else if st = capHold then
    (s.bumpBy (R.CAP_STAT b) F.CAP_STAT_HOLDCNT mets.length).setCp b { x with holdLeft := x.holdLeft - 1 }
  else if st = capFull ∧ mets ≠ [] then
    match s.capReclaim b with
    | some (s, q) =>
      let s := s.setCp b { s.cp b with slot := q, pre := [], kept := 0 }
      (s.capStart b q name mets evs row).capLastRow b
    | none => s.capLose b (s.capTlt b name (mets.foldl min 7) evs).1
  else s

/-- The row named `r` is formed: a member region converts in it (R215). -/
def State.capFormed (s : State) (b r : Nat) : Bool :=
  let p := s.capRow b * pktU
  ((s.capEntries b).map (fun e => rgnOf e.1)).eraseDups.any
    (fun g => (s.rg g).runs.any (fun run => decide (rowInRun p r run = some r)))
/-- A row boundary passes with no member region converting (R215). -/
def State.capMissing (s : State) (b : Nat) : State :=
  let x := s.cp b
  let st := s.capState b
  if st = capArmed then s.setCp b { x with pre := [], kept := 0 }
  else if st = capPost then
    match x.cur with
    | some r => s.setCp b { x with cur := none, fin := some { r with rflags := r.rflags ||| 8 } }
    | none => s
  else if st = capHold then s.setCp b { x with holdLeft := x.holdLeft - 1 }
  else s

/-- Name of the next row to decide: the first row boundary that has not been decided. -/
def State.capNext (s : State) (b : Nat) : Nat :=
  let p := max (s.capRow b * pktU) 1
  ((s.cp b).nextRow + p - 1) / p * p
/-- The next row of a buffer can be decided: no record waits for completion, HOLD has not ended, and every sample of the
row has been delivered. In DONE a row is decided for the ring triggers of its conditions alone (R222, R229). -/
def State.capRowReady (s : State) (b : Nat) : Bool :=
  let st := s.capState b
  let x := s.cp b
  decide (st ≠ capIdle) && x.fin.isNone
    && !(decide (st = capHold) && decide (x.holdLeft = 0))
    && s.rowReady (s.capChans b) (s.capNext b + s.capRow b * pktU)
/-- Decide the row named `r` (R219): formed, or a row boundary with no member region converting. -/
def State.decideRow (s : State) (b r p : Nat) : State :=
  let x := s.cp b
  let evs := x.events.filter (fun e => decide (e.time < r + p))
  let keep := fun (e : CapEvent) => decide (s.capState b = capDone) || !decide (e.time < r + p)
  let s := s.setCp b { x with events := x.events.filter keep, nextRow := r + p }
  if s.capFormed b r then s.capDecide b r evs else s.capMissing b
/-- Decide the next row, 200 us after its close (R219), unless a DISARM has taken effect by then (R217). -/
def State.rowDecision (s : State) (b : Nat) : State :=
  let s := s.capSync b
  if s.capRowReady b then
    let p := max (s.capRow b * pktU) 1
    let r := s.capNext b
    let t := (s.moveTo (r + p + 200000 * nsU)).capSync b
    if t.capState b = s.capState b then t.decideRow b r p else t
  else s
/-- ROW_DECISION (R219). -/
def execRowDecision (b : Fin 16) (s : State) : Res := s.act! (s.rowDecision b.val)

/-- Rising crossings of `z` in consecutive rows, each as its instant after FIRST in 2^-16 ns (R228). -/
def crossings (prow : Nat) (z : Int) : Nat → List (Option Int) → List Int
  | r, some a :: some b :: t =>
    let rest := crossings prow z (r + 1) (some b :: t)
    if a < z ∧ z ≤ b then
      roundAway (((r : Rat) + ((z - a : Int) : Rat) / ((b - a : Int) : Rat)) * (prow * pktU : Nat)) :: rest
    else rest
  | r, _ :: t => crossings prow z (r + 1) t
  | _, [] => []

/-- A measurement block (R227, Table 8.4). -/
def State.measBlock (s : State) (b n : Nat) (vals : List RowVal) : List Byte :=
  let ok := vals.filter (fun v => !isInvalid v.2.1)
  let ws := ok.map (fun v => v.1)
  let nv := ok.length
  let mn := ws.foldl min (ws.headD 0)
  let mx := ws.foldl max (ws.headD 0)
  let mean := if nv = 0 then wideInvalid else divAway (ws.foldl (fun a v => a + v) 0) nv
  let q := if nv = 0 then qInvalid else ok.foldl (fun a v => a ||| v.2.1) 0
  let rms := if nv = 0 then 0 else isqrt (ws.foldl (fun a v => a + (v * v).toNat) 0 / nv)
  let z := if s.flag (R.CAP_MEAS_CFG b) F.CAP_MEAS_CFG_ZSRC then mean else (s.reg (R.CAP_MEAS b)).toInt
  let xs := if nv = 0 then [] else
    crossings (s.capRow b) z 0 (vals.map (fun v => if isInvalid v.2.1 then none else some v.1))
  let x0 := xs.headD 0
  let per := if xs.length < 2 then 0 else divAway (xs.getLastD 0 - x0) (xs.length - 1)
  let w := fun (v : Int) => beBytes 4 (wideWord (if nv = 0 then wideInvalid else v))
  beBytes 2 n ++ beBytes 1 q ++ beBytes 1 0 ++ beBytes 2 (min nv 0xFFFF) ++ beBytes 2 (min xs.length 0xFFFF)
    ++ w mn ++ w mx ++ beBytes 4 (if nv = 0 then 0 else (mx - mn).toNat) ++ w mean ++ beBytes 4 rms
    ++ beBytes 8 per.toNat ++ beBytes 4 (wideWord z) ++ beBytes 8 x0.toNat

/-- The header of a record, with its ROW0 and RCRC (R226). -/
def State.capHeader (s : State) (b : Nat) (r : CapRec) (row0 rcrc : Nat) : List Byte :=
  let first := match r.pre with
    | p :: _ => p.name
    | [] => (r.rows.head?.map (fun x => x.name)).getD 0
  beBytes 1 0x20 ++ beBytes 1 s.timeStatus ++ beBytes 1 b ++ beBytes 1 (s.capFmt b + 4 * s.capTap b)
    ++ beBytes 2 s.hubId ++ beBytes 1 r.cause ++ beBytes 1 r.mask ++ ltBytes r.tlt ++ ltBytes first
    ++ beBytes 4 (s.cp b).seq ++ beBytes 2 r.pre.length ++ beBytes 2 (r.rows.length - 1)
    ++ beBytes 2 (s.capEntries b).length ++ beBytes 2 (s.capMeas b).length ++ beBytes 2 r.origin ++ beBytes 2 r.extra
    ++ beBytes 2 r.lost ++ beBytes 1 r.rflags ++ beBytes 1 0 ++ beBytes 8 (s.capRow b) ++ beBytes 2 row0
    ++ beBytes 2 0 ++ beBytes 4 rcrc

/-- The measurement blocks of a record, in list order. -/
def State.capBlocks (s : State) (b : Nat) (r : CapRec) : List Byte :=
  let rows := r.pre ++ r.rows
  let ix := (List.range (s.capEntries b).length).filter (fun e => ((s.capEntries b)[e]?).any (fun p => p.2))
  (ix.map (fun e => s.measBlock b (((s.capEntries b)[e]?).getD (0, false)).1
    (rows.map (fun x => (x.vals[e]?).getD noVal)))).flatten

/-- A row of a slot as it reads (R225, R388). -/
def State.capGetRow (s : State) (b q pos : Nat) : List Byte :=
  s.bytes (s.capSlotAddr b q + s.capHead b + pos * s.capRowLen b) (s.capRowLen b)
/-- The rows of a record in time order, as its slot holds them: the pre-trigger area from ROW0 on, the trigger row and the POST rows. -/
def State.capRowBytes (s : State) (b : Nat) (r : CapRec) (row0 : Nat) : List Byte :=
  let pre := s.capPreN b
  let at' := (List.range r.pre.length).map (fun i => (row0 + i) % max pre 1) ++ (List.range r.rows.length).map (fun j => pre + j)
  (at'.map (s.capGetRow b r.slot)).flatten
/-- The record passes to its consumers (R224 to R227). -/
def State.recordComplete (s : State) (b : Nat) : State :=
  let x := s.cp b
  match x.fin with
  | none => s
  | some r =>
    let blocks := s.capBlocks b r
    let row0 := if r.pre.length < s.capPreN b then 0 else r.row0
    let body := blocks ++ s.capRowBytes b r row0
    let crc := crc32c (s.capHeader b r 0 0 ++ body)
    let bytes := s.capHeader b r 0 crc ++ body
    let s := s.setBytes (s.capSlotAddr b r.slot) (s.capHeader b r row0 crc ++ blocks)
    let seq := x.seq
    let host := s.flag (R.CAP_CFG b) F.CAP_CFG_HOSTC
    let n := max (s.capNrec b) 1
    let s := s.setCp b { x with fin := none, seq := (seq + 1) % 2 ^ 32, slot := (r.slot + 1) % n,
                                done := x.done ++ [⟨r.slot, seq, host⟩],
                                holdLeft := s.fld (R.CAP_CFG b) F.CAP_CFG_HOLDOFF }
    let s := s.setReg (R.CAP_SEQ b) (BitVec.ofNat 32 seq)
    let s := if s.flag (R.CAP_CFG b) F.CAP_CFG_STRC then
        s.route true (s.fld (R.CAP_STR b) F.CAP_STR_STR) 0x20 r.tlt bytes
      else s
    let s := if s.capState b = capPost then
        if s.flag (R.CAP_CFG b) F.CAP_CFG_AUTO then s.setCapState b capHold
        else (s.setCp b { s.cp b with events := [] }).setCapState b capDone
      else s
    s.capFreed b
/-- CAPTURE_RECORD_COMPLETE (R217, R224). -/
def execCaptureRecordComplete (b : Fin 16) (s : State) : Res := s.act! ((s.capSync b.val).recordComplete b.val)

/-- HOLD ends at the first row boundary after HOLDOFF rows (R217). -/
def State.capHoldEnd (s : State) (b : Nat) : State :=
  if s.capState b = capHold ∧ (s.cp b).holdLeft = 0 ∧ (s.cp b).fin = none then s.capRearm b else s
/-- CAPTURE_HOLD_END (R217). -/
def execCaptureHoldEnd (b : Fin 16) (s : State) : Res := s.act! ((s.capSync b.val).capHoldEnd b.val)

/-- A region starts: a buffer that is not IDLE and whose settings break R214 is disarmed (R233). -/
def State.capRegionConflict (s : State) (g : Nat) : State :=
  s.forEach (List.range 16) (fun s b =>
    let s := s.capSync b
    if decide (s.capState b ≠ capIdle) && (s.capChans b).any (fun n => decide (rgnOf n = g)) && s.capRowsBad b then
      (s.capIdleNow b).refuseArm b 4
    else s)

/-- TRIG_IN_EDGE (Table 8.2, R47): a stamped edge on TRIG_IN; without REFCLK there is no stamp (R66). -/
def execTrigInEdge (falling : Bool) (ph : Phase) (s : State) : Res :=
  s.act! (if s.spn.refclk then s.capEvent 8 (b2n falling) (stampOf s.lt ph.val) else s)

/-- A ring trigger arrives (R230, R231). -/
def State.ringTrigger (s : State) (k : Nat) (m : Vc1Msg) : State :=
  let (s, take) := s.takeVc1 k 0x10 m
  let line := m.byte0.val % 8
  if take && (s.fld R.CAP_RING F.CAP_RING_RXEN).testBit line then
    s.acceptRing line (ltOp m.time) m.origin.val
  else s
/-- RING_TRIGGER_RX (R230). -/
def execRingTriggerRx (k : Fin 2) (m : Vc1Msg) (s : State) : Res := s.act! (s.ringTrigger k.val m)

end Sys2Proof.Machine
end

