-- ==== Sys2Proof/Machine/Excite.lean ====
section
/-! DEFINITION. Excitation (sections 3.2 to 3.7): the driver of each cluster, its polarity and settle periods, and the
analogue conditions at its pins. -/
namespace Sys2Proof.Machine

/-- Instances of the die sources and region sources of R81. -/
def refSource : RefPoint → Nat × Nat
  | .die d => (38, d.val)
  | .region g => (39, g.val)
/-- Clusters whose converters a reference serves (R81, R10). -/
def refClusters : RefPoint → List Nat
  | .die d => (List.range 12).map (fun j => 12 * d.val + j)
  | .region g => clusOf g.val

/-- Note in a cluster that a source began in the open window (Table 6.5). -/
def State.onset (s : State) (c src : Nat) : State :=
  s.setCl c { s.cl c with onsets := (s.cl c).onsets ++ [src] }
/-- A cluster condition begins or ends: its episode line and its onset. -/
def State.cluLine (s : State) (src c : Nat) (on : Bool) : State :=
  let s := if on && !s.flt.lines.contains (src, c) then s.onset c src else s
  s.setLine src c on

/-- Setpoint in 10 mV as it acts (R86). -/
def excSetpoint (v : Nat) : Nat := min (max v 50) 500
/-- The driver is on. -/
def State.excOn (s : State) (c : Nat) : Bool := s.flag (R.CLU_EXC_STAT c) F.CLU_EXC_STAT_ON
/-- A ramp is in progress. -/
def State.excRamp (s : State) (c : Nat) : Bool := s.flag (R.CLU_EXC_STAT c) F.CLU_EXC_STAT_RAMP
/-- Polarity in effect. -/
def State.excPol (s : State) (c : Nat) : Bool := s.flag (R.CLU_EXC_STAT c) F.CLU_EXC_STAT_POL_ACT

/-- A settle period of full length opens; a ramp holds it open (R93). -/
def State.settleStart (s : State) (c : Nat) : State :=
  let n := s.actFld (R.CLU_EXC_CTRL c) F.CLU_EXC_CTRL_SETTLE
  s.setCl c { s.cl c with settleLeft := n, settleHeld := s.excRamp c, settleNow := s.excRamp c || decide (0 < n), settleNo := (s.cl c).settleNo + 1 }

/-- The boundary a cluster's changes combine at (R92): the excitation as it is now. -/
def State.excOpen (s : State) (c : Nat) : State :=
  let x := s.cl c
  s.setCl c { x with bound :=
    { on := s.excOn c, ramp := s.excRamp c, pol := s.excPol c,
      vset := excSetpoint (s.actFld (R.CLU_EXC_SET c) F.CLU_EXC_SET_VSET), altCount := x.altCount, settleLeft := x.settleLeft,
      settleHeld := x.settleHeld, settleNow := x.settleNow, settleNo := x.settleNo, written := false, auto := false } }

/-- The driver's new state at the boundary (R90 to R92): ON, RAMP and POL_ACT from what the boundary found and the settings in
effect. EN = 0 turns the driver off; POL_ACT follows POL also while the driver is off (log 67). An enable or a restart ramps from
0 V. A new setpoint ramps, but one that falls together with a reversal is reached in the reversal. -/
def excNext (b : ExcBound) (en shut pol : Bool) (vset : Nat) : Bool × Bool × Bool :=
  if !en || shut then (false, false, pol)
  else if !b.on then (true, true, pol)
  else (true, b.ramp || (decide (vset ≠ b.vset) && (pol == b.pol || decide (b.vset < vset))), pol)
/-- The boundary changes the excitation of a driver that is on (R93): an enable, a restart, a change of VSET or of polarity. -/
def excChanged (b : ExcBound) (on pol : Bool) (vset : Nat) : Bool :=
  on && (!b.on || pol != b.pol || decide (vset ≠ b.vset))
/-- A driver that is off neither limits nor drops out, and regulates nothing (R87 to R90). -/
def State.excOff (s : State) (c : Nat) : State :=
  let a := R.CLU_EXC_STAT c
  let s := (((s.setFlag a F.CLU_EXC_STAT_ON false).setFlag a F.CLU_EXC_STAT_RAMP false).setFlag a
    F.CLU_EXC_STAT_ILIM false).setFlag a F.CLU_EXC_STAT_DROP false
  ((s.setLine 32 c false).setLine 34 c false).setLine 36 c false
/-- Bring the driver to the settings that the boundary's changes leave (R90 to R93): writes, sequencer actions and the automatic
reversal make one transition. `run` says that the region opens a window here, so that a settle period begins. -/
def State.excResolve (s : State) (c : Nat) (run : Bool) : State :=
  let a := R.CLU_EXC_STAT c
  let b := (s.cl c).bound
  let vset := excSetpoint (s.actFld (R.CLU_EXC_SET c) F.CLU_EXC_SET_VSET)
  let en := s.actFlag (R.CLU_EXC_CTRL c) F.CLU_EXC_CTRL_EN
  let nx := excNext b en (s.flag a F.CLU_EXC_STAT_SHUT) (s.actFlag (R.CLU_EXC_CTRL c) F.CLU_EXC_CTRL_POL) vset
  let s := ((s.setFlag a F.CLU_EXC_STAT_ON nx.1).setFlag a F.CLU_EXC_STAT_RAMP nx.2.1).setFlag a F.CLU_EXC_STAT_POL_ACT nx.2.2
  let s := if nx.1 then s else s.excOff c
  let s := s.setCl c { s.cl c with
    altCount := if b.written || b.auto then 0 else b.altCount,
    settleLeft := b.settleLeft, settleHeld := b.settleHeld, settleNow := b.settleNow, settleNo := b.settleNo }
  if run && excChanged b nx.1 nx.2.2 vset then s.settleStart c else s

/-- POL takes a value at the boundary by a write or a sequencer action (R92): a value other than the one it holds counts as written, and
the automatic reversal of the boundary is not made. -/
def State.excPolSet (s : State) (c : Nat) (p : Bool) : State :=
  let b := (s.cl c).bound
  let held := s.actFlag (R.CLU_EXC_CTRL c) F.CLU_EXC_CTRL_POL != (b.auto && !b.written)
  if p = held then s
  else (s.setCl c { s.cl c with bound := { b with written := true } }).setActFld (R.CLU_EXC_CTRL c) F.CLU_EXC_CTRL_POL (b2n p)
/-- A register write of the excitation block is applied: CLR_SHUT clears a shutdown (R89); an ALT_PER that was 0 begins its count (R91;
log 68). -/
def State.excWrite (s : State) (a : Nat) (v : Word) : State :=
  let c := (a - 0x00100000) / 0x1000
  if a % 0x1000 = 0 then
    let begins := decide (s.actFld a F.CLU_EXC_CTRL_ALT_PER = 0 ∧ bitsOf v.toNat 31 24 ≠ 0)
    let s := s.excPolSet c (v.toNat.testBit 2)
    let s := if begins then s.setCl c { s.cl c with bound := { (s.cl c).bound with altCount := 0 } } else s
    let s := s.setAct a (BitVec.ofNat 32 (putBits (putBits v.toNat 5 5 0) 2 2 (s.actFld a F.CLU_EXC_CTRL_POL)))
    if v.toNat.testBit 5 then (s.setFlag (R.CLU_EXC_STAT c) F.CLU_EXC_STAT_SHUT false).setLine 33 c false else s
  else s.setAct a v

/-- A field of the excitation set by the hub itself: it shows the new value unless a write of its register waits, which stays shown (R92). -/
def State.excShow (s : State) (a : Nat) (f : Fld) (v : Nat) : State := if s.feWaiting a then s else s.setFld a f v
/-- One sequencer action for the boundary (Table 5.2): kind 0 sets VSET, 1 sets POL, 2 inverts the polarity in effect.
The register fields show what the action sets. -/
def State.excSeq (s : State) (c kind v : Nat) : State :=
  if kind = 0 then
    (s.setActFld (R.CLU_EXC_SET c) F.CLU_EXC_SET_VSET v).excShow (R.CLU_EXC_SET c) F.CLU_EXC_SET_VSET v
  else
    let b := (s.cl c).bound
    let pol := if b.written then s.excPol c else b.pol
    let p := if kind = 1 then decide (v % 2 = 1) else !pol
    let s := s.excPolSet c p
    s.excShow (R.CLU_EXC_CTRL c) F.CLU_EXC_CTRL_POL (s.actFld (R.CLU_EXC_CTRL c) F.CLU_EXC_CTRL_POL)

/-- The closing window is counted in its settle period; one held open by a ramp that has ended starts to count (R93). -/
def State.settleTick (s : State) (c : Nat) : State :=
  let x := s.cl c
  if x.settleHeld then (if s.excRamp c then s else s.setCl c { x with settleHeld := false })
  else s.setCl c { x with settleLeft := x.settleLeft - 1 }

/-- At a region start a settle period opens only in a cluster whose ramp still runs (R93). DESIGN CHOICE: a period that was running when the
region stopped is dropped (log 102), and the count of windows between automatic reversals begins there (R91; log 68). -/
def State.excStart (s : State) (c : Nat) : State :=
  let s := s.setCl c { s.cl c with settleLeft := 0, settleHeld := false, settleNow := false, altCount := 0, onsets := [] }
  (if s.excRamp c then s.settleStart c else s).excOpen c

/-- REFERENCE_DEVIATION (R81): the reference of a die or the buffer of a region deviates, or ceases to. -/
def execReferenceDeviation (p : RefPoint) (on : Bool) (s : State) : Res :=
  s.act! (
    let (src, i) := refSource p
    let was := s.flt.lines.contains (src, i)
    let s := if on && !was then s.forEach (refClusters p) (fun s c => s.onset c src)
      else if !on && was then s.forEach (refClusters p) (fun s c => s.onset c (src + 1000)) else s
    s.setLine src i on)

/-- SENSE_OPEN (R87): with remote sense an open line sets SOPEN and raises source 35. -/
def execSenseOpen (c : Fin 48) (on : Bool) (s : State) : Res :=
  s.act! (
    let on := on && !s.actFlag (R.CLU_EXC_CTRL c.val) F.CLU_EXC_CTRL_SENSE
    (s.setFlag (R.CLU_EXC_STAT c.val) F.CLU_EXC_STAT_SOPEN on).cluLine 35 c.val on)

/-- EXC_REGULATION_FAULT (R87): |V_s| outside 1 % of its setpoint for 10 ms while the driver is on and not limiting. -/
def execExcRegulationFault (c : Fin 48) (on : Bool) (s : State) : Res :=
  s.act! (s.cluLine 36 c.val (on && s.excOn c.val && !s.flag (R.CLU_EXC_STAT c.val) F.CLU_EXC_STAT_ILIM))

/-- EXC_DROPOUT (R88): headroom below 0.6 V sets DROP and raises source 34. -/
def execExcDropout (c : Fin 48) (on : Bool) (s : State) : Res :=
  s.act! (
    let on := on && s.excOn c.val
    (s.setFlag (R.CLU_EXC_STAT c.val) F.CLU_EXC_STAT_DROP on).cluLine 34 c.val on)

/-- VEXC_LOW (R88): VEXC[g] below 1.0 V while a cluster of the region is enabled. DESIGN CHOICE (log 103): ON and RAMP stay as they are while
VEXC is absent, and its return begins no soft start; R90 names none. -/
def execVexcLow (g : Fin 8) (on : Bool) (s : State) : Res :=
  s.act! (s.setLine 37 g.val
    (on && (clusOf g.val).any (fun c => s.actFlag (R.CLU_EXC_CTRL c) F.CLU_EXC_CTRL_EN)))

/-- EXC_CURRENT_LIMIT (R89): whether the current limit is active now, and whether it has been for 1 ms without a break, which raises source 32
and counts in LIMCNT. -/
def execExcCurrentLimit (c : Fin 48) (l : Limiting) (s : State) : Res :=
  s.act! (
    let on := decide (l ≠ .off) && s.excOn c.val
    let a := R.CLU_EXC_STAT c.val
    let begins := on && decide (l = .long) && !s.flt.lines.contains (32, c.val)
    let s := if begins then s.bump a F.CLU_EXC_STAT_LIMCNT else s
    let s := s.setFlag a F.CLU_EXC_STAT_ILIM on
    if begins then s.setLine 32 c.val true else if on then s else s.setLine 32 c.val false)

/-- EXC_SHUTDOWN (R89): limiting for ILIM_T ms shuts the driver down; ILIM_T = 0 disables the shutdown. -/
def execExcShutdown (c : Fin 48) (s : State) : Res :=
  s.act! (
    let a := R.CLU_EXC_STAT c.val
    if s.excOn c.val && s.flag a F.CLU_EXC_STAT_ILIM && s.flt.lines.contains (32, c.val)
        && decide (s.actFld (R.CLU_EXC_CTRL c.val) F.CLU_EXC_CTRL_ILIM_T ≠ 0) then
      (((s.excOff c.val).setFlag a F.CLU_EXC_STAT_SHUT true).cluLine 33 c.val true).excOpen c.val
    else s)

/-- The automatic reversal at the boundary at which ALT_PER windows have passed (R91, R92). DESIGN CHOICE (log 69): a change of ALT_PER keeps
the count. A write of POL that waits for its boundary stays shown, and a POL written for this boundary stands in its place. A write of
EN = 0 for the boundary overrides the reversal (R92). DESIGN CHOICE (log 104): it then falls due at the next boundary, and none is
made at the boundary at which the region stops. -/
def State.autoReverse (s : State) (c : Nat) : State :=
  let g := c / 6
  let per := s.actFld (R.CLU_EXC_CTRL c) F.CLU_EXC_CTRL_ALT_PER
  let b := (s.cl c).bound
  let ends := b.on && !s.actFlag (R.CLU_EXC_CTRL c) F.CLU_EXC_CTRL_EN
  if s.runs g && decide (per ≠ 0) && decide (per ≤ b.altCount) && !b.written && !b.auto && !ends then
    let p := !b.pol
    let s := s.setCl c { s.cl c with bound := { b with auto := true } }
    let s := s.setActFld (R.CLU_EXC_CTRL c) F.CLU_EXC_CTRL_POL (b2n p)
    (s.excShow (R.CLU_EXC_CTRL c) F.CLU_EXC_CTRL_POL (b2n p)).excResolve c true
  else s
/-- EXC_AUTO_REVERSAL (R91). -/
def execExcAutoReversal (c : Fin 48) (s : State) : Res := s.act! (s.autoReverse c.val)

/-- EXC_RAMP_END (R90, R93): RAMP clears; the settle period counts from the next boundary. -/
def execExcRampEnd (c : Fin 48) (s : State) : Res :=
  s.act! ((s.setFlag (R.CLU_EXC_STAT c.val) F.CLU_EXC_STAT_RAMP false).setCl c.val
    { s.cl c.val with bound := { (s.cl c.val).bound with ramp := false } })

/-- SETTLE_PERIOD_END (R93): a period that has run out sets SETTLE no longer. -/
def execSettlePeriodEnd (c : Fin 48) (s : State) : Res :=
  s.act! (
    let x := s.cl c.val
    if !x.settleHeld && decide (x.settleLeft = 0) then
      s.setCl c.val { x with settleNow := false, bound := { x.bound with settleNow := false } }
    else s)

/-- EXC_MEAS_UPDATE (R94): the means of the last millisecond, in the units of Table 3.8. -/
def execExcMeasUpdate (c : Fin 48) (imeas vsense vdrive vhead : Fin 65536) (s : State) : Res :=
  s.act! ((s.setReg (R.CLU_EXC_MEAS c.val) (BitVec.ofNat 32 (imeas.val * 65536 + vsense.val))).setReg
    (R.CLU_EXC_MEAS2 c.val) (BitVec.ofNat 32 (vdrive.val * 65536 + vhead.val)))

end Sys2Proof.Machine
end

