-- ==== Sys2Proof/Machine/Sequencer.lean ====
section
/-! DEFINITION. The region sequencer (section 5.1): its table, the execution of each operation, its delays, waits and
loops. -/
namespace Sys2Proof.Machine

/-- Current entry. -/
def State.seqPc (s : State) (g : Nat) : Nat := s.fld (R.RGN_SEQ_STAT g) F.RGN_SEQ_STAT_PC
def State.seqRep (s : State) (g i : Nat) : Nat := s.fld (R.RGN_SEQ_ENT g i) F.RGN_SEQ_ENT_REP
def State.seqDly (s : State) (g i : Nat) : Nat := s.fld (R.RGN_SEQ_ENT g i) F.RGN_SEQ_ENT_DLY
def State.seqOp (s : State) (g i : Nat) : Nat := s.fld (R.RGN_SEQ_ENT_HI g i) F.RGN_SEQ_ENT_HI_OP
def State.seqTgt (s : State) (g i : Nat) : Nat := s.fld (R.RGN_SEQ_ENT_HI g i) F.RGN_SEQ_ENT_HI_TGT
def State.seqArg (s : State) (g i : Nat) : Nat := s.fld (R.RGN_SEQ_ENT_HI g i) F.RGN_SEQ_ENT_HI_ARG
/-- The TGT of an entry lies in the range its operation allows, and its OP is not reserved (Table 5.2). -/
def State.seqValid (s : State) (g i : Nat) : Bool :=
  let op := s.seqOp g i
  let t := s.seqTgt g i
  decide (op ≤ 13)
    && (if op = 2 then decide (t ≤ 15) else if op = 3 then decide (t ≤ 53)
        else if op = 4 ∨ op = 5 then decide (t ≤ 47)
        else if op = 9 ∨ op = 10 then decide (t ≤ 5) || decide (t = 0xFF) else true)

/-- The sequencer is due to act at the present boundary (R128, R131). -/
def State.seqDue (s : State) (g : Nat) : Bool :=
  s.runs g && (s.rg g).started && !(s.rg g).delaying
/-- Sequencer states of RGN_SEQ_STAT. -/
def State.setSeqState (s : State) (g v : Nat) : State := s.setFld (R.RGN_SEQ_STAT g) F.RGN_SEQ_STAT_STATE v

/-- The sequencer stands: state 0, waiting for no room in the queue. -/
def State.seqStand (s : State) (g : Nat) : State := (s.setFlag (R.RGN_SEQ_STAT g) F.RGN_SEQ_STAT_QWAIT false).setSeqState g 0

/-- Move to an entry after the delay of the entry executed: with DLY = 0 at the same boundary (R131). -/
def State.seqGoto (s : State) (g i dst : Nat) : State :=
  let d := s.seqDly g i
  let s := s.setFld (R.RGN_SEQ_STAT g) F.RGN_SEQ_STAT_PC (dst % 256)
  (s.setRg g { s.rg g with delay := d, delaying := decide (d ≠ 0) }).setSeqState g 1
/-- One execution of an entry is done: it repeats, or the next entry follows (R131). -/
def State.seqDone (s : State) (g i : Nat) : State :=
  let k := (s.rg g).reps + 1
  if k < s.seqRep g i then (s.setRg g { s.rg g with reps := k }).seqGoto g i i
  else (s.setRg g { s.rg g with reps := 0 }).seqGoto g i (i + 1)
/-- A wait is over: the next entry follows; REP is ignored (R131). -/
def State.seqWaitDone (s : State) (g i : Nat) : State := s.seqGoto g i (i + 1)

/-- Perform an execution of the current entry if it is operation `op`: at most 16 at one boundary, a further one moves
to the next and counts in SPILL (R131). -/
def State.seqExec (s : State) (g op : Nat) (f : State → Nat → State) : State :=
  let i := s.seqPc g
  let x := s.rg g
  if !s.seqDue g || decide (s.seqOp g i ≠ op) || !s.seqValid g i then s
  else if x.execs < 16 then f (s.setRg g { x with execs := x.execs + 1 }) i
  else if x.execs = 16 then (s.setRg g { x with execs := 17 }).bump (R.RGN_SEQ_STAT g) F.RGN_SEQ_STAT_SPILL
  else s

/-- Clear RUN and stop at this entry (R130). -/
def State.seqHalt (s : State) (g : Nat) : State :=
  let s := (s.setFlag (R.RGN_SEQ_CTRL g) F.RGN_SEQ_CTRL_RUN false).setSeqState g 0
  let s := s.setActFld (R.RGN_SEQ_CTRL g) F.RGN_SEQ_CTRL_RUN 0
  s.setRg g { s.rg g with started := false, stopReq := false, reps := 0, delaying := false, delay := 0 }

/-- The execution waits: it is tried again at the next boundary (R131, R136). -/
def State.seqWait (s : State) (g : Nat) : State := (s.setRg g { s.rg g with execs := 17 }).setSeqState g 2

/-- The queue has room, or an operation that merges, as the sequencer sees it: room counts once it has been there for 2 us (R128). -/
def State.seqRoom (s : State) (g : Nat) (o : SteadyOp) : Bool :=
  let x := s.rg g
  x.queue.any (fun q => q.merges o)
    || decide (x.queue.length + (x.gone.filter (fun t => decide (x.edge < t + 2000 * nsU))).length < 16)
/-- Queue an operation, or wait for room with QWAIT (R136). -/
def State.seqQueue (s : State) (g i : Nat) (o : SteadyOp) (moved : State → State) : State :=
  let (s', ok) := s.queueOp o
  if ok && s.seqRoom g o then ((moved s').setFlag (R.RGN_SEQ_STAT g) F.RGN_SEQ_STAT_QWAIT false).seqDone g i
  else (s.setFlag (R.RGN_SEQ_STAT g) F.RGN_SEQ_STAT_QWAIT true).seqWait g

/-- HALT (Table 5.2, 0x00). -/
def execHalt (g : Fin 8) (s : State) : Res :=
  s.act! (s.seqExec g.val 0 (fun s i =>
    (s.seqHalt g.val).seqEvent g.val evHalt 0 0 i 0 (s.rg g.val).edge))
/-- NOP (Table 5.2, 0x01). -/
def execNop (g : Fin 8) (s : State) : Res := s.act! (s.seqExec g.val 1 (fun s i => s.seqDone g.val i))
/-- WAIT_CMP (Table 5.2, 0x02; R133): ends at the first boundary at which its bit has been set for 2 us. -/
def execWaitCmp (g : Fin 8) (s : State) : Res :=
  s.act! (s.seqExec g.val 2 (fun s i =>
    let m := s.seqTgt g.val i
    let a := R.RGN_SEQ_CMPL g.val
    let bits := s.fld a F.RGN_SEQ_CMPL_CMPL
    if bits.testBit m ∧ tabGet (fun _ => 0) (s.rg g.val).cmplAt m + 2000 * nsU ≤ (s.rg g.val).edge then
      (s.setFld a F.RGN_SEQ_CMPL_CMPL (putBits bits m m 0)).seqWaitDone g.val i
    else s.seqWait g.val))
/-- CAL (Table 5.2, 0x03): channel l, or spare TGT - 48. -/
def execCal (g : Fin 8) (s : State) : Res :=
  s.act! (s.seqExec g.val 3 (fun s i =>
    let t := s.seqTgt g.val i
    s.seqQueue g.val i (if t < 48 then ⟨.cal, 48 * g.val + t, 5, i, false⟩ else ⟨.sprCal, 6 * g.val + (t - 48), 5, i, true⟩)
      id))
/-- IMP (Table 5.2, 0x04). -/
def execImp (g : Fin 8) (s : State) : Res :=
  s.act! (s.seqExec g.val 4 (fun s i => s.seqQueue g.val i ⟨.imp, 48 * g.val + s.seqTgt g.val i, 5, i, false⟩ id))
/-- CALIMP (Table 5.2, 0x05). -/
def execCalimp (g : Fin 8) (s : State) : Res :=
  s.act! (s.seqExec g.val 5 (fun s i => s.seqQueue g.val i ⟨.calimp, 48 * g.val + s.seqTgt g.val i, 5, i, false⟩ id))

/-- A NEXT operation (R134): the first enabled position at or after POS, which then moves past it. -/
def State.seqNext (s : State) (g i : Nat) (kind : OpKind) (spares : Bool) : State :=
  let len := s.rotLen g
  match s.rotNext g len (s.fld (R.RGN_SEQ_ROT g) F.RGN_SEQ_ROT_POS) spares with
  | none => s.seqDone g i
  | some p => s.seqQueue g i (rotOp g p kind 5 i) (fun s => s.setFld (R.RGN_SEQ_ROT g) F.RGN_SEQ_ROT_POS ((p + 1) % len))
/-- CAL_NEXT (Table 5.2, 0x06). -/
def execCalNext (g : Fin 8) (s : State) : Res := s.act! (s.seqExec g.val 6 (fun s i => s.seqNext g.val i .cal true))
/-- IMP_NEXT (Table 5.2, 0x07). -/
def execImpNext (g : Fin 8) (s : State) : Res := s.act! (s.seqExec g.val 7 (fun s i => s.seqNext g.val i .imp false))
/-- CALIMP_NEXT (Table 5.2, 0x08). -/
def execCalimpNext (g : Fin 8) (s : State) : Res :=
  s.act! (s.seqExec g.val 8 (fun s i => s.seqNext g.val i .calimp false))

/-- Clusters an excitation operation names. -/
def excTargets (g t : Nat) : List Nat := if t = 0xFF then clusOf g else [6 * g + t]
/-- Apply an excitation operation at the present boundary (R92). -/
def State.seqExcite (s : State) (g i kind v : Nat) : State :=
  (s.forEach (excTargets g (s.seqTgt g i)) (fun s c => (s.excSeq c kind v).excResolve c true)).seqDone g i
/-- EXC_SET (Table 5.2, 0x09). -/
def execExcSet (g : Fin 8) (s : State) : Res :=
  s.act! (s.seqExec g.val 9 (fun s i => s.seqExcite g.val i 0 (s.seqArg g.val i % 512)))
/-- EXC_POL (Table 5.2, 0x0A): ARG[0] is the polarity, or ARG[1] inverts the one in effect. -/
def execExcPol (g : Fin 8) (s : State) : Res :=
  s.act! (s.seqExec g.val 10 (fun s i =>
    s.seqExcite g.val i (if (s.seqArg g.val i).testBit 1 then 2 else 1) (s.seqArg g.val i % 2)))
/-- MARK (Table 5.2, 0x0B). -/
def execMark (g : Fin 8) (s : State) : Res :=
  s.act! (s.seqExec g.val 11 (fun s i =>
    (s.seqEvent g.val evMark 0 (s.seqArg g.val i) i 0 (s.rg g.val).edge).seqDone g.val i))
/-- JUMP (Table 5.2, 0x0C; R132): `loops` holds 0 for an idle counter, else its value plus one. -/
def execJump (g : Fin 8) (s : State) : Res :=
  s.act! (s.seqExec g.val 12 (fun s i =>
    let rep := s.seqRep g.val i
    let tgt := s.seqArg g.val i % 256
    let x := s.rg g.val
    if rep = 0 then s.seqGoto g.val i tgt
    else
      let c := match tabGet (fun _ => 0) x.loops i with
        | 0 => rep
        | k + 1 => k
      if 0 < c then (s.setRg g.val { x with loops := tabPut (fun _ => 0) x.loops i c }).seqGoto g.val i tgt
      else (s.setRg g.val { x with loops := tabPut (fun _ => 0) x.loops i 0 }).seqGoto g.val i (i + 1)))
/-- WAIT_IDLE (Table 5.2, 0x0D): the region has had no queued or running operation for 2 us (R128). -/
def execWaitIdle (g : Fin 8) (s : State) : Res :=
  s.act! (s.seqExec g.val 13 (fun s i =>
    let x := s.rg g.val
    if x.queue = [] ∧ x.running = [] ∧ x.idleAt + 2000 * nsU ≤ x.edge then s.seqWaitDone g.val i else s.seqWait g.val))

/-- SEQ_INVALID_ENTRY (R130): RUN clears, ERR, ERRIDX, source 72 and a HALT event. -/
def execSeqInvalidEntry (g : Fin 8) (s : State) : Res :=
  s.act! (
    let i := s.seqPc g.val
    if s.seqDue g.val && !s.seqValid g.val i then
      let s := s.seqHalt g.val
      let s := (s.setFlag (R.RGN_SEQ_STAT g.val) F.RGN_SEQ_STAT_ERR true).setFld (R.RGN_SEQ_STAT g.val)
        F.RGN_SEQ_STAT_ERRIDX i
      (s.raise 72 g.val).seqEvent g.val evHalt 0 1 i 0 (s.rg g.val).edge
    else s)

/-- SEQ_DELAY_EXPIRY (R131): DLY converted boundaries have passed. -/
def execSeqDelayExpiry (g : Fin 8) (s : State) : Res :=
  s.act! (
    let x := s.rg g.val
    if s.runs g.val && x.delaying && decide (x.delay = 0) then s.setRg g.val { x with delaying := false } else s)

/-- A stop of the sequencer that was asked for takes effect (R135). -/
def State.seqStopped (s : State) (g : Nat) : State :=
  if (s.rg g).stopReq then (s.setRg g { s.rg g with started := false, stopReq := false, delaying := false }).seqStand g else s
/-- The sequencer at a boundary of its region (R128, R135): a start that is due, a stop, the delay, the count of
executions. -/
def State.seqEdge (s : State) (g lt : Nat) : State :=
  let x := s.rg g
  let run := s.actFlag (R.RGN_SEQ_CTRL g) F.RGN_SEQ_CTRL_RUN
  let s := s.setRg g { x with execs := 0, delay := x.delay - 1, gone := x.gone.filter (fun t => decide (lt < t + 2000 * nsU)) }
  let s := s.seqStopped g
  if run && !(s.rg g).started && decide (x.startAfter ≤ lt) then
    let s := s.setRg g { s.rg g with started := true, reps := 0, delay := 0, delaying := false }
    (s.setFld (R.RGN_SEQ_STAT g) F.RGN_SEQ_STAT_PC (s.actFld (R.RGN_SEQ_CTRL g) F.RGN_SEQ_CTRL_START_IDX)).setSeqState g 1
  else s

/-- What a write of RGN_SEQ_CTRL does at the die (R135). -/
def State.seqRun (s : State) (g : Nat) (v : Word) : State :=
  let x := s.rg g
  let was := s.actFlag (R.RGN_SEQ_CTRL g) F.RGN_SEQ_CTRL_RUN
  let now := v.toNat.testBit 0
  let s := s.setAct (R.RGN_SEQ_CTRL g) v
  if !was && now then
    (s.setRg g { x with started := false, stopReq := false, startAfter := s.lt + 2000 * nsU, loops := [], cmplAt := [] }).setFld
      (R.RGN_SEQ_CMPL g) F.RGN_SEQ_CMPL_CMPL 0
  else if was && !now then
    if s.runs g then s.setRg g { x with stopReq := true }
    else (s.setRg g { x with started := false, stopReq := false, delaying := false }).seqStand g
  else s
/-- The table of a region counts as idle (R135). -/
def State.seqIdle (s : State) (g : Nat) : Bool := !s.actFlag (R.RGN_SEQ_CTRL g) F.RGN_SEQ_CTRL_RUN && !(s.rg g).started

end Sys2Proof.Machine
end

