-- ==== Sys2Proof/Machine/Window.lean ====
section
/-! DEFINITION. Windows and the HD intake (sections 1.2, 4.1 to 4.3, 6.1 and 6.4): the boundary of a region, window
results, the deadline, open wires and the quality byte. -/
namespace Sys2Proof.Machine

/-- pi in units of 2^-80. -/
def piFix : Int := 3797952473636338580787993
/-- Sine of `r` / 5000 x pi for 0 <= r <= 2500, in units of 2^-80, by its power series (log 14). -/
def sinQuarter (r : Nat) : Int :=
  let x : Int := r * piFix / 5000
  let step := fun (a : Int × Int) (k : Nat) =>
    let t := -(a.2 * x / 2 ^ 80 * x / 2 ^ 80) / (((2 * k + 2) * (2 * k + 3) : Nat) : Int)
    (a.1 + t, t)
  ((List.range 16).foldl step (x, x)).1
/-- Sine of the tone at a packet after its start: one period is 10,000 packets (R167). -/
def toneSin (p : Nat) : Int :=
  let r := p % 2500
  match p / 2500 % 4 with
  | 0 => sinQuarter r
  | 1 => sinQuarter (2500 - r)
  | 2 => -sinQuarter r
  | _ => -sinQuarter (2500 - r)
def toneCos (p : Nat) : Int := toneSin (p + 2500)

/-- Mean of the tone over a window, in Wide LSB (R168): the last usable R and X, 1 uA peak, the channel's full scale. -/
def State.toneMean (s : State) (n openLt closeLt npk : Nat) : Rat :=
  match s.opOf n, (s.ch n).usable with
  | some r, some z =>
    if r.op.kind.hasImp && [OpStage.cover, OpStage.watch].contains r.stage && decide (npk ≠ 0) then
      let t0 := r.startLt + 2400 * pktU
      let a := max openLt t0
      let b := min closeLt (t0 + 100000 * pktU)
      if a < b then
        let pa := (a - t0) / pktU
        let pb := (b - t0) / pktU
        let rm : Int := z.1
        let xm : Int := z.2
        let integ : Rat := (((rm * (toneCos pa - toneCos pb) + xm * (toneSin pb - toneSin pa)) * 5000 : Int) : Rat)
          / (piFix : Rat)
        let vset := if s.actFlag (R.CH_AIN n) F.CH_AIN_REF then
            excSetpoint (s.actFld (R.CLU_EXC_SET (cluOf n)) F.CLU_EXC_SET_VSET) else 250
        -- milliohm x 1 uA = 1e-9 V; full scale = vset x 10 mV / gain
        integ / (npk : Nat) * ((2 ^ s.gainOf n * 2147483648 : Nat) : Rat) / ((vset * 10000000 : Nat) : Rat)
      else 0
    else 0
  | _, _ => 0

/-- The Wide value of a count and a residue (R105) before its saturation. -/
def wideRaw (count : Int) (resid npk : Nat) : Int :=
  roundAway ((((count * 4096 + (resid : Int) - 8192) * 655360 : Int) : Rat) / ((max npk 1 : Nat) : Rat))

/-- The deadline of R27 lies 45 us after the closing edge. -/
def resultTime : Nat := 45000 * nsU
/-- The ratiometric reference of a channel was undefined in the closing window (R82). -/
def State.refUndef (s : State) (n : Nat) (o : Option ConvObs) : Bool :=
  s.actFlag (R.CH_AIN n) F.CH_AIN_REF && (!s.excOn (cluOf n) || o.any (fun o => o.refLow))
/-- What the closing window of a channel will be judged by (R162, R172): the settings it was converted with, and whether its converter saw
a clamp or a pin out of range, which set its OVR (R79, R101). -/
def State.expectOf (s : State) (n openLt closeLt npk wseq : Nat) (obs : List ConvObs) (k : Option Nat) : Expect :=
  let c := cluOf n
  let g := rgnOf n
  let ref := s.actFlag (R.CH_AIN n) F.CH_AIN_REF
  let pf := s.actFlag (R.CH_AIN n) F.CH_AIN_PFOLLOW
  let on := (s.cl c).onsets
  let o := k.bind (fun k => obs.find? (fun o => decide (o.conv.val = k)))
  let m := s.matchOf n
  let line := fun (src i : Nat) => s.flt.lines.contains (src, i)
  { conv := k.getD 0xFFFF, chan := n, wseq := wseq, npk := npk, openLt := openLt, closeLt := closeLt, due := closeLt + resultTime, delivers := true,
    evt := s.inBurst n, spol := s.actFld (R.CH_HLT_CFG n) F.CH_HLT_CFG_SPOL,
    negate := pf && s.excPol c, undef := s.refUndef n o,
    settle := (s.cl c).settleNow, period := (s.cl c).settleNo,
    suspect := ((ref || pf) && [33, 34, 35, 36].any (fun x => on.contains x)) || on.contains 38 || on.contains 39,
    subst := k.any isSpare, caldue := (s.ch n).overdue,
    refBad := !ref && (line 38 (dieOf g) || line 39 g || [38, 39, 1038, 1039].any (fun x => on.contains x)),
    mo := m.2, mg := m.1, tone := s.toneMean n openLt closeLt npk,
    ovr := o.any (fun o => o.clamp || o.pinOut),
    owen := decide (s.actFld (R.CH_AIN n) F.CH_AIN_BIAS ≠ 0) && s.actFlag (R.CH_HLT_CFG n) F.CH_HLT_CFG_OW_EN }

/-- A converter converts a window: INTB is compared within a run of windows (R104). DESIGN CHOICE (log 105): a run is broken by any window of
the region that the converter does not convert. -/
def State.convRan (s : State) (k wseq : Nat) : State :=
  let x := s.cv k
  let same := x.lastWin = some ((wseq + 2 ^ 32 - 1) % 2 ^ 32)
  s.setCv k { x with lastWin := some wseq, lastIntb := if same then x.lastIntb else none }

/-- What the delivering converter of a channel saw in the closing window, as sources: a pin out of range, a reference too low, a clamp
(R79, R82, R101). -/
def State.closeSees (s : State) (n : Nat) (obs : List ConvObs) : List Nat :=
  if s.evtMode n && !s.inBurst n then []
  else
    let k := s.delivers n
    let o := k.bind (fun k => obs.find? (fun o => decide (o.conv.val = k)))
    (if o.any (fun o => o.pinOut) then [40] else []) ++ (if k.isSome && s.refUndef n o then [41] else [])
      ++ (if o.any (fun o => o.clamp) then [88] else [])
/-- The events of a closing boundary, by rising source and instance (R387). -/
def State.closeEvents (s : State) (g : Nat) (obs : List ConvObs) : List (Nat × Nat) :=
  let seen := (chansOf g).map (fun n => (n, s.closeSees n obs))
  [40, 41, 88].flatMap (fun src => (seen.filter (fun x => x.2.contains src)).map (fun x => (src, x.1)))
/-- The closing window of a channel: its result is expected, and CMERR and RLOW show what its converter saw (R79, R82). -/
def State.closeChan (s : State) (n openLt closeLt npk wseq : Nat) (obs : List ConvObs) : State :=
  if s.evtMode n && !s.inBurst n then s
  else
    let k := s.delivers n
    let e := s.expectOf n openLt closeLt npk wseq obs k
    let second := match s.opOf n with
      | some r => match r.stage with
        | .overlap => r.spare.map spareOf
        | .handback => some r.unit
        | _ => none
      | none => none
    let extra := (second.toList.filter (fun k => !(s.cv k).stopped)).map
      (fun k => { e with conv := k, delivers := false })
    let s := s.setCh n { s.ch n with expects := (s.ch n).expects ++ [e] ++ extra }
    let s := s.forEach (k.toList ++ extra.map (fun e => e.conv)) (fun s k => s.convRan k wseq)
    let o := k.bind (fun k => obs.find? (fun o => decide (o.conv.val = k)))
    let pin := o.any (fun o => o.pinOut)
    let low := k.isSome && e.undef
    (s.setFlag (R.CH_AIN_STAT n) F.CH_AIN_STAT_CMERR pin).setFlag (R.CH_AIN_STAT n) F.CH_AIN_STAT_RLOW low

/-- A register write reaches effect on a die (R39): excitation, inputs, event mode and trims. -/
def State.feApply (s : State) (a : Nat) (v : Word) : State :=
  if a < 0x00200000 then s.excWrite a v
  else if 0x01000000 ≤ a ∧ a < 0x01800000 then
    let n := (a - 0x01000000) / 0x400
    let o := a % 0x400
    if o = 0 then
      let s := s.setAct a v
      let st := R.CH_AIN_STAT n
      let s := s.setFld st F.CH_AIN_STAT_GAIN_ACT (s.actFld a F.CH_AIN_GAIN)
      let s := s.setFld st F.CH_AIN_STAT_REF_ACT (s.actFld a F.CH_AIN_REF)
      let s := s.setFld st F.CH_AIN_STAT_BIAS_ACT (s.actFld a F.CH_AIN_BIAS)
      s.setFlag st F.CH_AIN_STAT_PEND (s.feWaiting a)
    else if 0x010 ≤ o ∧ o < 0x01C then s.evtWrite n a v
    else s.setAct a v
  else s.setAct a v

/-- The writes that are due take effect together; the excitation changes of a cluster combine at the boundary (R39, R92). DESIGN CHOICE
(log 70): of EN = 0 and EN = 1 written for one boundary the last holds. `run` says that a window opens here, which has opened the boundary. -/
def State.feApplyAll (s : State) (g : Nat) (run : Bool) (due : List (Nat × Word × Nat)) : State :=
  let cs := (clusOf g).filter (fun c => due.any (fun w => decide (w.1 / 0x1000 = 0x100 + c)))
  let s := if run then s else s.forEach cs (fun s c => s.excOpen c)
  let x := s.rg g
  let s := s.setRg g { x with waiting := x.waiting.filter (fun w => !due.contains w) }
  let s := s.forEach due (fun s w => s.feApply w.1 w.2.1)
  s.forEach cs (fun s c => s.excResolve c run)

/-- The settings of sensor health that take effect at a boundary (R176). -/
def State.hltApply (s : State) (g : Nat) : State :=
  s.forEach (chansOf g) (fun s n => s.setAct (R.CH_HLT_CFG n) (s.reg (R.CH_HLT_CFG n)))

/-- Windows of a mains-tracking region are remembered for the rows of timed contexts (R237). -/
def State.keepWindow (s : State) (g wseq lt : Nat) : State :=
  if s.rgMains g then
    let need := s.strActive.filter (fun c => s.strTimed c && (s.strMembers c).any (fun n => decide (rgnOf n = g)))
    let lo := need.foldl (fun a c => min a (s.st c).nextRow) lt
    let x := s.rg g
    s.setRg g { x with wins := x.wins.filter (fun w => decide (lo ≤ w.2)) ++ [(wseq, lt)] }
  else s

/-- The region converts no longer from `lt` on: its run ends there, bursts end, overlaps are abandoned, a sequencer that was told to stop has
stopped, and the chains take their waiting writes (R110, R124, R135, R156, R202). -/
def State.convEnds (s : State) (g lt : Nat) : State :=
  let x := s.rg g
  let runs := x.runs.map (fun r => match r.2 with
    | none => (r.1, some lt)
    | some e => (r.1, some e))
  let s := s.setRg g { x with runs := runs }
  let s := s.forEach (chansOf g) (fun s n => s.evtStop n)
  let s := (s.steadyStop g).seqStopped g
  s.forEach (chansOf g) (fun s n => s.applyAllWaiting n lt)

/-- The region has stopped (R110): every waiting write takes effect. -/
def State.regionStopped (s : State) (g : Nat) : State :=
  let s := s.setRg g { s.rg g with restart := false }
  let s := s.setRgState g rgStopped
  let s := s.feApplyAll g false (s.rg g).waiting
  (s.hltApply g).convEnds g s.lt

/-- Length in packets of the window that opens at a boundary (R106, R113). -/
def State.windowLen (s : State) (g b : Nat) : Nat :=
  if s.rgMains g then
    match s.mains.period with
    | some p =>
      let q : Rat := ((b : Nat) : Rat) + p * ((s.fld (R.RGN_WIN g) F.RGN_WIN_MCYC : Nat) : Rat)
      (roundAway (q / ((pktU : Nat) : Rat))).toNat - b / pktU
    | none => 0
  else s.rgLen g

/-- A window opens at `lt`. -/
def State.openWindow (s : State) (g lt wseq : Nat) : State :=
  let n := s.windowLen g lt
  let s := s.setReg (R.RGN_WSEQ g) (BitVec.ofNat 32 wseq)
  let s := s.setRg g { s.rg g with edge := lt, next := lt + n * pktU, npk := n }
  s.keepWindow g wseq lt

/-- The settle periods and reversal counts of the region's clusters at a boundary (R91, R93). -/
def State.cluEdge (s : State) (c : Nat) : State :=
  let s := s.settleTick c
  let x := s.cl c
  let count := decide (s.actFld (R.CLU_EXC_CTRL c) F.CLU_EXC_CTRL_ALT_PER ≠ 0)
  (s.setCl c { x with onsets := [], altCount := if count then x.altCount + 1 else x.altCount,
                      settleNow := x.settleNow || x.settleHeld || decide (x.settleLeft ≠ 0) }).excOpen c

/-- R of the last passing check and its LT (R171). -/
def State.lastGood (s : State) (n : Nat) : Nat × Nat :=
  let x := s.ch n
  if x.everGood then (x.lastGoodLt, x.lastGoodR) else (0, 0)

/-- The open-wire declaration covers a window (R164, R166). -/
def State.openCovers (s : State) (n closeLt : Nat) : Bool :=
  s.flag (R.CH_HLT_STAT n) F.CH_HLT_STAT_OPEN && (s.ch n).clearAt.all (fun t => decide (closeLt ≤ t))

/-- Clear an open-wire declaration whose count is complete (R166): an impedance check is queued. -/
def State.openCleared (s : State) (n : Nat) : State :=
  if s.flag (R.CH_HLT_STAT n) F.CH_HLT_STAT_OPEN && (s.ch n).clearAt.isSome then
    (s.setFlag (R.CH_HLT_STAT n) F.CH_HLT_STAT_OPEN false).requestOp ⟨.imp, n, 3, 0xFF, false⟩
  else s
/-- OPEN_WIRE_CLEARED (R166). -/
def execOpenWireCleared (n : Fin 384) (s : State) : Res := s.act! (s.openCleared n.val)

/-- Open-wire processing of a counted window with quality `q` (R164, R166): the flags it adds. -/
def State.openWire (s : State) (n : Nat) (e : Expect) (owd : Bool) (q : Nat) : State × Nat :=
  let a := R.CH_HLT_STAT n
  let s := s.setFlag a F.CH_HLT_STAT_OWD owd
  let s := if (s.ch n).clearAt.any (fun t => decide (t < e.closeLt)) then s.openCleared n else s
  let x := s.ch n
  let good := s.lastGood n
  if s.openCovers n e.closeLt then
    let clean := if owd then 0 else x.clean + 1
    let done := decide (max (s.actFld (R.CH_HLT_CFG n) F.CH_HLT_CFG_OW_CLR) 1 ≤ clean)
    (s.setCh n { x with clean := clean, openCount := x.openCount + 1,
                        clearAt := if done && x.clearAt.isNone then some e.closeLt else x.clearAt },
      qOr q (qOr qInvalid qOpen))
  else if owd then
    match x.onset with
    | none =>
      let q := qOr q qSuspect
      (s.setCh n { x with onset := some (e.openLt, e.closeLt, q) }, q)
    | some o =>
      let q := qOr q (qOr qInvalid qOpen)
      let s := s.setCh n { x with onset := none, openFirst := e.openLt, openCount := 1, clean := 0, clearAt := none }
      let s := (s.setFlag a F.CH_HLT_STAT_OPEN true).bump a F.CH_HLT_STAT_OWCNT
      let s := s.setSt (R.CH_OW_T n) (R.CH_OW_T_HI n) (stOf e.closeLt)
      ((s.raise 48 n).impRecord n 1 q e.closeLt good.1 o.1 0 good.2, q)
  else
    match x.onset with
    | none => (s, q)
    | some o =>
      let s := (s.setCh n { x with onset := none }).setFlag a F.CH_HLT_STAT_TRANS true
      ((s.raise 49 n).impRecord n 3 o.2.2 o.2.1 good.1 o.1 1 good.2, q)
/-- The OPEN_CLEAR record of a clearance, at the first clean window (R166). -/
def State.clearRecord (s : State) (n q : Nat) : State :=
  let x := s.ch n
  match x.clearAt with
  | some t =>
    if s.flag (R.CH_HLT_STAT n) F.CH_HLT_STAT_OPEN then s
    else
      let good := s.lastGood n
      (s.setCh n { x with clearAt := none }).impRecord n 2 q t good.1 x.openFirst x.openCount good.2
  | none => s

/-- Deliver a sample to the chain (R27). -/
def State.deliver (s : State) (n : Nat) (e : Expect) (wide : Int) (q : Nat) : State :=
  let w := if isInvalid q then wideInvalid else wide
  s.asBefore n e.closeLt (fun s => s.chainFeed n ⟨e.openLt, e.closeLt, e.npk, e.wseq, w, q, e.evt, e.spol, e.period⟩)

/-- Flags a window carries whether or not a result arrives (R172, R173). -/
def expectFlags (e : Expect) : Nat :=
  qOr (flagIf e.suspect qSuspect) (qOr (flagIf e.settle qSettle) (qOr (flagIf e.subst qSubst) (flagIf e.caldue qCaldue)))

/-- The oldest expected window of a channel gets no result: an INVALID sample (R27, R173). -/
def State.noResult (s : State) (n : Nat) : State :=
  match (s.ch n).expects with
  | [] => s
  | e :: rest =>
    let s := s.setCh n { s.ch n with expects := rest }
    if e.delivers then
      let cov := s.openCovers n e.closeLt
      let s := if cov then s.setCh n { s.ch n with openCount := (s.ch n).openCount + 1 } else s
      s.deliver n e wideInvalid (qOr qInvalid (qOr (flagIf cov qOpen) (expectFlags e)))
    else s
/-- Every window of a channel whose deadline lies before `lt` gets its INVALID sample. -/
def State.expire (s : State) (n : Nat) : State :=
  s.forEach (s.ch n).expects (fun s _ =>
    match (s.ch n).expects with
    | e :: _ => if e.due < s.lt then s.noResult n else s
    | [] => s)
/-- A window opens at `t`: at a slot boundary of the channel the writes that wait for one take effect (R202). In event mode each window gives
an output (R190), so that each boundary is one (log 112). -/
def State.slotEdge (s : State) (n t npk wseq : Nat) : State :=
  if (s.ch n).waiting ≠ [] ∧ (s.evtMode n ∨ s.indexOf n t npk wseq % (s.chK n * s.chD n) = 0) then s.applyWaiting n t else s

/-- WINDOW_EDGE (R99, R100, R110): the open window, of N packet decisions, closes, its results are formed, and what waits for the boundary applies. -/
def State.windowEdge (s : State) (g : Nat) (obs : List ConvObs) : State :=
  if !s.runs g || !s.spn.refclk then s
  else
    let x := s.rg g
    let t := x.next
    let wseq := (s.reg (R.RGN_WSEQ g)).toNat
    let obs := obs.filter (fun o => decide (o.count.natAbs ≤ x.npk))
    let s := (s.moveTo t).settleTests
    let s := s.forEach (chansOf g) (fun s n => if (s.ch n).waiting = [] then s else s.expire n)
    let evs := s.closeEvents g obs
    let s := s.forEach (chansOf g) (fun s n => s.closeChan n x.edge t x.npk wseq obs)
    let s := s.gather g evs
    let s := s.forEach (clusOf g) (fun s c => s.cluEdge c)
    if s.rgState g = rgStopPending ∧ (s.rg g).stopAfter ≤ t then
      let s := s.gapWindow g
      (((s.setRg g { s.rg g with edge := t }).keepWindow g (wseq + 1) t).regionStopped g).raiseGathered g
    else
      let wOf := fun (k : Nat) => (obs.find? (fun o => decide (o.conv.val = k))).map
        (fun o => satWide (wideRaw o.count o.resid.val x.npk))
      let s := s.openWindow g t ((wseq + 1) % 2 ^ 32)
      let s := s.feApplyAll g true ((s.rg g).waiting.filter (fun w => decide (w.2.2 + 2000 * nsU ≤ t)))
      let s := s.hltApply g
      let s := s.forEach (chansOf g) (fun s n => if s.evtMode n then s.evtEdge n t else s)
      let s := s.forEach (chansOf g) (fun s n => s.slotEdge n t (s.rg g).npk ((wseq + 1) % 2 ^ 32))
      ((s.steadyEdge g t wOf).seqEdge g t).raiseGathered g
/-- WINDOW_EDGE (R99). -/
def execWindowEdge (g : Fin 8) (obs : List ConvObs) (s : State) : Res := s.act! (s.windowEdge g.val obs)

/-- RESULT_DEADLINE (R27): the oldest awaited window of the channel reaches its deadline. -/
def execResultDeadline (n : Fin 384) (s : State) : Res :=
  s.act! (
    let s := s.forEach (s.ch n.val).expects (fun s _ => match (s.ch n.val).expects with
      | e :: _ => if e.delivers then s else s.noResult n.val
      | [] => s)
    match (s.ch n.val).expects with
    | e :: _ => (s.moveTo e.due).noResult n.val
    | [] => s)

/-- The channel that awaits a result of a converter. -/
def State.awaits (s : State) (k : Nat) : Option Nat :=
  let has := fun (n : Nat) => (s.ch n).expects.any (fun e => decide (e.conv = k))
  if !isSpare k && has (chanOf k) then some (chanOf k) else (chansOf (rgnOfConv k)).find? has

/-- The intake of a result word (R104, R105, R139, R168, R83, R172). A burst window carries EVT (R118); OWD counts under the window's own
BIAS and OW_EN (R162). -/
def State.intake (s : State) (n : Nat) (e : Expect) (count : Int) (resid : Nat) (ovr owd : Bool) : State :=
  let w0 := wideRaw count resid e.npk
  let w1 := roundAway (e.mg * ((satWide w0 : Int) : Rat) + ((e.mo : Int) : Rat))
  let w2 := satWide w1 - roundAway e.tone
  let w3 := if e.negate then -(satWide w2) else satWide w2
  let sat := decide (satWide w0 ≠ w0) || decide (satWide w1 ≠ w1) || decide (satWide w2 ≠ w2)
  let q := qOr (expectFlags e) (qOr (flagIf (e.undef || e.refBad) qInvalid)
    (qOr (flagIf (ovr || sat) qOver) (flagIf e.evt qEvt)))
  let r := s.openWire n e (owd && e.owen) q
  (r.1.clearRecord n r.2).deliver n e w3 r.2

/-- A result out of sequence (R104): its INTB is kept for the next check, the word is discarded and source 82 raised. -/
def State.outOfSequence (s : State) (k : Nat) (intb : Bool) : State :=
  (s.setCv k { s.cv k with lastIntb := some intb }).raise 82 k
/-- A result word (R104): WSEQ must be the awaited window's, INTB its integrator's, A holding the even windows of a run (R99; log 74), and
not the one of the converter's previous result. One whose COUNT lies beyond the N decisions of its window (R100), or whose EVTW does
not say whether a comparator started it (R118), is none that a die sends, and has no effect (log 74). -/
def State.resultFor (s : State) (n k : Nat) (e : Expect) (payload : Nat) : State :=
  let count := signed 23 (bitsOf payload 47 25)
  let intb := payload.testBit 52
  let last := (s.cv k).lastIntb
  if bitsOf payload 56 53 ≠ e.wseq % 16 ∨ intb ≠ e.wseq.testBit 0 ∨ last = some intb then s.outOfSequence k intb
  else if e.npk < count.natAbs ∨ payload.testBit 49 ≠ e.evt then s
  else
    let s := s.setCv k { s.cv k with lastIntb := some intb }
    let s := s.setCh n { s.ch n with expects := (s.ch n).expects.erase e }
    if e.delivers then
      let ovr := payload.testBit 51 || e.ovr
      let resid := bitsOf payload 24 11
      let s := s.setReg (R.CH_RAW_CNT n) (BitVec.ofInt 32 count)
      let s := s.setReg (R.CH_RAW_RES n) (BitVec.ofNat 32 (b2n ovr * 2 ^ 18 + b2n intb * 2 ^ 17 + resid))
      s.intake n e count resid ovr (payload.testBit 50)
    else s
/-- A result word reaches the intake (R27, R36, R104): one whose converter has no window awaited, a repeated or a late word, is out of
sequence. -/
def State.windowResult (s : State) (d payload : Nat) : State :=
  let k := 108 * d + bitsOf payload 63 57
  if 107 < bitsOf payload 63 57 then s
  else
    match s.awaits k with
    | none => s.outOfSequence k (payload.testBit 52)
    | some n =>
      let s := s.expire n
      match (s.ch n).expects.find? (fun e => decide (e.conv = k)) with
      | none => s.outOfSequence k (payload.testBit 52)
      | some e => s.resultFor n k e payload
/-- WINDOW_RESULT (R27, R37): a result word of a die arrives. -/
def execWindowResult (d : Fin 4) (w : DieBody) (s : State) : Res :=
  s.act! ((s.settleTests).dieReceive d.val 0x01 w.payload.toNat w.crc.val (fun s => s.windowResult d.val w.payload.toNat))

end Sys2Proof.Machine
end

