-- ==== Sys2Proof/Machine/Converter.lean ====
section
/-! DEFINITION. Regions (sections 4.3, 4.4): starts and stops, the start point, the mains estimator, and the register
writes that arrive on an FE die (R38, R39). -/
namespace Sys2Proof.Machine

/-- Table 4.2: L divides 204,800,000 and lies between 1,024 and 4,096,000 (R106). -/
def lenOk (l : Nat) : Bool := decide (1024 ≤ l) && decide (l ≤ 4096000) && decide (204800000 % l = 0)
/-- The instant RGN_START names, nearest to LT (R8, R108). -/
def State.startSt (s : State) (g : Nat) : Nat :=
  (s.reg (R.RGN_START g)).toNat + s.fld (R.RGN_START_HI g) F.RGN_START_HI_T_HI * 2 ^ 32
/-- A channel of the region converts continuously (R433). -/
def State.hasContinuous (s : State) (g : Nat) : Bool :=
  (chansOf g).any (fun n => !s.flag (R.CH_EVT_CTRL n) F.CH_EVT_CTRL_MODE)

/-- The cause of Table 4.3 that refuses a start. DESIGN CHOICE (log 72): of several causes the one of the lowest number is shown; the spec gives
no order. -/
def State.rgnStartCause (s : State) (g : Nat) : Option Nat :=
  let st := s.startSt g
  let mcyc := s.fld (R.RGN_WIN g) F.RGN_WIN_MCYC
  if !s.rgMains g && !lenOk (s.rgLen g) then some 1
  else if s.rgMains g && (decide (mcyc < 1) || decide (9 < mcyc)) then some 2
  else if s.flag (R.RGN_CTRL g) F.RGN_CTRL_WHEN
      && (!stValid st || decide (stToLt s.lt st < ((s.lt + 1000000 * nsU : Nat) : Int))) then some 3
  else if !s.spn.refclk then some 4
  else if s.overDemand [g] [] || (s.pwr.doze && s.hasContinuous g) then some 5
  else none
/-- A start is refused (R109). -/
def State.refuseStart (s : State) (g cause : Nat) : State :=
  let s := s.bump (R.RGN_STAT g) F.RGN_STAT_REFCNT
  (s.setFld (R.RGN_STAT g) F.RGN_STAT_CAUSE cause).raise 84 (448 + g)
/-- The check of a start (R108, R109). DESIGN CHOICE (log 107): for a start that waited for a step of Spindle the 1 ms of R108 run from here,
the end of the step, and not from the write. -/
def State.checkStart (s : State) (g : Nat) : State :=
  let s := s.setRg g { s.rg g with afterStep := false }
  match s.rgnStartCause g with
  | some c => s.refuseStart g c
  | none =>
    let isWhen := s.flag (R.RGN_CTRL g) F.RGN_CTRL_WHEN
    let t := if isWhen then (stToLt s.lt (s.startSt g)).toNat else s.lt + 1000000 * nsU
    (s.setRg g { s.rg g with earliest := t, whenSt := isWhen, restart := false }).setRgState g rgPending
/-- START (R108, R111): a region start during a step waits for it (R60). -/
def State.regionStart (s : State) (g : Nat) : State :=
  if s.rgState g ≠ rgStopped then s
  else if s.lt < s.spn.stepUntil then s.setRg g { s.rg g with afterStep := true }
  else s.checkStart g
/-- STOP (R110, R111). DESIGN CHOICE (log 73): a start that waits for a Spindle step (R60) is cancelled too, though STATE is still STOPPED
then; the spec does not say what a STOP does to it. -/
def State.regionStop (s : State) (g : Nat) : State :=
  let st := s.rgState g
  let s := s.setRg g { s.rg g with afterStep := false }
  if st = rgConverting then
    (s.setRg g { s.rg g with stopAfter := s.lt + 2000 * nsU }).setRgState g rgStopPending
  else if st = rgPending then (s.lossOff g).regionStopped g
  else s
/-- The action of a write of RGN_CTRL: START and STOP together act as STOP (R110). -/
def State.rgnCtrlAct (s : State) (g : Nat) (v : Word) : State :=
  if v.toNat.testBit 1 then s.regionStop g else if v.toNat.testBit 0 then s.regionStart g else s
/-- START_AFTER_STEP (R60, R109): the step has completed; the start that waited is checked. -/
def execStartAfterStep (g : Fin 8) (s : State) : Res :=
  s.act! (
    if (s.rg g.val).afterStep && decide (s.rgState g.val = rgStopped) then (s.moveTo s.spn.stepUntil).checkStart g.val
    else s)

/-- The first permitted start point at or after `lo` (R108, R113). -/
def State.startPoint (s : State) (g lo : Nat) : Option Nat :=
  if s.rgMains g then (if s.mains.period.isSome then some (packetEdge lo) else none)
  else
    let p := max (s.rgLen g) 1 * pktU
    some ((lo + p - 1) / p * p)
/-- Window 0 opens at `t` (R107, R108, R189): chains and statistics are cleared, waiting writes take effect. -/
def State.startRegion (s : State) (g t : Nat) : State :=
  let s := s.moveTo t
  let s := s.forEach (chansOf g) (fun s n => (s.expire n).chainStart n)
  let x := s.rg g
  let runs := x.runs.drop (x.runs.length - 3) ++ [(t, none)]
  let s := s.setRg g { x with runs := runs, wins := [], restart := false, autoImpAt := t, autoCalAt := t }
  let s := s.setRgState g rgConverting
  let s := s.forEach ((List.range 54).map (fun i => 54 * g + i))
    (fun s k => s.setCv k { s.cv k with lastWin := none, lastIntb := none })
  let s := (s.capRegionConflict g).openWindow g t 0
  let s := s.forEach (clusOf g) (fun s c => s.excStart c)
  let s := s.feApplyAll g true ((s.rg g).waiting.filter (fun w => decide (w.2.2 + 2000 * nsU ≤ t)))
  let s := s.hltApply g
  let s := s.forEach (chansOf g) (fun s n => s.evtStart n)
  let s := s.forEach (chansOf g) (fun s n => s.slotEdge n t (s.rg g).npk 0)
  ((((s.gather g []).steadyStart g t).dispatch g t).seqEdge g t).raiseGathered g
/-- REGION_START_POINT (R108). -/
def execRegionStartPoint (g : Fin 8) (s : State) : Res :=
  s.act! (
    let x := s.rg g.val
    if s.rgState g.val = rgPending ∧ !x.restart ∧ s.spn.refclk then
      match s.startPoint g.val (max x.earliest s.lt) with
      | some t => s.startRegion g.val t
      | none => s
    else s)

/-- The mains estimate in effect: the mean of the last 8 accepted intervals (R113). -/
def mainsMean (l : List Nat) : Option Rat :=
  if l.length < 8 then none else some (((l.foldl (fun a x => a + x) 0 : Nat) : Rat) / 8)
/-- Show the estimate in every RGN_MAINS, in units of 2^-4 ns. -/
def State.showMains (s : State) : State :=
  let w := match s.mains.period with
    | some p => (roundAway (p / 4096)).toNat
    | none => 0
  s.forEach (List.range 8) (fun s g => s.setReg (R.RGN_MAINS g) (BitVec.ofNat 32 w))
/-- MAINS_EDGE (R113): a rising edge of MAINS_REF, stamped by R47. Intervals run from the previous accepted edge; an edge with none before
it, or later than 1/45 s after it, is not accepted and begins anew (DESIGN CHOICE, logs 54 and 71). -/
def execMainsEdge (ph : Phase) (s : State) : Res :=
  s.act! (
    if !s.spn.refclk then s
    else
      let t := stampOf s.lt ph.val
      let x := s.mains
      match x.last with
      | none => { s with mains := { x with last := some t, holdRun := 0 } }
      | some l =>
        let iv := t - l
        let inRange := decide (secU ≤ 65 * iv) && decide (45 * iv ≤ secU)
        let near := match x.period with
          | some p => decide (p * 98 / 100 ≤ ((iv : Nat) : Rat)) && decide (((iv : Nat) : Rat) ≤ p * 102 / 100)
          | none => true
        if inRange && (near || decide (x.accepted < 8)) then
          let ivs := (x.intervals ++ [iv]).drop ((x.intervals ++ [iv]).length - 8)
          let s := { s with mains := { x with last := some t, acceptedAt := some t, intervals := ivs, accepted := x.accepted + 1,
                                              holdRun := x.holdRun + 1,
                                              period := if x.hold then x.period else mainsMean ivs } }
          s.showMains
        else { s with mains := { x with last := if 45 * iv ≤ secU then x.last else some t, holdRun := 0 } })
/-- MAINS_HOLD (R115): no edge accepted for 100 ms. -/
def execMainsHold (s : State) : Res :=
  s.act! (
    let x := s.mains
    match x.acceptedAt with
    | some l =>
      if !x.hold ∧ x.period.isSome ∧ s.spn.refclk then
        let s := s.moveTo (l + 100000000 * nsU)
        ({ s with mains := { x with hold := true, holdRun := 0 } }).setLine 85 instHub true
      else s
    | none => s)
/-- MAINS_HOLD_END (R115): 8 consecutive accepted intervals end the hold. -/
def execMainsHoldEnd (s : State) : Res :=
  s.act! (
    let x := s.mains
    if x.hold ∧ 8 ≤ x.holdRun then
      (({ s with mains := { x with hold := false, period := mainsMean x.intervals } }).setLine 85 instHub false).showMains
    else s)

/-- Registers whose writes wait for a window boundary (R39): excitation, inputs, event mode, trims. -/
def feWaits (a : Nat) : Bool :=
  if a < 0x00200000 then decide (a % 0x1000 < 8)
  else if a < 0x01000000 then false
  else
    let o := a % 0x400
    decide (o = 0) || (decide (0x010 ≤ o) && decide (o < 0x01C)) || (decide (0x080 ≤ o) && decide (o < 0x0C4))
/-- The W1C fields of a register. -/
def w1cFlds (a : Nat) : List Fld :=
  match lookupReg a with
  | some (x, _) => x.flds.filter (fun f => decide (f.acc = .w1c))
  | none => []
/-- A register write arrives on its die (R39): one that affects conversion waits for its boundary, but in a STOPPED region, which has
none, it takes effect now. -/
def State.feArrive (s : State) (a : Nat) (v : Word) : State :=
  let g := regionOfAddr a
  if a = R.RGN_CTRL g then s.rgnCtrlAct g v
  else if a = R.RGN_SEQ_CTRL g then s.seqRun g v
  else if 0x01800000 ≤ a ∧ a % 0x400 = 0x040 then s.sprRequests ((a - 0x01800000) / 0x400) v
  else if feWaits a then
    let w := (a, v, s.lt)
    let s := s.setRg g { s.rg g with waiting := (s.rg g).waiting ++ [w] }
    if s.rgState g = rgStopped then s.feApplyAll g false (s.rg g).waiting else s
  else (s.setReg a (BitVec.ofNat 32 (wordWrite (w1cFlds a) (s.reg a).toNat v.toNat))).setAct a v
/-- The writes on their way to a die arrive, in order (R39). -/
def State.feFlush (s : State) (d : Nat) : State :=
  let x := s.dl d
  (s.setDl d { x with toFe := [] }).forEach x.toFe (fun s w => s.feArrive w.1 w.2)
/-- FE_REGISTER_WRITE_ARRIVAL (R39): the oldest write on its way to the die arrives. -/
def execFeRegisterWriteArrival (d : Fin 4) (s : State) : Res :=
  s.act! (
    let x := s.dl d.val
    match x.toFe with
    | [] => s
    | w :: rest => if s.dieUp d.val then (s.setDl d.val { x with toFe := rest }).feArrive w.1 w.2 else s)

/-- HD's copy of an FE-resident register takes a write (R38): its RW and RWL fields, and what it ignores is recorded (R456). The W1C
bits act on the die. While the link is down the shadow shows the value written. -/
def State.feTake (s : State) (a : Nat) (flds : List Fld) (v : Word) : State :=
  let d := dieOf (regionOfAddr a)
  let rate := s.autoRate (regionOfAddr a)
  let old := (s.reg a).toNat
  let s := if writeIgnored flds old v.toNat then s.noteIgnored a else s
  let s := if s.dieUp d then s else
    let x := s.dl d
    let w := BitVec.ofNat 32 (wordWrite flds (tabGet resetWord x.shadow a).toNat v.toNat)
    s.setDl d { x with shadow := tabPut resetWord x.shadow a w }
  let s := s.setReg a (BitVec.ofNat 32 (wordWrite (flds.filter (fun f => decide (f.acc ≠ .w1c))) old v.toNat))
  if 0x01000000 ≤ a ∧ a < 0x01800000 ∧ a % 0x400 = 0 then
    s.setFlag (R.CH_AIN_STAT ((a - 0x01000000) / 0x400)) F.CH_AIN_STAT_PEND true
  else if 0x00200000 ≤ a ∧ a < 0x00208000 then s.autoRetime (regionOfAddr a) rate
  else s
/-- A 1 written to CLR_SHUT while the bit reads 1 is ignored (Table 17.8): the write goes to its die without it. -/
def State.feWord (s : State) (a : Nat) (v : Word) : Word :=
  let c := (a - 0x00100000) / 0x1000
  if a = R.CLU_EXC_CTRL c ∧ c < 48 ∧ s.clrWaits c then BitVec.ofNat 32 (putBits v.toNat 5 5 0) else v
/-- Writes of FE-resident registers that take effect together: all go to their die, or none (R9, R38). -/
def State.writeFeAll (s : State) (ws : List (Nat × List Fld × Word)) : State :=
  match ws.map (fun w => (w.1, w.2.1, s.feWord w.1 w.2.2)) with
  | [] => s
  | w :: rest =>
    let ws := w :: rest
    let (s, ok) := s.feWrites (dieOf (regionOfAddr w.1)) (ws.map (fun w => (w.1, w.2.2)))
    if ok then s.forEach ws (fun s w => s.feTake w.1 w.2.1 w.2.2) else s
/-- A write of an FE-resident register with these fields (R38). -/
def State.writeFe (s : State) (a : Nat) (flds : List Fld) (v : Word) : State := s.writeFeAll [(a, flds, v)]
/-- A write that acts on its die: over a link that is up it follows the writes before it, and acts when it arrives; over one that is down it
is queued (R38, R39). -/
def State.writeFeNow (s : State) (a : Nat) (flds : List Fld) (v : Word) : State :=
  let s := s.writeFe a flds v
  let d := dieOf (regionOfAddr a)
  if s.dieUp d then s.feFlush d else s

/-- Fields of RGN_CTRL. -/
def rgnCtrlFlds : List Fld := [F.RGN_CTRL_WHEN, F.RGN_CTRL_STOP, F.RGN_CTRL_START]
/-- A write of RGN_CTRL: it acts on its die; without REFCLK starts are judged at once (R109 cause 0x4; log 15). -/
def State.writeRgnCtrl (s : State) (g : Nat) (v : Word) : State :=
  if s.spn.refclk then s.writeFeNow (R.RGN_CTRL g) rgnCtrlFlds v
  else (s.writeFlds (R.RGN_CTRL g) rgnCtrlFlds v).rgnCtrlAct g v
/-- RGN_CTRL_START (R108, R109, R111). -/
def execRgnCtrlStart (g : Fin 8) (v : Word) (s : State) : Res := s.act! (s.writeRgnCtrl g.val v)
/-- RGN_CTRL_STOP (R110, R111). -/
def execRgnCtrlStop (g : Fin 8) (v : Word) (s : State) : Res := s.act! (s.writeRgnCtrl g.val v)
/-- Fields of RGN_SEQ_CTRL. -/
def seqCtrlFlds : List Fld := [F.RGN_SEQ_CTRL_START_IDX, F.RGN_SEQ_CTRL_RUN]
/-- A write of RGN_SEQ_CTRL: it acts on its die (R38, R135). -/
def State.writeSeqCtrl (s : State) (g : Nat) (v : Word) : State := s.writeFeNow (R.RGN_SEQ_CTRL g) seqCtrlFlds v
/-- RGN_SEQ_RUN_SET (R135). -/
def execRgnSeqRunSet (g : Fin 8) (v : Word) (s : State) : Res := s.act! (s.writeSeqCtrl g.val v)
/-- RGN_SEQ_RUN_CLEAR (R135). -/
def execRgnSeqRunClear (g : Fin 8) (v : Word) (s : State) : Res := s.act! (s.writeSeqCtrl g.val v)
/-- Fields of SPR_CTRL. -/
def sprCtrlFlds : List Fld := [F.SPR_CTRL_RETEST, F.SPR_CTRL_CAL_REQ]
/-- A write of SPR_CTRL: it acts on its die (R38, R147, R161). -/
def State.writeSprCtrl (s : State) (c : Nat) (v : Word) : State := s.writeFeNow (R.SPR_CTRL c) sprCtrlFlds v
/-- SPR_CTRL_CAL_REQ. -/
def execSprCtrlCalReq (c : Fin 48) (v : Word) (s : State) : Res := s.act! (s.writeSprCtrl c.val v)
/-- SPR_CTRL_RETEST. -/
def execSprCtrlRetest (c : Fin 48) (v : Word) (s : State) : Res := s.act! (s.writeSprCtrl c.val v)

/-- Fields of CLU_EXC_CTRL. -/
def excCtrlFlds : List Fld :=
  [F.CLU_EXC_CTRL_ALT_PER, F.CLU_EXC_CTRL_SETTLE, F.CLU_EXC_CTRL_ILIM_T, F.CLU_EXC_CTRL_CLR_SHUT, F.CLU_EXC_CTRL_SENSE,
   F.CLU_EXC_CTRL_POL, F.CLU_EXC_CTRL_EN]
/-- CLU_EXC_CTRL_CLR_SHUT (R89): the write goes to its die, where CLR_SHUT clears a shutdown. -/
def execCluExcCtrlClrShut (c : Fin 48) (v : Word) (s : State) : Res :=
  s.act! (s.writeFe (R.CLU_EXC_CTRL c.val) excCtrlFlds v)

end Sys2Proof.Machine
end

