-- ==== Sys2Proof/Machine/DieEvents.lean ====
section
/-! DEFINITION. What reaches HD over the die links besides window results (sections 1.5, 5.7, 14.2): link-up with the
rewrite of a die that lost its configuration, link-down, read responses, sequencer events and fault reports. -/
namespace Sys2Proof.Machine

/-- Take up the verdicts of self-tests that an event ended (R396, R397). -/
def State.takeVerdicts (s : State) : State := (s.settleTests).ggeSync
/-- An event of a source, with what a nested error does to its target (R385, R397). -/
def State.event (s : State) (src inst detail : Nat) : State := (s.raiseD src inst detail).takeVerdicts

/-- DIE_LINK_DOWN (R37, R38, R27): UP clears, the event is counted, source 184 + d is raised. -/
def execDieLinkDown (d : Fin 4) (s : State) : Res := s.act! ((s.dieDown d.val).takeVerdicts)

/-- The address belongs to an FE-resident register of die `d` (Table 17.4). -/
def feOfDie (d a : Nat) : Bool :=
  match lookupReg a with
  | some (x, _) => x.fe && decide (dieOf (regionOfAddr a) = d)
  | none => false
/-- The word a rewrite sends for a register (R38): its RW and RWL fields as the shadow holds them, the others 0. -/
def rewriteWord (a v : Nat) : Nat :=
  match lookupReg a with
  | some (x, _) => x.flds.foldl (fun w f => if f.acc = .rw ∨ f.acc = .rwl then putBits w f.hi f.lo (bitsOf v f.hi f.lo) else w) 0
  | none => 0
/-- What the shadow of a register shows of a die that lost its configuration (R38): the configuration fields, the others at
their reset values. -/
def shadowAfter (a v : Nat) : Nat :=
  match lookupReg a with
  | some (x, _) =>
    x.flds.foldl (fun w f => if f.acc = .rw ∨ f.acc = .rwl then putBits w f.hi f.lo (bitsOf v f.hi f.lo) else w)
      (resetWord a).toNat
  | none => v
/-- Copies of a register under a list of strides. -/
def copyOffsets : List (Nat × Nat) → List Nat
  | [] => [0]
  | (st, n) :: ds => (List.range n).flatMap (fun i => (copyOffsets ds).map (fun o => i * st + o))
/-- Addresses, not yet in order, of the FE-resident registers with configuration fields of a die. -/
def feConfigOf (d : Nat) (x : RegDesc) : List Nat :=
  if x.fe && x.flds.any (fun f => decide (f.acc = .rw) || decide (f.acc = .rwl)) then
    ((copyOffsets x.dims).map (fun o => x.base + o)).filter (fun a => decide (dieOf (regionOfAddr a) = d))
  else []
/-- Addresses of the FE-resident configuration of a die, ascending (R38). -/
def feConfig (d : Nat) : List Nat :=
  ((descClu ++ descRgn ++ descCh ++ descSpr).flatMap (feConfigOf d)).mergeSort (fun a b => decide (a ≤ b))

/-- A region whose die has lost its configuration is STOPPED until it is started again (R38). -/
def State.dieRegion (s : State) (g : Nat) : State :=
  let st := s.rgState g
  let edge := (s.rg g).edge
  let s := if st = rgConverting ∨ st = rgStopPending then (s.convEnds g edge).steadyStop g else s
  let s := if (s.rg g).restart then s.lossOff g else s
  let x := s.rg g
  let s := s.setRg g { RegionState.init with runs := x.runs, wins := x.wins, events := x.events, lag := x.lag }
  let s := s.setRgState g rgStopped
  let s := s.forEach (clusOf g) (fun s c => s.setCl c CluState.init)
  let s := s.forEach ((List.range 54).map (fun i => 54 * g + i)) (fun s k => s.setCv k ConvState.init)
  s.forEach (chansOf g) (fun s n => s.setCh n { s.ch n with
    baseSpare := none, matchBase := none, lost := false, burstFrom := none, burstLeft := 0, holdLeft := 0, inBandSince := none, outSince := none,
    stuckLeft := 0, stuckSaid := false, novr := 0 })
/-- HD rewrites the configuration of a die that lost it (R38): its own registers take their reset values, then every
configuration register is written from the shadow, in ascending order. -/
def State.dieRestart (s : State) (d : Nat) : State :=
  let s := s.forEach [2 * d, 2 * d + 1] (fun s g => s.dieRegion g)
  let mine := s.regs.filter (fun p => feOfDie d p.1)
  let s := s.forEach mine (fun s p => s.setReg p.1 (BitVec.ofNat 32 (shadowAfter p.1 p.2.toNat)))
  let s := { s with act := s.act.filter (fun p => !feOfDie d p.1) }
  let s := s.forEach (feConfig d) (fun s a => s.dieWrite d (a, BitVec.ofNat 32 (rewriteWord a (s.reg a).toNat)))
  s.forEach mine (fun s p => s.feArrive p.1 (BitVec.ofNat 32 (rewriteWord p.1 (s.reg p.1).toNat)))

/-- DIE_LINK_UP (R37, R38): a new count of words begins; with RESTART the configuration is rewritten; the writes that were on their way when
the link went down are sent again, and the queued writes follow in order (log 65). -/
def execDieLinkUp (d : Fin 4) (restart : Bool) (s : State) : Res :=
  s.act! (if s.spn.refclk && !s.flag (R.DLK_STAT d.val) F.DLK_STAT_UP then
    let x := s.dl d.val
    let s := s.setFlag (R.DLK_STAT d.val) F.DLK_STAT_UP true
    let s := s.setDl d.val { x with everUp := true, txSeq := 0, rxSeq := 1, discarding := false, fails := 0, attempts := 0, replay := [],
                                    acked := 0, queued := [], toFe := [], shadow := [] }
    let s := if restart then (s.setFlag (R.DLK_STAT d.val) F.DLK_STAT_RESTART true).dieRestart d.val else s
    let ws := (if restart then [] else x.toFe) ++ x.queued
    let s := s.setDl d.val { s.dl d.val with toFe := (s.dl d.val).toFe ++ ws }
    s.forEach ws (fun s w => s.dieWrite d.val w)
  else s)

/-- The status registers that HD updates from an event of a target (R157): those of its channel, or of its spare, and of the region and its
spares. -/
def eventRegs (g tgt : Nat) : List Nat :=
  let n := 48 * g + tgt
  let c := 6 * g + (tgt - 48)
  (if tgt < 48 then [R.CH_STEADY_STAT n, R.CH_CAL_STAT n, R.CH_MATCH n, R.CH_MATCH_G n] else [R.SPR_CAL_STAT c])
    ++ R.RGN_STEADY_STAT g :: (clusOf g).map (fun d => R.SPR_STAT d)
/-- HD's copy of registers is what their die shows (R38, R157). -/
def State.shownNow (s : State) (g : Nat) (as : List Nat) : State :=
  s.setRg g { s.rg g with lag := (s.rg g).lag.filter (fun e => !as.contains e.1) }
/-- DIE_LINK_READ_RESPONSE (R38): a pending read of an FE-resident register is complete; the shadow takes the RO fields,
which are the die's own, and the data is the answer. The RC fields were cleared by the read. -/
def execDieLinkReadResponse (d : Fin 4) (a : Nat) (w : DieData) (s : State) : Res :=
  s.act! (s.dieReceive d.val 0x04 (a * 2 ^ 32 + w.data.toNat) w.crc.val (fun s =>
    let x := s.dl d.val
    if x.reads.contains a then
      let s := s.setDl d.val { x with reads := x.reads.erase a }
      let n := match lookupReg a with
        | some (r, _) => r.flds.foldl (fun n f =>
            if f.acc = .ro then putBits n f.hi f.lo (bitsOf w.data.toNat f.hi f.lo) else n) (s.reg a).toNat
        | none => (s.reg a).toNat
      ((s.setReg a (BitVec.ofNat 32 n)).shownNow (regionOfAddr a) [a]).answer w.data.toNat 0
    else s))

/-- SEQUENCER_EVENT_WORD (R157, R242): HD updates the status registers from an event word of a die and queues it as an event record. -/
def execSequencerEventWord (d : Fin 4) (w : DieBody) (s : State) : Res :=
  s.act! (s.dieReceive d.val 0x02 w.payload.toNat w.crc.val (fun s =>
    let p := w.payload.toNat
    let g := 2 * d.val + bitsOf p 59 59
    let s := s.shownNow g (eventRegs g (bitsOf p 55 48))
    let x := s.rg g
    match x.events.find? (fun e => decide (e.1 = p)) with
    | some e => (s.setRg g { x with events := x.events.erase e }).seqRecord g e.2 p
    | none => s.seqRecord g x.edge p))

/-- Instance of a source that an FE die reports with a local converter or cluster (R35, Table 14.3). -/
def feInstance (d src l : Nat) : Nat :=
  let k := 108 * d + l
  let c := 12 * d + l
  if [32, 33, 34, 35, 36, 54].contains src then c
  else if [37, 39].contains src then c / 6
  else if [38, 83].contains src then d
  else if [64, 66, 68, 80, 81, 82].contains src then k
  else if [69, 72, 73].contains src then k / 54
  else if src = 85 then instHub
  else chanOf k
/-- FAULT_REPORT_WORD (R387): a fault report of a die is an event of its source. -/
def execFaultReportWord (d : Fin 4) (w : DieBody) (s : State) : Res :=
  s.act! (s.dieReceive d.val 0x03 w.payload.toNat w.crc.val (fun s =>
    let p := w.payload.toNat
    let src := bitsOf p 63 56
    s.event src (feInstance d.val src (bitsOf p 55 48)) (bitsOf p 47 0)))

end Sys2Proof.Machine
end

