-- ==== Sys2Proof/Machine/FaultRows.lean ====
section
/-! DEFINITION. The rows of the fault collector (chapter 14): events, forces, clearing, memory errors, ALIVE and the end of
targeted self-tests. -/
namespace Sys2Proof.Machine

/-- FAULT_EVENT (R385). -/
def execFaultEvent (src : Fin 256) (inst : Fin 1024) (detail : BitVec 48) (s : State) : Res :=
  s.act! (s.event src.val inst.val detail.toNat)

/-- Sources of word `w` of a bit vector whose bit is set in `v` and that are defined (R381). -/
def sourcesOf (w v : Nat) : List Nat := ((setBitsOf 32 v).map (fun j => 32 * w + j)).filter sourceDefined
/-- The bits of word `w` that belong to defined sources. -/
def definedMask (w : Nat) : Nat := (sourcesOf w (2 ^ 32 - 1)).foldl (fun a n => a + 2 ^ (n % 32)) 0
/-- A write of 1 to a bit of a reserved source is ignored (R381, R456). -/
def State.noteReserved (s : State) (a w v : Nat) : State :=
  if v &&& (2 ^ 32 - 1 - definedMask w) = 0 then s else s.noteIgnored a

/-- A write of FLT_FORCE (R384, R385): force lines follow; each rising edge is an event, in rising source order. -/
def State.writeForce (s : State) (w : Nat) (v : Word) : State :=
  let a := R.FLT_FORCE w
  let old := (s.reg a).toNat
  let new := v.toNat &&& definedMask w
  let s := (s.noteReserved a w v.toNat).setReg a (BitVec.ofNat 32 new)
  let s := s.forEach (sourcesOf w (2 ^ 32 - 1)) (fun s n => s.updRaw n)
  (s.forEach ((sourcesOf w new).filter (fun n => !old.testBit (n % 32))) (fun s n => s.forceEdge n)).takeVerdicts
/-- FLT_FORCE_WRITE. -/
def execFltForceWrite (w : Fin 8) (v : Word) (s : State) : Res := s.act! (s.writeForce w.val v)

/-- A STICKY bit and the whole list of its source are cleared (R386); the verdict of the array that stands keeps its source sticky (R396). -/
def State.clearSticky (s : State) (n : Nat) : State :=
  if s.flt.parr ∧ n = s.flt.parrSrc then s else (s.setSrcBit R.FLT_STICKY n false).clearList n
/-- A write of FLT_STICKY (R386): each 1 clears the bit and the whole list of its source. -/
def State.writeSticky (s : State) (w : Nat) (v : Word) : State :=
  let s := s.noteReserved (R.FLT_STICKY w) w v.toNat
  (s.forEach (sourcesOf w v.toNat) (fun s n => s.clearSticky n)).updAlive
/-- FLT_STICKY_CLEAR. -/
def execFltStickyClear (w : Fin 8) (v : Word) (s : State) : Res := s.act! (s.writeSticky w.val v)

/-- FLT_LIST_CLEAR (R386): each 1 clears that instance alone. -/
def execFltListClear (src : Fin 256) (x : Fin 16) (v : Word) (s : State) : Res :=
  s.act! (s.writeFlds (R.FLT_LIST src.val x.val) [F.FLT_LIST_LIST] v)

/-- A write of FLT_CTRL (R386, R393): FN_TEST, and with CLR_ALL every STICKY bit and list is cleared. -/
def State.writeFltCtrl (s : State) (v : Word) : State :=
  let s := s.writeFlds R.FLT_CTRL [F.FLT_CTRL_FN_TEST, F.FLT_CTRL_CLR_ALL] v
  if v.toNat.testBit 0 then
    (s.forEach (List.range 256) (fun s n => s.clearSticky n)).updAlive
  else s
/-- FLT_CTRL_CLR_ALL. -/
def execFltCtrlClrAll (v : Word) (s : State) : Res := s.act! (s.writeFltCtrl v)

/-- A write of FLT_FIRST (R389): 1 to VALID clears FLT_FIRST, FLT_FIRST_T and FLT_OVF. -/
def State.writeFltFirst (s : State) (v : Word) : State :=
  let s := s.writeFlds R.FLT_FIRST [F.FLT_FIRST_VALID, F.FLT_FIRST_FORCED, F.FLT_FIRST_REAL, F.FLT_FIRST_INST,
    F.FLT_FIRST_SOURCE] v
  if v.toNat.testBit 31 then
    (((s.setReg R.FLT_FIRST 0).setReg R.FLT_FIRST_T 0).setReg R.FLT_FIRST_T_HI 0).setReg R.FLT_OVF 0
  else s
/-- FLT_FIRST_VALID_CLEAR. -/
def execFltFirstValidClear (v : Word) (s : State) : Res := s.act! (s.writeFltFirst v)

/-- FLT_LOG_RIDX_WRITE (R390): RIDX takes the value, forward or back. -/
def execFltLogRidxWrite (v : Word) (s : State) : Res :=
  s.act! (s.writeFlds R.FLT_LOG [F.FLT_LOG_LOST, F.FLT_LOG_RIDX, F.FLT_LOG_WIDX] v)

/-- A write of FLT_EN: the bits of reserved sources read zero and ignore writes (R381). -/
def State.writeFltEn (s : State) (w : Nat) (v : Word) : State :=
  ((s.noteReserved (R.FLT_EN w) w v.toNat).setReg (R.FLT_EN w) (BitVec.ofNat 32 (v.toNat &&& definedMask w))).updAlive

/-- Put 32 bytes over those of a list from a place on, as far as it reaches. -/
def overlay (l : List Byte) (i : Nat) (bs : List Byte) : List Byte :=
  l.take i ++ (bytesAt bs 0 32).take (l.length - i) ++ l.drop (i + 32)
/-- The packet that holds a unit is sent as the unit reads (R388). -/
def State.unitReads (s : State) (a : Nat) (bs : List Byte) : State :=
  match s.unitAt a with
  | none => s
  | some u =>
    let x := s.st u.ctx
    match u.place with
    | some i => s.setStr u.ctx { x with pkts := x.pkts.modify i (fun (p : Pkt) => { p with bytes := overlay p.bytes (32 * u.unit) bs }) }
    | none => s.setStr u.ctx { x with cur := x.cur.map (fun o =>
        if u.unit = 0 then o else { o with payload := overlay o.payload (32 * (u.unit - 1)) bs }) }
/-- A unit of a memory window stays bad until its bytes change (R453; log 108). -/
def State.markBad (s : State) (a : Nat) (bs : List Byte) : State :=
  { s with flt := { s.flt with bad := s.flt.bad.filter (fun e => decide (e.1 ≠ a / 32)) ++ [(a / 32, bs)] } }
/-- A 32-byte unit with an uncorrectable error is used as read: what it reads as is free (R388; log 5). -/
def State.spoil (s : State) (a : Nat) : State :=
  let u := a / 32 * 32
  let s := s.forEach (List.range 32) (fun s i => s.fresh.2.setByte (u + i) (BitVec.ofNat 8 s.fresh.1))
  (s.unitReads u (s.bytes u 32)).markBad u (s.bytes u 32)
/-- The address lies in Bowl or the stream pool (Table 17.1). -/
def inPool (a : Nat) : Bool := (decide (0x04000000 ≤ a) && decide (a < 0x05000000)) || (decide (0x05000000 ≤ a) && decide (a < 0x05800000))
/-- An error in the history pool of a context (R284, R289): in its anchor image, which the image window shows, or in the encoder's or the
verifier's image, which have no address there (log 55). -/
def State.historyBad (s : State) (c a : Nat) : State :=
  match imageAt a with
  | some (_, o) =>
    (s.setGg c { s.gg c with anchorBad := true }).markBad a ((List.range 32).map (fun i => s.imageByte c (o / 32 * 32 + i)))
  | none => s.setGg c { s.gg c with memBad := true }
/-- An event of a memory source at an address (R388). -/
def State.memEvent (s : State) (src part detail a : Nat) : State := (s.raiseMem src part detail a).takeVerdicts

/-- ECC_ERROR (R388): corrected, used as read, repaired from the other copy, or Headstock restarts, by the partition and
the kind of error; Gouge takes up an error in the history pool of a context (R284, R289), and one that meets the engine's running
test makes it INCONCLUSIVE (R285). DETAIL names the data hit; where the address holds none, it is the operand. -/
def execEccError (part : Fin 6) (uncorrectable : Bool) (addr : Word) (detail : BitVec 48) (s : State) : Res :=
  s.act! (
    let a := addr.toNat
    if !uncorrectable then s.memEvent 96 part.val a a
    else if part.val ≤ 2 then
      let d := (s.dataDetail part.val a).getD detail.toNat
      let s := if part.val ≤ 1 && inPool a then s.spoil a else s
      let s := if part.val = 2 then s.historyBad (bitsOf d 40 32) a else s
      let s := s.memEvent 97 part.val d a
      if part.val = 2 && s.flt.running.any (fun t => decide (t.target = TestTarget.gouge)) then (s.endTest 3).takeVerdicts else s
    else if part.val = 3 then s.memEvent 98 part.val a a
    else if part.val = 4 then
      let s := s.event 99 instHub 0
      { s with flt := { s.flt with restarting := true }, hs := { s.hs with flight := [], parts := [] } }
    else s)

/-- STAGE_HOLD_TIMEOUT (R394): a self-timed stage has held its request for more than 1 ms, until an array test passes (log 94). -/
def execStageHoldTimeout (s : State) : Res :=
  s.act! (({ s with flt := { s.flt with stageHeld := true } }).event 101 instHub 0)
/-- FIRMWARE_WATCHDOG (R394): the firmware has not served its watchdog for 10 ms. -/
def execFirmwareWatchdog (s : State) : Res :=
  s.act! (({ s with flt := { s.flt with wdLate := true } }).event 102 instHub 0)

/-- ALIVE_TOGGLE (R394): at the next multiple of 500 us ALIVE toggles, or is driven low while a condition fails, without REFCLK too. -/
def execAliveToggle (s : State) : Res :=
  s.act! (if s.spn.refclk then
    let s := s.moveTo ((s.lt / (500000 * nsU) + 1) * (500000 * nsU))
    let b := !s.flag R.FLT_ALIVE F.FLT_ALIVE_HOLD && !s.flt.alivePin
    let s' := { s with flt := { s.flt with alivePin := b } }
    if b = s.flt.alivePin then s else s'.emit (.pin pinAlive (b2n b) s.lt)
  else s.aliveLow)

/-- The memory address of the line under test (Table 14.7): that of its line, or of the data it was named by (log 108). -/
def State.lineAddr (s : State) (part key : Nat) : Nat := if key < 2 ^ 45 then 8 * key else s.dataAddr part (key - 2 ^ 45)
/-- A line that failed its test takes a spare line and raises source 100 with its address (Table 14.5); a verdict of FAIL stands only once no
spare line is left. -/
def State.lineTest (s : State) (part key : Nat) (v : Nat) : State :=
  if v = 2 ∧ 0 < s.flt.spareLines then
    let a := s.lineAddr part key
    let s := { s with flt := { s.flt with spareLines := s.flt.spareLines - 1, remapped := s.flt.remapped ++ [a] } }
    (s.endTest 1).raiseMem 100 part a a
  else s.endTest v
/-- The end of the running test with a verdict (R396): its target takes it up. -/
def State.testDone (s : State) (v : Nat) : State :=
  match s.flt.running with
  | none => s
  | some t =>
    let s := match t.target with
      | .line part key => s.lineTest part key v
      | .array => if v = 1 then (({ s with flt := { s.flt with stageHeld := false } }).endTest v) else s.endTest v
      | _ => s.endTest v
    let s := s.takeVerdicts
    { s with flt := { s.flt with ended := [] } }
/-- SELFTEST_DONE (R396). -/
def execSelftestDone (v : Verdict) (s : State) : Res := s.act! (s.testDone (verdictCode v))
/-- SELFTEST_REQUEUE (R395): a test that an operation waits for and that ended NOT_RUN is queued again. -/
def execSelftestRequeue (s : State) : Res :=
  s.act! (match s.flt.notRun with
    | t :: r => ({ s with flt := { s.flt with notRun := r } }).callTest t.src t.target t.inst
    | [] => s)

end Sys2Proof.Machine
end

