-- ==== Sys2Proof/Machine/Pages.lean ====
section
/-! DEFINITION. What a register reads as when its value follows from other state, and the snapshot pages: the strobe
that latches them and the transfer (sections 1.6 and 17.5). -/
namespace Sys2Proof.Machine

/-- VDDC of a level in mV (Table 16.2). -/
def vddcOf (l : Nat) : Nat := 620 + 80 * l
/-- The measured VDDC in mV (Table 16.10): as reported out of regulation, else the level's voltage, which moves at 2 mV/us
during a change of level (R428, R431). -/
def State.vddcNow (s : State) : Nat :=
  match s.pwr.vddc with
  | some mv => mv
  | none =>
    let now := vddcOf s.level
    match s.pwr.change with
    | some c =>
      let goal := if c.kind = 1 then vddcOf c.value
        else if c.value = 0 then vddcOf (s.fld R.PWR_STAT F.PWR_STAT_RUNPL) else vddcOf 0
      let moved := 2 * ((s.lt - c.since) / (1000 * nsU))
      if now ≤ goal then min goal (now + moved) else max goal (now - moved)
    | none => now
/-- Age of the valid mirror in ms, 0xFFFF when there is none (Table 12.16). -/
def State.mirrorAge (s : State) : Nat :=
  match s.ring.mirror with
  | some m => if s.mirrorValid then min ((s.lt - m.time) / (1000000 * nsU)) 0xFFFF else 0xFFFF
  | none => 0xFFFF
/-- Pages held by buffers with ALLOC = 1 (Table 8.8). -/
def State.allocPages (s : State) : Nat := ((List.range 4096).filter s.bowlHeld).length

/-- The register's word with one field replaced. -/
def State.withFld (s : State) (a : Nat) (f : Fld) (v : Nat) : Nat := putBits (s.reg a).toNat f.hi f.lo v
/-- The word of a register that shows other state of the hub, by the tables that describe it; none: the register's own. -/
def State.derived (s : State) (a : Nat) (r : Reg) (ix : List Nat) : Option Nat :=
  match r, ix with
  | .PRC_DEMAND, _ => some (min s.prcDemand (2 ^ 32 - 1))
  | .STR_RATE, [c] => some (s.strRates c).1
  | .STR_WIRE, [c] => some (s.strRates c).2
  | .STR_FSUM, _ => some s.strFsum
  | .STR_WSUM, _ => some s.strWsum
  | .STR_GSTAT, _ => some (s.withFld a F.STR_GSTAT_POOLPG s.strPoolPages)
  | .STR_GSTORE, _ => some s.gapStore.length
  | .CAP_BOWL, _ => some (s.allocPages * 2 ^ 16 + s.spillPages)
  | .CAP_SLOT, [b] => some (s.withFld a F.CAP_SLOT_NREC (s.capNrec b))
  | .CAP_STAT, [b] => some ((s.capSync b).reg a).toNat
  | .RGN_STAT, [g] => some (s.withFld a F.RGN_STAT_MHOLD (b2n (s.mains.hold && s.rgMains g)))
  | .CH_BQ_CTRL, [n] =>
    some (putBits (s.withFld a F.CH_BQ_CTRL_COMMIT0 (b2n (s.waitsBit n a 8))) F.CH_BQ_CTRL_COMMIT1.hi F.CH_BQ_CTRL_COMMIT1.lo
      (b2n (s.waitsBit n a 9)))
  | .CH_STEADY_CTRL, [n] => some (s.withFld a F.CH_STEADY_CTRL_RETEST (b2n (s.retesting false n)))
  | .SPR_CTRL, [c] => some (s.withFld a F.SPR_CTRL_RETEST (b2n (s.retesting true c)))
  | .CLU_EXC_CTRL, [c] => some (s.withFld a F.CLU_EXC_CTRL_CLR_SHUT (b2n (s.clrWaits c)))
  | .GGE_CTRL, _ => some (s.withFld a F.GGE_CTRL_RETEST (b2n (s.gge.retest && s.ggeTesting)))
  | .SPN_CTRL, _ => some (s.withFld a F.SPN_CTRL_STEP (b2n (decide (s.lt < s.spn.stepUntil))))
  | .GGE_STAT, _ => some ((s.ggeSync.reg a).toNat)
  | .GGE_LOAD, _ => some s.ggeLoad
  | .GGE_POOL, _ => some (s.ggeUsed * 2 ^ 16 + (4096 - s.ggeUsed))
  | .GGE_OBUF, _ => some s.ggeFill
  | .GGE_CSTAT, [c] => some (s.withFld a F.GGE_CSTAT_GRAN (if s.ggeActive.contains c then s.ggeGran c else 0))
  | .SPN_LTS, _ => some (ltSec s.lt % 2 ^ 32)
  | .SPN_LTS_HI, _ => some (ltSec s.lt / 2 ^ 32)
  | .SPN_LTN, _ => some (ltNs s.lt)
  | .SPN_LTF, _ => some (ltFrac s.lt)
  | .PWR_ACNT, _ => some (s.acnt % 2 ^ 32)
  | .PWR_ACNT_HI, _ => some (s.acnt / 2 ^ 32)
  | .PWR_VDDC, _ => some s.vddcNow
  | .CHP_MIRR, _ => some (s.withFld a F.CHP_MIRR_AGE s.mirrorAge)
  | .CMD_STAT, _ => some (s.withFld a F.CMD_STAT_INFLT (min s.hs.flight.length 64))
  | .CMD_SPI_STAT, _ => some s.hs.spiq.length
  | _, _ => none
/-- The word a register shows. -/
def State.show (s : State) (a : Nat) : Nat :=
  match lookupReg a with
  | some (d, ix) => (s.derived a d.reg ix).getD (s.reg a).toNat
  | none => 0

/-- Words of a page, beginning at an address. -/
def pageRun (base : Nat) (ws : List Nat) : List (Nat × Word) :=
  (List.range ws.length).map (fun i => (base + 4 * i, BitVec.ofNat 32 ((ws[i]?).getD 0)))
/-- The word of a stream context in its page (R266): spill pages and fill in units. -/
def State.strPage (s : State) (c : Nat) : Nat := (s.st c).spill.length * 2 ^ 19 + ((s.st c).wp - (s.st c).rp)
/-- Page words of a channel (Table 17.6, R201). -/
def State.chPage (s : State) (n : Nat) : List (Nat × Word) :=
  pageRun (0x01000000 + 0x400 * n + 0x304) ([R.CH_AIN_STAT n, R.CH_STEADY_STAT n, R.CH_HLT_STAT n, R.CH_SW_STAT n,
      R.CH_EVT_STAT n, R.CH_RAW_CNT n, R.CH_RAW_RES n].map s.show)
    ++ pageRun (0x01000000 + 0x400 * n + 0x380) ([R.CH_OUT_W n, R.CH_OUT_Q n, R.CH_OUT_T n, R.CH_OUT_T_HI n].map s.show)
/-- Page words of a tracker (Table 17.6). -/
def State.trkPage (s : State) (t : Nat) : List (Nat × Word) :=
  pageRun (0x0001F010 + 0x10 * t) ([R.TRK_STAT t, R.TRK_OFS t, R.TRK_OFS_HI t, R.TRK_FRQ t].map s.show)
/-- Every word the snapshot pages take at a strobe, by rising address (Table 17.6). -/
def State.pageImage (s : State) : List (Nat × Word) :=
  pageRun 0x0000F004 ([R.PWR_STAT, R.PRC_DEMAND].map s.show)
    ++ pageRun 0x0000F00C ((List.range 4).map (fun d => s.show (R.DLK_STAT d)))
    ++ pageRun 0x0000F020 ((List.range 8).map (fun g => s.show (R.RGN_WSEQ g)))
    ++ pageRun 0x0001F004 [s.show R.SPN_STAT]
    ++ ((List.range 3).map s.trkPage).flatten
    ++ pageRun 0x0002F004 ((List.range 8).map (fun w => s.show (R.FLT_RAW w)) ++ (List.range 8).map (fun w => s.show (R.FLT_STICKY w)))
    ++ pageRun 0x0003F004 ([R.CMD_STAT, R.CMD_SPI_STAT].map s.show)
    ++ pageRun 0x0004F004 ((List.range 10).map (fun i => s.show (R.LNE_EYE i)))
    ++ pageRun 0x0005F004 ((List.range 2).map (fun p => s.show (R.NET_STAT p)))
    ++ pageRun 0x0006F004 ([R.CHP_STAT 0, R.CHP_STAT 1, R.CHP_RING, R.CHP_ACT, R.CHP_MIRR].map s.show)
    ++ pageRun 0x0007F004 ((List.range 512).map s.strPage)
    ++ pageRun 0x0008F004 ([R.GGE_STAT, R.GGE_OBUF].map s.show)
    ++ pageRun 0x0009F004 ((List.range 16).map (fun b => s.show (R.CAP_STAT b)))
    ++ pageRun 0x000AF004 ([R.TLS_STAT, R.TLS_SI, R.TLS_AX 0, R.TLS_AX 1, R.TLS_AX 2, R.TLS_AX 3].map s.show)
    ++ ((List.range 384).map s.chPage).flatten

/-- The address lies in a snapshot page (R19). -/
def inPage (a : Nat) : Bool :=
  (decide (a < 0x000B0000) && decide (0xF000 ≤ a % 0x10000))
    || (decide (0x01000000 ≤ a) && decide (a < 0x01060000) && decide (0x300 ≤ a % 0x400))
/-- The first or the last word of a snapshot page (R43). -/
def pageEdge (a : Nat) : Bool :=
  if a < 0x000B0000 then decide (a % 0x1000 = 0) || decide (a % 0x1000 = 0xFFC)
  else decide (a % 0x400 = 0x300) || decide (a % 0x400 = 0x3FC)
/-- The word a snapshot page reads (R43, R452): zero until the first snapshot. -/
def State.pageWord (s : State) (a : Nat) : Nat :=
  if !s.snap.taken then 0
  else if pageEdge a then (s.reg R.SNAP_SEQ).toNat
  else (tabGet (fun _ => (0 : Word)) s.snap.page a).toNat

/-- The transfer into all pages is complete (R42, R43). -/
def State.transfer (s : State) : State :=
  let s := { s with snap := { s.snap with page := s.snap.latched, latched := [], running := none, taken := true } }
  (s.setReg R.SNAP_SEQ (s.reg R.SNAP_SEQ + 1)).setFlag R.SNAP_STAT F.SNAP_STAT_BUSY false
/-- The strobe of a scheduled snapshot (R40): its instant and causes are recorded and every page word is latched. DESIGN CHOICE (log 122):
one whose instant a time step has passed (R60) strobes after the step with the instant it was asked for, and is no missed one (R42). -/
def State.strobe (s : State) (r : SnapReq) : State :=
  let s := s.moveTo r.time
  let s := { s with snap := { s.snap with sched := s.snap.sched.filter (fun q => !decide (q = r)), running := some r } }
  let s := (s.setFlag R.SNAP_STAT F.SNAP_STAT_BUSY true).setFld R.SNAP_STAT F.SNAP_STAT_CAUSE r.cause
  let s := (s.setPair R.SNAP_LTS R.SNAP_LTS_HI (ltSec r.time)).setReg R.SNAP_LTN (BitVec.ofNat 32 (ltNs r.time))
  let s := s.setReg R.SNAP_LTF (BitVec.ofNat 32 (ltFrac r.time))
  { s with snap := { s.snap with latched := s.pageImage.filter (fun p => !decide (p.2 = 0)) } }

/-- SNAPSHOT_STROBE (R40, R42): the earliest scheduled snapshot; the transfer of the one before it is complete by then. -/
def execSnapshotStrobe (s : State) : Res :=
  s.act! (match s.snap.sched with
    | r :: _ =>
      if s.spn.refclk then (if s.snap.running.isSome then s.transfer else s).strobe r else s
    | [] => s)

/-- SNAPSHOT_TRANSFER_DONE (R42, R43). -/
def execSnapshotTransferDone (s : State) : Res := s.act! (if s.snap.running.isSome then s.transfer else s)

end Sys2Proof.Machine
end

