-- ==== Sys2Proof/Machine/Tailstock.lean ====
section
/-! DEFINITION. Tailstock (chapter 15): parameter sets, safe inputs, encoders, STO, SS1 and SBC, telegrams, reset and
lockout. Each of the two channels has its own pins, counts, commands and outputs (R401), and both take the steps of Table 15.2 together;
what they send each other crosses the die link of FE0 (R25): channel A's words go out on it, and channel B's are an input. A channel is
named by a Bool, false A and true B. -/
namespace Sys2Proof.Machine

def State.setTls (s : State) (x : TlsState) : State := { s with tls := x }
def State.inp (s : State) (j : Nat) : SafeInput := (s.tls.inputs[j]?).getD SafeInput.init
def State.setInp (s : State) (j : Nat) (x : SafeInput) : State :=
  { s with tls := { s.tls with inputs := s.tls.inputs.set j x } }
def State.axis (s : State) (x : Nat) : SafeAxis := (s.tls.axes[x]?).getD SafeAxis.init
def State.setAxis (s : State) (x : Nat) (a : SafeAxis) : State := { s with tls := { s.tls with axes := s.tls.axes.set x a } }
/-- An axis as a channel has it (R401). -/
def State.drive (s : State) (c : Bool) (x : Nat) : SafeDrive := if c then (s.axis x).b else (s.axis x).a
def State.setDrive (s : State) (c : Bool) (x : Nat) (d : SafeDrive) : State :=
  s.setAxis x (if c then { s.axis x with b := d } else { s.axis x with a := d })
/-- Do the same to an axis in both channels. -/
def State.bothDrives (s : State) (x : Nat) (f : SafeDrive → SafeDrive) : State :=
  (s.setDrive false x (f (s.drive false x))).setDrive true x (f (s.drive true x))
def State.sch (s : State) (c : Bool) : SafeChan := if c then s.tls.chB else s.tls.chA
def State.setSch (s : State) (c : Bool) (x : SafeChan) : State :=
  s.setTls (if c then { s.tls with chB := x } else { s.tls with chA := x })
/-- STO_A and STO_B of an axis are both energised: it has torque (R401). -/
def State.torque (s : State) (x : Nat) : Bool := (s.drive false x).sto && (s.drive true x).sto
/-- Both switches of SBC are closed: the brake is released (R401). -/
def State.released (s : State) (x : Nat) : Bool := (s.drive false x).sbc && (s.drive true x).sbc
/-- DESIGN CHOICE (log 119): FAULT and LOCKOUT are of the axis and of Tailstock, so both channels take them whichever found the cause, and
switches that do not match in either channel discard the set in both; commands, outputs, speeds, readbacks and comparisons are each
channel's own. An event of a safety cycle; its events are raised at its end by rising source and instance (R387). -/
def State.say (s : State) (src inst : Nat) : State := s.setTls { s.tls with evs := s.tls.evs ++ [(src, inst)] }
/-- An event that either channel finds, once for both. -/
def State.sayOnce (s : State) (src inst : Nat) : State := if s.tls.evs.contains (src, inst) then s else s.say src inst
/-- Raise what has been found. -/
def State.raiseTls (s : State) : State :=
  let l := s.tls.evs.foldl (fun l e => insertEvent e l) []
  (s.setTls { s.tls with evs := [] }).forEach l (fun s e => s.raise e.1 e.2)
/-- Axis states (Table 15.14). -/
def axDisabled : Nat := 0
def axStopped : Nat := 1
def axSs1 : Nat := 2
def axRun : Nat := 3
def axFault : Nat := 4
def gNoparam : Nat := 0
def gActive : Nat := 1
def gLockout : Nat := 2
/-- Connection states (Table 15.14). -/
def cnNone : Nat := 0
def cnSync : Nat := 1
def cnRunning : Nat := 2
def cnExpired : Nat := 3

/-- Fields of the active set (Tables 15.4 to 15.6). -/
def State.par (s : State) (o n : Nat) : Nat := natAt s.tls.set o n
def State.inPar (s : State) (j o n : Nat) : Nat := s.par (16 + 8 * j + o) n
def State.axPar (s : State) (x o n : Nat) : Nat := s.par (144 + 24 * x + o) n
def State.axEnabled (s : State) (x : Nat) : Bool := decide (s.tls.g = gActive) && decide (s.axPar x 0 1 = 1)
def State.inUsed (s : State) (j : Nat) : Bool := decide (s.tls.g = gActive) && decide (s.inPar j 0 1 % 4 ≠ 0)
def State.tlgWd (s : State) : Nat := s.par 10 2
def State.tpPer (s : State) : Nat := s.par 12 2
/-- Milliseconds in safety cycles (R402). -/
def msCycles (ms : Nat) : Nat := 4 * ms

/-- Every field of an input entry lies in its range (Table 15.5). -/
def inputOk (b : List Byte) (j : Nat) : Bool :=
  let f := fun (o n : Nat) => natAt b (16 + 8 * j + o) n
  decide (f 0 1 ≤ 2) && !(f 1 1).testBit 6 && !(f 1 1).testBit 2 && decide (2 ≤ f 2 1) && decide (f 2 1 ≤ 32)
    && decide (f 3 1 ≤ 2) && decide (f 4 1 < 16) && decide (f 5 1 ≤ 1) && decide (10 ≤ f 6 2) && decide (f 6 2 ≤ 500)
    && !(decide (f 0 1 = 2) && (f 1 1).testBit 7)
/-- Every field of an axis entry lies in its range (Table 15.6). -/
def axisOk (b : List Byte) (x : Nat) : Bool :=
  let f := fun (o n : Nat) => natAt b (144 + 24 * x + o) n
  decide (f 0 1 ≤ 1) && decide (f 1 1 ≤ 1) && decide (1 ≤ f 2 2) && decide (1 ≤ f 16 1) && decide (f 16 1 ≤ 16)
    && decide (f 17 1 ≤ 2) && decide (f 18 2 ≤ 10000) && decide (f 20 1 ≤ 1) && decide (f 21 3 = 0)
/-- The format of a parameter set (Tables 15.4 to 15.6, R407). -/
def setFormat (b : List Byte) : Bool :=
  let n := b.length
  decide (natAt b 0 1 = 1) && decide (natAt b 1 1 = 0) && decide (natAt b 2 2 = n) && decide (240 ≤ n) && decide (n ≤ 2048)
    && decide (n % 4 = 0) && decide (natAt b 5 3 = 0) && decide (natAt b 10 2 ≤ 1000)
    && (decide (natAt b 12 2 = 0) || (decide (10 ≤ natAt b 12 2) && decide (natAt b 12 2 ≤ 1000)))
    && decide (natAt b 14 1 < 32) && decide (natAt b 15 1 = 0)
    && (List.range 16).all (inputOk b) && (List.range 4).all (axisOk b) && (b.drop 240).all (fun c => decide (c = 0))
/-- The CRC of a set over bytes 0 to PLEN - 1, PLEN as its header says (R407). -/
def setCrcOf (b : List Byte) : Nat := crc32c (b.take (natAt b 2 2))
/-- What channel B has of a text that channel A sends on in fragments of four bytes (R403): nothing while FE0's die link is down (R25). -/
def State.copyB (s : State) (b : List Byte) : List Byte :=
  if s.dieUp 0 then b ++ List.replicate ((4 - b.length % 4) % 4) 0 else []
/-- The result code of a parameter set (R407, Table 15.7; the order of the tests is log 18's): the channels compare what each computes and
reads, then the CRC with the switches, and only a sealed set is looked into (R409). -/
def State.setResult (s : State) (b : List Byte) : Nat :=
  let crc := setCrcOf b
  let sw := fun (i : Nat) => (s.tls.seals[i]?).getD 0
  if s.tls.g = gLockout then 6
  else if !s.dieUp 0 ∨ setCrcOf (s.copyB b) ≠ crc ∨ sw 0 ≠ sw 1 ∨ sw 2 ≠ sw 3 then 2
  else if crc % 65536 ≠ sw 0 then 1
  else if !setFormat b then 3
  else if natAt b 4 1 ≠ sw 2 then 4
  else if (List.range 4).any (fun x => [false, true].any (fun c => decide ((s.drive c x).st = axSs1) || decide ((s.drive c x).st = axRun))) then 5
  else 0
/-- A cross-channel word in the fragment form (R403): the four bytes of a text at word index `n`. -/
def fragWord (kind n : Nat) (b : List Byte) : Nat :=
  2 ^ 62 + kind * 2 ^ 60 + b2n (decide (b.length ≤ 4 * n + 4)) * 2 ^ 59 + n % 2048 * 2 ^ 48
    + natAt (b ++ List.replicate 4 0) (4 * n) 4 * 2 ^ 16
/-- Hand a telegram (kind 0) or a parameter set (kind 1) unaltered to channel B (R403). -/
def State.toChanB (s : State) (kind : Nat) (b : List Byte) : State :=
  s.forEach (List.range ((b.length + 3) / 4)) (fun s n => s.dieSend 0 0x30 (fragWord kind n b))
/-- SAFE_PARAM at Tailstock (R407): the status (0x00 OK, 0x10 SAFETY) and the 8-byte reply. -/
def State.safeParam (s : State) (b : List Byte) : State × Nat × List Byte :=
  let s := s.toChanB 1 b
  let r := s.setResult b
  let reply := beBytes 4 (setCrcOf b) ++ beBytes 2 ((s.tls.seals[0]?).getD 0) ++ beBytes 1 r ++ beBytes 1 0
  let s := s.setTls { s.tls with pres := r }
  if r = 0 then (s.setTls { s.tls with next := some b }, 0, reply) else (s.raiseHub 238, 0x10, reply)

/-- A channel de-energises its outputs of an axis: STO and SBC in the same cycle (R401, R414, R416). -/
def State.axOff (s : State) (c : Bool) (x st : Nat) : State :=
  s.setDrive c x { s.drive c x with st := st, sto := false, sbc := false, byReq := false }
/-- An enabled axis enters FAULT, whichever channel found it (R404, R405, R413; log 119). -/
def State.axToFault (s : State) (x : Nat) : State :=
  if s.axEnabled x then
    s.bothDrives x (fun d => { d with st := axFault, sto := false, sbc := false, byReq := false, needEdge := true })
  else s
/-- Every enabled axis enters FAULT. -/
def State.allFault (s : State) : State := s.forEach (List.range 4) (fun s x => s.axToFault x)
/-- Every output of both channels is de-energised. -/
def State.allOff (s : State) : State :=
  s.forEach (List.range 4) (fun s x => s.bothDrives x (fun d => { d with sto := false, sbc := false, byReq := false }))
/-- Tailstock enters LOCKOUT (R420): every output is de-energised, source 224. -/
def State.lockout (s : State) (cause : Nat) : State :=
  if s.tls.g = gLockout then s
  else
    let s := s.allFault.allOff
    (s.setTls { s.tls with g := gLockout, next := none, lcause := cause }).say 224 instHub
/-- The active set is discarded: NOPARAM (R406, R409). -/
def State.toNoparam (s : State) : State :=
  let s := s.forEach (List.range 4) (fun s x => (s.axOff false x axDisabled).axOff true x axDisabled)
  s.setTls { s.tls with g := gNoparam, set := [], conn := cnNone, synced := false }

/-- Channel B's filtered state of an input, as sampled and as B's word tells of it (R403, R410). -/
def State.inB (s : State) (j : Nat) : Bool := (s.inp j).fb && s.tls.sistB.testBit j
/-- An input demands (R410, R411). -/
def State.inDemand (s : State) (j : Nat) : Bool :=
  s.inUsed j && ((s.inp j).fault || !(s.inp j).fa || !s.inB j)
/-- Test pulse that is low at the sample of this cycle (R412). -/
def State.tpAt (s : State) (c : Nat) : Option Nat :=
  if s.tpPer = 0 then none
  else (List.range 4).find? (fun t => decide (c % (4 * s.tpPer) = 4 * t))
/-- A filter takes a sample (R410, R412): the run of samples in the new state; a masked sample only advances a run towards
demand. -/
def filterStep (filtered sample masked : Bool) (run : Nat) : Nat :=
  if masked then (if filtered && decide (0 < run) then run + 1 else run)
  else if sample ≠ filtered then run + 1 else 0
/-- An input enters input FAULT. -/
def State.inFault (s : State) (j src : Nat) : State :=
  (s.setInp j { s.inp j with fault := true, sawDemand := false, sawFree := false }).sayOnce src j
/-- Safety cycles since cycle `c`; the count wraps (Table 15.14). -/
def State.cycSince (s : State) (c : Nat) : Nat := (s.tls.cyc + 2 ^ 32 - c) % 2 ^ 32
/-- The pin of a channel is fed from the test pulse that is low at this sample (R412). -/
def State.tpMask (s : State) (c : Bool) (j : Nat) : Bool :=
  let sel := s.inPar j 1 1 / (if c then 16 else 1) % 16
  s.inUsed j && sel.testBit 3 && decide (s.tpAt ((s.tls.cyc + 2 ^ 32 - 1) % 2 ^ 32) = some (sel % 4))
/-- FT consecutive samples in a new state change a channel's filtered state (R410). -/
def State.filterTurn (s : State) (c : Bool) (j : Nat) : State :=
  let x := s.inp j
  let ft := s.inPar j 2 1
  if !s.inUsed j then s
  else if c then (if ft ≤ x.cb then s.setInp j { x with fb := !x.fb, cb := 0 } else s)
  else if ft ≤ x.ca then s.setInp j { x with fa := !x.fa, ca := 0 }
  else s
/-- Step 2 for an input (R410, R412): both channels' samples, test-pulse checks and filters. -/
def State.sampleInput (s : State) (o : CycleObs) (j : Nat) : State :=
  if !s.inUsed j then s
  else
    let pa := o.siA.val.testBit j
    let pb := o.siB.val.testBit j
    let ma := s.tpMask false j
    let mb := s.tpMask true j
    let anti := decide (s.inPar j 0 1 = 2)
    let x := s.inp j
    let ca := filterStep x.fa pa ma x.ca
    let cb := filterStep x.fb (if anti then !pb else pb) mb x.cb
    let s := s.setInp j { x with ca := ca, cb := cb }
    let s := if (ma && pa) || (mb && pb) then s.inFault j 229 else s
    (s.filterTurn false j).filterTurn true j
/-- The filtered states have disagreed for DISC ms (R411). -/
def State.discrepancy (s : State) (j : Nat) : State :=
  if s.inUsed j ∧ msCycles (s.inPar j 6 2) ≤ (s.inp j).disc ∧ !(s.inp j).fault then s.inFault j 228 else s
/-- Step 7 for an input: the run of disagreement, what an input in FAULT has shown, and the discrepancy (R411). -/
def State.trackInput (s : State) (j : Nat) : State :=
  let x := s.inp j
  let b := s.inB j
  let demand := x.sawDemand || (!x.fa && !b)
  (s.setInp j { x with disc := if x.fa = b then 0 else x.disc + 1, sawDemand := x.fault && demand,
                       sawFree := x.fault && demand && (x.sawFree || (x.fa && b)) }).discrepancy j

/-- Speed of an axis in counts/s over its window, by a channel's own counts (R413). -/
def State.axSpeed (s : State) (c : Bool) (x : Nat) : Rat :=
  let spw := max (s.axPar x 16 1) 1
  let h := (s.drive c x).hist
  let now := (h[0]?).getD 0
  let old := (h[spw]?).getD ((h.getLast?).getD 0)
  ((signed 32 (now + 2 ^ 32 - old) * 4000 : Int) : Rat) / ((spw : Nat) : Rat)
def absQ (q : Rat) : Rat := if q < 0 then -q else q
/-- Step 3: each channel latches its counts (R402). -/
def State.latchCounts (s : State) : State :=
  s.forEach (List.range 4) (fun s x => s.bothDrives x (fun d => { d with hist := (d.cnt :: d.hist).take 17 }))

/-- Functions a demand asks for: STO and SS1 (R414). -/
def fnSto : Nat := 1
def fnSs1 : Nat := 2
/-- Demands on an axis as (source of the stop, function) in the order of R414's table. -/
def State.demands (s : State) (x : Nat) : List (Nat × Nat) :=
  let ins := (List.range 16).filter (fun j => s.inDemand j && (s.inPar j 4 1).testBit x && decide (s.inPar j 3 1 ≠ 0))
  let fn := s.axPar x 17 1
  let sto := s.tls.axSto.testBit x
  let run := decide (s.tls.conn = cnRunning)
  ins.map (fun j => (241, s.inPar j 3 1))
    ++ (if fn ≠ 0 ∧ (!run ∨ !s.tls.axRun.testBit x ∨ sto) then [(242, if run ∧ sto then fnSto else fn)] else [])
    ++ (if s.tls.collector ∧ (s.par 14 1).testBit x then [(243, if (s.par 14 1).testBit 4 then fnSs1 else fnSto)] else [])
/-- A demand that needs a reset edge to end: an input without AUTO, the loss of the connection (R418 exempts only a telegram's own demand),
or a collector request (R414, R419). -/
def State.edgeDemand (s : State) (x : Nat) : Bool :=
  (List.range 16).any (fun j => s.inDemand j && (s.inPar j 4 1).testBit x && decide (s.inPar j 3 1 ≠ 0)
      && (!(s.inPar j 5 1).testBit 0 || (s.inp j).fault))
    || (decide (s.axPar x 17 1 ≠ 0) && decide (s.tls.conn ≠ cnRunning))
    || (s.tls.collector && (s.par 14 1).testBit x)
/-- A fault condition of the axis persists (R404, R405). -/
def State.axFaultNow (s : State) (x : Nat) : Bool :=
  s.tls.timing || s.tls.chA.missing || s.tls.chB.missing || (s.axis x).diff
/-- An input that names the axis is in input FAULT (R419). -/
def State.inputFaulty (s : State) (x : Nat) : Bool :=
  (List.range 16).any (fun j => s.inUsed j && (s.inp j).fault && (s.inPar j 4 1).testBit x)

/-- SS1 ends with STO in a channel (R415); source 243 tells of a collector request only now that its stop de-energises (R414). -/
def State.ss1Done (s : State) (c : Bool) (x : Nat) : State :=
  let t := s.axOff c x axStopped
  if (s.drive c x).byReq then t.sayOnce 243 x else t
/-- SS1 monitoring of a channel in a cycle (R415): ramp, standstill, then the time limit. -/
def State.ss1Check (s : State) (c : Bool) (x : Nat) : State :=
  let d := s.drive c x
  if d.st = axSs1 then
    let ramp := s.axPar x 1 1 = 1
    let v := absQ (s.axSpeed c x)
    let still : Rat := (s.axPar x 4 4 : Nat)
    let t : Rat := ((s.cycSince d.ss1From : Nat) : Rat) / 4000
    let lim := d.v0 + (s.axPar x 12 4 : Nat) - (s.axPar x 8 4 : Nat) * t
    if ramp ∧ (if lim < still then still else lim) < v then (s.axToFault x).sayOnce 234 x
    else if ramp ∧ v ≤ still then s.ss1Done c x
    else if msCycles (s.axPar x 2 2) ≤ s.cycSince d.ss1From then
      (if ramp then (s.axToFault x).sayOnce 235 x else s.ss1Done c x)
    else s
  else s
/-- A running axis starts SS1 in a channel; the source of its first demand tells of the stop, that of a collector request only at its end
(R414, R415). -/
def State.ss1Start (s : State) (c : Bool) (x src : Nat) : State :=
  let s := s.setDrive c x { s.drive c x with st := axSs1, ss1From := s.tls.cyc, v0 := absQ (s.axSpeed c x), byReq := decide (src = 243) }
  if src = 243 then s else s.sayOnce src x
/-- Demands of an axis in one channel (R414, R415): STO, or SS1 and its monitoring. -/
def State.evalDrive (s : State) (c : Bool) (x : Nat) : State :=
  let ds := s.demands x
  let sto := ds.find? (fun e => decide (e.2 = fnSto))
  let d := s.drive c x
  match ds.head?, sto with
  | some e, some _ =>
    if d.st = axRun then (s.axOff c x axStopped).sayOnce e.1 x
    else if d.st = axSs1 then
      (if d.byReq then (s.axOff c x axStopped).sayOnce ((sto.getD e).1) x else s.axOff c x axStopped)
    else s
  | some e, none => (if d.st = axRun then s.ss1Start c x e.1 else s).ss1Check c x
  | none, _ => s.ss1Check c x
/-- Step 7 for an axis (R414, R415): faults, then each channel's demands and SS1 monitoring. -/
def State.evalAxis (s : State) (x : Nat) : State :=
  if !s.axEnabled x then s
  else
    let s := if s.axFaultNow x then s.axToFault x else s
    let s := if s.edgeDemand x then s.bothDrives x (fun d => { d with needEdge := true }) else s
    (s.evalDrive false x).evalDrive true x
/-- An axis moves to RUN, both channels energising STO in the cycle (R401, R419). -/
def State.axRestart (s : State) (x : Nat) : State :=
  let cyc := s.tls.cyc
  s.bothDrives x (fun d => { d with st := axRun, sto := true, needEdge := false, stoFrom := cyc })
/-- Both channels have the axis in a state. -/
def State.bothIn (s : State) (x : Nat) (l : List Nat) : Bool :=
  l.contains (s.drive false x).st && l.contains (s.drive true x).st
/-- STOPPED or in FAULT with no demand and no fault of the axis or of its inputs left (R419). -/
def State.axFree (s : State) (x : Nat) : Bool :=
  s.axEnabled x && decide (s.demands x = []) && !s.axFaultNow x && !s.inputFaulty x && s.bothIn x [axStopped, axFault]
/-- Step 8 without an edge: an axis whose demands needed none restarts (R418, R419). -/
def State.autoRestart (s : State) (x : Nat) : State :=
  if s.axFree x && s.bothIn x [axStopped] && !(s.drive false x).needEdge && !(s.drive true x).needEdge then s.axRestart x else s
/-- The state in which a reset edge is judged: a collector demand of an earlier cycle and input FAULTs that have shown demand and then none
end with it (R411, R414); a demand of the edge's own cycle stays in force (R419). -/
def State.edgeClear (s : State) : State :=
  let s := s.setTls { s.tls with collector := s.tls.collector && decide (s.tls.collectorCyc = s.tls.cyc) }
  s.forEach (List.range 16) (fun s j =>
    let x := s.inp j
    if x.fault ∧ x.sawDemand ∧ x.sawFree then s.setInp j { x with fault := false, sawDemand := false, sawFree := false } else s)
/-- Step 8 with a reset edge (R419): axes that are free restart, and a persisting demand refuses it with source 244. -/
def State.resetEdge (s : State) : State :=
  if s.tls.g ≠ gActive ∨ s.tls.setCyc = s.tls.cyc then s
  else
    let s := s.edgeClear
    let bad := (List.range 4).any (fun x => s.axEnabled x && decide (s.demands x ≠ []))
    let s := s.forEach (List.range 4) (fun s x => if s.axFree x then s.axRestart x else s)
    if bad then s.sayOnce 244 instHub else s
/-- Both channels have seen SAFE_RST fall within two cycles of each other, the later of them in this cycle (R419). -/
def State.rstEdge (s : State) : Bool :=
  match s.tls.chA.fall, s.tls.chB.fall with
  | some a, some b => (decide (s.cycSince a = 0) && decide (s.cycSince b ≤ 2)) || (decide (s.cycSince b = 0) && decide (s.cycSince a ≤ 2))
  | _, _ => false
/-- A reset edge of SAFE_RST is taken once. -/
def State.takeRst (s : State) : State :=
  s.setTls { s.tls with chA := { s.tls.chA with fall := none }, chB := { s.tls.chB with fall := none } }
/-- The brakes of an axis in a channel: released SBC_RD ms after STO was energised, if it still is (R416). -/
def State.brake (s : State) (c : Bool) (x : Nat) : State :=
  let d := s.drive c x
  if s.axEnabled x && d.sto && (s.axPar x 20 1).testBit 0 && decide (msCycles (s.axPar x 18 2) ≤ s.cycSince d.stoFrom) then
    s.setDrive c x { d with sbc := true }
  else s

/-- Bits of the axes for which a test holds. -/
def axBits (f : Nat → Bool) : Nat := (List.range 4).foldl (fun n x => n + b2n (f x) * 2 ^ x) 0
/-- Bits of the inputs for which a test holds. -/
def inBits (f : Nat → Bool) : Nat := (List.range 16).foldl (fun n j => n + b2n (f j) * 2 ^ j) 0
/-- SIST: the inputs without demand; an unused input never demands (R410), and without an active set none is shown (log 80). -/
def State.noDemand (s : State) : Nat := inBits (fun j => decide (s.tls.g = gActive) && !s.inDemand j)
/-- RSTOK: a reset edge would restart the axis (Table 15.14). -/
def State.rstOk (s : State) (x : Nat) : Bool := s.edgeClear.axFree x
/-- DEM of an axis (Table 15.14). -/
def State.demBits (s : State) (i : Nat) : Nat :=
  let ds := s.demands i
  let by242 := ds.any (fun d => decide (d.1 = 242))
  b2n (ds.any (fun d => decide (d.1 = 241))) + 2 * b2n (by242 && decide (s.tls.conn = cnRunning))
    + 4 * b2n (by242 && decide (s.tls.conn ≠ cnRunning)) + 8 * b2n (ds.any (fun d => decide (d.1 = 243))) + 16 * b2n (s.axFaultNow i)
/-- The views of Table 15.14, from channel A at the end of a cycle (R424). -/
def State.showTls (s : State) : State :=
  let x := s.tls
  let s := s.setReg R.TLS_STAT (BitVec.ofNat 32 (x.lcause * 2 ^ 24 + x.pres * 2 ^ 16 + x.conn * 2 ^ 10 + x.g))
  let s := s.setReg R.TLS_SI (BitVec.ofNat 32 (inBits (fun j => (s.inp j).fault) * 65536 + s.noDemand))
  let s := s.setReg R.TLS_SIRAW (BitVec.ofNat 32 (inBits (fun j => s.inB j) * 65536 + inBits (fun j => (s.inp j).fa)))
  let s := s.forEach (List.range 4) (fun s i =>
    let s := s.setReg (R.TLS_AX i) (BitVec.ofNat 32 ((if s.axEnabled i then s.demBits i else 0) * 65536 + b2n (s.released i) * 2048
      + b2n (s.drive false i).sto * 1024 + b2n (s.drive true i).sto * 512 + b2n (s.rstOk i) * 256 + (s.drive false i).st))
    s.setReg (R.TLS_SPD i) (BitVec.ofNat 32 (twos 32 (let v := s.axSpeed false i; if v < 0 then -((-v).floor) else v.floor))))
  let s := s.setReg R.TLS_PCRC (BitVec.ofNat 32 (if x.g = gNoparam then 0 else x.setCrc))
  let s := s.setReg R.TLS_SW (BitVec.ofNat 32 ((x.seals[2]?).getD 0 * 65536 + (x.seals[0]?).getD 0))
  let s := s.setReg R.TLS_TLG (BitVec.ofNat 32 x.cn)
  let s := s.setReg R.TLS_TLGST (BitVec.ofNat 32 (x.tlgRefs * 65536 + x.tlgLast))
  s.setReg R.TLS_CYC (BitVec.ofNat 32 x.cyc)

/-- Telegram refusal (R418): its code and count, source 237, and a SAFETY answer. -/
def State.tlgRefuse (s : State) (q : ReqCtx) (code : Nat) : State :=
  (s.setTls { s.tls with tlgLast := code, tlgRefs := min (s.tls.tlgRefs + 1) 0xFFFF,
                         answers := s.tls.answers ++ [(q, 0x10, beBytes 1 code ++ beBytes 3 0)] }).say 237 instHub
/-- CONNID of a direction (R417). -/
def State.connId (s : State) (dir : Nat) : List Byte := beBytes 2 (s.par 8 2) ++ beBytes 1 (s.par 4 1) ++ beBytes 1 dir
/-- The hub's answer to an accepted telegram (R418, Table 15.10). -/
def State.tlgReply (s : State) (cn : Nat) : List Byte :=
  let st := fun (x : Nat) => (s.drive false x).st
  let body := beBytes 4 cn ++ beBytes 1 32 ++ beBytes 3 0
    ++ beBytes 2 s.noDemand ++ beBytes 2 (inBits (fun j => (s.inp j).fault))
    ++ beBytes 1 (axBits (fun x => s.torque x) + 16 * axBits (fun x => s.released x))
    ++ beBytes 1 (axBits (fun x => decide (st x = axSs1)) + 16 * axBits (fun x => decide (st x = axFault)))
    ++ beBytes 1 s.tls.g ++ beBytes 1 (axBits (fun x => s.rstOk x))
    ++ ((List.range 4).map (fun x => beBytes 4 (s.reg (R.TLS_SPD x)).toNat)).flatten
    ++ beBytes 4 s.tls.setCrc ++ beBytes 4 s.tls.cyc
  body ++ beBytes 4 (crc32c (s.connId 2 ++ body))
/-- Hand a telegram to Tailstock (R417), and on to channel B (R403): the fifth in the queue is refused. -/
def State.safeTlg (s : State) (q : ReqCtx) (b : List Byte) : State :=
  let s := s.toChanB 0 b
  if 4 ≤ s.tls.queue.length then (s.tlgRefuse q 0x14).raiseTls
  else s.setTls { s.tls with queue := s.tls.queue ++ [(q, b, s.copyB b)] }
/-- A channel's check of SCRC on what it has of a telegram (R417, R418). -/
def State.scrcOk (s : State) (b : List Byte) : Bool :=
  let pl := natAt b 4 1
  decide (b.length = pl + 12) && decide (natAt b (8 + pl) 4 = crc32c (s.connId 1 ++ b.take (8 + pl)))
/-- The code a telegram is refused with (R418; the order of the tests is log 18's); `b` and `cb` are what channels A and B have of it. -/
def State.tlgCode (s : State) (b cb : List Byte) : Option Nat :=
  let pl := natAt b 4 1
  if s.tls.g ≠ gActive then some 0x15
  else if s.tlgWd = 0 then some 0x10
  else if b.length ≠ pl + 12 ∨ pl < 4 ∨ 64 < pl ∨ pl % 4 ≠ 0 then some 0x13
  else if !s.scrcOk b || !s.scrcOk cb then some 0x11
  else if s.tls.conn = cnRunning ∧ natAt b 0 4 ≠ (s.tls.cn + 1) % 2 ^ 32 then some 0x12
  else none
/-- Step 5 for a telegram (R418). -/
def State.tlgTake (s : State) (q : ReqCtx) (b cb : List Byte) : State :=
  match s.tlgCode b cb with
  | some c => s.tlgRefuse q c
  | none =>
    let x := s.tls
    let cn := natAt b 0 4
    let run := decide (x.conn = cnRunning) || (decide (x.conn = cnSync) && x.synced && decide (cn = (x.cn + 1) % 2 ^ 32))
    let rb := (natAt b 9 1).testBit 0
    s.setTls { x with
      conn := if run then cnRunning else cnSync
      synced := true, cn := cn, accepted := x.cyc, resetBit := rb
      axRun := if run then natAt b 8 1 % 16 else 0
      axSto := if run then natAt b 8 1 / 16 else 0
      tlgEdge := x.tlgEdge || (rb && !x.resetBit && run)
      replies := x.replies ++ [(q, beBytes 4 cn)] }
/-- The watchdog (R418): 4 x TLG_WD cycles without an accepted telegram. -/
def State.tlgExpire (s : State) : State :=
  if s.tls.g = gActive ∧ s.tls.synced ∧ (s.tls.conn = cnSync ∨ s.tls.conn = cnRunning) ∧ msCycles s.tlgWd ≤ s.cycSince s.tls.accepted then
    (s.setTls { s.tls with conn := cnExpired, synced := false, axRun := 0, axSto := 0 }).say 236 instHub
  else s

/-- Step 1 (R409): switches that do not match the active set discard it. -/
def State.checkSeal (s : State) (o : CycleObs) : State :=
  let s := s.setTls { s.tls with seals := [o.sealA.val, o.sealB.val, o.sadrA.val, o.sadrB.val] }
  let crc := s.tls.setCrc % 65536
  if s.tls.g = gActive ∧ (o.sealA.val ≠ crc ∨ o.sealB.val ≠ crc ∨ o.sadrA.val ≠ s.par 4 1 ∨ o.sadrB.val ≠ s.par 4 1) then
    s.toNoparam.say 240 instHub
  else s
/-- The readbacks of a channel in step 2 (R416): the cycles they have disagreed with its commands. -/
def readDrive (d : SafeDrive) (sto sbc : Bool) : SafeDrive :=
  { d with stoBad := if sto = d.sto then 0 else d.stoBad + 1, sbcBad := if sbc = d.sbc then 0 else d.sbcBad + 1 }
def State.readback (s : State) (o : CycleObs) (x : Nat) : State :=
  (s.setDrive false x (readDrive (s.drive false x) (o.stoA.val.testBit x) (o.sbcA.val.testBit x))).setDrive true x
    (readDrive (s.drive true x) (o.stoB.val.testBit x) (o.sbcB.val.testBit x))
/-- Step 7 for the readbacks (R416): two cycles of disagreement cause LOCKOUT. -/
def State.readbackBad (s : State) (x : Nat) : State :=
  let sto := [false, true].any (fun c => decide ((s.drive c x).stoBad = 2))
  let sbc := [false, true].any (fun c => decide ((s.drive c x).sbcBad = 2))
  let s := if sto then (s.lockout 2).say 230 x else s
  if sbc then (s.lockout 3).say 231 x else s
/-- SAFE_RST as one channel samples it (R419): the cycles it has been high, and the cycle of a falling edge. -/
def rstStep (x : SafeChan) (level : Bool) (cyc : Nat) : SafeChan :=
  if level then { x with high := x.high + 1 }
  else { x with high := 0, fall := if msCycles 100 ≤ x.high ∧ x.high ≤ msCycles 2000 then some cyc else x.fall }
/-- SAFE_RST high longer than 2 s (R419). -/
def State.rstHeld (s : State) : State :=
  if (msCycles 2000 < s.tls.chA.high ∨ msCycles 2000 < s.tls.chB.high) ∧ !s.tls.held then
    (s.setTls { s.tls with held := true }).say 246 instHub
  else s
/-- SAFE_RST in both channels. -/
def State.sampleRst (s : State) (o : CycleObs) : State :=
  (s.setTls { s.tls with chA := rstStep s.tls.chA o.rstA s.tls.cyc, chB := rstStep s.tls.chB o.rstB s.tls.cyc,
                         held := s.tls.held && (o.rstA || o.rstB) }).rstHeld
/-- The commands of a channel as its last cycle left them (R403, R404). -/
def State.keepCommands (s : State) (c : Bool) : State :=
  s.setSch c { s.sch c with sto := axBits (fun x => (s.drive c x).sto), sbc := axBits (fun x => (s.drive c x).sbc),
                            ss1 := axBits (fun x => decide ((s.drive c x).st = axSs1)) }
/-- The cycle form of a channel's word (Table 15.3). DESIGN CHOICE (log 80): a telegram is taken in step 5, after the word has gone, so
FLAGS bit 6 tells of the cycle before; bit 7 tells of a falling edge seen in this cycle, bit 4 of a test-pulse error of this sample. -/
def State.cycleWord (s : State) (c : Bool) (o : CycleObs) : Nat :=
  let x := s.tls
  let y := s.sch c
  let i := x.cyc % 4
  let tpErr := (List.range 16).any (fun j => s.tpMask c j && (if c then o.siB.val else o.siA.val).testBit j)
  x.cyc % 64 * 2 ^ 56 + inBits (fun j => if c then (s.inp j).fb else (s.inp j).fa) * 2 ^ 40 + y.sto * 2 ^ 36 + y.sbc * 2 ^ 32
    + y.ss1 * 2 ^ 28 + x.g * 2 ^ 26 + i * 2 ^ 24 + (s.drive c i).cnt % 2 ^ 16 * 2 ^ 8 + b2n (decide (y.fall = some x.cyc)) * 128
    + b2n (x.synced && decide (s.cycSince x.accepted = 1)) * 64 + b2n (!x.timing) * 32 + b2n tpErr * 16
/-- R404 in step 7 of a channel: the other channel's word is missing, or is compared with the own values; `g` is the own GSTATE of step 4. -/
def State.compareWord (s : State) (c : Bool) (g : Nat) (w : Option Nat) : State :=
  match w with
  | none => ((s.setSch c { s.sch c with missing := true, cmdDiff := false }).allFault).sayOnce 226 instHub
  | some w =>
    let x := s.sch c
    let differ := decide (bitsOf w 39 36 ≠ x.sto) || decide (bitsOf w 35 32 ≠ x.sbc) || decide (bitsOf w 31 28 ≠ x.ss1)
    let frame := decide (bitsOf w 61 56 ≠ s.tls.cyc % 64) || decide (bitsOf w 27 26 ≠ g)
    let s := s.setSch c { x with missing := false, cmdDiff := differ }
    if (frame || (differ && x.cmdDiff)) && decide (s.tls.g ≠ gLockout) then (s.lockout 1).say 225 instHub else s
/-- The axis of a word's CNT16 and whether the other channel's count of it differs by more than 4 (R404). -/
def State.countBad (s : State) (c : Bool) (w : Nat) : Nat × Bool :=
  let i := bitsOf w 25 24
  (i, decide (4 < (signed 16 (bitsOf w 23 8 + 2 ^ 16 - (s.drive c i).cnt % 2 ^ 16)).natAbs))
/-- The counts of an axis have been compared (R404). -/
def State.setCounts (s : State) (i : Nat) (bad : Bool) : State :=
  let was := (s.axis i).diff
  let s := s.setAxis i { s.axis i with diff := bad }
  let s := if bad then s.axToFault i else s
  if bad && !was then s.say 232 i else s
/-- Both channels compare (R404): `wa` is channel A's word as B has it, channel B's waits in the state. -/
def State.compareWords (s : State) (g : Nat) (wa : Option Nat) : State :=
  let wb := s.tls.word
  let s := s.setTls { s.tls with word := none, sistB := (wb.map (fun w => bitsOf w 55 40)).getD s.tls.sistB }
  let s := (s.compareWord false g wb).compareWord true g wa
  let ds := (wb.map (s.countBad false)).toList ++ (wa.map (s.countBad true)).toList
  s.forEach ds (fun s e => s.setCounts e.1 (ds.any (fun f => decide (f.1 = e.1) && f.2)))
/-- A parameter set takes effect at step 6 (R408); input FAULTs, a collector request and what the readbacks have shown stay. -/
def State.applySet (s : State) : State :=
  match s.tls.next with
  | none => s
  | some b =>
    let s := s.setTls { s.tls with
      g := gActive, set := b, setCrc := setCrcOf b, next := none, setCyc := s.tls.cyc,
      inputs := s.tls.inputs.map (fun x => { SafeInput.init with fault := x.fault, sawDemand := x.sawDemand, sawFree := x.sawFree }),
      conn := if natAt b 10 2 = 0 then cnNone else cnSync, synced := false, axRun := 0, axSto := 0, resetBit := true,
      tlgEdge := false }
    let s := s.forEach (List.range 4) (fun s x =>
      let st := if s.axPar x 0 1 = 1 then (if s.axFaultNow x then axFault else axStopped) else axDisabled
      s.bothDrives x (fun d => { d with st := st, needEdge := true, sto := false, sbc := false, byReq := false }))
    s.say 239 instHub
/-- 250 us and the start of a cycle (R49, R50). -/
def cycLen : Nat := 250000 * nsU
/-- The next cycle start: the first multiple of 250 us from now on that is not less than 125 us after the last start (R50). -/
def State.cycleAt (s : State) : Nat :=
  let n := (s.lt + cycLen - 1) / cycLen * cycLen
  if s.tls.startTick.isSome ∧ n < s.tls.startLt + 125000 * nsU then n + cycLen else n
/-- The cycle timing fault ends after 4,000 consecutive correct cycles (R405). -/
def State.timingClear (s : State) : State :=
  if s.tls.timing ∧ 4000 ≤ s.tls.goodRun then s.setTls { s.tls with timing := false } else s
/-- A cycle timing fault (R405), once for a gap: every enabled axis enters FAULT, source 227. -/
def State.timingFault (s : State) : State :=
  let said := s.tls.gapSaid
  let s := (s.setTls { s.tls with timing := true, goodRun := 0, gapSaid := true }).allFault
  if said then s else s.say 227 instHub
/-- The gap between cycle starts by both channels (R405). -/
def State.checkGap (s : State) (packets : Nat) : State :=
  let tick := s.always / cycU
  let ok := match s.tls.startTick with
    | some t => decide (4 ≤ tick - t) && decide (tick - t ≤ 13) && decide (2560 ≤ packets) && decide (packets ≤ 7680)
    | none => true
  let s := if ok then (s.setTls { s.tls with goodRun := s.tls.goodRun + 1 }).timingClear else s.timingFault
  s.setTls { s.tls with startTick := some tick, startLt := s.lt, gapSaid := false }
/-- Step 9: the brakes, the views, the telegram replies and the cycle's events. -/
def State.cycleEnd (s : State) : State :=
  let s := s.forEach (List.range 4) (fun s x => (s.brake false x).brake true x)
  let s := s.showTls
  let rs := s.tls.replies.map (fun r => if r.2.length = 4 then (r.1, s.tlgReply (natAt r.2 0 4)) else r)
  (s.setTls { s.tls with replies := rs, tlgEdge := false }).raiseTls
/-- Steps 1 to 3 of Table 15.2 (R402): the cycle starts, and seals, samples, readbacks and counts are taken. -/
def State.cycleSample (s : State) (o : CycleObs) : State :=
  let s := ((s.moveTo s.cycleAt).keepCommands false).keepCommands true
  let s := s.setTls { s.tls with cyc := (s.tls.cyc + 1) % 2 ^ 32 }
  let s := (s.checkGap o.packets).checkSeal o
  let s := (s.forEach (List.range 16) (fun s j => s.sampleInput o j)).sampleRst o
  (s.forEach (List.range 4) (fun s x => s.readback o x)).latchCounts
/-- Steps 5 and 6: telegrams in order of hand-over, the watchdog, and a new set. -/
def State.cycleTake (s : State) : State :=
  let q := s.tls.queue
  (((s.setTls { s.tls with queue := [] }).forEach q (fun s t => s.tlgTake t.1 t.2.1 t.2.2)).tlgExpire).applySet
/-- A stop request of the fault collector comes in; it is held until a reset edge (R392, R414). -/
def State.takeStop (s : State) : State :=
  if s.stopReq then { s with stopReq := false, tls := { s.tls with collector := true, collectorCyc := s.tls.cyc } } else s
/-- Step 7: the comparisons, the readbacks, the inputs and every axis. -/
def State.cycleEvaluate (s : State) (g : Nat) (wa : Option Nat) : State :=
  let s := ((s.compareWords g wa).forEach (List.range 4) (fun s x => s.readbackBad x)).takeStop
  let s := s.forEach (List.range 16) (fun s j => s.trackInput j)
  s.forEach (List.range 4) (fun s x => s.evalAxis x)
/-- Step 8: a reset edge of a telegram or of SAFE_RST, and the axes that need none. -/
def State.cycleReset (s : State) : State :=
  let s := if s.rstEdge then s.takeRst.resetEdge else if s.tls.tlgEdge then s.resetEdge else s
  s.forEach (List.range 4) (fun s x => s.autoRestart x)
/-- Steps 5 to 9 of Table 15.2 (R402). -/
def State.cycleDecide (s : State) (wa : Option Nat) : State := (((s.cycleTake).cycleEvaluate s.tls.g wa).cycleReset).cycleEnd
/-- SAFETY_CYCLE (R402): the steps of Table 15.2 in order; step 4 sends channel A's word over FE0's die link (R25, R403). -/
def State.safetyCycle (s : State) (o : CycleObs) : State :=
  if !s.spn.refclk then s
  else
    let s := s.cycleSample o
    let w := s.cycleWord false o
    (s.dieSend 0 0x30 w).cycleDecide (if s.dieUp 0 then some w else none)

/-- INPUT_FILTER_CHANGE (R410): FT samples in a new state change a channel's filtered state. A safety cycle does the same at its step 2
(log 120). -/
def execInputFilterChange (chB : Bool) (j : Fin 16) (s : State) : Res := s.act! (s.filterTurn chB j.val)
/-- DISCREPANCY_TIMEOUT (R411): the filtered states have disagreed for DISC ms. A safety cycle does the same at its step 7. -/
def execDiscrepancyTimeout (j : Fin 16) (s : State) : Res := s.act! ((s.discrepancy j.val).raiseTls)
/-- Pin numbers of TP[0] to TP[3] in `Out.pin`. -/
def pinTp (t : Nat) : Nat := 64 + t
/-- TEST_PULSE_START (R412): 125 us after the start of the selected cycle. -/
def execTestPulseStart (s : State) : Res :=
  s.act! (match s.tls.tpLow, s.tpAt s.tls.cyc with
    | none, some t =>
      if s.tls.g = gActive then
        let s := s.moveTo (s.tls.startLt + 125000 * nsU)
        ({ s with tls := { s.tls with tpLow := some t } }).emit (.pin (pinTp t) 0 s.lt)
      else s
    | _, _ => s)
/-- TEST_PULSE_END (R412): 125 us after the start of the next cycle. -/
def execTestPulseEnd (s : State) : Res :=
  s.act! (match s.tls.tpLow with
    | some t =>
      if s.tpAt s.tls.cyc = some t then s
      else
        let s := s.moveTo (s.tls.startLt + 125000 * nsU)
        ({ s with tls := { s.tls with tpLow := none } }).emit (.pin (pinTp t) 1 s.lt)
    | none => s)
/-- One decoded step of the quadrature tracks, bit 1 track A and bit 0 track B: 00, 10, 11, 01 counts up (log 19). -/
def quadStep (old new : Nat) : Option Int :=
  let pos := fun (t : Nat) => match t with | 0 => 0 | 2 => 1 | 3 => 2 | _ => 3
  match (pos new + 4 - pos old) % 4 with
  | 0 => some 0
  | 1 => some 1
  | 3 => some (-1)
  | _ => none
/-- A channel's count after a decoded step. -/
def SafeDrive.count (d : SafeDrive) (k : Int) : SafeDrive := { d with cnt := twos 32 ((d.cnt : Int) + k) }
/-- ENCODER_EDGE (R413): each channel counts; an illegal transition faults the axis. -/
def execEncoderEdge (x : Fin 4) (tracks : Fin 4) (fast : Bool) (s : State) : Res :=
  s.act! (
    let a := s.axis x.val
    let t := s.setAxis x.val { a with tracks := tracks.val }
    match quadStep a.tracks tracks.val, fast with
    | some k, false => t.bothDrives x.val (fun d => d.count k)
    | _, _ => (t.axToFault x.val).raise 233 x.val)
/-- SS1_TIME_LIMIT (R415): t has reached TSS1, in either channel. A safety cycle does the same at its step 7. -/
def execSs1TimeLimit (x : Fin 4) (s : State) : Res :=
  s.act! (((s.ss1Check false x.val).ss1Check true x.val).raiseTls)
/-- SBC_RELEASE (R416): SBC_RD ms after STO was energised, if it still is, in either channel. A safety cycle does the same at its step 9. -/
def execSbcRelease (x : Fin 4) (s : State) : Res := s.act! ((s.brake false x.val).brake true x.val)
/-- Pin numbers of STO_A, STO_B and the two switches of SBC in `Out.pin`. -/
def pinOff (x : Nat) (chB sbc : Bool) : Nat := 68 + x + 4 * b2n chB + 8 * b2n sbc
/-- OUTPUT_OFF_TEST (R416): a channel opens its own switch of an energised output for 100 us; `low` says that the readback
showed it within 80 us. -/
def execOutputOffTest (x : Fin 4) (chB sbc low : Bool) (s : State) : Res :=
  s.act! (
    let d := s.drive chB x.val
    let due := decide (s.tls.cyc % 4000 = (500 * x.val + 250 * b2n sbc + 2000 * b2n chB) % 4000)
    if due && (if sbc then d.sbc else d.sto) then
      let s := (s.emit (.pin (pinOff x.val chB sbc) 0 s.lt)).emit (.pin (pinOff x.val chB sbc) 1 (s.lt + 100000 * nsU))
      if low then s else ((s.lockout (if sbc then 3 else 2)).say (if sbc then 231 else 230) x.val).raiseTls
    else s)
/-- SAFE_RST_EDGE (R419): a falling edge that both channels saw within two cycles of each other. A safety cycle does the same at its
step 8. -/
def execSafeRstEdge (s : State) : Res := s.act! (if s.rstEdge then s.takeRst.resetEdge.raiseTls else s)
/-- SAFE_RST_HELD (R419): high longer than 2 s; its edge is ignored. A safety cycle does the same at its step 2. -/
def execSafeRstHeld (s : State) : Res := s.act! s.rstHeld.raiseTls
/-- TELEGRAM_WATCHDOG (R418): 4 x TLG_WD cycles without an accepted telegram. A safety cycle does the same at its step 5. -/
def execTelegramWatchdog (s : State) : Res := s.act! s.tlgExpire.raiseTls
/-- CYCLE_TIMEOUT (R405): 14 always-on ticks without a cycle start, once for each start. -/
def execCycleTimeout (s : State) : Res :=
  s.act! (match s.tls.startTick with
    | some t =>
      let due := cycU * (t + 14)
      let s := if s.always < due then s.pass (due - s.always) else s
      if s.tls.gapSaid then s else s.timingFault.raiseTls
    | none => s)
/-- CYCLE_FAULT_CLEAR (R405): 4,000 consecutive correct cycles. A safety cycle does the same at its start. -/
def execCycleFaultClear (s : State) : Res := s.act! s.timingClear
/-- PARAM_CRC_CHECK (R420): each channel checks its stored set against the other's CRC. -/
def execParamCrcCheck (ok : Bool) (s : State) : Res :=
  s.act! (if s.tls.g = gActive ∧ !ok then (s.lockout 4).raiseTls else s)

end Sys2Proof.Machine
end

