-- ==== Sys2Proof/Machine/Power.lean ====
section
/-! DEFINITION. Power, reset and wake (chapter 16): supplies, performance levels and modes, the request slot, Hush and its
wake record, and the full reset with its release. -/
namespace Sys2Proof.Machine

/-- PRC_CAP and GGE_CAP of a level (Table 16.2). -/
def State.setCaps (s : State) (l : Nat) : State :=
  (s.setReg R.PRC_CAP (BitVec.ofNat 32 (600000 * (l + 1)))).setReg R.GGE_CAP (BitVec.ofNat 32 (12000 * (l + 1)))
/-- The level a network port's rate and RS-FEC need (Table 16.2). -/
def State.portLevel (s : State) (p : Nat) : Nat :=
  rateLevel (s.fld (R.LNE_GRP p) F.LNE_GRP_RATE) (s.flag (R.NET_CTRL p) F.NET_CTRL_FEC)
/-- The level a trained Chainpo link needs (Table 16.2). -/
def State.linkLevel (s : State) (k : Nat) : Nat :=
  if s.linkFlag k && decide (s.fld (R.CHP_STAT k) F.CHP_STAT_GEN = 3) then
    (if s.fld (R.CHP_STAT k) F.CHP_STAT_WIDTH = 2 then 2 else 1)
  else 0
/-- The level that ports and links need (R430). -/
def State.wireLevel (s : State) : Nat := max (max (s.portLevel 0) (s.portLevel 1)) (max (s.linkLevel 0) (s.linkLevel 1))
/-- The level that running compressed contexts need (Table 16.2). -/
def State.effortLevel (s : State) : Nat := s.ggeActive.foldl (fun m c => max m (min (s.ggeCfg c).effort 2)) 0
/-- PRC_DEMAND or GGE_LOAD exceeds the figure of a level (R31, R273). -/
def State.overLevel (s : State) (l : Nat) : Bool :=
  decide (600000 * (l + 1) < s.prcDemand) || decide (12000 * (l + 1) < s.ggeLoad)
/-- A change to a lower level is refused (R31, R430). -/
def State.levelBad (s : State) (l : Nat) : Bool :=
  decide (l < s.level) && (s.overLevel l || decide (l < s.wireLevel) || decide (l < s.effortLevel))

/-- A wake source is enabled in PWR_WCFG (Table 16.4). -/
def State.wakeEnabled (s : State) : Bool :=
  decide (s.fld R.PWR_WCFG F.PWR_WCFG_WATCHEN ≠ 0) || s.flag R.PWR_WCFG F.PWR_WCFG_ALARM_EN || s.flag R.PWR_WCFG F.PWR_WCFG_PIN_EN
/-- A safety output is energised: an STO output of an axis, or its brake is released (R421). -/
def State.safetyOn (s : State) : Bool := s.tls.axes.any (fun x => x.a.sto || x.b.sto || (x.a.sbc && x.b.sbc))
/-- A region converts a channel in continuous mode, by the MODE in effect (R124, Table 16.4). A start that is pending does not convert; its
windows open at its instant, in Doze too (log 116). -/
def State.runsContinuous (s : State) (g : Nat) : Bool := s.runs g && (chansOf g).any (fun n => !s.evtMode n)
/-- Why a power request is refused (Table 16.4); none: it starts. Kind 1 is a level, 2 a mode. -/
def State.powerCause (s : State) (kind value : Nat) : Option Nat :=
  if kind = 1 then
    if s.pwr.doze then some 2 else if s.levelBad value then some 1 else none
  else if value = 1 then
    if (List.range 8).any (fun g => s.runsContinuous g) || decide (0 < s.wireLevel) then some 3
    else if s.levelBad 0 then some 1
    else none
  else if value = 2 then
    let t := s.capSyncAll
    if s.anyActive || decide (s.strActive ≠ [])
        || (List.range 16).any (fun b => decide (t.capState b ≠ capIdle) && decide (t.capState b ≠ capDone)) then some 4
    else if s.safetyOn then some 5
    else if !s.wakeEnabled then some 6
    else if s.pwr.xt32 then some 7
    else none
  else none
/-- A power request is refused when it starts (R436); Hush while a safety output is energised raises source 245 too (R421). -/
def State.refusePower (s : State) (kind value cause : Nat) : State :=
  let s := ((s.setFld R.PWR_STAT F.PWR_STAT_REFC cause).bump R.PWR_STAT F.PWR_STAT_REFCNT).raiseHub 10
  if kind = 2 ∧ value = 2 ∧ s.safetyOn then s.raiseHub 245 else s
/-- The request names the present state (R435). -/
def State.powerIs (s : State) (kind value : Nat) : Bool :=
  if kind = 1 then decide (value = s.level) else decide (value = s.fld R.PWR_STAT F.PWR_STAT_MODE)

/-- The two words of a number as a wake record holds them. -/
def hiLo (v : Nat) : List Nat := [v / 2 ^ 32 % 2 ^ 32, v % 2 ^ 32]
/-- Words 0 to 14 of the wake record (Table 16.5); LT at sleep is a timestamp (R6). -/
def State.wakeWords (s : State) (entry : Nat) : List Nat :=
  let t := stamp50 s.lt
  [2 ^ 24 + entry * 2 ^ 16, (s.reg R.PWR_WCFG).toNat] ++ hiLo (ltSec t)
    ++ [ltNs t, ltFrac t * 2 ^ 16 + s.timeStatus] ++ hiLo s.acnt
    ++ [(s.reg R.PWR_ALARM).toNat, (s.reg R.PWR_WTHR).toNat, (s.reg R.PWR_WTHR2).toNat]
    ++ (List.range 4).map (fun j => (s.reg (R.PWR_NOTE j)).toNat)
/-- The CRC-32C of words 0 to 14, taken as 60 bytes (R440). -/
def wakeCrc (ws : List Nat) : Nat := crc32c ((ws.take 15).map (fun w => beBytes 4 w)).flatten
/-- Entry into Hush begins (R437): at the next edge of the 32.768 kHz clock LT and ACNT are taken and both copies of the
record are written, the second with the inverse of the signature (R440). -/
def State.hushEntry (s : State) (entry : Nat) : State :=
  let s := s.pass ((cycU - s.always % cycU) % cycU)
  let ws := s.wakeWords entry
  let c := wakeCrc ws
  { s with pwr := { s.pwr with bank0 := ws ++ [c], bank1 := ws ++ [c ^^^ 0xFFFFFFFF], wakeCause := 0, wakeAcnt := 0 } }

/-- A change begins (R431, R433, R437): PWR_STAT shows it; a lower level's figures hold from here, and so do the restrictions
of Doze. -/
def State.powerBegin (s : State) (kind value entry : Nat) : State :=
  let s := ((s.setFlag R.PWR_STAT F.PWR_STAT_TRANS true).setFlag R.PWR_STAT F.PWR_STAT_CKIND (decide (kind = 2))).setFld
    R.PWR_STAT F.PWR_STAT_CVAL value
  let s := { s with pwr := { s.pwr with change := some ⟨kind, value, entry, s.lt, false⟩ } }
  if kind = 1 then (if value < s.level then s.setCaps value else s)
  else if value = 1 then
    (({ s with pwr := { s.pwr with doze := true } }).setFld R.PWR_STAT F.PWR_STAT_RUNPL s.level).setCaps 0
  else if value = 2 then s.hushEntry entry
  else s
/-- A request starts: checked, then begun (R436). -/
def State.powerStart (s : State) (kind value entry : Nat) : State :=
  match s.powerCause kind value with
  | some c => s.refusePower kind value c
  | none => s.powerBegin kind value entry
/-- A power request from PWR_REQ or the POWER command (R435): it starts, waits in the one slot, or is dropped. -/
def State.powerRequest (s : State) (kind value entry : Nat) : State :=
  if s.pwr.change.isSome then
    let s := ((s.setFlag R.PWR_STAT F.PWR_STAT_PENDV true).setFlag R.PWR_STAT F.PWR_STAT_PKIND (decide (kind = 2))).setFld
      R.PWR_STAT F.PWR_STAT_PVAL value
    { s with pwr := { s.pwr with waiting := some (kind, value, entry) } }
  else if s.powerIs kind value then s
  else s.powerStart kind value entry

/-- Fields of PWR_REQ. -/
def pwrReqFlds : List Fld := [F.PWR_REQ_KIND, F.PWR_REQ_VALUE]
/-- A write of PWR_REQ (Table 16.10): ENTRY of the request is 0x02. -/
def State.writePwrReq (s : State) (v : Word) : State :=
  let s := s.writeFlds R.PWR_REQ pwrReqFlds v
  let kind := bitsOf v.toNat 9 8
  let value := bitsOf v.toNat 1 0
  if kind = 1 ∨ (kind = 2 ∧ value ≤ 2) then s.powerRequest kind value 2 else s
/-- PWR_REQ_LEVEL (R435). -/
def execPwrReqLevel (v : Word) (s : State) : Res := s.act! (s.writePwrReq v)
/-- PWR_REQ_MODE (R435). -/
def execPwrReqMode (v : Word) (s : State) : Res := s.act! (s.writePwrReq v)

/-- A full reset (R442): every register and every block at its reset value. The always-on domain keeps its count and, when the
reset is taken in Hush, the record bank and what the wake logic latched (R434, R439). -/
def State.fullReset (s : State) (cause : Nat) (inHush : Bool) : State :=
  let p := s.pwr
  let z := List.replicate 16 0
  let s := { State.reset with
    pending := s.pending, always := s.always, free := s.free, out := s.out, bus := s.bus,
    spn := { SpnState.init with refclk := s.spn.refclk },
    pwr := { PwrState.init with
      inReset := true, cause := cause, inHush := inHush, bank0 := if inHush then p.bank0 else z,
      bank1 := if inHush then p.bank1 else z, wakeCause := if cause = 16 then p.wakeCause else 0,
      wakeAcnt := if cause = 16 then p.wakeAcnt else 0, suppliesBad := p.suppliesBad, resetN := p.resetN, xt32 := p.xt32,
      hid := p.hid, resetAt := s.always } }
  s.setReg R.PWR_RST (BitVec.ofNat 32 (cause + 32 * b2n inHush))

/-- Which copies of the wake record pass their signatures (R440, R441). -/
def State.bankOk (s : State) : Bool × Bool :=
  (decide ((s.pwr.bank0[15]?).getD 0 = wakeCrc s.pwr.bank0),
    decide ((s.pwr.bank1[15]?).getD 0 = wakeCrc s.pwr.bank1 ^^^ 0xFFFFFFFF))
/-- The copy used, if any, and WRSTAT (R441). -/
def State.bankUsed (s : State) : Option Nat × Nat :=
  match s.bankOk with
  | (true, true) => if s.pwr.bank0.take 15 = s.pwr.bank1.take 15 then (some 0, 1) else (none, 3)
  | (true, false) => (some 0, 2)
  | (false, true) => (some 1, 2)
  | (false, false) => (none, 3)
/-- The instant `a` cycles of the 32.768 kHz clock lie after the sleep that a record tells of (R441). -/
def sleepPlus (ws : List Nat) (a : Nat) : Nat :=
  let w := fun (i : Nat) => (ws[i]?).getD 0
  mkLt (w 2 * 2 ^ 32 + w 3) (w 4) (w 5 / 2 ^ 16) + cycU * (a - (w 6 * 2 ^ 32 + w 7))
/-- The wake record check (R441): WRSTAT, the bank registers and the notes, and on a wake LT and PWR_WLT. -/
def State.checkRecord (s : State) : State :=
  let (used, st) := s.bankUsed
  let s := s.forEach (List.range 16) (fun s w =>
    (s.setReg (R.PWR_BANK w) (BitVec.ofNat 32 ((s.pwr.bank0[w]?).getD 0))).setReg (R.PWR_BANK1 w)
      (BitVec.ofNat 32 ((s.pwr.bank1[w]?).getD 0)))
  let s := s.setFld R.PWR_WREC F.PWR_WREC_WRSTAT st
  match used with
  | none => s
  | some k =>
    let ws := if k = 0 then s.pwr.bank0 else s.pwr.bank1
    let s := (s.setFld R.PWR_WREC F.PWR_WREC_COPY k).setFld R.PWR_WREC F.PWR_WREC_ENTRY (bitsOf ((ws[0]?).getD 0) 23 16)
    let s := s.forEach (List.range 4) (fun s j => s.setReg (R.PWR_NOTE j) (BitVec.ofNat 32 ((ws[11 + j]?).getD 0)))
    if s.pwr.cause = 16 then
      let t := sleepPlus ws s.pwr.wakeAcnt
      let s := ((s.setPair R.PWR_WLTS R.PWR_WLTS_HI (ltSec t)).setReg R.PWR_WLTN (BitVec.ofNat 32 (ltNs t))).setReg R.PWR_WLTF
        (BitVec.ofNat 32 (ltFrac t))
      { s with lt := sleepPlus ws s.acnt }
    else s
/-- The 32.768 kHz clock has stopped (R434): source 13, whose condition outlasts a reset, and its bit of PWR_SUP. -/
def State.xt32Line (s : State) : State :=
  if s.pwr.xt32 then (s.setFlag R.PWR_SUP F.PWR_SUP_XT32 true).setLine 13 instHub true else s
/-- The internal reset is released (R12, R442): HID is sampled and after a reset in Hush the wake record is checked. -/
def State.release (s : State) (hid : Nat) : State :=
  let s := { s with pwr := { s.pwr with inReset := false, resetN := true, hid := hid, resetAt := s.always } }
  let s := s.setFld R.CMD_HUBID F.CMD_HUBID_HID hid
  let s := (s.setReg R.PWR_WCAUSE (BitVec.ofNat 32 s.pwr.wakeCause)).setPair R.PWR_WACNT R.PWR_WACNT_HI s.pwr.wakeAcnt
  (if s.pwr.inHush then s.checkRecord else s).xt32Line

/-- RESET_RELEASE (R442). -/
def execResetRelease (hid : Fin 16) (s : State) : Res :=
  .next (if s.pwr.inReset && decide (s.pwr.suppliesBad = []) then s.release hid.val else s)

/-- POWER_ON_RESET (R426): every supply is past its power-good threshold; the count of the always-on domain starts with VAON
(R434), and the reset is released while RESET_N is high. -/
def execPowerOnReset (hid : Fin 16) (s : State) : Res :=
  .next (
    let cold := s.pwr.suppliesBad.contains .vaon || decide (s.pwr.suppliesBad = [])
    let low := s.pwr.inReset && !s.pwr.resetN
    let s := if cold then { s with always := 0, pwr := { s.pwr with xt32 := false } } else s
    let s := { s with pwr := { s.pwr with suppliesBad := [] } }
    let s := s.fullReset 1 false
    if low then s else s.release hid.val)

/-- A supply falls below its power-good threshold (R426). -/
def State.powerFail (s : State) (sup : Supply) : State :=
  let bad := if s.pwr.suppliesBad.contains sup then s.pwr.suppliesBad else s.pwr.suppliesBad ++ [sup]
  ({ s with pwr := { s.pwr with suppliesBad := bad } }).fullReset 1 false
/-- SUPPLY_POWER_FAIL (R426). -/
def execSupplyPowerFail (sup : Supply) (s : State) : Res := .next (s.powerFail sup)

/-- RESET_PIN (R439, R442): RESET_N low for 1 us or longer; a reset already in progress only waits for it. -/
def execResetPin (s : State) : Res :=
  .next (
    let h := s.pwr.hush
    let s := { s with pwr := { s.pwr with resetN := false } }
    if s.pwr.inReset then s else s.fullReset 2 h)

/-- BROWN_OUT (R428, R439). -/
def State.brownOut (s : State) : State := s.fullReset 8 (s.pwr.hush || (s.pwr.inReset && s.pwr.inHush))
def execBrownOut (s : State) : Res := .next s.brownOut

/-- HEADSTOCK_START_DONE (R394, R442): commands are accepted from here, and after a reset the sources of its cause are raised. -/
def execHeadstockStartDone (s : State) : Res :=
  s.act! (
    let first := !s.flt.started
    let s := ({ s with flt := { s.flt with started := true, restarting := false, wdLate := false } }).updAlive
    if first then
      let st := s.fld R.PWR_WREC F.PWR_WREC_WRSTAT
      let s := if s.pwr.cause = 8 then s.event 0 instHub 0 else s
      let s := if st = 2 then s.event 1 instHub 0 else s
      if st = 3 then s.event 2 instHub 0 else s
    else s)

/-- Nominal voltage of a supply in mV (Table 16.1). -/
def supNominal : Supply → Nat
  | .core => 1000
  | .io => 1800
  | .lane => 900
  | .laneH => 1200
  | .avdd _ => 5000
  | .avddL _ => 1800
  | .vaon => 1800
/-- The bit of PWR_SUP of a supply (Table 16.10). -/
def supBit : Supply → Nat
  | .core => 0
  | .io => 1
  | .lane => 2
  | .laneH => 3
  | .avdd d => 4 + d.val
  | .avddL d => 8 + d.val
  | .vaon => 12
/-- Source and instance of a supply's warning, and the other bits of PWR_SUP it shares them with (Table 16.9). -/
def supSource : Supply → Nat × Nat × List Nat
  | .core => (3, instHub, [0])
  | .io => (4, instHub, [1])
  | .lane => (5, instHub, [2, 3])
  | .laneH => (5, instHub, [2, 3])
  | .avdd d => (6, d.val, [4 + d.val, 8 + d.val])
  | .avddL d => (6, d.val, [4 + d.val, 8 + d.val])
  | .vaon => (7, instHub, [12])
/-- A supply's bit of PWR_SUP. -/
def State.supBad (s : State) (b : Nat) : Bool := (s.reg R.PWR_SUP).toNat.testBit b
def State.setSup (s : State) (b : Nat) (on : Bool) : State :=
  s.setReg R.PWR_SUP (BitVec.ofNat 32 (putBits (s.reg R.PWR_SUP).toNat b b (b2n on)))
/-- A supply has stayed below its warning threshold (R427): its bit and its source; the second supply of one source is an
event of its own. -/
def State.supWarn (s : State) (sup : Supply) : State :=
  let (src, inst, bits) := supSource sup
  if s.supBad (supBit sup) then s
  else
    let other := bits.any (fun b => s.supBad b)
    let s := s.setSup (supBit sup) true
    if other then s.event src inst 0 else (s.setLine src inst true).takeVerdicts
/-- SUPPLY_WARNING (R425 to R427): below nominal - 3.5 %; from the bottom of the operating range, nominal - 5 %, to the power-good
threshold, nominal - 8 %, the spec gives no behaviour; below that the hub is in reset. -/
def execSupplyWarning (sup : Supply) (mv : Fin 65536) (s : State) : Res :=
  let n := supNominal sup
  if mv.val * 1000 < n * 920 then .next (s.powerFail sup)
  else if !s.awake ∨ n * 965 ≤ mv.val * 1000 then .next s
  else if n * 950 ≤ mv.val * 1000 then .next (s.supWarn sup)
  else .fault .outsideConditions
/-- SUPPLY_WARNING_CLEAR (R427). -/
def execSupplyWarningClear (sup : Supply) (s : State) : Res :=
  s.act! (if s.supBad (supBit sup) then
    let (src, inst, bits) := supSource sup
    let s := s.setSup (supBit sup) false
    if bits.any (fun b => s.supBad b) then s else s.setLine src inst false
  else s)

/-- VDDC_OUT_OF_REGULATION (R428): VDDC as measured for 10 us: below 0.57 V a brown-out, outside 3 % of its setpoint source 12,
inside it the end of the episode. -/
def execVddcOutOfRegulation (mv : Fin 65536) (s : State) : Res :=
  if mv.val < 570 then (if s.pwr.inReset then .next s else execBrownOut s)
  else s.act! (
    let set := ({ s with pwr := { s.pwr with vddc := none } }).vddcNow
    let bad := decide (mv.val * 100 < set * 97) || decide (set * 103 < mv.val * 100)
    let s := { s with pwr := { s.pwr with vddc := if bad then some mv.val else none } }
    ((s.setFlag R.PWR_SUP F.PWR_SUP_VDDC bad).setLine 12 instHub bad).takeVerdicts)

/-- The temperature line of a die (4 is HD) is high while PWR_TEMP, in 1/16 degree, exceeds PWR_TWARN (Table 16.9). -/
def State.tempLine (s : State) (d : Nat) : State :=
  let hot := decide (signed 16 (s.fld (R.PWR_TEMP d) F.PWR_TEMP_T) > 16 * ((s.fld R.PWR_TWARN F.PWR_TWARN_TWARN : Nat) : Int))
  if d = 4 then s.setLine 9 instHub hot else s.setLine 8 d hot
/-- TEMPERATURE_WARNING (Table 16.9): the temperature of a die. -/
def execTemperatureWarning (d : Fin 5) (t : Fin 65536) (s : State) : Res :=
  s.act! (((s.setReg (R.PWR_TEMP d.val) (BitVec.ofNat 32 t.val)).tempLine d.val).takeVerdicts)
/-- A write of PWR_TWARN (Table 16.9): every line follows. -/
def State.writeTwarn (s : State) (v : Word) : State :=
  ((s.writeFlds R.PWR_TWARN [F.PWR_TWARN_TWARN] v).forEach (List.range 5) (fun s d => s.tempLine d)).takeVerdicts

/-- XT32_STOPPED (R434): no clock edge for 1 ms while VAON is good; ACNT stands still. -/
def execXt32Stopped (s : State) : Res :=
  { s with pwr := { s.pwr with xt32 := true } }.act! ({ s with pwr := { s.pwr with xt32 := true } }.xt32Line).takeVerdicts

/-- The hub wakes (R439): a reset with WAKE_FLAG and INHUSH. -/
def State.wakeReset (s : State) : State := s.fullReset 16 true
/-- Entry into Hush is complete (R432, R437): a wake event latched during it, or a source whose condition holds, follows. -/
def State.hushDone (s : State) : State :=
  let s := { s with pwr := { s.pwr with hush := true, change := none, waiting := none } }
  if s.pwr.wakeCause = 0 then s else s.wakeReset
/-- The change in progress has completed (R431, R433). -/
def State.powerReached (s : State) (c : PwrChange) : State :=
  let s := { s with pwr := { s.pwr with change := none } }
  let s := ((s.setFlag R.PWR_STAT F.PWR_STAT_TRANS false).setFlag R.PWR_STAT F.PWR_STAT_CKIND false).setFld R.PWR_STAT
    F.PWR_STAT_CVAL 0
  if c.kind = 1 then (s.setFld R.PWR_STAT F.PWR_STAT_PL c.value).setCaps c.value
  else if c.value = 1 then (s.setFld R.PWR_STAT F.PWR_STAT_MODE 1).setFld R.PWR_STAT F.PWR_STAT_PL 0
  else
    let l := s.fld R.PWR_STAT F.PWR_STAT_RUNPL
    let s := { s with pwr := { s.pwr with doze := false, powering := [], powered := [] } }
    ((s.setFld R.PWR_STAT F.PWR_STAT_MODE 0).setFld R.PWR_STAT F.PWR_STAT_PL l).setCaps l
/-- The request in the slot starts, unless it names the state just reached (R435). -/
def State.powerNext (s : State) : State :=
  match s.pwr.waiting with
  | none => s
  | some (kind, value, entry) =>
    let s := { s with pwr := { s.pwr with waiting := none } }
    let s := ((s.setFlag R.PWR_STAT F.PWR_STAT_PENDV false).setFlag R.PWR_STAT F.PWR_STAT_PKIND false).setFld R.PWR_STAT
      F.PWR_STAT_PVAL 0
    if s.powerIs kind value then s else s.powerStart kind value entry
/-- POWER_CHANGE_DONE (R435). -/
def execPowerChangeDone (s : State) : Res :=
  s.act! (match s.pwr.change with
    | none => s
    | some c => if c.kind = 2 ∧ c.value = 2 then s.hushDone else (s.powerReached c).powerNext)

/-- The bound of a change (R431, R436). -/
def powerBound (c : PwrChange) : Nat := nsU * (if c.kind = 1 then 150000 else if c.value = 2 then 5000000 else 1000000)
/-- POWER_CHANGE_TIMEOUT (R435): source 11 once; the change goes on. -/
def execPowerChangeTimeout (s : State) : Res :=
  s.act! (match s.pwr.change with
    | none => s
    | some c =>
      if c.late then s
      else
        let s := s.moveTo (c.since + powerBound c)
        ({ s with pwr := { s.pwr with change := some { c with late := true } } }).event 11 instHub 0)

/-- The wake logic is armed (R437, R438): from the writing of the record until the reset of a wake. -/
def State.armed (s : State) : Bool :=
  s.pwr.hush || (s.awake && s.pwr.change.any (fun c => decide (c.kind = 2) && decide (c.value = 2)))
/-- Enable words of both copies (word 1). -/
def State.wakeBit (s : State) (b : Nat) : Bool :=
  ((s.pwr.bank0[1]?).getD 0).testBit b || ((s.pwr.bank1[1]?).getD 0).testBit b
/-- The lower of both copies' watch thresholds in mV (R438); 0 acts as 1. -/
def State.watchThr (s : State) (g : Nat) : Nat :=
  let f := fun (b : List Nat) => bitsOf ((b[9 + g / 4]?).getD 0) (8 * (g % 4) + 7) (8 * (g % 4))
  max 1 (min (f s.pwr.bank0) (f s.pwr.bank1))
/-- A wake source fires (R439): ACNT and the causes of the first event and of those in the same cycle are latched; in Hush the
wake follows at once, during entry when entry completes. -/
def State.wake (s : State) (bit : Nat) : State :=
  let first := s.armed && decide (s.pwr.wakeCause = 0)
  let same := decide (s.pwr.wakeCause ≠ 0) && decide (s.pwr.wakeAcnt = s.acnt)
    && (s.armed || (s.pwr.inReset && decide (s.pwr.cause = 16)))
  let s := if first then { s with pwr := { s.pwr with wakeCause := 2 ^ bit, wakeAcnt := s.acnt } }
    else if same then { s with pwr := { s.pwr with wakeCause := s.pwr.wakeCause ||| 2 ^ bit } } else s
  if s.pwr.hush && decide (s.pwr.wakeCause ≠ 0) then s.wakeReset else s
/-- WATCH_WAKE (R438): the input of watch `g` in microvolts. -/
def execWatchWake (g : Fin 8) (uv : Word) (s : State) : Res :=
  .next (if s.wakeBit (24 + g.val) && decide (1000 * s.watchThr g.val < uv.toNat) then s.wake g.val else s)
/-- WAKE_PIN (R438). -/
def execWakePin (s : State) : Res := .next (if s.wakeBit 8 then s.wake 8 else s)
/-- The next count of 32.768 kHz cycles at which ACNT seconds [31:0] equal `a` at cycle 0 (R438). -/
def alarmAt (acnt a : Nat) : Nat :=
  let sec := (acnt + 32767) / 32768
  (sec + (a % 2 ^ 32 + 2 ^ 32 - sec % 2 ^ 32) % 2 ^ 32) * 32768
/-- ALARM_WAKE (R438): at the earlier of the two alarm instants. -/
def execAlarmWake (s : State) : Res :=
  .next (if s.wakeBit 9 && s.armed && !s.pwr.xt32 then
    let at0 := alarmAt s.acnt ((s.pwr.bank0[8]?).getD 0)
    let at1 := alarmAt s.acnt ((s.pwr.bank1[8]?).getD 0)
    (s.pass (cycU * min at0 at1 - s.always)).wake 9
  else s)

/-- SPARE_AVAILABLE (R433): 500 us after it was powered in Doze a spare is available; it may take over 2 us later (R148). -/
def execSpareAvailable (c : Fin 48) (s : State) : Res :=
  s.act! (match s.pwr.powering.find? (fun p => decide (p.1 = c.val)) with
    | some p =>
      let s := s.moveTo p.2
      { s with pwr := { s.pwr with powering := s.pwr.powering.erase p, powered := s.pwr.powered ++ [(c.val, s.lt + 2000 * nsU)] } }
    | none => s)

/-- A pin of Table 16.8; of STO, SBC the outputs of an axis, STO by its channel. -/
inductive OutPin
  | msdo | alive | ppsOut | trigOut | tp (t : Fin 4) | faultN | swOut (p : Fin 32) | sto (x : Fin 4) (chB : Bool) | sbc (x : Fin 4)
  | laneTx (i : Fin 10) | laneRx (i : Fin 10) | exc (c : Fin 48) | ain (n : Fin 384) | xt32Out
  deriving DecidableEq, Repr
/-- What a pin shows. -/
inductive PinLevel
  /-- high-impedance or released -/
  | off
  | low
  | high
  /-- a lane transmitter: electrical idle, or sending -/
  | idle
  | sending
  /-- a lane receiver: with or without its termination -/
  | terminated
  | noTermination
  /-- an excitation pair: high-impedance with at most 1 uA, or driven -/
  | leakage
  | excited
  /-- an input pair: above 10 Mohm, the same with its watch comparator, above 1 Gohm without bias, or as configured -/
  | megohm
  | watched
  | gigohm
  | normal
  | oscillating
  deriving DecidableEq, Repr
/-- A driven level. -/
def driven (b : Bool) : PinLevel := if b then .high else .low
/-- The digital pins and the dies behind them are powered: VDD_IO and VIN_CORE, from which HD and the FE logic run (Table 16.1). -/
def State.diesPowered (s : State) : Bool := !s.pwr.suppliesBad.contains .io && !s.pwr.suppliesBad.contains .core
/-- The FE die's analogue supplies are good (Table 16.1). -/
def State.frontPowered (s : State) (d : Nat) : Bool :=
  s.pwr.suppliesBad.all (fun p => match p with
    | .avdd e => decide (e.val ≠ d)
    | .avddL e => decide (e.val ≠ d)
    | _ => true)
/-- A safety output: energised, or de-energised, which is low with its die powered and high-impedance otherwise (Table 16.8). -/
def State.safetyPin (s : State) (on : Bool) : PinLevel := if s.awake && on then .high else if s.diesPowered then .low else .off
/-- The level of a pin (Table 16.8; R68, R90, R200, R231, R299, R316, R376, R393, R394, R401, R412, R416, R438). MSDO is driven only while
MCS_N is low, that is inside a CMD_SEND or CMD_RECV of the SPI. -/
def State.pinLevel (s : State) (p : OutPin) : PinLevel :=
  match p with
  | .msdo => .off
  | .sto x c => s.safetyPin (s.drive c x.val).sto
  | .sbc x => s.safetyPin (s.released x.val)
  | .faultN => if s.awake && s.faultNLow then .low else .off
  | .alive => if s.awake then driven s.flt.alivePin else .off
  | .ppsOut => if s.awake then driven s.spn.ppsHigh else .off
  | .trigOut => if s.awake then driven (decide (s.spn.pulses ≠ [])) else .off
  | .tp t => if s.awake then driven (decide (s.tls.tpLow ≠ some t.val)) else .off
  | .swOut q => match s.awake, s.swOut q.val with
    | true, some b => driven b
    | _, _ => .off
  | .laneTx i => if s.txOn i.val then .sending else .idle
  | .laneRx _ => if s.pwr.hush || s.pwr.suppliesBad.contains .lane || s.pwr.suppliesBad.contains .laneH then .noTermination else .terminated
  | .exc c => if s.awake && s.excOn c.val && !s.flt.lines.contains (37, c.val / 6) then .excited else .leakage
  | .ain n =>
    if !s.frontPowered (n.val / 96) then .megohm
    else if s.awake then .normal
    else if s.pwr.hush then (if n.val % 48 = 0 ∧ s.wakeBit (24 + n.val / 48) then .watched else .megohm)
    else .gigohm
  | .xt32Out => if s.pwr.suppliesBad.contains .vaon || s.pwr.xt32 then .off else .oscillating

end Sys2Proof.Machine
end

