-- ==== Sys2Proof/Machine/Reading.lean ====
section
/-! DEFINITION. Reads of the register space (R9, R17 to R19, R38, R453 to R455): registers with their latches and read-to-clear
fields, snapshot pages, memory windows and aliases. -/
namespace Sys2Proof.Machine

/-- An address a command may name (R368): a multiple of 4 below 0x0800_0000. -/
def addrOk (a : Nat) : Bool := decide (a % 4 = 0) && decide (a < 0x08000000)
/-- The lower words of the 64-bit register pairs (R9). -/
def pairLower (r : Reg) : Bool :=
  [Reg.GLB_UID, .GLB_MAC, .SNAP_LTS, .PWR_WACNT, .PWR_ACNT, .PWR_WLTS, .SPN_SET, .SPN_RATE, .TRK_OFS, .CMP_T, .FLT_FIRST_T,
   .RGN_START, .RGN_SEQ_ENT, .CH_EVT_LAST, .CH_CAL_T, .SPR_CAL_T, .CH_OW_T, .CH_IMP_T, .CH_IMP_GOOD, .STR_ICNT, .CAP_LOST_T,
   .CAP_LAST_T].contains r
/-- The lower words that are written (R9): a write of one is held. -/
def pairHeld (r : Reg) : Bool := [Reg.SPN_SET, .SPN_RATE, .CMP_T, .RGN_START, .RGN_SEQ_ENT].contains r
/-- The word a read has latched for an address. -/
def State.latched (s : State) (a : Nat) : Option Word := tabGet (fun _ => none) s.latch a
/-- Latch a word for the later reads of a register. -/
def State.latchWord (s : State) (a : Nat) (w : Word) : State := { s with latch := tabPut (fun _ => none) s.latch a (some w) }
/-- The registers a read of a register latches: the upper word of a pair (R9), the other words of SPN_LTS (R46) and of
CH_OUT_W (R201). -/
def State.latches (s : State) (a : Nat) (r : Reg) : List Nat :=
  if pairLower r then [a + 4]
  else match r with
    | .SPN_LTS => [R.SPN_LTS_HI, R.SPN_LTN, R.SPN_LTF]
    | .CH_OUT_W => [a + 4, a + 8, a + 12, a + 16]
    | .CH_OUT_T => if (s.latched a).isSome then [] else [a + 4]
    | _ => []

/-- A register's word with its RC fields cleared. -/
def clearRc (flds : List Fld) (v : Nat) : Nat := flds.foldl (fun w f => if f.acc = .rc then putBits w f.hi f.lo 0 else w) v
/-- What a read clears (R17): the RC fields; a read of CAP_LOST_T clears the pair (section 8.10). -/
def State.readClears (s : State) (a : Nat) (d : RegDesc) (ix : List Nat) : State :=
  let s := if d.flds.any (fun f => decide (f.acc = .rc)) then s.setReg a (BitVec.ofNat 32 (clearRc d.flds (s.reg a).toNat)) else s
  match d.reg, ix with
  | .CAP_LOST_T, [b] => (s.setReg (R.CAP_LOST_T_HI b) 0).setCp b { s.cp b with lostFresh := true }
  | _, _ => s
/-- State that the shown word waits for is brought up to date. -/
def State.readSync (s : State) (r : Reg) (ix : List Nat) : State :=
  match r, ix with
  | .CAP_STAT, [b] => s.capSync b
  | .GGE_STAT, _ => s.ggeSync
  | _, _ => s
/-- A read of a register: the state after it, the word, and whether the shadow served it while the die link was down (R38). -/
def State.readReg (s : State) (a : Nat) (d : RegDesc) (ix : List Nat) : State × Nat × Bool :=
  let die := dieOf (regionOfAddr a)
  let stale := d.fe && !s.dieUp die
  let s := s.readSync d.reg ix
  let v := match s.latched a with
    | some w => w.toNat
    | none => if stale then (tabGet resetWord (s.dl die).shadow a).toNat else s.show a
  let s := s.forEach (s.latches a d.reg) (fun s b => s.latchWord b
    (if stale then tabGet resetWord (s.dl die).shadow b else BitVec.ofNat 32 (s.show b)))
  if stale then (s.setFlag (R.DLK_STAT die) F.DLK_STAT_STALE true, v, true)
  else
    let s := if d.fe then
        (s.setDl die { s.dl die with reads := (s.dl die).reads ++ [a] }).dieSend die 0x11 (a * 2 ^ 32) else s
    (s.readClears a d ix, v, false)

/-- A read-only window of memory (Table 17.7): Bowl, the stream pool, the fault log. -/
def inWindow (a : Nat) : Bool :=
  (decide (0x04000000 ≤ a) && decide (a < 0x05800000)) || (decide (0x05C00000 ≤ a) && decide (a < 0x05C02000))
/-- A read of a memory window that meets an uncorrectable error raises source 97 (R388, R453): the unit is marked and its bytes have not
changed since. -/
def State.readBad (s : State) (a part detail : Nat) (bytes : List Byte) : State :=
  if s.flt.bad.contains (a / 32, bytes) then s.raiseMem 97 part detail a else s
/-- A word of an image window (R291): bytes beyond 1,056 + HSIZE read zero, with the HSIZE of the context's settings for a written
image, that of its last start for the anchor image. -/
def State.imageWord (s : State) (c o : Nat) : Nat :=
  let h := hsize (if (s.gg c).inMem then s.ggeCfg c else (s.gg c).cfg)
  beNat ((List.range 4).map (fun i => if o + i < 1056 + h then s.imageByte c (o + i) else 0))
/-- A read of one word of the register space; reserved addresses and aliases read zero (R18). -/
def State.readWord (s : State) (a : Nat) : State × Nat × Bool :=
  if inPage a then (s, s.pageWord a, false)
  else if inWindow a then
    let part := if a < 0x05000000 then 0 else 1
    (s.readBad a part ((s.dataDetail part a).getD 0) (s.bytes (a / 32 * 32) 32), beNat (s.bytes a 4), false)
  else match imageAt a with
    | some (c, o) =>
      (s.readBad a 2 (c * 2 ^ 32) ((List.range 32).map (fun i => s.imageByte c (o / 32 * 32 + i))), s.imageWord c o, false)
    | none =>
      match lookupReg a with
      | some (d, ix) => s.readReg a d ix
      | none => (s, 0, false)

/-- Reads in order: the state after them, the words, and whether one was served from the shadow. -/
def State.readAll (s : State) : List Nat → State × List Nat × Bool
  | [] => (s, [], false)
  | a :: as =>
    let (s, v, st) := s.readWord a
    let (s, vs, st') := s.readAll as
    (s, v :: vs, st || st')

/-- PAIR_LOWER_READ (R9): a read of a lower word, which latches the upper. A read of any other address is an ordinary read. -/
def execPairLowerRead (a : Nat) (s : State) : Res :=
  s.act! (if addrOk a then
    let (s, v, stale) := s.readWord a
    s.answer v (if stale then 0x0C else 0)
  else s.answer 0 0x04)

end Sys2Proof.Machine
end

