-- ==== Sys2Proof/Machine/Refclk.lean ====
section
/-! DEFINITION. Loss of REFCLK, relock and the restart of regions (R66, R259). -/
namespace Sys2Proof.Machine

/-- A region at the loss (R66, R109, R110). -/
def State.lossRegion (s : State) (g : Nat) : State :=
  let st := s.rgState g
  let x := s.rg g
  if st = rgConverting then
    ((s.setRg g { x with restart := true }).setRgState g rgPending).convEnds g x.edge
  else if st = rgStopPending then s.regionStopped g
  else if st = rgPending then (s.regionStopped g).refuseStart g 4
  else s
/-- The regions that a context awaits after a loss (R259): the converting ones. -/
def State.lossConv (s : State) (c : Nat) : List Nat :=
  s.lossWaits c ((List.range 8).filter (fun g => decide (s.rgState g = rgConverting)))
/-- At the loss every context that is not STOPPED has a REFCLK loss to report (R259). A restart that was still awaited after an earlier loss
will not come (R66). -/
def State.lossBegin (s : State) : State :=
  let s := s.forEach ((List.range 8).filter (fun g => (s.rg g).restart)) (fun s g => s.lossOff g)
  s.forEach s.strActive (fun s c =>
    s.setStr c { s.st c with lossAt := some ⟨s.lt, none, s.lossConv c, s.lossConv c⟩ })
/-- REFCLK_LOSS (R66): domains 1 to 3 stop. -/
def execRefclkLoss (s : State) : Res :=
  s.act! (
    if !s.spn.refclk then s
    else
      let s := s.lossBegin
      let s := s.forEach (List.range 4) (fun s d => s.dieFreeze d)
      let s := { s with spn := { s.spn with refclk := false, lossLt := s.lt, lossAlways := s.always, stepUntil := min s.spn.stepUntil s.lt } }
      let s := ((s.setLine 133 instHub true).aliveLow).lanesLost
      s.forEach (List.range 8) (fun s g => s.lossRegion g))

/-- A context at the relock: it stores its STREAM_GAP record at once when it awaits no region (R259). -/
def State.lossRelock (s : State) (t c : Nat) : State :=
  match (s.st c).lossAt with
  | some l =>
    let s := s.setStr c { s.st c with lossAt := some { l with relockLt := some t } }
    if l.waits = [] then s.lossGap c t else s
  | none => s
/-- REFCLK_RELOCK (R66): LT is rebuilt from the elapsed always-on cycles. A fresh grid mark follows, as after a step (R51; DESIGN CHOICE, log 106). -/
def execRefclkRelock (cycles : Nat) (s : State) : Res :=
  s.act! (
    if s.spn.refclk then s
    else
      let x := s.spn
      let t := x.lossLt + cycU * cycles
      let past := s.snap.sched.filter (fun r => decide (r.time ≤ t))
      let s := { s with
        lt := t, always := max s.always (x.lossAlways + cycU * cycles),
        spn := { x with refclk := true, relockLt := t, steering := none, holdSince := none, steered := false, ownTq := 4, gridDue := true,
                        trackers := [], ppsNext := 0, ppsLast := none, xchg := SpnState.init.xchg, txT4 := none },
        snap := { s.snap with sched := s.snap.sched.filter (fun r => !decide (r.time ≤ t)) },
        mains := { s.mains with last := none, acceptedAt := some t, holdRun := 0 } }
      let s := s.bumpBy R.SNAP_STAT F.SNAP_STAT_MISSED past.length
      let s := s.forEach [0, 1, 2] (fun s k =>
        if s.tkState k = tkDisabled then s else s.setTkState k tkNoSource)
      let s := ((s.updTq.setLine 133 instHub false).cmpStep).lanesBack
      let s := s.forEach (List.range 4) (fun s d => s.dieResume d)
      s.forEach s.strActive (fun s c => s.lossRelock t c))

/-- REGION_RESTART (R66): the first permitted start point at least 100 ms after relock; each context that waits for it
gets its STREAM_GAP record (R259). -/
def execRegionRestart (g : Fin 8) (s : State) : Res :=
  s.act! (
    if s.rgState g.val = rgPending ∧ (s.rg g.val).restart ∧ s.spn.refclk then
      match s.startPoint g.val (max s.lt (s.spn.relockLt + 100000000 * nsU)) with
      | some t =>
        let s := s.moveTo t
        (s.forEach (s.lossFor g.val) (fun s c => s.lossGap c t)).startRegion g.val t
      | none => s
    else s)

end Sys2Proof.Machine
end

