-- ==== Sys2Proof/Machine/Access.lean ====
section
/-! DEFINITION. Writes of the register space (R9, R17, R38, R205, R362, R446 to R456): the checks of a command's writes, and
each register's own effect. -/
namespace Sys2Proof.Machine

/-- A converter delivers, overlaps or is being calibrated, so its trims are not idle (R160). -/
def State.convBusy (s : State) (k : Nat) : Bool :=
  let g := rgnOfConv k
  let c := k / 9
  let mine := if isSpare k then s.sprServes c && decide (s.delivers (s.sprChan c) = some k)
    else decide (s.delivers (chanOf k) = some k)
  (s.runs g && mine) || (s.calOn k).isSome
    || (s.rg g).running.any (fun r => (decide (r.stage = .overlap) || decide (r.stage = .handback))
      && (decide (r.unit = k) || r.spare.any (fun c => decide (spareOf c = k))))
/-- A coefficient set is in use (R204). -/
def State.setBusy (s : State) (k : Nat) : Bool :=
  (List.range 8).any (fun g => decide (s.rgState g ≠ rgStopped) && (chansOf g).any (fun n =>
    s.flag (R.CH_PRC_CTRL n) F.CH_PRC_CTRL_FIREN
      && (decide (s.fld (R.CH_PRC_FIR n) F.CH_PRC_FIR_SET = k) || decide (s.chSet n = k))))
/-- A destination is named by a running context or by a packet in the gap store (R348). -/
def State.dstBusy (s : State) (d : Nat) : Bool :=
  let names := fun c => decide (s.fld (R.STR_SEND c) F.STR_SEND_DST = d)
  s.strActive.any names || s.gapStore.any (fun p => names p.ctx)
/-- A member table entry lies in the range of a context that is not STOPPED (R265). -/
def State.memberBusy (s : State) (i : Nat) : Bool :=
  s.strActive.any (fun c => decide (s.fld (R.STR_MEMB c) F.STR_MEMB_MLBASE ≤ i)
    && decide (i < s.fld (R.STR_MEMB c) F.STR_MEMB_MLBASE + s.fld (R.STR_MEMB c) F.STR_MEMB_NCH))
/-- A buffer is neither IDLE nor DONE (R233). -/
def State.capBusy (s : State) (b : Nat) : Bool :=
  let st := (s.capSync b).capState b
  decide (st ≠ capIdle) && decide (st ≠ capDone)
/-- The block of a register is not idle for its RWL fields (R17, and the rules named at each block). -/
def State.regBusy (s : State) (r : Reg) (ix : List Nat) : Bool :=
  match r, ix with
  | .RGN_WIN, [g] => decide (s.rgState g ≠ rgStopped)
  | .RGN_SEQ_ENT_HI, [g, _] => !s.seqIdle g
  | .CH_TRIM, n :: _ => s.convBusy (unitOf n)
  | .CH_QTRIM, n :: _ => s.convBusy (unitOf n)
  | .SPR_TRIM, c :: _ => s.convBusy (spareOf c)
  | .SPR_QTRIM, c :: _ => s.convBusy (spareOf c)
  | .CH_PRC_CTRL, [n] => decide (s.rgState (rgnOf n) ≠ rgStopped)
  | .PRC_FIRC, k :: _ => s.setBusy k
  | .PRC_FIRLEN, [k] => s.setBusy k
  | .STR_ML, [i] => s.memberBusy i
  | .GGE_CTX, [c] => decide (s.strState c ≠ 0)
  | .LNE_GRP, [q] => !s.grpIdle q
  | .DST_ADDR, d :: _ => s.dstBusy d
  | .DST_PORT, [d] => s.dstBusy d
  | .CAP_CFG, b :: _ => s.capBusy b
  | .CAP_BUF, b :: _ => s.capBusy b
  | .CAP_SLOT, b :: _ => s.capBusy b
  | .CAP_PRE, b :: _ => s.capBusy b
  | .CAP_MEAS, b :: _ => s.capBusy b
  | .CAP_MEAS_CFG, b :: _ => s.capBusy b
  | .CAP_STR, b :: _ => s.capBusy b
  | .CAP_CND, b :: _ => s.capBusy b
  | .CAP_CND_V1, b :: _ => s.capBusy b
  | .CAP_CND_V2, b :: _ => s.capBusy b
  | .CAP_CHL, b :: _ => s.capBusy b
  | .STR_CFG, [c] => decide (s.strState c ≠ 0)
  | .STR_FIFO, [c] => decide (s.strState c ≠ 0)
  | .STR_SEND, [c] => decide (s.strState c ≠ 0)
  | .STR_MEMB, [c] => decide (s.strState c ≠ 0)
  | .STR_PSEQ, [c] => decide (s.strState c ≠ 0)
  | .STR_RBUD, [c] => decide (s.strState c ≠ 0)
  | .NET_CTRL, p :: _ => s.isActive p
  | .NET_MAC, p :: _ => s.isActive p
  | .NET_MAC_HI, p :: _ => s.isActive p
  | .NET_MTU, p :: _ => s.isActive p
  | .NET_IP4, p :: _ => s.isActive p
  | .NET_IP4_GW, p :: _ => s.isActive p
  | .NET_IP4_PFX, p :: _ => s.isActive p
  | .NET_IP6, p :: _ => s.isActive p
  | .NET_IP6_GW, p :: _ => s.isActive p
  | .NET_IP6_PFX, p :: _ => s.isActive p
  | _, _ => false

/-- The lower word held for a pair (R9). -/
def State.heldAt (s : State) (a : Nat) : Option Word := tabGet (fun _ => none) s.held a
/-- Hold a lower word, or drop it. -/
def State.setHeld (s : State) (a : Nat) (w : Option Word) : State := { s with held := tabPut (fun _ => none) s.held a w }
/-- An RWL field of the register would change (R454). -/
def State.rwlDiff (s : State) (a : Nat) (flds : List Fld) (v : Word) : Bool :=
  flds.any (fun f => decide (f.acc = .rwl) && decide (bitsOf v.toNat f.hi f.lo ≠ s.fld a f))
/-- A write of one address fails its RWL check (R291, R454); a sequencer entry is checked as a pair, with the lower word held in
`t` (R129, R455). -/
def State.lockedAt (s t : State) (a : Nat) (v : Word) : Bool :=
  match lookupReg a with
  | some (d, ix) =>
    if d.reg = .RGN_SEQ_ENT then false
    else
      let low := decide (d.reg = .RGN_SEQ_ENT_HI) && (match t.heldAt (a - 4) with
        | some w => decide (w ≠ s.reg (a - 4))
        | none => false)
      (s.rwlDiff a d.flds v || low) && s.regBusy d.reg ix
  | none =>
    match imageAt a with
    | some (c, _) => decide (s.strState c ≠ 0)
    | none => false

/-- An alias address (R205): its group, none for broadcast, and the offset. -/
def aliasAt (a : Nat) : Option (Option Nat × Nat) :=
  if 0x01E00000 ≤ a ∧ a < 0x01E08000 then some (some ((a - 0x01E00000) / 0x400), a % 0x400)
  else if 0x01F00000 ≤ a ∧ a < 0x01F00400 then some (none, a % 0x400)
  else none
/-- Offsets of the channel block that an alias write reaches (Table 17.3). -/
def aliasApplied (o : Nat) : Bool :=
  [(0x000, 0x004), (0x010, 0x02C), (0x044, 0x058), (0x100, 0x134), (0x180, 0x1F8), (0x200, 0x214), (0x240, 0x240)].any
    (fun r => decide (r.1 ≤ o) && decide (o ≤ r.2))
/-- Channels an alias addresses (R205, R450). -/
def State.members (s : State) (g : Option Nat) : List Nat :=
  match g with
  | none => List.range 384
  | some k => (List.range 384).filter (fun n => (s.reg (R.CH_GRP n)).toNat.testBit k)
/-- The addresses a write reaches: those of the addressed channels for an alias, else its own (R450). -/
def State.reaches (s : State) (a : Nat) : List Nat :=
  match aliasAt a with
  | some (g, o) => if aliasApplied o then (s.members g).map (fun n => 0x01000000 + 0x400 * n + o) else []
  | none => [a]

/-- The configuration fields of a register after a write, in a trial state (R362). -/
def State.trialReg (t : State) (v : Word) (a : Nat) : State :=
  match lookupReg a with
  | none => t
  | some (d, ix) =>
    if pairHeld d.reg then t.setHeld a (some v)
    else
      let t := match t.heldAt (a - 4) with
        | some w => (t.setReg (a - 4) w).setHeld (a - 4) none
        | none => t
      match d.reg, ix with
      | .LNE_GRP, [q] => if rateOf q (bitsOf v.toNat 3 0) then t.setFld a F.LNE_GRP_RATE (bitsOf v.toNat 3 0) else t
      | _, _ => t.setReg a (BitVec.ofNat 32 (wordWrite (d.flds.filter (fun f => decide (f.acc = .rw) || decide (f.acc = .rwl)))
          (t.reg a).toNat v.toNat))
/-- A write in a trial state. -/
def State.trial (t : State) (w : Nat × Word) : State := t.forEach (t.reaches w.1) (fun t a => t.trialReg w.2 a)
/-- The first write whose RWL check fails (R362, R451, R454). -/
def State.firstLocked (s : State) : State → List (Nat × Word) → Option Nat
  | _, [] => none
  | t, w :: ws =>
    if (t.reaches w.1).any (fun a => s.lockedAt t a w.2) then some w.1 else s.firstLocked (t.trial w) ws
/-- Registers whose writes alone R207 refuses: the RW processing fields that count in the demand. -/
def rwProcessing (r : Reg) : Bool := [Reg.CH_PRC_FIR, .CH_EVT_CTRL, .CH_SW_CFG, .CH_STAT_CFG].contains r
/-- The register of an address. -/
def regAt (a : Nat) : Option (Reg × List Nat) := (lookupReg a).map (fun p => (p.1.reg, p.2))
/-- Registers that a list of writes reaches, with the values. -/
def State.touched (s : State) (ws : List (Nat × Word)) : List (Reg × List Nat × Word) :=
  (ws.map (fun w => (s.reaches w.1).filterMap (fun a => (regAt a).map (fun r => (r.1, r.2, w.2))))).flatten
/-- Regions that START bits among the writes start, as far as no other cause of Table 4.3 stands against it (R31, R207). -/
def State.startsOf (s t : State) (rs : List (Reg × List Nat × Word)) : List Nat :=
  rs.filterMap (fun r => match r with
    | (.RGN_CTRL, [g], v) =>
      if v.toNat.testBit 0 && decide (s.rgState g = rgStopped)
          && (match t.rgnStartCause g with | some c => decide (c = 5) | none => true) then some g else none
    | _ => none)
/-- Buffers that ARM bits among the writes arm (R206). -/
def State.armsOf (s : State) (rs : List (Reg × List Nat × Word)) : List Nat :=
  rs.filterMap (fun r => match r with
    | (.CAP_CTRL, [b], v) => if v.toNat.testBit 0 && !s.capCounts b then some b else none
    | _ => none)
/-- The demand of a candidate configuration exceeds the level and what is applied now (R31, R207). -/
def State.demandBad (s t : State) (gs bs : List Nat) : Bool :=
  decide (s.prcCap < t.demandWith gs bs) && decide (s.demand < t.demandWith gs bs)
/-- The writes would use a port feature that the level forbids (R430), or put a channel of a converting region into continuous
mode in Doze (R433). -/
def State.featureBad (s t : State) (rs : List (Reg × List Nat × Word)) : Bool :=
  [0, 1].any (fun p => decide (s.level < t.portLevel p) && decide (s.portLevel p < t.portLevel p))
    || (s.pwr.doze && rs.any (fun r => match r with
      | (.CH_EVT_CTRL, [n], v) => !v.toNat.testBit 0 && s.runs (rgnOf n)
      | _ => false))
/-- A write would make the hub ID 0xFFFF (R12, section 13.9). -/
def State.hubidBad (s : State) (w : Nat × Word) : Bool :=
  decide (w.1 = R.CMD_HUBID) && decide (bitsOf w.2.toNat 15 4 = 0xFFF) && decide (s.fld R.CMD_HUBID F.CMD_HUBID_HID = 0xF)
/-- The checks of a command's writes in the order of Table 13.5 (R362): the status, the first offending address of LOCKED, and
whether the RW processing fields alone exceed the demand (R207). -/
def State.checkWrites (s : State) (via : Via) (ws : List (Nat × Word)) : Nat × Nat × Bool :=
  if ws.any (fun w => !addrOk w.1) then (0x04, 0, false)
  else match s.firstLocked s ws with
    | some a => (0x05, a, false)
    | none =>
      let t := ws.foldl State.trial s
      let rs := s.touched ws
      let only := ws.filter (fun w => (s.reaches w.1).any (fun a => (regAt a).any (fun r => rwProcessing r.1)))
      let rw := only ≠ [] && s.demandBad (only.foldl State.trial s) [] []
      if s.demandBad t (s.startsOf t rs) (s.armsOf rs) || s.featureBad t rs then (0x06, 0, rw)
      else if rs.any (fun r => match r with
        | (.LNE_CTRL, [i], v) => s.tmodeRefused i via v
        | _ => false) then (0x07, 0, false)
      else if ws.any s.hubidBad then (0x0F, 0, false)
      else (0, 0, false)

/-- The hub ID takes a new site part unless it would become 0xFFFF; enumeration follows (R12, R367). -/
def State.writeHubid (s : State) (v : Word) : State :=
  if s.hubidBad (R.CMD_HUBID, v) then s
  else
    let old := s.hubId
    let s := s.writeFlds R.CMD_HUBID [F.CMD_HUBID_SITE, F.CMD_HUBID_HID] v
    if s.hubId = old then s
    else (if s.isExit then s.setFld R.CHP_ACT F.CHP_ACT_ACTID s.hubId else s).segChanged
/-- A tracker begins anew with another source (log 98). -/
def State.renewTracker (s : State) (t : Nat) : State :=
  if s.tkState t ≤ tkNoSource then s
  else
    let steer := decide (s.spn.steering = some t)
    let s := (s.setTkState t tkNoSource).setTrk t Tracker.init
    if steer then s.enterHoldover else s
/-- A write of TRK_CFG (R52, R54): SRC of TC is fixed. DESIGN CHOICE (log 98): a tracker whose SRC or DOMAIN changes begins anew from NO_SOURCE,
which is none of the losses of R54: LOSTCNT and sources 128 and 129 stay; if it steered, Spindle holds over. -/
def State.writeTrkCfg (s : State) (t : Nat) (v : Word) : State :=
  let a := R.TRK_CFG t
  let old := (s.fld a F.TRK_CFG_SRC, s.fld a F.TRK_CFG_DOMAIN)
  let s := if t = 2 ∧ bitsOf v.toNat 19 16 ≠ 2 then s.noteIgnored a else s
  let v := if t = 2 then BitVec.ofNat 32 (putBits v.toNat 19 16 2) else v
  let s := s.writeFlds a [F.TRK_CFG_DOMAIN, F.TRK_CFG_SRC, F.TRK_CFG_TAU, F.TRK_CFG_EN] v
  (if (s.fld a F.TRK_CFG_SRC, s.fld a F.TRK_CFG_DOMAIN) = old then s else s.renewTracker t).refreshTrackers
/-- The held lower word of a pair takes its register (R9). -/
def State.takeHeld (s : State) (a : Nat) : State :=
  match s.heldAt a with
  | some w => (s.setHeld a none).setReg a w
  | none => s
/-- A write of SPN_RATE_HI (R45, Table 2.10): RATE in FREE mode; ignored in TRACK mode, where only a 1 in a
reserved bit is recorded (R456). -/
def State.writeRate (s : State) (d : RegDesc) (v : Word) : State :=
  if s.trackMode then
    let t := s.setHeld R.SPN_RATE none
    if writeIgnored d.flds (s.reg R.SPN_RATE_HI).toNat v.toNat then t.noteIgnored R.SPN_RATE_HI else t
  else
    let s := (s.takeHeld R.SPN_RATE).writeFlds R.SPN_RATE_HI d.flds v
    s.applyRateWord (s.pair R.SPN_RATE R.SPN_RATE_HI)
/-- The upper word of an FE-resident pair: both words go to the die together, or neither (R9, R38, R39; log 64). -/
def State.writeFePair (s : State) (a : Nat) (d : RegDesc) (v : Word) : State :=
  let low := match lookupReg (a - 4) with
    | some (e, _) => e.flds
    | none => []
  match s.heldAt (a - 4) with
  | some w => (s.setHeld (a - 4) none).writeFeAll [(a - 4, low, w), (a, d.flds, v)]
  | none => s.writeFe a d.flds v
/-- Processing registers whose writes wait for a slot boundary (R202). -/
def waitsSlot (r : Reg) : Bool :=
  [Reg.CH_PRC_CTRL, .CH_PRC_FIR, .CH_COR_GAIN, .CH_COR_OFS, .CH_SCL_MUL, .CH_SCL_CFG, .CH_SCL_OFS, .CH_STAT_CFG, .CH_SW_CFG,
   .CH_SW_UP, .CH_SW_LO, .CH_RQ_CFG].contains r
/-- What the block does with a write that has passed its checks, register by register. -/
def State.writeReg (s : State) (via : Via) (d : RegDesc) (ix : List Nat) (a : Nat) (v : Word) : State :=
  if pairHeld d.reg then s.setHeld a (some v)
  else match d.reg, ix with
    | .SNAP_CTRL, _ => s.writeSnapCtrl v
    | .PRC_SWMAP, [p] =>
      let s := s.writeFlds a d.flds v
      match s.swOut p with
      | some b => s.emit (.pin (pinSwOut + p) (b2n b) s.lt)
      | none => s
    | .PWR_REQ, _ => s.writePwrReq v
    | .PWR_TWARN, _ => s.writeTwarn v
    | .SPN_CTRL, _ => s.writeSpnCtrl v
    | .SPN_SW, _ => s.writeSpnSw v
    | .SPN_PPS, _ => (s.writeFlds a d.flds v).ppsGate
    | .SPN_SET_HI, _ => (s.takeHeld R.SPN_SET).writeFlds a d.flds v
    | .SPN_RATE_HI, _ => s.writeRate d v
    | .TRK_CFG, [t] => s.writeTrkCfg t v
    | .CMP_T_HI, [m] => s.armCmp m v
    | .CMP_CTRL, [m] => s.writeCmpCtrl m v
    | .FLT_CTRL, _ => s.writeFltCtrl v
    | .FLT_FIRST, _ => s.writeFltFirst v
    | .FLT_STICKY, [w] => s.writeSticky w v
    | .FLT_FORCE, [w] => s.writeForce w v
    | .FLT_EN, [w] => s.writeFltEn w v
    | .FLT_REACT, _ => (s.writeFlds a d.flds v).updAlive
    | .CMD_HUBID, _ => s.writeHubid v
    | .LNE_CTRL, [i] => s.writeLneCtrl i via v
    | .LNE_TXEQ, [i] => s.writeLneTxeq i v
    | .LNE_RXEQ, [i] => s.writeLneRxeq i v
    | .LNE_GRP, [q] => s.writeLneGrp q v
    | .NET_CTRL, [p] => s.writeNetCtrl p v
    | .CHP_CTRL, [k] => s.writeChpCtrl k v
    | .CHP_RING, _ => s.writeChpRing v
    | .CHP_NEXP, _ => (s.writeFlds a d.flds v).showSeg
    | .STR_CTRL, [c] => s.writeStrCtrl c v
    | .GGE_CTRL, _ => s.writeGgeCtrl v
    | .CAP_CTRL, [b] => s.writeCapCtrl b v
    | .CAP_CFG, [b] => (s.writeFlds a d.flds v).capAllocCheck b
    | .CAP_BUF, [b] => (s.writeFlds a d.flds v).capAllocCheck b
    | .RGN_CTRL, [g] => s.writeRgnCtrl g v
    | .RGN_SEQ_CTRL, [g] => s.writeSeqCtrl g v
    | .RGN_START_HI, _ => s.writeFePair a d v
    | .RGN_SEQ_ENT_HI, _ => s.writeFePair a d v
    | .SPR_CTRL, [c] => s.writeSprCtrl c v
    | .CH_STEADY_CTRL, [n] => s.writeSteadyCtrl n v
    | .CH_IMP_CFG, [n] => s.writeImpCfg n v
    | .CH_BQ_CTRL, [n] => s.writeBqCtrl n v
    | r, n :: _ =>
      if waitsSlot r then
        let s := s.writeFlds a d.flds v
        s.prcWrite n a (s.reg a)
      else if d.fe then s.writeFe a d.flds v else s.writeFlds a d.flds v
    | _, _ => if d.fe then s.writeFe a d.flds v else s.writeFlds a d.flds v

/-- A word written to an image window (R291): the first one after a stop begins from the anchor image. -/
def State.writeImage (s : State) (c o : Nat) (v : Word) : State :=
  let x := s.gg c
  let s := if x.inMem then s else (s.setBytes (imageBase c) (s.anchorBytes c)).setGg c { x with inMem := true }
  s.setBytes (imageBase c + o) (beBytes 4 v.toNat)
/-- A write of one register or window word at its block, which makes its own idle test (R454). -/
def State.writePlain (s : State) (via : Via) (v : Word) (a : Nat) : State :=
  if s.lockedAt s a v then s.noteLocked a
  else match lookupReg a with
    | some (d, ix) =>
      let s := match s.derived a d.reg ix with
        | some w => s.setReg a (BitVec.ofNat 32 w)
        | none => s
      s.writeReg via d ix a v
    | none =>
      match imageAt a with
      | some (c, o) => s.writeImage c o v
      | none => s.noteIgnored a
/-- A write of one address (R205, R450): an alias write reaches every addressed channel at one instant; what it ignores is
recorded once, at the alias. -/
def State.writeWord (s : State) (via : Via) (w : Nat × Word) : State :=
  match aliasAt w.1 with
  | none => s.writePlain via w.2 w.1
  | some (_, o) =>
    if aliasApplied o then
      let t := (s.setReg R.GLB_ACCERR 0).forEach (s.reaches w.1) (fun s a => s.writePlain via w.2 a)
      let u := (t.setReg R.GLB_ACCERR (s.reg R.GLB_ACCERR)).setReg R.GLB_ACCADR (s.reg R.GLB_ACCADR)
      let u := if t.flag R.GLB_ACCERR F.GLB_ACCERR_LOCK then u.noteLocked w.1 else u
      if t.flag R.GLB_ACCERR F.GLB_ACCERR_IGN then u.noteIgnored w.1 else u
    else s.noteIgnored w.1
/-- What a DEMAND refusal leaves (R31, R207): REFUSED and source 109 for RW processing fields, cause 0x5 for the region starts the
command names, and cause 0x7 of Table 8.1 for its arms. -/
def State.demandRefused (s : State) (ws : List (Nat × Word)) (rw : Bool) : State :=
  let t := ws.foldl State.trial s
  let rs := s.touched ws
  let gs := s.startsOf t rs
  let bs := s.armsOf rs
  let u := if rw then (s.setFlag R.PRC_STAT F.PRC_STAT_REFUSED true).event 109 instHub 0 else s
  if s.demandBad t gs bs then
    (u.forEach gs (fun s g => s.refuseStart g 5)).forEach bs (fun s b => s.refuseArm b 7)
  else u
/-- A command's writes (R362): all of them when every check passes, else none. A LOCKED refusal is recorded (R456), one of DEMAND
leaves what `State.demandRefused` says, and one of TMODE sets TREF (R315). Answers the status. -/
def State.accessWrite (s : State) (via : Via) (ws : List (Nat × Word)) : State × Nat :=
  let (st, off, rw) := s.checkWrites via ws
  if st = 0 then (ws.foldl (fun s w => s.writeWord via w) s, 0)
  else if st = 0x05 then (s.noteLocked off, st)
  else if st = 0x06 then (s.demandRefused ws rw, st)
  else if st = 0x07 then
    (s.forEach (s.touched ws) (fun s r => match r with
      | (.LNE_CTRL, [i], v) => if s.tmodeRefused i via v then s.setFlag (R.LNE_STAT i) F.LNE_STAT_TREF true else s
      | _ => s), st)
  else (s, st)
/-- One write with its answer. -/
def State.writeAnswer (s : State) (a : Nat) (v : Word) : State :=
  let (s, st) := s.accessWrite .spi [(a, v)]
  s.answer 0 st

/-- PAIR_LOWER_WRITE (R9): the lower word of a pair is held until the upper word is written. -/
def execPairLowerWrite (a : Nat) (v : Word) (s : State) : Res := s.act! (s.writeAnswer a v)
/-- PAIR_UPPER_WRITE (R9): both words of the pair take effect together. -/
def execPairUpperWrite (a : Nat) (v : Word) (s : State) : Res := s.act! (s.writeAnswer a v)
/-- REGISTER_WRITE (R17, R362, R454 to R456). -/
def execRegisterWrite (a : Nat) (v : Word) (s : State) : Res := s.act! (s.writeAnswer a v)
/-- ALIAS_WRITE (R205, R450, R451). -/
def execAliasWrite (a : Nat) (v : Word) (s : State) : Res := s.act! (s.writeAnswer a v)
/-- GOUGE_IMAGE_WRITE (R291, R453). -/
def execGougeImageWrite (a : Nat) (v : Word) (s : State) : Res := s.act! (s.writeAnswer a v)

/-- CMD_HUBID_WRITE (R12). -/
def execCmdHubidWrite (v : Word) (s : State) : Res := s.act! (s.writeHubid v)

end Sys2Proof.Machine
end

