-- ==== Sys2Proof/Machine/Headstock.lean ====
section
/-! DEFINITION. Headstock (chapter 13): command datagrams and their acceptance, execution by opcode, replies, and VC2 messages
along the ring. -/
namespace Sys2Proof.Machine

/-- Status codes of Table 13.5. -/
def stOk : Nat := 0x00
def stBadver : Nat := 0x01
def stBadop : Nat := 0x02
def stBadlen : Nat := 0x03
def stBadaddr : Nat := 0x04
def stPath : Nat := 0x07
def stBusy : Nat := 0x08
def stTagbusy : Nat := 0x09
def stDuplicate : Nat := 0x0A
def stParts : Nat := 0x0B
def stStale : Nat := 0x0C
def stNohub : Nat := 0x0D
def stTimeout : Nat := 0x0E
def stRefused : Nat := 0x0F
def stSpicrc : Nat := 0x11
/-- Statuses that refuse a request: all but OK, STALE and what the entry hub answers for another hub (log 41). -/
def isRefusal (st : Nat) : Bool := !([stOk, stStale, stNohub, stTimeout].contains st)

/-- Read opcodes (R356). -/
def readOps : List Nat := [0x01, 0x02, 0x05, 0x08, 0x18]
/-- Opcodes of Table 13.4. -/
def allOps : List Nat := [0x01, 0x02, 0x03, 0x04, 0x05, 0x06, 0x08, 0x10, 0x11, 0x18, 0x19, 0x20, 0x21, 0x30, 0x31]
/-- Opcodes that may be sent in parts (R360). -/
def partOps : List Nat := [0x03, 0x06, 0x30]
/-- A reply is due (R356). -/
def ReqCtx.due (q : ReqCtx) : Bool := q.ack || readOps.contains q.op
/-- The key of a command in flight (R358). -/
def ReqCtx.key (q : ReqCtx) : Nat × Nat := (q.srcid, q.tag)

def State.setHs (s : State) (x : HsState) : State := { s with hs := x }
/-- A reply of this hub joins the SPI queue, or waits for room in it (R378). -/
def State.spiPut (s : State) (bs : List Byte) : State :=
  let x := s.hs
  if x.spiw = [] ∧ x.spiq.length < 8 then s.setHs { x with spiq := x.spiq ++ [bs] }
  else s.setHs { x with spiw := x.spiw ++ [bs] }
/-- A reply of another hub that came on a link joins the SPI queue, or waits in the ring for room (R378; log 118). -/
def State.spiRing (s : State) (k : Nat) (bs : List Byte) : State :=
  let x := s.hs
  if x.spiw = [] ∧ x.ringw = [] ∧ x.spiq.length < 8 then s.setHs { x with spiq := x.spiq ++ [bs] }
  else s.setHs { x with ringw := x.ringw ++ [(k, 0, bs)] }
/-- The oldest reply leaves the SPI queue and the oldest that waits takes the room, this hub's own first; one that waited in the ring gives its
blocks back (R329, R378; log 118). -/
def State.spiPop (s : State) : State :=
  let x := s.hs
  match x.spiw, x.ringw with
  | r :: w, _ => s.setHs { x with spiq := x.spiq.drop 1 ++ [r], spiw := w }
  | [], (k, n, r) :: w => (s.setHs { x with spiq := x.spiq.drop 1 ++ [r], ringw := w }).freeBlocks k 2 n
  | [], [] => s.setHs { x with spiq := x.spiq.drop 1 }

/-- The routing header of a VC2 message (Table 13.2): `flags` is RFLAGS but for FIRST and LAST. -/
def vc2Head (q : ReqCtx) (dest flags hops cell : Nat) : List Byte :=
  beBytes 2 q.entry ++ beBytes 2 dest ++ beBytes 1 (cell + flags) ++ beBytes 1 hops ++ beBytes 2 q.xid ++ beBytes 16 q.saddr
    ++ beBytes 2 q.sport ++ beBytes 2 0
/-- The cells of a VC2 message (R352): up to 256 bytes, each repeating the routing header. -/
def vc2Cells (head : Nat → List Byte) : Nat → Bool → List Byte → List (List Byte)
  | 0, _, _ => []
  | fuel + 1, first, bs =>
    let last := decide (bs.length ≤ 228)
    (head (128 * b2n first + 64 * b2n last) ++ bs.take 228) :: (if last then [] else vc2Cells head fuel false (bs.drop 228))
/-- Send a VC2 message on a link. -/
def State.sendVc2 (s : State) (k : Nat) (q : ReqCtx) (dest flags hops : Nat) (bs : List Byte) : State :=
  s.forEach (vc2Cells (vc2Head q dest flags hops) (bs.length + 1) true bs) (fun s c => s.sendCell k 2 c)

/-- The address list of a UDP datagram to an IPv6 or IPv4-mapped address. -/
def udpAddr (a : Nat) : List Nat := if a / 2 ^ 32 = 0xFFFF then [4, a % 2 ^ 32] else [6, a]
/-- A reply datagram on its way (R353): through the active exit, into the SPI reply queue of this hub, or along the ring. -/
def State.replyOut (s : State) (q : ReqCtx) (bs : List Byte) : State :=
  if q.path = 0 then
    match s.exitPort with
    | some p => s.sendCmdUdp p (udpAddr q.saddr) q.sport bs
    | none =>
      match s.upLink with
      | some k => s.sendVc2 k q q.entry 0x20 0 bs
      | none => s
  else if !q.ring then s.spiPut bs
  else match s.seg.find? (fun h => decide (h.id = q.entry)) with
    | some h => s.sendVc2 h.link q q.entry 0x21 0 bs
    | none => s
/-- A reply datagram (R354): `flags` is PART and MORE. -/
def State.replyDgram (s : State) (q : ReqCtx) (st flags : Nat) (p : List Byte) : List Byte :=
  let body := beBytes 1 2 ++ beBytes 1 (q.op + 128) ++ beBytes 1 (flags + q.tag) ++ beBytes 1 st ++ beBytes 2 s.hubId
    ++ beBytes 2 p.length ++ beBytes 4 q.sseq ++ beBytes 4 q.srcid ++ p
  body ++ beBytes 4 (crc32c body)
/-- PMAX (R357). -/
def State.pmax (s : State) (q : ReqCtx) : Nat :=
  if q.path = 0 then min 1024 (s.mtu (s.fld R.CHP_ACT F.CHP_ACT_APORT) - 68) else 1024
/-- The parts of a long reply (R357): TAGF flags and parameters of each, with the OFFSET in front. -/
def replyParts (chunk : Nat) : Nat → Nat → List Byte → List (Nat × List Byte)
  | 0, _, _ => []
  | fuel + 1, off, bs =>
    let last := decide (bs.length ≤ chunk)
    (128 + 64 * b2n (!last), beBytes 4 off ++ bs.take chunk)
      :: (if last then [] else replyParts chunk fuel (off + chunk) (bs.drop chunk))
/-- Send a reply (R354, R357). -/
def State.sendReply (s : State) (q : ReqCtx) (st : Nat) (p : List Byte) : State :=
  let parts := if p.length ≤ s.pmax q then [(0, p)] else replyParts ((s.pmax q - 4) / 4 * 4) p.length 0 p
  s.forEach parts (fun s r => s.replyOut q (s.replyDgram q st r.1 r.2))

/-- A refusal is recorded (R356, Table 13.8). -/
def State.noteRefusal (s : State) (q : ReqCtx) (st : Nat) : State :=
  let s := s.setReg R.CMD_LAST (BitVec.ofNat 32 (q.op * 2 ^ 24 + st * 2 ^ 16 + q.srcid % 65536))
  let s := s.bump R.CMD_STAT F.CMD_STAT_REFCNT
  let s := if st = stDuplicate then s.bump R.CMD_STAT F.CMD_STAT_DUPCNT else s
  if st = stBusy then s.raiseHub 249 else if st = stPath then s.raiseHub 251 else s
/-- A command ends (R356, R358): its refusal is recorded, its reply sent when one is due, and it is no longer in flight. -/
def State.finish (s : State) (q : ReqCtx) (st : Nat) (p : List Byte) : State :=
  let s := if isRefusal st then s.noteRefusal q st else s
  let s := if q.due then s.sendReply q st p else s
  s.setHs { s.hs with flight := s.hs.flight.erase q.key }
/-- A request is refused before its acceptance: a reply says so when one is due (R356; log 117), over this hub's SPI the result byte does
too (R377). -/
def State.refuseAt (s : State) (q : ReqCtx) (st : Nat) : State × Nat :=
  let s := s.noteRefusal q st
  (if q.due then s.sendReply q st [] else s, st)
/-- Send what Tailstock has answered to telegrams (R375). -/
def State.drainAnswers (s : State) : State :=
  let l := s.tls.answers
  (s.setTls { s.tls with answers := [] }).forEach l (fun s a => s.finish a.1 a.2.1 a.2.2)
/-- A datagram with a bad CRC or length (R351, R355). -/
def State.crcDiscard (s : State) : State := (s.bump R.CMD_STAT F.CMD_STAT_CRCERR).raiseHub 248

/-- The stride in bytes (Table 13.4): bits [14:0] in words, 0 acts as 1. -/
def strideOf (v : Nat) : Nat := 4 * max (v % 32768) 1
/-- The addresses A + 4 x j x stride. -/
def strided (a n stride : Nat) : List Nat := (List.range n).map (fun j => a + strideOf stride * j)
/-- The parameters match the layout of the opcode (R368, R370). -/
def paramsOk (op : Nat) (p : List Byte) : Bool :=
  let n := p.length
  if op = 0x01 ∨ op = 0x18 then decide (n = 0)
  else if op = 0x04 ∨ op = 0x19 then decide (n = 12)
  else if op = 0x10 then decide (n = 20)
  else if op = 0x11 ∨ op = 0x20 ∨ op = 0x21 then decide (n = 4)
  else if op = 0x02 then decide (n = 8) && decide (1 ≤ natAt p 4 2) && decide (natAt p 4 2 ≤ 16384)
  else if op = 0x03 then decide (8 ≤ n) && decide (1 ≤ natAt p 4 2) && decide (natAt p 4 2 ≤ 16384)
    && decide (n = if 32768 ≤ natAt p 6 2 then 12 else 8 + 4 * natAt p 4 2)
  else if op = 0x05 then decide (1 ≤ natAt p 0 2) && decide (natAt p 0 2 ≤ 256) && decide (n = 4 + 4 * natAt p 0 2)
  else if op = 0x06 then decide (1 ≤ natAt p 0 2) && decide (natAt p 0 2 ≤ 8191) && decide (n = 4 + 8 * natAt p 0 2)
  else if op = 0x08 then decide (1 ≤ natAt p 0 2) && decide (natAt p 0 2 ≤ 64)
    && decide (n = 4 + (2 * natAt p 0 2 + 3) / 4 * 4) && (List.range (natAt p 0 2)).all (fun j => decide (natAt p (4 + 2 * j) 2 < 384))
  else true
/-- The word at offset `o`. -/
def wordAt (p : List Byte) (o : Nat) : Word := BitVec.ofNat 32 (natAt p o 4)
/-- The addresses a READ or READ_LIST names (Table 13.4). -/
def readsOf (op : Nat) (p : List Byte) : List Nat :=
  if op = 0x02 then strided (natAt p 0 4) (natAt p 4 2) (natAt p 6 2)
  else (List.range (natAt p 0 2)).map (fun j => natAt p (4 + 4 * j) 4)
/-- The writes of a WRITE or WRITE_LIST (Table 13.4). -/
def writesOf (op : Nat) (p : List Byte) : List (Nat × Word) :=
  if op = 0x03 then
    let fill := decide (32768 ≤ natAt p 6 2)
    (List.range (natAt p 4 2)).map (fun j =>
      (natAt p 0 4 + strideOf (natAt p 6 2) * j, wordAt p (if fill then 8 else 8 + 4 * j)))
  else (List.range (natAt p 0 2)).map (fun j => (natAt p (4 + 8 * j) 4, wordAt p (8 + 8 * j)))
/-- The bytes of words. -/
def wordBytes (ws : List Nat) : List Byte := (ws.map (beBytes 4)).flatten

/-- A command with an outcome: the state, and status and reply parameters; none when the hub neither acts nor replies, or
Tailstock answers later. -/
abbrev CmdRes := State × Option (Nat × List Byte)
/-- READ and READ_LIST (R368). -/
def State.cmdRead (s : State) (l : List Nat) : CmdRes :=
  if l.all addrOk then
    let (s, ws, stale) := s.readAll l
    (s, some (if stale then stStale else stOk, wordBytes ws))
  else (s, some (stBadaddr, []))
/-- Writes of a command that came in over the network while NETWR is 0 (R362, R366): refused with PATH, unless a check that
comes before it in Table 13.5 fails. -/
def State.cmdWrites (s : State) (blocked : Bool) (via : Via) (ws : List (Nat × Word)) : State × Nat :=
  let st := (s.checkWrites via ws).1
  if blocked && (decide (st = stOk) || decide (st = stRefused)) then (s, stPath) else s.accessWrite via ws
/-- WRITE and WRITE_LIST (R362). -/
def State.cmdWrite (s : State) (blocked : Bool) (via : Via) (ws : List (Nat × Word)) : CmdRes :=
  let (s, st) := s.cmdWrites blocked via ws
  (s, some (st, []))
/-- WRITE_MASK (R369). -/
def State.cmdMask (s : State) (blocked : Bool) (via : Via) (a : Nat) (m v : Word) : CmdRes :=
  if !addrOk a then (s, some (stBadaddr, []))
  else
    let new := fun (old : Nat) => (BitVec.ofNat 32 old &&& ~~~m) ||| (v &&& m)
    let st := (s.checkWrites via [(a, new (s.readWord a).2.1)]).1
    if st = stOk ∧ !blocked then
      let (s, old, stale) := s.readWord a
      (s.writeWord via (a, new old), some (if stale then stStale else stOk, beBytes 4 old))
    else
      let (s, st) := s.cmdWrites blocked via [(a, new (s.readWord a).2.1)]
      (s, some (st, []))
/-- IDENT (Table 13.4). -/
def State.identBytes (s : State) : List Byte :=
  beBytes 2 s.hubId ++ beBytes 1 (s.fld R.CHP_RING F.CHP_RING_POS) ++ beBytes 1 (s.fld R.CHP_RING F.CHP_RING_NHUBS)
    ++ beBytes 4 (s.reg R.GLB_DEVID).toNat ++ beBytes 4 (s.reg R.GLB_FWVER).toNat ++ beBytes 1 s.timeStatus ++ beBytes 1 s.level
    ++ beBytes 2 0 ++ beBytes 6 (s.portMac 0) ++ beBytes 2 0
/-- One channel of READ_WORD (R370): CH_OUT_W latches the rest of R201. -/
def State.wordEntry (s : State) (n : Nat) : State × List Byte :=
  let (s, ws, _) := s.readAll [R.CH_OUT_W n, R.CH_OUT_Q n, R.CH_OUT_T n, R.CH_OUT_T_HI n, R.CH_OUT_S n]
  let w := fun (i : Nat) => (ws[i]?).getD 0
  (s, beBytes 2 n ++ beBytes 1 (bitsOf (w 1) 7 0) ++ beBytes 1 (bitsOf (w 1) 11 8) ++ beBytes 2 (bitsOf (w 1) 31 16)
    ++ beBytes 2 0 ++ beBytes 4 (w 0) ++ beBytes 4 (w 4) ++ beBytes 4 (w 3 % 65536) ++ beBytes 4 (w 2))
/-- READ_WORD (R370), in list order. -/
def State.cmdWords (s : State) : List Nat → State × List Byte
  | [] => (s, [])
  | n :: ns =>
    let (s, b) := s.wordEntry n
    let (s, bs) := s.cmdWords ns
    (s, b ++ bs)
/-- The snapshot of a SNAPSHOT command (R41, R371): a unicast one is forwarded as a broadcast with FWD, and its instant moved
as R41 says. DESIGN CHOICE (log 97): one that came too late is judged first, and with FWD latches with its broadcast 50 us after its receipt,
with LATE set. Answers the latch instant, none when refused. -/
def State.cmdSnap (s : State) (time : Nat) (late uni : Bool) : State × Option Nat :=
  let fwd := uni && s.flag R.SNAP_CTRL F.SNAP_CTRL_FWD
  let t := if fwd then max time (s.lt + 50000 * nsU) else time
  let (s, ok) := s.snapRequest t causeCmd late
  if ok then (if fwd then s.sendVc1 0x11 0 t else s, some t) else (s, none)
/-- SNAPSHOT (R371). -/
def State.cmdSnapshot (s : State) (uni : Bool) (p : List Byte) : CmdRes :=
  let soft := s.lt + snapDelay
  let refused : Nat × List Byte := (stRefused, List.replicate 16 0)
  let go := fun (time : Nat) (late : Bool) =>
    match s.cmdSnap time late uni with
    | (s, some t) => (s, some (stOk, ltBytes t ++ beBytes 2 0))
    | (s, none) => (s, some refused)
  if (natAt p 0 1).testBit 0 then
    match ltAt p 4 with
    | some t => if t < soft then go soft true else go t false
    | none => (s, some refused)
  else go soft false
/-- CAPTURE (R372). -/
def State.cmdCapture (s : State) (mask : Nat) : CmdRes :=
  (s.forEach (setBitsOf 16 mask) (fun s b => s.capSoft b), some (stOk, ltBytes (s.lt + 2000 * nsU) ++ beBytes 2 0))
/-- One entry of RING_INFO (R373): SIDE is 0 CU, 1 CD, 2 this hub. -/
def ringEntry (id hops side links xst : Nat) : List Byte :=
  beBytes 2 id ++ beBytes 1 hops ++ beBytes 1 side ++ beBytes 1 links ++ beBytes 1 xst ++ beBytes 2 0
/-- Hubs on a side of the segment by falling HOPS. -/
def sideFar (l : List SegHub) (k : Nat) : List SegHub :=
  ((List.range 16).reverse.map (fun h => l.filter (fun e => decide (e.link = k) && decide (e.hops = h)))).flatten
/-- RING_INFO (R373) from the settled table, hubs from the head on (log 42). -/
def State.ringBytes (s : State) : List Byte :=
  let e := fun (h : SegHub) => ringEntry h.id h.hops h.link h.links h.xst
  beBytes 1 (s.ring.table.length + 1) ++ beBytes 1 (s.fld R.CHP_RING F.CHP_RING_POS) ++ beBytes 2 (s.fld R.CHP_ACT F.CHP_ACT_ACTID)
    ++ ((sideFar s.ring.table 0).map e).flatten ++ ringEntry s.hubId 0 2 s.ownLinks s.ownXst
    ++ ((sideFar s.ring.table 1).reverse.map e).flatten
/-- SET_HUBID selects this hub (R367). -/
def State.hubidFor (s : State) (p : List Byte) : Bool :=
  (decide (natAt p 0 1 = 0) && decide (natAt p 1 1 = s.fld R.CHP_RING F.CHP_RING_POS))
    || (decide (natAt p 0 1 = 1) && decide (natAt p 2 6 = s.portMac 0))
/-- SET_HUBID (R367, R12). -/
def State.cmdHubid (s : State) (p : List Byte) : CmdRes :=
  let v : Word := BitVec.ofNat 32 (natAt p 8 2 / 16 * 16 + s.fld R.CMD_HUBID F.CMD_HUBID_HID)
  if s.hubidBad (R.CMD_HUBID, v) then (s, some (stRefused, [])) else (s.writeHubid v, some (stOk, []))
/-- POWER (R374): a level that R31 forbids, or a request of no kind or value, is refused. -/
def State.cmdPower (s : State) (kind value : Nat) : CmdRes :=
  if kind = 1 ∧ value ≤ 3 ∧ !s.overLevel value then (s.powerRequest 1 value 1, some (stOk, []))
  else if kind = 2 ∧ value ≤ 2 then (s.powerRequest 2 value 1, some (stOk, []))
  else (s, some (stRefused, []))
/-- RESET (R374): 1 ms from here. -/
def State.cmdReset (s : State) (p : List Byte) : CmdRes :=
  if natAt p 0 2 = 0xB384 ∧ natAt p 2 1 = 1 then
    let t := match s.pwr.cmdReset with
      | some t => t
      | none => s.lt + 1000000 * nsU
    ({ s with pwr := { s.pwr with cmdReset := some t } }, some (stOk, []))
  else (s, some (stRefused, []))
/-- SAFE_PARAM (R375, R407). -/
def State.cmdSafeParam (s : State) (p : List Byte) : CmdRes :=
  let (s, st, bs) := s.safeParam p
  (s, some (st, bs))
/-- SAFE_TLG (R375, R417): in flight until Tailstock answers. -/
def State.cmdSafeTlg (s : State) (q : ReqCtx) (p : List Byte) : CmdRes := (s.safeTlg q p, none)

/-- The command's network path is closed by NETWR (R366). -/
def State.pathBlocked (s : State) (q : ReqCtx) : Bool :=
  decide (q.path = 0) && !s.flag R.CMD_CFG F.CMD_CFG_NETWR && !readOps.contains q.op && decide (q.op ≠ 0x31)
/-- Execute an accepted command (R362, R368): the checks in the order of Table 13.5, then its opcode. -/
def State.runCmd (s : State) (q : ReqCtx) (ver : Nat) (via : Via) (p : List Byte) : CmdRes :=
  let blocked := s.pathBlocked q
  if ver ≠ 2 then (s, some (stBadver, []))
  else if !allOps.contains q.op then (s, some (stBadop, []))
  else if !paramsOk q.op p then (s, some (stBadlen, []))
  else if q.op = 0x19 ∧ !s.hubidFor p then (s, none)
  else if q.op = 0x03 ∨ q.op = 0x06 then s.cmdWrite blocked via (writesOf q.op p)
  else if q.op = 0x04 then s.cmdMask blocked via (natAt p 0 4) (wordAt p 4) (wordAt p 8)
  else if blocked then (s, some (stPath, []))
  else if q.op = 0x01 then (s, some (stOk, s.identBytes))
  else if q.op = 0x02 ∨ q.op = 0x05 then s.cmdRead (readsOf q.op p)
  else if q.op = 0x08 then
    let (s, bs) := s.cmdWords ((List.range (natAt p 0 2)).map (fun j => natAt p (4 + 2 * j) 2))
    (s, some (stOk, bs))
  else if q.op = 0x10 then s.cmdSnapshot (decide (q.target ≠ 0xFFFF)) p
  else if q.op = 0x11 then s.cmdCapture (natAt p 0 2)
  else if q.op = 0x18 then (s, some (stOk, s.ringBytes))
  else if q.op = 0x19 then s.cmdHubid p
  else if q.op = 0x20 then s.cmdPower (natAt p 0 1) (natAt p 1 1)
  else if q.op = 0x21 then s.cmdReset p
  else if q.op = 0x30 then s.cmdSafeParam p
  else s.cmdSafeTlg q p
/-- Execute a command and answer it; it is in flight until then (R358). -/
def State.execCmd (s : State) (q : ReqCtx) (ver : Nat) (via : Via) (p : List Byte) : State :=
  match (s.setHs { s.hs with flight := s.hs.flight ++ [q.key] }).runCmd q ver via p with
  | (s, some (st, out)) => s.finish q st out
  | (s, none) => if q.op = 0x31 then s.drainAnswers else s.setHs { s.hs with flight := s.hs.flight.erase q.key }

/-- The tracked source of an ID (R359). -/
def State.source (s : State) (id : Nat) : Option HsSource := s.hs.sources.find? (fun x => decide (x.id = id))
/-- Already accepted, or older than H - 63 (R359), by signed 32-bit differences. -/
def State.duplicate (s : State) (id sseq : Nat) : Bool :=
  match s.source id with
  | some x =>
    let d := signed 32 (sseq + 2 ^ 32 - x.high)
    decide (d ≤ 0) && (decide (d ≤ -64) || x.taken.contains sseq)
  | none => false
/-- The source is the one heard from most recently (R359). -/
def State.hearSource (s : State) (id : Nat) : State :=
  match s.source id with
  | some x => s.setHs { s.hs with sources := s.hs.sources.filter (fun y => decide (y.id ≠ id)) ++ [x] }
  | none => s
/-- An SSEQ is accepted (R359): a new source takes the place of the one heard from least recently of 16. -/
def State.markSource (s : State) (id sseq : Nat) : State :=
  let rest := s.hs.sources.filter (fun y => decide (y.id ≠ id))
  let x : HsSource := match s.source id with
    | some x =>
      let high := if 0 < signed 32 (sseq + 2 ^ 32 - x.high) then sseq else x.high
      ⟨id, high, (x.taken ++ [sseq]).filter (fun v => decide (signed 32 (high + 2 ^ 32 - v) < 64))⟩
    | none => ⟨id, sseq, [sseq]⟩
  s.setHs { s.hs with sources := rest.drop (rest.length - 15) ++ [x] }

/-- 10 ms: the longest gap between parts (R360), and the life of an incomplete VC2 message (R352). -/
def partGap : Nat := 10000000 * nsU
/-- The parts gathered under a key. -/
def State.partOf (s : State) (key : Nat × Nat) : Option HsPart := s.hs.parts.find? (fun x => decide (x.ctx.key = key))
/-- A command in parts is no longer gathered. -/
def State.dropPart (s : State) (key : Nat × Nat) : State :=
  s.setHs { s.hs with parts := s.hs.parts.filter (fun x => decide (x.ctx.key ≠ key)), flight := s.hs.flight.erase key }
/-- The command ends with PARTS (R360); the latest part's ACKREQ decides on the reply. -/
def State.endParts (s : State) (x : HsPart) : State := (s.dropPart x.ctx.key).finish x.ctx stParts []
/-- A gap of more than 10 ms has passed (R360). -/
def State.partsDue (s : State) (key : Nat × Nat) : State :=
  match s.partOf key with
  | some x => if x.heard + partGap < s.lt then s.endParts x else s
  | none => s
/-- The next part of a command (R360). -/
def State.takePart (s : State) (x : HsPart) (q : ReqCtx) (ver : Nat) (more : Bool) (via : Via) (p : List Byte) : State × Nat :=
  if q.sseq ≠ x.next ∨ q.target ≠ x.ctx.target ∨ q.op ≠ x.ctx.op ∨ 65544 < x.params.length + p.length then
    (s.dropPart q.key).refuseAt q stParts
  else
    let s := s.markSource q.srcid q.sseq
    let ver := if x.ver = 2 then ver else x.ver
    let all := x.params ++ p
    if more then
      let y : HsPart := ⟨q, ver, (q.sseq + 1) % 2 ^ 32, all, via, s.lt⟩
      (s.setHs { s.hs with parts := s.hs.parts.filter (fun z => decide (z.ctx.key ≠ q.key)) ++ [y] }, stOk)
    else ((s.dropPart q.key).execCmd q ver via all, stOk)
/-- A request datagram at the hub that executes it (R358 to R361): accepted, executed when it is the last part, and refused with
BUSY, TAGBUSY, DUPLICATE or PARTS. Answers that status. -/
def State.acceptPart (s : State) (q : ReqCtx) (ver : Nat) (more : Bool) (via : Via) (p : List Byte) : State × Nat :=
  let s := (s.partsDue q.key).hearSource q.srcid
  let old := s.partOf q.key
  if old.isNone ∧ 64 ≤ s.hs.flight.length then s.refuseAt q stBusy
  else if old.isNone ∧ s.hs.flight.contains q.key then s.refuseAt q stTagbusy
  else if s.duplicate q.srcid q.sseq then s.refuseAt q stDuplicate
  else match old with
    | some x => s.takePart x q ver more via p
    | none =>
      if more then
        if partOps.contains q.op then
          let s := s.markSource q.srcid q.sseq
          let y : HsPart := ⟨q, ver, (q.sseq + 1) % 2 ^ 32, p, via, s.lt⟩
          (s.setHs { s.hs with parts := s.hs.parts ++ [y], flight := s.hs.flight ++ [q.key] }, stOk)
        else s.refuseAt q stParts
      else ((s.markSource q.srcid q.sseq).execCmd q ver via p, stOk)

/-- Header fields of a request datagram (Table 13.3) with where it came from. -/
def reqCtx (entry path xid saddr sport : Nat) (ring : Bool) (b : List Byte) : ReqCtx :=
  { entry := entry, path := path, xid := xid, saddr := saddr, sport := sport, ring := ring, op := natAt b 1 1,
    tag := natAt b 2 1 % 64, ack := (natAt b 2 1).testBit 7, target := natAt b 4 2, sseq := natAt b 8 4, srcid := natAt b 12 4 }
/-- MORE of a request datagram. -/
def reqMore (b : List Byte) : Bool := (natAt b 2 1).testBit 6
/-- The parameters of a datagram. -/
def reqParams (b : List Byte) : List Byte := (b.drop 16).take (b.length - 20)
/-- The length agrees with PLEN (R351). -/
def dgramSized (b : List Byte) : Bool := decide (20 ≤ b.length) && decide (b.length = 20 + natAt b 6 2)
/-- The length and the CRC are good (R351, R355). -/
def dgramGood (b : List Byte) : Bool := dgramSized b && decide (natAt b (b.length - 4) 4 = crc32c (b.take (b.length - 4)))
/-- A datagram accepted as a request here. -/
def State.acceptHere (s : State) (q : ReqCtx) (via : Via) (b : List Byte) : State × Nat :=
  s.acceptPart q (natAt b 0 1) (reqMore b) via (reqParams b)

/-- The entry hub waits for the reply of a forwarded command, if one is due (R364). -/
def State.awaitReply (s : State) (q : ReqCtx) (more : Bool) : State :=
  let x := s.hs
  let due := s.lt + max (s.fld R.CMD_CFG F.CMD_CFG_FWDTMO) 1 * 1000000 * nsU
  s.setHs { x with xid := (x.xid + 1) % 65536, late := x.late.erase q.xid,
                   fwd := if q.due && !more then x.fwd ++ [(q, due)] else x.fwd }
/-- Remember a ring-wide message (R353), the latest 1,024 of them. -/
def State.noteSeen (s : State) (key : Nat × Nat) : State :=
  s.setHs { s.hs with seen := (s.hs.seen ++ [key]).drop (s.hs.seen.length + 1 - 1024) }
/-- The entry hub forwards a unicast command (R353, R358, R364, R366). -/
def State.forwardCmd (s : State) (q : ReqCtx) (b : List Byte) : State × Nat :=
  if s.pathBlocked q then s.refuseAt q stPath
  else match s.seg.find? (fun h => decide (h.id = q.target)) with
    | none => (if q.due && !reqMore b then s.sendReply q stNohub [] else s, stOk)
    | some h =>
      if q.due ∧ !reqMore b ∧ 128 ≤ s.hs.fwd.length then s.refuseAt q stBusy
      else ((s.sendVc2 h.link q q.target q.path 0 b).awaitReply q (reqMore b), stOk)
/-- A good request datagram enters the segment here (R350, R353, R365). -/
def State.enter (s : State) (path saddr sport : Nat) (via : Via) (b : List Byte) : State × Nat :=
  let q := reqCtx s.hubId path s.hs.xid saddr sport false b
  if q.target = 0xFFFF then
    let s := (s.sendVc2 0 q 0xFFFF (16 + path) 0 b).sendVc2 1 q 0xFFFF (16 + path) 0 b
    let s := s.noteSeen (q.entry, q.xid)
    let s := s.setHs { s.hs with xid := (s.hs.xid + 1) % 65536, late := s.hs.late.erase q.xid }
    s.acceptHere q via b
  else if q.target = s.hubId then
    if !s.idConflict then s.acceptHere q via b
    else if q.due ∧ !reqMore b ∧ 128 ≤ s.hs.fwd.length then s.refuseAt q stBusy
    else (s.awaitReply q (reqMore b), stOk)
  else s.forwardCmd q b
/-- Headstock takes commands: it has started and is not restarting (Table 16.7). -/
def State.hsReady (s : State) : Bool := s.flt.started && !s.flt.restarting
/-- A command datagram at the command port of the active exit (R351, R355). -/
def State.recvUdp (s : State) (p : Fin 2) (saddr sport : Nat) (b : List Byte) : State :=
  if !s.hsReady then s
  else if !dgramGood b then s.crcDiscard
  else if 128 ≤ natAt b 1 1 then s
  else (s.enter 0 saddr sport (.port p) b).1
/-- CMD_SEND (R377, R378): the status that its result byte carries. -/
def State.cmdSendStatus (s : State) (b : List Byte) : State × Nat :=
  if !dgramGood b then (s.crcDiscard, stSpicrc)
  else if 128 ≤ natAt b 1 1 then (s, stBadop)
  else if 8 ≤ s.hs.spiq.length then s.refuseAt (reqCtx s.hubId 1 s.hs.xid 0 0 false b) stBusy
  else s.enter 1 0 0 .spi b
/-- A CMD_SEND frame with its datagram (R377). -/
def State.cmdSend (s : State) (b : List Byte) : State :=
  if !s.hsReady then s
  else
    let (s, st) := s.cmdSendStatus b
    s.emit (.spi (3 + b.length) (beBytes 1 (0x80 + st)))

/-- The datagram a row's operands spell (Table 13.3). -/
def reqDgram (r : CmdReq) (op : Nat) : List Byte :=
  let body := beBytes 1 r.ver.val ++ beBytes 1 op ++ beBytes 1 (128 * b2n r.ackreq + 64 * b2n r.more + r.tag.val) ++ beBytes 1 0
    ++ beBytes 2 r.target.val ++ beBytes 2 r.params.length ++ beBytes 4 r.sseq.toNat ++ beBytes 4 r.srcid.toNat ++ r.params
  body ++ beBytes 4 (crc32c body ^^^ r.crcErr.toNat)
/-- A command arrives by its way in (R350). -/
def State.command (s : State) (op : Nat) (r : CmdReq) : State :=
  match r.entry with
  | .spi => s.cmdSend (reqDgram r op)
  | .net p addr sport =>
    if s.isActive p.val && decide (s.tmode p.val = 0) then s.recvUdp p addr.toNat sport.val (reqDgram r op) else s

/-- A reply of a command that entered at this hub is on time (R364): the wait ends; one that comes after TIMEOUT is discarded. -/
def State.replyDue (s : State) (entry xid : Nat) : State × Bool :=
  if entry ≠ s.hubId then (s, true)
  else if s.hs.late.contains xid then (s, false)
  else (s.setHs { s.hs with fwd := s.hs.fwd.filter (fun f => decide (f.1.xid ≠ xid)) }, true)
/-- A VC2 message goes on with HOPS incremented (R353). -/
def State.vc2Pass (s : State) (k : Nat) (head body : List Byte) : State :=
  let q : ReqCtx := { reqCtx (natAt head 0 2) 0 (natAt head 6 2) (natAt head 8 16) (natAt head 24 2) true [] with op := 0 }
  s.sendVc2 k q (natAt head 2 2) (natAt head 4 1 % 64) (natAt head 5 1 + 1) body
/-- A reply travels on (R353). -/
def State.vc2Reply (s : State) (k : Nat) (head body : List Byte) : State :=
  let (s, ok) := s.replyDue (natAt head 0 2) (natAt head 6 2)
  if !ok then s
  else if natAt head 4 1 % 4 = 0 then
    match s.exitPort with
    | some p => s.sendCmdUdp p (udpAddr (natAt head 8 16)) (natAt head 24 2) body
    | none =>
      match s.upLink with
      | some u => s.vc2Pass u head body
      | none => s
  else if natAt head 2 2 = s.hubId then s.spiRing k body
  else s.vc2Pass (1 - k) head body
/-- A command is executed here along the ring (R353, R355). -/
def State.vc2Run (s : State) (k : Fin 2) (head body : List Byte) : State :=
  if !s.hsReady then s
  else if !dgramGood body then s.crcDiscard
  else if 128 ≤ natAt body 1 1 then s
  else (s.acceptHere (reqCtx (natAt head 0 2) (natAt head 4 1 % 4) (natAt head 6 2) (natAt head 8 16) (natAt head 24 2) true body)
    (.link k) body).1
/-- A complete VC2 message (R353); padding behind the datagram is cut off. A command for another hub goes on, unless NETWR = 0 here closes its
path (R366). -/
def State.vc2Message (s : State) (k : Fin 2) (head body : List Byte) : State :=
  let flags := natAt head 4 1
  let body := body.take (20 + natAt body 6 2)
  if 15 ≤ natAt head 5 1 ∨ 2 ≤ flags % 4 then s
  else if flags.testBit 5 then s.vc2Reply k.val head body
  else if flags.testBit 4 then
    let key := (natAt head 0 2, natAt head 6 2)
    if s.hs.seen.contains key then s
    else ((s.noteSeen key).vc2Pass (1 - k.val) head body).vc2Run k head body
  else if natAt head 2 2 = s.hubId then
    if s.idConflict then s else s.vc2Run k head body
  else
    let q := reqCtx (natAt head 0 2) (flags % 4) (natAt head 6 2) (natAt head 8 16) (natAt head 24 2) true body
    if s.hsReady && dgramGood body && decide (natAt body 1 1 < 128) && s.pathBlocked q then (s.refuseAt q stPath).1
    else s.vc2Pass (1 - k.val) head body
/-- A VC2 cell (R352): messages are put together by ENTRY and XID, and routed when complete. -/
def State.vc2Cell (s : State) (k : Fin 2) (b : List Byte) : State :=
  if b.length < 28 then s
  else
    let head := b.take 28
    let entry := natAt b 0 2
    let xid := natAt b 6 2
    let mine := fun (x : Vc2Part) => decide (x.entry = entry) && decide (x.xid = xid) && decide (x.link = k.val)
    let old := s.hs.vc2.find? mine
    let s := s.setHs { s.hs with vc2 := s.hs.vc2.filter (fun x => !mine x) }
    let part : Option Vc2Part :=
      if (natAt b 4 1).testBit 7 then some ⟨entry, xid, k.val, head, b.drop 28, s.lt⟩
      else old.map (fun x => { x with bytes := x.bytes ++ b.drop 28 })
    match part with
    | none => s
    | some x =>
      if (natAt b 4 1).testBit 6 then s.vc2Message k x.head x.bytes
      else s.setHs { s.hs with vc2 := s.hs.vc2 ++ [x] }

/-- COMMAND_PART (R360): a part with MORE = 1. -/
def execCommandPart (op : Fin 128) (r : CmdReq) (s : State) : Res := s.act! (s.command op.val { r with more := true })
/-- PARTS_TIMEOUT (R360). -/
def execPartsTimeout (srcid : BitVec 32) (tag : Fin 64) (s : State) : Res :=
  s.act! (match s.partOf (srcid.toNat, tag.val) with
    | some x => (s.moveTo (x.heard + partGap)).endParts x
    | none => s)
/-- IDENT (R368). -/
def execIdent (r : CmdReq) (s : State) : Res := s.act! (s.command 0x01 r)
/-- READ (R368). -/
def execRead (r : CmdReq) (s : State) : Res := s.act! (s.command 0x02 r)
/-- WRITE (R368). -/
def execWrite (r : CmdReq) (s : State) : Res := s.act! (s.command 0x03 r)
/-- WRITE_MASK (R369). -/
def execWriteMask (r : CmdReq) (s : State) : Res := s.act! (s.command 0x04 r)
/-- READ_LIST (R368). -/
def execReadList (r : CmdReq) (s : State) : Res := s.act! (s.command 0x05 r)
/-- WRITE_LIST (R369). -/
def execWriteList (r : CmdReq) (s : State) : Res := s.act! (s.command 0x06 r)
/-- READ_WORD (R370). -/
def execReadWord (r : CmdReq) (s : State) : Res := s.act! (s.command 0x08 r)
/-- SNAPSHOT (R371). -/
def execSnapshot (r : CmdReq) (s : State) : Res := s.act! (s.command 0x10 r)
/-- CAPTURE (R372). -/
def execCapture (r : CmdReq) (s : State) : Res := s.act! (s.command 0x11 r)
/-- RING_INFO (R373). -/
def execRingInfo (r : CmdReq) (s : State) : Res := s.act! (s.command 0x18 r)
/-- SET_HUBID (R367). -/
def execSetHubid (r : CmdReq) (s : State) : Res := s.act! (s.command 0x19 r)
/-- POWER of kind level (R374). -/
def execPowerLevel (r : CmdReq) (s : State) : Res := s.act! (s.command 0x20 r)
/-- POWER of kind mode (R374). -/
def execPowerMode (r : CmdReq) (s : State) : Res := s.act! (s.command 0x20 r)
/-- RESET (R374). -/
def execReset (r : CmdReq) (s : State) : Res := s.act! (s.command 0x21 r)
/-- COMMAND_RESET_EXPIRY (R374). -/
def execCommandResetExpiry (s : State) : Res :=
  s.act! (match s.pwr.cmdReset with
    | some t => (s.moveTo t).fullReset 4 false
    | none => s)
/-- SAFE_PARAM (R375, R407). -/
def execSafeParam (r : CmdReq) (s : State) : Res := s.act! (s.command 0x30 r)
/-- SAFE_TLG (R375, R417). -/
def execSafeTlg (r : CmdReq) (s : State) : Res := s.act! (s.command 0x31 r)
/-- VC2_CELL_RX (R352, R353). -/
def execVc2CellRx (k : Fin 2) (payload : List Byte) (s : State) : Res := s.act! (s.vc2Cell k payload)
/-- VC2_REASSEMBLY_TIMEOUT (R352): incomplete for 10 ms. -/
def execVc2ReassemblyTimeout (entry xid : Fin 65536) (s : State) : Res :=
  s.act! (
    let mine := fun (x : Vc2Part) => decide (x.entry = entry.val) && decide (x.xid = xid.val)
    match s.hs.vc2.find? mine with
    | some x =>
      let s := s.moveTo (x.since + partGap)
      s.setHs { s.hs with vc2 := s.hs.vc2.filter (fun y => !(mine y && decide (y.since + partGap ≤ s.lt))) }
    | none => s)
/-- FORWARD_TIMEOUT (R364). -/
def execForwardTimeout (xid : Fin 65536) (s : State) : Res :=
  s.act! (match s.hs.fwd.find? (fun f => decide (f.1.xid = xid.val)) with
    | some (q, due) =>
      let s := s.moveTo due
      let s := s.setHs { s.hs with fwd := s.hs.fwd.filter (fun f => decide (f.1.xid ≠ xid.val)), late := s.hs.late ++ [xid.val] }
      (s.raiseHub 250).sendReply q stTimeout []
    | none => s)

/-- A frame of `n` bytes, each answered by 0x00, then its result byte with what follows it (R376). DESIGN CHOICE (log 121): bytes clocked
after the frame before its result is ready are not counted. -/
def State.spiResult (s : State) (n st : Nat) (data : List Byte) : State := s.emit (.spi n (beBytes 1 (0x80 + st) ++ data))
/-- Bytes of a REG_READ frame (Table 13.6). -/
def regReadLen : Nat := 13
/-- Bytes of a REG_WRITE frame with `n` words (Table 13.6). -/
def regWriteLen (n : Nat) : Nat := 13 + 4 * n
/-- A REG_READ frame (R377): its data ends with a CRC over the result byte and the data. -/
def State.regRead (s : State) (a n stride : Nat) : State :=
  let l := strided a n stride
  if n = 0 ∨ 256 < n then s.spiResult regReadLen stBadlen []
  else if !l.all addrOk then s.spiResult regReadLen stBadaddr []
  else
    let (s, ws, stale) := s.readAll l
    let st := if stale then stStale else stOk
    s.spiResult regReadLen st (wordBytes ws ++ beBytes 4 (crc32c (beBytes 1 (0x80 + st) ++ wordBytes ws)))
/-- REG_READ (R377, R378). -/
def execRegRead (a : Word) (n stride : Fin 65536) (crcErr : BitVec 32) (s : State) : Res :=
  s.act! (if !s.hsReady then s
    else if crcErr ≠ 0 then s.spiResult regReadLen stSpicrc []
    else s.regRead a.toNat n.val stride.val)
/-- A REG_WRITE frame (R377): FILL writes its one word to every address. -/
def State.regWrite (s : State) (a n stride : Nat) (words : List Word) : State :=
  let len := regWriteLen words.length
  if n = 0 ∨ 256 < n then s.spiResult len stBadlen []
  else
    let fill := decide (32768 ≤ stride)
    let ws := (List.range n).map (fun j => (a + strideOf stride * j, (words[if fill then 0 else j]?).getD 0))
    let (s, st) := s.accessWrite .spi ws
    s.spiResult len st []
/-- REG_WRITE (R377, R378): a frame short of its words ends before its last byte and is discarded; one with too many has no
valid CRC where it belongs. -/
def execRegWrite (a : Word) (n stride : Fin 65536) (words : List Word) (crcErr : BitVec 32) (s : State) : Res :=
  s.act! (
    let need := if 32768 ≤ stride.val then 1 else n.val
    if !s.hsReady ∨ words.length < need then s
    else if crcErr ≠ 0 ∨ need < words.length then s.spiResult (regWriteLen words.length) stSpicrc []
    else s.regWrite a.toNat n.val stride.val words)
/-- CMD_SEND (R377). -/
def execCmdSend (datagram : List Byte) (s : State) : Res := s.act! (s.cmdSend datagram)
/-- CMD_RECV (R378): the reply leaves the queue when its last byte is clocked out. -/
def execCmdRecv (clocked : Nat) (s : State) : Res :=
  s.act! (if !s.hsReady then s
    else
      let r := (s.hs.spiq.head?).getD []
      let bs := beBytes 1 0x80 ++ beBytes 2 r.length ++ r
      let s := s.emit (.spi 1 (bs.take clocked))
      if bs.length ≤ clocked then s.spiPop else s)
/-- SPI_BAD_FRAME (R377): a first byte of no frame yields BADOP; one of a frame that then ends is discarded (R378). -/
def execSpiBadFrame (b : Fin 256) (s : State) : Res :=
  s.act! (if s.hsReady && !([1, 2, 3, 4].contains b.val) then s.spiResult 1 stBadop [] else s)
/-- SPI_FRAME_ABORT (R378): the frame is discarded. -/
def execSpiFrameAbort (s : State) : Res := s.act! s

end Sys2Proof.Machine
end

