-- ==== Sys2Proof/Machine/Cells.lean ====
section
/-! DEFINITION. Arrivals from outside: frames at the network ports (R320 to R322) and cells on the Chainpo links (R329, R332),
handed to what they carry. -/
namespace Sys2Proof.Machine

/-- A datagram for Headstock is addressed to the port and its UDP checksum is good (Table 12.1, R322; log 83). -/
def State.dgramOk (s : State) (p : Nat) (f : Frame) : Bool :=
  match f.service with
  | .command addr sport payload =>
    s.ownIp p f.head.v6 f.dst.toNat
      && udpSumOk f.head.v6 f.sum.val (udpSum f.head.v6 addr.toNat f.dst.toNat sport.val f.head.port.val payload)
  | _ => true
/-- A frame arrives (R320 to R322): at the active exit it is accepted for its service, or discarded and counted; any other port
discards and counts it. A command goes to Headstock; what the other services do, their own commands of this model say. -/
def State.frameIn (s : State) (p : Fin 2) (f : Frame) : State :=
  s.rxGate p.val f.head f.service (
    if !s.dgramOk p.val f then s.bump (R.NET_STAT p.val) F.NET_STAT_RXDROP
    else match f.service with
      | .command addr sport payload => s.recvUdp p addr.toNat sport.val payload
      | _ => s)
/-- FRAME_RX (R322). -/
def execFrameRx (p : Fin 2) (f : Frame) (s : State) : Res := s.act! (s.frameIn p f)

/-- A number as an operand of 8 or 16 bits. -/
def fin8 (n : Nat) : Fin 256 := ⟨n % 256, Nat.mod_lt _ (by decide)⟩
def fin16 (n : Nat) : Fin 65536 := ⟨n % 65536, Nat.mod_lt _ (by decide)⟩
/-- A VC0 message (Tables 12.7 to 12.9); one of another type or length, or with an LT that is none, is not acted on. -/
def State.vc0Deliver (s : State) (k : Nat) (b : List Byte) : State :=
  match decide (b.length = 24), ltAt b 8 with
  | true, some t =>
    if natAt b 0 1 = 1 then
      s.enumRx k (natAt b 1 1) (natAt b 2 2) (natAt b 4 1 % 4) (natAt b 5 1 % 64) t
    else if natAt b 0 1 = 2 ∧ natAt b 5 1 < 2 then
      s.exitEventRx k (natAt b 1 1) (natAt b 2 2) (natAt b 4 1) (natAt b 5 1) (natAt b 6 2) t
    else if natAt b 0 1 = 4 then s.fullTimeWord k (natAt b 1 1 % 16) (natAt b 2 1) t
    else s
  | _, _ => s
/-- A VC1 message (R332). -/
def State.vc1Deliver (s : State) (k : Nat) (b : List Byte) : State :=
  match decide (b.length = 24), ltAt b 8 with
  | true, some t =>
    let m : Vc1Msg := ⟨fin8 (natAt b 4 1), fin8 (natAt b 5 1), fin16 (natAt b 6 2), ⟨ltSec t, ltNs t, ltFrac t⟩⟩
    if natAt b 0 1 = 0x10 then s.ringTrigger k m
    else if natAt b 0 1 = 0x11 then s.snapBroadcast k m
    else if natAt b 0 1 = 0x12 then s.timeNotice k m
    else s
  | _, _ => s
/-- A confirmation or drop entry (R334): for a context of this hub, or on along the ring. -/
def State.vc4Deliver (s : State) (k : Nat) (b : List Byte) : State :=
  let sctx := natAt b 2 2
  if b.length ≠ 8 then s
  else if natAt b 0 2 ≠ s.hubId then s.sendCell (1 - k) 4 b
  else
    let c := sctx % 512
    let s := s.ggeConfirm c (natAt b 4 4)
    if sctx.testBit 15 then s.dropPkt c (natAt b 4 4) else s.confirm c (natAt b 4 4)
/-- A cell of a mirror image (R332, R341): every cell begins with MTYPE; the image is complete at the length its counts give. -/
def State.vc5Deliver (s : State) (k : Nat) (b : List Byte) : State :=
  let x := s.lk k
  if natAt b 0 1 ≠ 3 then s
  else
    let img := if x.mirror = [] then b else x.mirror ++ b.drop 1
    if 160 ≤ img.length ∧ mirLen img ≤ img.length then
      (s.setLk k { x with mirror := [] }).mirrorRx k (img.take (mirLen img))
    else s.setLk k { x with mirror := img }
/-- A good cell is delivered on its virtual channel (Table 12.4). -/
def State.deliverCell (s : State) (k : Fin 2) (vc : Nat) (b : List Byte) : State :=
  if vc = 0 then s.vc0Deliver k.val b
  else if vc = 1 then s.vc1Deliver k.val b
  else if vc = 2 then s.vc2Cell k b
  else if vc = 3 then s.streamCell k.val b
  else if vc = 4 then s.vc4Deliver k.val b
  else s.vc5Deliver k.val b
/-- A reply that waits in the ring for room in the SPI queue keeps the blocks of its last cell (R378; log 118). -/
def State.holdCredit (s : State) (n : Nat) : State :=
  s.setHs { s.hs with ringw := s.hs.ringw.dropLast ++ ((s.hs.ringw.getLast?).map (fun w => (w.1, n, w.2.2))).toList }
/-- CELL_RX (R329, R331): a good cell is acknowledged and delivered. -/
def execCellRx (k : Fin 2) (header : BitVec 64) (payload : List Byte) (s : State) : Res :=
  s.act! (match s.cellCheck k.val header.toNat payload with
    | (s, some (vc, b)) =>
      let n := (s.lk (1 - k.val)).waiting.length
      let m := s.hs.ringw.length
      let s := s.deliverCell k vc b
      if m < s.hs.ringw.length then s.holdCredit (cellLen b + 1) else s.settleCredit k.val vc (cellLen b + 1) n
    | (s, none) => s)

end Sys2Proof.Machine
end

