-- ==== Sys2Proof/Machine/SafetyRows.lean ====
section
/-! DEFINITION. The safety cycle and the cross-channel word (R402, R403), with the answers to telegrams that Headstock sends. -/
namespace Sys2Proof.Machine

/-- SAFETY_CYCLE (R402): the steps of Table 15.2, and the answers to the telegrams it refused (R418). -/
def execSafetyCycle (o : CycleObs) (s : State) : Res := s.act! ((s.safetyCycle o).drainAnswers)

/-- Channel B's CRC of the oldest reply telegram formed (R403): the reply is sent when both CRCs agree; else it is withheld and
source 225 raised. -/
def State.replyCrc (s : State) (crc : Nat) : State :=
  match s.tls.replies with
  | [] => s
  | r :: rest =>
    if r.2.length = 4 then s
    else
      let s := s.setTls { s.tls with replies := rest }
      if crc = crc32c r.2 then s.finish r.1 stOk r.2
      else (s.setHs { s.hs with flight := s.hs.flight.erase r.1.key }).raiseHub 225
/-- A word of the other channel (R403): the cycle form waits for step 7; of the fragments B sends only reply CRCs. -/
def State.crossWord (s : State) (w : Nat) : State :=
  if bitsOf w 63 62 = 0 then s.setTls { s.tls with word := some w }
  else if bitsOf w 63 62 = 1 ∧ bitsOf w 61 60 = 2 then s.replyCrc (bitsOf w 47 16)
  else s
/-- CROSS_CHANNEL_WORD (R403): a word of FE0's die link (R25). -/
def execCrossChannelWord (w : DieBody) (s : State) : Res :=
  s.act! (s.dieReceive 0 0x30 w.payload.toNat w.crc.val (fun s => s.crossWord w.payload.toNat))

end Sys2Proof.Machine
end

