-- ==== Sys2Proof/Machine/Dispatch.lean ====
section
/-! DEFINITION. What each command does: one arm per row of spec/opcode_table.json. -/
namespace Sys2Proof.Machine

/-- The effect of a command on everything but the queue. -/
def exec (i : Instr) (s : State) : Host.Outcome State Fault Refusal :=
  match i with
  | .pairLowerRead a => Sys2Proof.Machine.execPairLowerRead a s
  | .pairLowerWrite a v => Sys2Proof.Machine.execPairLowerWrite a v s
  | .pairUpperWrite a v => Sys2Proof.Machine.execPairUpperWrite a v s
  | .registerWrite a v => Sys2Proof.Machine.execRegisterWrite a v s
  | .aliasWrite a v => Sys2Proof.Machine.execAliasWrite a v s
  | .gougeImageWrite a v => Sys2Proof.Machine.execGougeImageWrite a v s
  | .snapPinEdge ph => Sys2Proof.Machine.execSnapPinEdge ph s
  | .snapCtrlSoft v => Sys2Proof.Machine.execSnapCtrlSoft v s
  | .snapshotBroadcastRx k m => Sys2Proof.Machine.execSnapshotBroadcastRx k m s
  | .snapshotStrobe => Sys2Proof.Machine.execSnapshotStrobe s
  | .snapshotTransferDone => Sys2Proof.Machine.execSnapshotTransferDone s
  | .windowEdge g obs => Sys2Proof.Machine.execWindowEdge g obs s
  | .windowResult d w => Sys2Proof.Machine.execWindowResult d w s
  | .resultDeadline n => Sys2Proof.Machine.execResultDeadline n s
  | .openWireCleared n => Sys2Proof.Machine.execOpenWireCleared n s
  | .dieLinkBadWord d typ payload crc => Sys2Proof.Machine.execDieLinkBadWord d typ payload crc s
  | .dieLinkNakRx d w => Sys2Proof.Machine.execDieLinkNakRx d w s
  | .dieLinkAckRx d w => Sys2Proof.Machine.execDieLinkAckRx d w s
  | .dieLinkDown d => Sys2Proof.Machine.execDieLinkDown d s
  | .dieLinkRetry d => Sys2Proof.Machine.execDieLinkRetry d s
  | .dieLinkUp d restart => Sys2Proof.Machine.execDieLinkUp d restart s
  | .feRegisterWriteArrival d => Sys2Proof.Machine.execFeRegisterWriteArrival d s
  | .dieLinkReadResponse d a w => Sys2Proof.Machine.execDieLinkReadResponse d a w s
  | .sequencerEventWord d w => Sys2Proof.Machine.execSequencerEventWord d w s
  | .faultReportWord d w => Sys2Proof.Machine.execFaultReportWord d w s
  | .gridMark => Sys2Proof.Machine.execGridMark s
  | .spnLtsRead => Sys2Proof.Machine.execSpnLtsRead s
  | .syncRx m ph frq => Sys2Proof.Machine.execSyncRx m ph frq s
  | .followUpRx m frq => Sys2Proof.Machine.execFollowUpRx m frq s
  | .delayReqSend t ph => Sys2Proof.Machine.execDelayReqSend t ph s
  | .delayRespRx m frq => Sys2Proof.Machine.execDelayRespRx m frq s
  | .pdelayReqSend ph => Sys2Proof.Machine.execPdelayReqSend ph s
  | .pdelayReqRx m ph => Sys2Proof.Machine.execPdelayReqRx m ph s
  | .pdelayRespRx m followUp ph => Sys2Proof.Machine.execPdelayRespRx m followUp ph s
  | .announceRx m => Sys2Proof.Machine.execAnnounceRx m s
  | .announceReceiptTimeout t => Sys2Proof.Machine.execAnnounceReceiptTimeout t s
  | .syncTimeout t => Sys2Proof.Machine.execSyncTimeout t s
  | .ppsInEdge ph frq => Sys2Proof.Machine.execPpsInEdge ph frq s
  | .ppsMissing => Sys2Proof.Machine.execPpsMissing s
  | .tcExchangeTimeout => Sys2Proof.Machine.execTcExchangeTimeout s
  | .trackerQualified t => Sys2Proof.Machine.execTrackerQualified t s
  | .trackerLockChange t => Sys2Proof.Machine.execTrackerLockChange t s
  | .domainDisagreement => Sys2Proof.Machine.execDomainDisagreement s
  | .holdExpired => Sys2Proof.Machine.execHoldExpired s
  | .spnSwForce v => Sys2Proof.Machine.execSpnSwForce v s
  | .revertSwitch => Sys2Proof.Machine.execRevertSwitch s
  | .spnCtrlStep v => Sys2Proof.Machine.execSpnCtrlStep v s
  | .startAfterStep g => Sys2Proof.Machine.execStartAfterStep g s
  | .refclkLoss => Sys2Proof.Machine.execRefclkLoss s
  | .refclkRelock cycles => Sys2Proof.Machine.execRefclkRelock cycles s
  | .regionRestart g => Sys2Proof.Machine.execRegionRestart g s
  | .ppsOutRise => Sys2Proof.Machine.execPpsOutRise s
  | .ppsOutFall => Sys2Proof.Machine.execPpsOutFall s
  | .cmpArm m v => Sys2Proof.Machine.execCmpArm m v s
  | .cmpFire m => Sys2Proof.Machine.execCmpFire m s
  | .cmpCtrlDisarm m v => Sys2Proof.Machine.execCmpCtrlDisarm m v s
  | .trigOutPulseEnd => Sys2Proof.Machine.execTrigOutPulseEnd s
  | .timeExchangeStart => Sys2Proof.Machine.execTimeExchangeStart s
  | .timeT1Rx k xseq stamp ph => Sys2Proof.Machine.execTimeT1Rx k xseq stamp ph s
  | .fullTimeWordRx k xseq tstat sender t => Sys2Proof.Machine.execFullTimeWordRx k xseq tstat sender t s
  | .timeT3Rx k xseq stamp ph => Sys2Proof.Machine.execTimeT3Rx k xseq stamp ph s
  | .timeT4Rx k xseq stamp frq => Sys2Proof.Machine.execTimeT4Rx k xseq stamp frq s
  | .timeStatusNoticeRx k m => Sys2Proof.Machine.execTimeStatusNoticeRx k m s
  | .referenceDeviation p on => Sys2Proof.Machine.execReferenceDeviation p on s
  | .senseOpen c on => Sys2Proof.Machine.execSenseOpen c on s
  | .excRegulationFault c on => Sys2Proof.Machine.execExcRegulationFault c on s
  | .excDropout c on => Sys2Proof.Machine.execExcDropout c on s
  | .vexcLow g on => Sys2Proof.Machine.execVexcLow g on s
  | .excCurrentLimit c l => Sys2Proof.Machine.execExcCurrentLimit c l s
  | .excShutdown c => Sys2Proof.Machine.execExcShutdown c s
  | .cluExcCtrlClrShut c v => Sys2Proof.Machine.execCluExcCtrlClrShut c v s
  | .excAutoReversal c => Sys2Proof.Machine.execExcAutoReversal c s
  | .excRampEnd c => Sys2Proof.Machine.execExcRampEnd c s
  | .settlePeriodEnd c => Sys2Proof.Machine.execSettlePeriodEnd c s
  | .excMeasUpdate c imeas vsense vdrive vhead => Sys2Proof.Machine.execExcMeasUpdate c imeas vsense vdrive vhead s
  | .integratorCheckDone k levelBad refBad => Sys2Proof.Machine.execIntegratorCheckDone k levelBad refBad s
  | .strobeMisaligned d => Sys2Proof.Machine.execStrobeMisaligned d s
  | .rgnCtrlStart g v => Sys2Proof.Machine.execRgnCtrlStart g v s
  | .rgnCtrlStop g v => Sys2Proof.Machine.execRgnCtrlStop g v s
  | .regionStartPoint g => Sys2Proof.Machine.execRegionStartPoint g s
  | .mainsEdge ph => Sys2Proof.Machine.execMainsEdge ph s
  | .mainsHold => Sys2Proof.Machine.execMainsHold s
  | .mainsHoldEnd => Sys2Proof.Machine.execMainsHoldEnd s
  | .comparatorCrossing n => Sys2Proof.Machine.execComparatorCrossing n s
  | .burstEnd n => Sys2Proof.Machine.execBurstEnd n s
  | .comparatorHoldoffEnd n => Sys2Proof.Machine.execComparatorHoldoffEnd n s
  | .comparatorOverrun n => Sys2Proof.Machine.execComparatorOverrun n s
  | .comparatorStuck n => Sys2Proof.Machine.execComparatorStuck n s
  | .comparatorBandReentry l => Sys2Proof.Machine.execComparatorBandReentry l s
  | .halt g => Sys2Proof.Machine.execHalt g s
  | .nop g => Sys2Proof.Machine.execNop g s
  | .waitCmp g => Sys2Proof.Machine.execWaitCmp g s
  | .cal g => Sys2Proof.Machine.execCal g s
  | .imp g => Sys2Proof.Machine.execImp g s
  | .calimp g => Sys2Proof.Machine.execCalimp g s
  | .calNext g => Sys2Proof.Machine.execCalNext g s
  | .impNext g => Sys2Proof.Machine.execImpNext g s
  | .calimpNext g => Sys2Proof.Machine.execCalimpNext g s
  | .excSet g => Sys2Proof.Machine.execExcSet g s
  | .excPol g => Sys2Proof.Machine.execExcPol g s
  | .mark g => Sys2Proof.Machine.execMark g s
  | .jump g => Sys2Proof.Machine.execJump g s
  | .waitIdle g => Sys2Proof.Machine.execWaitIdle g s
  | .seqInvalidEntry g => Sys2Proof.Machine.execSeqInvalidEntry g s
  | .seqDelayExpiry g => Sys2Proof.Machine.execSeqDelayExpiry g s
  | .rgnSeqRunSet g v => Sys2Proof.Machine.execRgnSeqRunSet g v s
  | .rgnSeqRunClear g v => Sys2Proof.Machine.execRgnSeqRunClear g v s
  | .autoScheduleImp g => Sys2Proof.Machine.execAutoScheduleImp g s
  | .autoScheduleCal g => Sys2Proof.Machine.execAutoScheduleCal g s
  | .chSteadyCtrlCalReq n v => Sys2Proof.Machine.execChSteadyCtrlCalReq n v s
  | .chSteadyCtrlImpReq n v => Sys2Proof.Machine.execChSteadyCtrlImpReq n v s
  | .chSteadyCtrlRetest n v => Sys2Proof.Machine.execChSteadyCtrlRetest n v s
  | .sprCtrlCalReq c v => Sys2Proof.Machine.execSprCtrlCalReq c v s
  | .sprCtrlRetest c v => Sys2Proof.Machine.execSprCtrlRetest c v s
  | .calibrationDone k m => Sys2Proof.Machine.execCalibrationDone k m s
  | .calTimeout k => Sys2Proof.Machine.execCalTimeout k s
  | .calOverdue n => Sys2Proof.Machine.execCalOverdue n s
  | .impedanceCheckDone n m => Sys2Proof.Machine.execImpedanceCheckDone n m s
  | .chImpCfgSetref n v => Sys2Proof.Machine.execChImpCfgSetref n v s
  | .refillEnd n => Sys2Proof.Machine.execRefillEnd n s
  | .fillEnd n => Sys2Proof.Machine.execFillEnd n s
  | .chainOutput n => Sys2Proof.Machine.execChainOutput n s
  | .chBqCtrlCommit n v => Sys2Proof.Machine.execChBqCtrlCommit n v s
  | .statisticsBlockEnd n => Sys2Proof.Machine.execStatisticsBlockEnd n s
  | .switchChange n w => Sys2Proof.Machine.execSwitchChange n w s
  | .chOutWRead n => Sys2Proof.Machine.execChOutWRead n s
  | .capCtrlArm b v => Sys2Proof.Machine.execCapCtrlArm b v s
  | .capCtrlDisarm b v => Sys2Proof.Machine.execCapCtrlDisarm b v s
  | .capCtrlSoft b v => Sys2Proof.Machine.execCapCtrlSoft b v s
  | .capCtrlRel b v => Sys2Proof.Machine.execCapCtrlRel b v s
  | .captureAllocTakesEffect b => Sys2Proof.Machine.execCaptureAllocTakesEffect b s
  | .rowDecision b => Sys2Proof.Machine.execRowDecision b s
  | .captureRecordComplete b => Sys2Proof.Machine.execCaptureRecordComplete b s
  | .captureHoldEnd b => Sys2Proof.Machine.execCaptureHoldEnd b s
  | .trigInEdge falling ph => Sys2Proof.Machine.execTrigInEdge falling ph s
  | .ringTriggerRx k m => Sys2Proof.Machine.execRingTriggerRx k m s
  | .strCtrlStart c v => Sys2Proof.Machine.execStrCtrlStart c v s
  | .strCtrlStop c v => Sys2Proof.Machine.execStrCtrlStop c v s
  | .strCtrlAbort c v => Sys2Proof.Machine.execStrCtrlAbort c v s
  | .streamRowAppend c => Sys2Proof.Machine.execStreamRowAppend c s
  | .spillDrain c => Sys2Proof.Machine.execSpillDrain c s
  | .packetFlush c => Sys2Proof.Machine.execPacketFlush c s
  | .descriptorDue c => Sys2Proof.Machine.execDescriptorDue c s
  | .packetSend c stored => Sys2Proof.Machine.execPacketSend c stored s
  | .streamConfirmation c pseq => Sys2Proof.Machine.execStreamConfirmation c pseq s
  | .dropEntry c pseq => Sys2Proof.Machine.execDropEntry c pseq s
  | .gougeBlockStart => Sys2Proof.Machine.execGougeBlockStart s
  | .gougeVerifyDone mismatch => Sys2Proof.Machine.execGougeVerifyDone mismatch s
  | .gougeStallEnd => Sys2Proof.Machine.execGougeStallEnd s
  | .ggeCtrlRetest v => Sys2Proof.Machine.execGgeCtrlRetest v s
  | .gougeSelftestDone v => Sys2Proof.Machine.execGougeSelftestDone v s
  | .lneGrpRate q v => Sys2Proof.Machine.execLneGrpRate q v s
  | .lneTxeqWrite n v => Sys2Proof.Machine.execLneTxeqWrite n v s
  | .laneStateRequest n req => Sys2Proof.Machine.execLaneStateRequest n req s
  | .laneStateChangeDone n => Sys2Proof.Machine.execLaneStateChangeDone n s
  | .laneStateTimeout n => Sys2Proof.Machine.execLaneStateTimeout n s
  | .laneLos n => Sys2Proof.Machine.execLaneLos n s
  | .laneLosClear n => Sys2Proof.Machine.execLaneLosClear n s
  | .cdrLockLoss n on => Sys2Proof.Machine.execCdrLockLoss n on s
  | .eyeMeasurement n h v ctle taps => Sys2Proof.Machine.execEyeMeasurement n h v ctle taps s
  | .eqLow n => Sys2Proof.Machine.execEqLow n s
  | .pllLockLoss q => Sys2Proof.Machine.execPllLockLoss q s
  | .pllLocked q => Sys2Proof.Machine.execPllLocked q s
  | .lneCtrlTmode n via v => Sys2Proof.Machine.execLneCtrlTmode n via v s
  | .lneCtrlErrinj n v => Sys2Proof.Machine.execLneCtrlErrinj n v s
  | .prbsLock n => Sys2Proof.Machine.execPrbsLock n s
  | .prbsReseed n errors => Sys2Proof.Machine.execPrbsReseed n errors s
  | .frameRx p f => Sys2Proof.Machine.execFrameRx p f s
  | .arpRequestRx p target sender mac => Sys2Proof.Machine.execArpRequestRx p target sender mac s
  | .arpReplyRx p ip mac => Sys2Proof.Machine.execArpReplyRx p ip mac s
  | .neighbourSolicitationRx p target source => Sys2Proof.Machine.execNeighbourSolicitationRx p target source s
  | .neighbourAdvertisementRx p ip mac => Sys2Proof.Machine.execNeighbourAdvertisementRx p ip mac s
  | .icmpEchoRequest p v6 dest source ident seq => Sys2Proof.Machine.execIcmpEchoRequest p v6 dest source ident seq s
  | .destResolveRetry => Sys2Proof.Machine.execDestResolveRetry s
  | .netCtrlExitEnClear p v => Sys2Proof.Machine.execNetCtrlExitEnClear p v s
  | .linkTraining k => Sys2Proof.Machine.execLinkTraining k s
  | .trainRx k block => Sys2Proof.Machine.execTrainRx k block s
  | .linkTrained k => Sys2Proof.Machine.execLinkTrained k s
  | .chpCtrlRetrain k v => Sys2Proof.Machine.execChpCtrlRetrain k v s
  | .alignRx k block => Sys2Proof.Machine.execAlignRx k block s
  | .cellRx k header payload => Sys2Proof.Machine.execCellRx k header payload s
  | .lctlRx k block => Sys2Proof.Machine.execLctlRx k block s
  | .lctlSend k => Sys2Proof.Machine.execLctlSend k s
  | .chainpoLinkDown k => Sys2Proof.Machine.execChainpoLinkDown k s
  | .chainpoLinkRetry k => Sys2Proof.Machine.execChainpoLinkRetry k s
  | .streamCellRx k payload => Sys2Proof.Machine.execStreamCellRx k payload s
  | .exitPacketExpiry => Sys2Proof.Machine.execExitPacketExpiry s
  | .enumerationSend => Sys2Proof.Machine.execEnumerationSend s
  | .enumerationRx k hops origin links xst actLt => Sys2Proof.Machine.execEnumerationRx k hops origin links xst actLt s
  | .tableSettled => Sys2Proof.Machine.execTableSettled s
  | .exitEligible p => Sys2Proof.Machine.execExitEligible p s
  | .echoError p => Sys2Proof.Machine.execEchoError p s
  | .exitPortFailure p => Sys2Proof.Machine.execExitPortFailure p s
  | .exitEventRx k hops origin evt p target time => Sys2Proof.Machine.execExitEventRx k hops origin evt p target time s
  | .mirrorSend => Sys2Proof.Machine.execMirrorSend s
  | .mirrorRx k image => Sys2Proof.Machine.execMirrorRx k image s
  | .mirrorExpiry => Sys2Proof.Machine.execMirrorExpiry s
  | .chpRingSwitch v => Sys2Proof.Machine.execChpRingSwitch v s
  | .switchOldPortStop p => Sys2Proof.Machine.execSwitchOldPortStop p s
  | .commandPart op r => Sys2Proof.Machine.execCommandPart op r s
  | .partsTimeout srcid tag => Sys2Proof.Machine.execPartsTimeout srcid tag s
  | .ident r => Sys2Proof.Machine.execIdent r s
  | .read r => Sys2Proof.Machine.execRead r s
  | .write r => Sys2Proof.Machine.execWrite r s
  | .writeMask r => Sys2Proof.Machine.execWriteMask r s
  | .readList r => Sys2Proof.Machine.execReadList r s
  | .writeList r => Sys2Proof.Machine.execWriteList r s
  | .readWord r => Sys2Proof.Machine.execReadWord r s
  | .snapshot r => Sys2Proof.Machine.execSnapshot r s
  | .capture r => Sys2Proof.Machine.execCapture r s
  | .ringInfo r => Sys2Proof.Machine.execRingInfo r s
  | .setHubid r => Sys2Proof.Machine.execSetHubid r s
  | .powerLevel r => Sys2Proof.Machine.execPowerLevel r s
  | .powerMode r => Sys2Proof.Machine.execPowerMode r s
  | .reset r => Sys2Proof.Machine.execReset r s
  | .commandResetExpiry => Sys2Proof.Machine.execCommandResetExpiry s
  | .safeParam r => Sys2Proof.Machine.execSafeParam r s
  | .safeTlg r => Sys2Proof.Machine.execSafeTlg r s
  | .vc2CellRx k payload => Sys2Proof.Machine.execVc2CellRx k payload s
  | .vc2ReassemblyTimeout entry xid => Sys2Proof.Machine.execVc2ReassemblyTimeout entry xid s
  | .forwardTimeout xid => Sys2Proof.Machine.execForwardTimeout xid s
  | .regRead a n stride crcErr => Sys2Proof.Machine.execRegRead a n stride crcErr s
  | .regWrite a n stride words crcErr => Sys2Proof.Machine.execRegWrite a n stride words crcErr s
  | .cmdSend datagram => Sys2Proof.Machine.execCmdSend datagram s
  | .cmdRecv clocked => Sys2Proof.Machine.execCmdRecv clocked s
  | .spiBadFrame b => Sys2Proof.Machine.execSpiBadFrame b s
  | .spiFrameAbort => Sys2Proof.Machine.execSpiFrameAbort s
  | .cmdHubidWrite v => Sys2Proof.Machine.execCmdHubidWrite v s
  | .faultEvent src inst detail => Sys2Proof.Machine.execFaultEvent src inst detail s
  | .fltForceWrite w v => Sys2Proof.Machine.execFltForceWrite w v s
  | .fltStickyClear w v => Sys2Proof.Machine.execFltStickyClear w v s
  | .fltListClear src x v => Sys2Proof.Machine.execFltListClear src x v s
  | .fltCtrlClrAll v => Sys2Proof.Machine.execFltCtrlClrAll v s
  | .fltFirstValidClear v => Sys2Proof.Machine.execFltFirstValidClear v s
  | .fltLogRidxWrite v => Sys2Proof.Machine.execFltLogRidxWrite v s
  | .eccError part uncorrectable addr detail => Sys2Proof.Machine.execEccError part uncorrectable addr detail s
  | .stageHoldTimeout => Sys2Proof.Machine.execStageHoldTimeout s
  | .firmwareWatchdog => Sys2Proof.Machine.execFirmwareWatchdog s
  | .aliveToggle => Sys2Proof.Machine.execAliveToggle s
  | .selftestDone v => Sys2Proof.Machine.execSelftestDone v s
  | .selftestRequeue => Sys2Proof.Machine.execSelftestRequeue s
  | .safetyCycle o => Sys2Proof.Machine.execSafetyCycle o s
  | .crossChannelWord w => Sys2Proof.Machine.execCrossChannelWord w s
  | .telegramWatchdog => Sys2Proof.Machine.execTelegramWatchdog s
  | .cycleTimeout => Sys2Proof.Machine.execCycleTimeout s
  | .cycleFaultClear => Sys2Proof.Machine.execCycleFaultClear s
  | .inputFilterChange chB j => Sys2Proof.Machine.execInputFilterChange chB j s
  | .discrepancyTimeout j => Sys2Proof.Machine.execDiscrepancyTimeout j s
  | .testPulseStart => Sys2Proof.Machine.execTestPulseStart s
  | .testPulseEnd => Sys2Proof.Machine.execTestPulseEnd s
  | .encoderEdge x tracks fast => Sys2Proof.Machine.execEncoderEdge x tracks fast s
  | .ss1TimeLimit x => Sys2Proof.Machine.execSs1TimeLimit x s
  | .sbcRelease x => Sys2Proof.Machine.execSbcRelease x s
  | .outputOffTest x chB sbc low => Sys2Proof.Machine.execOutputOffTest x chB sbc low s
  | .safeRstEdge => Sys2Proof.Machine.execSafeRstEdge s
  | .safeRstHeld => Sys2Proof.Machine.execSafeRstHeld s
  | .paramCrcCheck ok => Sys2Proof.Machine.execParamCrcCheck ok s
  | .powerOnReset hid => Sys2Proof.Machine.execPowerOnReset hid s
  | .supplyPowerFail sup => Sys2Proof.Machine.execSupplyPowerFail sup s
  | .resetPin => Sys2Proof.Machine.execResetPin s
  | .brownOut => Sys2Proof.Machine.execBrownOut s
  | .resetRelease hid => Sys2Proof.Machine.execResetRelease hid s
  | .headstockStartDone => Sys2Proof.Machine.execHeadstockStartDone s
  | .supplyWarning sup mv => Sys2Proof.Machine.execSupplyWarning sup mv s
  | .supplyWarningClear sup => Sys2Proof.Machine.execSupplyWarningClear sup s
  | .vddcOutOfRegulation mv => Sys2Proof.Machine.execVddcOutOfRegulation mv s
  | .temperatureWarning d t => Sys2Proof.Machine.execTemperatureWarning d t s
  | .xt32Stopped => Sys2Proof.Machine.execXt32Stopped s
  | .pwrReqLevel v => Sys2Proof.Machine.execPwrReqLevel v s
  | .pwrReqMode v => Sys2Proof.Machine.execPwrReqMode v s
  | .powerChangeDone => Sys2Proof.Machine.execPowerChangeDone s
  | .powerChangeTimeout => Sys2Proof.Machine.execPowerChangeTimeout s
  | .watchWake g uv => Sys2Proof.Machine.execWatchWake g uv s
  | .wakePin => Sys2Proof.Machine.execWakePin s
  | .alarmWake => Sys2Proof.Machine.execAlarmWake s
  | .pcsLinkChange p up => Sys2Proof.Machine.execPcsLinkChange p up s
  | .datagramPassedEchoMonitor origin c pseq => Sys2Proof.Machine.execDatagramPassedEchoMonitor origin c pseq s
  | .spareAvailable c => Sys2Proof.Machine.execSpareAvailable c s

end Sys2Proof.Machine
end

