-- ==== Sys2Proof/Frames.lean ====
section
/-! DEFINITION. The parts of State, and the parts each command may change: what the frame of every command is stated with. -/
namespace Sys2Proof.Machine

/-- The parts of State, but for the queue of waiting commands. -/
inductive Part
  /-- The register file. -/
  | regs
  /-- The values in effect on the dies (R39). -/
  | effect
  /-- What leaves the hub: the answer of the last access, the outputs, and the count of free values. -/
  | outputs
  /-- The held and the latched words of register pairs (R9). -/
  | held
  /-- The fault collector's own state (chapter 14). -/
  | faults
  /-- The memory windows but for the fault log. -/
  | memory
  /-- The window of the fault log (R390). -/
  | log
  /-- Tailstock (chapter 15). -/
  | tailstock
  /-- The power unit (chapter 16). -/
  | power
  /-- The always-on count and LT. -/
  | time
  /-- Spindle (chapter 2). -/
  | spindle
  /-- The die links (section 1.5). -/
  | dieLinks
  /-- The excitation drivers (chapter 3). -/
  | drivers
  /-- The converters. -/
  | converters
  /-- The regions (chapter 4) with their operations. -/
  | regions
  /-- The channels. -/
  | channels
  /-- The mains estimator (R113). -/
  | mains
  /-- The stream contexts (chapter 9). -/
  | streams
  /-- The capture buffers (chapter 8). -/
  | captures
  /-- Gouge (chapter 10). -/
  | gouge
  /-- The gap store and the triggers seen. -/
  | gaps
  /-- The Chainpo links (chapter 12). -/
  | links
  /-- The lanes (chapter 11). -/
  | lanes
  /-- The hubs of the segment that are known. -/
  | segment
  /-- The ring and the exit (chapter 12). -/
  | ring
  /-- Headstock (chapter 13). -/
  | headstock
  /-- The snapshot unit (section 1.6). -/
  | snapshots
  deriving DecidableEq, Repr

/-- Every part. -/
def Part.every : List Part :=
  [.regs, .effect, .outputs, .held, .faults, .memory, .log, .tailstock, .power, .time, .spindle, .dieLinks, .drivers,
   .converters, .regions, .channels, .mains, .streams, .captures, .gouge, .gaps, .links, .lanes, .segment, .ring,
   .headstock, .snapshots]
/-- A part stands in `t` as in `s`. -/
def State.same (s t : State) : Part → Prop
  | .regs => ∀ a, t.reg a = s.reg a
  | .effect => t.act = s.act
  | .outputs => t.bus = s.bus ∧ t.out = s.out ∧ t.free = s.free
  | .held => t.held = s.held ∧ t.latch = s.latch
  | .faults => t.flt = s.flt ∧ t.stopReq = s.stopReq
  | .memory => ∀ a, a < logBase ∨ logBase + 8192 ≤ a → t.byte a = s.byte a
  | .log => ∀ a, logBase ≤ a → a < logBase + 8192 → t.byte a = s.byte a
  | .tailstock => t.tls = s.tls
  | .power => t.pwr = s.pwr
  | .time => t.lt = s.lt ∧ t.always = s.always
  | .spindle => t.spn = s.spn
  | .dieLinks => t.dlk = s.dlk
  | .drivers => t.clu = s.clu
  | .converters => t.conv = s.conv
  | .regions => t.rgn = s.rgn
  | .channels => t.chan = s.chan
  | .mains => t.mains = s.mains
  | .streams => t.str = s.str
  | .captures => t.cap = s.cap
  | .gouge => t.gge = s.gge
  | .gaps => t.gapStore = s.gapStore ∧ t.seenTrig = s.seenTrig
  | .links => t.lnk = s.lnk
  | .lanes => t.lane = s.lane
  | .segment => t.seg = s.seg
  | .ring => t.ring = s.ring
  | .headstock => t.hs = s.hs
  | .snapshots => t.snap = s.snap

/-- What an event of the fault collector changes (R385 to R391): its registers and its log. -/
def raiseParts : List Part := [.regs, .faults, .log]
/-- What an event may change once the tests it ends have their effect (R396, R397). -/
def eventParts : List Part := [.regs, .faults, .log, .converters, .regions, .channels, .gouge]

end Sys2Proof.Machine

open Sys2Proof.Machine in
/-- The parts of State a command may change. -/
def Sys2Proof.Instr.changes : Sys2Proof.Instr → List Part
  | .pairLowerRead .. | .regRead ..
    => raiseParts ++ [.outputs, .held, .dieLinks, .captures, .gouge]
  | .pairLowerWrite .. | .pairUpperWrite .. | .registerWrite .. | .aliasWrite .. | .gougeImageWrite .. | .frameRx .. |
    .cellRx .. | .commandPart .. | .ident .. | .read .. | .write .. | .writeMask .. | .readList .. | .writeList .. |
    .readWord .. | .snapshot .. | .capture .. | .ringInfo .. | .setHubid .. | .powerLevel .. | .powerMode .. | .reset .. |
    .safeParam .. | .safeTlg .. | .vc2CellRx .. | .regWrite .. | .cmdSend ..
    => eventParts ++ [.effect, .outputs, .held, .memory, .tailstock, .power, .time, .spindle, .dieLinks, .drivers,
      .mains, .streams, .captures, .gaps, .links, .lanes, .segment, .ring, .headstock, .snapshots]
  | .snapPinEdge .. | .snapCtrlSoft .. | .snapshotBroadcastRx ..
    => [.regs, .outputs, .gaps, .links, .snapshots]
  | .snapshotStrobe ..
    => [.regs, .time, .snapshots]
  | .snapshotTransferDone ..
    => [.regs, .snapshots]
  | .windowEdge .. | .regionRestart .. | .regionStartPoint ..
    => raiseParts ++ [.effect, .outputs, .memory, .power, .time, .spindle, .drivers, .converters, .regions,
      .channels, .streams, .captures, .gaps, .links]
  | .windowResult .. | .dieLinkUp ..
    => raiseParts ++ [.effect, .outputs, .memory, .spindle, .dieLinks, .drivers, .converters, .regions, .channels,
      .streams, .captures, .gaps, .links]
  | .resultDeadline ..
    => raiseParts ++ [.effect, .outputs, .time, .spindle, .channels, .captures, .gaps, .links]
  | .openWireCleared .. | .chSteadyCtrlCalReq .. | .chSteadyCtrlImpReq .. | .chSteadyCtrlRetest ..
    => raiseParts ++ [.regions, .channels]
  | .dieLinkBadWord .. | .dieLinkNakRx .. | .dieLinkAckRx ..
    => raiseParts ++ [.outputs, .dieLinks]
  | .dieLinkDown ..
    => eventParts ++ [.dieLinks]
  | .dieLinkRetry .. | .spiBadFrame ..
    => [.outputs]
  | .feRegisterWriteArrival .. | .rgnCtrlStart .. | .rgnCtrlStop .. | .rgnSeqRunSet .. | .rgnSeqRunClear .. |
    .sprCtrlCalReq .. | .sprCtrlRetest ..
    => raiseParts ++ [.effect, .outputs, .memory, .spindle, .dieLinks, .drivers, .regions, .channels, .streams,
      .captures, .gaps, .links]
  | .dieLinkReadResponse ..
    => raiseParts ++ [.outputs, .dieLinks, .regions]
  | .sequencerEventWord ..
    => raiseParts ++ [.outputs, .memory, .dieLinks, .regions, .streams]
  | .faultReportWord ..
    => eventParts ++ [.outputs, .dieLinks]
  | .gridMark ..
    => [.outputs, .time, .spindle, .dieLinks]
  | .spnLtsRead .. | .chOutWRead ..
    => [.outputs, .held]
  | .syncRx .. | .followUpRx .. | .delayRespRx .. | .ppsInEdge .. | .spnCtrlStep .. | .timeT4Rx ..
    => raiseParts ++ [.outputs, .tailstock, .power, .time, .spindle, .regions, .channels, .mains, .streams,
      .captures, .gaps, .links, .lanes, .ring, .headstock, .snapshots]
  | .delayReqSend .. | .pdelayReqSend .. | .ppsOutRise .. | .ppsOutFall .. | .trigOutPulseEnd ..
    => [.outputs, .time, .spindle]
  | .pdelayReqRx ..
    => [.regs, .outputs, .time]
  | .pdelayRespRx ..
    => [.regs, .spindle]
  | .announceRx .. | .spnSwForce .. | .fullTimeWordRx ..
    => raiseParts ++ [.outputs, .spindle, .gaps, .links]
  | .announceReceiptTimeout .. | .syncTimeout .. | .ppsMissing .. | .tcExchangeTimeout .. | .holdExpired .. |
    .revertSwitch .. | .timeT1Rx ..
    => raiseParts ++ [.outputs, .time, .spindle, .gaps, .links]
  | .trackerQualified ..
    => [.regs, .outputs, .time, .spindle, .gaps, .links]
  | .trackerLockChange .. | .timeStatusNoticeRx ..
    => [.regs, .outputs, .spindle, .gaps, .links]
  | .domainDisagreement ..
    => raiseParts ++ [.spindle]
  | .startAfterStep ..
    => raiseParts ++ [.time, .regions]
  | .refclkLoss ..
    => raiseParts ++ [.effect, .outputs, .memory, .spindle, .dieLinks, .drivers, .regions, .channels, .streams,
      .captures, .gaps, .links, .lanes]
  | .refclkRelock ..
    => raiseParts ++ [.outputs, .memory, .time, .spindle, .dieLinks, .regions, .mains, .streams, .captures, .gaps,
      .links, .lanes, .snapshots]
  | .cmpArm ..
    => raiseParts ++ [.outputs, .held, .spindle, .regions, .captures, .gaps, .links, .snapshots]
  | .cmpFire ..
    => raiseParts ++ [.outputs, .time, .spindle, .regions, .captures, .gaps, .links, .snapshots]
  | .cmpCtrlDisarm .. | .excMeasUpdate .. | .comparatorHoldoffEnd .. | .chImpCfgSetref .. | .captureAllocTakesEffect .. |
    .lneGrpRate .. | .lneTxeqWrite .. | .fltStickyClear .. | .fltListClear .. | .fltCtrlClrAll .. | .fltFirstValidClear ..
    | .fltLogRidxWrite ..
    => [.regs]
  | .timeExchangeStart ..
    => [.outputs, .time, .spindle, .links]
  | .timeT3Rx ..
    => [.outputs, .spindle, .links]
  | .referenceDeviation .. | .senseOpen .. | .excRegulationFault .. | .excDropout .. | .excShutdown ..
    => raiseParts ++ [.drivers]
  | .vexcLow .. | .excCurrentLimit .. | .cdrLockLoss .. | .eqLow .. | .pllLockLoss .. | .supplyWarningClear ..
    => raiseParts
  | .cluExcCtrlClrShut ..
    => [.regs, .outputs, .dieLinks, .regions]
  | .excAutoReversal ..
    => raiseParts ++ [.effect, .drivers]
  | .excRampEnd ..
    => [.regs, .drivers]
  | .settlePeriodEnd ..
    => [.drivers]
  | .integratorCheckDone ..
    => raiseParts ++ [.converters, .regions, .channels]
  | .strobeMisaligned ..
    => raiseParts ++ [.converters]
  | .mainsEdge ..
    => [.regs, .mains]
  | .mainsHold ..
    => raiseParts ++ [.time, .mains]
  | .mainsHoldEnd ..
    => raiseParts ++ [.mains]
  | .comparatorCrossing ..
    => raiseParts ++ [.outputs, .memory, .time, .spindle, .channels, .streams, .captures, .gaps, .links]
  | .burstEnd .. | .refillEnd .. | .fillEnd ..
    => [.regs, .channels]
  | .comparatorOverrun ..
    => raiseParts ++ [.outputs, .memory, .time, .channels, .streams]
  | .comparatorStuck ..
    => raiseParts ++ [.outputs, .memory, .channels, .streams]
  | .comparatorBandReentry ..
    => raiseParts ++ [.channels]
  | .halt ..
    => [.regs, .effect, .regions]
  | .nop .. | .waitCmp .. | .cal .. | .imp .. | .calimp .. | .calNext .. | .impNext .. | .calimpNext .. | .mark .. | .jump ..
    | .waitIdle ..
    => [.regs, .regions]
  | .excSet .. | .excPol ..
    => raiseParts ++ [.effect, .drivers, .regions]
  | .seqInvalidEntry ..
    => raiseParts ++ [.effect, .regions]
  | .seqDelayExpiry ..
    => [.regions]
  | .autoScheduleImp .. | .autoScheduleCal ..
    => raiseParts ++ [.time, .regions, .channels]
  | .calibrationDone ..
    => raiseParts ++ [.effect, .time, .converters, .regions, .channels]
  | .calTimeout ..
    => raiseParts ++ [.time, .converters, .regions, .channels]
  | .calOverdue ..
    => [.regs, .time, .channels]
  | .impedanceCheckDone ..
    => raiseParts ++ [.outputs, .memory, .time, .regions, .channels, .streams]
  | .chainOutput ..
    => raiseParts ++ [.outputs, .spindle, .channels, .captures, .gaps, .links]
  | .chBqCtrlCommit ..
    => raiseParts ++ [.effect, .outputs, .memory, .spindle, .channels, .streams, .captures, .gaps, .links]
  | .statisticsBlockEnd .. | .switchChange ..
    => raiseParts ++ [.outputs, .memory, .spindle, .channels, .streams, .captures, .gaps, .links]
  | .capCtrlArm .. | .capCtrlDisarm .. | .capCtrlSoft .. | .capCtrlRel .. | .trigInEdge .. | .ringTriggerRx ..
    => raiseParts ++ [.outputs, .spindle, .captures, .gaps, .links]
  | .rowDecision ..
    => raiseParts ++ [.outputs, .memory, .time, .spindle, .captures, .gaps, .links]
  | .captureRecordComplete ..
    => raiseParts ++ [.outputs, .memory, .streams, .captures]
  | .captureHoldEnd ..
    => [.regs, .captures]
  | .strCtrlStart .. | .strCtrlStop .. | .strCtrlAbort .. | .streamConfirmation ..
    => raiseParts ++ [.outputs, .memory, .streams, .gouge, .gaps]
  | .streamRowAppend .. | .packetFlush .. | .descriptorDue ..
    => raiseParts ++ [.outputs, .memory, .time, .streams]
  | .spillDrain ..
    => raiseParts ++ [.memory, .streams]
  | .packetSend .. | .laneLosClear .. | .arpReplyRx .. | .neighbourAdvertisementRx .. | .streamCellRx .. |
    .datagramPassedEchoMonitor ..
    => raiseParts ++ [.outputs, .memory, .streams, .gouge, .gaps, .links, .ring]
  | .dropEntry ..
    => raiseParts ++ [.outputs, .memory, .streams, .gouge]
  | .gougeBlockStart ..
    => raiseParts ++ [.streams, .gouge]
  | .gougeVerifyDone .. | .ggeCtrlRetest .. | .gougeSelftestDone ..
    => raiseParts ++ [.gouge]
  | .gougeStallEnd ..
    => [.regs, .gouge]
  | .laneStateRequest ..
    => raiseParts ++ [.lanes]
  | .laneStateChangeDone ..
    => raiseParts ++ [.outputs, .lanes]
  | .laneStateTimeout .. | .eyeMeasurement ..
    => raiseParts ++ [.time, .lanes]
  | .laneLos ..
    => raiseParts ++ [.ring]
  | .pllLocked ..
    => [.regs, .outputs, .links, .lanes]
  | .lneCtrlTmode .. | .lneCtrlErrinj .. | .chpCtrlRetrain ..
    => raiseParts ++ [.outputs, .spindle, .streams, .gouge, .gaps, .links, .lanes, .segment, .ring, .headstock]
  | .prbsLock ..
    => [.regs, .outputs, .lanes]
  | .prbsReseed ..
    => [.regs, .lanes]
  | .arpRequestRx .. | .neighbourSolicitationRx .. | .icmpEchoRequest ..
    => [.regs, .outputs]
  | .destResolveRetry ..
    => raiseParts ++ [.outputs, .memory, .time, .streams, .gouge, .gaps, .links, .ring]
  | .netCtrlExitEnClear ..
    => raiseParts ++ [.outputs, .spindle, .streams, .gouge, .gaps, .links, .lanes, .ring]
  | .linkTraining ..
    => raiseParts ++ [.outputs, .links, .lanes]
  | .trainRx .. | .lctlRx .. | .chainpoLinkDown ..
    => raiseParts ++ [.outputs, .spindle, .streams, .gouge, .gaps, .links, .segment, .ring, .headstock]
  | .linkTrained ..
    => raiseParts ++ [.outputs, .time, .streams, .gouge, .gaps, .links, .lanes, .ring]
  | .alignRx ..
    => [.regs, .links]
  | .lctlSend ..
    => [.outputs, .time, .links]
  | .chainpoLinkRetry ..
    => raiseParts ++ [.outputs, .time, .links, .lanes]
  | .exitPacketExpiry ..
    => [.time, .ring]
  | .enumerationSend .. | .mirrorSend ..
    => [.outputs, .time, .links, .ring]
  | .enumerationRx ..
    => raiseParts ++ [.outputs, .links, .segment, .ring]
  | .tableSettled ..
    => raiseParts ++ [.outputs, .time, .spindle, .streams, .gouge, .gaps, .links, .segment, .ring]
  | .exitEligible .. | .mirrorExpiry ..
    => raiseParts ++ [.outputs, .time, .links, .ring]
  | .echoError ..
    => raiseParts ++ [.outputs, .links, .ring]
  | .exitPortFailure ..
    => raiseParts ++ [.outputs, .time, .spindle, .streams, .gouge, .gaps, .links, .ring]
  | .exitEventRx ..
    => raiseParts ++ [.outputs, .spindle, .streams, .gouge, .gaps, .links, .segment, .ring]
  | .mirrorRx .. | .chpRingSwitch ..
    => raiseParts ++ [.outputs, .spindle, .streams, .gouge, .gaps, .links, .ring]
  | .switchOldPortStop ..
    => [.ring]
  | .partsTimeout .. | .forwardTimeout ..
    => raiseParts ++ [.outputs, .time, .links, .headstock]
  | .commandResetExpiry .. | .powerOnReset .. | .supplyPowerFail .. | .resetPin .. | .brownOut .. | .supplyWarning .. |
    .vddcOutOfRegulation .. | .powerChangeDone .. | .watchWake .. | .wakePin .. | .alarmWake ..
    => Part.every
  | .vc2ReassemblyTimeout ..
    => [.time, .headstock]
  | .cmdRecv ..
    => [.outputs, .links, .headstock]
  | .spiFrameAbort ..
    => []
  | .cmdHubidWrite ..
    => [.regs, .outputs, .links, .ring]
  | .faultEvent .. | .fltForceWrite .. | .stageHoldTimeout .. | .firmwareWatchdog .. | .selftestDone .. |
    .headstockStartDone .. | .temperatureWarning ..
    => eventParts
  | .eccError ..
    => eventParts ++ [.outputs, .memory, .streams, .headstock]
  | .aliveToggle ..
    => [.outputs, .faults, .time]
  | .selftestRequeue ..
    => [.regs, .faults]
  | .safetyCycle ..
    => raiseParts ++ [.outputs, .tailstock, .time, .dieLinks, .links, .headstock]
  | .crossChannelWord ..
    => raiseParts ++ [.outputs, .tailstock, .dieLinks, .links, .headstock]
  | .telegramWatchdog .. | .discrepancyTimeout .. | .encoderEdge .. | .ss1TimeLimit .. | .safeRstEdge .. | .safeRstHeld ..
    | .paramCrcCheck ..
    => raiseParts ++ [.tailstock]
  | .cycleTimeout ..
    => raiseParts ++ [.tailstock, .time]
  | .cycleFaultClear .. | .inputFilterChange .. | .sbcRelease ..
    => [.tailstock]
  | .testPulseStart .. | .testPulseEnd ..
    => [.outputs, .tailstock, .time]
  | .outputOffTest ..
    => raiseParts ++ [.outputs, .tailstock]
  | .resetRelease .. | .pwrReqLevel .. | .pwrReqMode ..
    => raiseParts ++ [.power, .time]
  | .xt32Stopped ..
    => eventParts ++ [.power]
  | .powerChangeTimeout ..
    => eventParts ++ [.power, .time]
  | .pcsLinkChange ..
    => raiseParts ++ [.outputs, .spindle, .gaps, .links, .ring]
  | .spareAvailable ..
    => [.power, .time]

/-- The registers that record a write that was ignored (R456). -/
def Sys2Proof.Machine.ignoredRegs : List Nat := [Sys2Proof.Machine.R.GLB_ACCERR, Sys2Proof.Machine.R.GLB_ACCADR]
/-- The registers of the fault collector's page (Table 14.10), which an event of a fault source may change. -/
def Sys2Proof.Machine.faultRegs : List Nat := (List.range 8192).map (fun i => Sys2Proof.Machine.R.FLT_CTRL + 4 * i)
open Sys2Proof.Machine in
/-- The addresses of the only registers a command may write, for the commands that write a few of their own; none: the command is
not one of these. -/
def Sys2Proof.Instr.writes : Sys2Proof.Instr → Option (List Nat)
  | .refillEnd n | .fillEnd n => some [R.CH_HLT_STAT n.val]
  | .captureAllocTakesEffect b | .captureHoldEnd b => some [R.CAP_STAT b.val]
  | .gougeStallEnd => some [R.GGE_STAT]
  | .snapPinEdge _ | .snapshotBroadcastRx _ _ => some [R.SNAP_STAT]
  | .snapCtrlSoft _ => some (ignoredRegs ++ [R.SNAP_CTRL, R.SNAP_STAT])
  | .snapshotStrobe => some [R.SNAP_STAT, R.SNAP_SEQ, R.SNAP_LTS, R.SNAP_LTS_HI, R.SNAP_LTN, R.SNAP_LTF]
  | .snapshotTransferDone => some [R.SNAP_STAT, R.SNAP_SEQ]
  | .dieLinkNakRx d .. => some (faultRegs ++ [R.DLK_STAT d.val])
  | .dieLinkReadResponse d a .. => some (faultRegs ++ [R.DLK_STAT d.val, a])
  | .trackerLockChange t => some [R.SPN_STAT, R.TRK_STAT t.val]
  | .fullTimeWordRx .. => some (faultRegs ++ [R.SPN_STAT, R.SPN_RATE, R.SPN_RATE_HI, R.TRK_STAT 2])
  | .timeStatusNoticeRx .. => some [R.SPN_STAT]
  | .cmpCtrlDisarm m _ => some (ignoredRegs ++ [R.CMP_CTRL m.val])
  | .pllLocked q => some [R.LNE_GRP q.val]
  | .lneGrpRate q _ =>
    some (ignoredRegs ++ [R.LNE_GRP q.val] ++ (grpLanes q.val).map R.LNE_TXEQ ++ (grpLanes q.val).map R.LNE_DFE)
  | .lneTxeqWrite i _ => some (ignoredRegs ++ [R.LNE_TXEQ i.val, R.LNE_STAT i.val])
  | .prbsLock i => some [R.LNE_STAT i.val]
  | .prbsReseed i _ => some [R.LNE_STAT i.val, R.LNE_PERR i.val]
  | .alignRx k _ => some [R.CHP_STAT k.val]
  | .calOverdue n => some [R.CH_STEADY_STAT n.val]
  | .chImpCfgSetref n _ => some (ignoredRegs ++ [R.CH_IMP_CFG n.val, R.CH_IMP_REF n.val])
  | .burstEnd n | .comparatorHoldoffEnd n => some [R.CH_EVT_STAT n.val]
  | .comparatorBandReentry l => some [R.CH_EVT_STAT l.n.val]
  | .excAutoReversal c => some (faultRegs ++ [R.CLU_EXC_CTRL c.val, R.CLU_EXC_STAT c.val])
  | .excRampEnd c => some [R.CLU_EXC_STAT c.val]
  | .excMeasUpdate c .. => some [R.CLU_EXC_MEAS c.val, R.CLU_EXC_MEAS2 c.val]
  | .cluExcCtrlClrShut c _ => some (ignoredRegs ++ [R.CLU_EXC_CTRL c.val, R.DLK_STAT (c.val / 12)])
  | .nop g | .mark g | .jump g | .waitIdle g => some [R.RGN_SEQ_STAT g.val]
  | .halt g => some [R.RGN_SEQ_STAT g.val, R.RGN_SEQ_CTRL g.val]
  | .waitCmp g => some [R.RGN_SEQ_STAT g.val, R.RGN_SEQ_CMPL g.val]
  | .mainsEdge _ => some ((List.range 8).map R.RGN_MAINS)
  | .fltStickyClear w _ =>
    some (ignoredRegs ++ [R.FLT_STICKY w.val, R.FLT_ALIVE]
      ++ (List.range 32).flatMap (fun j => (List.range 16).map (fun x => R.FLT_LIST (32 * w.val + j) x)))
  | .fltListClear src x _ => some (ignoredRegs ++ [R.FLT_LIST src.val x.val])
  | .fltCtrlClrAll _ =>
    some (ignoredRegs ++ [R.FLT_CTRL, R.FLT_ALIVE] ++ (List.range 8).map R.FLT_STICKY
      ++ (List.range 256).flatMap (fun n => (List.range 16).map (fun x => R.FLT_LIST n x)))
  | .fltFirstValidClear _ => some (ignoredRegs ++ [R.FLT_FIRST, R.FLT_FIRST_T, R.FLT_FIRST_T_HI, R.FLT_OVF])
  | .fltLogRidxWrite _ => some (ignoredRegs ++ [R.FLT_LOG])
  | .cmdHubidWrite _ => some (ignoredRegs ++ [R.CMD_HUBID, R.CHP_ACT])
  | .sbcRelease _ | .cycleFaultClear => some []
  | .resetRelease _ =>
    some (faultRegs ++ [R.CMD_HUBID, R.PWR_SUP, R.PWR_WCAUSE, R.PWR_WACNT, R.PWR_WACNT_HI, R.PWR_WREC, R.PWR_WLTS, R.PWR_WLTS_HI, R.PWR_WLTN, R.PWR_WLTF]
      ++ (List.range 16).map R.PWR_BANK ++ (List.range 16).map R.PWR_BANK1 ++ (List.range 4).map R.PWR_NOTE)
  | _ => none
end

