-- ==== Sys2Proof/Safety.lean ====
section
/-! DEFINITION. What a good state and a safe step are, in the terms the statements use. -/
namespace Sys2Proof.Machine

/-- The sparse tables of State, by what they hold. -/
inductive Table
  | registers | effect | heldWords | latchedWords | memory | dieLinks | drivers | converters | regions | channels | streams | links
  | captures | lanes
  deriving DecidableEq, Repr

/-- A table is in its canonical form: rising numbers, and no entry equal to what an unlisted number reads as. -/
def State.canonAt (s : State) : Table → Bool
  | .registers => tabWf resetWord s.regs
  | .effect => tabWf resetWord s.act
  | .heldWords => tabWf (fun _ => (none : Option Word)) s.held
  | .latchedWords => tabWf (fun _ => (none : Option Word)) s.latch
  | .memory => memWf s.mem
  | .dieLinks => tabWf (fun _ => DieLink.init) s.dlk
  | .drivers => tabWf (fun _ => CluState.init) s.clu
  | .converters => tabWf (fun _ => ConvState.init) s.conv
  | .regions => tabWf (fun _ => RegionState.init) s.rgn
  | .channels => tabWf (fun _ => ChanState.init) s.chan
  | .streams => tabWf (fun _ => StrState.init) s.str
  | .links => tabWf (fun _ => LinkState.init) s.lnk
  | .captures => tabWf (fun _ => CapState.init) s.cap
  | .lanes => tabWf (fun _ => LaneState.init) s.lane

/-- Every sparse table is in its canonical form. Equal contents are then equal data. -/
def State.Canon (s : State) : Prop := ∀ k, s.canonAt k = true

/-- The capacities the spec states hold: four scheduled snapshots (R42), four telegrams waiting for Tailstock (R417), eight replies
in the SPI queue (R378), sixteen tracked sources (R359), 128 forwarded commands that wait for a reply (R358). -/
def State.Caps (s : State) : Prop :=
  s.snap.sched.length ≤ 4 ∧ s.tls.queue.length ≤ 4 ∧ s.hs.spiq.length ≤ 8 ∧ s.hs.sources.length ≤ 16 ∧ s.hs.fwd.length ≤ 128

/-- A good state. -/
def State.Good (s : State) : Prop := s.Canon ∧ s.Caps

/-- Tailstock's outputs are safe (R401, R404, R414 to R416, R420): the 16 inputs and 4 axes stand in their places; in each channel an axis
whose STO output is energised is in RUN or SS1 under an active parameter set, and the channel's switch of SBC is closed only where its STO
output is energised. -/
def State.SafeOutputs (s : State) : Prop :=
  s.tls.inputs.length = 16 ∧ s.tls.axes.length = 4 ∧ ∀ (c : Bool), ∀ x < 4,
    ((s.drive c x).sto = true → s.tls.g = gActive ∧ ((s.drive c x).st = axRun ∨ (s.drive c x).st = axSs1))
      ∧ ((s.drive c x).sbc = true → (s.drive c x).sto = true)

/-- The outcome is a next state: nothing stopped. -/
def Completes (r : Res) : Prop := ∃ t, r = .next t

end Sys2Proof.Machine

/-- Rows that may reset the hub or end its sleep (R439, R442). -/
def Sys2Proof.Instr.mayReset : Instr → Bool
  | .commandResetExpiry | .powerOnReset .. | .supplyPowerFail .. | .resetPin | .brownOut | .supplyWarning ..
  | .vddcOutOfRegulation .. | .powerChangeDone | .watchWake .. | .wakePin | .alarmWake => true
  | _ => false
end

