-- ==== Sys2Proof/Certificates/Slice0/Obligations.lean ====
section
/-! DEFINITION. The statements for the provers, family by family. Every statement about a command says which next state it
answers, under hypotheses on the state and the operands alone. -/

section
open Sys2Proof Sys2Proof.Machine

/-- A step of a hub with a waiting command is exec of the command at the front, with the queue's rest. -/
def Obligations.StepTakesFront : Prop :=
  ∀ (s : State) (c : Instr) (rest : List Instr), s.pending = c :: rest → step s = exec c { s with pending := rest }

/-- The model's choice (log 8): a step of a hub with an empty queue is one core cycle of 1 ns. The always-on count moves on
unless its clock has stopped, LT unless REFCLK is lost or the hub is in reset or in Hush; what the links carry when nothing else
is to be sent may go out, and every other part of State stays. A cycle in which a word time of the die links begins has each die
link that is up carry an idle word (R35); with no die link up and no Chainpo link sending, nothing leaves the hub. -/
def Obligations.IdleStepPassesOneCycle : Prop :=
  ∀ s : State, s.pending = [] → ∃ t, step s = .next t
    ∧ t.always = (if s.pwr.xt32 then s.always else s.always + 65536)
    ∧ t.lt = (if s.spn.refclk ∧ s.awake = true then s.lt + 65536 else s.lt)
    ∧ t.pending = [] ∧ t.bus = s.bus ∧ t.free = s.free
    ∧ (∀ p : Part, p ≠ .time → p ≠ .outputs → p ≠ .dieLinks → p ≠ .links → s.same t p)
    ∧ (∀ k, { t.lk k with txBlocks := 0 } = { s.lk k with txBlocks := 0 })
    ∧ (∀ d < 4, (s.pass nsU).lt / (40 * nsU) ≠ s.lt / (40 * nsU) → s.dieUp d = true →
        .dieWord d 0x3F 0 (dieCrc (s.dl d).txSeq 0x3F 0) ∈ t.out ∧ (t.dl d).txSeq = ((s.dl d).txSeq + 1) % 256)
    ∧ ((∀ d < 4, s.dieUp d = false) → (∀ k < 2, s.linkTx k = false) →
        t.out = s.out ∧ t.dlk = s.dlk ∧ t.lnk = s.lnk)

/-- Every command is answered with a next state in every state, but for a supply between nominal - 8 % and nominal - 5 %, where
R425's conditions do not hold and the spec gives no behaviour. That a hub in reset or in Hush ignores a command, and that a row
whose condition does not hold changes nothing, is the model's reading (log 9, log 10). -/
def Obligations.EveryCommandCompletes : Prop :=
  (∀ (s : State) (c : Instr), (∀ sup mv, c ≠ .supplyWarning sup mv) → Completes (exec c s))
    ∧ (∀ (s : State) sup (mv : Fin 65536), mv.val * 1000 < supNominal sup * 920 ∨ supNominal sup * 950 ≤ mv.val * 1000 →
        Completes (exec (.supplyWarning sup mv) s))

/-- After reset every register holds its reset word, the queue, the memory windows and the lists of commands in flight and of
scheduled snapshots are empty, no source line is high and no test runs, Tailstock is in NOPARAM, and the state is good and its
safety outputs de-energised. Values the tables leave open are the model's (logs 1 to 4, 6 and 29). -/
def Obligations.ResetState : Prop :=
  State.reset.Good ∧ State.reset.SafeOutputs ∧ State.reset.pending = [] ∧ State.reset.mem = []
    ∧ (∀ a, State.reset.reg a = resetWord a) ∧ State.reset.flt.lines = [] ∧ State.reset.flt.running = none
    ∧ State.reset.hs.flight = [] ∧ State.reset.snap.sched = [] ∧ State.reset.tls.g = gNoparam

/-- A step from a good state leads to a good state: every table and the memory windows keep their one canonical form, at most
four snapshots are scheduled (R42), at most four telegrams wait for Tailstock (R417), at most eight replies for the SPI (R378),
at most sixteen sources are tracked (R359), and at most 128 forwarded commands wait for a reply (R358). -/
def Obligations.StepKeepsGood : Prop :=
  ∀ s t : State, s.Good → step s = .next t → t.Good

/-- R404, R414 to R416, R420: no command energises an STO output of an axis outside RUN and SS1 or without an active parameter
set, or releases a brake whose axis is not energised. -/
def Obligations.StepKeepsSafeOutputs : Prop :=
  ∀ s t : State, s.SafeOutputs → step s = .next t → t.SafeOutputs

/-- The frame of every command: whatever it does, it leaves alone each part of State that `changes` does not name for it: the
register file, the memory windows, the fault log, Tailstock, Headstock, the power unit, and every other part; and no command
adds to or takes from the queue of waiting commands. -/
def Obligations.FrameOfEveryCommand : Prop :=
  ∀ (c : Instr) (s t : State), exec c s = .next t →
    t.pending = s.pending ∧ ∀ p : Part, c.changes.contains p = false → s.same t p

/-- The registers of a command that writes a few of its own: every other register keeps its word. -/
def Obligations.RegistersWritten : Prop :=
  ∀ (c : Instr) (s t : State) (l : List Nat), c.writes = some l → exec c s = .next t → ∀ a, a ∉ l → t.reg a = s.reg a

/-- R434: the always-on count never goes back, in any mode and over any reset, but for the loss of power that POWER_ON_RESET
ends. -/
def Obligations.AlwaysOnCountNeverGoesBack : Prop :=
  (∀ (c : Instr) (s t : State), (∀ hid, c ≠ .powerOnReset hid) → exec c s = .next t → s.always ≤ t.always)
    ∧ (∀ s t : State, s.pending = [] → step s = .next t → s.always ≤ t.always)

/-- R438, R442, R443: a hub that is in reset or in Hush takes no command and changes nothing, but for the rows of supplies,
resets, wake sources and the always-on clock. The model's reading, log 9. -/
def Obligations.AsleepHubIgnoresCommands : Prop :=
  ∀ (c : Instr) (s : State), s.awake = false → c.mayReset = false → (∀ hid, c ≠ .resetRelease hid) → c ≠ .xt32Stopped →
    exec c s = .next s

/-- R385, R388, R394: what the rows that report an event to the fault collector do in an awake hub. FAULT_EVENT is the event of
its source, instance and detail; a self-timed stage and the firmware watchdog also leave their mark for ALIVE. A corrected
memory error is source 96 with its partition and address. An uncorrected one in the stream pool or Bowl spoils the 32-byte unit
it hit and is source 97, whose DETAIL names the data there or, where the hub holds none, is the row's; one outside their windows
is source 97 and spoils nothing. One in Gouge's history pool is source 97 too, and ends a running test of the engine
INCONCLUSIVE: the model's choice (log 55) is that an address in the image window is the anchor image, which is marked, and any
other the encoder's or the verifier's image of the context that DETAIL names. One in a partition with two copies is source 98;
one in Headstock's memory restarts it, and what it had in flight is gone (log 27); one in partition 5 changes nothing (log 26).
The effect of a memory error in unused space and of source 99 is the model's reading (logs 26 and 27). -/
def Obligations.FaultEventRows : Prop :=
  ∀ s : State, s.awake = true →
    (∀ src inst detail, exec (.faultEvent src inst detail) s = .next (s.event src.val inst.val detail.toNat))
    ∧ exec .stageHoldTimeout s = .next (({ s with flt := { s.flt with stageHeld := true } }).event 101 instHub 0)
    ∧ exec .firmwareWatchdog s = .next (({ s with flt := { s.flt with wdLate := true } }).event 102 instHub 0)
    ∧ (∀ part (addr : Word) detail, exec (.eccError part false addr detail) s = .next (s.memEvent 96 part.val addr.toNat addr.toNat))
    ∧ (∀ (addr : Word) detail, exec (.eccError 3 true addr detail) s = .next (s.memEvent 98 3 addr.toNat addr.toNat))
    ∧ (∀ (addr : Word) detail, exec (.eccError 5 true addr detail) s = .next s)
    ∧ (∀ (part : Fin 6) (addr : Word) detail d, part.val ≤ 1 → d = (s.dataDetail part.val addr.toNat).getD detail.toNat →
        (inPool addr.toNat = true →
          exec (.eccError part true addr detail) s = .next ((s.spoil addr.toNat).memEvent 97 part.val d addr.toNat))
        ∧ (inPool addr.toNat = false → exec (.eccError part true addr detail) s = .next (s.memEvent 97 part.val d addr.toNat)))
    ∧ (∀ (addr : Word) c o, imageAt addr.toNat = some (c, o) →
        (s.historyBad c addr.toNat).gg c = { s.gg c with anchorBad := true })
    ∧ (∀ (addr : Word) c, imageAt addr.toNat = none →
        s.historyBad c addr.toNat = s.setGg c { s.gg c with memBad := true })
    ∧ (∀ (addr : Word) (detail : BitVec 48) d u, d = (s.dataDetail 2 addr.toNat).getD detail.toNat →
        u = (s.historyBad (bitsOf d 40 32) addr.toNat).memEvent 97 2 d addr.toNat →
        (u.flt.running.any (fun t => decide (t.target = TestTarget.gouge)) = false →
          exec (.eccError 2 true addr detail) s = .next u)
        ∧ (u.flt.running.any (fun t => decide (t.target = TestTarget.gouge)) = true →
          exec (.eccError 2 true addr detail) s = .next ((u.endTest 3).takeVerdicts)))
    ∧ (∀ addr detail, ∃ t, exec (.eccError 4 true addr detail) s = .next t ∧ t.flt.restarting = true ∧ t.hs.flight = []
        ∧ t.hs.parts = [])

/-- R384, R386, R389, R390: clearing and reading marks of the fault collector. A write of FLT_FIRST with VALID = 1 clears the
first-source latch, its time and the overflow record; a write of FLT_CTRL without CLR_ALL sets FN_TEST, and one with CLR_ALL
clears every STICKY bit but that of the source whose array verdict stands (R396); RIDX takes the value written, and WIDX stays;
a write of FLT_LIST clears the list bits its ones name and no other of its word, and one of FLT_STICKY the STICKY bits of the
defined sources its ones name, but for that one; a write of FLT_FORCE is the shared write of the force lines. -/
def Obligations.FaultClearRows : Prop :=
  ∀ s : State, s.awake = true →
    (∀ v : Word, v.toNat.testBit 31 = true → ∃ t, exec (.fltFirstValidClear v) s = .next t
        ∧ t.reg R.FLT_FIRST = 0 ∧ t.reg R.FLT_FIRST_T = 0 ∧ t.reg R.FLT_FIRST_T_HI = 0 ∧ t.reg R.FLT_OVF = 0)
    ∧ (∀ v : Word, ∃ t, exec (.fltLogRidxWrite v) s = .next t
        ∧ t.fld R.FLT_LOG F.FLT_LOG_RIDX = bitsOf v.toNat F.FLT_LOG_RIDX.hi F.FLT_LOG_RIDX.lo
        ∧ t.fld R.FLT_LOG F.FLT_LOG_WIDX = s.fld R.FLT_LOG F.FLT_LOG_WIDX)
    ∧ (∀ v : Word, v.toNat.testBit 0 = false → ∃ t, exec (.fltCtrlClrAll v) s = .next t
        ∧ t.fld R.FLT_CTRL F.FLT_CTRL_FN_TEST = bitsOf v.toNat F.FLT_CTRL_FN_TEST.hi F.FLT_CTRL_FN_TEST.lo)
    ∧ (∀ v : Word, v.toNat.testBit 0 = true → ∃ t, exec (.fltCtrlClrAll v) s = .next t
        ∧ ∀ n < 256, t.srcBit R.FLT_STICKY n = (decide (s.flt.parr = true ∧ n = s.flt.parrSrc) && s.srcBit R.FLT_STICKY n))
    ∧ (∀ (src : Fin 256) (x : Fin 16) (v : Word) (j : Fin 32), ∃ t, exec (.fltListClear src x v) s = .next t
        ∧ t.listBit src.val (32 * x.val + j.val) = (s.listBit src.val (32 * x.val + j.val) && !v.toNat.testBit j.val))
    ∧ (∀ (w : Fin 8) (v : Word) (n : Nat), n / 32 = w.val → sourceDefined n = true → v.toNat.testBit (n % 32) = true →
        ∃ t, exec (.fltStickyClear w v) s = .next t
          ∧ t.srcBit R.FLT_STICKY n = (decide (s.flt.parr = true ∧ n = s.flt.parrSrc) && s.srcBit R.FLT_STICKY n))
    ∧ (∀ (w : Fin 8) (v : Word), exec (.fltForceWrite w v) s = .next (s.writeForce w.val v))

/-- R394 to R396: the ALIVE pin toggles with each multiple of 500 us while nothing holds it; while HOLD stands it goes low,
without REFCLK too, and a low pin stays low. With no test running the end of a test changes nothing; the end of the running one
leaves no verdict that waits to be taken up. A test that an operation waits for and that ended NOT_RUN is called for again. -/
def Obligations.FaultTestRows : Prop :=
  ∀ s : State, s.awake = true →
    (s.spn.refclk = true → s.flag R.FLT_ALIVE F.FLT_ALIVE_HOLD = false →
      ∃ t, exec .aliveToggle s = .next t ∧ t.flt.alivePin = !s.flt.alivePin
        ∧ ∃ at0, t.out = s.out ++ [.pin pinAlive (b2n (!s.flt.alivePin)) at0])
    ∧ (s.flag R.FLT_ALIVE F.FLT_ALIVE_HOLD = true → s.flt.alivePin = true →
        ∃ t, exec .aliveToggle s = .next t ∧ t.flt.alivePin = false ∧ ∃ at0, t.out = s.out ++ [.pin pinAlive 0 at0])
    ∧ (s.flag R.FLT_ALIVE F.FLT_ALIVE_HOLD = true → s.flt.alivePin = false →
        ∃ t, exec .aliveToggle s = .next t ∧ t.flt.alivePin = false ∧ t.out = s.out)
    ∧ (∀ v, s.flt.running = none → exec (.selftestDone v) s = .next s)
    ∧ (∀ x v, s.flt.running = some x → ∃ t, exec (.selftestDone v) s = .next t ∧ t.flt.ended = [])
    ∧ (∀ x rest, s.flt.notRun = x :: rest → exec .selftestRequeue s
        = .next (({ s with flt := { s.flt with notRun := rest } }).callTest x.src x.target x.inst))

/-- R385 to R387, R391: an event of a defined source shows in STICKY whatever its enable, and one of class STOP with its enable
asks Tailstock for a stop; a source that is not defined does nothing. The first event of class SIGNAL or higher of an enabled
source with VALID = 0 is latched with its source, instance, FORCED, REAL and time, and sets VALID; one with VALID = 1 sets OVF,
counts in OVFCNT, sets its STICKY and leaves the latch; a write of 1 to VALID clears the latch, its time and the overflow record
together. An event of a source whose enable is 0 touches neither latch nor log. Table 14.7, R390: an entry of the fault log is
32 bytes, it stands at 32 times the write index, the write index moves on by one modulo 256, and the other entries keep their
bytes. -/
def Obligations.EventIsRecorded : Prop :=
  (∀ (s : State) (src inst detail : Nat) (real : Bool),
      (sourceDefined src = true → (s.raiseWith src inst detail real).srcBit R.FLT_STICKY src = true)
      ∧ (sourceDefined src = false → s.raiseWith src inst detail real = s)
      ∧ (sourceDefined src = true → s.srcEn src = true → s.srcClass src = 3 →
          (s.raiseWith src inst detail real).stopReq = true))
  ∧ (∀ (s : State) (src inst detail : Nat) (real queued : Bool), src < 256 → inst < 1024 →
      (s.srcEn src = true → 1 ≤ s.srcClass src → s.flag R.FLT_FIRST F.FLT_FIRST_VALID = false → ∃ t,
        s.record src inst detail real queued = t ∧ t.flag R.FLT_FIRST F.FLT_FIRST_VALID = true
          ∧ (t.reg R.FLT_FIRST).toNat % 256 = src ∧ (t.reg R.FLT_FIRST).toNat / 65536 % 1024 = inst
          ∧ t.flag R.FLT_FIRST F.FLT_FIRST_FORCED = s.srcBit R.FLT_FORCE src ∧ t.flag R.FLT_FIRST F.FLT_FIRST_REAL = real
          ∧ t.pair R.FLT_FIRST_T R.FLT_FIRST_T_HI = stOf s.lt)
      ∧ (s.srcEn src = true → 1 ≤ s.srcClass src → s.flag R.FLT_FIRST F.FLT_FIRST_VALID = true → ∃ t,
        s.record src inst detail real queued = t ∧ t.reg R.FLT_FIRST = s.reg R.FLT_FIRST
          ∧ t.pair R.FLT_FIRST_T R.FLT_FIRST_T_HI = s.pair R.FLT_FIRST_T R.FLT_FIRST_T_HI
          ∧ t.flag R.FLT_OVF F.FLT_OVF_OVF = true ∧ t.srcBit R.FLT_STICKY src = true
          ∧ t.fld R.FLT_OVF F.FLT_OVF_OVFCNT = satInc (F.FLT_OVF_OVFCNT.hi - F.FLT_OVF_OVFCNT.lo + 1)
              (s.fld R.FLT_OVF F.FLT_OVF_OVFCNT) 1)
      ∧ (s.awake = true → ∀ v : Word, v.toNat.testBit 31 = true → ∃ t, exec (.fltFirstValidClear v) s = .next t
          ∧ t.reg R.FLT_FIRST = 0 ∧ t.reg R.FLT_FIRST_T = 0 ∧ t.reg R.FLT_FIRST_T_HI = 0 ∧ t.reg R.FLT_OVF = 0)
      ∧ (s.srcEn src = false → (s.record src inst detail real queued).reg R.FLT_FIRST = s.reg R.FLT_FIRST
          ∧ (s.record src inst detail real queued).reg R.FLT_LOG = s.reg R.FLT_LOG
          ∧ (s.record src inst detail real queued).mem = s.mem))
  ∧ (∀ (s : State) (src inst detail lflags cls : Nat),
      (s.logEntry src inst detail lflags cls).length = 32
      ∧ (let t := s.writeLog (s.logEntry src inst detail lflags cls)
         t.fld R.FLT_LOG F.FLT_LOG_WIDX = (s.fld R.FLT_LOG F.FLT_LOG_WIDX + 1) % 256
         ∧ t.bytes (logBase + 32 * s.fld R.FLT_LOG F.FLT_LOG_WIDX) 32 = s.logEntry src inst detail lflags cls
         ∧ ∀ a, a < logBase + 32 * s.fld R.FLT_LOG F.FLT_LOG_WIDX ∨ logBase + 32 * s.fld R.FLT_LOG F.FLT_LOG_WIDX + 32 ≤ a →
             t.byte a = s.byte a))

/-- R18, R362, R368, R454, R456: a write of one word over SPI, whatever row carries it. An address that is no multiple of 4
below 0x0800_0000 answers BADADDR; a locked field answers LOCKED and is noted; a word that asks for more than the demand or the
power level allows answers DEMAND and is not made, and where the RW processing fields alone exceed the demand PRC_STAT.REFUSED
and source 109 say so, a region start it asks for shows cause 0x5 and an arm cause 0x7; one that would make the hub ID 0xFFFF
answers REFUSED and changes nothing. A write that passes every check is made, and answers OK. R12: a write of CMD_HUBID that
would make the hub ID 0xFFFF changes nothing; one that leaves the site part unsettles nothing of the ring; any other, on a hub
that is not the active exit, gives the hub its new site part and leaves HID alone. R9: the lower word of a written pair is held,
and changes no register; the write of the upper word makes both take effect together, and drops the held word. Here for SPN_SET,
whose pair stands in HD. R9, R19, R43: a read of the lower word of PWR_ACNT answers the word and latches the upper one, which a
later read of the upper word answers whatever has happened since; a page read answers the page's word, which is zero until the
first snapshot; a bad address answers BADADDR. Which check answers first, and what of an alias is locked, is the model's reading
(logs 33 to 36). -/
def Obligations.AccessRows : Prop :=
  (∀ s : State, s.awake = true → ∀ (a : Nat) (v : Word), ∀ c ∈ [Instr.registerWrite a v, .aliasWrite a v, .gougeImageWrite a v,
        .pairLowerWrite a v, .pairUpperWrite a v],
      (addrOk a = false → exec c s = .next (s.answer 0 0x04))
      ∧ (∀ off rw, s.checkWrites .spi [(a, v)] = (0x05, off, rw) → exec c s = .next ((s.noteLocked off).answer 0 0x05))
      ∧ (∀ off rw gs bs u, s.checkWrites .spi [(a, v)] = (0x06, off, rw) → gs = s.startsOf (s.trial (a, v)) (s.touched [(a, v)]) →
          bs = s.armsOf (s.touched [(a, v)]) →
          u = (if rw = true then (s.setFlag R.PRC_STAT F.PRC_STAT_REFUSED true).event 109 instHub 0 else s) →
          (s.demandBad (s.trial (a, v)) gs bs = false → exec c s = .next (u.answer 0 0x06))
          ∧ (s.demandBad (s.trial (a, v)) gs bs = true → exec c s
              = .next (((u.forEach gs (fun s g => s.refuseStart g 5)).forEach bs (fun s b => s.refuseArm b 7)).answer 0 0x06)))
      ∧ (∀ off rw, s.checkWrites .spi [(a, v)] = (0x0F, off, rw) → exec c s = .next (s.answer 0 0x0F))
      ∧ (∀ off rw, s.checkWrites .spi [(a, v)] = (0, off, rw) → exec c s = .next ((s.writeWord .spi (a, v)).answer 0 0)))
  ∧ (∀ s : State, s.awake = true → ∀ v : Word,
      (s.hubidBad (R.CMD_HUBID, v) = true → exec (.cmdHubidWrite v) s = .next s)
      ∧ (s.hubidBad (R.CMD_HUBID, v) = false →
          bitsOf v.toNat F.CMD_HUBID_SITE.hi F.CMD_HUBID_SITE.lo = s.fld R.CMD_HUBID F.CMD_HUBID_SITE →
          ∃ t, exec (.cmdHubidWrite v) s = .next t ∧ t.hubId = s.hubId ∧ t.seg = s.seg ∧ t.ring = s.ring)
      ∧ (s.isExit = false → s.hubidBad (R.CMD_HUBID, v) = false →
          ∃ t, exec (.cmdHubidWrite v) s = .next t
            ∧ t.fld R.CMD_HUBID F.CMD_HUBID_SITE = bitsOf v.toNat F.CMD_HUBID_SITE.hi F.CMD_HUBID_SITE.lo
            ∧ t.fld R.CMD_HUBID F.CMD_HUBID_HID = s.fld R.CMD_HUBID F.CMD_HUBID_HID))
  ∧ (∀ s : State, s.awake = true → ∀ v w : Word,
      (∀ off rw, s.checkWrites .spi [(R.SPN_SET, v)] = (0, off, rw) →
        ∃ t, exec (.pairLowerWrite R.SPN_SET v) s = .next t ∧ t.heldAt R.SPN_SET = some v ∧ ∀ a, t.reg a = s.reg a)
      ∧ (∀ off rw, s.checkWrites .spi [(R.SPN_SET_HI, w)] = (0, off, rw) → s.heldAt R.SPN_SET = some v → ∃ t, exec (.pairUpperWrite R.SPN_SET_HI w) s = .next t ∧ t.reg R.SPN_SET = v
          ∧ t.fld R.SPN_SET_HI F.SPN_SET_HI_SEC_HI = bitsOf w.toNat F.SPN_SET_HI_SEC_HI.hi F.SPN_SET_HI_SEC_HI.lo
          ∧ t.heldAt R.SPN_SET = none))
  ∧ (∀ s : State, s.awake = true →
      (s.latched R.PWR_ACNT = none → ∃ t, exec (.pairLowerRead R.PWR_ACNT) s = .next t ∧ t.bus = ⟨s.acnt % 2 ^ 32, 0, []⟩
          ∧ t.latched R.PWR_ACNT_HI = some (BitVec.ofNat 32 (s.acnt / 2 ^ 32))
          ∧ ∀ u : State, u.awake = true → u.latched R.PWR_ACNT_HI = t.latched R.PWR_ACNT_HI →
              ∃ x, exec (.pairLowerRead R.PWR_ACNT_HI) u = .next x ∧ x.bus.value = s.acnt / 2 ^ 32 % 2 ^ 32)
      ∧ (∀ a, addrOk a = true → inPage a = true → exec (.pairLowerRead a) s = .next (s.answer (s.pageWord a) 0))
      ∧ (∀ a, addrOk a = true → inPage a = true → s.snap.taken = false → s.pageWord a = 0)
      ∧ (∀ a, addrOk a = false → exec (.pairLowerRead a) s = .next (s.answer 0 0x04)))

/-- R40 to R43: the ways a snapshot is requested, and what the strobe and the transfer leave. A pin edge, SOFT and a ring
broadcast ask for their instants, and with none scheduled and none in progress the request is scheduled; the strobe records the
instant and the causes of the earliest one and sets BUSY; the transfer gives every page the words latched at the strobe, counts
SNAP_SEQ once and clears BUSY. A request for the very instant of a scheduled snapshot or of the one in progress is merged with
it; one for another instant less than 20 us from it counts in MISSED. That the transfer is one event is the model's reading (log
24). -/
def Obligations.SnapshotRows : Prop :=
  ∀ s : State, s.awake = true →
    (∀ ph, s.spn.refclk = true → s.flag R.SNAP_CTRL F.SNAP_CTRL_PIN_EN = true → s.flag R.SNAP_CTRL F.SNAP_CTRL_FWD = false →
      s.snap.sched = [] → s.snap.running = none →
      ∃ t, exec (.snapPinEdge ph) s = .next t
        ∧ t.snap.sched = [⟨stampOf s.lt ph.val + 2000 * nsU, causePin, false⟩])
    ∧ (∀ v : Word, v.toNat.testBit 0 = true → v.toNat.testBit F.SNAP_CTRL_FWD.lo = false →
      s.snap.sched = [] → s.snap.running = none →
      ∃ t, exec (.snapCtrlSoft v) s = .next t ∧ t.snap.sched = [⟨s.lt + 2000 * nsU, causeCmd, false⟩])
    ∧ (∀ k m u, s.takeVc1 k.val 0x11 m = (u, true) → u.flag R.SNAP_CTRL F.SNAP_CTRL_RING_EN = true → u.lt ≤ ltOp m.time →
      u.snap.sched = [] → u.snap.running = none →
      ∃ t, exec (.snapshotBroadcastRx k m) s = .next t ∧ t.snap.sched = [⟨ltOp m.time, causeRing, false⟩])
    ∧ (∀ r rest, s.snap.sched = r :: rest → s.spn.refclk = true → s.snap.running = none →
      ∃ t, exec .snapshotStrobe s = .next t ∧ t.snap.running = some r
        ∧ t.fld R.SNAP_STAT F.SNAP_STAT_CAUSE = r.cause % 2 ^ (F.SNAP_STAT_CAUSE.hi - F.SNAP_STAT_CAUSE.lo + 1)
        ∧ t.flag R.SNAP_STAT F.SNAP_STAT_BUSY = true
        ∧ t.reg R.SNAP_LTN = BitVec.ofNat 32 (ltNs r.time) ∧ t.reg R.SNAP_LTF = BitVec.ofNat 32 (ltFrac r.time)
        ∧ t.pair R.SNAP_LTS R.SNAP_LTS_HI = ltSec r.time % 2 ^ 64)
    ∧ (∀ r, s.snap.running = some r → ∃ t, exec .snapshotTransferDone s = .next t ∧ t.snap.running = none
        ∧ t.snap.taken = true ∧ t.snap.page = s.snap.latched ∧ t.reg R.SNAP_SEQ = s.reg R.SNAP_SEQ + 1
        ∧ t.flag R.SNAP_STAT F.SNAP_STAT_BUSY = false)
    ∧ (∀ r cause, s.snap.sched = [r] → s.snapRequest r.time cause false
        = ({ s with snap := { s.snap with sched := [{ r with cause := r.cause ||| cause }] } }, true))
    ∧ (∀ r cause, s.snap.sched = [] → s.snap.running = some r →
        (s.snapRequest r.time cause false).2 = true
        ∧ (s.snapRequest r.time cause false).1.snap.running = some { r with cause := r.cause ||| cause })
    ∧ (∀ r time cause, s.snap.sched = [] → s.snap.running = some r → time ≠ r.time → near r.time time = true →
        s.snapRequest time cause false = (s.bump R.SNAP_STAT F.SNAP_STAT_MISSED, false))

/-- R426, R428, R442: what puts the hub into reset, in any mode, and what releases it. A lost supply, a brown-out and RESET_N
leave every register but PWR_RST at its reset word and memory empty, and the reset names its cause; what waits in the queue is
kept over the first two, the always-on count over the last two. RESET_N in a reset already in progress changes nothing but the
pin. POWER_ON_RESET starts the always-on count at 0 and samples HID; RESET_RELEASE ends the reset when every supply is good, and
does nothing while one is not; where the 32.768 kHz clock has stopped, its condition stands again from the release on (R434).
Which cause a supply failure names, and RESET_N during a reset, are the model's reading (log 40). -/
def Obligations.ResetRows : Prop :=
  ∀ s : State,
    (∀ sup, ∃ t, exec (.supplyPowerFail sup) s = .next t ∧ t.pwr.inReset = true ∧ t.pwr.cause = 1 ∧ sup ∈ t.pwr.suppliesBad
        ∧ (∀ a, a ≠ R.PWR_RST → t.reg a = resetWord a) ∧ t.reg R.PWR_RST = 1 ∧ t.mem = [] ∧ t.pending = s.pending)
    ∧ (∃ t, exec .brownOut s = .next t ∧ t.pwr.inReset = true ∧ t.pwr.cause = 8
        ∧ (∀ a, a ≠ R.PWR_RST → t.reg a = resetWord a) ∧ t.mem = [] ∧ t.pending = s.pending ∧ t.always = s.always)
    ∧ (s.pwr.inReset = false → ∃ t, exec .resetPin s = .next t ∧ t.pwr.inReset = true ∧ t.pwr.cause = 2 ∧ t.pwr.resetN = false
        ∧ t.pwr.inHush = s.pwr.hush ∧ (∀ a, a ≠ R.PWR_RST → t.reg a = resetWord a) ∧ t.mem = [] ∧ t.always = s.always)
    ∧ (s.pwr.inReset = true → exec .resetPin s = .next { s with pwr := { s.pwr with resetN := false } })
    ∧ (∀ hid, (s.pwr.inReset = false ∨ s.pwr.resetN = true) → s.pwr.suppliesBad = [.vaon] → ∃ t, exec (.powerOnReset hid) s = .next t
        ∧ t.pwr.inReset = false ∧ t.pwr.cause = 1 ∧ t.always = 0 ∧ t.pwr.suppliesBad = []
        ∧ t.fld R.CMD_HUBID F.CMD_HUBID_HID = hid.val ∧ t.mem = [])
    ∧ (∀ hid, s.pwr.inReset = true → s.pwr.suppliesBad = [] → ∃ t, exec (.resetRelease hid) s = .next t
        ∧ t.pwr.inReset = false ∧ t.pwr.resetN = true ∧ t.pwr.hid = hid.val ∧ t.fld R.CMD_HUBID F.CMD_HUBID_HID = hid.val
        ∧ (s.pwr.xt32 = true → t.flag R.PWR_SUP F.PWR_SUP_XT32 = true ∧ t.flt.lines.contains (13, instHub) = true))
    ∧ (∀ hid, s.pwr.suppliesBad ≠ [] → exec (.resetRelease hid) s = .next s)

/-- R437 to R441: the three wake sources of a hub in Hush. The first event latches its cause bit and the count of the 32.768 kHz
clock, and the hub takes a reset with the cause WAKE; a watch and the WAKE pin leave INHUSH set and both copies of the wake
record as they were. The alarm latches the earlier of the two instants that the two copies of the record name. -/
def Obligations.WakeRows : Prop :=
  ∀ s : State, s.pwr.hush = true → s.pwr.wakeCause = 0 →
    (∀ (g : Fin 8) (uv : Word), s.wakeBit (24 + g.val) = true → 1000 * s.watchThr g.val < uv.toNat →
      ∃ t, exec (.watchWake g uv) s = .next t ∧ t.pwr.inReset = true ∧ t.pwr.cause = 16 ∧ t.pwr.inHush = true
        ∧ t.pwr.wakeCause = 2 ^ g.val ∧ t.pwr.wakeAcnt = s.acnt ∧ t.pwr.bank0 = s.pwr.bank0 ∧ t.pwr.bank1 = s.pwr.bank1
        ∧ t.always = s.always)
    ∧ (s.wakeBit 8 = true → ∃ t, exec .wakePin s = .next t ∧ t.pwr.inReset = true ∧ t.pwr.cause = 16 ∧ t.pwr.inHush = true
        ∧ t.pwr.wakeCause = 2 ^ 8 ∧ t.pwr.wakeAcnt = s.acnt ∧ t.pwr.bank0 = s.pwr.bank0 ∧ t.pwr.bank1 = s.pwr.bank1)
    ∧ (s.wakeBit 9 = true → s.pwr.xt32 = false → ∃ t, exec .alarmWake s = .next t ∧ t.pwr.inReset = true ∧ t.pwr.cause = 16
        ∧ t.pwr.wakeCause = 2 ^ 9
        ∧ t.pwr.wakeAcnt = min (alarmAt s.acnt ((s.pwr.bank0[8]?).getD 0)) (alarmAt s.acnt ((s.pwr.bank1[8]?).getD 0)))

/-- R425 to R428, R434, Table 16.9: supplies, VDDC, temperatures and the 32.768 kHz clock. Below nominal - 8 % a supply has lost
power-good; from nominal - 5 % up to nominal - 3.5 % it is in warning, which raises its source; at nominal - 3.5 % and above
nothing happens; between nominal - 8 % and nominal - 5 %, outside the conditions of R425, the model stops (the spec gives no
behaviour there). The end of a warning clears its line. VDDC below 0.57 V is a brown-out, and one outside 3 % of its setpoint is
remembered. A die's temperature stands in its register and drives its warning line. The stop of the always-on clock is
remembered. The stop is the model's (log 39). -/
def Obligations.SupplyRows : Prop :=
  ∀ s : State, s.awake = true →
    (∀ sup (mv : Fin 65536), mv.val * 1000 < supNominal sup * 920 → exec (.supplyWarning sup mv) s = exec (.supplyPowerFail sup) s)
    ∧ (∀ sup (mv : Fin 65536), supNominal sup * 965 ≤ mv.val * 1000 → exec (.supplyWarning sup mv) s = .next s)
    ∧ (∀ sup (mv : Fin 65536), supNominal sup * 950 ≤ mv.val * 1000 → mv.val * 1000 < supNominal sup * 965 →
        s.supBad (supBit sup) = false → (supSource sup).2.2.any (fun b => s.supBad b) = false →
        exec (.supplyWarning sup mv) s
          = .next (((s.setSup (supBit sup) true).setLine (supSource sup).1 (supSource sup).2.1 true).takeVerdicts))
    ∧ (∀ sup (mv : Fin 65536), supNominal sup * 920 ≤ mv.val * 1000 → mv.val * 1000 < supNominal sup * 950 →
        exec (.supplyWarning sup mv) s = .fault .outsideConditions)
    ∧ (∀ sup, s.supBad (supBit sup) = true →
        (supSource sup).2.2.any (fun b => (s.setSup (supBit sup) false).supBad b) = false →
        exec (.supplyWarningClear sup) s
          = .next ((s.setSup (supBit sup) false).setLine (supSource sup).1 (supSource sup).2.1 false))
    ∧ (∀ mv : Fin 65536, mv.val < 570 → exec (.vddcOutOfRegulation mv) s = exec .brownOut s)
    ∧ (∀ mv : Fin 65536, 570 ≤ mv.val → ∃ t, exec (.vddcOutOfRegulation mv) s = .next t
        ∧ t.pwr.vddc = (if mv.val * 100 < ({ s with pwr := { s.pwr with vddc := none } }).vddcNow * 97
            ∨ ({ s with pwr := { s.pwr with vddc := none } }).vddcNow * 103 < mv.val * 100 then some mv.val else none))
    ∧ (∀ (d : Fin 5) (x : Fin 65536), d.val < 4 → exec (.temperatureWarning d x) s
        = .next (((s.setReg (R.PWR_TEMP d.val) (BitVec.ofNat 32 x.val)).setLine 8 d.val
            (decide (signed 16 x.val > 16 * (((s.setReg (R.PWR_TEMP d.val) (BitVec.ofNat 32 x.val)).fld R.PWR_TWARN
              F.PWR_TWARN_TWARN : Nat) : Int)))).takeVerdicts))
    ∧ (∃ t, exec .xt32Stopped s = .next t ∧ t.pwr.xt32 = true ∧ t.flag R.PWR_SUP F.PWR_SUP_XT32 = true
        ∧ t.flt.lines.contains (13, instHub) = true)

/-- R430 to R437: a power request from PWR_REQ starts its change when it names a new level or mode and no cause of Table 16.4
stands against it, is refused with the cause otherwise, does nothing when it names what is in effect, and waits in the one slot
while a change is in progress. The order of the causes is in part the model's reading (log 39). -/
def Obligations.PowerRequestRows : Prop :=
  ∀ s : State, s.awake = true → ∀ v : Word,
    (∀ k, bitsOf v.toNat 9 8 = k → (k = 1 ∨ (k = 2 ∧ bitsOf v.toNat 1 0 ≤ 2)) →
      ∀ c ∈ [Instr.pwrReqLevel v, .pwrReqMode v],
        (s.pwr.change.isSome = true → ∃ t, exec c s = .next t ∧ t.pwr.waiting = some (k, bitsOf v.toNat 1 0, 2)
          ∧ t.pwr.change = s.pwr.change)
        ∧ (s.pwr.change = none → (s.writeFlds R.PWR_REQ pwrReqFlds v).powerIs k (bitsOf v.toNat 1 0) = true →
          exec c s = .next (s.writeFlds R.PWR_REQ pwrReqFlds v))
        ∧ (∀ cause, s.pwr.change = none → (s.writeFlds R.PWR_REQ pwrReqFlds v).powerIs k (bitsOf v.toNat 1 0) = false →
          (s.writeFlds R.PWR_REQ pwrReqFlds v).powerCause k (bitsOf v.toNat 1 0) = some cause →
          exec c s = .next ((s.writeFlds R.PWR_REQ pwrReqFlds v).refusePower k (bitsOf v.toNat 1 0) cause))
        ∧ (s.pwr.change = none → (s.writeFlds R.PWR_REQ pwrReqFlds v).powerIs k (bitsOf v.toNat 1 0) = false →
          (s.writeFlds R.PWR_REQ pwrReqFlds v).powerCause k (bitsOf v.toNat 1 0) = none →
          ∃ t, exec c s = .next t ∧ t.pwr.change = some ⟨k, bitsOf v.toNat 1 0, 2, s.lt, false⟩
            ∧ (k = 1 → t.flag R.PWR_STAT F.PWR_STAT_TRANS = true)))

/-- R431, R433, R435, R437, R442: how a change of level or mode ends, and the rows beside it. A change of level that completes
gives PWR_STAT.PL and the caps of the level; one to Doze leaves MODE 1 at level 0, and one back to Run MODE 0 at the level RUNPL
kept, with no spare held powered; a request that waited in the slot then leaves it, and does nothing where it names what has
been reached, is refused with a cause of Table 16.4, or begins; Hush is reached when its change completes and no wake event was
latched; a change past its bound is marked once and goes on; a spare powered in Doze becomes available; Headstock takes commands
after its start, which also ends the mark of its watchdog (the model's reading, logs 27 and 94). R437, R440: entry into Hush
writes both copies of the wake record, and both pass their signatures and hold the same words. -/
def Obligations.PowerChangeRows : Prop :=
  (∀ s : State, s.awake = true →
      (∀ c, s.pwr.change = some c → c.kind = 1 → s.pwr.waiting = none → ∃ t, exec .powerChangeDone s = .next t
          ∧ t.pwr.change = none ∧ t.fld R.PWR_STAT F.PWR_STAT_PL = c.value % 2 ^ (F.PWR_STAT_PL.hi - F.PWR_STAT_PL.lo + 1)
          ∧ t.reg R.PRC_CAP = BitVec.ofNat 32 (600000 * (c.value + 1))
          ∧ t.reg R.GGE_CAP = BitVec.ofNat 32 (12000 * (c.value + 1)))
      ∧ (∀ c, s.pwr.change = some c → c.kind = 2 → c.value = 1 → s.pwr.waiting = none → ∃ t, exec .powerChangeDone s = .next t
          ∧ t.pwr.change = none ∧ t.fld R.PWR_STAT F.PWR_STAT_MODE = 1 ∧ t.fld R.PWR_STAT F.PWR_STAT_PL = 0 ∧ t.pwr.doze = s.pwr.doze)
      ∧ (∀ c, s.pwr.change = some c → c.kind = 2 → c.value = 0 → s.pwr.waiting = none → ∃ t, exec .powerChangeDone s = .next t
          ∧ t.pwr.change = none ∧ t.fld R.PWR_STAT F.PWR_STAT_MODE = 0
          ∧ t.fld R.PWR_STAT F.PWR_STAT_PL = s.fld R.PWR_STAT F.PWR_STAT_RUNPL ∧ t.pwr.doze = false ∧ t.pwr.powered = []
          ∧ t.reg R.PRC_CAP = BitVec.ofNat 32 (600000 * (s.fld R.PWR_STAT F.PWR_STAT_RUNPL + 1)))
      ∧ (∀ c kind value entry u v, s.pwr.change = some c → ¬(c.kind = 2 ∧ c.value = 2) → s.pwr.waiting = some (kind, value, entry) →
          u = s.powerReached c →
          v = ((({ u with pwr := { u.pwr with waiting := none } }).setFlag R.PWR_STAT F.PWR_STAT_PENDV false).setFlag R.PWR_STAT
            F.PWR_STAT_PKIND false).setFld R.PWR_STAT F.PWR_STAT_PVAL 0 →
          (v.powerIs kind value = true → exec .powerChangeDone s = .next v)
          ∧ (∀ cause, v.powerIs kind value = false → v.powerCause kind value = some cause →
            exec .powerChangeDone s = .next (v.refusePower kind value cause))
          ∧ (v.powerIs kind value = false → v.powerCause kind value = none →
            ∃ t, exec .powerChangeDone s = .next t ∧ t.pwr.waiting = none ∧ ∃ at0, t.pwr.change = some ⟨kind, value, entry, at0, false⟩))
      ∧ (∀ c, s.pwr.change = some c → c.kind = 2 → c.value = 2 → s.pwr.wakeCause = 0 → ∃ t, exec .powerChangeDone s = .next t
          ∧ t.pwr.hush = true ∧ t.pwr.change = none ∧ t.pwr.bank0 = s.pwr.bank0 ∧ t.awake = false)
      ∧ (∀ c, s.pwr.change = some c → c.late = false → ∃ t, exec .powerChangeTimeout s = .next t
          ∧ t.pwr.change = some { c with late := true })
      ∧ (∀ (c : Fin 48) p, s.pwr.powering.find? (fun p => decide (p.1 = c.val)) = some p → ∃ t, exec (.spareAvailable c) s = .next t
          ∧ t.pwr.powering = s.pwr.powering.erase p ∧ ∃ at0, t.pwr.powered = s.pwr.powered ++ [(c.val, at0)])
      ∧ (s.flt.started = true → ∃ t, exec .headstockStartDone s = .next t ∧ t.flt.started = true ∧ t.flt.restarting = false
          ∧ t.flt.wdLate = false ∧ t.hsReady = true)
      ∧ (s.flt.started = false → s.pwr.cause ≠ 8 → s.fld R.PWR_WREC F.PWR_WREC_WRSTAT = 0 →
          ∃ t, exec .headstockStartDone s = .next t ∧ t.hsReady = true))
  ∧ (∀ (s : State) (entry : Nat), (s.hushEntry entry).bankOk = (true, true)
      ∧ (s.hushEntry entry).pwr.bank0.take 15 = (s.hushEntry entry).pwr.bank1.take 15
      ∧ (s.hushEntry entry).bankUsed = (some 0, 1) ∧ (s.hushEntry entry).pwr.bank0.length = 16)

/-- R35, R37, R51: the words that cross a die link. A good idle word counts and is not acknowledged; a good word of another type
arrives by its own row. A bad one is answered with a NAK that names the expected word; good words sent behind it are discarded;
a replay that fails is asked for again, and the eighth failed attempt takes the link down. A good NAK has HD send the words from
the named one on out of its replay buffer, each with its own sequence number, and one that asks for a word the eighth time takes
the link down; a good ACK confirms the words up to the named one; a link that is down gets an idle word; the grid mark names the
next 10-second boundary to every die whose link is up, and each boundary once; words of other types that are good are
acknowledged. The model's choice (log 65, DESIGN CHOICE): every good word but idle words and acknowledges is acknowledged, words
behind a bad one are known by a CRC that fits a later sequence number, every other bad word is a failed attempt, and the idle
word of a retry has sequence number 0. -/
def Obligations.DieLinkWordRows : Prop :=
  ∀ s : State, s.awake = true →
    (∀ (d : Fin 4) (typ crc : Fin 256) (p : BitVec 64), s.dieUp d.val = true →
      (s.dieGood d.val 0x3F p.toNat crc.val = true → ∃ t, exec (.dieLinkBadWord d 0x3F p crc) s = .next t
          ∧ (t.dl d.val).rxSeq = ((s.dl d.val).rxSeq + 1) % 256 ∧ (t.dl d.val).discarding = false ∧ (t.dl d.val).fails = 0
          ∧ t.out = s.out)
      ∧ (s.dieGood d.val typ.val p.toNat crc.val = true → typ.val ≠ 0x3F → exec (.dieLinkBadWord d typ p crc) s = .next s)
      ∧ (s.dieGood d.val typ.val p.toNat crc.val = false → s.dieBehind d.val typ.val p.toNat crc.val = false →
        (s.dl d.val).fails < 7 → ∃ t, exec (.dieLinkBadWord d typ p crc) s = .next t
          ∧ (t.dl d.val).discarding = true ∧ (t.dl d.val).fails = (s.dl d.val).fails + 1
          ∧ (t.dl d.val).rxSeq = (s.dl d.val).rxSeq
          ∧ t.out = s.out ++ [.dieWord d.val 0x22 (s.dl d.val).rxSeq (dieCrc (s.dl d.val).txSeq 0x22 (s.dl d.val).rxSeq)])
      ∧ (s.dieGood d.val typ.val p.toNat crc.val = false → s.dieBehind d.val typ.val p.toNat crc.val = false →
        7 ≤ (s.dl d.val).fails → ∃ t, exec (.dieLinkBadWord d typ p crc) s = .next t
          ∧ t.flag (R.DLK_STAT d.val) F.DLK_STAT_UP = false)
      ∧ (s.dieGood d.val typ.val p.toNat crc.val = false → s.dieBehind d.val typ.val p.toNat crc.val = true →
        exec (.dieLinkBadWord d typ p crc) s = .next s))
    ∧ (∀ (d : Fin 4) (seq crc : Fin 256) n, s.dieUp d.val = true → s.dieGood d.val 0x22 seq.val crc.val = true →
        n = (if (s.dl d.val).nakSeq = seq.val then (s.dl d.val).attempts + 1 else 1) →
        (n < 8 → ∃ t, exec (.dieLinkNakRx d ⟨seq, crc⟩) s = .next t ∧ (t.dl d.val).attempts = n ∧ (t.dl d.val).nakSeq = seq.val
          ∧ t.out = s.out ++ ((s.dl d.val).replay.drop
            ((seq.val + 256 - ((s.dl d.val).txSeq + 256 - (s.dl d.val).replay.length) % 256) % 256)).mapIdx
              (fun i w => .dieWord d.val w.1 w.2 (dieCrc ((seq.val + i) % 256) w.1 w.2)))
        ∧ (8 ≤ n → ∃ t, exec (.dieLinkNakRx d ⟨seq, crc⟩) s = .next t ∧ t.flag (R.DLK_STAT d.val) F.DLK_STAT_UP = false))
    ∧ (∀ (d : Fin 4) (seq crc : Fin 256), s.dieUp d.val = true → s.dieGood d.val 0x21 seq.val crc.val = true →
        ∃ t, exec (.dieLinkAckRx d ⟨seq, crc⟩) s = .next t
        ∧ (t.dl d.val).attempts = 0 ∧ (t.dl d.val).acked = seq.val
        ∧ (∀ k, k = (seq.val + 256 - ((s.dl d.val).txSeq + 256 - (s.dl d.val).replay.length) % 256) % 256 →
            k < (s.dl d.val).replay.length → (t.dl d.val).replay = (s.dl d.val).replay.drop (k + 1)))
    ∧ (∀ d : Fin 4, s.flag (R.DLK_STAT d.val) F.DLK_STAT_UP = false → ∃ t, exec (.dieLinkRetry d) s = .next t
        ∧ t.out = s.out ++ [.dieWord d.val 0x3F 0 (dieCrc 0 0x3F 0)])
    ∧ (s.spn.refclk = true → ∃ t, exec .gridMark s = .next t ∧ t.spn.gridDue = false
        ∧ (∀ d < 4, s.dieUp d = true → (t.dl d).grid = stOf s.gridDueAt.1)
        ∧ (s.spn.gridDue = false → t.spn.gridSent = s.gridDueAt.1 ∧ t.gridDueAt.1 ≠ s.gridDueAt.1))
    ∧ (∀ d typ, s.dieUp d = true → typ ≠ 0x21 → typ ≠ 0x22 → typ ≠ 0x3F →
        (s.dieTake d typ).out = s.out ++ [.dieWord d 0x21 (s.dl d).rxSeq (dieCrc (s.dl d).txSeq 0x21 (s.dl d).rxSeq)]
        ∧ ((s.dieTake d typ).dl d).rxSeq = ((s.dl d).rxSeq + 1) % 256 ∧ ((s.dieTake d typ).dl d).discarding = false)

/-- R37, R38, R157, R387: the state of a die link and what comes up it. At its loss reads end, the registers of the die are kept
as its shadow as they showed (derived bits too, and the status registers whose event word has not come as HD knew them), writes
that have not reached the die wait, the loss is counted and source 184 + d is raised; at link-up the words that had not arrived
and the waiting writes follow in order; when the die restarted, the waiting writes alone follow the rewrite of the
configuration, which holds what the words on their way said (both the model's choice, log 65, DESIGN CHOICE). A good read
response is the answer of a pending read; a good event word becomes a sequencer record and a good fault report an event of its
source; a word that is not good has none of these effects, and nothing comes up a link that is down. What waits over the loss of
a link, and the instant of an event word without a match, are the model's reading (logs 21, 22 and 25). -/
def Obligations.DieLinkStateRows : Prop :=
  ∀ s : State, s.awake = true →
    (∀ (d : Fin 4) (u : State), s.flag (R.DLK_STAT d.val) F.DLK_STAT_UP = true →
        u = ((s.dieFreeze d.val).setFlag (R.DLK_STAT d.val) F.DLK_STAT_UP false).bump (R.DLK_STAT d.val) F.DLK_STAT_DOWNCNT →
        exec (.dieLinkDown d) s = .next ((u.setDl d.val { u.dl d.val with reads := [] }).event (184 + d.val) instHub 0)
        ∧ (s.spn.refclk = true → (u.dl d.val).shadow = s.dieView d.val)
        ∧ (s.spn.refclk = false → (u.dl d.val).shadow = (s.dl d.val).shadow)
        ∧ (∀ g < 2, (s.rg (2 * d.val)).lag = [] → (s.rg (2 * d.val + 1)).lag = [] →
            bitsOf (tabGet resetWord (s.dieView d.val) (R.RGN_STAT (2 * d.val + g))).toNat F.RGN_STAT_MHOLD.hi F.RGN_STAT_MHOLD.lo
              = b2n (s.mains.hold && s.rgMains (2 * d.val + g)))
        ∧ ∀ a, feAddr d.val a = true →
            (s.dieDerived d.val ++ (s.rg (2 * d.val)).lag ++ (s.rg (2 * d.val + 1)).lag).all (fun p => decide (p.1 ≠ a)) = true →
            tabGet resetWord (s.dieView d.val) a = s.reg a)
    ∧ (∀ d : Fin 4, s.spn.refclk = true → s.flag (R.DLK_STAT d.val) F.DLK_STAT_UP = false →
        ∃ t, exec (.dieLinkUp d false) s = .next t ∧ t.dieUp d.val = true ∧ (t.dl d.val).queued = []
          ∧ (t.dl d.val).toFe = (s.dl d.val).toFe ++ (s.dl d.val).queued ∧ (t.dl d.val).shadow = []
          ∧ t.out = s.out ++ ((s.dl d.val).toFe ++ (s.dl d.val).queued).mapIdx
              (fun i w => .dieWord d.val 0x10 (w.1 * 2 ^ 32 + w.2.toNat) (dieCrc (i % 256) 0x10 (w.1 * 2 ^ 32 + w.2.toNat))))
    ∧ (∀ (d : Fin 4) (u : State), s.spn.refclk = true → s.flag (R.DLK_STAT d.val) F.DLK_STAT_UP = false →
        u = (((s.setFlag (R.DLK_STAT d.val) F.DLK_STAT_UP true).setDl d.val { s.dl d.val with
          everUp := true, txSeq := 0, rxSeq := 1, discarding := false, fails := 0, attempts := 0, replay := [], acked := 0,
          queued := [], toFe := [], shadow := [] }).setFlag (R.DLK_STAT d.val) F.DLK_STAT_RESTART true).dieRestart d.val →
        exec (.dieLinkUp d true) s
          = .next ((u.setDl d.val { u.dl d.val with toFe := (u.dl d.val).toFe ++ (s.dl d.val).queued }).forEach
              (s.dl d.val).queued (fun s w => s.dieWrite d.val w)))
    ∧ (∀ (d : Fin 4) a (v : Word) (crc : Fin 256), s.dieUp d.val = true →
        s.dieGood d.val 0x04 (a * 2 ^ 32 + v.toNat) crc.val = true → a ∈ (s.dl d.val).reads →
        ∃ t, exec (.dieLinkReadResponse d a ⟨v, crc⟩) s = .next t
        ∧ t.bus = ⟨v.toNat, 0, []⟩ ∧ (t.dl d.val).reads = (s.dl d.val).reads.erase a)
    ∧ (∀ (d : Fin 4) (p : BitVec 64) (crc : Fin 256) g u, s.dieUp d.val = true → s.dieGood d.val 0x02 p.toNat crc.val = true →
        g = 2 * d.val + bitsOf p.toNat 59 59 →
        u = (s.dieTake d.val 0x02).shownNow g (eventRegs g (bitsOf p.toNat 55 48)) →
        ((u.rg g).events.find? (fun e => decide (e.1 = p.toNat)) = none →
          exec (.sequencerEventWord d ⟨p, crc⟩) s = .next (u.seqRecord g (u.rg g).edge p.toNat))
        ∧ (∀ e, (u.rg g).events.find? (fun e => decide (e.1 = p.toNat)) = some e → exec (.sequencerEventWord d ⟨p, crc⟩) s
            = .next ((u.setRg g { u.rg g with events := (u.rg g).events.erase e }).seqRecord g e.2 p.toNat)))
    ∧ (∀ (d : Fin 4) (p : BitVec 64) (crc : Fin 256), s.dieUp d.val = true → s.dieGood d.val 0x03 p.toNat crc.val = true →
        exec (.faultReportWord d ⟨p, crc⟩) s
        = .next ((s.dieTake d.val 0x03).event (bitsOf p.toNat 63 56)
            (feInstance d.val (bitsOf p.toNat 63 56) (bitsOf p.toNat 55 48)) (bitsOf p.toNat 47 0)))
    ∧ (∀ (d : Fin 4) (typ : Nat) (p : BitVec 64) (crc : Fin 256) (c : Instr),
        (typ = 0x02 ∧ c = .sequencerEventWord d ⟨p, crc⟩) ∨ (typ = 0x03 ∧ c = .faultReportWord d ⟨p, crc⟩) →
        (s.dieUp d.val = true → s.dieGood d.val typ p.toNat crc.val = false → exec c s = .next (s.dieBad d.val typ p.toNat crc.val))
        ∧ (s.dieUp d.val = false → exec c s = .next s))

/-- R106 to R111, R60: starting and stopping a region. A write of RGN_CTRL crosses the die link behind the writes before it and
acts when it arrives; over a link that is down it waits. A START that no cause of Table 4.3 stands against makes the region
PENDING, with WHEN = 0 from 1 ms ahead; one that is refused shows a cause, which is 4 when REFCLK is absent and nothing of lower
number stands against it; STOP, also beside START, asks a converting region to end from 2 us ahead and stops a pending one at
once; a start that waited for a step is checked at the step's end; window 0 opens at the start point. The model's choices: that
a write acts at once over a link that is up with nothing on its way (log 20, DESIGN CHOICE), and also without REFCLK (log 15),
that of several causes the lowest-numbered shows (log 72, DESIGN CHOICE), and that the 1 ms of a start that waited run from the
end of the step (log 107). -/
def Obligations.RegionRows : Prop :=
  ∀ s : State, s.awake = true → ∀ (g : Fin 8) (v : Word) (d : Nat), d = dieOf g.val →
    (s.spn.refclk = true → ∀ c ∈ [Instr.rgnCtrlStart g v, .rgnCtrlStop g v],
      exec c s = .next (if (s.writeFe (R.RGN_CTRL g.val) rgnCtrlFlds v).dieUp d = true
        then (s.writeFe (R.RGN_CTRL g.val) rgnCtrlFlds v).feFlush d else s.writeFe (R.RGN_CTRL g.val) rgnCtrlFlds v))
    ∧ (s.spn.refclk = false → ∀ c ∈ [Instr.rgnCtrlStart g v, .rgnCtrlStop g v],
      exec c s = .next ((s.writeFlds (R.RGN_CTRL g.val) rgnCtrlFlds v).rgnCtrlAct g.val v))
    ∧ (s.spn.refclk = false → s.rgMains g.val = false → lenOk (s.rgLen g.val) = true →
      s.flag (R.RGN_CTRL g.val) F.RGN_CTRL_WHEN = false → s.rgnStartCause g.val = some 4)
    ∧ (∀ w u : State, s.dieUp d = true → (s.dl d).toFe = [] → w = s.writeFe (R.RGN_CTRL g.val) rgnCtrlFlds v →
      u = (w.setDl d { w.dl d with toFe := [] }).setRg g.val { w.rg g.val with afterStep := false } →
      (v.toNat.testBit 1 = false → v.toNat.testBit 0 = true → s.rgState g.val = rgStopped → s.spn.stepUntil ≤ s.lt →
        u.rgnStartCause g.val = none →
        ∃ t, exec (.rgnCtrlStart g v) s = .next t ∧ t.rgState g.val = rgPending ∧ (t.rg g.val).restart = false
          ∧ (v.toNat.testBit F.RGN_CTRL_WHEN.lo = false → (t.rg g.val).earliest = s.lt + 1000000 * nsU))
      ∧ (∀ cause, v.toNat.testBit 1 = false → v.toNat.testBit 0 = true → s.rgState g.val = rgStopped → s.spn.stepUntil ≤ s.lt →
        u.rgnStartCause g.val = some cause → exec (.rgnCtrlStart g v) s = .next (u.refuseStart g.val cause))
      ∧ (v.toNat.testBit 1 = false → v.toNat.testBit 0 = true → s.rgState g.val = rgStopped → s.lt < s.spn.stepUntil →
        ∃ t, exec (.rgnCtrlStart g v) s = .next t ∧ (t.rg g.val).afterStep = true ∧ t.rgState g.val = rgStopped)
      ∧ (v.toNat.testBit 1 = true → s.rgState g.val = rgConverting → ∃ t, exec (.rgnCtrlStop g v) s = .next t
          ∧ t.rgState g.val = rgStopPending ∧ (t.rg g.val).stopAfter = s.lt + 2000 * nsU)
      ∧ (v.toNat.testBit 1 = true → s.rgState g.val = rgPending → exec (.rgnCtrlStop g v) s
          = .next ((u.lossOff g.val).regionStopped g.val)))
    ∧ ((s.rg g.val).afterStep = true → s.rgState g.val = rgStopped → exec (.startAfterStep g) s
        = .next ((s.moveTo s.spn.stepUntil).checkStart g.val))
    ∧ (∀ at0, s.rgState g.val = rgPending → (s.rg g.val).restart = false → s.spn.refclk = true →
        s.startPoint g.val (max (s.rg g.val).earliest s.lt) = some at0 →
        exec (.regionStartPoint g) s = .next (s.startRegion g.val at0))

/-- R39, R38: the oldest register write on its way to a die leaves the way and arrives; one that waits for no boundary takes
effect at once, one that affects conversion waits for its boundary unless the region is STOPPED. A write of CLU_EXC_CTRL goes on
its way to its die as a word of the link; over a link that is down it is queued, and once 64 wait it is discarded and counted in
WDROP. A CLR_SHUT written while the bit still reads 1 leaves the word (Table 17.8). R113, R115: the mains estimator. The first
edge is remembered; an edge whose interval lies between 1/65 s and 1/45 s is accepted while fewer than eight have been; with no
edge accepted for 100 ms the estimate holds, and eight accepted intervals in a row end the hold. That only the registers named
act on arrival is the model's reading (log 20); an edge too late for an interval is the model's choice (log 54). -/
def Obligations.FeAndMainsRows : Prop :=
  (∀ s : State, s.awake = true →
      (∀ (d : Fin 4) w rest, (s.dl d.val).toFe = w :: rest → s.dieUp d.val = true → exec (.feRegisterWriteArrival d) s
          = .next ((s.setDl d.val { s.dl d.val with toFe := rest }).feArrive w.1 w.2))
      ∧ (∀ (d : Fin 4) a v rest, (s.dl d.val).toFe = (a, v) :: rest → s.dieUp d.val = true →
          a ≠ R.RGN_CTRL (regionOfAddr a) → a ≠ R.RGN_SEQ_CTRL (regionOfAddr a) → a < 0x01800000 →
          (feWaits a = false → ∃ t, exec (.feRegisterWriteArrival d) s = .next t ∧ t.actReg a = v ∧ (t.dl d.val).toFe = rest)
          ∧ (feWaits a = true → s.rgState (regionOfAddr a) ≠ rgStopped → ∃ t, exec (.feRegisterWriteArrival d) s = .next t
              ∧ (t.rg (regionOfAddr a)).waiting = (s.rg (regionOfAddr a)).waiting ++ [(a, v, s.lt)] ∧ t.act = s.act
              ∧ (t.dl d.val).toFe = rest))
      ∧ (∀ (c : Fin 48) (v : Word), (s.clrWaits c.val = false → s.feWord (R.CLU_EXC_CTRL c.val) v = v)
          ∧ (s.clrWaits c.val = true → (s.feWord (R.CLU_EXC_CTRL c.val) v).toNat.testBit 5 = false
              ∧ ∀ i < 32, i ≠ 5 → (s.feWord (R.CLU_EXC_CTRL c.val) v).toNat.testBit i = v.toNat.testBit i))
      ∧ (∀ (c : Fin 48) (v w : Word), w = s.feWord (R.CLU_EXC_CTRL c.val) v → s.dieUp (c.val / 12) = true →
          ∃ t, exec (.cluExcCtrlClrShut c v) s = .next t
          ∧ (t.dl (c.val / 12)).toFe = (s.dl (c.val / 12)).toFe ++ [(R.CLU_EXC_CTRL c.val, w)]
          ∧ t.out = s.out ++ [.dieWord (c.val / 12) 0x10 (R.CLU_EXC_CTRL c.val * 2 ^ 32 + w.toNat)
              (dieCrc (s.dl (c.val / 12)).txSeq 0x10 (R.CLU_EXC_CTRL c.val * 2 ^ 32 + w.toNat))]
          ∧ t.fld (R.CLU_EXC_CTRL c.val) F.CLU_EXC_CTRL_POL = bitsOf v.toNat F.CLU_EXC_CTRL_POL.hi F.CLU_EXC_CTRL_POL.lo)
      ∧ (∀ (c : Fin 48) (v : Word), s.dieUp (c.val / 12) = false → (s.dl (c.val / 12)).queued.length < 64 →
          ∃ t, exec (.cluExcCtrlClrShut c v) s = .next t ∧ t.out = s.out
          ∧ (t.dl (c.val / 12)).queued = (s.dl (c.val / 12)).queued ++ [(R.CLU_EXC_CTRL c.val, s.feWord (R.CLU_EXC_CTRL c.val) v)]
          ∧ (t.dl (c.val / 12)).toFe = (s.dl (c.val / 12)).toFe)
      ∧ (∀ (c : Fin 48) (v : Word), s.dieUp (c.val / 12) = false → 64 ≤ (s.dl (c.val / 12)).queued.length →
          exec (.cluExcCtrlClrShut c v) s = .next (s.bumpBy (R.DLK_STAT (c.val / 12)) F.DLK_STAT_WDROP 1)))
  ∧ (∀ s : State, s.awake = true →
      (∀ ph, s.spn.refclk = true → s.mains.last = none → ∃ t, exec (.mainsEdge ph) s = .next t
          ∧ t.mains.last = some (stampOf s.lt ph.val) ∧ t.mains.holdRun = 0 ∧ t.mains.intervals = s.mains.intervals)
      ∧ (∀ ph l, s.spn.refclk = true → s.mains.last = some l → secU ≤ 65 * (stampOf s.lt ph.val - l) →
          45 * (stampOf s.lt ph.val - l) ≤ secU → s.mains.accepted < 8 → ∃ t, exec (.mainsEdge ph) s = .next t
          ∧ t.mains.last = some (stampOf s.lt ph.val) ∧ t.mains.acceptedAt = some (stampOf s.lt ph.val)
          ∧ t.mains.accepted = s.mains.accepted + 1 ∧ t.mains.holdRun = s.mains.holdRun + 1)
      ∧ (∀ ph l, s.spn.refclk = true → s.mains.last = some l → 65 * (stampOf s.lt ph.val - l) < secU →
          ∃ t, exec (.mainsEdge ph) s = .next t ∧ t.mains.last = some l ∧ t.mains.acceptedAt = s.mains.acceptedAt
          ∧ t.mains.intervals = s.mains.intervals ∧ t.mains.holdRun = 0)
      ∧ (∀ l, s.mains.acceptedAt = some l → s.mains.hold = false → s.mains.period.isSome = true → s.spn.refclk = true →
          ∃ t, exec .mainsHold s = .next t ∧ t.mains.hold = true ∧ t.mains.holdRun = 0 ∧ t.mains.period = s.mains.period)
      ∧ (s.mains.hold = true → 8 ≤ s.mains.holdRun → ∃ t, exec .mainsHoldEnd s = .next t ∧ t.mains.hold = false
          ∧ t.mains.period = mainsMean s.mains.intervals))

/-- R81, R87 to R94: what the analogue conditions of the excitation do. Each condition shows in its flag and its source line as
its rule says; limiting for the set time shuts the driver down, which then is off and shows neither limit nor dropout; the
automatic reversal inverts the polarity its boundary found and begins a new count, and is overridden by a write of EN = 0 for
the boundary; the end of a ramp and of a settle period clear their marks; the measured means stand in their registers. What an
overridden reversal and the boundary of a stop do to the count is the model's choice (log 104). -/
def Obligations.ExcitationRows : Prop :=
  ∀ s : State, s.awake = true →
    (∀ p on, s.flt.lines.contains (refSource p) = on → exec (.referenceDeviation p on) s = .next s)
    ∧ (∀ p, s.flt.lines.contains (refSource p) = false → exec (.referenceDeviation p true) s
        = .next ((s.forEach (refClusters p) (fun s c => s.onset c (refSource p).1)).setLine (refSource p).1 (refSource p).2 true))
    ∧ (∀ p, s.flt.lines.contains (refSource p) = true → exec (.referenceDeviation p false) s
        = .next ((s.forEach (refClusters p) (fun s c => s.onset c ((refSource p).1 + 1000))).setLine (refSource p).1 (refSource p).2
            false))
    ∧ (∀ (c : Fin 48) on, s.actFlag (R.CLU_EXC_CTRL c.val) F.CLU_EXC_CTRL_SENSE = false → exec (.senseOpen c on) s
        = .next ((s.setFlag (R.CLU_EXC_STAT c.val) F.CLU_EXC_STAT_SOPEN on).cluLine 35 c.val on))
    ∧ (∀ c : Fin 48, s.excOn c.val = true → s.flag (R.CLU_EXC_STAT c.val) F.CLU_EXC_STAT_ILIM = false →
        exec (.excRegulationFault c true) s = .next (s.cluLine 36 c.val true))
    ∧ (∀ c : Fin 48, s.excOn c.val = true → exec (.excDropout c true) s
        = .next ((s.setFlag (R.CLU_EXC_STAT c.val) F.CLU_EXC_STAT_DROP true).cluLine 34 c.val true))
    ∧ (∀ (g : Fin 8) c, c ∈ clusOf g.val → s.actFlag (R.CLU_EXC_CTRL c) F.CLU_EXC_CTRL_EN = true →
        exec (.vexcLow g true) s = .next (s.setLine 37 g.val true))
    ∧ (∀ c : Fin 48, s.excOn c.val = true → s.flt.lines.contains (32, c.val) = false →
        exec (.excCurrentLimit c .long) s = .next ((((s.bump (R.CLU_EXC_STAT c.val) F.CLU_EXC_STAT_LIMCNT).setFlag
          (R.CLU_EXC_STAT c.val) F.CLU_EXC_STAT_ILIM true)).setLine 32 c.val true))
    ∧ (∀ c : Fin 48, s.excOn c.val = true → exec (.excCurrentLimit c .active) s
        = .next (s.setFlag (R.CLU_EXC_STAT c.val) F.CLU_EXC_STAT_ILIM true))
    ∧ (∀ c : Fin 48, exec (.excCurrentLimit c .off) s
        = .next ((s.setFlag (R.CLU_EXC_STAT c.val) F.CLU_EXC_STAT_ILIM false).setLine 32 c.val false))
    ∧ (∀ c : Fin 48, s.excOn c.val = true → s.flag (R.CLU_EXC_STAT c.val) F.CLU_EXC_STAT_ILIM = true →
        s.flt.lines.contains (32, c.val) = true →
        s.actFld (R.CLU_EXC_CTRL c.val) F.CLU_EXC_CTRL_ILIM_T ≠ 0 → exec (.excShutdown c) s
        = .next ((((s.excOff c.val).setFlag (R.CLU_EXC_STAT c.val) F.CLU_EXC_STAT_SHUT true).cluLine 33 c.val true).excOpen
            c.val))
    ∧ (∀ c : Nat, c < 48 → (s.excOff c).excOn c = false ∧ (s.excOff c).excRamp c = false ∧ (s.excOff c).excPol c = s.excPol c
        ∧ (s.excOff c).flag (R.CLU_EXC_STAT c) F.CLU_EXC_STAT_ILIM = false
        ∧ (s.excOff c).flag (R.CLU_EXC_STAT c) F.CLU_EXC_STAT_DROP = false)
    ∧ (∀ c : Fin 48, s.actFld (R.CLU_EXC_CTRL c.val) F.CLU_EXC_CTRL_ILIM_T = 0 → exec (.excShutdown c) s = .next s)
    ∧ (∀ c : Fin 48, s.runs (c.val / 6) = true → s.actFld (R.CLU_EXC_CTRL c.val) F.CLU_EXC_CTRL_ALT_PER ≠ 0 →
        s.actFld (R.CLU_EXC_CTRL c.val) F.CLU_EXC_CTRL_ALT_PER ≤ (s.cl c.val).bound.altCount →
        (s.cl c.val).bound.written = false → (s.cl c.val).bound.auto = false →
        ((s.cl c.val).bound.on = false ∨ s.actFlag (R.CLU_EXC_CTRL c.val) F.CLU_EXC_CTRL_EN = true) →
        ∃ t, exec (.excAutoReversal c) s = .next t ∧ t.excPol c.val = !(s.cl c.val).bound.pol ∧ (t.cl c.val).altCount = 0)
    ∧ (∀ c : Fin 48, (s.cl c.val).bound.on = true → s.actFlag (R.CLU_EXC_CTRL c.val) F.CLU_EXC_CTRL_EN = false →
        exec (.excAutoReversal c) s = .next s)
    ∧ (∀ c : Fin 48, ∃ t, exec (.excRampEnd c) s = .next t ∧ t.excRamp c.val = false ∧ t.excOn c.val = s.excOn c.val)
    ∧ (∀ c : Fin 48, (s.cl c.val).settleHeld = false → (s.cl c.val).settleLeft = 0 →
        ∃ t, exec (.settlePeriodEnd c) s = .next t ∧ (t.cl c.val).settleNow = false ∧ t.regs = s.regs)
    ∧ (∀ (c : Fin 48) (i v d h : Fin 65536), ∃ t, exec (.excMeasUpdate c i v d h) s = .next t
        ∧ (t.reg (R.CLU_EXC_MEAS c.val)).toNat = i.val * 65536 + v.val
        ∧ (t.reg (R.CLU_EXC_MEAS2 c.val)).toNat = d.val * 65536 + h.val)

/-- R136, R147, R155, R161, R170: the requests of operations. A request enters the queue of its region with its kind, priority 3
(retests 2) and origin, while the queue has room and holds no operation it merges with; substitutions and retests merge with
none; a request for a spare crosses its die link first; a full queue, here met by an impedance check, raises source 73; SETREF
copies the last measured resistance after a check that measured one. That a write acts at once over a link with nothing on its
way is the model's choice (log 20, DESIGN CHOICE). -/
def Obligations.SteadyRequestRows : Prop :=
  ∀ s : State, s.awake = true →
    (∀ (n : Fin 384) (v : Word) o, v.toNat.testBit 1 = true → v.toNat.testBit 2 = false → v.toNat.testBit 4 = false →
      o = (⟨.cal, n.val, 3, 0xFF, v.toNat.testBit 3⟩ : SteadyOp) → (s.rg (rgnOf n.val)).queue.any (fun q => q.merges o) = false →
      (s.rg (rgnOf n.val)).queue.length < 16 → ∃ t, exec (.chSteadyCtrlCalReq n v) s = .next t
        ∧ (t.rg (rgnOf n.val)).queue = (s.rg (rgnOf n.val)).queue ++ [o])
    ∧ (∀ (n : Fin 384) (v : Word) o, v.toNat.testBit 1 = false → v.toNat.testBit 2 = true → v.toNat.testBit 4 = false →
      o = (⟨.imp, n.val, 3, 0xFF, false⟩ : SteadyOp) → (s.rg (rgnOf n.val)).queue.any (fun q => q.merges o) = false →
      (s.rg (rgnOf n.val)).queue.length < 16 → ∃ t, exec (.chSteadyCtrlImpReq n v) s = .next t
        ∧ (t.rg (rgnOf n.val)).queue = (s.rg (rgnOf n.val)).queue ++ [o])
    ∧ (∀ (n : Fin 384) (v : Word) o, v.toNat.testBit 1 = false → v.toNat.testBit 2 = false → v.toNat.testBit 4 = true →
      (s.ch n.val).baseSpare.isSome = true → s.retesting false n.val = false →
      o = (⟨.retest, n.val, 2, 0xFF, true⟩ : SteadyOp) → (s.rg (rgnOf n.val)).queue.any (fun q => q.merges o) = false →
      (s.rg (rgnOf n.val)).queue.length < 16 → ∃ t, exec (.chSteadyCtrlRetest n v) s = .next t
        ∧ (t.rg (rgnOf n.val)).queue = (s.rg (rgnOf n.val)).queue ++ [o])
    ∧ (∀ (n : Fin 384) (v : Word) o u, v.toNat.testBit 1 = false → v.toNat.testBit 2 = true → v.toNat.testBit 4 = false →
      o = (⟨.imp, n.val, 3, 0xFF, false⟩ : SteadyOp) → (s.rg (rgnOf n.val)).queue.any (fun q => q.merges o) = false →
      16 ≤ (s.rg (rgnOf n.val)).queue.length → u = s.writeFlds (R.CH_STEADY_CTRL n.val) steadyCtrlFlds v →
      exec (.chSteadyCtrlImpReq n v) s = .next (u.sraise (rgnOf n.val) 73 (rgnOf n.val))
      ∧ ((s.rg (rgnOf n.val)).faults = none → exec (.chSteadyCtrlImpReq n v) s = .next (u.raise 73 (rgnOf n.val)))
      ∧ (∀ l, (s.rg (rgnOf n.val)).faults = some l → (s.queueOp o).2 = false
          ∧ ((u.sraise (rgnOf n.val) 73 (rgnOf n.val)).rg (rgnOf n.val)).faults = some (l ++ [(73, rgnOf n.val)])))
    ∧ (∀ (c : Fin 48) (v : Word) o, v.toNat.testBit 0 = true → v.toNat.testBit 1 = false → s.dieUp (dieOf (c.val / 6)) = true →
      (s.dl (dieOf (c.val / 6))).toFe = [] →
      o = (⟨.sprCal, c.val, 3, 0xFF, true⟩ : SteadyOp) → (s.rg (c.val / 6)).queue.any (fun q => q.merges o) = false →
      (s.rg (c.val / 6)).queue.length < 16 → ∃ t, exec (.sprCtrlCalReq c v) s = .next t
        ∧ (t.rg (c.val / 6)).queue = (s.rg (c.val / 6)).queue ++ [o])
    ∧ (∀ (c : Fin 48) (v : Word) o, v.toNat.testBit 0 = false → v.toNat.testBit 1 = true → s.dieUp (dieOf (c.val / 6)) = true →
      (s.dl (dieOf (c.val / 6))).toFe = [] → s.retesting true c.val = false →
      s.sprState c.val = spFailed → o = (⟨.sprRetest, c.val, 2, 0xFF, true⟩ : SteadyOp) →
      (s.rg (c.val / 6)).queue.any (fun q => q.merges o) = false → (s.rg (c.val / 6)).queue.length < 16 →
      ∃ t, exec (.sprCtrlRetest c v) s = .next t ∧ (t.rg (c.val / 6)).queue = (s.rg (c.val / 6)).queue ++ [o])
    ∧ (∀ (n : Fin 384) (v : Word), v.toNat.testBit 31 = true → 1 ≤ s.fld (R.CH_IMP_STAT n.val) F.CH_IMP_STAT_RES →
      s.fld (R.CH_IMP_STAT n.val) F.CH_IMP_STAT_RES ≤ 4 → ∃ t, exec (.chImpCfgSetref n v) s = .next t
        ∧ t.reg (R.CH_IMP_REF n.val) = s.reg (R.CH_IMP_R n.val))
    ∧ (∀ a b : SteadyOp, (a.kind = .subst ∨ a.kind = .retest ∨ a.kind = .sprRetest) → a.merges b = false ∧ b.merges a = false)

/-- R103, R125, R137, R143 to R148, R170: how calibrations and checks end. A calibration whose measurements are complete ends by
them, at the instant its packets add up to, unless it would outlast its timeout; a pass takes over the trims its searches found
and marks the converter as calibrated then; each search sets a bit unless the measurement shows an over-correction, and so finds
the code that separates the two. A first timeout, CAL_TMO after the first integration, waits for the self-test. A check that
passes is the channel's last good one, and its R and X are the last usable ones, which one with an overrange or a failed
generator leaves. An integrator that fails its check and a misaligned strobe mark their converters as failing; an overdue
calibration marks its channel; the schedulers go on from the position they took, by the period over the number of enabled
positions. What a timeout writes, and the rotation of the automatic scheduler, are in part the model's reading (logs 56 and 57).
-/
def Obligations.SteadyOutcomeRows : Prop :=
  ∀ s : State, s.awake = true →
    (∀ (k : Fin 432) m r, s.calOn k.val = some r →
      (s.calEnd k.val r m = none → exec (.calibrationDone k m) s = .next s)
      ∧ (∀ e, s.calEnd k.val r m = some e →
        (s.spn.refclk = false ∨ s.calDue k.val r < r.calAt + e.packets * pktU → exec (.calibrationDone k m) s = .next s)
        ∧ (s.spn.refclk = true → r.calAt + e.packets * pktU ≤ s.calDue k.val r →
          exec (.calibrationDone k m) s = .next (s.calEnds k.val r e)
          ∧ (e.res = calPass → ((s.calEnds k.val r e).cv k.val).calibrated = true
            ∧ ((s.calEnds k.val r e).cv k.val).lastPass = some (s.moveTo (r.calAt + e.packets * pktU)).always
            ∧ (isSpare k.val = false → r.op.kind.ofSpare = false → (s.calEnds k.val r e).reg (R.CH_TRIM (chanOf k.val) (s.calCode r))
                = BitVec.ofNat 32 (e.ofs * 2 ^ 20 + e.gain * 2 ^ 8))))))
    ∧ (∀ w x, x < 2 ^ w → trimSearch ((List.range w).map (fun i => !x.testBit (w - 1 - i))) = x)
    ∧ (∀ x < 4096, signed 12 (trimOf 12 x) = (x : Int) - 2048)
    ∧ (∀ (k : Fin 432) r, s.calOn k.val = some r → r.tries = 0 → s.spn.refclk = true → ∃ t, exec (.calTimeout k) s = .next t
      ∧ t.lt = max s.lt (s.calDue k.val r)
      ∧ (t.rg r.op.region).running = (s.rg r.op.region).running.map
          (fun q => if q.same r then { r with waitTest := true, tries := 1 } else q))
    ∧ (∀ (k : Fin 432) ref u, u = (((s.raise 80 k.val)).settleTests) → isSpare k.val = false →
      (u.ch (chanOf k.val)).baseSpare = none → (u.cv k.val).stopped = false → ref = false →
      ∃ t, exec (.integratorCheckDone k true ref) s = .next t
        ∧ (t.cv k.val).failing = true ∧ t.failed (chanOf k.val) = true)
    ∧ (∀ d : Fin 4, ∃ t, exec (.strobeMisaligned d) s = .next t
      ∧ ∀ i < 108, (t.cv (108 * d.val + i)).failing = true ∧ (t.cv (108 * d.val + i)).strobe = true)
    ∧ (∀ n : Fin 384, s.fld (R.RGN_STEADY_AUTO (rgnOf n.val)) F.RGN_STEADY_AUTO_CAL_PER ≠ 0 →
      ∃ t, exec (.calOverdue n) s = .next t ∧ (t.ch n.val).overdue = true)
    ∧ (∀ (n : Fin 384) m r, s.impOn n.val = some r → s.impCode n.val m = (1, 0) → s.spn.refclk = true →
      ∃ t, exec (.impedanceCheckDone n m) s = .next t ∧ (t.ch n.val).everGood = true
        ∧ (t.ch n.val).lastGoodLt = max s.lt (r.startLt + 102400 * pktU)
        ∧ (t.ch n.val).lastGoodR = m.r ∧ (t.ch n.val).usable = some (m.r, m.x))
    ∧ (∀ (n : Fin 384) m r, s.impOn n.val = some r → (m.ovr = true ∨ m.toneFail = true ∨ impBeyond m = true) →
      s.spn.refclk = true → ∃ t, exec (.impedanceCheckDone n m) s = .next t ∧ (t.ch n.val).usable = (s.ch n.val).usable
        ∧ (t.ch n.val).lastGoodR = (s.ch n.val).lastGoodR)
    ∧ (∀ (g : Fin 8) per e i, per = s.fld (R.RGN_STEADY_AUTO g.val) F.RGN_STEADY_AUTO_IMP_PER →
      e = s.rotCount g.val (List.range 48) → s.rgState g.val = rgConverting → per ≠ 0 → e ≠ 0 →
      s.rotNext g.val 48 (s.rg g.val).autoImpPos false = some i → ∃ t, exec (.autoScheduleImp g) s = .next t
        ∧ (t.rg g.val).autoImpPos = (i + 1) % 48 ∧ (t.rg g.val).autoImpAt = (s.rg g.val).autoImpAt + secU * per / 10 / e)
    ∧ (∀ (g : Fin 8) per e i, per = s.fld (R.RGN_STEADY_AUTO g.val) F.RGN_STEADY_AUTO_CAL_PER →
      e = s.rotCount g.val (List.range 54) → s.rgState g.val = rgConverting → per ≠ 0 → e ≠ 0 →
      s.rotNext g.val 54 (s.rg g.val).autoCalPos true = some i → ∃ t, exec (.autoScheduleCal g) s = .next t
        ∧ (t.rg g.val).autoCalPos = (i + 1) % 54 ∧ (t.rg g.val).autoCalAt = (s.rg g.val).autoCalAt + secU * per / e)

/-- R27, R37, R99, R100, R104, R110, R118, R162, R166: windows and their results. A good result word is judged against the
oldest window its converter is awaited for: one out of order, by WSEQ or INTB, and one of a converter with no window awaited,
raises source 82 and leaves its INTB for the next check; one in order whose COUNT lies outside the N decisions of the window, or
whose EVTW does not say whether a comparator started the window, is none that a die sends and has no effect (the model's choice,
as is that integrator A holds the even windows of a run: log 74); any other in order shows in CH_RAW_CNT and CH_RAW_RES, with
OVR also where its converter saw a clamp or a pin out of range, and goes to the intake, where an open wire counts under the
settings of its window. A window whose deadline passes gets an INVALID sample then; the edge of a region that is stopping ends
it, and a gap that runs counts that window; what the edge finds is raised together, by rising source and instance; a clearance
ends an open-wire declaration and asks for a check. -/
def Obligations.WindowRows : Prop :=
  ∀ s : State, s.awake = true →
    (∀ (d : Fin 4) (p : BitVec 64) (crc : Fin 256) k n u v w e count intb, k = 108 * d.val + bitsOf p.toNat 63 57 →
      u = s.settleTests → u.dieUp d.val = true → u.dieGood d.val 0x01 p.toNat crc.val = true → v = u.dieTake d.val 0x01 →
      bitsOf p.toNat 63 57 ≤ 107 → v.awaits k = some n → w = v.expire n →
      (w.ch n).expects.find? (fun e => decide (e.conv = k)) = some e →
      count = signed 23 (bitsOf p.toNat 47 25) → intb = p.toNat.testBit 52 →
      ((bitsOf p.toNat 56 53 = e.wseq % 16 → intb = e.wseq.testBit 0 → (w.cv k).lastIntb ≠ some intb →
        (e.npk < count.natAbs ∨ p.toNat.testBit 49 ≠ e.evt) → exec (.windowResult d ⟨p, crc⟩) s = .next w)
      ∧ ((bitsOf p.toNat 56 53 ≠ e.wseq % 16 ∨ intb ≠ e.wseq.testBit 0 ∨ (w.cv k).lastIntb = some intb) →
        exec (.windowResult d ⟨p, crc⟩) s = .next ((w.setCv k { w.cv k with lastIntb := some intb }).raise 82 k))
      ∧ (count.natAbs ≤ e.npk → p.toNat.testBit 49 = e.evt → bitsOf p.toNat 56 53 = e.wseq % 16 → intb = e.wseq.testBit 0 →
        (w.cv k).lastIntb ≠ some intb →
        (e.delivers = false → ∃ t, exec (.windowResult d ⟨p, crc⟩) s = .next t ∧ (t.ch n).expects = (w.ch n).expects.erase e
          ∧ t.regs = w.regs ∧ (t.cv k).lastIntb = some intb)
        ∧ (e.delivers = true → exec (.windowResult d ⟨p, crc⟩) s
            = .next (((((w.setCv k { w.cv k with lastIntb := some intb }).setCh n
              { w.ch n with expects := (w.ch n).expects.erase e }).setReg (R.CH_RAW_CNT n) (BitVec.ofInt 32 count)).setReg
                (R.CH_RAW_RES n) (BitVec.ofNat 32 (b2n (p.toNat.testBit 51 || e.ovr) * 2 ^ 18 + b2n intb * 2 ^ 17
                  + bitsOf p.toNat 24 11))).intake n e count (bitsOf p.toNat 24 11) (p.toNat.testBit 51 || e.ovr)
                    (p.toNat.testBit 50))))))
    ∧ (∀ (d : Fin 4) (p : BitVec 64) (crc : Fin 256) k u v, k = 108 * d.val + bitsOf p.toNat 63 57 →
      u = s.settleTests → u.dieUp d.val = true → v = u.dieTake d.val 0x01 →
      (u.dieGood d.val 0x01 p.toNat crc.val = false → exec (.windowResult d ⟨p, crc⟩) s
        = .next (u.dieBad d.val 0x01 p.toNat crc.val))
      ∧ (u.dieGood d.val 0x01 p.toNat crc.val = true → bitsOf p.toNat 63 57 ≤ 107 → v.awaits k = none →
        exec (.windowResult d ⟨p, crc⟩) s
          = .next ((v.setCv k { v.cv k with lastIntb := some (p.toNat.testBit 52) }).raise 82 k)))
    ∧ (∀ (n : Fin 384) e rest, (s.ch n.val).expects = e :: rest → e.delivers = true →
      exec (.resultDeadline n) s = .next ((s.moveTo e.due).noResult n.val))
    ∧ (∀ n : Fin 384, s.flag (R.CH_HLT_STAT n.val) F.CH_HLT_STAT_OPEN = true → (s.ch n.val).clearAt.isSome = true →
      exec (.openWireCleared n) s
        = .next ((s.setFlag (R.CH_HLT_STAT n.val) F.CH_HLT_STAT_OPEN false).requestOp ⟨.imp, n.val, 3, 0xFF, false⟩))
    ∧ (∀ (g : Fin 8) obs seen x u, s.runs g.val = true → s.spn.refclk = true →
      seen = obs.filter (fun (o : ConvObs) => decide (o.count.natAbs ≤ (s.rg g.val).npk)) →
      x = ((s.moveTo (s.rg g.val).next).settleTests).forEach (chansOf g.val)
        (fun u n => if (u.ch n).waiting = [] then u else u.expire n) →
      u = ((x.forEach (chansOf g.val) (fun u n => u.closeChan n (s.rg g.val).edge (s.rg g.val).next (s.rg g.val).npk
        (s.reg (R.RGN_WSEQ g.val)).toNat seen)).gather g.val (x.closeEvents g.val seen)).forEach (clusOf g.val)
          (fun u c => u.cluEdge c) →
      (u.rgState g.val = rgStopPending → (u.rg g.val).stopAfter ≤ (s.rg g.val).next → exec (.windowEdge g obs) s
        = .next (((((u.gapWindow g.val).setRg g.val { (u.gapWindow g.val).rg g.val with edge := (s.rg g.val).next }).keepWindow g.val
            ((s.reg (R.RGN_WSEQ g.val)).toNat + 1) (s.rg g.val).next).regionStopped g.val).raiseGathered g.val))
      ∧ (∀ v w, ¬(u.rgState g.val = rgStopPending ∧ (u.rg g.val).stopAfter ≤ (s.rg g.val).next) →
        v = u.openWindow g.val (s.rg g.val).next (((s.reg (R.RGN_WSEQ g.val)).toNat + 1) % 2 ^ 32) →
        w = (((v.feApplyAll g.val true ((v.rg g.val).waiting.filter
          (fun x => decide (x.2.2 + 2000 * nsU ≤ (s.rg g.val).next)))).hltApply g.val).forEach (chansOf g.val)
            (fun s' n => if s'.evtMode n then s'.evtEdge n (s.rg g.val).next else s')).forEach (chansOf g.val)
              (fun s' n => s'.slotEdge n (s.rg g.val).next (s'.rg g.val).npk
                (((s.reg (R.RGN_WSEQ g.val)).toNat + 1) % 2 ^ 32)) →
        exec (.windowEdge g obs) s = .next (((w.steadyEdge g.val (s.rg g.val).next (fun k => (seen.find? (fun o =>
          decide (o.conv.val = k))).map (fun o => satWide (wideRaw o.count o.resid.val (s.rg g.val).npk)))).seqEdge g.val
            (s.rg g.val).next).raiseGathered g.val)))

/-- R119 to R123: what a comparator does in an awake hub whose region converts with the channel in event mode. A crossing of an
armed unit disarms it, stamps CH_EVT_LAST at the packet edge, holds a burst 3 us later, and is recorded and offered to the
captures; the end of the burst starts the hold-off; the end of the hold-off lets the unit arm again; a departure while not armed
counts an overrun and raises source 87 once in a window; a level that has stayed outside since the crossing is stuck (source 86,
whose line stays high); the return into the re-arm band ends a stuck episode and its line and begins the stay the unit arms
after, which a level between the band and the thresholds breaks off. -/
def Obligations.ComparatorRows : Prop :=
  ∀ s : State, s.awake = true → ∀ n : Fin 384,
    (s.cmpActs n.val = true → s.evtArmed n.val = true → ∃ u : State,
        exec (.comparatorCrossing n) s = .next ((u.cmpRecord n.val 0x30 0 (packetEdge s.lt)).capEvent 7 n.val (packetEdge s.lt))
        ∧ u.evtArmed n.val = false ∧ u.pair (R.CH_EVT_LAST n.val) (R.CH_EVT_LAST_HI n.val) = stOf (packetEdge s.lt)
        ∧ (u.ch n.val).burstFrom = some (packetEdge s.lt + 3000 * nsU) ∧ (u.ch n.val).outSince = some (packetEdge s.lt)
        ∧ (u.ch n.val).novr = 0)
    ∧ (s.evtBurst n.val = true → (s.ch n.val).burstLeft = 0 → ∃ t, exec (.burstEnd n) s = .next t ∧ t.evtBurst n.val = false
        ∧ t.evtHold n.val = true
        ∧ (t.ch n.val).holdLeft = max (s.actFld (R.CH_EVT_CTRL n.val) F.CH_EVT_CTRL_HOLDOFF) 1)
    ∧ (s.evtHold n.val = true → (s.ch n.val).holdLeft = 0 →
        ∃ t, exec (.comparatorHoldoffEnd n) s = .next t ∧ t.evtHold n.val = false
        ∧ t.evtArmed n.val = (s.evtArmed n.val || (s.cmpActs n.val && !s.evtBurst n.val && (s.ch n.val).burstFrom.isNone
            && !s.evtThrBad n.val && (s.ch n.val).inBandSince.any (fun x => decide (x < (s.rg (rgnOf n.val)).edge)))))
    ∧ (s.cmpActs n.val = true → s.evtArmed n.val = false → ∃ u : State,
        exec (.comparatorOverrun n) s = .next (if (s.ch n.val).ovrInWindow then u else u.raise 87 n.val)
        ∧ u.fld (R.CH_EVT_STAT n.val) F.CH_EVT_STAT_OVRCNT
          = satInc (F.CH_EVT_STAT_OVRCNT.hi - F.CH_EVT_STAT_OVRCNT.lo + 1)
              (s.fld (R.CH_EVT_STAT n.val) F.CH_EVT_STAT_OVRCNT) 1
        ∧ (u.ch n.val).novr = (s.ch n.val).novr + 1 ∧ (u.ch n.val).ovrInWindow = true)
    ∧ (∀ x, s.cmpActs n.val = true → (s.ch n.val).stuckLeft = 1 → (s.ch n.val).stuckSaid = false →
        (s.ch n.val).outSince = some x → (s.ch n.val).crossLt = x → ∃ u : State,
        exec (.comparatorStuck n) s
          = .next ((u.cmpRecord n.val 0x32 (s.ch n.val).novr (s.rg (rgnOf n.val)).edge).setLine 86 n.val true)
        ∧ u.flag (R.CH_EVT_STAT n.val) F.CH_EVT_STAT_STUCK = true ∧ (u.ch n.val).stuckSaid = true)
    ∧ (s.cmpActs n.val = true → ∃ t, exec (.comparatorBandReentry ⟨n, .rearm⟩) s = .next t
        ∧ t.flag (R.CH_EVT_STAT n.val) F.CH_EVT_STAT_STUCK = false ∧ (86, n.val) ∉ t.flt.lines
        ∧ (t.ch n.val).inBandSince = some ((s.ch n.val).inBandSince.getD s.lt)
        ∧ (t.ch n.val).outSince = none ∧ (t.ch n.val).stuckLeft = 0)
    ∧ (s.cmpActs n.val = true → ∃ t, exec (.comparatorBandReentry ⟨n, .between⟩) s = .next t
        ∧ t.regs = s.regs ∧ (t.ch n.val).inBandSince = none ∧ (t.ch n.val).outSince = none)

/-- R191, R193, R195, R199, R201, R203: the rows of the processing chain in an awake hub. The output of the oldest closed slot
is delivered: its value by R185 with the flags gathered, INVALID where the flags say so, or the held output marked SETTLE; the
end of a fill whose conditions a slot has met clears REFILL; a statistics block whose record waits is recorded, with source 107
when it had no valid value; a switch carries out the oldest change called for; a read of CH_OUT_W latches the words of the same
output; a write of CH_BQ_CTRL in a STOPPED region commits the new coefficients at once, any other waits for the slot boundary of
R202; in both no commit waits already. R180, R181, R183, R184, R195: the arithmetic of the chain. A correction of unity gain and
no offset gives the value scaled by 65,536; a FIR line of one output and a first tap of one gives the output scaled by that tap;
a section whose only coefficient is b0 = 1 passes its input; saturation stays within its limits and shows exactly when it
changes the value; the integer square root is exact. An event-mode channel has no settle policy of RESTART (the model's reading,
log 61). -/
def Obligations.ChainRows : Prop :=
  (∀ s : State, s.awake = true → ∀ n : Fin 384,
      ((s.ch n.val).chain.ready = [] → exec (.chainOutput n) s = .next s)
      ∧ (∀ r rest b, (s.ch n.val).chain.ready = r :: rest → r.event = true → r.box = some b → r.sat = false → r.held = false →
          r.fillInv = false → isInvalid b.flags = false → s.lt ≤ r.closeLt + 100000 * nsU → ∃ u : State,
            exec (.chainOutput n) s = .next (u.putOutput n.val r (wideOfI b.v) (s.scaled n.val b.v) b.flags)
            ∧ (u.ch n.val).chain.ready = rest ∧ u.regs = s.regs)
      ∧ (∀ r rest b, (s.ch n.val).chain.ready = r :: rest → r.event = true → r.box = some b → r.sat = false → r.held = false →
          r.fillInv = false → isInvalid b.flags = true → s.lt ≤ r.closeLt + 100000 * nsU → ∃ u : State,
            exec (.chainOutput n) s = .next (u.putOutput n.val r wideInvalid wideInvalid b.flags)
            ∧ (u.ch n.val).chain.ready = rest)
      ∧ (∀ r rest b w sc q, (s.ch n.val).chain.ready = r :: rest → r.event = false → r.clears = false → r.box = some b →
          r.sat = false → r.held = true → s.chFir n.val = false → s.chNbq n.val = 0 →
          (s.ch n.val).chain.lastOut = some (w, sc, q) → s.lt ≤ r.closeLt + 100000 * nsU → ∃ u : State,
            exec (.chainOutput n) s = .next (u.putOutput n.val r w sc (qOr q qSettle))
            ∧ (u.ch n.val).chain.ready = rest ∧ (u.ch n.val).chain.firHist = (b.flags :: (s.ch n.val).chain.firHist).take 256)
      ∧ ((s.ch n.val).chain.refill = true → (s.ch n.val).chain.fillMet = true → ∃ t, exec (.refillEnd n) s = .next t
          ∧ t.flag (R.CH_HLT_STAT n.val) F.CH_HLT_STAT_REFILL = false ∧ (t.ch n.val).chain.refill = false
          ∧ (t.ch n.val).chain.filling = false ∧ (t.ch n.val).chain.fillMet = false)
      ∧ ((s.ch n.val).chain.refill = false → (s.ch n.val).chain.fillMet = true → ∃ t, exec (.fillEnd n) s = .next t
          ∧ (t.ch n.val).chain.filling = false ∧ (t.ch n.val).chain.startFill = false ∧ (t.ch n.val).chain.fillMet = false)
      ∧ (∀ d rest, s.chainQuiet n.val = false → (s.ch n.val).chain.statDone = d :: rest → ∃ u : State,
          exec (.statisticsBlockEnd n) s = .next ((if d.block.nv = 0 then u.raise 107 n.val else u).recordCh n.val 0x10
            d.block.name ((if d.block.nv = 0 then u.raise 107 n.val else u).statRecord n.val d))
          ∧ (u.ch n.val).chain.statDone = rest ∧ u.regs = s.regs)
      ∧ (∀ (w : Fin 4) dst name wide q rest, (s.ch n.val).chain.swPend = (w.val, dst, name, wide, q) :: rest →
          s.actFlag (R.CH_SW_CFG n.val) (F.CH_SW_CFG_EVEN w.val) = false → ∃ u : State,
          exec (.switchChange n w) s = .next ((u.driveSw n.val w.val).capEvent 6 (n.val * 8 + b2n (!dst) * 4 + w.val) name)
          ∧ (u.fld (R.CH_SW_STAT n.val) F.CH_SW_STAT_STATE).testBit w.val = dst ∧ (u.ch n.val).chain.swPend = rest)
      ∧ (∃ t, exec (.chOutWRead n) s = .next t ∧ t.bus = ⟨(s.reg (R.CH_OUT_W n.val)).toNat, 0, []⟩
          ∧ t.latched (R.CH_OUT_Q n.val) = some (s.reg (R.CH_OUT_Q n.val))
          ∧ t.latched (R.CH_OUT_T n.val) = some (s.reg (R.CH_OUT_T n.val))
          ∧ t.latched (R.CH_OUT_T_HI n.val) = some (s.reg (R.CH_OUT_T_HI n.val))
          ∧ t.latched (R.CH_OUT_S n.val) = some (s.reg (R.CH_OUT_S n.val)) ∧ t.regs = s.regs)
      ∧ (∀ v : Word, s.waitsBit n.val (R.CH_BQ_CTRL n.val) 8 = false → s.waitsBit n.val (R.CH_BQ_CTRL n.val) 9 = false →
          (s.chainQuiet n.val = true → s.rgState (rgnOf n.val) = rgStopped → (s.ch n.val).chain.ready = [] →
            ∃ t, exec (.chBqCtrlCommit n v) s = .next t
            ∧ (∀ q i, q < 2 → i < 5 → v.toNat.testBit (8 + q) = true →
                t.actReg (R.CH_BQ_COEF n.val q i) = s.reg (R.CH_BQ_COEF n.val q i))
            ∧ t.actReg (R.CH_BQ_CTRL n.val) = v &&& 0xFF)
          ∧ ((s.chainQuiet n.val = true → s.rgState (rgnOf n.val) ≠ rgStopped) → ∃ t, exec (.chBqCtrlCommit n v) s = .next t
            ∧ (t.ch n.val).waiting = (s.ch n.val).waiting ++ [(R.CH_BQ_CTRL n.val, v, s.lt)]
            ∧ (∀ q i, q < 2 → i < 5 → t.actReg (R.CH_BQ_COEF n.val q i) = s.actReg (R.CH_BQ_COEF n.val q i)))))
  ∧ ((∀ (s : State) (n : Nat) (x : Int), (s.actReg (R.CH_COR_GAIN n)).toInt = 2 ^ 30 → s.actReg (R.CH_COR_OFS n) = 0 →
        -(2 ^ 31) < x → x < 2 ^ 31 → s.stage1 n x = (x * 65536, false))
    ∧ (∀ (s : State) (k : Nat) (b : BoxOut), (s.reg (R.PRC_FIRC k 0)).toInt = 2 ^ 30 → s.firSum k 0 [b] 0 = b.v * 2 ^ 30)
    ∧ (∀ (c : Nat → Int) (x : Int) (b : BqState), c 0 = 2 ^ 28 → c 1 = 0 → c 2 = 0 → c 3 = 0 → c 4 = 0 → -iMax ≤ x → x ≤ iMax →
        bqStep c x b = (x, false, ⟨x, b.x1, x, b.y1⟩))
    ∧ (∀ v : Int, (satI v).1 ≤ iMax ∧ -iMax ≤ (satI v).1 ∧ ((satI v).2 = false ↔ (satI v).1 = v))
    ∧ (∀ v : Nat, v < 2 ^ 66 → isqrt v * isqrt v ≤ v ∧ v < (isqrt v + 1) * (isqrt v + 1)))

/-- R211, R216 to R219, R222, R224: the rows of Bowl capture in an awake hub, at a buffer no arming or disarming waits for. Each
CAP_CTRL row does what its bit says; a row that can be decided is decided 200 us after its close, with the events that fall in
it; a completed record is numbered, written with its header in its slot, held for its consumers, and ends POST; HOLD ends with a
new arming; the end of an allocation wait shows in ALLOCW; a TRIG_IN edge is an event of its stamp at every buffer while there
is REFCLK, and none without. R216, R217, R223, R224: arming, disarming and releasing a buffer. ARM of an IDLE or DONE buffer
that nothing refuses arms it at the first row boundary at least 10 us later; a refused one shows CFGERR and its cause and raises
source 113; any other buffer keeps its state. DISARM takes effect at the next row boundary. Written again while one waits, the
earlier boundary stands (the model's choice, log 90). REL of a buffer without a host record does nothing. What waits for a
boundary takes effect once LT has reached it: an arming leaves the buffer ARMED on the next free slot, or FULL, with nothing
kept from before; a disarming leaves it IDLE and closes a record in POST with RFLAGS bit 3. R230, R231: a VC1 ring trigger past
the hop limit is not taken, one seen before is not taken again, and one that is taken on an enabled line is accepted. Corners of
arming and DISARM are the model's choice (log 90). -/
def Obligations.CaptureRows : Prop :=
  (∀ s : State, s.awake = true → ∀ b : Fin 16, (s.cp b.val).armAt = none → (s.cp b.val).disarmAt = none →
      (∀ v : Word, v.toNat % 16 = 1 →
        exec (.capCtrlArm b v) s = .next ((s.writeFlds (R.CAP_CTRL b.val) capCtrlFlds v).capArm b.val))
      ∧ (∀ v : Word, v.toNat % 16 = 2 →
        exec (.capCtrlDisarm b v) s = .next ((s.writeFlds (R.CAP_CTRL b.val) capCtrlFlds v).capDisarm b.val))
      ∧ (∀ v : Word, v.toNat % 16 = 4 → exec (.capCtrlSoft b v) s = .next
          ((s.writeFlds (R.CAP_CTRL b.val) capCtrlFlds v).capEventOne b.val ⟨11, 0, s.lt + 2000 * nsU, s.hubId⟩))
      ∧ (∀ v : Word, v.toNat % 16 = 8 →
        exec (.capCtrlRel b v) s = .next ((s.writeFlds (R.CAP_CTRL b.val) capCtrlFlds v).capRel b.val))
      ∧ (∃ t, exec (.captureAllocTakesEffect b) s = .next t ∧ t.flag (R.CAP_STAT b.val) F.CAP_STAT_ALLOCW
          = (s.flag (R.CAP_CFG b.val) F.CAP_CFG_ALLOC && s.capSpilled b.val))
      ∧ (s.capRowReady b.val = true → s.capFormed b.val (s.capNext b.val) = true → ∃ u : State,
          exec (.rowDecision b) s = .next (u.capDecide b.val (s.capNext b.val) ((s.cp b.val).events.filter
            (fun e => decide (e.time < s.capNext b.val + max (s.capRow b.val * pktU) 1))))
          ∧ u.regs = s.regs ∧ (u.cp b.val).nextRow = s.capNext b.val + max (s.capRow b.val * pktU) 1)
      ∧ (s.capRowReady b.val = true → s.capFormed b.val (s.capNext b.val) = false → s.capState b.val = capArmed →
          ∃ t, exec (.rowDecision b) s = .next t ∧ (t.cp b.val).pre = [] ∧ (t.cp b.val).kept = 0
          ∧ (t.cp b.val).nextRow = s.capNext b.val + max (s.capRow b.val * pktU) 1)
      ∧ (∀ r, (s.cp b.val).fin = some r → s.capState b.val = capPost → s.flag (R.CAP_CFG b.val) F.CAP_CFG_AUTO = false →
          s.flag (R.CAP_CFG b.val) F.CAP_CFG_STRC = false → s.flag (R.CAP_CFG b.val) F.CAP_CFG_HOSTC = true →
          ∃ t, exec (.captureRecordComplete b) s = .next t ∧ t.capState b.val = capDone ∧ (t.cp b.val).fin = none
          ∧ t.reg (R.CAP_SEQ b.val) = BitVec.ofNat 32 (s.cp b.val).seq
          ∧ (t.cp b.val).seq = ((s.cp b.val).seq + 1) % 2 ^ 32
          ∧ (⟨r.slot, (s.cp b.val).seq, true⟩ : CapSlot) ∈ (t.cp b.val).done
          ∧ t.flag (R.CAP_RDQ b.val) F.CAP_RDQ_VALID = true
          ∧ ∀ a, a < s.capSlotAddr b.val r.slot ∨ s.capSlotAddr b.val r.slot + s.capHead b.val ≤ a → t.byte a = s.byte a)
      ∧ (∀ q, s.capState b.val = capHold → (s.cp b.val).holdLeft = 0 → (s.cp b.val).fin = none →
          s.freeSlot b.val = some q → ∃ t, exec (.captureHoldEnd b) s = .next t ∧ t.capState b.val = capArmed
          ∧ (t.cp b.val).slot = q ∧ (t.cp b.val).pre = [])
      ∧ (∀ falling ph, exec (.trigInEdge falling ph) s
          = .next (if s.spn.refclk then s.capEvent 8 (b2n falling) (stampOf s.lt ph.val) else s)))
  ∧ (∀ (s : State) (b : Fin 16),
      (s.capState b.val ≠ capIdle → s.capState b.val ≠ capDone → s.capArm b.val = s)
      ∧ (s.capState b.val = capIdle ∨ s.capState b.val = capDone → (s.cp b.val).armAt = none → s.armCause b.val = none →
          ∃ t, ((s.capArm b.val).cp b.val).armAt = some t ∧ s.lt + 10000 * nsU ≤ t
            ∧ t < s.lt + 10000 * nsU + max (s.capRow b.val * pktU) 1 ∧ t % max (s.capRow b.val * pktU) 1 = 0)
      ∧ (∀ c, s.capState b.val = capIdle ∨ s.capState b.val = capDone → (s.cp b.val).armAt = none →
          s.armCause b.val = some c → ∃ u : State, s.capArm b.val = u.raise 113 b.val
            ∧ u.flag (R.CAP_STAT b.val) F.CAP_STAT_CFGERR = true ∧ u.fld (R.CAP_ERR b.val) F.CAP_ERR_CAUSE = c
            ∧ u.capState b.val = s.capState b.val)
      ∧ (s.capState b.val ≠ capIdle → (s.cp b.val).disarmAt = none →
          ∃ t, ((s.capDisarm b.val).cp b.val).disarmAt = some t ∧ s.lt ≤ t
            ∧ t < s.lt + max (s.capRow b.val * pktU) 1 ∧ t % max (s.capRow b.val * pktU) 1 = 0)
      ∧ (∀ w, s.capState b.val ≠ capIdle → (s.cp b.val).disarmAt = some w → ∃ t, ((s.capDisarm b.val).cp b.val).disarmAt = some t
            ∧ t ≤ w ∧ (w < s.lt → t = w))
      ∧ (∀ w, s.capState b.val = capDone → (s.cp b.val).armAt = some w → s.armCause b.val = none →
          ∃ t, ((s.capArm b.val).cp b.val).armAt = some t ∧ t ≤ w ∧ (w < s.lt → t = w))
      ∧ ((∀ d ∈ (s.cp b.val).done, d.host = false) → s.capRel b.val = s)
      ∧ (∀ t, (s.cp b.val).disarmAt = none → (s.cp b.val).armAt = some t →
          (s.lt < t → s.capSync b.val = s)
          ∧ (t ≤ s.lt → ((s.capSync b.val).cp b.val).armAt = none ∧ ((s.capSync b.val).cp b.val).nextRow = t
            ∧ ((s.capSync b.val).cp b.val).since = t ∧ ((s.capSync b.val).cp b.val).pre = []
            ∧ ((s.capSync b.val).cp b.val).events = (s.cp b.val).events.filter (fun e => decide (t ≤ e.time))
            ∧ (∀ q, s.freeSlot b.val = some q → (s.capSync b.val).capState b.val = capArmed ∧ ((s.capSync b.val).cp b.val).slot = q)
            ∧ (s.freeSlot b.val = none → (s.capSync b.val).capState b.val = capFull)))
      ∧ (∀ t, (s.cp b.val).armAt = none → (s.cp b.val).disarmAt = some t →
          (s.lt < t → s.capSync b.val = s)
          ∧ (t ≤ s.lt → (s.capSync b.val).capState b.val = capIdle ∧ ((s.capSync b.val).cp b.val).disarmAt = none
            ∧ ((s.capSync b.val).cp b.val).events = [] ∧ ((s.capSync b.val).cp b.val).pre = []
            ∧ ∀ r, (s.cp b.val).cur = some r → ((s.capSync b.val).cp b.val).cur = none
              ∧ ((s.capSync b.val).cp b.val).fin = some { r with rflags := r.rflags ||| 8 })))
  ∧ (∀ s : State, s.awake = true → ∀ (k : Fin 2) (m : Vc1Msg),
      (15 ≤ m.hops.val → exec (.ringTriggerRx k m) s = .next s)
      ∧ (∀ u, s.takeVc1 k.val 0x10 m = (u, true) → (u.fld R.CAP_RING F.CAP_RING_RXEN).testBit (m.byte0.val % 8) = true →
          exec (.ringTriggerRx k m) s = .next (u.acceptRing (m.byte0.val % 8) (ltOp m.time) m.origin.val))
      ∧ (∀ u, s.takeVc1 k.val 0x10 m = (u, false) → exec (.ringTriggerRx k m) s = .next u)
      ∧ (m.hops.val < 15 → (s.takeVc1 k.val 0x10 m).2
          = !s.seenTrig.contains (0x10, m.origin.val, m.byte0.val, ltOp m.time)))

/-- R268, R269, R284, R285, R287: the rows of Gouge in an awake hub with no engine verdict to take up. GOUGE_BLOCK_START takes
the next complete packet of the next context in round-robin order, advances SP and writes as many words as the output buffer has
room for, with STALL set while some have none; a descriptor packet passes unencoded once all of it is there. GOUGE_VERIFY_DONE
releases a block whose check holds and counts its bytes, and replaces any other by a stored block with FSTORE; it waits for the
words of a stalled one. A stall ends when the last word is written; RETEST calls for the self-test; a PASS of the engine is its
verdict, and puts it in service unless it is out of service and no RETEST was written. Which image a memory error hits, that one
mismatch is one error of sources 114 and 117, and corners of the rewind are the model's (logs 55, 91 and 92). -/
def Obligations.GougeRows : Prop :=
  ∀ s : State, s.awake = true → s.ggeSync = s →
    (s.gge.job = none → (∀ c, s.nextPkt c = none) → exec .gougeBlockStart s = .next s)
    ∧ (∀ c p, s.gge.job = none → ((List.range 512).map (fun i => (s.gge.last + 1 + i) % 512)).find?
        (fun c => decide (s.strState c ≠ 0) && s.ggeOn c && (s.nextPkt c).isSome) = some c → s.nextPkt c = some p →
        (p.ptype ≠ 3 → ∃ (t : State) (j : GgeJob),
          exec .gougeBlockStart s = .next (if s.ggeLost c p then (t.raise 117 c).ggeSync else t)
          ∧ t.gge.job = some { j with words := min j.len (4 * (2048 - s.ggeHeld)) } ∧ j.ctx = c ∧ j.pkt = p ∧ j.raw = false
          ∧ j.blk = encodeBlock (s.gg c).cfg (s.ggeRst c) j.before (decide (p.ptype = 1)) j.fstore p.pseq p.payload
          ∧ ((s.gg c).recOf p.pseq = none → j.fstore = decide (s.ggeState ≠ 0))
          ∧ (∀ r, (s.gg c).recOf p.pseq = some r → j.fstore = (r.fstore || (s.gg c).anchorBad))
          ∧ t.gge.last = c ∧ (t.st c).sp = p.first + p.units ∧ t.gge.outs = s.gge.outs
          ∧ t.flag R.GGE_STAT F.GGE_STAT_STALL = decide (4 * (2048 - s.ggeHeld) < j.len))
        ∧ (p.ptype = 3 → ∃ t, exec .gougeBlockStart s = .next t ∧ t.gge.last = c ∧ (t.st c).sp = p.first + p.units
          ∧ (ceilDiv p.bytes.length 8 ≤ 4 * (2048 - s.ggeHeld) → t.gge.job = none
              ∧ t.gge.outs = s.gge.outs ++ [⟨c, p.pseq, p.bytes, p.units⟩] ∧ t.flag R.GGE_STAT F.GGE_STAT_STALL = false)
          ∧ (4 * (2048 - s.ggeHeld) < ceilDiv p.bytes.length 8 → t.gge.outs = s.gge.outs
              ∧ t.flag R.GGE_STAT F.GGE_STAT_STALL = true ∧ ∃ j, t.gge.job = some j ∧ j.raw = true ∧ j.pkt = p)))
    ∧ (∀ m, s.gge.job = none → exec (.gougeVerifyDone m) s = .next s)
    ∧ (∀ m, s.flag R.GGE_STAT F.GGE_STAT_STALL = true → exec (.gougeVerifyDone m) s = .next s)
    ∧ (∀ j, s.gge.job = some j → s.flag R.GGE_STAT F.GGE_STAT_STALL = false →
        ((s.gg j.ctx).memBad = false → verifyBlock (s.gg j.ctx).cfg (s.gg j.ctx).ver (decide (j.pkt.ptype = 1)) j.pkt.pseq
            j.pkt.payload j.blk = true →
          ∃ t o, exec (.gougeVerifyDone false) s = .next t ∧ t.gge.job = none ∧ t.gge.outs = s.gge.outs ++ [o] ∧ o.ctx = j.ctx
          ∧ o.pseq = j.pkt.pseq ∧ o.units = outUnits j.blk.bytes.length
          ∧ t.reg (R.GGE_CIN j.ctx) = s.reg (R.GGE_CIN j.ctx) + BitVec.ofNat 32 j.pkt.payload.length
          ∧ (t.gg j.ctx).enc = j.blk.image ∧ (t.gg j.ctx).ver = j.blk.image)
        ∧ (∀ m, m = true ∨ (s.gg j.ctx).memBad = true ∨ verifyBlock (s.gg j.ctx).cfg (s.gg j.ctx).ver (decide (j.pkt.ptype = 1))
            j.pkt.pseq j.pkt.payload j.blk = false →
          ∃ (u : State) (k : GgeJob), exec (.gougeVerifyDone m) s = .next (u.ggeWrite k) ∧ k.fstore = true ∧ k.ctx = j.ctx ∧ k.pkt = j.pkt
          ∧ k.blk = encodeBlock (s.gg j.ctx).cfg (u.ggeRst j.ctx) j.before (decide (j.pkt.ptype = 1)) true j.pkt.pseq j.pkt.payload
          ∧ u = (s.setGg j.ctx { s.gg j.ctx with memBad := false }).ggeMismatch j.ctx
              (((s.gg j.ctx).recOf j.pkt.pseq).any (fun r => !r.fstore) && !j.fstore)))
    ∧ (s.gge.job = none ∨ s.flag R.GGE_STAT F.GGE_STAT_STALL = false → exec .gougeStallEnd s = .next s)
    ∧ (∀ j, s.gge.job = some j → s.flag R.GGE_STAT F.GGE_STAT_STALL = true → j.raw = false →
        ∃ t, exec .gougeStallEnd s = .next t
        ∧ t.gge = { s.gge with job := some { j with words := min j.len (4 * (2048 - s.ggeHeld)) } }
        ∧ t.flag R.GGE_STAT F.GGE_STAT_STALL = decide (4 * (2048 - s.ggeHeld) < j.len))
    ∧ (∀ (v : Word) (w : State), w = s.writeFlds R.GGE_CTRL ggeCtrlFlds v → v.toNat.testBit 0 = true → s.ggeTesting = false →
        exec (.ggeCtrlRetest v) s
        = .next ((({ w with gge := { w.gge with retest := true } }).callTest 0xFF .gouge instHub).ggeSync))
    ∧ (∀ x, s.flt.running = some x → x.target = TestTarget.gouge → s.flt.ended = [] → s.flt.queue = [] → s.flt.waiting = [] →
        ∃ t, exec (.gougeSelftestDone .pass) s = .next t ∧ t.fld R.GGE_STAT F.GGE_STAT_VERDICT = 1
        ∧ t.ggeState = (if s.gge.oos && !s.gge.retest then 2 else 0) ∧ t.flt.running = none)
    ∧ (∀ v, s.flt.running = none → exec (.gougeSelftestDone v) s = .next s)

/-- R128 to R136, Table 5.2: the operations of the region sequencer in an awake hub, when the sequencer is due at its boundary,
the current entry is valid and fewer than 16 executions have been made. Each operation does what its row of Table 5.2 says and
moves to the entry that follows, after its delay. R130, R131, R135: an invalid entry halts the sequencer at that entry with RUN
clear, ERR and its index, and source 72; the end of a delay lets it act; a seventeenth execution at one boundary counts in
SPILL; setting RUN on a die whose link is up and idle clears the loop counters and the completion bits and starts 2 us later;
clearing it asks for a stop at the next boundary of a converting region, and stops at once otherwise; over a link that is down
the write is queued. A wait that cannot be queued and the delay of a JUMP are the model's reading (log 58); that a write acts at
once over a link with nothing on its way is its choice (log 20). -/
def Obligations.SequencerRows : Prop :=
  (∀ (s : State) (g : Fin 8), s.awake = true → s.seqDue g.val = true → s.seqValid g.val (s.seqPc g.val) = true →
      (s.rg g.val).execs < 16 → ∀ u, u = s.setRg g.val { s.rg g.val with execs := (s.rg g.val).execs + 1 } →
      ∀ i, i = s.seqPc g.val →
      (s.seqOp g.val i = 0 → ∃ x : State, exec (.halt g) s = .next (x.seqEvent g.val evHalt 0 0 i 0 (s.rg g.val).edge)
          ∧ x.flag (R.RGN_SEQ_CTRL g.val) F.RGN_SEQ_CTRL_RUN = false ∧ (x.rg g.val).started = false ∧ x.seqPc g.val = i)
      ∧ (s.seqOp g.val i = 1 → s.seqRep g.val i ≤ (s.rg g.val).reps + 1 → ∃ t, exec (.nop g) s = .next t
          ∧ t.seqPc g.val = (i + 1) % 256 ∧ (t.rg g.val).delay = s.seqDly g.val i
          ∧ (t.rg g.val).delaying = decide (s.seqDly g.val i ≠ 0) ∧ (t.rg g.val).reps = 0)
      ∧ (s.seqOp g.val i = 1 → (s.rg g.val).reps + 1 < s.seqRep g.val i → ∃ t, exec (.nop g) s = .next t
          ∧ t.seqPc g.val = i ∧ (t.rg g.val).reps = (s.rg g.val).reps + 1)
      ∧ (s.seqOp g.val i = 2 → (s.fld (R.RGN_SEQ_CMPL g.val) F.RGN_SEQ_CMPL_CMPL).testBit (s.seqTgt g.val i) = true →
          tabGet (fun _ => 0) (s.rg g.val).cmplAt (s.seqTgt g.val i) + 2000 * nsU ≤ (s.rg g.val).edge →
          ∃ t, exec (.waitCmp g) s = .next t ∧ t.seqPc g.val = (i + 1) % 256
          ∧ (t.fld (R.RGN_SEQ_CMPL g.val) F.RGN_SEQ_CMPL_CMPL).testBit (s.seqTgt g.val i) = false)
      ∧ (s.seqOp g.val i = 2 → ((s.fld (R.RGN_SEQ_CMPL g.val) F.RGN_SEQ_CMPL_CMPL).testBit (s.seqTgt g.val i) = false
            ∨ (s.rg g.val).edge < tabGet (fun _ => 0) (s.rg g.val).cmplAt (s.seqTgt g.val i) + 2000 * nsU) →
          ∃ t, exec (.waitCmp g) s = .next t ∧ t.seqPc g.val = i ∧ t.fld (R.RGN_SEQ_STAT g.val) F.RGN_SEQ_STAT_STATE = 2)
      ∧ (s.seqOp g.val i = 3 → s.seqTgt g.val i < 48 →
          exec (.cal g) s = .next (u.seqQueue g.val i ⟨.cal, 48 * g.val + s.seqTgt g.val i, 5, i, false⟩ id))
      ∧ (s.seqOp g.val i = 3 → 48 ≤ s.seqTgt g.val i →
          exec (.cal g) s = .next (u.seqQueue g.val i ⟨.sprCal, 6 * g.val + (s.seqTgt g.val i - 48), 5, i, true⟩ id))
      ∧ (s.seqOp g.val i = 4 →
          exec (.imp g) s = .next (u.seqQueue g.val i ⟨.imp, 48 * g.val + s.seqTgt g.val i, 5, i, false⟩ id))
      ∧ (s.seqOp g.val i = 5 →
          exec (.calimp g) s = .next (u.seqQueue g.val i ⟨.calimp, 48 * g.val + s.seqTgt g.val i, 5, i, false⟩ id))
      ∧ (∀ c ∈ [(6, Instr.calNext g, OpKind.cal, true), (7, .impNext g, .imp, false), (8, .calimpNext g, .calimp, false)],
          s.seqOp g.val i = c.1 → ∀ p, s.rotNext g.val (s.rotLen g.val) (s.fld (R.RGN_SEQ_ROT g.val) F.RGN_SEQ_ROT_POS) c.2.2.2 = some p →
          exec c.2.1 s = .next (u.seqQueue g.val i (rotOp g.val p c.2.2.1 5 i)
            (fun x => x.setFld (R.RGN_SEQ_ROT g.val) F.RGN_SEQ_ROT_POS ((p + 1) % s.rotLen g.val))))
      ∧ (∀ c ∈ [(6, Instr.calNext g, OpKind.cal, true), (7, .impNext g, .imp, false), (8, .calimpNext g, .calimp, false)],
          s.seqOp g.val i = c.1 → s.rotNext g.val (s.rotLen g.val) (s.fld (R.RGN_SEQ_ROT g.val) F.RGN_SEQ_ROT_POS) c.2.2.2 = none →
          exec c.2.1 s = .next (u.seqDone g.val i))
      ∧ (s.seqOp g.val i = 9 → exec (.excSet g) s = .next (u.seqExcite g.val i 0 (s.seqArg g.val i % 512)))
      ∧ (s.seqOp g.val i = 10 → exec (.excPol g) s
          = .next (u.seqExcite g.val i (if (s.seqArg g.val i).testBit 1 then 2 else 1) (s.seqArg g.val i % 2)))
      ∧ (s.seqOp g.val i = 11 → exec (.mark g) s
          = .next ((u.seqEvent g.val evMark 0 (s.seqArg g.val i) i 0 (s.rg g.val).edge).seqDone g.val i))
      ∧ (s.seqOp g.val i = 12 → s.seqRep g.val i = 0 → ∃ t, exec (.jump g) s = .next t
          ∧ t.seqPc g.val = s.seqArg g.val i % 256)
      ∧ (s.seqOp g.val i = 12 → s.seqRep g.val i ≠ 0 → tabGet (fun _ => 0) (s.rg g.val).loops i = 0 →
          ∃ t, exec (.jump g) s = .next t ∧ t.seqPc g.val = s.seqArg g.val i % 256
          ∧ tabGet (fun _ => 0) (t.rg g.val).loops i = s.seqRep g.val i)
      ∧ (∀ k, s.seqOp g.val i = 12 → s.seqRep g.val i ≠ 0 → tabGet (fun _ => 0) (s.rg g.val).loops i = k + 2 →
          ∃ t, exec (.jump g) s = .next t ∧ t.seqPc g.val = s.seqArg g.val i % 256
          ∧ tabGet (fun _ => 0) (t.rg g.val).loops i = k + 1)
      ∧ (s.seqOp g.val i = 12 → s.seqRep g.val i ≠ 0 → tabGet (fun _ => 0) (s.rg g.val).loops i = 1 →
          ∃ t, exec (.jump g) s = .next t ∧ t.seqPc g.val = (i + 1) % 256 ∧ tabGet (fun _ => 0) (t.rg g.val).loops i = 0)
      ∧ (s.seqOp g.val i = 13 → (s.rg g.val).queue = [] → (s.rg g.val).running = [] →
          (s.rg g.val).idleAt + 2000 * nsU ≤ (s.rg g.val).edge →
          ∃ t, exec (.waitIdle g) s = .next t ∧ t.seqPc g.val = (i + 1) % 256)
      ∧ (s.seqOp g.val i = 13 → ((s.rg g.val).queue ≠ [] ∨ (s.rg g.val).running ≠ []
            ∨ (s.rg g.val).edge < (s.rg g.val).idleAt + 2000 * nsU) → ∃ t, exec (.waitIdle g) s = .next t ∧ t.seqPc g.val = i
          ∧ t.fld (R.RGN_SEQ_STAT g.val) F.RGN_SEQ_STAT_STATE = 2))
  ∧ (∀ (s : State) (g : Fin 8), s.awake = true →
      (s.seqDue g.val = true → s.seqValid g.val (s.seqPc g.val) = false → ∃ u : State, exec (.seqInvalidEntry g) s
            = .next ((u.raise 72 g.val).seqEvent g.val evHalt 0 1 (s.seqPc g.val) 0 (u.rg g.val).edge)
          ∧ u.flag (R.RGN_SEQ_STAT g.val) F.RGN_SEQ_STAT_ERR = true ∧ u.seqPc g.val = s.seqPc g.val
          ∧ u.fld (R.RGN_SEQ_STAT g.val) F.RGN_SEQ_STAT_ERRIDX = s.seqPc g.val
          ∧ u.flag (R.RGN_SEQ_CTRL g.val) F.RGN_SEQ_CTRL_RUN = false)
      ∧ (s.runs g.val = true → (s.rg g.val).delaying = true → (s.rg g.val).delay = 0 →
          ∃ t, exec (.seqDelayExpiry g) s = .next t ∧ (t.rg g.val).delaying = false ∧ t.regs = s.regs)
      ∧ (s.seqDue g.val = true → s.seqValid g.val (s.seqPc g.val) = true → s.seqOp g.val (s.seqPc g.val) = 1 →
          (s.rg g.val).execs = 16 → ∃ t, exec (.nop g) s = .next t ∧ t.seqPc g.val = s.seqPc g.val
          ∧ t.fld (R.RGN_SEQ_STAT g.val) F.RGN_SEQ_STAT_SPILL
            = satInc (F.RGN_SEQ_STAT_SPILL.hi - F.RGN_SEQ_STAT_SPILL.lo + 1) (s.fld (R.RGN_SEQ_STAT g.val) F.RGN_SEQ_STAT_SPILL) 1)
      ∧ (∀ v : Word, s.dieUp (dieOf g.val) = true → (s.dl (dieOf g.val)).toFe = [] →
          (v.toNat.testBit 0 = true → s.actFlag (R.RGN_SEQ_CTRL g.val) F.RGN_SEQ_CTRL_RUN = false →
            ∃ t, exec (.rgnSeqRunSet g v) s = .next t
            ∧ (t.rg g.val).startAfter = s.lt + 2000 * nsU ∧ (t.rg g.val).started = false ∧ (t.rg g.val).loops = []
            ∧ t.fld (R.RGN_SEQ_CMPL g.val) F.RGN_SEQ_CMPL_CMPL = 0 ∧ t.actReg (R.RGN_SEQ_CTRL g.val) = v)
          ∧ (v.toNat.testBit 0 = false → s.actFlag (R.RGN_SEQ_CTRL g.val) F.RGN_SEQ_CTRL_RUN = true →
            ∃ t, exec (.rgnSeqRunClear g v) s = .next t
            ∧ (s.runs g.val = true → (t.rg g.val).stopReq = true ∧ (t.rg g.val).started = (s.rg g.val).started)
            ∧ (s.runs g.val = false → (t.rg g.val).started = false ∧ t.fld (R.RGN_SEQ_STAT g.val) F.RGN_SEQ_STAT_STATE = 0)))
      ∧ (∀ v : Word, s.dieUp (dieOf g.val) = false → (s.dl (dieOf g.val)).queued.length < 64 →
          ∀ c ∈ [Instr.rgnSeqRunSet g v, .rgnSeqRunClear g v], ∃ t, exec c s = .next t ∧ t.rg g.val = s.rg g.val
          ∧ (t.dl (dieOf g.val)).queued = (s.dl (dieOf g.val)).queued ++ [(R.RGN_SEQ_CTRL g.val, v)]))

/-- R134: positions 0 to 47 of the rotation order name the channels 8 x (i mod 6) + i div 6, so consecutive positions lie on
different clusters; positions 48 to 53, which follow exactly with ROTSPARE = 1, name spares 0 to 5. -/
def Obligations.RotationOrder : Prop :=
  (∀ g i kind prio idx, i < 48 → rotOp g i kind prio idx = ⟨kind, 48 * g + (8 * (i % 6) + i / 6), prio, idx, false⟩)
    ∧ (∀ i < 48, 8 * (i % 6) + i / 6 < 48 ∧ (8 * (i % 6) + i / 6) / 8 ≠ (8 * ((i + 1) % 48 % 6) + (i + 1) % 48 / 6) / 8)
    ∧ (∀ g i kind prio idx, i < 6 → rotOp g (48 + i) kind prio idx = ⟨.sprCal, 6 * g + i, prio, idx, true⟩)
    ∧ (∀ (s : State) (g : Nat), s.rotLen g = if s.flag (R.RGN_SEQ_ROT g) F.RGN_SEQ_ROT_ROTSPARE then 54 else 48)

/-- R320 to R322, R325: PTP in an awake hub with REFCLK, for a tracker t that follows the domain of a message. A frame the port
does not take counts in RXDROP, and one that its lane in a test mode or with another inversion cannot bring does nothing; the
rest speaks of frames it takes. A Sync outside 2^-7 s to 2 s is not accepted. A two-step Sync of the selected master is stamped
and waits for its Follow_Up, a one-step one measures once the delay is known; a Follow_Up gives the origin time and its
correction; a Delay_Resp that answers the request gives the mean path delay. R325, R54, R64, R73: in an awake hub with REFCLK an
Announce that its port takes, of the selected source, restarts its timeout, one of a better source, or with none selected,
selects it, and one of another domain does nothing; without Announce for its timeout the source is no longer selected; without
Sync, or without exchanges on the ring, the tracker loses its source at the instant of its timeout, and when the messages of
both PTP trackers have run out by then both do, with holdover and no switch if one of them steered. R47, R325: delay requests in
an awake hub with REFCLK, for the active exit. A Delay_Req is sent when it is due, an interval of the master's Delay_Resp after
the last one (before a Delay_Resp 1 s, the model's choice, log 101), and its stamp kept, a Pdelay_Req every 2^LOG_PDLY s
likewise for both trackers; a Pdelay_Req that its port takes is answered one core cycle later, on a one-step port by one
Pdelay_Resp that carries the turnaround, on a two-step port by Pdelay_Resp and its Follow_Up, each of the two instants with its
stamp; a one-step Pdelay_Resp or the Follow_Up of a two-step one gives the mean link delay of both trackers or of the first.
Frames leave a port whose lane carries data, with DSCP 46 but on the Ethernet transport. The stamps and the frequency are
operands of the rows (log 11); that a stamp lies on the core cycle of LT and the phase of the row, and when a Pdelay_Resp
leaves, are the model's choice (log 63). -/
def Obligations.PtpRows : Prop :=
  (∀ s : State, s.awake = true → s.spn.refclk = true → ∀ (m : PtpMsg),
      (∀ ph frq f, ∀ c ∈ [Instr.syncRx m ph frq, .followUpRx m frq, .delayRespRx m frq, .pdelayReqRx m ⟨ph, ph⟩, .pdelayRespRx m f ph],
        (s.rxLive m.rx.port.val m.rx.head = false → exec c s = .next s)
        ∧ (s.rxLive m.rx.port.val m.rx.head = true → s.frameOk m.rx.port.val m.rx.head .ptp = false →
          exec c s = .next (s.bump (R.NET_STAT m.rx.port.val) F.NET_STAT_RXDROP)))
      ∧ (s.rxLive m.rx.port.val m.rx.head = true → s.frameOk m.rx.port.val m.rx.head .ptp = true → ∀ t, s.ptpTracker m.domain.val = some t →
      (∀ ph frq, syncInterval m.interval = false → exec (.syncRx m ph frq) s = .next s)
      ∧ (∀ ph frq, syncInterval m.interval = true → s.refreshTrackers = s → (s.trk t).bestSource = some m.source → m.twoStep = true →
        s.tkState t ≠ tkNoSource →
        ∃ u, exec (.syncRx m ph frq) s = .next u ∧ (u.trk t).syncT2 = stampOf s.lt ph.val ∧ (u.trk t).syncT1 = none
          ∧ (u.trk t).syncSeq = m.seqId.val ∧ (u.trk t).lastSync = s.lt ∧ u.regs = s.regs)
      ∧ (∀ ph frq md, syncInterval m.interval = true → s.refreshTrackers = s → (s.trk t).bestSource = some m.source → m.twoStep = false →
        s.tkState t ≠ tkNoSource → (s.trk t).meanDelay = some md → ∃ u : State, exec (.syncRx m ph frq) s = .next (u.measure t
          ((stampOf s.lt ph.val : Int) - (ltOp m.stamp : Nat) - m.corr - md - s.ptpAsym) frq.toNat (pow2Sec m.interval))
          ∧ (u.trk t).syncDone = true ∧ u.regs = s.regs)
      ∧ (∀ frq, (s.trk t).bestSource = some m.source → (s.trk t).syncSeq = m.seqId.val → (s.trk t).syncT1 = none →
        (s.trk t).meanDelay = none → ∃ u, exec (.followUpRx m frq) s = .next u ∧ (u.trk t).syncT1 = some (ltOp m.stamp)
          ∧ (u.trk t).syncCorr = (s.trk t).syncCorr + m.corr)
      ∧ (∀ frq t3 t1, (s.trk t).reqT3 = some t3 → (s.trk t).syncT1 = some t1 → (s.trk t).reqSeq = m.seqId.val →
        (s.trk t).bestSource = some m.source → (s.trk t).syncDone = true → ∃ u, exec (.delayRespRx m frq) s = .next u
          ∧ (u.trk t).meanDelay = some (divAway ((((s.trk t).syncT2 : Int) - t3) + ((ltOp m.stamp : Int) - t1)
              - (s.trk t).syncCorr - m.corr) 2) ∧ (u.trk t).reqT3 = none ∧ (u.trk t).reqInterval = m.interval)))
  ∧ (∀ s : State, s.awake = true → s.spn.refclk = true →
      (∀ (m : AnnounceMsg), (s.rxLive m.rx.port.val m.rx.head = false → exec (.announceRx m) s = .next s)
        ∧ (s.rxLive m.rx.port.val m.rx.head = true → s.frameOk m.rx.port.val m.rx.head .ptp = false →
          exec (.announceRx m) s = .next (s.bump (R.NET_STAT m.rx.port.val) F.NET_STAT_RXDROP)))
      ∧ (∀ (m : AnnounceMsg) t, s.rxLive m.rx.port.val m.rx.head = true → s.frameOk m.rx.port.val m.rx.head .ptp = true →
        s.refreshTrackers = s → s.ptpTracker m.domain.val = some t → (s.trk t).bestSource = some m.source →
        ∃ u, exec (.announceRx m) s = .next u ∧ (u.trk t).bestSet = m.dataset ∧ (u.trk t).announceLt = s.lt)
      ∧ (∀ (m : AnnounceMsg) t, s.rxLive m.rx.port.val m.rx.head = true → s.frameOk m.rx.port.val m.rx.head .ptp = true →
        s.refreshTrackers = s → s.ptpTracker m.domain.val = some t →
        ((s.trk t).bestSource = none ∨ ((s.trk t).bestSource ≠ some m.source ∧ betterSet m.dataset (s.trk t).bestSet = true)) →
        ∃ u, exec (.announceRx m) s = .next u ∧ (u.trk t).bestSource = some m.source ∧ (u.trk t).bestSet = m.dataset)
      ∧ (∀ (m : AnnounceMsg), s.rxLive m.rx.port.val m.rx.head = true → s.frameOk m.rx.port.val m.rx.head .ptp = true →
        s.refreshTrackers = s → s.ptpTracker m.domain.val = none → exec (.announceRx m) s = .next s)
      ∧ (∀ (t : Fin 2) b, (s.trk t.val).bestSource = some b → s.fld (R.TRK_CFG t.val) F.TRK_CFG_SRC ≠ 1 →
        ∃ u, exec (.announceReceiptTimeout t) s = .next u ∧ (u.trk t.val).bestSource = none ∧ (u.trk t.val).bestSet = [])
      ∧ (∀ t : Fin 2, tkNoSource < s.tkState t.val → s.fld (R.TRK_CFG t.val) F.TRK_CFG_SRC ≠ 1 → exec (.syncTimeout t) s
        = .next ((s.moveTo ((s.trk t.val).lastSync + max (s.fld R.SPN_HOLD F.SPN_HOLD_SYNCLOSS) 1 * (s.trk t.val).interval)).losePtp
            t.val))
      ∧ (∀ (t : Fin 2) st, s.ptpOn 0 = true → s.ptpOn 1 = true → s.announceEnd (1 - t.val) ≤ s.lt ∨ s.syncEnd (1 - t.val) ≤ s.lt →
        s.spn.steering = some st → st < 2 →
        s.losePtp t.val = ((((s.dropSource 0).dropSource 1).raiseHub 128).raise 129 (1 - st)).enterHoldover)
      ∧ (∀ t : Fin 2, s.ptpOn t.val = true → s.lt < s.announceEnd (1 - t.val) → s.lt < s.syncEnd (1 - t.val) →
        s.losePtp t.val = s.loseSource t.val)
      ∧ (tkNoSource < s.tkState 2 → exec .tcExchangeTimeout s
        = .next ((s.moveTo (((s.trk 2).lastMeas.getD s.lt) + 4000000 * nsU)).loseSource 2)))
  ∧ (∀ s : State, s.awake = true → s.spn.refclk = true → ∀ p, s.exitPort = some p → ∀ tr h,
      tr = s.fld (R.NET_CTRL p) F.NET_CTRL_PTP_TR % 3 → h = s.frameHead p (if tr = 2 then 0 else 46) →
      (∀ (t : Fin 2) ph, s.tkUsed t.val = true → s.fld (R.TRK_CFG t.val) F.TRK_CFG_SRC = 0 → s.ptpP2p = false →
        ∀ x, x = max s.lt (((s.trk t.val).reqAt.map (fun l => l + pow2Sec (s.trk t.val).reqInterval)).getD s.lt) →
        ∃ u, exec (.delayReqSend t ph) s = .next u ∧ u.lt = x ∧ (u.trk t.val).reqT3 = some (stampOf x ph.val)
          ∧ (u.trk t.val).reqSeq = ((s.trk t.val).reqSeq + 1) % 65536 ∧ u.regs = s.regs ∧ (u.trk t.val).reqAt = some x
          ∧ u.out = s.out ++ (if s.txData p then [.ptp p h tr 1 (s.fld (R.TRK_CFG t.val) F.TRK_CFG_DOMAIN)
              (((s.trk t.val).reqSeq + 1) % 65536) (stampOf x ph.val) 0] else []))
      ∧ (∀ ph x, s.ptpP2p = true → x = max s.lt (((s.trk 0).pdAt.map (fun l => l + pow2Sec (signed 8 (s.fld (R.NET_PTP_CFG p) F.NET_PTP_CFG_LOG_PDLY)))).getD s.lt) →
        ∃ u, exec (.pdelayReqSend ph) s = .next u ∧ u.lt = x
          ∧ (u.trk 0).pdT1 = some (stampOf x ph.val) ∧ (u.trk 1).pdT1 = some (stampOf x ph.val) ∧ (u.trk 0).pdAt = some x
          ∧ u.out = s.out ++ (if s.txData p then [.ptp p h tr 2 0 (((s.trk 0).pdSeq + 1) % 65536) (stampOf x ph.val) 0] else []))
      ∧ (∀ (m : PtpMsg) (ph phT : Phase) t2 t3, s.rxLive m.rx.port.val m.rx.head = true → s.frameOk m.rx.port.val m.rx.head .ptp = true →
          s.ptpP2p = true → t2 = stampOf s.lt ph.val →
          t3 = stampOf ((s.lt / nsU + 1) * nsU) phT.val →
        ∃ u, exec (.pdelayReqRx m ⟨ph, phT⟩) s = .next u ∧ u.regs = s.regs ∧ u.lt = (s.lt / nsU + 1) * nsU
          ∧ u.out = s.out ++ (if !s.txData p then []
            else if s.flag (R.NET_CTRL p) F.NET_CTRL_PTP_1STEP then
              [.ptp p h tr 3 m.domain.val m.seqId.val t2 (m.corr + ((t3 : Int) - t2))]
            else [.ptp p h tr 4 m.domain.val m.seqId.val t2 0, .ptp p h tr 5 m.domain.val m.seqId.val t3 m.corr]))
      ∧ (∀ (m : PtpMsg) ph t1, s.rxLive m.rx.port.val m.rx.head = true → s.frameOk m.rx.port.val m.rx.head .ptp = true → s.ptpP2p = true → (s.trk 0).pdT1 = some t1 → (s.trk 0).pdSeq = m.seqId.val →
        m.twoStep = false → ∃ u, exec (.pdelayRespRx m false ph) s = .next u
          ∧ (u.trk 0).meanDelay = some (divAway (((stampOf s.lt ph.val : Int) - t1) - m.corr) 2)
          ∧ (u.trk 1).meanDelay = some (divAway (((stampOf s.lt ph.val : Int) - t1) - m.corr) 2) ∧ (u.trk 0).pdT1 = none)
      ∧ (∀ (m : PtpMsg) ph t1, s.rxLive m.rx.port.val m.rx.head = true → s.frameOk m.rx.port.val m.rx.head .ptp = true → s.ptpP2p = true → (s.trk 0).pdT1 = some t1 → (s.trk 0).pdSeq = m.seqId.val →
        ∃ u, exec (.pdelayRespRx m true ph) s = .next u ∧ (u.trk 0).meanDelay = some (divAway ((((s.trk 0).pdT4 : Int) - t1)
            - ((ltOp m.stamp : Int) - (s.trk 0).pdT2) - (s.trk 0).pdCorr - m.corr) 2)))

/-- R52 to R54, R61 to R65: tracker states and the switches, in an awake hub with REFCLK. A tracker becomes READY at the end of
QTIME, a restored one with 16 measurements in its place, and a PTP tracker with the other one when that holds of both; PREF is
selected when it is READY; 16 measurements within LOCK_THR lock the steering tracker, 16 above four times it unlock it; 16
disagreeing measurements raise source 138 once; holdover expires into TQ 3 with source 132; FORCE switches to the other tracker
only if Table 2.5 is met and counts in SWREF otherwise; a switch never steps LT, and the tracker that steered is READY from then
on; REVERT returns to the preferred tracker after its time if Table 2.5 is met. R67, R68: pulses per second in an awake hub. An
edge of PPS_IN is measured against the nearest whole second, and ignored as missed outside the acceptance window of a ready
tracker; three missing seconds lose the source and raise source 134, counted from the last accepted edge or, where a restored
tracker has seen none, from its restoring; PPS_OUT rises at its next boundary and falls after WIDTH milliseconds; with QUAL
there is no rise while TQ is HOLD_EXPIRED or FREERUN, and where PPS_OUT may not be high a pulse in progress ends. The frequency
a PPS edge shows is an operand of its row (log 11). -/
def Obligations.TrackerRows : Prop :=
  (∀ s : State, s.awake = true → s.spn.refclk = true →
      (∀ t : Fin 3, s.tkState t.val ≠ tkQualifying → exec (.trackerQualified t) s = .next s)
      ∧ (s.tkState 2 = tkQualifying → (s.trk 2).restored = true → 16 ≤ (s.trk 2).measCount →
        exec (.trackerQualified 2) s = .next ((s.trackerReady 2).selectTracker 2))
      ∧ (∀ t : Fin 3, s.tkState t.val = tkQualifying → (s.trk t.val).restored = true → (s.trk t.val).measCount < 16 →
        exec (.trackerQualified t) s = .next s)
      ∧ (∀ (t : Fin 3) (u : State), s.tkState t.val = tkQualifying → (s.trk t.val).restored = false → u = s.moveTo (s.qualDue t.val) →
        exec (.trackerQualified t) s = .next ((if decide (t.val < 2) && u.qualReady (1 - t.val)
          then (u.trackerReady t.val).trackerReady (1 - t.val) else u.trackerReady t.val).selectTracker t.val))
      ∧ (∀ t, t < 2 → s.spn.steering = none → s.trackMode = true → s.tkState (s.fld R.SPN_SW F.SPN_SW_PREF) = tkReady →
        s.selectTracker t = s.startSteer (s.fld R.SPN_SW F.SPN_SW_PREF))
      ∧ (∀ t : Fin 3, s.tkState t.val = tkAcquire → 16 ≤ (s.trk t.val).inRun →
        exec (.trackerLockChange t) s = .next ((s.setTkState t.val tkLocked).setOwnTq))
      ∧ (∀ t : Fin 3, s.tkState t.val = tkLocked → 16 ≤ (s.trk t.val).outRun →
        exec (.trackerLockChange t) s = .next ((s.setTkState t.val tkAcquire).setOwnTq))
      ∧ (16 ≤ s.spn.disCount → s.spn.over138 = false → exec .domainDisagreement s
        = .next (({ s with spn := { s.spn with over138 := true } }).raiseHub 138))
      ∧ (s.spn.over138 = true → exec .domainDisagreement s = .next s)
      ∧ (∀ t, s.spn.holdSince = some t → s.spn.ownTq = 2 → ∃ u : State,
        exec .holdExpired s = .next ((u.raiseHub 132).updTq) ∧ u.spn.ownTq = 3 ∧ u.regs = s.regs)
      ∧ (∀ v : Word, v.toNat.testBit 1 = false → exec (.spnSwForce v) s = .next (s.writeFlds R.SPN_SW spnSwFlds v))
      ∧ (∀ v : Word, v.toNat.testBit 1 = true → s.spn.steering = none → exec (.spnSwForce v) s
        = .next ((s.writeFlds R.SPN_SW spnSwFlds v).bump R.SPN_STAT F.SPN_STAT_SWREF))
      ∧ (∀ (v : Word) t, v.toNat.testBit 1 = true → s.spn.steering = some t → t < 2 →
        (s.writeFlds R.SPN_SW spnSwFlds v).switchOk (1 - t) = true → exec (.spnSwForce v) s
          = .next ((s.writeFlds R.SPN_SW spnSwFlds v).switchTo (1 - t)))
      ∧ (∀ (v : Word) t, v.toNat.testBit 1 = true → s.spn.steering = some t →
        2 ≤ t ∨ (s.writeFlds R.SPN_SW spnSwFlds v).switchOk (1 - t) = false → exec (.spnSwForce v) s
          = .next ((s.writeFlds R.SPN_SW spnSwFlds v).bump R.SPN_STAT F.SPN_STAT_SWREF))
      ∧ (∀ t o, s.spn.steering = some t → tkReady < s.tkState t → t < 3 → o < 3 → o ≠ t →
        ((s.switchTo o).trk t).readySince = s.lt ∧ (s.switchTo o).tkState t = tkReady ∧ (s.switchTo o).spn.steering = some o
          ∧ (s.switchTo o).lt = s.lt)
      ∧ (s.flag R.SPN_SW F.SPN_SW_REVERT = true → s.spn.steering = some (1 - s.fld R.SPN_SW F.SPN_SW_PREF) →
        s.tkState (s.fld R.SPN_SW F.SPN_SW_PREF) = tkReady → ∃ u : State, u = s.moveTo ((s.trk (s.fld R.SPN_SW F.SPN_SW_PREF)).readySince
          + secU * s.fld R.SPN_SW2 F.SPN_SW2_REVTIME) ∧ exec .revertSwitch s = .next
            (if u.switchOk (s.fld R.SPN_SW F.SPN_SW_PREF) then u.switchTo (s.fld R.SPN_SW F.SPN_SW_PREF) else u)))
  ∧ (∀ s : State, s.awake = true →
      (∀ t (ph : Phase) frq, s.refreshTrackers = s → s.ppsTracker = some t → s.spn.refclk = true → s.spn.ppsLast = none →
        s.tkState t < tkReady → ∃ u : State, exec (.ppsInEdge ph frq) s = .next (u.measure t ((stampOf s.lt ph.val : Int)
          - ((stampOf s.lt ph.val + secU / 2) / secU * secU : Nat)) frq.toNat secU)
          ∧ u.spn.ppsLast = some (stampOf s.lt ph.val) ∧ u.spn.ppsMissed = 0 ∧ u.regs = s.regs)
      ∧ (∀ t (ph : Phase) frq, s.refreshTrackers = s → s.ppsTracker = some t → s.spn.refclk = true → s.spn.ppsLast = none →
        tkReady ≤ s.tkState t → nsU * 1000 * s.fld R.SPN_PPS F.SPN_PPS_WIN < absI ((stampOf s.lt ph.val : Int)
          - ((stampOf s.lt ph.val + secU / 2) / secU * secU : Nat)) →
        ∃ u, exec (.ppsInEdge ph frq) s = .next u ∧ u.spn.ppsMissed = s.spn.ppsMissed + 1 ∧ u.regs = s.regs)
      ∧ (∀ t p, s.ppsTracker = some t → s.spn.refclk = true → s.spn.ppsLast = some p → tkNoSource < s.tkState t → exec .ppsMissing s
        = .next (((s.moveTo (p + 3 * secU)).loseSource t).raiseHub 134))
      ∧ (∀ t, s.ppsTracker = some t → s.spn.refclk = true → s.spn.ppsLast = none → tkNoSource < s.tkState t → exec .ppsMissing s
        = .next (((s.moveTo ((s.trk t).validSince + 3 * secU)).loseSource t).raiseHub 134))
      ∧ (s.flag R.SPN_PPS F.SPN_PPS_OUT_EN = true → s.spn.refclk = true → s.flag R.SPN_PPS F.SPN_PPS_QUAL = false →
        ∃ u, exec .ppsOutRise s = .next u ∧ u.spn.ppsHigh = true
          ∧ u.out = s.out ++ [.pin 0 1 (s.ppsRiseAt (max s.lt s.spn.ppsNext))]
          ∧ u.spn.ppsFall = s.ppsRiseAt (max s.lt s.spn.ppsNext)
              + nsU * 1000000 * min (max (s.fld R.SPN_PPS F.SPN_PPS_WIDTH) 1) 999)
      ∧ (s.flag R.SPN_PPS F.SPN_PPS_OUT_EN = true → s.spn.refclk = true → s.flag R.SPN_PPS F.SPN_PPS_QUAL = true →
        s.fld R.SPN_STAT F.SPN_STAT_TQ = 3 ∨ s.fld R.SPN_STAT F.SPN_STAT_TQ = 4 →
        ∃ u, exec .ppsOutRise s = .next u ∧ u.spn.ppsHigh = s.spn.ppsHigh ∧ u.out = s.out)
      ∧ (s.spn.ppsHigh = true → s.ppsAllowed = false → s.ppsGate.spn.ppsHigh = false
        ∧ s.ppsGate.out = s.out ++ [.pin 0 0 (stamp50 s.lt)])
      ∧ (s.spn.ppsHigh = true → s.spn.refclk = true → ∃ u, exec .ppsOutFall s = .next u ∧ u.spn.ppsHigh = false ∧ u.regs = s.regs
          ∧ u.out = s.out ++ [.pin 0 0 (max s.lt s.spn.ppsFall)]))

/-- R46, R58, R60: a STEP while a region is active, without REFCLK or with a nanosecond part above 999,999,999 is refused and
counted in STEPREF; any other steps LT to the value of SPN_SET, and one written while a step is in progress does nothing (a step
lasts until 1 us after its new LT, the model's reading, log 79). The mode written with it takes effect first: a tracker that
steers when TRACK mode ends is READY from then on (the model's choice, log 75), and the ring tracker, or the preferred one, that
is READY begins to steer when it begins. A read of SPN_LTS latches SPN_LTS_HI, SPN_LTN and SPN_LTF from the same LT, and a read
of one of those answers the latched word and keeps it latched. R60, R51, R71: after a step LT is the new value and the always-on
count has not moved, the next window begins a fresh grid and the same tracker steers. A forward step over targets of an armed
compare unit sets its LATE and raises source 139, and all but one of the targets count in MISSED; a one-shot unit is disarmed
then, a periodic one goes on at its next target after the new LT. -/
def Obligations.LocalTimeRows : Prop :=
  (∀ s : State, s.awake = true →
      (∀ (v : Word) w u, w = s.writeFlds R.SPN_CTRL spnCtrlFlds v → u = w.modeSet s.trackMode →
        (s.trackMode = (bitsOf v.toNat F.SPN_CTRL_MODE.hi F.SPN_CTRL_MODE.lo == 1) → u = w)
        ∧ (∀ t, s.trackMode = true → bitsOf v.toNat F.SPN_CTRL_MODE.hi F.SPN_CTRL_MODE.lo ≠ 1 → s.spn.steering = some t → t < 3 →
            u.spn.steering = none ∧ u.spn.fromFree = true ∧ u.tkState t = tkReady ∧ (u.trk t).readySince = s.lt)
        ∧ (s.trackMode = false → bitsOf v.toNat F.SPN_CTRL_MODE.hi F.SPN_CTRL_MODE.lo = 1 → s.spn.steering = none → s.tkState 2 = tkReady →
            u = w.startSteer 2)
        ∧ (s.trackMode = false → bitsOf v.toNat F.SPN_CTRL_MODE.hi F.SPN_CTRL_MODE.lo = 1 → s.spn.steering = none → s.tkState 2 ≠ tkReady →
            s.tkState (s.fld R.SPN_SW F.SPN_SW_PREF) = tkReady → u = w.startSteer (s.fld R.SPN_SW F.SPN_SW_PREF))
        ∧ (v.toNat.testBit 3 = true → s.spn.refclk = false ∨ (s.spn.stepUntil ≤ s.lt ∧ (s.anyActive = true
            ∨ 999999999 < (s.reg R.SPN_SETN).toNat)) → exec (.spnCtrlStep v) s = .next (u.bump R.SPN_STAT F.SPN_STAT_STEPREF))
        ∧ (v.toNat.testBit 3 = true → s.spn.stepUntil ≤ s.lt → s.anyActive = false → s.spn.refclk = true →
            (s.reg R.SPN_SETN).toNat ≤ 999999999 → exec (.spnCtrlStep v) s = .next (u.stepTo s.spnTarget))
        ∧ (v.toNat.testBit 3 = false ∨ (s.spn.refclk = true ∧ s.lt < s.spn.stepUntil) → exec (.spnCtrlStep v) s = .next u))
      ∧ (∃ t, exec .spnLtsRead s = .next t ∧ t.bus = ⟨ltSec s.lt % 2 ^ 32, 0, []⟩
          ∧ t.latched R.SPN_LTS_HI = some (BitVec.ofNat 32 (ltSec s.lt / 2 ^ 32))
          ∧ t.latched R.SPN_LTN = some (BitVec.ofNat 32 (ltNs s.lt)) ∧ t.latched R.SPN_LTF = some (BitVec.ofNat 32 (ltFrac s.lt))
          ∧ t.regs = s.regs)
      ∧ (∀ a w, a = R.SPN_LTS_HI ∨ a = R.SPN_LTN ∨ a = R.SPN_LTF → s.latched a = some w → ∃ t,
          exec (.pairLowerRead a) s = .next t ∧ t.bus = ⟨w.toNat, 0, []⟩ ∧ t.latch = s.latch))
  ∧ (∀ (s : State) (new : Nat), (s.stepTo new).lt = new ∧ (s.stepTo new).always = s.always
      ∧ (s.stepTo new).spn.gridDue = true ∧ (s.stepTo new).spn.stepUntil = new + 1000 * nsU
      ∧ (s.stepTo new).spn.steering = s.spn.steering
      ∧ (new ≤ s.lt → ∀ m : Fin 16, (s.stepTo new).reg (R.CMP_CTRL m.val) = s.reg (R.CMP_CTRL m.val)
          ∧ (s.stepTo new).cmpU m.val = s.cmpU m.val)
      ∧ (∀ (m : Fin 16) k, s.lt < new → s.cmpArmed m.val = true → k = passedTargets (s.cmpU m.val).target (s.cmpPer m.val) new → 0 < k →
          (s.stepTo new).flag (R.CMP_CTRL m.val) F.CMP_CTRL_LATE = true ∧ (s.stepTo new).srcBit R.FLT_STICKY 139 = true
          ∧ (s.stepTo new).fld (R.CMP_CTRL m.val) F.CMP_CTRL_MISSED = satInc 8 (s.fld (R.CMP_CTRL m.val) F.CMP_CTRL_MISSED) (k - 1)
          ∧ (s.cmpPer m.val = 0 → (s.stepTo new).cmpArmed m.val = false)
          ∧ (s.cmpPer m.val ≠ 0 → (s.stepTo new).cmpArmed m.val = true
              ∧ ((s.stepTo new).cmpU m.val).target = (s.cmpU m.val).target + k * s.cmpPer m.val)))

/-- R9, R69 to R72: the compare units. A write of CMP_T_HI makes both words of the target take effect: a nanosecond part above
999,999,999 leaves the unit disarmed with BADT and MISSED as it was; the lower word is the one held by a write of CMP_T before,
if any; a target at least 500 ns ahead arms the unit; a late one sets LATE and raises source 139, and either fires at once where
LATE_FIRE is set, the other passed targets counting in MISSED, or all of them count and nothing fires; then a one-shot unit is
left disarmed and a periodic one armed for its first target that is not late; without REFCLK a unit with LATE_FIRE is armed with
its target (the model's choice, log 100); an armed unit fires at its target, once or every period; DISARM disarms; the last
pulse's end drops TRIG_OUT. -/
def Obligations.CompareRows : Prop :=
  ∀ s : State, s.awake = true → ∀ m : Fin 16,
    (∀ v : Word, 999999999 < ((s.heldAt (R.CMP_T m.val)).getD (s.reg (R.CMP_T m.val))).toNat % 2 ^ 30 →
      ∃ t, exec (.cmpArm m v) s = .next t ∧ t.cmpArmed m.val = false ∧ t.flag (R.CMP_CTRL m.val) F.CMP_CTRL_ARMED = false
        ∧ t.flag (R.CMP_CTRL m.val) F.CMP_CTRL_BADT = true
        ∧ t.fld (R.CMP_CTRL m.val) F.CMP_CTRL_MISSED = s.fld (R.CMP_CTRL m.val) F.CMP_CTRL_MISSED)
    ∧ (∀ (v : Word) (st k : Nat) (g : Int), st = ((s.heldAt (R.CMP_T m.val)).getD (s.reg (R.CMP_T m.val))).toNat
        + ((s.writeFlds (R.CMP_T_HI m.val) [F.CMP_T_HI_T_HI] v).reg (R.CMP_T_HI m.val)).toNat * 2 ^ 32 →
      stValid st = true → g = stToLt s.lt st → k = passedTargets g (s.cmpPer m.val) ((s.lt : Int) + 500 * nsU - 1) →
      ∃ t, exec (.cmpArm m v) s = .next t ∧ t.pair (R.CMP_T m.val) (R.CMP_T_HI m.val) = st ∧ t.heldAt (R.CMP_T m.val) = none
        ∧ ((s.lt : Int) + 500 * nsU ≤ g → k = 0)
        ∧ (k = 0 ∨ (s.flag (R.CMP_CTRL m.val) F.CMP_CTRL_LATE_FIRE = true ∧ s.spn.refclk = false) →
            t.cmpArmed m.val = true ∧ (t.cmpU m.val).target = g
            ∧ t.fld (R.CMP_CTRL m.val) F.CMP_CTRL_MISSED = s.fld (R.CMP_CTRL m.val) F.CMP_CTRL_MISSED)
        ∧ (0 < k → s.flag (R.CMP_CTRL m.val) F.CMP_CTRL_LATE_FIRE = false ∨ s.spn.refclk = true →
            t.flag (R.CMP_CTRL m.val) F.CMP_CTRL_LATE = true ∧ t.srcBit R.FLT_STICKY 139 = true
            ∧ t.fld (R.CMP_CTRL m.val) F.CMP_CTRL_MISSED = satInc 8 (s.fld (R.CMP_CTRL m.val) F.CMP_CTRL_MISSED)
                (if s.flag (R.CMP_CTRL m.val) F.CMP_CTRL_LATE_FIRE then k - 1 else k)
            ∧ (s.cmpPer m.val = 0 → t.cmpArmed m.val = false)
            ∧ (s.cmpPer m.val ≠ 0 → t.cmpArmed m.val = true ∧ (t.cmpU m.val).target = g + k * s.cmpPer m.val
                ∧ (s.lt : Int) + 500 * nsU ≤ (t.cmpU m.val).target)
            ∧ (s.flag (R.CMP_CTRL m.val) F.CMP_CTRL_LATE_FIRE = true → ∃ u : State, t = u.cmpActions m.val s.lt ∧ u.spn.pulses = s.spn.pulses)
            ∧ (s.flag (R.CMP_CTRL m.val) F.CMP_CTRL_LATE_FIRE = false → t.spn.pulses = s.spn.pulses)))
    ∧ (s.cmpArmed m.val = true → s.spn.refclk = true → s.cmpPer m.val = 0 → ∃ u : State, exec (.cmpFire m) s
        = .next (u.cmpActions m.val (s.cmpU m.val).target.toNat) ∧ u.cmpArmed m.val = false)
    ∧ (s.cmpArmed m.val = true → s.spn.refclk = true → s.cmpPer m.val ≠ 0 → ∃ u : State, exec (.cmpFire m) s
        = .next (u.cmpActions m.val (s.cmpU m.val).target.toNat)
        ∧ (u.cmpU m.val).target = (s.cmpU m.val).target + s.cmpPer m.val ∧ u.regs = s.regs)
    ∧ (∀ v : Word, v.toNat.testBit 0 = true → ∃ t, exec (.cmpCtrlDisarm m v) s = .next t ∧ t.cmpArmed m.val = false)
    ∧ (∀ p, s.spn.pulses = [p] → ∃ t, exec .trigOutPulseEnd s = .next t ∧ t.spn.pulses = []
        ∧ (s.spn.refclk = true → t.out = s.out ++ [.pin 1 0 (max s.lt p)]))

/-- R54, R56, R73, R332, R335, R336: the two-way exchange and the time status on the ring. The exchange starts at the next whole
millisecond, with T1 stamped at the next stripe position; a T1 from upstream is stamped and answered with T3 at the first stripe
position from the next core cycle on (the model's choice, log 82), stamped again; a T3 from downstream is stamped and returned
in T4; T4 completes the exchange and measures tracker 2, or voids it; the full-time word and the notice bring the active exit's
time status; a full-time word of an exchange whose T1 has not come voids it. A TIME block goes out on lane 0 of its link, after
IDLE and ALIGN blocks where the stream stands elsewhere. -/
def Obligations.TimeExchangeRows : Prop :=
  ∀ s : State, s.awake = true →
    (∀ at0, at0 = (s.lt / (1000000 * nsU) + 1) * (1000000 * nsU) → s.spn.refclk = true →
      ∃ t, exec .timeExchangeStart s = .next t ∧ t.lt = at0 ∧ t.spn.txXseq = (s.spn.txXseq + 1) % 16
        ∧ ((∀ k < 2, s.linkTx k = false) → t.out = s.out ∧ t.regs = s.regs)
        ∧ (s.isExit = true → s.linkTx 0 = true → s.linkTx 1 = false → ∃ rest,
            ∃ pre : List Out, (∀ o ∈ pre, ∃ j, o = .block 0 j (s.linkInv 0) (ctlBlock (0x1E * 2 ^ 48))
              ∨ o = .block 0 j (s.linkInv 0) (ctlBlock (0x4B * 2 ^ 48 + j * 2 ^ 40)))
            ∧ t.out = s.out ++ pre ++ .block 0 0 (s.linkInv 0)
                (timeBlock 1 s.spn.txXseq (stripeAt (s.fld (R.CHP_STAT 0) F.CHP_STAT_GEN) at0)) :: rest))
    ∧ (∀ (k : Fin 2) (xseq : Fin 16) stamp (ph : Phase) t2 t3, t2 = stampOf s.lt ph.val →
      t3 = stripeAt (s.fld (R.CHP_STAT k.val) F.CHP_STAT_GEN) ((s.lt / nsU + 1) * nsU) → s.refreshTrackers = s → s.upLink = some k.val → s.spn.refclk = true →
      s.spn.xchg.t1 = none → ∃ t, exec (.timeT1Rx k xseq stamp ph) s = .next t
        ∧ t.spn.xchg = ⟨xseq.val, some stamp.toNat, none, t2, t3⟩
        ∧ (s.linkTx k.val = false → t.out = s.out)
        ∧ (s.linkTx k.val = true → ∃ pre : List Out, (∀ o ∈ pre, ∃ j, o = .block k.val j (s.linkInv k.val) (ctlBlock (0x1E * 2 ^ 48))
            ∨ o = .block k.val j (s.linkInv k.val) (ctlBlock (0x4B * 2 ^ 48 + j * 2 ^ 40)))
          ∧ t.out = s.out ++ pre ++ [.block k.val 0 (s.linkInv k.val) (timeBlock 2 xseq.val t3)]))
    ∧ (∀ (k : Fin 2) (xseq : Fin 16) stamp (ph : Phase), s.spn.refclk = true → s.upLink ≠ some k.val →
      ∃ t, exec (.timeT3Rx k xseq stamp ph) s = .next t ∧ t.spn.txT4 = some (stampOf s.lt ph.val)
        ∧ (s.linkTx k.val = false → t.out = s.out)
        ∧ (s.linkTx k.val = true → ∃ pre : List Out, (∀ o ∈ pre, ∃ j, o = .block k.val j (s.linkInv k.val) (ctlBlock (0x1E * 2 ^ 48))
            ∨ o = .block k.val j (s.linkInv k.val) (ctlBlock (0x4B * 2 ^ 48 + j * 2 ^ 40)))
          ∧ t.out = s.out ++ pre ++ [.block k.val 0 (s.linkInv k.val) (timeBlock 3 xseq.val (stampOf s.lt ph.val))]))
    ∧ (∀ (k : Fin 2) (xseq : Fin 16) (stamp : BitVec 40) frq t1 f1, s.spn.refclk = true → s.upLink = some k.val → s.spn.xchg.t1 = some t1 →
      s.spn.xchg.fullT1 = some f1 → s.spn.xchg.xseq = xseq.val →
      extendStamp f1 stamp.toNat - f1 ≤ 8000000 * (nsU : Int) → ∃ u : State,
      exec (.timeT4Rx k xseq stamp frq) s = .next (u.measure 2 (divAway (((s.spn.xchg.t2 : Int) - f1)
          - (extendStamp f1 stamp.toNat - s.spn.xchg.t3)
          - signed 32 (s.reg (if k.val = 0 then R.SPN_HOP_ASYM_U else R.SPN_HOP_ASYM_D)).toNat) 2) frq.toNat (1000000 * nsU))
        ∧ u.spn.voided = 0 ∧ u.regs = s.regs)
    ∧ (∀ (k : Fin 2) (xseq : Fin 16) stamp frq, s.spn.refclk = true → s.upLink = some k.val → s.spn.xchg.t1 = none →
      exec (.timeT4Rx k xseq stamp frq) s = .next s.voidExchange)
    ∧ (∀ (k : Fin 2) (xseq : Fin 16) (tstat : Fin 256) snd t, s.spn.refclk = true → s.upLink = some k.val → s.isExit = false →
      s.spn.xchg.xseq ≠ xseq.val → s.spn.xchg.t1 = none → s.spn.voided < 3 →
      ∃ u, exec (.fullTimeWordRx k xseq tstat snd t) s = .next u ∧ u.spn.voided = s.spn.voided + 1
        ∧ u.spn.xchg = ⟨xseq.val, none, none, 0, 0⟩ ∧ u.fld R.SPN_STAT F.SPN_STAT_DOM = tstat.val / 128)
    ∧ (∀ (k : Fin 2) (xseq : Fin 16) (tstat : Fin 256) snd t, s.spn.refclk = true → s.upLink = some k.val → s.isExit = false →
      s.spn.xchg.xseq = xseq.val →
      ∃ u, exec (.fullTimeWordRx k xseq tstat snd t) s = .next u
        ∧ u.fld R.SPN_STAT F.SPN_STAT_DOM = tstat.val / 128
        ∧ u.fld R.SPN_STAT F.SPN_STAT_TQ = max s.spn.ownTq (min (tstat.val % 16) 4) % 16)
    ∧ (∀ (k : Fin 2) (m : Vc1Msg) v, s.takeVc1 k.val 0x12 m = (v, true) → v.isExit = false →
      ∃ u, exec (.timeStatusNoticeRx k m) s = .next u ∧ u.spn.ringTq = min (m.byte0.val % 16) 4
        ∧ u.spn.ringDom = m.byte0.val / 128)

/-- R66, R259, R109: at the loss of REFCLK every region is stopped as the loss rule says: a converting one waits for its
restart, one that was stopping has stopped, one whose start was pending is refused with cause 4, and a stopped one is left
alone; LT and the always-on count of that instant are kept, and a second loss changes nothing. The relock moves LT on by the
elapsed cycles of the 32.768 kHz clock, every running stream reports its loss now or waits for the restarts it awaits, and the
hub is free-running with TQ 4 and the ring tracker without source; a fresh grid mark follows (the model's choice, log 106), and
the writes that waited for the dies go. A region that waits for its restart starts at its first start point at least 100 ms
after the relock, and the contexts that awaited it get the record of their loss. When the record of the rows left out is
appended is the model's reading (log 84). -/
def Obligations.RefclkRows : Prop :=
  ∀ s : State, s.awake = true →
    (s.spn.refclk = true → ∃ u : State, exec .refclkLoss s = .next (u.forEach (List.range 8) (fun x g => x.lossRegion g))
        ∧ u.spn.refclk = false ∧ u.spn.lossLt = s.lt ∧ u.spn.lossAlways = s.always ∧ u.lt = s.lt)
    ∧ (s.spn.refclk = false → exec .refclkLoss s = .next s)
    ∧ (∀ g, g < 8 → (s.rgState g = rgConverting → (s.lossRegion g).rgState g = rgPending ∧ ((s.lossRegion g).rg g).restart = true)
        ∧ (s.rgState g = rgStopPending → (s.lossRegion g).rgState g = rgStopped)
        ∧ (s.rgState g = rgPending → s.lossRegion g = (s.regionStopped g).refuseStart g 4)
        ∧ (s.rgState g = rgStopped → s.lossRegion g = s))
    ∧ (∀ n, s.spn.refclk = false → s.isExit = false → ∃ u w : State, w = u.cmpStep.lanesBack.forEach (List.range 4) (fun x d => x.dieResume d)
        ∧ exec (.refclkRelock n) s = .next (w.forEach w.strActive (fun x c => x.lossRelock (s.spn.lossLt + cycU * n) c))
        ∧ u.spn.gridDue = true ∧ u.spn.relockLt = s.spn.lossLt + cycU * n
        ∧ u.lt = s.spn.lossLt + cycU * n ∧ u.spn.refclk = true ∧ u.spn.steering = none ∧ u.spn.ownTq = 4 ∧ u.spn.steered = false
        ∧ (s.tkState 2 ≠ tkDisabled → u.tkState 2 = tkNoSource))
    ∧ (∀ n, s.spn.refclk = true → exec (.refclkRelock n) s = .next s)
    ∧ (∀ g : Fin 8, s.rgState g.val ≠ rgPending → exec (.regionRestart g) s = .next s)
    ∧ (∀ (g : Fin 8) t (u : State), s.rgState g.val = rgPending → (s.rg g.val).restart = true → s.spn.refclk = true →
        s.startPoint g.val (max s.lt (s.spn.relockLt + 100000000 * nsU)) = some t → u = s.moveTo t →
        exec (.regionRestart g) s = .next ((u.forEach (u.lossFor g.val) (fun x c => x.lossGap c t)).startRegion g.val t))

/-- R238, R246, R247, R249, R252, R255, R260, R262, R334: the rows of the streams in an awake hub. ABORT goes before STOP and
STOP before START; a start of a records context that nothing refuses runs it from item 0; a refused one shows CFGERR with source
196 and keeps its state; a row whose samples are complete is appended and the next one is named by its close; spilled data moves
into its FIFO when that has room for the whole page beside the reserve of R262, or is empty (the model's choice, log 113); the
open packet closes at its flush time; a due descriptor is appended or waits for a gap to end; a sent packet goes out at the
active exit or up the ring; a confirmation and a drop entry act as the shared operations say. R255 to R259, R249: gaps and
spill. A row whose samples are complete is the item of its name; every item is counted. Where it does not fit, or a record
waits, a gap begins with it: GAP, GAPCNT + 1, source 197, and the open packet closes. A further item is counted in the running
gap and not stored. When an eighth of the FIFO and room for the record and the item are free the gap ends: its STREAM_GAP record
first, in a packet of its own with the bounds and the count of the missing items, then the waiting descriptor where there is
room for both, then the item. With no free FIFO unit a unit goes to the spill page being written, else to the lowest free page,
the first one raising source 198. What waits for room is taken up before the item (the model's reading, log 59). R246, R261: a
confirmation of PSEQ q releases exactly the packets up to the sent one with that number, and RP passes them. The order in which
waiting records enter is the model's reading (log 59). -/
def Obligations.StreamRows : Prop :=
  (∀ s : State, s.awake = true → ∀ c : Fin 512,
      (∀ v : Word, v.toNat % 8 = 1 → s.strState c.val = 0 → s.ggeTesting = false → s.flt.ended = [] → s.ggeOn c.val = false →
        (s.writeFlds (R.STR_CTRL c.val) [F.STR_CTRL_ABORT, F.STR_CTRL_STOP, F.STR_CTRL_START] v).startCause c.val false = none →
        s.strRecords c.val = true → ∃ t, exec (.strCtrlStart c v) s = .next t ∧ t.strState c.val = 1 ∧ t.strIcnt c.val = 0
          ∧ (t.st c.val).pkts = [] ∧ (t.st c.val).startLt = s.lt ∧ (t.st c.val).starts = ((s.st c.val).starts + 1) % 65536)
      ∧ (∀ (v : Word) k, v.toNat % 8 = 1 → s.ggeTesting = false → s.flt.ended = [] → s.ggeOn c.val = false →
        (s.writeFlds (R.STR_CTRL c.val) [F.STR_CTRL_ABORT, F.STR_CTRL_STOP, F.STR_CTRL_START] v).startCause c.val false = some k →
        ∃ u : State, exec (.strCtrlStart c v) s = .next (u.raise 196 c.val)
          ∧ u.flag (R.STR_STAT c.val) F.STR_STAT_CFGERR = true ∧ u.strState c.val = s.strState c.val)
      ∧ (∀ v : Word, v.toNat / 2 % 4 = 1 → exec (.strCtrlStop c v) s = .next ((s.writeFlds (R.STR_CTRL c.val)
          [F.STR_CTRL_ABORT, F.STR_CTRL_STOP, F.STR_CTRL_START] v).strStop c.val))
      ∧ (∀ v : Word, v.toNat.testBit 2 = true → exec (.strCtrlAbort c v) s = .next ((s.writeFlds (R.STR_CTRL c.val)
          [F.STR_CTRL_ABORT, F.STR_CTRL_STOP, F.STR_CTRL_START] v).ctxAbort c.val))
      ∧ (∀ name close, s.strState c.val = 1 → s.strRecords c.val = false → s.strNext c.val = some (name, close) →
        s.rowReady (s.strMembers c.val) close = true → ∃ t, exec (.streamRowAppend c) s = .next t
          ∧ (t.st c.val).lastRow = some name ∧ (t.st c.val).nextRow = close)
      ∧ (∀ p rest, (s.st c.val).spill = p :: rest → (p.count + ((s.st c.val).wp - (s.st c.val).rp) ≤ s.rowSpace c.val ∨ (s.st c.val).wp = (s.st c.val).rp ∧ p.count ≤ s.strUnits c.val) →
        ∃ t, exec (.spillDrain c) s = .next t ∧ (t.st c.val).spill = rest ∧ (t.st c.val).wp = (s.st c.val).wp + p.count)
      ∧ (∀ o, (s.st c.val).cur = some o → ∃ t k, exec (.packetFlush c) s = .next t ∧ (t.st c.val).cur = none
          ∧ (t.st c.val).pkts = (s.st c.val).pkts ++ [k] ∧ k.first = o.first ∧ k.items = o.items)
      ∧ (∀ x, (s.st c.val).descAt = some x → s.strState c.val = 1 → (s.st c.val).gap ≠ none →
        ∃ t, exec (.descriptorDue c) s = .next t ∧ (t.st c.val).descWaits = true ∧ (t.st c.val).descAt = none ∧ t.regs = s.regs)
      ∧ (∀ x, (s.st c.val).descAt = some x → s.strState c.val = 1 → (s.st c.val).gap = none → (s.st c.val).gapWaits = [] →
        s.descUnits c.val ≤ s.freeUnits c.val → exec (.descriptorDue c) s = .next ((s.moveTo x).appendDesc c.val))
      ∧ (∀ stored, s.sendItem c.val stored = none → exec (.packetSend c stored) s = .next s)
      ∧ (∀ stored q bs p, s.sendItem c.val stored = some (q, bs) → s.exitPort = some p →
        s.senderFree ⟨s.hubId, c.val, s.fld (R.STR_SEND c.val) F.STR_SEND_DST, q, bs, s.lt⟩ = true →
        exec (.packetSend c stored) s = .next ((s.sendTake c.val stored q).exitSend p
          ⟨s.hubId, c.val, s.fld (R.STR_SEND c.val) F.STR_SEND_DST, q, bs, s.lt⟩))
      ∧ (∀ stored q bs k, s.sendItem c.val stored = some (q, bs) → s.exitPort = none → s.upLink = some k →
        s.senderFree ⟨s.hubId, c.val, s.fld (R.STR_SEND c.val) F.STR_SEND_DST, q, bs, s.lt⟩ = true →
        exec (.packetSend c stored) s = .next ((s.sendTake c.val stored q).sendUp k c.val q bs))
      ∧ (∀ pseq, s.ggeOn c.val = false → exec (.streamConfirmation c pseq) s = .next (s.confirm c.val pseq.toNat))
      ∧ (∀ pseq, s.ggeOn c.val = false → exec (.dropEntry c pseq) s = .next (s.dropPkt c.val pseq.toNat)))
  ∧ (∀ (s : State) (c : Fin 512),
      (∀ name close, s.awake = true → s.strState c.val = 1 → s.strRecords c.val = false → s.strNext c.val = some (name, close) →
        s.rowReady (s.strMembers c.val) close = true → (s.st c.val).lossAt = none → ∃ m u w : State, m = s.moveTo (close + 200000 * nsU)
          ∧ u = m.itemArrives c.val name (.row (rowImage (m.strFmt c.val) ((m.strMembers c.val).map (fun n => m.tapAt n (m.strTap c.val) name))))
          ∧ w = u.setStr c.val { u.st c.val with lastRow := some name }
          ∧ exec (.streamRowAppend c) s = .next (w.setStr c.val { w.st c.val with nextRow := close }))
      ∧ (∀ lt it (a : State), a = (s.setIcnt c.val (s.strIcnt c.val + 1)).appendWaits c.val → (a.st c.val).gap = none →
        (a.st c.val).descWaits = false → ((a.st c.val).gapWaits ≠ [] ∨ a.freeUnits c.val < a.itemUnits c.val lt it) →
        ∃ b : State, s.itemArrives c.val lt it = (b.bump (R.STR_STAT c.val) F.STR_STAT_GAPCNT).raise 197 c.val
          ∧ (b.st c.val).gap = some ⟨1, lt, lt, s.strIcnt c.val, 1⟩ ∧ (b.st c.val).cur = none
          ∧ b.flag (R.STR_STAT c.val) F.STR_STAT_GAP = true
          ∧ ((a.st c.val).cur = none → (b.st c.val).pkts = (a.st c.val).pkts)
          ∧ (∀ o, (a.st c.val).cur = some o → ∃ k, (b.st c.val).pkts = (a.st c.val).pkts ++ [k] ∧ k.first = o.first ∧ k.items = o.items))
      ∧ (∀ lt it g (a : State), a = (s.setIcnt c.val (s.strIcnt c.val + 1)).appendWaits c.val → (a.st c.val).gap = some g →
        ((a.st c.val).gapWaits ≠ [] ∨ 32 * a.freeUnits c.val < a.strPages c.val * 4096 / 8 ∨ a.freeUnits c.val < a.freshUnits c.val it + 4) →
        ((s.itemArrives c.val lt it).st c.val).gap = some ⟨g.cause, g.ltFirst, lt, g.idxFirst, g.count + 1⟩
          ∧ ((s.itemArrives c.val lt it).st c.val).pkts = (a.st c.val).pkts
          ∧ ((s.itemArrives c.val lt it).st c.val).cur = (a.st c.val).cur)
      ∧ (∀ lt it g (a : State), a = (s.setIcnt c.val (s.strIcnt c.val + 1)).appendWaits c.val → (a.st c.val).gap = some g →
        (a.st c.val).gapWaits = [] → a.strPages c.val * 4096 / 8 ≤ 32 * a.freeUnits c.val → a.freshUnits c.val it + 4 ≤ a.freeUnits c.val →
        ∃ b : State, b = (a.setStr c.val { a.st c.val with gap := none }).appendGap c.val g
          ∧ ((b.st c.val).descWaits = true ∧ b.descUnits c.val + b.freshUnits c.val it ≤ b.freeUnits c.val →
            s.itemArrives c.val lt it = (b.appendDesc c.val).storeItem c.val lt (s.strIcnt c.val) it)
          ∧ (¬ ((b.st c.val).descWaits = true ∧ b.descUnits c.val + b.freshUnits c.val it ≤ b.freeUnits c.val) →
            s.itemArrives c.val lt it = b.storeItem c.val lt (s.strIcnt c.val) it))
      ∧ (∀ g, ∃ (d : State) (hd : List Byte) (k : Pkt), d = (s.closePkt c.val false false).openPkt c.val 2 g.ltFirst g.idxFirst (decide (g.cause = 4))
          ∧ ((s.appendGap c.val g).st c.val).pkts = ((s.closePkt c.val false false).st c.val).pkts ++ [k]
          ∧ k.bytes = hd ++ container 0x50 true true (d.st c.val).rseq (d.gapRecord c.val g) ∧ hd.length = 32
          ∧ k.gapOnly = true ∧ k.items = g.count ∧ k.idxFirst = g.idxFirst ∧ k.ltFirst = g.ltFirst ∧ k.ltLast = g.ltLast
          ∧ ((s.appendGap c.val g).st c.val).cur = none)
      ∧ (∀ bs o rows lt idx, (s.st c.val).cur = some o → s.rowContinues c.val lt = true → rows = (if s.strTimed c.val then beBytes 8 (lt - o.name) else []) ++ bs →
        ∃ k, ((s.storeItem c.val lt idx (.row bs)).st c.val).cur = some k ∧ k.payload = o.payload ++ rows
          ∧ k.items = o.items + 1 ∧ k.count = o.count + 1 ∧ k.ltLast = lt ∧ k.first = o.first)
      ∧ (∀ bs lt idx, s.rowContinues c.val lt = false →
        ∃ k, ((s.storeItem c.val lt idx (.row bs)).st c.val).cur = some k
          ∧ k.payload = (if s.strTimed c.val then beBytes 8 0 else []) ++ bs ∧ k.items = 1 ∧ k.name = lt ∧ k.idxFirst = idx)
      ∧ (∀ deep bs p, s.fifoRoom c.val deep = 0 → (s.st c.val).spill.getLast? = some p → p.count < 128 →
        p.first + p.count = (s.st c.val).wr → (∀ q ∈ (s.st c.val).spill, q.first + q.count ≤ (s.st c.val).wr) →
        ∃ t, s.storeUnit c.val deep bs = t ∧ (t.st c.val).spill = (s.st c.val).spill.dropLast ++ [⟨p.page, p.first, p.count + 1⟩]
          ∧ (t.st c.val).wr = (s.st c.val).wr + 1 ∧ (t.st c.val).wp = (s.st c.val).wp
          ∧ t.bytes (0x04000000 + p.page * 4096 + 32 * p.count) 32 = bytesAt bs 0 32)
      ∧ (∀ deep bs p q r, s.fifoRoom c.val deep = 0 → (s.st c.val).spill.getLast? = some p → 128 ≤ p.count → s.spillFree = q :: r →
        (∀ x ∈ (s.st c.val).spill, x.first + x.count ≤ (s.st c.val).wr) →
        ∃ t, s.storeUnit c.val deep bs = t ∧ (t.st c.val).spill = (s.st c.val).spill ++ [⟨q, (s.st c.val).wr, 1⟩]
          ∧ t.bytes (0x04000000 + q * 4096) 32 = bytesAt bs 0 32)
      ∧ (∀ deep bs q r, s.fifoRoom c.val deep = 0 → (s.st c.val).spill = [] → s.spillFree = q :: r →
        ∃ u : State, s.storeUnit c.val deep bs = (u.raise 198 c.val).setBytes (0x04000000 + q * 4096) (bytesAt bs 0 32)
          ∧ (u.st c.val).spill = [⟨q, (s.st c.val).wr, 1⟩] ∧ u.flag (R.STR_STAT c.val) F.STR_STAT_SPILLING = true))
  ∧ (∀ (s : State) (c q : Nat), (s.st c).stopWaits = none → (s.st c).gapWaits = [] →
      ((s.confirm c q).st c).pkts = (s.st c).pkts.drop (pktsUpTo (s.st c).pkts q)
      ∧ (∀ p, ((s.st c).pkts.take (pktsUpTo (s.st c).pkts q)).getLast? = some p →
          ((s.confirm c q).st c).rp = p.first + p.units))

/-- R304, R320 to R324, R326, R334, R342, R384: the rows of the network ports in an awake hub. A frame at a port whose lane is
in a test mode or whose inversion RXINV does not undo brings nothing; one the active exit does not accept (another port, a
destination that is not the port's, the wrong tag, a frame too long, no service of the port) counts in RXDROP and has no other
effect. Accepted, a request for an address of the port is answered and any other is not; a reply enters the cache; an echo
carries its data back; a claim of one of the port's own addresses for another MAC sets IPCONF and raises source 201, and the
port keeps its addresses. A destination becomes unresolved once, which begins the episode of source 202, and is tried again
every 100 ms; packets held for 2 ms expire; a datagram that passed the echo monitor is confirmed; the end of LOS on a lane
clears its mark, and an active exit then offers its held packets again. A frame leaves only while the lane carries data. The
inversion recorded beside what is sent, and the hop limits and DSCPs the tables leave open, are the model's reading (logs 81 and
83). -/
def Obligations.NetworkRows : Prop :=
  ∀ s : State, s.awake = true →
    (∀ (p : RxPort) (svc : Service) (c : Instr), ((svc = .arp ∧ ((∃ a b m, c = .arpRequestRx p a b m) ∨ (∃ a m, c = .arpReplyRx p a m)))
        ∨ (svc = .ndp ∧ ((∃ a b, c = .neighbourSolicitationRx p a b) ∨ (∃ a m, c = .neighbourAdvertisementRx p a m)))
        ∨ (svc = .echo ∧ ∃ data v a b x y, c = .icmpEchoRequest ⟨p, data⟩ v a b x y)) →
      (s.rxLive p.port.val p.head = false → exec c s = .next s)
      ∧ (s.rxLive p.port.val p.head = true → s.frameOk p.port.val p.head svc = false →
        exec c s = .next (s.bump (R.NET_STAT p.port.val) F.NET_STAT_RXDROP)))
    ∧ (∀ (p : RxPort) (i : Nat), i = p.port.val → s.rxLive i p.head = true →
      (s.frameOk i p.head .arp = true →
        (∀ (target sender : BitVec 32) (mac : BitVec 48),
          (target.toNat ≠ 0 ∧ target.toNat = s.ip4 i → exec (.arpRequestRx p target sender mac) s
            = .next (if s.txData i then s.emit (.frame i (s.frameHead i 0) fkArpReply
                [target.toNat, s.portMac i, sender.toNat, mac.toNat]) else s))
          ∧ (target.toNat ≠ s.ip4 i → exec (.arpRequestRx p target sender mac) s = .next s))
        ∧ (∀ (ip : BitVec 32) (mac : BitVec 48), ip.toNat ≠ 0 → ip.toNat = s.ip4 i →
          (mac.toNat = s.portMac i → exec (.arpReplyRx p ip mac) s = .next s)
          ∧ (mac.toNat ≠ s.portMac i → exec (.arpReplyRx p ip mac) s = .next (s.ipConflict i)))
        ∧ (∀ (ip : BitVec 32) (mac : BitVec 48), ip.toNat ≠ s.ip4 i → ∃ u : State, exec (.arpReplyRx p ip mac) s = .next (u.resolved i)
          ∧ u.ring.arp = cachePut s.ring.arp ip.toNat mac.toNat s.lt ∧ u.cached false ip.toNat = true))
      ∧ (s.frameOk i p.head .ndp = true →
        (∀ (target source : BitVec 128),
          (s.ownIp i true target.toNat = true → exec (.neighbourSolicitationRx p target source) s
            = .next (if s.txData i then s.emit (.frame i (s.frameHead i 0) fkAdvert
                [target.toNat, s.portMac i, source.toNat]) else s))
          ∧ (s.ownIp i true target.toNat = false → exec (.neighbourSolicitationRx p target source) s = .next s))
        ∧ (∀ (ip : BitVec 128) (mac : BitVec 48), s.ownIp i true ip.toNat = true →
          (mac.toNat = s.portMac i → exec (.neighbourAdvertisementRx p ip mac) s = .next s)
          ∧ (mac.toNat ≠ s.portMac i → exec (.neighbourAdvertisementRx p ip mac) s = .next (s.ipConflict i)))
        ∧ (∀ (ip : BitVec 128) (mac : BitVec 48), s.ownIp i true ip.toNat = false →
          ∃ u : State, exec (.neighbourAdvertisementRx p ip mac) s = .next (u.resolved i)
            ∧ u.ring.nd = cachePut s.ring.nd ip.toNat mac.toNat s.lt ∧ u.cached true ip.toNat = true))
      ∧ (s.frameOk i p.head .echo = true → ∀ (data : List Byte) (v6 : Bool) (dest source : BitVec 128) (ident seq : Fin 65536),
          (s.ownIp i v6 dest.toNat = true → exec (.icmpEchoRequest ⟨p, data⟩ v6 dest source ident seq) s
            = .next (if s.txData i then s.emit (.frame i (s.frameHead i 0) fkEcho
                ([b2n v6, source.toNat, ident.val, seq.val] ++ data.map (fun b => b.toNat))) else s))
          ∧ (s.ownIp i v6 dest.toNat = false → exec (.icmpEchoRequest ⟨p, data⟩ v6 dest source ident seq) s = .next s)))
    ∧ (∀ i < 2, ∃ u : State, s.ipConflict i = u.raise 201 i ∧ u.flag (R.NET_STAT i) F.NET_STAT_IPCONF = true
        ∧ (∀ q < 2, (s.ipConflict i).ip4 q = s.ip4 q ∧ (s.ipConflict i).ip6 q = s.ip6 q
            ∧ (s.ipConflict i).ip6Local q = s.ip6Local q))
    ∧ (∀ d p, s.ring.unresolved.contains d = false → ∃ u : State, s.unresolve p d = (u.setEpisode 202 d instHub true).solicit p d
        ∧ u.ring.unresolved = s.ring.unresolved ++ [d])
    ∧ (s.exitPort = none → exec .destResolveRetry s = .next s)
    ∧ (∀ x, s.exitPort = some x → s.ring.unresolved ≠ [] → ∃ u v : State, exec .destResolveRetry s
        = .next (v.forEach v.ring.unresolved (fun y d => y.solicit x d)) ∧ v = u.resolved x ∧ s.lt ≤ u.lt
        ∧ u.ring.retryAt = u.lt + 100000000 * nsU)
    ∧ (∀ e rest, s.ring.held = e :: rest → (∀ x ∈ e :: rest, x.since = e.since) → s.spn.refclk = true →
      ∃ t, exec .exitPacketExpiry s = .next t ∧ t.ring.held = [])
    ∧ (∀ (origin : Fin 65536) (c : Fin 512) (q : BitVec 32), s.ring.air = [(origin.val, c.val, q.toNat)] → ∃ u : State,
      exec (.datagramPassedEchoMonitor origin c q) s = .next (u.confirmTo origin.val c.val q.toNat false) ∧ u.ring.air = [])
    ∧ (∀ (origin : Fin 65536) (c : Fin 512) (q : BitVec 32), s.ring.air = [] →
      exec (.datagramPassedEchoMonitor origin c q) s = .next s)
    ∧ (∀ (i : Fin 10) (u : State), u = ((s.setFlag (R.LNE_STAT i.val) F.LNE_STAT_LOS false).laneQuiet i.val).losCount i.val none →
        exec (.laneLosClear i) s = .next (if i.val < 2 ∧ u.isActive i.val = true then u.exitFlush i.val else u))

/-- R296, R301, R304, R306 to R312: the lanes in an awake hub. A request for another state starts a change, one during a change
or a test mode waits, one of the controller under OWN or without REFCLK only is remembered, and that of a disabled controller
stays L2 Dormant (R467); a change whose group PLL is locked, or that goes to L2, completes: the state shows, a waiting request
starts, a lane in a test mode goes to L0, a lane in L0 locks to a partner that transmits and has its eye counted anew, a
measured lane coming from L2 gets its latency measurement, and the PLL of a group all in L2 rests; a late one raises source 163
once; a PLL that locks brings the measurement of the lanes that were on and of those on their way to L1; the start of LOS and a
loss of CDR lock in L0 raise source 161; a measured figure stands in LNE_EYE and low ones are counted; a third low figure raises
EQLOW; a PLL that loses lock raises source 160, and one that is wanted locks; a valid transmit setting is taken and another sets
CFGERR. R296, R301, R303: a rate of its group, in a group whose lanes are all in L2, is taken at once; every lane of the group
gets the transmit defaults of the rate and a DFE of zeros. Another group's code sets CFGERR and leaves the rate. The state of
CDR_LOCK at entry into L0 is the model's reading (log 30). -/
def Obligations.LaneRows : Prop :=
  (∀ s : State, s.awake = true → ∀ i : Fin 10,
      (∀ (req : Fin 4) r, r = (if s.ctlOn i.val then psCode req.val else 2) →
        (s.flag (R.LNE_CTRL i.val) F.LNE_CTRL_OWN = false → s.spn.refclk = true → s.tmode i.val = 0 →
          s.psTrans i.val = false → s.psCur i.val ≠ r → ∃ t, exec (.laneStateRequest i req) s = .next t
            ∧ t.psTrans i.val = true ∧ (t.ln i.val).target = r ∧ (t.ln i.val).since = s.lt)
        ∧ (s.flag (R.LNE_CTRL i.val) F.LNE_CTRL_OWN = true → ∃ t, exec (.laneStateRequest i req) s = .next t
            ∧ t.regs = s.regs ∧ (t.ln i.val).ctl = r)
        ∧ (s.flag (R.LNE_CTRL i.val) F.LNE_CTRL_OWN = false → s.spn.refclk = true →
          s.psTrans i.val = true ∨ s.tmode i.val ≠ 0 → ∃ t, exec (.laneStateRequest i req) s = .next t
            ∧ t.flag (R.LNE_STAT i.val) F.LNE_STAT_PENDV = true ∧ t.fld (R.LNE_STAT i.val) F.LNE_STAT_PSPEND = r
            ∧ (t.ln i.val).asked = r)
        ∧ (s.flag (R.LNE_CTRL i.val) F.LNE_CTRL_OWN = false → s.spn.refclk = false → ∃ t, exec (.laneStateRequest i req) s = .next t
            ∧ t.regs = s.regs ∧ (t.ln i.val).asked = r))
      ∧ (s.psTrans i.val = true → s.spn.refclk = true → (s.ln i.val).target ≤ 2 →
        (s.ln i.val).target = 2 ∨ s.flag (R.LNE_GRP (grpOf i.val)) F.LNE_GRP_PLL_LOCK = true →
        ∀ (onTime : Prop) (tg : Nat) (pend : Bool), (onTime ↔ (s.ln i.val).late = true ∨ s.lt ≤ (s.ln i.val).since + psBound (s.psCur i.val) (s.ln i.val).target) →
        tg = (s.ln i.val).target → pend = s.flag (R.LNE_STAT i.val) F.LNE_STAT_PENDV →
        ∃ u t : State, (onTime → u = s) ∧ (¬ onTime → u = s.raise 163 i.val) ∧ exec (.laneStateChangeDone i) s = .next t
          ∧ (pend = false ∨ s.tmode i.val ≠ 0 → t.flt = u.flt) ∧ t.psCur i.val = tg
          ∧ (pend = false → s.tmode i.val = 0 → t.psTrans i.val = false)
          ∧ (pend = true → s.tmode i.val = 0 → t.flag (R.LNE_STAT i.val) F.LNE_STAT_PENDV = false
            ∧ t.psTrans i.val = decide (s.fld (R.LNE_STAT i.val) F.LNE_STAT_PSPEND ≠ tg)
            ∧ (t.psTrans i.val = true → (t.ln i.val).target = s.fld (R.LNE_STAT i.val) F.LNE_STAT_PSPEND ∧ (t.ln i.val).since = s.lt))
          ∧ (s.tmode i.val ≠ 0 → t.psTrans i.val = decide (tg ≠ 0) ∧ (tg ≠ 0 → (t.ln i.val).target = 0))
          ∧ (tg = 0 → pend = false ∨ s.tmode i.val ≠ 0 →
            t.flag (R.LNE_STAT i.val) F.LNE_STAT_CDR_LOCK = !s.flag (R.LNE_STAT i.val) F.LNE_STAT_LOS
            ∧ (t.ln i.val).eqRun = 0 ∧ (t.ln i.val).eyeAt = s.lt + 100000000 * nsU)
          ∧ (onTime → pend = false ∨ s.tmode i.val ≠ 0 → t.out = s.out ++ (if tg = 0 ∧ measured i.val = true ∧ (s.psCur i.val = 2 ∨ (s.ln i.val).lat = false) then [.lane i.val 2 0] else []))
          ∧ (tg = 2 → (∀ j ∈ grpLanes (grpOf i.val), j ≠ i.val → s.psCur j = 2 ∧ s.psTrans j = false) →
            t.flag (R.LNE_GRP (grpOf i.val)) F.LNE_GRP_PLL_LOCK = false))
      ∧ (s.psTrans i.val = true → s.spn.refclk = true → (s.ln i.val).late = false → ∃ u : State,
        exec (.laneStateTimeout i) s = .next (u.raise 163 i.val) ∧ (u.ln i.val).late = true ∧ u.regs = s.regs)
      ∧ (s.flag (R.LNE_STAT i.val) F.LNE_STAT_LOS = false → s.inL0 i.val = true → ∃ u : State,
        exec (.laneLos i) s = .next (u.setLine 161 i.val true) ∧ u.flag (R.LNE_STAT i.val) F.LNE_STAT_LOS = true)
      ∧ (s.inL0 i.val = true → s.flag (R.LNE_STAT i.val) F.LNE_STAT_CDR_LOCK = true → exec (.cdrLockLoss i true) s
        = .next ((s.setFlag (R.LNE_STAT i.val) F.LNE_STAT_CDR_LOCK false).setLine 161 i.val true))
      ∧ (s.inL0 i.val = true → exec (.cdrLockLoss i false) s
        = .next ((s.setFlag (R.LNE_STAT i.val) F.LNE_STAT_CDR_LOCK true).laneQuiet i.val))
      ∧ (∀ (h : Fin 65) (v : Fin 256) ctle taps, s.inL0 i.val = true → s.flag (R.LNE_RXEQ i.val) F.LNE_RXEQ_CTLE_AUTO = false →
        s.flag (R.LNE_RXEQ i.val) F.LNE_RXEQ_DFE_AUTO = false → eqf h.val v.val < s.fld (R.LNE_EQCFG i.val) F.LNE_EQCFG_EQTHR →
        ∃ t, exec (.eyeMeasurement i h v ctle taps) s = .next t
          ∧ (t.reg (R.LNE_EYE i.val)).toNat = eqf h.val v.val * 2 ^ 24 + v.val * 2 ^ 8 + h.val
          ∧ (t.ln i.val).eqRun = min ((s.ln i.val).eqRun + 1) 3)
      ∧ (3 ≤ (s.ln i.val).eqRun → s.inL0 i.val = true → s.flag (R.LNE_STAT i.val) F.LNE_STAT_EQLOW = false → exec (.eqLow i) s
        = .next ((s.setFlag (R.LNE_STAT i.val) F.LNE_STAT_EQLOW true).setLine 162 i.val true))
      ∧ (∀ q : Fin 4, s.spn.refclk = true → s.flag (R.LNE_GRP q.val) F.LNE_GRP_PLL_LOCK = true → ∃ u : State,
        exec (.pllLockLoss q) s = .next (u.raise 160 q.val) ∧ u.flag (R.LNE_GRP q.val) F.LNE_GRP_PLL_LOCK = false)
      ∧ (∀ q : Fin 4, s.spn.refclk = true → s.pllWanted q.val = true → s.flag (R.LNE_GRP q.val) F.LNE_GRP_PLL_LOCK = false →
        ∃ t, exec (.pllLocked q) s = .next t ∧ t.flag (R.LNE_GRP q.val) F.LNE_GRP_PLL_LOCK = true
          ∧ ∀ j ∈ grpLanes q.val, measured j = true → s.psCur j ≠ 2 ∨ (s.psTrans j = true ∧ (s.ln j).target = 1) →
            .lane j 2 0 ∈ t.out ∧ (t.ln j).lat = true)
      ∧ (∀ v : Word, txValid (bitsOf v.toNat 20 16) (bitsOf v.toNat 13 8) (bitsOf v.toNat 3 0) = true →
        exec (.lneTxeqWrite i v) s
          = .next (s.writeFlds (R.LNE_TXEQ i.val) [F.LNE_TXEQ_POST, F.LNE_TXEQ_MAIN, F.LNE_TXEQ_PRE] v))
      ∧ (∀ v : Word, txValid (bitsOf v.toNat 20 16) (bitsOf v.toNat 13 8) (bitsOf v.toNat 3 0) = false →
        ∃ t, exec (.lneTxeqWrite i v) s = .next t ∧ t.reg (R.LNE_TXEQ i.val) = s.reg (R.LNE_TXEQ i.val)
          ∧ t.flag (R.LNE_STAT i.val) F.LNE_STAT_CFGERR = true))
  ∧ (∀ s : State, s.awake = true → ∀ (q : Fin 4) (v : Word), s.grpIdle q.val = true →
      bitsOf v.toNat 3 0 ≠ s.fld (R.LNE_GRP q.val) F.LNE_GRP_RATE →
      (rateOf q.val (bitsOf v.toNat 3 0) = true → s.rateDemand q.val v = false → ∃ t, exec (.lneGrpRate q v) s = .next t
          ∧ t.fld (R.LNE_GRP q.val) F.LNE_GRP_RATE = bitsOf v.toNat 3 0
          ∧ ∀ i ∈ grpLanes q.val, t.reg (R.LNE_DFE i) = 0 ∧ t.reg (R.LNE_TXEQ i)
            = BitVec.ofNat 32 ((txDefault (bitsOf v.toNat 3 0)).1 * 2 ^ 16 + (txDefault (bitsOf v.toNat 3 0)).2.1 * 2 ^ 8
                + (txDefault (bitsOf v.toNat 3 0)).2.2))
      ∧ (rateOf q.val (bitsOf v.toNat 3 0) = false → ∃ t, exec (.lneGrpRate q v) s = .next t
          ∧ t.flag (R.LNE_GRP q.val) F.LNE_GRP_CFGERR = true
          ∧ t.fld (R.LNE_GRP q.val) F.LNE_GRP_RATE = s.fld (R.LNE_GRP q.val) F.LNE_GRP_RATE))

/-- R313 to R315: the test modes of a lane. A write of LNE_CTRL with TMODE other than 0 by a command over the port or link that
uses the lane changes nothing but TREF; a write over the management SPI is always taken; ERRINJ inverts a transmitted bit of a
transmitter that is active, and in the near-end serial loopback the locked checker counts it; the checker locks to a partner's
sequence, and in the loopback to the lane's own unless one of TXINV and RXINV inverts it (of 64 bits none is then right); a
checker in step with its sequence counts exactly the bits the line made wrong, or after PINV or RXINV changed exactly the
others, LNE_PERR saturating; at 32 wrong of 1,024 it loses lock. That the wrong bits stand first on the line, and the free
phase, are the model's choice (log 114). -/
def Obligations.LaneTestRows : Prop :=
  ∀ s : State, s.awake = true → ∀ i : Fin 10,
    (∀ via (v : Word), s.viaLane via i.val = true → bitsOf v.toNat F.LNE_CTRL_TMODE.hi F.LNE_CTRL_TMODE.lo ≠ 0 →
      exec (.lneCtrlTmode i via v) s = .next (s.setFlag (R.LNE_STAT i.val) F.LNE_STAT_TREF true))
    ∧ (∀ v : Word, ∃ t, exec (.lneCtrlTmode i .spi v) s = .next t
        ∧ t.fld (R.LNE_CTRL i.val) F.LNE_CTRL_TMODE = bitsOf v.toNat F.LNE_CTRL_TMODE.hi F.LNE_CTRL_TMODE.lo)
    ∧ (∀ v : Word, bitsOf v.toNat F.LNE_CTRL_TMODE.hi F.LNE_CTRL_TMODE.lo = s.fld (R.LNE_CTRL i.val) F.LNE_CTRL_TMODE →
      s.flag (R.LNE_CTRL i.val) F.LNE_CTRL_OWN = false → v.toNat.testBit F.LNE_CTRL_OWN.lo = false → s.tmode i.val = 0 →
      ∃ t, exec (.lneCtrlErrinj i v) s = .next t
        ∧ t.out = s.out ++ (if v.toNat.testBit 3 && s.txOn i.val then [.lane i.val 1 0] else []))
    ∧ (∀ v : Word, v.toNat.testBit 3 = true → s.tmode i.val = 2 → s.prbsOn i.val = true → s.prbsLocked i.val = true →
      s.flag (R.LNE_CTRL i.val) F.LNE_CTRL_OWN = false → (∀ f ∈ lneCtrlFlds, f ≠ F.LNE_CTRL_ERRINJ → bitsOf v.toNat f.hi f.lo = s.fld (R.LNE_CTRL i.val) f) →
      (s.ln i.val).chk = (s.ln i.val).src → (s.ln i.val).pol = s.prbsPol i.val →
      ∃ t, exec (.lneCtrlErrinj i v) s = .next t ∧ t.fld (R.LNE_PERR i.val) F.LNE_PERR_ERR
        = satInc (F.LNE_PERR_ERR.hi - F.LNE_PERR_ERR.lo + 1) (s.fld (R.LNE_PERR i.val) F.LNE_PERR_ERR) 1)
    ∧ (s.prbsOn i.val = true → s.tmode i.val = 1 → ∃ t, exec (.prbsLock i) s = .next t ∧ t.prbsLocked i.val = true)
    ∧ (s.prbsOn i.val = true → s.tmode i.val = 2 → s.prbsLocked i.val = false →
      ∃ t, exec (.prbsLock i) s = .next t ∧ t.prbsLocked i.val = !s.prbsPol i.val)
    ∧ (s.prbsOn i.val = false → exec (.prbsLock i) s = .next s)
    ∧ (∀ n : Fin 1025, s.prbsOn i.val = true → s.prbsLocked i.val = true → ∃ t, exec (.prbsReseed i n) s = .next t
        ∧ t.fld (R.LNE_PERR i.val) F.LNE_PERR_ERR = satInc (F.LNE_PERR_ERR.hi - F.LNE_PERR_ERR.lo + 1)
            (s.fld (R.LNE_PERR i.val) F.LNE_PERR_ERR) (s.prbsTake i.val 1024 n.val).1
        ∧ t.prbsLocked i.val = decide ((s.prbsTake i.val 1024 n.val).1 < 32))
    ∧ (∀ k n, n ≤ k → (s.tmode i.val = 2 ∨ (s.ln i.val).srcSeq = s.prbsSeq i.val) → (s.ln i.val).chk = (s.ln i.val).src →
      (s.prbsTake i.val k n).1 = (if (s.ln i.val).pol = s.prbsPol i.val then n else k - n)
        ∧ ((s.prbsTake i.val k n).2.ln i.val).chk = ((s.prbsTake i.val k n).2.ln i.val).src)

/-- R337 to R339: the segment table in an awake hub. The hub enumerates every 100 ms; an enumeration of an unknown hub within 15
links enters the table and unsettles it; past the limit source 172 is raised; 100 us after its last change the table is taken as
settled and the exit rules are applied to it; a candidate whose 100 ms are over has its state brought up to date. R341, R342:
the mirror. The active exit sends one with the next generation number; an image whose MCRC does not check is passed on and not
kept; one that checks is kept where none is held, and shows in CHP_MIRR; at its expiry it is held no longer. That each cell of
an image begins with MTYPE, and where a message at the hop limit ends, are the model's reading (logs 31 and 32). -/
def Obligations.SegmentRows : Prop :=
  (∀ s : State, s.awake = true →
      (∃ u t : State, u = s.moveTo (s.ring.enumAt + 100000000 * nsU) ∧ exec .enumerationSend s = .next t ∧ t.seg = s.seg
          ∧ t.regs = s.regs ∧ t.ring.enumAt = u.lt
          ∧ (∀ k < 2, s.linkTx k = true → (s.lk k).waiting = [] → 4 ≤ (s.lk k).room 0 → (s.lk k).unacked + 4 ≤ 4096 →
            ∃ j, .cell k j (s.linkInv k) 0 (s.lk k).txSeq (beBytes 1 1 ++ beBytes 1 0 ++ beBytes 2 s.hubId
              ++ beBytes 1 (b2n (s.linkFlag 0) + 2 * b2n (s.linkFlag 1)) ++ beBytes 1 (s.xState 0 + 8 * s.xState 1) ++ beBytes 2 0
              ++ ltBytes (if s.isActive 0 ∨ s.isActive 1 then s.ring.actLt else 0) ++ beBytes 2 0) ∈ t.out))
      ∧ (∀ (k : Fin 2) hops origin links xst t, 15 ≤ hops.val → exec (.enumerationRx k hops origin links xst t) s
          = .next (s.raiseHub 172))
      ∧ (∀ (k : Fin 2) hops origin links xst t, hops.val < 15 → s.linkFlag k.val = true →
          ∀ h : SegHub, h = ⟨origin.val, k.val, hops.val + 1, links.val, xst.val, ltOp t⟩ → ∃ u : State,
          exec (.enumerationRx k hops origin links xst t) s = .next (u.setLine 190 instHub u.idConflict)
          ∧ (h ∈ s.seg → u.seg = s.seg ∧ u.ring.settled = s.ring.settled)
          ∧ (h ∉ s.seg → u.ring.settled = false ∧ u.ring.changedAt = s.lt
            ∧ u.seg = s.seg.filter (fun e => !(decide (e.link = k.val) && decide (e.hops = hops.val + 1))) ++ [h]))
      ∧ (s.ring.settled = true → exec .tableSettled s = .next s)
      ∧ (s.ring.settled = false → ∃ m u : State, m = s.moveTo (s.ring.changedAt + 100000 * nsU)
          ∧ u = ((({ m with ring := { m.ring with settled := true } }).pruneSeg.noteLoss s.segActive).showSeg).portsSet
          ∧ (u.ring.settled = false → exec .tableSettled s = .next (u.setLine 190 instHub u.idConflict).mirrorLine)
          ∧ (u.ring.settled = true → ∀ v : State, v = u.exitRules.1.setLine 190 instHub u.exitRules.1.idConflict →
            (u.exitRules.2 = none → exec .tableSettled s = .next v.mirrorLine.switchStill)
            ∧ (∀ p, u.exitRules.2 = some p → exec .tableSettled s = .next (v.activate p).switchStill)))
      ∧ (∀ p : Fin 2, s.candidate p.val = true → s.flag (R.NET_STAT p.val) F.NET_STAT_LINK = true →
          exec (.exitEligible p) s = .next ((s.moveTo (s.goodAt p.val)).portsSync)))
  ∧ (∀ s : State, s.awake = true →
      (∀ p, s.exitPort = some p → ∃ (w t : State) (image : List Byte), exec .mirrorSend s = .next t
          ∧ t.ring.mirGen = (s.ring.mirGen + 1) % 2 ^ 32 ∧ t.ring.mirAt = t.lt ∧ t.regs = s.regs
          ∧ w = s.moveTo (s.ring.mirAt + 10000000 * nsU)
          ∧ image = ({ w with ring := { w.ring with mirGen := t.ring.mirGen, mirAt := w.lt } }).mirrorImage p t.ring.mirGen
          ∧ (∀ k < 2, s.linkTx k = true → (s.lk k).waiting = [] →
            ((pieces256 image.length image).map (fun c => cellLen c + 1)).sum ≤ (s.lk k).room 5 →
            (s.lk k).unacked + ((pieces256 image.length image).map (fun c => cellLen c + 1)).sum ≤ 4096 →
            ∀ c ∈ pieces256 image.length image, ∃ j q, .cell k j (s.linkInv k) 5 q c ∈ t.out))
      ∧ (∀ bs c cs, pieces256 bs.length bs = c :: cs → bs = c ++ (cs.map List.tail).flatten ∧ c.length ≤ 256 ∧ ∀ d ∈ cs, d.length ≤ 256 ∧ d.head? = some 3)
      ∧ (∀ (k : Fin 2) b, mirOk b = false → exec (.mirrorRx k b) s = .next (s.sendMirror (1 - k.val) b))
      ∧ (∀ (k : Fin 2) b t, mirOk b = true → ltAt b 8 = some t → s.isExit = false → s.ring.mirror = none →
          s.ring.switching = none → (∀ j < 2, s.linkUp j = false) → ∃ u : State, exec (.mirrorRx k b) s = .next u.portsSync
          ∧ u.ring.mirror = some ⟨natAt b 2 2, natAt b 1 1, natAt b 4 4, t, b⟩
          ∧ u.fld R.CHP_MIRR F.CHP_MIRR_GEN = natAt b 4 4 % 65536)
      ∧ (∀ (k : Fin 2) b t o, mirOk b = true → ltAt b 8 = some t → s.ring.mirror = some o → s.mirrorValid = true →
          signed 32 (natAt b 4 4 + 2 ^ 32 - o.gen) ≤ 0 → exec (.mirrorRx k b) s = .next (s.sendMirror (1 - k.val) b))
      ∧ (∀ (k : Fin 2) b t p, mirOk b = true → ltAt b 8 = some t → s.isExit = false → s.ring.mirror = none →
          s.ring.switching = some (s.hubId, p) → ∃ u : State, u.ring.mirror = some ⟨natAt b 2 2, natAt b 1 1, natAt b 4 4, t, b⟩
          ∧ exec (.mirrorRx k b) s = .next (if s.ring.switchAt ≤ t ∧ u.eligible p then u.activate p else u.portsSync))
      ∧ (s.ring.mirror = none → exec .mirrorExpiry s = .next s)
      ∧ (∀ m, s.ring.mirror = some m → ∃ u : State, exec .mirrorExpiry s = .next u.portsSync ∧ u.ring.mirror = none
          ∧ u.fld R.CHP_MIRR F.CHP_MIRR_GEN = 0))

/-- R339: the exit rules over a settled table. The first active port in the order of activation, hub ID and port is followed,
and another active port of this hub stops and tells the segment STANDBY; with none active the first standby by hub ID and port
is to activate, which this hub does when the port is its own; with neither the segment has no exit, and CHP_ACT and NOEXIT say
so. R340, R343, R344: exit events in an awake hub. More than 15 links end an event; FAIL and STANDBY of a port show in the table
and unsettle it; a hub that is no exit follows ACTIVE, and remembers the target of SWITCH. The old port's stop drops what it
held. A written SWITCH without an eligible standby is refused in SWREF; one to a standby port shows in SWITCH and is carried
out, and one written meanwhile is ignored (R455). A port fails when its link or its lane's signal has been away for LDT; an echo
error counts; a change of the PCS link shows in NET_STAT, but none comes up on a lane in a test mode, and the loss of the active
port's link takes its trackers' sources; a write of NET_CTRL that would change a locked field of the active port is refused;
clearing EXIT_EN on the active port hands the exit over and tells the segment (R321), and on any port lets its lane go to L2.
Where a message at the hop limit ends is the model's reading (log 31). -/
def Obligations.ExitRows : Prop :=
  (∀ s : State,
      (∀ a id p, firstOf (s.portsWith xActive) = some (a, id, p) →
        (∀ q < 2, s.isActive q = true → id = s.hubId ∧ p = q) →
        s.exitRules = (((s.setFlag R.CHP_RING F.CHP_RING_NOEXIT false).setLine 171 instHub false).followExit id p, none))
      ∧ (∀ a id p q, firstOf (s.portsWith xActive) = some (a, id, p) → q < 2 → s.isActive q = true → s.isActive (1 - q) = false →
        ¬ (id = s.hubId ∧ p = q) →
        s.exitRules = ((((((s.deactivate q xStandby).exitEvent evtStandby q 0).segChanged).setFlag R.CHP_RING F.CHP_RING_NOEXIT
          false).setLine 171 instHub false).followExit id p, none))
      ∧ (∀ a id p, firstOf (s.portsWith xActive) = none →
        firstOf ((s.portsWith xStandby).map (fun c => (0, c.2.1, c.2.2))) = some (a, id, p) →
        s.exitRules = ((s.setFlag R.CHP_RING F.CHP_RING_NOEXIT false).setLine 171 instHub false,
          if id = s.hubId then some p else none))
      ∧ (firstOf (s.portsWith xActive) = none → firstOf ((s.portsWith xStandby).map (fun c => (0, c.2.1, c.2.2))) = none →
        ∃ u : State, s.exitRules = (u.pathSync, none) ∧ u.reg R.CHP_ACT = 0xFFFF0000 ∧ u.flag R.CHP_RING F.CHP_RING_NOEXIT = true
          ∧ u.isExit = false)
      ∧ (∀ l : List (Nat × Nat × Nat), firstOf l = none ↔ l = [])
      ∧ (∀ (l : List (Nat × Nat × Nat)) x, firstOf l = some x → x ∈ l ∧ ∀ y ∈ l, earlier y x = false))
  ∧ (∀ s : State, s.awake = true →
      (∀ k hops origin evt p target t, 15 ≤ hops.val → exec (.exitEventRx k hops origin evt p target t) s = .next s)
      ∧ (∀ k hops origin (evt : Fin 256) p target t, hops.val < 15 → evt.val = 1 ∨ evt.val = 3 →
          ∃ u, exec (.exitEventRx k hops origin evt p target t) s = .next u ∧ u.ring.settled = false
          ∧ u.seg = s.seg.map (fun (h : SegHub) => if h.id = origin.val then
              { h with xst := xstSet h.xst p.val (if evt.val = 1 then xFailed else xStandby), actLt := 0 } else h))
      ∧ (∀ k hops (origin : Fin 65536) (evt : Fin 256) (p : Fin 2) target t, hops.val < 15 → evt.val = 2 → s.exitPort = none →
          (∀ j < 2, s.linkUp j = false) → ∃ u : State, exec (.exitEventRx k hops origin evt p target t) s
            = .next (u.followExit origin.val p.val) ∧ u.ring.switching = none
          ∧ (∀ a, a ≠ R.CHP_RING → u.reg a = s.reg a) ∧ u.flag R.CHP_RING F.CHP_RING_SWITCH = false
          ∧ u.seg = s.seg.map (fun (h : SegHub) => if h.id = origin.val then
              { h with xst := xstSet h.xst p.val xActive, actLt := ltOp t } else h))
      ∧ (∀ k hops origin (evt : Fin 256) (p : Fin 2) (target : Fin 65536) t, hops.val < 15 → evt.val = 4 → s.exitPort = none →
          (∀ j < 2, s.linkUp j = false) → ∃ u, exec (.exitEventRx k hops origin evt p target t) s = .next u
          ∧ u.ring.switching = some (target.val, p.val) ∧ u.ring.switchAt = ltOp t ∧ u.regs = s.regs)
      ∧ (∀ k hops (origin : Fin 65536) (evt : Fin 256) (p : Fin 2) target t q x, hops.val < 15 → evt.val = 2 → s.exitPort = some q →
          s.ring.switching = some x → ∃ u : State, exec (.exitEventRx k hops origin evt p target t) s = .next (u.followExit origin.val p.val)
          ∧ u.ring.stopAt = some s.lt ∧ u.ring.switching = none ∧ u.xState q = xStandby ∧ u.flag R.CHP_RING F.CHP_RING_ACTHERE = false)
      ∧ (∀ q p t, s.exitPort = some q → p ≠ q → ∃ (v : State) (m : Mirror), s.onSwitch s.hubId p t = (v.deactivate q xStandby).activate p
          ∧ v.ring.mirror = some m ∧ m.gen = (s.ring.mirGen + 1) % 2 ^ 32 ∧ m.time = s.lt
          ∧ v.fld R.CHP_MIRR F.CHP_MIRR_GEN = m.gen % 65536)
      ∧ (∀ (p : Fin 2) x, s.ring.stopAt = some x → s.isActive p.val = false → ∃ t, exec (.switchOldPortStop p) s = .next t
          ∧ t.ring.stopAt = none ∧ t.ring.held = [] ∧ t.ring.air = [] ∧ t.regs = s.regs)
      ∧ (∀ v : Word, v.toNat.testBit 1 = true → s.flag R.CHP_RING F.CHP_RING_SWITCH = false → s.portsWith xStandby = [] →
            ∃ t, exec (.chpRingSwitch v) s = .next t
          ∧ t.flag R.CHP_RING F.CHP_RING_SWREF = true ∧ t.ring = s.ring)
      ∧ (∀ (v : Word) id p, v.toNat.testBit 1 = true → s.flag R.CHP_RING F.CHP_RING_SWITCH = false → id = s.fld R.CHP_SWT F.CHP_SWT_TGTID → p = s.fld R.CHP_SWT F.CHP_SWT_TGTPORT →
          (∃ a, (a, id, p) ∈ s.portsWith xStandby) → ∃ u : State, exec (.chpRingSwitch v) s = .next (u.onSwitch id p (stamp50 s.lt))
          ∧ u.flag R.CHP_RING F.CHP_RING_SWITCH = true)
      ∧ (∀ p : Fin 2, ∀ x, s.flag (R.NET_STAT p.val) F.NET_STAT_LINK = true → (s.pt p.val).echoes = [] →
          (s.pt p.val).losAt = some x → exec (.exitPortFailure p) s = .next ((s.moveTo (x + s.ldt)).portFails p.val))
      ∧ (∀ p : Fin 2, s.flag (R.NET_STAT p.val) F.NET_STAT_LINK = false → (s.pt p.val).echoes = [] →
          (s.pt p.val).losAt = none → exec (.exitPortFailure p) s = .next ((s.moveTo ((s.pt p.val).downAt + s.ldt)).portFails p.val))
      ∧ (∀ p : Fin 2, (∀ x ∈ (s.pt p.val).echoes, s.lt ≤ x + 10000000 * nsU) →
          max (s.fld R.NET_GCFG F.NET_GCFG_ECHO_N) 1 ≤ (s.pt p.val).echoes.length → exec (.exitPortFailure p) s = .next (s.portFails p.val))
      ∧ (∀ p : Fin 2, ∃ u : State, exec (.echoError p) s = .next u.portsSync
          ∧ u.fld (R.NET_STAT p.val) F.NET_STAT_ECHOERR = satInc (F.NET_STAT_ECHOERR.hi - F.NET_STAT_ECHOERR.lo + 1)
              (s.fld (R.NET_STAT p.val) F.NET_STAT_ECHOERR) 1
          ∧ s.lt ∈ (u.pt p.val).echoes)
      ∧ (∀ (p : Fin 2) up, s.flag (R.NET_STAT p.val) F.NET_STAT_LINK = up → exec (.pcsLinkChange p up) s = .next s)
      ∧ (∀ p : Fin 2, s.flag (R.NET_STAT p.val) F.NET_STAT_LINK = false → s.tmode p.val = 0 → ∃ u : State,
          exec (.pcsLinkChange p true) s = .next u.portsSync ∧ u.flag (R.NET_STAT p.val) F.NET_STAT_LINK = true
          ∧ (u.pt p.val).linkAt = s.lt)
      ∧ (∀ p : Fin 2, s.tmode p.val ≠ 0 → exec (.pcsLinkChange p true) s = .next s)
      ∧ (∀ p : Fin 2, s.flag (R.NET_STAT p.val) F.NET_STAT_LINK = true → ∃ u : State,
          exec (.pcsLinkChange p false) s = .next (if s.isActive p.val then u.losePort else u).portsSync
          ∧ u.flag (R.NET_STAT p.val) F.NET_STAT_LINK = false ∧ (u.pt p.val).downAt = s.lt)
      ∧ (∀ (p : Fin 2) (v : Word), s.isActive p.val = true → s.netCtrlLock p.val v = true →
          exec (.netCtrlExitEnClear p v) s = .next (s.noteLocked (R.NET_CTRL p.val)))
      ∧ (∀ (p : Fin 2) (v : Word), s.isActive p.val = false → s.fecDemand p.val v = false →
          s.flag (R.NET_CTRL p.val) F.NET_CTRL_EXIT_EN = true → v.toNat.testBit F.NET_CTRL_EXIT_EN.lo = false →
          exec (.netCtrlExitEnClear p v) s
            = .next ((s.writeFlds (R.NET_CTRL p.val) netCtrlFlds v).portsSync.ctlAsk p.val 2))
      ∧ (∀ (p : Fin 2) (v : Word), s.isActive p.val = true → s.netCtrlLock p.val v = false → s.fecDemand p.val v = false →
          s.flag (R.NET_CTRL p.val) F.NET_CTRL_EXIT_EN = true → v.toNat.testBit F.NET_CTRL_EXIT_EN.lo = false →
          exec (.netCtrlExitEnClear p v) s = .next (((((s.writeFlds (R.NET_CTRL p.val) netCtrlFlds v).deactivate p.val xNone).exitEvent
            evtStandby p.val 0).segChanged).ctlAsk p.val 2))
      ∧ (∀ v : Word, v.toNat.testBit 1 = false ∨ s.flag R.CHP_RING F.CHP_RING_SWITCH = true → exec (.chpRingSwitch v) s
          = .next (s.writeFlds R.CHP_RING [F.CHP_RING_NHUBS, F.CHP_RING_POS, F.CHP_RING_SWREF, F.CHP_RING_NOEXIT,
            F.CHP_RING_ACTHERE, F.CHP_RING_SWITCH] v)))

/-- R327 to R331: the rows of the Chainpo links in an awake hub. A link that is down does not go down again, one that goes down
counts and raises source 168; a control block that does not check changes only what the check itself counts; TRAIN gives the
partner's ID and allowances; ALIGN names its lane; training begins on an enabled link that is down, and training whose TRAIN has
lasted 100 us brings the link up at the widest width locked at both ends, with source 169 for one below the allowance; RETRAIN
takes a link that is up down first and trains anew, as the 1 ms retry does, and a cleared EN ends the link and lets its lanes
rest; TRAIN on a link that is up takes it down; a block goes on the next lane of its stripe, after an ALIGN block on each lane
every 16,384 blocks of a lane (log 82); a link that sends tells its acknowledgement and credit of all six virtual channels after
at most 2 us; an acknowledged cell leaves the replay buffer, a NAK sends the rest again, and eight failed sends of one cell take
the link down; a stream cell is reassembled at the active exit and passed on elsewhere. Corners of training are the model's
reading (log 31). -/
def Obligations.ChainpoRows : Prop :=
  ∀ s : State, s.awake = true → ∀ k : Fin 2,
    (s.linkFlag k.val = false → exec (.chainpoLinkDown k) s = .next s)
    ∧ (s.linkFlag k.val = true → exec (.chainpoLinkDown k) s
        = .next (((s.linkDrop k.val).bump (R.CHP_STAT k.val) F.CHP_STAT_DOWNCNT).raise 168 k.val))
    ∧ (∀ block, (s.ctlCheck k.val block.toNat 0x2D).2 = false →
        exec (.trainRx k block) s = .next (s.ctlCheck k.val block.toNat 0x2D).1)
    ∧ (∀ block : BitVec 64, s.ctlCheck k.val block.toNat 0x2D = (s, true) → s.linkFlag k.val = false →
        ∃ t, exec (.trainRx k block) s = .next t
        ∧ t.fld (R.CHP_PEER k.val) F.CHP_PEER_PEERID = bitsOf block.toNat 55 40
        ∧ (t.lk k.val).heardGen = max (bitsOf block.toNat 39 38) 1 ∧ (t.lk k.val).heardWidth = min (bitsOf block.toNat 37 36) 2)
    ∧ (∀ block : BitVec 64, s.ctlCheck k.val block.toNat 0x2D = (s, true) → s.linkFlag k.val = true → ∃ t,
        exec (.trainRx k block) s = .next t ∧ t.linkFlag k.val = false
        ∧ t.fld (R.CHP_PEER k.val) F.CHP_PEER_PEERID = bitsOf block.toNat 55 40)
    ∧ (∀ block : BitVec 64, s.ctlCheck k.val block.toNat 0x4B = (s, true) → bitsOf block.toNat 55 48 < 4 →
        (s.lk k.val).aligned = [] → ∃ t, exec (.alignRx k block) s = .next t ∧ (t.lk k.val).aligned = [bitsOf block.toNat 55 48]
        ∧ t.regs = s.regs)
    ∧ (s.flag (R.CHP_CTRL k.val) F.CHP_CTRL_EN = true → s.linkFlag k.val = false → s.spn.refclk = true →
        (s.lk k.val).training = false → exec (.linkTraining k) s
          = .next ((s.setLk k.val { s.lk k.val with heardGen := 0, heardWidth := 0 }).trainAt k.val 4))
    ∧ (s.flag (R.CHP_CTRL k.val) F.CHP_CTRL_EN = false → exec (.linkTraining k) s = .next s)
    ∧ (s.flag (R.CHP_CTRL k.val) F.CHP_CTRL_EN = true → s.linkFlag k.val = false → s.spn.refclk = true → ∃ u : State,
        exec (.chainpoLinkRetry k) s = .next (u.trainStep k.val) ∧ (s.lk k.val).downAt + 1000000 * nsU ≤ u.lt
        ∧ (u.lk k.val).downAt = u.lt)
    ∧ (∀ w t0, (s.lk k.val).training = true → s.spn.refclk = true → (s.lk k.val).trainFrom = some t0 →
        s.fld (R.LNE_GRP (2 + k.val)) F.LNE_GRP_RATE = 3 + s.trainGen k.val → s.trainWidth k.val = some w →
        ∃ u v : State, exec (.linkTrained k) s
          = .next (((v.setFlag (R.CHP_CTRL k.val) F.CHP_CTRL_RETRAIN false).segChanged.portsSync).pathSync)
        ∧ v = (if w < min (s.allowWidth k.val) (s.lk k.val).heardWidth
            then (u.forEach ((linkLanes k.val).drop (widthLanes w)) (fun x i => x.ctlAsk i 2)).raise 169 k.val
            else u.forEach ((linkLanes k.val).drop (widthLanes w)) (fun x i => x.ctlAsk i 2))
        ∧ u.linkFlag k.val = true ∧ u.fld (R.CHP_STAT k.val) F.CHP_STAT_WIDTH = w ∧ t0 + 100000 * nsU ≤ u.lt
        ∧ (u.lk k.val).replay = [] ∧ (u.lk k.val).rxSeq = LinkState.init.rxSeq ∧ (u.lk k.val).waiting = [])
    ∧ (∀ v : Word, s.flag (R.CHP_CTRL k.val) F.CHP_CTRL_EN = true → v.toNat.testBit F.CHP_CTRL_EN.lo = true →
        v.toNat.testBit 1 = false ∨ s.flag (R.CHP_CTRL k.val) F.CHP_CTRL_RETRAIN = true →
        exec (.chpCtrlRetrain k v) s = .next (s.writeFlds (R.CHP_CTRL k.val) [F.CHP_CTRL_GENMAX, F.CHP_CTRL_WMAX,
          F.CHP_CTRL_RETRAIN, F.CHP_CTRL_EN] v))
    ∧ (∀ v : Word, v.toNat.testBit F.CHP_CTRL_EN.lo = true → v.toNat.testBit 1 = true →
        s.flag (R.CHP_CTRL k.val) F.CHP_CTRL_RETRAIN = false → ∃ u : State,
        exec (.chpCtrlRetrain k v) s = .next (u.trainStep k.val) ∧ (u.lk k.val).training = false
        ∧ u.flag (R.CHP_CTRL k.val) F.CHP_CTRL_RETRAIN = true ∧ u.linkFlag k.val = false
        ∧ (s.linkFlag k.val = true → u.fld (R.CHP_STAT k.val) F.CHP_STAT_WIDTH = 0 ∧ (u.lk k.val).replay = []
          ∧ ∀ h ∈ u.seg, h.link ≠ k.val))
    ∧ (∀ v : Word, s.flag (R.CHP_CTRL k.val) F.CHP_CTRL_EN = true → v.toNat.testBit F.CHP_CTRL_EN.lo = false →
        ∃ t, exec (.chpCtrlRetrain k v) s = .next t ∧ t.linkFlag k.val = false ∧ (t.lk k.val).training = false
        ∧ t.flag (R.CHP_CTRL k.val) F.CHP_CTRL_RETRAIN = false ∧ ∀ i ∈ linkLanes k.val, (t.ln i).ctl = 2)
    ∧ (s.linkTx k.val = false → exec (.lctlSend k) s = .next s)
    ∧ (s.linkTx k.val = true → ∃ t, exec (.lctlSend k) s = .next t ∧ t.regs = s.regs ∧ (t.lk k.val).lctlAt = t.lt
        ∧ (s.lk k.val).lctlAt + 2000 * nsU ≤ t.lt
        ∧ ∃ l : List Out, t.out = s.out ++ l
        ∧ ∀ vc < 6, ∃ j < s.linkW k.val, .block k.val j (s.linkInv k.val) ((s.lk k.val).lctl vc false) ∈ l)
    ∧ (∀ bits w n, w = s.linkW k.val → n = (s.lk k.val).txBlocks →
        (n % (16384 * w) ≠ 0 → (s.sendBlock k.val bits).out = s.out ++ [.block k.val (n % w) (s.linkInv k.val) bits]
          ∧ ((s.sendBlock k.val bits).lk k.val).txBlocks = n + 1)
        ∧ (n % (16384 * w) = 0 → (s.sendBlock k.val bits).out = s.out ++ (List.range w).map (fun j => .block k.val j (s.linkInv k.val)
            (ctlBlock (0x4B * 2 ^ 48 + j * 2 ^ 40))) ++ [.block k.val 0 (s.linkInv k.val) bits]
          ∧ ((s.sendBlock k.val bits).lk k.val).txBlocks = n + w + 1))
    ∧ (∀ block : BitVec 64, s.ctlCheck k.val block.toNat 0x55 = (s, true) → s.linkUp k.val = true →
        block.toNat.testBit 47 = false → (s.lk k.val).waiting = [] → ∃ t, exec (.lctlRx k block) s = .next t
        ∧ (t.lk k.val).replay = afterAck (s.lk k.val).replay (bitsOf block.toNat 55 48) ∧ t.regs = s.regs)
    ∧ (∀ (block : BitVec 64) rb n, s.ctlCheck k.val block.toNat 0x55 = (s, true) → s.linkUp k.val = true →
        block.toNat.testBit 47 = true → rb = afterAck (s.lk k.val).replay (bitsOf block.toNat 55 48) →
        n = (if rb.length < (s.lk k.val).replay.length then 0 else (s.lk k.val).fails) + 1 →
        (8 ≤ n → ∃ u : State, exec (.lctlRx k block) s = .next (u.linkDown k.val) ∧ u.regs = s.regs)
        ∧ (n < 8 → ∃ u : State, exec (.lctlRx k block) s = .next ((u.forEach rb (fun x c => x.putCell k.val c)).flushLink k.val)
          ∧ (u.lk k.val).replay = rb ∧ (u.lk k.val).fails = n
          ∧ u.fld (R.CHP_STAT k.val) F.CHP_STAT_REPLAY = satInc (F.CHP_STAT_REPLAY.hi - F.CHP_STAT_REPLAY.lo + 1)
            (s.fld (R.CHP_STAT k.val) F.CHP_STAT_REPLAY) 1))
    ∧ (∀ payload p, s.exitPort = some p → exec (.streamCellRx k payload) s = .next (s.reassemble p payload))
    ∧ (∀ payload, s.exitPort = none → exec (.streamCellRx k payload) s = .next (s.sendCell (1 - k.val) 3 payload))

/-- R305, R313, R320 to R322, R329, R331, R332: arrivals from outside. A frame at a port whose lane is in a test mode or whose
inversion RXINV does not undo brings nothing; one that is not accepted (no active exit, another station, a wrong tag, too long,
no service of the port), and a datagram for another address or with a wrong UDP checksum, counts in RXDROP; a command that meets
the conditions of the port goes to Headstock. Acceptance is that of the destination MAC, tag, length and service of Tables 12.1
and 12.2. A cell that checks is handed to what its virtual channel carries, and then frees its blocks, or keeps them while it
waits on the other link or for the SPI queue (the model's choice, log 118); any other is handed to nothing. R327, R329: a
received cell is good exactly when the link is up and deskewed, it is a cell of one of the six virtual channels with its payload
as long as LEN says, its CRC-32C checks and its sequence number is the expected one; only a good cell moves that on by one. What
a priority tag means, and that a port that is not the active exit counts in RXDROP what it discards, are the model's reading
(log 43). -/
def Obligations.ArrivalRows : Prop :=
  (∀ s : State, s.awake = true →
      (∀ (p : Fin 2) f, s.rxLive p.val f.head = false → exec (.frameRx p f) s = .next s)
      ∧ (∀ (p : Fin 2) (h : RxHead), s.rxLive p.val h = true ↔ s.tmode p.val = 0 ∧ h.inv = s.flag (R.LNE_CTRL p.val) F.LNE_CTRL_RXINV)
      ∧ (∀ (p : Fin 2) f, s.rxLive p.val f.head = true → s.frameOk p.val f.head f.service = false ∨ s.dgramOk p.val f = false →
          exec (.frameRx p f) s = .next (s.bump (R.NET_STAT p.val) F.NET_STAT_RXDROP))
      ∧ (∀ (p : Fin 2) h svc, s.frameOk p.val h svc = true ↔ s.isActive p.val = true
          ∧ (h.dest.toNat = s.portMac p.val ∨ svc = .arp ∧ h.dest.toNat = 0xFFFFFFFFFFFF
            ∨ s.ip6 p.val ≠ 0 ∧ h.dest.toNat = solicitedMac (s.ip6 p.val) ∨ h.dest.toNat = solicitedMac (s.ip6Local p.val)
            ∨ h.dest.toNat ∈ ptpMacs)
          ∧ (match h.tag with
            | some v => v.val = 0 ∨ s.flag (R.NET_CTRL p.val) F.NET_CTRL_VLAN_EN = true ∧ v.val = s.fld (R.NET_CTRL p.val) F.NET_CTRL_VID
            | none => s.flag (R.NET_CTRL p.val) F.NET_CTRL_VLAN_EN = false)
          ∧ h.len ≤ s.mtu p.val + 18 + 4 * b2n h.tag.isSome ∧ s.serviceOk p.val h svc = true)
      ∧ (∀ p h, s.serviceOk p h .unsupported = false)
      ∧ (∀ p h addr sport payload, s.serviceOk p h (.command addr sport payload) = true ↔
          h.ether = false ∧ h.port.val = s.fld R.NET_GCFG F.NET_GCFG_CMDPORT)
      ∧ (∀ (p : Fin 2) (f : Frame) addr sport payload, s.rxLive p.val f.head = true → f.service = .command addr sport payload →
          s.frameOk p.val f.head f.service = true → s.dgramOk p.val f = true →
          exec (.frameRx p f) s = .next (s.recvUdp p addr.toNat sport.val payload))
      ∧ (∀ (p : Fin 2) (f : Frame), s.rxLive p.val f.head = true → s.frameOk p.val f.head f.service = true →
          (∀ addr sport payload, f.service ≠ .command addr sport payload) → exec (.frameRx p f) s = .next s)
      ∧ (∀ k header payload vc b t, s.cellCheck k.val header.toNat payload = (t, some (vc, b)) →
          ∀ u : State, u = t.deliverCell k vc b → exec (.cellRx k header payload) s
          = .next (if t.hs.ringw.length < u.hs.ringw.length then u.holdCredit (cellLen b + 1)
              else u.settleCredit k.val vc (cellLen b + 1) (t.lk (1 - k.val)).waiting.length))
      ∧ (∀ k header payload t, s.cellCheck k.val header.toNat payload = (t, none) → exec (.cellRx k header payload) s = .next t))
  ∧ (∀ (s : State) (k hdr : Nat) (bs : List Byte),
      (∀ t vc b, s.cellCheck k hdr bs = (t, some (vc, b)) → s.linkUp k = true ∧ vc < 6 ∧ b = bs ∧ vc = bitsOf hdr 55 53
          ∧ bs.length = 8 * bitsOf hdr 52 47 ∧ bitsOf hdr 46 39 = (s.lk k).rxSeq
          ∧ (t.lk k).rxSeq = ((s.lk k).rxSeq + 1) % 256 ∧ t.regs = s.regs ∧ s.deskewed k = true)
      ∧ (∀ vc, s.linkUp k = true → s.deskewed k = true → bitsOf hdr 63 56 = 0xC3 → vc = bitsOf hdr 55 53 → vc < 6 → bitsOf hdr 52 47 ≤ 32 →
          bs.length = 8 * bitsOf hdr 52 47 → bitsOf hdr 31 0 = crc32c (bytesAt (beBytes 8 hdr) 0 4 ++ bs) →
          bitsOf hdr 46 39 = (s.lk k).rxSeq → ∃ t, s.cellCheck k hdr bs = (t, some (vc, bs)))
      ∧ (∀ t, s.cellCheck k hdr bs = (t, none) → (t.lk k).rxSeq = (s.lk k).rxSeq)
      ∧ (s.linkUp k = false → s.cellCheck k hdr bs = (s, none)))

/-- R350, R351, R358 to R361, R377: a command row whose datagram is good, is addressed to this hub, is whole, is no duplicate
and finds no command under its key and room in flight: it is accepted and executed by its opcode. Over the SPI the result byte
says so; at the active exit the way in is the port. R359: the duplicate check of a source. The highest accepted number is a
duplicate, every number 64 or more below it is, one above it is none, and one of the 63 below it is exactly when it was taken. A
number just accepted is a duplicate. That a command executes in one step is the model's choice (log 46), the order of the tests
its reading (log 44). -/
def Obligations.CommandAcceptance : Prop :=
  (∀ s : State, s.awake = true → s.hsReady = true → ∀ (r : CmdReq), r.more = false → r.crcErr = 0 →
      r.target.val = s.hubId → s.hubId ≠ 0xFFFF → s.idConflict = false → r.params.length < 65536 →
      s.partOf (r.srcid.toNat, r.tag.val) = none → s.hs.flight.length < 64 →
      s.hs.flight.contains (r.srcid.toNat, r.tag.val) = false → s.duplicate r.srcid.toNat r.sseq.toNat = false →
      ∀ c ∈ [(Instr.ident r, 0x01), (.read r, 0x02), (.write r, 0x03), (.writeMask r, 0x04), (.readList r, 0x05),
        (.writeList r, 0x06), (.readWord r, 0x08), (.snapshot r, 0x10), (.capture r, 0x11), (.ringInfo r, 0x18),
        (.setHubid r, 0x19), (.powerLevel r, 0x20), (.powerMode r, 0x20), (.reset r, 0x21), (.safeParam r, 0x30), (.safeTlg r, 0x31)],
      (r.entry = .spi → s.hs.spiq.length < 8 → exec c.1 s
        = .next ((((s.hearSource r.srcid.toNat).markSource r.srcid.toNat r.sseq.toNat).execCmd
            (reqCtx s.hubId 1 s.hs.xid 0 0 false (reqDgram r c.2)) r.ver.val .spi r.params).emit (.spi (23 + r.params.length) [0x80])))
      ∧ (∀ p addr sport, r.entry = .net p addr sport → s.isActive p.val = true → s.tmode p.val = 0 → exec c.1 s
        = .next (((s.hearSource r.srcid.toNat).markSource r.srcid.toNat r.sseq.toNat).execCmd
            (reqCtx s.hubId 0 s.hs.xid addr.toNat sport.val false (reqDgram r c.2)) r.ver.val (.port p) r.params)))
  ∧ (∀ (s : State) (id n : Nat),
      (s.source id = none → s.duplicate id n = false)
      ∧ (∀ x, s.source id = some x → signed 32 (n + 2 ^ 32 - x.high) ≤ -64 → s.duplicate id n = true)
      ∧ (∀ x, s.source id = some x → 0 < signed 32 (n + 2 ^ 32 - x.high) → s.duplicate id n = false)
      ∧ (∀ x, s.source id = some x → -64 < signed 32 (n + 2 ^ 32 - x.high) → signed 32 (n + 2 ^ 32 - x.high) ≤ 0 →
          s.duplicate id n = x.taken.contains n)
      ∧ (n < 2 ^ 32 → s.duplicate id n = false → (∀ x, s.source id = some x → x.high < 2 ^ 32) →
          (s.markSource id n).duplicate id n = true))

/-- R355: a datagram at the command port whose CRC fails is discarded without a reply, counted in CRCERR and shown by source
248; one whose opcode has bit 7 set is discarded silently. Table 13.3: what the header of a datagram says is what its fields
spell. -/
def Obligations.DatagramsDiscarded : Prop :=
  (∀ (s : State) (p : Fin 2) (addr sport : Nat) (b : List Byte), s.hsReady = true →
      (dgramGood b = false → s.recvUdp p addr sport b = s.crcDiscard ∧ s.crcDiscard.out = s.out
          ∧ s.crcDiscard.fld R.CMD_STAT F.CMD_STAT_CRCERR
            = satInc (F.CMD_STAT_CRCERR.hi - F.CMD_STAT_CRCERR.lo + 1) (s.fld R.CMD_STAT F.CMD_STAT_CRCERR) 1
          ∧ s.crcDiscard.srcBit R.FLT_STICKY 248 = true)
      ∧ (dgramGood b = true → 128 ≤ natAt b 1 1 → s.recvUdp p addr sport b = s))
  ∧ (∀ (r : CmdReq) (op entry path xid saddr sport : Nat) (ring : Bool), op < 256 → r.params.length < 65536 →
      let q := reqCtx entry path xid saddr sport ring (reqDgram r op)
      q.op = op ∧ q.tag = r.tag.val ∧ q.ack = r.ackreq ∧ q.target = r.target.val ∧ q.sseq = r.sseq.toNat ∧ q.srcid = r.srcid.toNat
        ∧ reqMore (reqDgram r op) = r.more ∧ reqParams (reqDgram r op) = r.params ∧ dgramSized (reqDgram r op) = true
        ∧ (dgramGood (reqDgram r op) = true ↔ r.crcErr = 0))

/-- R362, R366 to R375, Table 13.5: what each opcode does once accepted. A wrong version answers BADVER, an unknown opcode
BADOP, parameters of another layout BADLEN, and a closed network path PATH; IDENT, RING_INFO, READ, READ_LIST, READ_WORD, WRITE,
WRITE_LIST, WRITE_MASK, SNAPSHOT, CAPTURE, POWER, RESET and SAFE_PARAM answer and act as their rules say, a read with a stale
word answers STALE, SET_HUBID sets the site part unless the ID would be 0xFFFF and is not answered by a hub it is not meant for,
and SAFE_TLG goes to Tailstock. While it executes a command is in flight. A unicast SNAPSHOT that came too late latches, with
FWD, with its broadcast 50 us after its receipt (the model's choice, log 97). The answers to invalid values are in part the
model's reading (log 49). -/
def Obligations.CommandOpcodes : Prop :=
  ∀ (s : State) (q : ReqCtx) (via : Via) (p : List Byte),
    (∀ ver, ver ≠ 2 → s.runCmd q ver via p = (s, some (0x01, [])))
    ∧ (q.op ∉ allOps → s.runCmd q 2 via p = (s, some (0x02, [])))
    ∧ (q.op ∈ allOps → paramsOk q.op p = false → s.runCmd q 2 via p = (s, some (0x03, [])))
    ∧ (q.op = 0x21 → paramsOk q.op p = true → s.pathBlocked q = true → s.runCmd q 2 via p = (s, some (0x07, [])))
    ∧ (q.op = 0x01 → p = [] → s.runCmd q 2 via p = (s, some (0, s.identBytes)))
    ∧ (q.op = 0x18 → p = [] → s.runCmd q 2 via p = (s, some (0, s.ringBytes)))
    ∧ (∀ l, (q.op = 0x02 ∧ l = strided (natAt p 0 4) (natAt p 4 2) (natAt p 6 2))
          ∨ (q.op = 0x05 ∧ l = (List.range (natAt p 0 2)).map (fun j => natAt p (4 + 4 * j) 4)) → paramsOk q.op p = true →
        (l.all addrOk = false → s.runCmd q 2 via p = (s, some (0x04, [])))
        ∧ (∀ t ws stale, l.all addrOk = true → s.readAll l = (t, ws, stale) →
          s.runCmd q 2 via p = (t, some (if stale then 0x0C else 0, wordBytes ws))))
    ∧ (∀ a m v, q.op = 0x04 → paramsOk q.op p = true → a = natAt p 0 4 → m = wordAt p 4 → v = wordAt p 8 →
        (addrOk a = false → s.runCmd q 2 via p = (s, some (0x04, [])))
        ∧ (∀ t old stale w, addrOk a = true → s.readWord a = (t, old, stale) → w = (BitVec.ofNat 32 old &&& ~~~m) ||| (v &&& m) →
          ((s.checkWrites via [(a, w)]).1 = 0 → s.pathBlocked q = false →
            s.runCmd q 2 via p = (t.writeWord via (a, w), some (if stale then 0x0C else 0, beBytes 4 old)))
          ∧ ((s.checkWrites via [(a, w)]).1 = 0 → s.pathBlocked q = true → s.runCmd q 2 via p = (s, some (0x07, [])))
          ∧ ((s.checkWrites via [(a, w)]).1 ≠ 0 → s.pathBlocked q = false →
            s.runCmd q 2 via p = ((s.accessWrite via [(a, w)]).1, some ((s.accessWrite via [(a, w)]).2, [])))))
    ∧ (q.op = 0x08 → paramsOk q.op p = true → ∃ t bs, s.runCmd q 2 via p = (t, some (0, bs)) ∧ bs.length = 24 * natAt p 0 2
        ∧ (t, bs) = s.cmdWords ((List.range (natAt p 0 2)).map (fun j => natAt p (4 + 2 * j) 2)))
    ∧ (∀ n ns, s.cmdWords (n :: ns) = (((s.wordEntry n).1.cmdWords ns).1, (s.wordEntry n).2 ++ ((s.wordEntry n).1.cmdWords ns).2))
    ∧ (∀ n t w0 w1 w2 w3 w4 stale, s.readAll [R.CH_OUT_W n, R.CH_OUT_Q n, R.CH_OUT_T n, R.CH_OUT_T_HI n, R.CH_OUT_S n]
          = (t, [w0, w1, w2, w3, w4], stale) → s.wordEntry n = (t, beBytes 2 n ++ beBytes 1 (bitsOf w1 7 0) ++ beBytes 1 (bitsOf w1 11 8)
            ++ beBytes 2 (bitsOf w1 31 16) ++ beBytes 2 0 ++ beBytes 4 w0 ++ beBytes 4 w4 ++ beBytes 4 (w3 % 65536) ++ beBytes 4 w2))
    ∧ (∀ asked late time uni fwd at0, q.op = 0x10 → paramsOk q.op p = true → s.pathBlocked q = false → uni = decide (q.target ≠ 0xFFFF) →
        fwd = (uni && s.flag R.SNAP_CTRL F.SNAP_CTRL_FWD) →
        ((natAt p 0 1).testBit 0 = false ∧ late = false ∧ time = s.lt + 2000 * nsU)
          ∨ ((natAt p 0 1).testBit 0 = true ∧ ltAt p 4 = some asked ∧ late = decide (asked < s.lt + 2000 * nsU)
            ∧ time = max asked (s.lt + 2000 * nsU)) →
        at0 = (if fwd then max time (s.lt + 50000 * nsU) else time) →
        (∀ t, s.snapRequest at0 4 late = (t, true) → s.runCmd q 2 via p
          = (if fwd then t.sendVc1 0x11 0 at0 else t, some (0, ltBytes at0 ++ beBytes 2 0)))
        ∧ (∀ t, s.snapRequest at0 4 late = (t, false) → s.runCmd q 2 via p = (t, some (0x0F, List.replicate 16 0))))
    ∧ (q.op = 0x03 ∨ q.op = 0x06 → paramsOk q.op p = true → s.pathBlocked q = false →
        s.runCmd q 2 via p = ((s.accessWrite via (writesOf q.op p)).1, some ((s.accessWrite via (writesOf q.op p)).2, [])))
    ∧ (q.op = 0x11 → paramsOk q.op p = true → s.pathBlocked q = false → s.runCmd q 2 via p
        = (s.forEach (setBitsOf 16 (natAt p 0 2)) (fun x b => x.capSoft b), some (0, ltBytes (s.lt + 2000 * nsU) ++ beBytes 2 0)))
    ∧ (q.op = 0x19 → paramsOk q.op p = true → s.hubidFor p = false → s.runCmd q 2 via p = (s, none))
    ∧ (∀ v : Word, q.op = 0x19 → paramsOk q.op p = true → s.hubidFor p = true → s.pathBlocked q = false →
        v = BitVec.ofNat 32 (natAt p 8 2 / 16 * 16 + s.fld R.CMD_HUBID F.CMD_HUBID_HID) →
        (natAt p 8 2 / 16 = 0xFFF ∧ s.fld R.CMD_HUBID F.CMD_HUBID_HID = 0xF → s.runCmd q 2 via p = (s, some (0x0F, [])))
        ∧ (¬ (natAt p 8 2 / 16 = 0xFFF ∧ s.fld R.CMD_HUBID F.CMD_HUBID_HID = 0xF) →
          s.runCmd q 2 via p = (s.writeHubid v, some (0, [])) ∧ (s.writeHubid v).fld R.CMD_HUBID F.CMD_HUBID_SITE = natAt p 8 2 / 16
          ∧ (s.writeHubid v).fld R.CMD_HUBID F.CMD_HUBID_HID = s.fld R.CMD_HUBID F.CMD_HUBID_HID))
    ∧ (q.op = 0x20 → paramsOk q.op p = true → s.pathBlocked q = false →
        (natAt p 0 1 = 1 → natAt p 1 1 ≤ 3 → s.overLevel (natAt p 1 1) = false →
          s.runCmd q 2 via p = (s.powerRequest 1 (natAt p 1 1) 1, some (0, [])))
        ∧ (natAt p 0 1 = 1 → s.overLevel (natAt p 1 1) = true ∨ 3 < natAt p 1 1 → s.runCmd q 2 via p = (s, some (0x0F, [])))
        ∧ (natAt p 0 1 = 2 → natAt p 1 1 ≤ 2 → s.runCmd q 2 via p = (s.powerRequest 2 (natAt p 1 1) 1, some (0, [])))
        ∧ (natAt p 0 1 ≠ 1 → natAt p 0 1 ≠ 2 ∨ 2 < natAt p 1 1 → s.runCmd q 2 via p = (s, some (0x0F, []))))
    ∧ (q.op = 0x21 → paramsOk q.op p = true → s.pathBlocked q = false → natAt p 0 2 = 0xB384 → natAt p 2 1 = 1 →
        s.pwr.cmdReset = none → ∃ t, s.runCmd q 2 via p = (t, some (0, [])) ∧ t.pwr.cmdReset = some (s.lt + 1000000 * nsU)
          ∧ t.regs = s.regs)
    ∧ (q.op = 0x31 → paramsOk q.op p = true →
        s.runCmd q 2 via p = (s.safeTlg q p, none))
    ∧ (∀ r, q.op = 0x30 → s.pathBlocked q = false → r = (s.toChanB 1 p).setResult p → ∃ t, s.runCmd q 2 via p
        = (t, some (if r = 0 then 0 else 0x10, beBytes 4 (setCrcOf p) ++ beBytes 2 ((s.tls.seals[0]?).getD 0) ++ beBytes 1 r ++ beBytes 1 0))
        ∧ t.tls.pres = r ∧ (r = 0 → t.tls.next = some p) ∧ (r ≠ 0 → t.tls.next = s.tls.next ∧ t.srcBit R.FLT_STICKY 238 = true))
    ∧ (q.op = 0x21 → paramsOk q.op p = true → s.pathBlocked q = false → natAt p 0 2 ≠ 0xB384 ∨ natAt p 2 1 ≠ 1 →
        s.runCmd q 2 via p = (s, some (0x0F, [])))
    ∧ (s.execCmd q 2 via p = (match (s.setHs { s.hs with flight := s.hs.flight ++ [q.key] }).runCmd q 2 via p with
        | (t, some (st, out)) => t.finish q st out
        | (t, none) => if q.op = 0x31 then t.drainAnswers else t.setHs { t.hs with flight := t.hs.flight.erase q.key }))

/-- R360: a first part with MORE that meets nothing in its way is gathered and keeps its key in flight; a gap of more than 10 ms
ends a command in parts. R374: the reset a command asked for comes at its instant. R352, R353, R364: VC2 messages. A cell
without a whole routing header is dropped; one that begins and ends its message hands it on at once, one that only begins it
waits for the rest; an incomplete message is discarded after 10 ms; a reply that is not back in time is answered with TIMEOUT
and source 250. The key of reassembly and corners of parts are the model's reading (logs 44 and 50). -/
def Obligations.CommandPartRows : Prop :=
  (∀ s : State, s.awake = true →
      (∀ (op : Fin 128) (r : CmdReq), s.hsReady = true → r.entry = .spi → r.crcErr = 0 → r.target.val = s.hubId → s.hubId ≠ 0xFFFF →
        s.idConflict = false → r.params.length < 65536 → s.hs.spiq.length < 8 → s.hs.parts = [] → s.hs.flight.length < 64 →
        s.hs.flight.contains (r.srcid.toNat, r.tag.val) = false → s.duplicate r.srcid.toNat r.sseq.toNat = false →
        op.val ∈ partOps → ∃ t x, exec (.commandPart op r) s = .next t ∧ t.hs.parts = [x] ∧ x.params = r.params
          ∧ x.next = (r.sseq.toNat + 1) % 2 ^ 32 ∧ x.heard = s.lt ∧ t.hs.flight = s.hs.flight ++ [(r.srcid.toNat, r.tag.val)]
          ∧ t.regs = s.regs)
      ∧ (∀ (srcid : BitVec 32) (tag : Fin 64) x, s.partOf (srcid.toNat, tag.val) = some x →
          exec (.partsTimeout srcid tag) s = .next ((s.moveTo (x.heard + partGap)).endParts x))
      ∧ (∀ srcid tag, s.hs.parts = [] → exec (.partsTimeout srcid tag) s = .next s)
      ∧ (∀ t, s.pwr.cmdReset = some t → exec .commandResetExpiry s = .next ((s.moveTo t).fullReset 4 false)))
  ∧ (∀ s : State, s.awake = true →
      (∀ k b, b.length < 28 → exec (.vc2CellRx k b) s = .next s)
      ∧ (∀ k b, 28 ≤ b.length → s.hs.vc2 = [] → (natAt b 4 1).testBit 7 = true → (natAt b 4 1).testBit 6 = true →
          exec (.vc2CellRx k b) s = .next (s.vc2Message k (b.take 28) (b.drop 28)))
      ∧ (∀ k b, 28 ≤ b.length → s.hs.vc2 = [] → (natAt b 4 1).testBit 7 = true → (natAt b 4 1).testBit 6 = false →
          ∃ t, exec (.vc2CellRx k b) s = .next t ∧ t.regs = s.regs
          ∧ t.hs.vc2 = [⟨natAt b 0 2, natAt b 6 2, k.val, b.take 28, b.drop 28, s.lt⟩])
      ∧ (∀ (entry xid : Fin 65536) x, s.hs.vc2 = [x] → x.entry = entry.val → x.xid = xid.val → s.spn.refclk = true →
          ∃ t, exec (.vc2ReassemblyTimeout entry xid) s = .next t ∧ t.hs.vc2 = [])
      ∧ (∀ (xid : Fin 65536) q due, s.hs.fwd.find? (fun f => decide (f.1.xid = xid.val)) = some (q, due) → ∃ u : State,
          exec (.forwardTimeout xid) s = .next ((u.raiseHub 250).sendReply q 0x0E [])
          ∧ xid.val ∈ u.hs.late ∧ (∀ f ∈ u.hs.fwd, f.1.xid ≠ xid.val)))

/-- R350, R353, R376 to R378: the SPI frames of a ready Headstock in an awake hub; one that is not ready does nothing with them.
Each byte of a frame is answered by 0x00 until its result is due. A bad CRC answers SPICRC and acts on nothing; a count outside
1 to 256 answers BADLEN; a read answers its words with their CRC, STALE where one is stale, BADADDR where an address is none; a
write answers its status, FILL writing its one word everywhere; a good CMD_SEND hands its datagram to Headstock and answers its
result: 0x80 for a command of this hub that is accepted and executed, for one that is forwarded and for one whose hub is not
there, 0x88 with the reply queue full; CMD_RECV clocks out the oldest reply, which leaves the queue only with its last byte, and
the oldest waiting reply takes the room, this hub's own first (the model's choice, log 118); another first byte answers BADOP;
an aborted frame does nothing. What an opcode with bit 7 set gives over the SPI is the model's reading (log 47). -/
def Obligations.SpiFrameRows : Prop :=
  ∀ s : State, s.awake = true →
    (∀ c : Instr, (∃ a n st e, c = .regRead a n st e) ∨ (∃ a n st ws e, c = .regWrite a n st ws e) ∨ (∃ b, c = .cmdSend b)
        ∨ (∃ n, c = .cmdRecv n) ∨ (∃ b, c = .spiBadFrame b) → s.hsReady = false → exec c s = .next s)
    ∧ (∀ a n stride (e : BitVec 32), s.hsReady = true → e ≠ 0 → exec (.regRead a n stride e) s = .next (s.emit (.spi 13 [0x91])))
    ∧ (∀ a n stride, s.hsReady = true → n.val = 0 ∨ 256 < n.val →
        exec (.regRead a n stride 0) s = .next (s.emit (.spi 13 [0x83])))
    ∧ (∀ (a : Word) (n stride : Fin 65536), s.hsReady = true → 1 ≤ n.val → n.val ≤ 256 →
        ((strided a.toNat n.val stride.val).all addrOk = false → exec (.regRead a n stride 0) s = .next (s.emit (.spi 13 [0x84])))
        ∧ (∀ t ws stale r, (strided a.toNat n.val stride.val).all addrOk = true →
          s.readAll (strided a.toNat n.val stride.val) = (t, ws, stale) → r = beBytes 1 (if stale then 0x8C else 0x80) →
          exec (.regRead a n stride 0) s = .next (t.emit (.spi 13 (r ++ (wordBytes ws ++ beBytes 4 (crc32c (r ++ wordBytes ws))))))))
    ∧ (∀ (a : Word) (n stride : Fin 65536) words l, s.hsReady = true →
        (stride.val < 32768 ∧ words.length = n.val ∧ l = (List.range n.val).map (fun j => (a.toNat + strideOf stride.val * j, (words[j]?).getD 0)))
          ∨ (32768 ≤ stride.val ∧ words.length = 1 ∧ l = (List.range n.val).map (fun j => (a.toNat + strideOf stride.val * j, (words[0]?).getD 0))) →
        (1 ≤ n.val → n.val ≤ 256 → exec (.regWrite a n stride words 0) s
          = .next ((s.accessWrite .spi l).1.emit (.spi (13 + 4 * words.length) (beBytes 1 (0x80 + (s.accessWrite .spi l).2)))))
        ∧ (n.val = 0 ∨ 256 < n.val → exec (.regWrite a n stride words 0) s = .next (s.emit (.spi (13 + 4 * words.length) [0x83])))
        ∧ (∀ e : BitVec 32, e ≠ 0 → exec (.regWrite a n stride words e) s = .next (s.emit (.spi (13 + 4 * words.length) [0x91]))))
    ∧ (∀ b, s.hsReady = true → dgramGood b = false →
        exec (.cmdSend b) s = .next (s.crcDiscard.emit (.spi (3 + b.length) [0x91])))
    ∧ (∀ b, s.hsReady = true → dgramGood b = true → 128 ≤ natAt b 1 1 → exec (.cmdSend b) s = .next (s.emit (.spi (3 + b.length) [0x82])))
    ∧ (∀ b q, s.hsReady = true → dgramGood b = true → natAt b 1 1 < 128 → q = reqCtx s.hubId 1 s.hs.xid 0 0 false b →
        (8 ≤ s.hs.spiq.length → exec (.cmdSend b) s = .next ((s.refuseAt q 0x08).1.emit (.spi (3 + b.length) [0x88])))
        ∧ (s.hs.spiq.length < 8 → q.target ≠ 0xFFFF →
          (q.target = s.hubId → s.idConflict = false → reqMore b = false → s.partOf q.key = none → s.hs.flight.length < 64 →
            s.hs.flight.contains q.key = false → s.duplicate q.srcid q.sseq = false →
            exec (.cmdSend b) s = .next ((((s.hearSource q.srcid).markSource q.srcid q.sseq).execCmd q (natAt b 0 1) .spi
              (reqParams b)).emit (.spi (3 + b.length) [0x80])))
          ∧ (∀ h, q.target ≠ s.hubId → s.seg.find? (fun x => decide (x.id = q.target)) = some h → s.hs.fwd.length < 128 →
            exec (.cmdSend b) s = .next (((s.sendVc2 h.link q q.target 1 0 b).awaitReply q (reqMore b)).emit (.spi (3 + b.length) [0x80])))
          ∧ (q.target ≠ s.hubId → s.seg.find? (fun x => decide (x.id = q.target)) = none →
            exec (.cmdSend b) s = .next ((if q.due && !reqMore b then s.sendReply q 0x0D [] else s).emit (.spi (3 + b.length) [0x80])))))
    ∧ (∀ r rest (n : Nat), s.hsReady = true → s.hs.spiq = r :: rest → 3 + r.length ≤ n →
        ∃ t, exec (.cmdRecv n) s = .next t ∧ t.regs = s.regs
        ∧ (s.hs.spiw = [] → s.hs.ringw = [] → t.hs.spiq = rest ∧ t.out = s.out ++ [.spi 1 (beBytes 1 0x80 ++ beBytes 2 r.length ++ r)])
        ∧ (∀ w ws, s.hs.spiw = w :: ws → t.hs.spiq = rest ++ [w] ∧ t.hs.spiw = ws ∧ t.hs.ringw = s.hs.ringw)
        ∧ (∀ k m w ws, s.hs.spiw = [] → s.hs.ringw = (k, m, w) :: ws → t.hs.spiq = rest ++ [w] ∧ t.hs.ringw = ws))
    ∧ (∀ r rest (n : Nat), s.hsReady = true → s.hs.spiq = r :: rest → n < 3 + r.length →
        ∃ t, exec (.cmdRecv n) s = .next t ∧ t.hs = s.hs ∧ t.regs = s.regs
        ∧ t.out = s.out ++ [.spi 1 ((beBytes 1 0x80 ++ beBytes 2 r.length ++ r).take n)])
    ∧ (∀ n : Nat, s.hsReady = true → s.hs.spiq = [] → s.hs.spiw = [] → s.hs.ringw = [] →
        ∃ t, exec (.cmdRecv n) s = .next t ∧ t.hs = s.hs ∧ t.regs = s.regs ∧ t.out = s.out ++ [.spi 1 ([0x80, 0, 0].take n)])
    ∧ (∀ b : Fin 256, s.hsReady = true → b.val ∉ [1, 2, 3, 4] → exec (.spiBadFrame b) s = .next (s.emit (.spi 1 [0x82])))
    ∧ exec .spiFrameAbort s = .next s

/-- R410 to R413: the inputs and encoders of Tailstock in an awake hub, whose safe inputs and axes stand in their 16 and 4
places. A run of FT samples turns a channel's filtered state, and nothing less does; a disagreement of DISC ms is input FAULT
with source 228; a test pulse falls and rises; a legal step of the tracks counts in both channels, each in its own count, and an
illegal or too fast one faults the axis with source 233 and counts in neither. R405, R412, R414 to R420: demands, stops,
releases, resets and watchdogs of Tailstock, channel by channel. A demand for STO de-energises a channel's outputs in the cycle;
one for SS1 alone starts its monitoring and leaves them; SS1 ends in STO at standstill or at its time limit, and an axis above
its ramp or still moving at the limit is in FAULT. FAULT and LOCKOUT are of both channels (the model's choice, log 119); the
rows whose effect a safety cycle has at its steps do the same at once (log 120). The direction in which an encoder counts is the
model's choice (log 19), and what channel B samples and sends comes with operands (log 53). -/
def Obligations.TailstockRows : Prop :=
  (∀ s : State, s.awake = true → s.tls.inputs.length = 16 → s.tls.axes.length = 4 →
      (∀ (c : Bool) (j : Fin 16), s.inUsed j.val = true →
          (s.inPar j.val 2 1 ≤ (if c then (s.inp j.val).cb else (s.inp j.val).ca) → ∃ u : State,
            exec (.inputFilterChange c j) s = .next u ∧ u.regs = s.regs ∧ u.tls.axes = s.tls.axes
            ∧ (u.inp j.val) = (if c then { s.inp j.val with fb := !(s.inp j.val).fb, cb := 0 } else { s.inp j.val with fa := !(s.inp j.val).fa, ca := 0 }))
          ∧ ((if c then (s.inp j.val).cb else (s.inp j.val).ca) < s.inPar j.val 2 1 → exec (.inputFilterChange c j) s = .next s))
      ∧ (∀ c j, s.inUsed j.val = false → exec (.inputFilterChange c j) s = .next s)
      ∧ (∀ j : Fin 16, s.inUsed j.val = true → msCycles (s.inPar j.val 6 2) ≤ (s.inp j.val).disc → (s.inp j.val).fault = false →
          exec (.discrepancyTimeout j) s = .next ((s.inFault j.val 228).raiseTls) ∧ ((s.inFault j.val 228).inp j.val).fault = true
            ∧ (228, j.val) ∈ (s.inFault j.val 228).tls.evs)
      ∧ (∀ t, s.tls.tpLow = none → s.tpAt s.tls.cyc = some t → s.tls.g = gActive → ∃ u, exec .testPulseStart s = .next u
          ∧ u.tls.tpLow = some t ∧ u.out = s.out ++ [.pin (pinTp t) 0 (s.moveTo (s.tls.startLt + 125000 * nsU)).lt])
      ∧ (∀ t, s.tls.tpLow = some t → s.tpAt s.tls.cyc ≠ some t → ∃ u, exec .testPulseEnd s = .next u ∧ u.tls.tpLow = none
          ∧ u.out = s.out ++ [.pin (pinTp t) 1 (s.moveTo (s.tls.startLt + 125000 * nsU)).lt])
      ∧ (∀ t, s.tls.tpLow = some t → s.tpAt s.tls.cyc = some t → exec .testPulseEnd s = .next s)
      ∧ (∀ (x : Fin 4) (tracks : Fin 4) d, quadStep (s.axis x.val).tracks tracks.val = some d →
          ∃ t, exec (.encoderEdge x tracks false) s = .next t
          ∧ (∀ c, t.drive c x.val = { s.drive c x.val with cnt := twos 32 (((s.drive c x.val).cnt : Int) + d) })
          ∧ (t.axis x.val).tracks = tracks.val ∧ t.regs = s.regs)
      ∧ (∀ (x : Fin 4) (tracks : Fin 4) fast, quadStep (s.axis x.val).tracks tracks.val = none ∨ fast = true → ∃ u : State,
          exec (.encoderEdge x tracks fast) s = .next ((u.axToFault x.val).raise 233 x.val)
          ∧ (u.axis x.val).tracks = tracks.val ∧ ∀ c, u.drive c x.val = s.drive c x.val))
  ∧ (∀ s : State, s.awake = true → s.tls.inputs.length = 16 → s.tls.axes.length = 4 →
      (∀ x : Fin 4, exec (.ss1TimeLimit x) s = .next (((s.ss1Check false x.val).ss1Check true x.val).raiseTls))
      ∧ (∀ (x : Fin 4) c d v still t, d = s.drive c x.val → v = absQ (s.axSpeed c x.val) → still = ((s.axPar x.val 4 4 : Nat) : Rat) →
          t = ((s.cycSince d.ss1From : Nat) : Rat) / 4000 →
          (d.st ≠ axSs1 → s.ss1Check c x.val = s)
          ∧ (d.st = axSs1 → s.axPar x.val 1 1 ≠ 1 → s.ss1Check c x.val
            = if msCycles (s.axPar x.val 2 2) ≤ s.cycSince d.ss1From then s.ss1Done c x.val else s)
          ∧ (d.st = axSs1 → s.axPar x.val 1 1 = 1 →
            (still < v → d.v0 + (s.axPar x.val 12 4 : Nat) - (s.axPar x.val 8 4 : Nat) * t < v →
              s.ss1Check c x.val = (s.axToFault x.val).sayOnce 234 x.val)
            ∧ (v ≤ still → s.ss1Check c x.val = s.ss1Done c x.val)
            ∧ (still < v → v ≤ d.v0 + (s.axPar x.val 12 4 : Nat) - (s.axPar x.val 8 4 : Nat) * t →
              s.ss1Check c x.val = if msCycles (s.axPar x.val 2 2) ≤ s.cycSince d.ss1From then (s.axToFault x.val).sayOnce 235 x.val else s)))
      ∧ (∀ (x : Fin 4) c, (s.ss1Done c x.val).drive c x.val = { s.drive c x.val with st := axStopped, sto := false, sbc := false, byReq := false }
          ∧ (s.ss1Done c x.val).drive (!c) x.val = s.drive (!c) x.val)
      ∧ (∀ (x : Fin 4) c e, (s.demands x.val).head? = some e → (s.drive c x.val).st = axRun →
          ((∃ f ∈ s.demands x.val, f.2 = fnSto) → s.evalDrive c x.val = (s.axOff c x.val axStopped).sayOnce e.1 x.val)
          ∧ ((∀ f ∈ s.demands x.val, f.2 ≠ fnSto) → ∃ u : State, s.evalDrive c x.val = u.ss1Check c x.val
            ∧ u.drive c x.val = { s.drive c x.val with st := axSs1, ss1From := s.tls.cyc, v0 := absQ (s.axSpeed c x.val), byReq := decide (e.1 = 243) }
            ∧ (e.1 = 243 → u.tls.evs = s.tls.evs) ∧ (e.1 ≠ 243 → (e.1, x.val) ∈ u.tls.evs)))
      ∧ (∀ x : Fin 4, s.axEnabled x.val = true → ∀ c, (s.axToFault x.val).drive c x.val
          = { s.drive c x.val with st := axFault, sto := false, sbc := false, byReq := false, needEdge := true })
      ∧ (∀ x : Fin 4, ∃ u : State, exec (.sbcRelease x) s = .next u ∧ u.regs = s.regs ∧ ∀ c,
          u.drive c x.val = { s.drive c x.val with sbc := (s.drive c x.val).sbc || (s.axEnabled x.val && (s.drive c x.val).sto
            && (s.axPar x.val 20 1).testBit 0 && decide (msCycles (s.axPar x.val 18 2) ≤ s.cycSince (s.drive c x.val).stoFrom)) })
      ∧ (∀ (x : Fin 4) chB sbc low, s.tls.cyc % 4000 ≠ (500 * x.val + 250 * b2n sbc + 2000 * b2n chB) % 4000 ∨
          (if sbc then (s.drive chB x.val).sbc else (s.drive chB x.val).sto) = false → exec (.outputOffTest x chB sbc low) s = .next s)
      ∧ (∀ (x : Fin 4) chB sbc (u : State), s.tls.cyc % 4000 = (500 * x.val + 250 * b2n sbc + 2000 * b2n chB) % 4000 →
          (if sbc then (s.drive chB x.val).sbc else (s.drive chB x.val).sto) = true →
          u = (s.emit (.pin (pinOff x.val chB sbc) 0 s.lt)).emit (.pin (pinOff x.val chB sbc) 1 (s.lt + 100000 * nsU)) →
          exec (.outputOffTest x chB sbc true) s = .next u
          ∧ exec (.outputOffTest x chB sbc false) s
            = .next (((u.lockout (if sbc then 3 else 2)).say (if sbc then 231 else 230) x.val).raiseTls))
      ∧ (s.rstEdge = false → exec .safeRstEdge s = .next s)
      ∧ (s.rstEdge = true → exec .safeRstEdge s = .next s.takeRst.resetEdge.raiseTls ∧ s.takeRst.rstEdge = false)
      ∧ (∀ a b, s.tls.chA.fall = some a → s.tls.chB.fall = some b → (s.rstEdge = true ↔
          s.cycSince a = 0 ∧ s.cycSince b ≤ 2 ∨ s.cycSince b = 0 ∧ s.cycSince a ≤ 2))
      ∧ (s.tls.chA.fall = none ∨ s.tls.chB.fall = none → s.rstEdge = false)
      ∧ (s.tls.g ≠ gActive ∨ s.tls.setCyc = s.tls.cyc → s.resetEdge = s)
      ∧ (s.tls.g = gActive → s.tls.setCyc ≠ s.tls.cyc → ∀ e : State, e = s.edgeClear →
          (∀ x < 4, (e.axFree x = true → ∀ c, (s.resetEdge.drive c x)
              = { s.drive c x with st := axRun, sto := true, needEdge := false, stoFrom := s.tls.cyc })
            ∧ (e.axFree x = false → ∀ c, s.resetEdge.drive c x = s.drive c x))
          ∧ ((∃ x < 4, e.axEnabled x = true ∧ e.demands x ≠ []) → (244, instHub) ∈ s.resetEdge.tls.evs)
          ∧ ((∀ x < 4, e.axEnabled x = true → e.demands x = []) → s.resetEdge.tls.evs = s.tls.evs))
      ∧ (∀ x, s.axFree x = true ↔ s.axEnabled x = true ∧ s.demands x = [] ∧ s.axFaultNow x = false ∧ s.inputFaulty x = false
          ∧ ∀ c, (s.drive c x).st = axStopped ∨ (s.drive c x).st = axFault)
      ∧ (msCycles 2000 < s.tls.chA.high ∨ msCycles 2000 < s.tls.chB.high → s.tls.held = false → ∃ u : State,
          exec .safeRstHeld s = .next u.raiseTls ∧ u.tls = { s.tls with held := true, evs := s.tls.evs ++ [(246, instHub)] } ∧ u.regs = s.regs)
      ∧ (s.tls.g = gActive → s.tls.synced = true → s.tls.conn = cnSync ∨ s.tls.conn = cnRunning →
          msCycles s.tlgWd ≤ s.cycSince s.tls.accepted → ∃ u : State, exec .telegramWatchdog s = .next u.raiseTls ∧ u.regs = s.regs
          ∧ u.tls = { s.tls with conn := cnExpired, synced := false, axRun := 0, axSto := 0, evs := s.tls.evs ++ [(236, instHub)] })
      ∧ (∀ t, s.tls.startTick = some t → ∃ u : State, u.tls = s.tls ∧ (s.pwr.xt32 = false → cycU * (t + 14) ≤ u.always)
          ∧ exec .cycleTimeout s = .next (if s.tls.gapSaid then u else u.timingFault.raiseTls))
      ∧ (s.timingFault.tls.timing = true ∧ s.timingFault.tls.goodRun = 0 ∧ s.timingFault.tls.gapSaid = true
          ∧ s.timingFault.tls.evs = s.tls.evs ++ (if s.tls.gapSaid then [] else [(227, instHub)])
          ∧ ∀ x < 4, s.axEnabled x = true → ∀ c, (s.timingFault.drive c x).st = axFault ∧ (s.timingFault.drive c x).sto = false
            ∧ (s.timingFault.drive c x).sbc = false)
      ∧ (s.tls.timing = true → 4000 ≤ s.tls.goodRun → exec .cycleFaultClear s = .next (s.setTls { s.tls with timing := false }))
      ∧ (s.tls.goodRun < 4000 → exec .cycleFaultClear s = .next s)
      ∧ (exec (.paramCrcCheck true) s = .next s)
      ∧ (s.tls.g = gActive → exec (.paramCrcCheck false) s = .next ((s.lockout 4).raiseTls)))

/-- R402 to R404, R409, R416, R50: a safety cycle of an awake hub with REFCLK counts one, starts at a multiple of 250 us not
less than 125 us after the last start, takes every queued telegram, and without REFCLK nothing is done; channel A's word goes
out over FE0's die link in step 4; a good cycle word of channel B, which crosses that link while it is up, waits for step 7, and
the CRC of a reply it agrees with sends that reply; a word that is not good has no other effect than on the link (R35, R37). A
word that misses its cycle puts every enabled axis into FAULT with source 226; one of another cycle or GSTATE, or commands that
differ in two cycles in a row, cause LOCKOUT with source 225; switches that do not match the active set discard it with source
240; a readback that disagrees for two cycles causes LOCKOUT with 230 or 231. R414, R416, R420: LOCKOUT de-energises every
output of every axis in both channels, and it is entered once, with its cause and source 224. When a reply leaves, what each
channel has of its own, and which rows act inside the cycle are the model's reading (logs 52, 53, 119 and 120). -/
def Obligations.SafetyCycleRows : Prop :=
  (∀ s : State, s.awake = true →
      (∀ o, s.spn.refclk = true → ∃ t, exec (.safetyCycle o) s = .next t ∧ t.tls.cyc = (s.tls.cyc + 1) % 2 ^ 32
          ∧ t.tls.startLt = s.cycleAt ∧ s.cycleAt % cycLen = 0 ∧ s.lt ≤ s.cycleAt
          ∧ (s.tls.startTick.isSome = true → s.tls.startLt ≤ s.lt → s.tls.startLt + 125000 * nsU ≤ s.cycleAt)
          ∧ t.tls.queue = [] ∧ t.tls.answers = [] ∧ t.tls.tlgEdge = false ∧ t.tls.evs = [])
      ∧ (∀ o, s.spn.refclk = false → s.tls.answers = [] → exec (.safetyCycle o) s = .next s)
      ∧ (∀ o u w, s.spn.refclk = true → u = s.cycleSample o → w = u.cycleWord false o → exec (.safetyCycle o) s
          = .next (((u.dieSend 0 0x30 w).cycleDecide (if u.dieUp 0 then some w else none)).drainAnswers)
            ∧ u.tls.cyc = (s.tls.cyc + 1) % 2 ^ 32)
      ∧ (∀ (w : BitVec 64) (crc : Fin 256), s.dieUp 0 = false → exec (.crossChannelWord ⟨w, crc⟩) s = .next s)
      ∧ (∀ (w : BitVec 64) (crc : Fin 256), s.dieUp 0 = true → s.dieGood 0 0x30 w.toNat crc.val = false →
          exec (.crossChannelWord ⟨w, crc⟩) s = .next (s.dieBad 0 0x30 w.toNat crc.val))
      ∧ (∀ (w : BitVec 64) (crc : Fin 256), s.dieUp 0 = true → s.dieGood 0 0x30 w.toNat crc.val = true →
          (bitsOf w.toNat 63 62 = 0 → ∃ t, exec (.crossChannelWord ⟨w, crc⟩) s = .next t ∧ t.tls.word = some w.toNat
            ∧ t.regs = s.regs ∧ t.tls.axes = s.tls.axes)
          ∧ (∀ r rest, bitsOf w.toNat 63 62 = 1 → bitsOf w.toNat 61 60 = 2 → s.tls.replies = r :: rest → r.2.length ≠ 4 →
            bitsOf w.toNat 47 16 = crc32c r.2 → ∃ u : State, exec (.crossChannelWord ⟨w, crc⟩) s = .next (u.finish r.1 0 r.2)
            ∧ u.tls.replies = rest)
          ∧ (∀ r rest, bitsOf w.toNat 63 62 = 1 → bitsOf w.toNat 61 60 = 2 → s.tls.replies = r :: rest → r.2.length ≠ 4 →
            bitsOf w.toNat 47 16 ≠ crc32c r.2 → ∃ u : State, exec (.crossChannelWord ⟨w, crc⟩) s = .next (u.raiseHub 225)
            ∧ u.tls.replies = rest ∧ u.hs.flight = s.hs.flight.erase r.1.key))
      ∧ (s.tls.axes.length = 4 → ∀ c g, ∃ t, s.compareWord c g none = t ∧ (226, instHub) ∈ t.tls.evs ∧ (t.sch c).missing = true
          ∧ ∀ x < 4, s.axEnabled x = true → ∀ d, (t.drive d x).st = axFault ∧ (t.drive d x).sto = false ∧ (t.drive d x).sbc = false)
      ∧ (∀ c g w differ, differ = decide (¬ (bitsOf w 39 36 = (s.sch c).sto ∧ bitsOf w 35 32 = (s.sch c).sbc ∧ bitsOf w 31 28 = (s.sch c).ss1)) →
          ∃ u : State, (u.sch c).cmdDiff = differ ∧ (u.sch c).missing = false ∧ u.tls.axes = s.tls.axes ∧ u.tls.g = s.tls.g ∧ u.regs = s.regs
          ∧ (bitsOf w 61 56 ≠ s.tls.cyc % 64 ∨ bitsOf w 27 26 ≠ g ∨ differ = true ∧ (s.sch c).cmdDiff = true → s.tls.g ≠ gLockout →
            s.compareWord c g (some w) = (u.lockout 1).say 225 instHub)
          ∧ (bitsOf w 61 56 = s.tls.cyc % 64 → bitsOf w 27 26 = g → differ = false ∨ (s.sch c).cmdDiff = false →
            s.compareWord c g (some w) = u))
      ∧ (∀ o u, u = s.setTls { s.tls with seals := [o.sealA.val, o.sealB.val, o.sadrA.val, o.sadrB.val] } → s.tls.g = gActive →
          (o.sealA.val = s.tls.setCrc % 65536 ∧ o.sealB.val = s.tls.setCrc % 65536 ∧ o.sadrA.val = s.par 4 1 ∧ o.sadrB.val = s.par 4 1 →
            s.checkSeal o = u)
          ∧ (¬ (o.sealA.val = s.tls.setCrc % 65536 ∧ o.sealB.val = s.tls.setCrc % 65536 ∧ o.sadrA.val = s.par 4 1 ∧ o.sadrB.val = s.par 4 1) →
            s.checkSeal o = u.toNoparam.say 240 instHub))
      ∧ (∀ x, (∃ c, (s.drive c x).stoBad = 2) → (∀ c, (s.drive c x).sbcBad ≠ 2) →
          s.readbackBad x = (s.lockout 2).say 230 x))
  ∧ (∀ (s : State) (cause : Nat), s.tls.axes.length = 4 →
      (s.tls.g = gLockout → s.lockout cause = s)
      ∧ (s.tls.g ≠ gLockout → (s.lockout cause).tls.g = gLockout ∧ (s.lockout cause).tls.next = none
          ∧ (s.lockout cause).tls.lcause = cause ∧ (s.lockout cause).tls.evs = s.tls.evs ++ [(224, instHub)]
          ∧ ∀ x < 4, ∀ c, ((s.lockout cause).drive c x).sto = false ∧ ((s.lockout cause).drive c x).sbc = false)
      ∧ (∀ x < 4, (s.tls.g ≠ gActive → s.axEnabled x = false)))

/-- R17: what a write does to a field of a word by the field's access: RW and RWL take the written bits, a W1C field loses the
bits written 1, every other field keeps its bits; and no field changes a bit outside itself. R17: a read clears the RC fields of
its register and no other bit. R4, R390: memory windows are bytes: what is written at consecutive addresses is read back, and
every other byte keeps its value. -/
def Obligations.FieldsAndBytes : Prop :=
  (∀ (f : Fld) (v old : Nat), f.lo ≤ f.hi → f.hi < 32 → old < 2 ^ 32 →
      (f.acc = .rw ∨ f.acc = .rwl → bitsOf (fieldWrite v old f) f.hi f.lo = bitsOf v f.hi f.lo)
      ∧ (f.acc = .w1c → ∀ i, f.lo ≤ i → i ≤ f.hi → (fieldWrite v old f).testBit i = (old.testBit i && !v.testBit i))
      ∧ (f.acc ≠ .rw → f.acc ≠ .rwl → f.acc ≠ .w1c → fieldWrite v old f = old)
      ∧ (∀ i, i < f.lo ∨ f.hi < i → (fieldWrite v old f).testBit i = old.testBit i))
  ∧ (∀ (flds : List Fld) (v : Nat), (∀ f ∈ flds, f.lo ≤ f.hi ∧ f.hi < 32) → ∀ i,
      (clearRc flds v).testBit i = (v.testBit i && !flds.any (fun f => decide (f.acc = .rc ∧ f.lo ≤ i ∧ i ≤ f.hi))))
  ∧ (∀ (s : State) (a : Nat) (bs : List Byte),
      (s.setBytes a bs).bytes a bs.length = bs
      ∧ (∀ b, b < a ∨ a + bs.length ≤ b → (s.setBytes a bs).byte b = s.byte b)
      ∧ (memWf s.mem = true → memWf (s.setBytes a bs).mem = true) ∧ (s.setBytes a bs).regs = s.regs)

/-- R5, R7, R8: an LT is its seconds, nanoseconds and fraction; a tick of 1 ns carries into the seconds in the same step; on the
wire it is 14 bytes in the order seconds, nanoseconds, fraction, most significant byte first, and reads back as the LT; a
nanosecond field above 999,999,999 names none. The difference of two short times is that of their instants while their seconds
are less than 2^17 apart. -/
def Obligations.TimesOnTheWire : Prop :=
  (∀ t, t < secU * 2 ^ 64 → (ltBytes t).length = 14 ∧ ltAt (ltBytes t) 0 = some t)
  ∧ (∀ bs o, 999999999 < natAt bs (o + 8) 4 → ltAt bs o = none)
  ∧ (∀ t, t = mkLt (ltSec t) (ltNs t) (ltFrac t) ∧ ltNs t < 1000000000 ∧ ltFrac t < 65536)
  ∧ (∀ t, ltFrac (t + nsU) = ltFrac t ∧ ltNs (t + nsU) = (if ltNs t = 999999999 then 0 else ltNs t + 1)
      ∧ ltSec (t + nsU) = (if ltNs t = 999999999 then ltSec t + 1 else ltSec t))
  ∧ (∀ sa na sb nb : Nat, na < 1000000000 → nb < 1000000000 → sa < sb + 2 ^ 17 → sb < sa + 2 ^ 17 →
      stDiff (stOf (mkLt sa na 0)) (stOf (mkLt sb nb 0)) = ((sa : Int) - sb) * 1000000000 + ((na : Int) - nb))

/-- R13, R14, R105, R179: the numbers of the machine. A saturated Wide value stays within its limits and never is the pattern
that says INVALID, and a value within them is kept; a Compact word holds the quality byte below the rounded and saturated 24-bit
value, or 0x80_0000 for INVALID; rounding is to the nearest integer and symmetric. -/
def Obligations.Numbers : Prop :=
  (∀ v, -2147483647 ≤ satWide v ∧ satWide v ≤ 2147483647 ∧ satWide v ≠ wideInvalid)
  ∧ (∀ v, -2147483647 ≤ v → v ≤ 2147483647 → satWide v = v)
  ∧ (∀ (a : Int) (b : Nat), 0 < b → 2 * (divAway a b * b - a).natAbs ≤ b ∧ divAway (-a) b = -divAway a b)
  ∧ (∀ v q, -2147483647 ≤ v → v ≤ 2147483647 → q < 256 → compactWord v q < 2 ^ 32 ∧ compactWord v q % 256 = q
      ∧ (isInvalid q = true → compactWord v q / 256 = 0x800000)
      ∧ (isInvalid q = false → signed 24 (compactWord v q / 256) = max (-0x7FFFFF) (min 0x7FFFFF ((v + 0x80) / 2 ^ 8))))

/-- R4, R225, R244, R245, R255, R291, R388: the bytes of the memory windows that each operation on them writes, and that it
keeps every other byte but those of the fault log. Here `b` lies in neither the log nor the bytes named. A unit stored for a
context, a unit written anew and a closing packet write the units at the addresses that the FIFO or the spill page gives them; a
row of a capture record its own bytes; a word written to an image window its four bytes, or, as the first one after a stop, the
context's whole image; an uncorrectable error the 32 bytes of its unit; a spill page that is drained the FIFO units it moves to.
-/
def Obligations.MemoryFrames : Prop :=
  ∀ (s : State) (b : Nat), b < logBase ∨ logBase + 8192 ≤ b →
    (∀ (c : Nat) deep bs (t : State), t = s.storeUnit c deep bs →
      b < t.unitAddr c (s.st c).wr ∨ t.unitAddr c (s.st c).wr + 32 ≤ b → t.byte b = s.byte b)
    ∧ (∀ c u bs, b < s.unitAddr c u ∨ s.unitAddr c u + 32 ≤ b → (s.putUnit c u bs).byte b = s.byte b)
    ∧ (∀ (c : Nat) stop gapOnly o (t : State), t = s.closePkt c stop gapOnly → (s.st c).cur = some o →
      b < t.unitAddr c o.first ∨ t.unitAddr c o.first + 32 ≤ b →
      o.payload.length % 32 = 0 ∨ b < t.unitAddr c (s.st c).wr ∨ t.unitAddr c (s.st c).wr + 32 ≤ b → t.byte b = s.byte b)
    ∧ (∀ (c : Fin 512) p rest, s.awake = true → (s.st c.val).spill = p :: rest → ∃ t, exec (.spillDrain c) s = .next t
      ∧ ((∀ i < p.count, b < t.unitAddr c.val (p.first + i) ∨ t.unitAddr c.val (p.first + i) + 32 ≤ b) → t.byte b = s.byte b))
    ∧ (∀ c : Fin 512, s.awake = true → (s.st c.val).spill = [] → exec (.spillDrain c) s = .next s)
    ∧ (∀ c q pos r (a : Nat), a = s.capSlotAddr c q + s.capHead c + pos * s.capRowLen c →
      b < a ∨ a + (rowImage (s.capFmt c) r.vals).length ≤ b → (s.capPutRow c q pos r).byte b = s.byte b)
    ∧ (∀ c o v, (s.gg c).inMem = true → b < imageBase c + o ∨ imageBase c + o + 4 ≤ b → (s.writeImage c o v).byte b = s.byte b)
    ∧ (∀ c o v, (s.gg c).inMem = false → b < imageBase c ∨ imageBase c + max (o + 4) (s.anchorBytes c).length ≤ b →
      (s.writeImage c o v).byte b = s.byte b)
    ∧ (∀ a, b < a / 32 * 32 ∨ a / 32 * 32 + 32 ≤ b → (s.spoil a).byte b = s.byte b)
    ∧ (∀ src inst, (s.raise src inst).byte b = s.byte b)

end
end

