-- ==== Sys2Proof/Laws/Bits.lean ====
section
/-! SUPPORT. The laws of bit fields: a field reads what was put into it, a disjoint field is left alone, and a word of 32 bits
stays one. -/
namespace Sys2Proof.Machine

/-- A number taken apart around a field. -/
theorem putBits_eq (v hi lo x : Nat) :
    putBits v hi lo x
      = 2 ^ lo * (2 ^ (hi - lo + 1) * (v / 2 ^ lo / 2 ^ (hi - lo + 1)) + x % 2 ^ (hi - lo + 1)) + v % 2 ^ lo := by
  unfold putBits bitsOf
  generalize 2 ^ (hi - lo + 1) = W
  generalize 2 ^ lo = L
  have h1 := Nat.div_add_mod v L
  have h2 := Nat.div_add_mod (v / L) W
  have h3 : v = L * (W * (v / L / W)) + v / L % W * L + v % L := by
    calc v = L * (v / L) + v % L := h1.symm
      _ = L * (W * (v / L / W) + v / L % W) + v % L := by rw [h2]
      _ = _ := by rw [Nat.mul_add, Nat.mul_comm L (v / L % W)]
  rw [Nat.mul_add, Nat.mul_comm L (x % W)]
  omega

theorem bitsOf_putBits_self (v hi lo x : Nat) : bitsOf (putBits v hi lo x) hi lo = x % 2 ^ (hi - lo + 1) := by
  rw [putBits_eq]
  unfold bitsOf
  have hL : 0 < 2 ^ lo := Nat.two_pow_pos lo
  rw [Nat.mul_add_div hL, Nat.div_eq_of_lt (Nat.mod_lt _ hL), Nat.add_zero, Nat.mul_add_mod, Nat.mod_mod]

/-- A field above is left alone. -/
theorem bitsOf_putBits_above {hi lo lo2 : Nat} (hl : lo ≤ hi) (h : hi < lo2) (v x hi2 : Nat) :
    bitsOf (putBits v hi lo x) hi2 lo2 = bitsOf v hi2 lo2 := by
  unfold bitsOf
  congr 1
  obtain ⟨k, hk⟩ : ∃ k, lo2 = lo + (hi - lo + 1) + k := ⟨lo2 - (hi + 1), by omega⟩
  rw [putBits_eq, hk]
  generalize hi - lo + 1 = w
  rw [Nat.pow_add, Nat.pow_add, ← Nat.div_div_eq_div_mul, ← Nat.div_div_eq_div_mul, ← Nat.div_div_eq_div_mul,
    ← Nat.div_div_eq_div_mul]
  have hL : 0 < 2 ^ lo := Nat.two_pow_pos lo
  have hW : 0 < 2 ^ w := Nat.two_pow_pos _
  rw [Nat.mul_add_div hL, Nat.div_eq_of_lt (Nat.mod_lt _ hL), Nat.add_zero, Nat.mul_add_div hW,
    Nat.div_eq_of_lt (Nat.mod_lt _ hW), Nat.add_zero]

/-- A field below is left alone. -/
theorem bitsOf_putBits_below {lo hi2 lo2 : Nat} (hl : lo2 ≤ hi2) (h : hi2 < lo) (v x hi : Nat) :
    bitsOf (putBits v hi lo x) hi2 lo2 = bitsOf v hi2 lo2 := by
  unfold bitsOf
  rw [← Nat.mod_mul_right_div_self, ← Nat.mod_mul_right_div_self, ← Nat.pow_add]
  congr 1
  have hk : (2 ^ (lo2 + (hi2 - lo2 + 1))) ∣ 2 ^ lo := Nat.pow_dvd_pow 2 (by omega)
  rw [← Nat.mod_mod_of_dvd _ hk, ← Nat.mod_mod_of_dvd v hk, putBits_eq, Nat.mul_add_mod, Nat.mod_mod]

/-- A word of 32 bits stays one. -/
theorem putBits_lt {v hi lo : Nat} (hv : v < 2 ^ 32) (hl : lo ≤ hi) (h : hi < 32) (x : Nat) : putBits v hi lo x < 2 ^ 32 := by
  rw [putBits_eq]
  obtain ⟨k, hk⟩ : ∃ k, 32 = lo + ((hi - lo + 1) + k) := ⟨32 - (hi + 1), by omega⟩
  generalize hi - lo + 1 = w at hk ⊢
  rw [hk, Nat.pow_add 2 lo, Nat.pow_add 2 w] at hv ⊢
  have hL : 0 < 2 ^ lo := Nat.two_pow_pos lo
  have hW : 0 < 2 ^ w := Nat.two_pow_pos _
  have h1 : v / 2 ^ lo / 2 ^ w < 2 ^ k := by
    rw [Nat.div_lt_iff_lt_mul hW, Nat.div_lt_iff_lt_mul hL, Nat.mul_comm (2 ^ k), Nat.mul_comm _ (2 ^ lo)]
    exact hv
  generalize v / 2 ^ lo / 2 ^ w = a at h1 ⊢
  have h2 : 2 ^ w * a + x % 2 ^ w < 2 ^ w * 2 ^ k := by
    calc 2 ^ w * a + x % 2 ^ w < 2 ^ w * a + 2 ^ w :=
          Nat.add_lt_add_left (Nat.mod_lt _ hW) _
      _ = 2 ^ w * (a + 1) := by rw [Nat.mul_succ]
      _ ≤ _ := Nat.mul_le_mul_left _ h1
  calc 2 ^ lo * (2 ^ w * a + x % 2 ^ w) + v % 2 ^ lo
      < 2 ^ lo * (2 ^ w * a + x % 2 ^ w) + 2 ^ lo := Nat.add_lt_add_left (Nat.mod_lt _ hL) _
    _ = 2 ^ lo * (2 ^ w * a + x % 2 ^ w + 1) := by rw [Nat.mul_succ]
    _ ≤ _ := Nat.mul_le_mul_left _ h2

end Sys2Proof.Machine
end

