-- ==== Sys2Proof/Laws/Tab.lean ====
section
/-! SUPPORT. The laws of sparse tables: a read after a write, and that every operation keeps the canonical form. -/
namespace Sys2Proof.Machine
variable {α : Type}

theorem tabGet_tabIns_self (d : Nat → α) (t : Tab α) (k : Nat) (v : α) : tabGet d (tabIns t k v) k = v := by
  induction t with
  | nil => simp [tabIns, tabGet]
  | cons p t ih =>
    obtain ⟨a, x⟩ := p
    by_cases h : a = k
    · simp [tabIns, tabGet, h]
    · by_cases h' : k < a <;> simp [tabIns, tabGet, h, h', ih]

theorem tabGet_tabIns_ne (d : Nat → α) (t : Tab α) {k j : Nat} (v : α) (n : j ≠ k) :
    tabGet d (tabIns t k v) j = tabGet d t j := by
  induction t with
  | nil => simp [tabIns, tabGet, n.symm]
  | cons p t ih =>
    obtain ⟨a, x⟩ := p
    by_cases h : a = k
    · subst h; simp [tabIns, tabGet, n.symm]
    · by_cases h' : k < a
      · simp [tabIns, tabGet, h, h', n.symm]
      · simp [tabIns, tabGet, h, h', ih]

theorem tabGet_tabDel_self (d : Nat → α) (t : Tab α) (k : Nat) : tabGet d (tabDel t k) k = d k := by
  induction t with
  | nil => rfl
  | cons p t ih =>
    obtain ⟨a, x⟩ := p
    by_cases h : a = k <;> simp [tabDel, tabGet, h, ih]

theorem tabGet_tabDel_ne (d : Nat → α) (t : Tab α) {k j : Nat} (n : j ≠ k) : tabGet d (tabDel t k) j = tabGet d t j := by
  induction t with
  | nil => rfl
  | cons p t ih =>
    obtain ⟨a, x⟩ := p
    by_cases h : a = k
    · subst h; simp [tabDel, tabGet, n.symm, ih]
    · simp [tabDel, tabGet, h, ih]

/-- A read after a write of the same entry. -/
@[simp] theorem tabGet_tabPut_self [DecidableEq α] (d : Nat → α) (t : Tab α) (k : Nat) (v : α) :
    tabGet d (tabPut d t k v) k = v := by
  unfold tabPut
  split
  · rename_i h; rw [tabGet_tabDel_self, h]
  · exact tabGet_tabIns_self d t k v

/-- A write leaves every other entry alone. -/
theorem tabGet_tabPut_ne [DecidableEq α] (d : Nat → α) (t : Tab α) {k j : Nat} (v : α) (n : j ≠ k) :
    tabGet d (tabPut d t k v) j = tabGet d t j := by
  unfold tabPut
  split
  · exact tabGet_tabDel_ne d t n
  · exact tabGet_tabIns_ne d t v n

/-- The form, as a property of pairs. -/
theorem tabRising_iff (t : Tab α) : tabRising t = true ↔ t.Pairwise (fun a b => a.1 < b.1) := by
  induction t with
  | nil => simp [tabRising]
  | cons p t ih =>
    cases t with
    | nil => simp [tabRising]
    | cons q t =>
      rw [tabRising, Bool.and_eq_true, decide_eq_true_iff, ih, List.pairwise_cons (a := p)]
      refine ⟨fun h => ⟨fun r hr => ?_, h.2⟩, fun h => ⟨h.1 q (List.mem_cons_self ..), h.2⟩⟩
      rcases List.mem_cons.1 hr with e | hr
      · exact e ▸ h.1
      · exact Nat.lt_trans h.1 ((List.pairwise_cons.1 h.2).1 r hr)

theorem tabWf_iff [DecidableEq α] (d : Nat → α) (t : Tab α) :
    tabWf d t = true ↔ t.Pairwise (fun a b => a.1 < b.1) ∧ ∀ p ∈ t, p.2 ≠ d p.1 := by
  simp [tabWf, tabRising_iff]

theorem mem_tabIns {t : Tab α} {k : Nat} {v : α} {p : Nat × α} (h : p ∈ tabIns t k v) : p = (k, v) ∨ p ∈ t := by
  induction t with
  | nil => simpa [tabIns] using h
  | cons q t ih =>
    obtain ⟨a, x⟩ := q
    unfold tabIns at h
    split at h
    · rcases List.mem_cons.1 h with h | h
      · exact .inl h
      · exact .inr (List.mem_cons_of_mem _ h)
    · split at h
      · exact (List.mem_cons.1 h)
      · rcases List.mem_cons.1 h with h | h
        · exact .inr (h ▸ List.mem_cons_self ..)
        · exact (ih h).imp id (List.mem_cons_of_mem _)

theorem tabDel_sublist (t : Tab α) (k : Nat) : (tabDel t k).Sublist t := by
  induction t with
  | nil => exact List.Sublist.refl _
  | cons q t ih =>
    obtain ⟨a, x⟩ := q
    unfold tabDel
    split
    · exact ih.cons _
    · exact ih.cons_cons _

theorem tabIns_rising {t : Tab α} {k : Nat} {v : α} (h : t.Pairwise (fun a b => a.1 < b.1)) :
    (tabIns t k v).Pairwise (fun a b => a.1 < b.1) := by
  induction t with
  | nil => simp [tabIns]
  | cons q t ih =>
    obtain ⟨a, x⟩ := q
    have h1 := List.pairwise_cons.1 h
    unfold tabIns
    split
    · rename_i e; subst e; exact List.pairwise_cons.2 h1
    · rename_i e
      split
      · rename_i l
        refine List.pairwise_cons.2 ⟨fun p hp => ?_, h⟩
        rcases List.mem_cons.1 hp with hp | hp
        · exact hp ▸ l
        · exact Nat.lt_trans l (h1.1 p hp)
      · rename_i l
        refine List.pairwise_cons.2 ⟨fun p hp => ?_, ih h1.2⟩
        rcases mem_tabIns hp with hp | hp
        · subst hp; show a < k; omega
        · exact h1.1 p hp

/-- A part of a table in the canonical form is in it. -/
theorem tabWf_sublist [DecidableEq α] {d : Nat → α} {t u : Tab α} (l : u.Sublist t) (h : tabWf d t = true) : tabWf d u = true := by
  rw [tabWf_iff] at h ⊢
  exact ⟨h.1.sublist l, fun p hp => h.2 p (l.subset hp)⟩

/-- A write keeps the canonical form. -/
theorem tabWf_tabPut [DecidableEq α] {d : Nat → α} {t : Tab α} (k : Nat) (v : α) (h : tabWf d t = true) :
    tabWf d (tabPut d t k v) = true := by
  unfold tabPut
  split
  · exact tabWf_sublist (tabDel_sublist t k) h
  · rename_i n
    rw [tabWf_iff] at h ⊢
    refine ⟨tabIns_rising h.1, fun p hp => ?_⟩
    rcases mem_tabIns hp with e | e
    · subst e; exact n
    · exact h.2 p e

/-- The empty table is in the canonical form. -/
theorem tabWf_nil [DecidableEq α] {d : Nat → α} : tabWf d ([] : Tab α) = true := rfl

end Sys2Proof.Machine
end

