-- ==== Sys2Proof/Laws/Keep.lean ====
section
/-! SUPPORT. Properties of a state that operations keep. A property is kept by an operation when it is closed under the
updates the operation is made of; the updates are named here in groups, one for each part of State, and every operation of the
model has one lemma `keep_<name>` that lists the groups it needs. A group that a lemma does not list is a part of State the
operation leaves alone, so the same lemmas give invariants and frames. -/
namespace Sys2Proof.Machine
variable {P : State → Prop}

/-- Closed under writes of registers. -/
structure KeepRegs (P : State → Prop) : Prop where
  setReg : ∀ s a w, P s → P (State.setReg s a w)
/-- Closed under changes of the values in effect on the dies. -/
structure KeepAct (P : State → Prop) : Prop where
  setAct : ∀ s a w, P s → P (State.setAct s a w)
  act : ∀ (s : State) x, (tabWf resetWord s.act = true → tabWf resetWord x = true) → P s → P { s with act := x }
/-- Closed under the model's records of outputs and answers, and its count of free values. -/
structure KeepOut (P : State → Prop) : Prop where
  bus : ∀ (s : State) x, P s → P { s with bus := x }
  out : ∀ (s : State) x, P s → P { s with out := x }
  free : ∀ (s : State) x, P s → P { s with free := x }
/-- Closed under changes of the held and the latched words of register pairs (R9). -/
structure KeepHeld (P : State → Prop) : Prop where
  held : ∀ (s : State) a v, P s → P { s with held := tabPut (fun _ => none) s.held a v }
  latch : ∀ (s : State) x, tabWf (fun _ => (none : Option Word)) x = true → P s → P { s with latch := x }
  latchPut : ∀ (s : State) a v, P s → P { s with latch := tabPut (fun _ => none) s.latch a v }
/-- Closed under updates of the fault collector. -/
structure KeepFlt (P : State → Prop) : Prop where
  flt : ∀ (s : State) x, P s → P { s with flt := x }
  stopReq : ∀ (s : State) x, P s → P { s with stopReq := x }
/-- Closed under writes of the memory windows. -/
structure KeepMem (P : State → Prop) : Prop where
  setByte : ∀ s a b, P s → P (State.setByte s a b)
/-- Closed under writes of the window of the fault log (R390). -/
structure KeepLog (P : State → Prop) : Prop where
  setByte : ∀ s a b, logBase ≤ a → a < logBase + 8192 → P s → P (State.setByte s a b)
/-- Closed under updates of Tailstock that keep its queue within four telegrams (R417). -/
structure KeepTls (P : State → Prop) : Prop where
  tls : ∀ (s : State) x, (s.tls.queue.length ≤ 4 → x.queue.length ≤ 4) → P s → P { s with tls := x }
/-- Closed under updates of the power unit. -/
structure KeepPwr (P : State → Prop) : Prop where
  pwr : ∀ (s : State) x, P s → P { s with pwr := x }
/-- Closed under the passing of time. -/
structure KeepTime (P : State → Prop) : Prop where
  lt : ∀ (s : State) x, P s → P { s with lt := x }
  always : ∀ (s : State) x, s.always ≤ x → P s → P { s with always := x }
/-- Closed under updates of Spindle. -/
structure KeepSpn (P : State → Prop) : Prop where
  spn : ∀ (s : State) x, P s → P { s with spn := x }
/-- Closed under updates of the die links. -/
structure KeepDlk (P : State → Prop) : Prop where
  setDl : ∀ s d x, P s → P (State.setDl s d x)
/-- Closed under updates of the excitation drivers. -/
structure KeepClu (P : State → Prop) : Prop where
  setCl : ∀ s d x, P s → P (State.setCl s d x)
/-- Closed under updates of the converters. -/
structure KeepConv (P : State → Prop) : Prop where
  setCv : ∀ s d x, P s → P (State.setCv s d x)
/-- Closed under updates of the regions. -/
structure KeepRgn (P : State → Prop) : Prop where
  setRg : ∀ s d x, P s → P (State.setRg s d x)
/-- Closed under updates of the channels. -/
structure KeepChan (P : State → Prop) : Prop where
  setCh : ∀ s d x, P s → P (State.setCh s d x)
/-- Closed under updates of the mains estimator. -/
structure KeepMains (P : State → Prop) : Prop where
  mains : ∀ (s : State) x, P s → P { s with mains := x }
/-- Closed under updates of the stream contexts. -/
structure KeepStr (P : State → Prop) : Prop where
  setStr : ∀ s d x, P s → P (State.setStr s d x)
/-- Closed under updates of the capture buffers. -/
structure KeepCap (P : State → Prop) : Prop where
  setCp : ∀ s d x, P s → P (State.setCp s d x)
/-- Closed under updates of Gouge. -/
structure KeepGge (P : State → Prop) : Prop where
  gge : ∀ (s : State) x, P s → P { s with gge := x }
/-- Closed under updates of the gap store and of the triggers seen. -/
structure KeepGaps (P : State → Prop) : Prop where
  gapStore : ∀ (s : State) x, P s → P { s with gapStore := x }
  seenTrig : ∀ (s : State) x, P s → P { s with seenTrig := x }
/-- Closed under updates of the Chainpo links. -/
structure KeepLnk (P : State → Prop) : Prop where
  setLk : ∀ s d x, P s → P (State.setLk s d x)
/-- Closed under updates of the lanes. -/
structure KeepLane (P : State → Prop) : Prop where
  setLn : ∀ s d x, P s → P (State.setLn s d x)
/-- Closed under updates of the list of the hubs of the segment. -/
structure KeepSeg (P : State → Prop) : Prop where
  seg : ∀ (s : State) x, P s → P { s with seg := x }
/-- Closed under updates of ring and exit. -/
structure KeepRing (P : State → Prop) : Prop where
  ring : ∀ (s : State) x, P s → P { s with ring := x }
/-- The bounds of Headstock's tables (R358, R359, R378). -/
def HsState.Bounded (x : HsState) : Prop := x.spiq.length ≤ 8 ∧ x.sources.length ≤ 16 ∧ x.fwd.length ≤ 128
/-- Closed under updates of Headstock that keep its bounds. -/
structure KeepHs (P : State → Prop) : Prop where
  hs : ∀ (s : State) x, (s.hs.Bounded → x.Bounded) → P s → P { s with hs := x }
/-- Closed under updates of the snapshot unit that keep at most four scheduled (R42). -/
structure KeepSnap (P : State → Prop) : Prop where
  snap : ∀ (s : State) x, (s.snap.sched.length ≤ 4 → x.sched.length ≤ 4) → P s → P { s with snap := x }
/-- Closed under a full reset (R442). -/
structure KeepReset (P : State → Prop) : Prop where
  fullReset : ∀ s c h, P s → P (State.fullReset s c h)

theorem KeepTls.setTls (K : KeepTls P) (s : State) (x : TlsState) (hq : s.tls.queue.length ≤ 4 → x.queue.length ≤ 4) (h : P s) :
    P (State.setTls s x) := K.tls s x hq h

/-- The stop request of the fault collector is taken by Tailstock (R391). -/
theorem keep_collect (KF : KeepFlt P) (KT : KeepTls P) {s : State} {b : Bool} {n : Nat} (h : P s) :
    P { s with stopReq := false, tls := { s.tls with collector := b, collectorCyc := n } } :=
  KF.stopReq { s with tls := { s.tls with collector := b, collectorCyc := n } } false (KT.tls s _ (fun hq => hq) h)

/-- The parts that a relock sets together (R66). -/
theorem keep_relock (KL : KeepTime P) (KS : KeepSpn P) (Km : KeepMains P) (KQ : KeepSnap P) {s : State} {t a : Nat} {x : SpnState}
    {y : SnapState} {z : MainsState} (ha : s.always ≤ a) (hq : s.snap.sched.length ≤ 4 → y.sched.length ≤ 4) (h : P s) :
    P { s with lt := t, always := a, spn := x, snap := y, mains := z } :=
  Km.mains { s with lt := t, always := a, spn := x, snap := y } z (KQ.snap { s with lt := t, always := a, spn := x } y hq
    (KS.spn { s with lt := t, always := a } x (KL.always { s with lt := t } a ha (KL.lt s t h))))

/-- Every step of a loop keeps what each of its passes keeps. -/
theorem keep_forEach {α : Type} {s : State} {l : List α} {f : State → α → State} (h : P s)
    (hf : ∀ s x, P s → P (f s x)) : P (s.forEach l f) := by
  unfold State.forEach
  induction l generalizing s with
  | nil => exact h
  | cons x t ih => exact ih (hf s x h)
/-- The same of a fold. -/
theorem keep_foldl {α : Type} {s : State} {l : List α} {f : State → α → State} (h : P s)
    (hf : ∀ s x, P s → P (f s x)) : P (l.foldl f s) := keep_forEach h hf
/-- The state half of a result that is taken apart. -/
theorem keep_fst {α : Type} {x : State × α} {a : State} {b : α} (e : x = (a, b)) (h : P x.1) : P a := by
  subst e; exact h
/-- Either branch keeps it. -/
theorem ite_keep {c : Prop} [Decidable c] {a b : State} (ha : c → P a) (hb : ¬c → P b) : P (if c then a else b) := by
  split
  · exact ha (by assumption)
  · exact hb (by assumption)
/-- What a meaning of `act!` leaves. -/
theorem keep_act {s t u : State} (h : P s) (ht : P t) (e : s.act! t = .next u) : P u := by
  unfold State.act! at e
  injection e with e
  subst e
  split
  · exact ht
  · exact h
/-- What an outcome that is a next state leaves. -/
theorem keep_next {s t : State} (h : P s) (e : (Host.Outcome.next s : Res) = .next t) : P t := by
  injection e with e
  exact e ▸ h

end Sys2Proof.Machine
end

