-- ==== Sys2Proof/Laws/KeepOps.lean ====
section
/-! SUPPORT. What the operations of Machine/Ops.lean keep (see Laws/Keep.lean). -/
namespace Sys2Proof.Machine
variable {P : State → Prop}

theorem keep_setFld (KR : KeepRegs P) {s : State} {a : Nat} {f : Fld} {v : Nat}
    (hP : P s)  : P (State.setFld s a f v) := by
  unfold State.setFld
  repeat' first
    | with_reducible assumption
    | with_reducible refine KR.setReg _ _ _ ?_

theorem keep_setFlag (KR : KeepRegs P) {s : State} {a : Nat} {f : Fld} {b : Bool}
    (hP : P s)  : P (State.setFlag s a f b) := by
  unfold State.setFlag
  repeat' first
    | with_reducible assumption
    | with_reducible refine keep_setFld KR ?_

theorem keep_bumpBy (KR : KeepRegs P) {s : State} {a : Nat} {f : Fld} {n : Nat}
    (hP : P s)  : P (State.bumpBy s a f n) := by
  unfold State.bumpBy
  repeat' first
    | with_reducible assumption
    | with_reducible refine keep_setFld KR ?_

theorem keep_bump (KR : KeepRegs P) {s : State} {a : Nat} {f : Fld}
    (hP : P s)  : P (State.bump s a f) := by
  unfold State.bump
  repeat' first
    | with_reducible assumption
    | with_reducible refine keep_bumpBy KR ?_

theorem keep_setActFld (Ka : KeepAct P) {s : State} {a : Nat} {f : Fld} {v : Nat}
    (hP : P s)  : P (State.setActFld s a f v) := by
  unfold State.setActFld
  repeat' first
    | with_reducible assumption
    | with_reducible refine Ka.setAct _ _ _ ?_

theorem keep_noteIgnored (KR : KeepRegs P) {s : State} {a : Nat}
    (hP : P s)  : P (State.noteIgnored s a) := by
  unfold State.noteIgnored
  repeat' first
    | with_reducible assumption
    | with_reducible refine keep_setFlag KR ?_
    | with_reducible refine keep_bump KR ?_
    | with_reducible refine KR.setReg _ _ _ ?_

theorem keep_noteLocked (KR : KeepRegs P) {s : State} {a : Nat}
    (hP : P s)  : P (State.noteLocked s a) := by
  unfold State.noteLocked
  repeat' first
    | with_reducible assumption
    | with_reducible refine keep_setFlag KR ?_
    | with_reducible refine keep_bump KR ?_
    | with_reducible refine KR.setReg _ _ _ ?_

theorem keep_writeFlds (KR : KeepRegs P) {s : State} {a : Nat} {flds : List Fld} {v : Word}
    (hP : P s)  : P (State.writeFlds s a flds v) := by
  unfold State.writeFlds
  extract_lets x0 x1
  try clear_value x0
  have k1 : P x1 := by
    unfold x1
    repeat' first
      | with_reducible assumption
      | with_reducible refine KR.setReg _ _ _ ?_
  try clear_value x1
  repeat' first
    | with_reducible assumption
    | with_reducible refine keep_noteIgnored KR ?_
    | split

theorem keep_setSt (KR : KeepRegs P) {s : State} {lo : Nat} {hi : Nat} {st : Nat}
    (hP : P s)  : P (State.setSt s lo hi st) := by
  unfold State.setSt
  repeat' first
    | with_reducible assumption
    | with_reducible refine KR.setReg _ _ _ ?_

theorem keep_setPair (KR : KeepRegs P) {s : State} {lo : Nat} {hi : Nat} {v : Nat}
    (hP : P s)  : P (State.setPair s lo hi v) := by
  unfold State.setPair
  repeat' first
    | with_reducible assumption
    | with_reducible refine KR.setReg _ _ _ ?_

theorem keep_setBytes (KM : KeepMem P) {s : State} {a : Nat} {l : List Byte} (h : P s) : P (s.setBytes a l) := by
  induction l generalizing s a with
  | nil => exact h
  | cons b t ih => exact ih (KM.setByte _ _ _ h)


theorem keep_emit (Ko : KeepOut P) {s : State} {o : Out}
    (hP : P s)  : P (State.emit s o) := by
  unfold State.emit
  repeat' first
    | with_reducible assumption
    | with_reducible refine Ko.out _ _ ?_

theorem keep_fresh (Ko : KeepOut P) {s : State}
    (hP : P s)  : P (State.fresh s).2 := by
  unfold State.fresh
  repeat' first
    | with_reducible assumption
    | dsimp only
    | with_reducible refine Ko.free _ _ ?_

theorem keep_pass (KL : KeepTime P) {s : State} {u : Nat}
    (hP : P s)  : P (State.pass s u) := by
  have h1 := KL.always s (if s.pwr.xt32 then s.always else s.always + u) (by split <;> omega) hP
  exact KL.lt _ (if s.spn.refclk && s.awake then s.lt + u else s.lt) h1


theorem keep_moveTo (KL : KeepTime P) {s : State} {t : Nat}
    (hP : P s)  : P (State.moveTo s t) := by
  unfold State.moveTo
  repeat' first
    | with_reducible assumption
    | with_reducible refine keep_pass KL ?_
    | split

theorem keep_answer (Ko : KeepOut P) {s : State} {v : Nat} {st : Nat}
    (hP : P s)  : P (State.answer s v st) := by
  unfold State.answer
  repeat' first
    | with_reducible assumption
    | with_reducible refine Ko.bus _ _ ?_

theorem keep_setTrk (KS : KeepSpn P) {s : State} {t : Nat} {x : Tracker}
    (hP : P s)  : P (State.setTrk s t x) := by
  unfold State.setTrk
  extract_lets x0
  try clear_value x0
  repeat' first
    | with_reducible assumption
    | with_reducible refine KS.spn _ _ ?_

theorem keep_setPt (Ki : KeepRing P) {s : State} {p : Nat} {x : PortState}
    (hP : P s)  : P (State.setPt s p x) := by
  unfold State.setPt
  extract_lets x0
  try clear_value x0
  repeat' first
    | with_reducible assumption
    | with_reducible refine Ki.ring _ _ ?_

theorem keep_setRgState (KR : KeepRegs P) {s : State} {g : Nat} {v : Nat}
    (hP : P s)  : P (State.setRgState s g v) := by
  unfold State.setRgState
  repeat' first
    | with_reducible assumption
    | with_reducible refine keep_setFld KR ?_

theorem keep_shiftTimers (KF : KeepFlt P) (KT : KeepTls P) (KW : KeepPwr P) (KS : KeepSpn P) (Kr : KeepRgn P) (Kh : KeepChan P) (Km : KeepMains P) (Kb : KeepStr P) (Kp : KeepCap P) (Kl : KeepLnk P) (Kn : KeepLane P) (Ki : KeepRing P) (KH : KeepHs P) {s : State} {d : Int}
    (hP : P s)  : P (State.shiftTimers s d) := by
  unfold State.shiftTimers
  extract_lets x0 x1 s1 y1 s2 s3 s4 s5 s6 s7 s8 s9 s10
  have k : ∀ a b c d, P { s with spn := a, pwr := b, mains := c, flt := d } := fun a b c d =>
    KF.flt { s with spn := a, pwr := b, mains := c } d (Km.mains { s with spn := a, pwr := b } c (KW.pwr { s with spn := a } b (KS.spn s a hP)))
  have k1 : P s1 := k _ _ _ _
  have k2 : P s2 := KT.tls _ _ (fun hq => hq) k1
  have k3 : P s3 := KH.hs _ _ (fun hq => by simpa [HsState.Bounded, HsState.shift] using hq) k2
  have k4 : P s4 := Ki.ring _ _ k3
  have k5 : P s5 := keep_forEach k4 (fun s p h => keep_setPt Ki h)
  have k6 : P s6 := keep_forEach k5 (fun s p h => Kl.setLk _ _ _ h)
  have k7 : P s7 := keep_forEach k6 (fun s p h => Kn.setLn _ _ _ h)
  have k8 : P s8 := keep_forEach k7 (fun s p h => Kr.setRg _ _ _ h)
  have k9 : P s9 := keep_forEach k8 (fun s p h => Kh.setCh _ _ _ h)
  have k10 : P s10 := keep_forEach k9 (fun s p h => Kb.setStr _ _ _ h)
  exact keep_forEach k10 (fun s p h => Kp.setCp _ _ _ h)


end Sys2Proof.Machine
end

