-- ==== Sys2Proof/Laws/KeepFaults.lean ====
section
/-! SUPPORT. What the operations of Machine/Faults.lean keep (see Laws/Keep.lean). -/
namespace Sys2Proof.Machine
variable {P : State → Prop}

theorem keep_setSrcBit (KR : KeepRegs P) {s : State} {vec : Nat → Nat} {src : Nat} {b : Bool}
    (hP : P s)  : P (State.setSrcBit s vec src b) := by
  unfold State.setSrcBit
  repeat' first
    | with_reducible assumption
    | with_reducible refine KR.setReg _ _ _ ?_

theorem keep_setListBit (KR : KeepRegs P) {s : State} {src : Nat} {inst : Nat} {b : Bool}
    (hP : P s)  : P (State.setListBit s src inst b) := by
  unfold State.setListBit
  repeat' first
    | with_reducible assumption
    | with_reducible refine KR.setReg _ _ _ ?_
    | split

theorem keep_clearList (KR : KeepRegs P) {s : State} {src : Nat}
    (hP : P s)  : P (State.clearList s src) := by
  unfold State.clearList
  repeat' first
    | with_reducible assumption
    | with_reducible refine KR.setReg _ _ _ ?_
    | (with_reducible refine keep_forEach ?_ ?_)
    | (intro s x hx)

theorem keep_updRaw (KR : KeepRegs P) {s : State} {src : Nat}
    (hP : P s)  : P (State.updRaw s src) := by
  unfold State.updRaw
  repeat' first
    | with_reducible assumption
    | with_reducible refine keep_setSrcBit KR ?_

theorem keep_updAlive (KR : KeepRegs P) {s : State}
    (hP : P s)  : P (State.updAlive s) := by
  unfold State.updAlive
  extract_lets x0 x1
  try clear_value x0
  try clear_value x1
  repeat' first
    | with_reducible assumption
    | with_reducible refine keep_setFlag KR ?_

theorem keep_updStq (KR : KeepRegs P) {s : State}
    (hP : P s)  : P (State.updStq s) := by
  unfold State.updStq
  extract_lets x0 x1
  have k0 : P x0 := by
    unfold x0
    repeat' first
      | with_reducible assumption
      | with_reducible refine keep_setFld KR ?_
  try clear_value x0
  have k1 : P x1 := by
    unfold x1
    repeat' first
      | with_reducible assumption
      | with_reducible refine keep_setFlag KR ?_
  try clear_value x1
  repeat' first
    | with_reducible assumption
    | with_reducible refine keep_setFld KR ?_

theorem keep_nextTest (KR : KeepRegs P) (KF : KeepFlt P) {s : State}
    (hP : P s)  : P (State.nextTest s) := by
  unfold State.nextTest
  extract_lets x0 x1 x2 x3
  try clear_value x0
  have k1 : P x1 := by
    unfold x1
    repeat' first
      | with_reducible assumption
      | split
      | with_reducible refine KF.flt _ _ ?_
  try clear_value x1
  try clear_value x2
  have k3 : P x3 := by
    unfold x3
    repeat' first
      | with_reducible assumption
      | split
      | with_reducible refine KF.flt _ _ ?_
  try clear_value x3
  repeat' first
    | with_reducible assumption
    | with_reducible refine keep_updStq KR ?_

theorem keep_awaitTest (KF : KeepFlt P) {s : State} {t : TestTarget}
    (hP : P s)  : P (State.awaitTest s t) := by
  unfold State.awaitTest
  extract_lets x0 x1
  try clear_value x0
  try clear_value x1
  repeat' first
    | with_reducible assumption
    | with_reducible refine KF.flt _ _ ?_

theorem keep_placeTest (KR : KeepRegs P) (KF : KeepFlt P) {s : State} {q : SelfTest}
    (hP : P s)  : P (State.placeTest s q) := by
  unfold State.placeTest
  extract_lets x0
  try clear_value x0
  repeat' first
    | with_reducible assumption
    | with_reducible refine keep_nextTest KR KF ?_
    | with_reducible refine keep_updStq KR ?_
    | split
    | with_reducible refine KF.flt _ _ ?_

theorem keep_callTest (KR : KeepRegs P) (KF : KeepFlt P) {s : State} {src : Nat} {t : TestTarget} {inst : Nat}
    (hP : P s)  : P (State.callTest s src t inst) := by
  unfold State.callTest
  repeat' first
    | with_reducible assumption
    | with_reducible refine keep_awaitTest KF ?_
    | with_reducible refine keep_placeTest KR KF ?_
    | split

theorem keep_aliveLow (Ko : KeepOut P) (KF : KeepFlt P) {s : State}
    (hP : P s)  : P (State.aliveLow s) := by
  unfold State.aliveLow
  extract_lets x0
  try clear_value x0
  repeat' first
    | with_reducible assumption
    | with_reducible refine keep_emit Ko ?_
    | split
    | with_reducible refine KF.flt _ _ ?_

theorem length_beBytes (n v : Nat) : (beBytes n v).length = n := by
  induction n with
  | zero => rfl
  | succ n ih => simp [beBytes, ih]

/-- An entry of the fault log is 32 bytes (Table 14.7). -/
theorem length_logEntry (s : State) (src inst detail lflags cls : Nat) : (s.logEntry src inst detail lflags cls).length = 32 := by
  simp [State.logEntry, ltBytes, length_beBytes]

theorem keep_logBytes (Kg : KeepLog P) {s : State} {a : Nat} {l : List Byte} (h0 : logBase ≤ a) (hl : a + l.length ≤ logBase + 8192)
    (h : P s) : P (s.setBytes a l) := by
  induction l generalizing s a with
  | nil => exact h
  | cons b t ih =>
    simp only [List.length_cons] at hl
    exact ih (by omega) (by omega) (Kg.setByte _ _ _ h0 (by omega) h)

theorem keep_writeLog (KR : KeepRegs P) (KF : KeepFlt P) (Kg : KeepLog P) {s : State} {bytes : List Byte} (hl : bytes.length ≤ 32) (hP : P s) : P (s.writeLog bytes) := by
  unfold State.writeLog
  extract_lets x0 x1 x2 x3 x4
  have hw : x0 < 256 := Nat.mod_lt _ (by decide)
  clear_value x0
  have k2 : P x2 := by
    unfold x2
    split
    · exact keep_bump KR (keep_setFld KR hP)
    · exact hP
  clear_value x2
  have k3 : P x3 := keep_logBytes Kg (by omega) (by omega) k2
  clear_value x3
  exact KF.flt _ _ (keep_setFld KR k3)


theorem keep_record (KR : KeepRegs P) (KF : KeepFlt P) (Kg : KeepLog P) {s : State} {src : Nat} {inst : Nat} {detail : Nat} {real : Bool} {queued : Bool}
    (hP : P s)  : P (State.record s src inst detail real queued) := by
  unfold State.record
  extract_lets x0 x1 x2 x3 x4 x5 x6
  try clear_value x0
  try clear_value x1
  try clear_value x2
  have k3 : P x3 := by
    unfold x3
    repeat' first
      | with_reducible assumption
      | with_reducible refine keep_setSrcBit KR ?_
  try clear_value x3
  have k4 : P x4 := by
    unfold x4
    repeat' first
      | with_reducible assumption
      | with_reducible refine keep_setListBit KR ?_
      | split
  try clear_value x4
  try clear_value x5
  have k6 : P x6 := by
    unfold x6
    repeat' first
      | with_reducible assumption
      | with_reducible refine KR.setReg _ _ _ ?_
      | with_reducible refine keep_setSt KR ?_
      | with_reducible refine keep_setFlag KR ?_
      | with_reducible refine keep_bump KR ?_
      | split
  try clear_value x6
  repeat' first
    | with_reducible assumption
    | with_reducible refine keep_bump KR ?_
    | with_reducible refine keep_writeLog KR KF Kg (Nat.le_of_eq (length_logEntry ..)) ?_
    | split

theorem keep_stopRequest (KF : KeepFlt P) {s : State} {src : Nat}
    (hP : P s)  : P (State.stopRequest s src) := by
  unfold State.stopRequest
  repeat' first
    | with_reducible assumption
    | split
    | with_reducible refine KF.stopReq _ _ ?_

theorem keep_markHigh (KF : KeepFlt P) {s : State} {src : Nat}
    (hP : P s)  : P (State.markHigh s src) := by
  unfold State.markHigh
  extract_lets x0
  try clear_value x0
  repeat' first
    | with_reducible assumption
    | with_reducible refine KF.flt _ _ ?_

theorem keep_raisePlain (KR : KeepRegs P) (KF : KeepFlt P) (Kg : KeepLog P) {s : State} {src : Nat} {inst : Nat} {detail : Nat}
    (hP : P s)  : P (State.raisePlain s src inst detail) := by
  unfold State.raisePlain
  repeat' first
    | with_reducible assumption
    | with_reducible refine keep_record KR KF Kg ?_
    | with_reducible refine keep_stopRequest KF ?_
    | with_reducible refine keep_updAlive KR ?_
    | with_reducible refine keep_markHigh KF ?_

theorem keep_endTest (KR : KeepRegs P) (KF : KeepFlt P) (Kg : KeepLog P) {s : State} {v : Nat}
    (hP : P s)  : P (State.endTest s v) := by
  unfold State.endTest
  extract_lets x0
  try clear_value x0
  repeat' first
    | with_reducible assumption
    | with_reducible refine KR.setReg _ _ _ ?_
    | with_reducible refine keep_raisePlain KR KF Kg ?_
    | with_reducible refine keep_updAlive KR ?_
    | with_reducible refine keep_nextTest KR KF ?_
    | split
    | with_reducible refine KF.flt _ _ ?_

theorem keep_queueTests (KR : KeepRegs P) (KF : KeepFlt P) {s : State} {src inst : Nat} {called : Bool} {l : List TestTarget} (h : P s) :
    P (s.queueTests src inst called l).1 := by
  induction l generalizing s with
  | nil => exact h
  | cons t ts ih =>
    unfold State.queueTests
    dsimp only
    apply ih
    split
    · exact h
    · split
      · exact keep_placeTest KR KF h
      · exact keep_bump KR h


theorem keep_raiseAt (KR : KeepRegs P) (KF : KeepFlt P) (Kg : KeepLog P) {s : State} {src : Nat} {inst : Nat} {detail : Nat} {addr : Option Nat} {real : Bool} {forced : Bool}
    (hP : P s)  : P (State.raiseAt s src inst detail addr real forced) := by
  unfold State.raiseAt
  extract_lets x0 x1
  try clear_value x0
  try clear_value x1
  repeat' first
    | with_reducible assumption
    | with_reducible refine keep_queueTests KR KF ?_
    | with_reducible refine keep_record KR KF Kg ?_
    | with_reducible refine keep_stopRequest KF ?_
    | with_reducible refine keep_raisePlain KR KF Kg ?_
    | with_reducible refine keep_endTest KR KF Kg ?_
    | with_reducible refine keep_updAlive KR ?_
    | split

theorem keep_raiseWith (KR : KeepRegs P) (KF : KeepFlt P) (Kg : KeepLog P) {s : State} {src : Nat} {inst : Nat} {detail : Nat} {real : Bool}
    (hP : P s)  : P (State.raiseWith s src inst detail real) := by
  unfold State.raiseWith
  repeat' first
    | with_reducible assumption
    | with_reducible refine keep_raiseAt KR KF Kg ?_

theorem keep_raiseD (KR : KeepRegs P) (KF : KeepFlt P) (Kg : KeepLog P) {s : State} {src : Nat} {inst : Nat} {detail : Nat}
    (hP : P s)  : P (State.raiseD s src inst detail) := by
  unfold State.raiseD
  repeat' first
    | with_reducible assumption
    | with_reducible refine keep_raiseWith KR KF Kg ?_
    | with_reducible refine keep_markHigh KF ?_

theorem keep_raiseMem (KR : KeepRegs P) (KF : KeepFlt P) (Kg : KeepLog P) {s : State} {src : Nat} {part : Nat} {detail : Nat} {addr : Nat}
    (hP : P s)  : P (State.raiseMem s src part detail addr) := by
  unfold State.raiseMem
  repeat' first
    | with_reducible assumption
    | with_reducible refine keep_raiseAt KR KF Kg ?_
    | with_reducible refine keep_markHigh KF ?_

theorem keep_raise (KR : KeepRegs P) (KF : KeepFlt P) (Kg : KeepLog P) {s : State} {src : Nat} {inst : Nat}
    (hP : P s)  : P (State.raise s src inst) := by
  unfold State.raise
  repeat' first
    | with_reducible assumption
    | with_reducible refine keep_raiseD KR KF Kg ?_

theorem keep_raiseHub (KR : KeepRegs P) (KF : KeepFlt P) (Kg : KeepLog P) {s : State} {src : Nat}
    (hP : P s)  : P (State.raiseHub s src) := by
  unfold State.raiseHub
  repeat' first
    | with_reducible assumption
    | with_reducible refine keep_raiseD KR KF Kg ?_

theorem keep_setEpisode (KR : KeepRegs P) (KF : KeepFlt P) (Kg : KeepLog P) {s : State} {src : Nat} {ep : Nat} {inst : Nat} {on : Bool}
    (hP : P s)  : P (State.setEpisode s src ep inst on) := by
  unfold State.setEpisode
  extract_lets x0 x1
  try clear_value x0
  try clear_value x1
  repeat' first
    | with_reducible assumption
    | with_reducible refine keep_updRaw KR ?_
    | with_reducible refine keep_raise KR KF Kg ?_
    | with_reducible refine keep_markHigh KF ?_
    | split
    | with_reducible refine KF.flt _ _ ?_

theorem keep_setLine (KR : KeepRegs P) (KF : KeepFlt P) (Kg : KeepLog P) {s : State} {src : Nat} {inst : Nat} {on : Bool}
    (hP : P s)  : P (State.setLine s src inst on) := by
  unfold State.setLine
  repeat' first
    | with_reducible assumption
    | with_reducible refine keep_setEpisode KR KF Kg ?_

theorem keep_forceEdge (KR : KeepRegs P) (KF : KeepFlt P) (Kg : KeepLog P) {s : State} {src : Nat}
    (hP : P s)  : P (State.forceEdge s src) := by
  unfold State.forceEdge
  repeat' first
    | with_reducible assumption
    | with_reducible refine keep_raiseAt KR KF Kg ?_

end Sys2Proof.Machine
end

