-- ==== Sys2Proof/Laws/KeepSteady.lean ====
section
/-! SUPPORT. What the operations of Machine/Steady.lean keep (see Laws/Keep.lean). -/
namespace Sys2Proof.Machine
variable {P : State → Prop}

theorem keep_setOp (Kr : KeepRgn P) {s : State} {r : RunOp}
    (hP : P s)  : P (State.setOp s r) := by
  unfold State.setOp
  extract_lets x0 x1
  try clear_value x0
  try clear_value x1
  repeat' first
    | with_reducible assumption
    | with_reducible refine Kr.setRg _ _ _ ?_

theorem keep_endOp (Kr : KeepRgn P) {s : State} {r : RunOp}
    (hP : P s)  : P (State.endOp s r) := by
  unfold State.endOp
  extract_lets x0 x1
  try clear_value x0
  try clear_value x1
  repeat' first
    | with_reducible assumption
    | with_reducible refine Kr.setRg _ _ _ ?_

theorem keep_keepShown (Kr : KeepRgn P) {s : State} {g : Nat} {a : Nat}
    (hP : P s)  : P (State.keepShown s g a) := by
  unfold State.keepShown
  extract_lets x0
  try clear_value x0
  repeat' first
    | with_reducible assumption
    | with_reducible refine Kr.setRg _ _ _ ?_
    | split

theorem keep_showSteady (KR : KeepRegs P) (Kr : KeepRgn P) {s : State} {n : Nat}
    (hP : P s)  : P (State.showSteady s n) := by
  unfold State.showSteady
  extract_lets x0 x1 x2 x3
  try clear_value x0
  have k1 : P x1 := by
    unfold x1
    repeat' first
      | with_reducible assumption
      | with_reducible refine keep_keepShown Kr ?_
  try clear_value x1
  have k2 : P x2 := by
    unfold x2
    repeat' first
      | with_reducible assumption
      | with_reducible refine keep_setFld KR ?_
  try clear_value x2
  have k3 : P x3 := by
    unfold x3
    repeat' first
      | with_reducible assumption
      | with_reducible refine keep_setFlag KR ?_
  try clear_value x3
  repeat' first
    | with_reducible assumption
    | with_reducible refine keep_setFld KR ?_

theorem keep_showRegion (KR : KeepRegs P) (Kr : KeepRgn P) {s : State} {g : Nat}
    (hP : P s)  : P (State.showRegion s g) := by
  unfold State.showRegion
  extract_lets x0 x1 x2 x3 x4 x5 x6
  try clear_value x0
  have k1 : P x1 := by
    unfold x1
    repeat' first
      | with_reducible assumption
      | with_reducible refine keep_keepShown Kr ?_
  try clear_value x1
  try clear_value x2
  have k3 : P x3 := by
    unfold x3
    repeat' first
      | with_reducible assumption
      | with_reducible refine keep_setFld KR ?_
  try clear_value x3
  have k4 : P x4 := by
    unfold x4
    repeat' first
      | with_reducible assumption
      | with_reducible refine keep_setFld KR ?_
  try clear_value x4
  have k5 : P x5 := by
    unfold x5
    repeat' first
      | with_reducible assumption
      | with_reducible refine keep_setFld KR ?_
  try clear_value x5
  have k6 : P x6 := by
    unfold x6
    repeat' first
      | with_reducible assumption
      | with_reducible refine keep_setFld KR ?_
  try clear_value x6
  repeat' first
    | with_reducible assumption
    | with_reducible refine keep_setFld KR ?_

theorem keep_setSpr (KR : KeepRegs P) (Kr : KeepRgn P) {s : State} {c : Nat} {st : Nat} {n : Option Nat}
    (hP : P s)  : P (State.setSpr s c st n) := by
  unfold State.setSpr
  extract_lets x0 x1 x2 x3 x4
  try clear_value x0
  have k1 : P x1 := by
    unfold x1
    repeat' first
      | with_reducible assumption
      | with_reducible refine keep_keepShown Kr ?_
  try clear_value x1
  have k2 : P x2 := by
    unfold x2
    repeat' first
      | with_reducible assumption
      | with_reducible refine keep_setFld KR ?_
  try clear_value x2
  have k3 : P x3 := by
    unfold x3
    repeat' first
      | with_reducible assumption
      | with_reducible refine keep_setFld KR ?_
  try clear_value x3
  have k4 : P x4 := by
    unfold x4
    repeat' first
      | with_reducible assumption
      | with_reducible refine keep_setFlag KR ?_
  try clear_value x4
  repeat' first
    | with_reducible assumption
    | with_reducible refine keep_showRegion KR Kr ?_

theorem keep_freeSpr (KR : KeepRegs P) (Kr : KeepRgn P) {s : State} {c : Nat}
    (hP : P s)  : P (State.freeSpr s c) := by
  unfold State.freeSpr
  extract_lets x0 x1
  try clear_value x0
  try clear_value x1
  repeat' first
    | with_reducible assumption
    | with_reducible refine Kr.setRg _ _ _ ?_
    | with_reducible refine keep_setSpr KR Kr ?_
    | split

theorem keep_seqEvent (Kr : KeepRgn P) {s : State} {g : Nat} {code : Nat} {tgt : Nat} {arg : Nat} {idx : Nat} {detail : Nat} {lt : Nat}
    (hP : P s)  : P (State.seqEvent s g code tgt arg idx detail lt) := by
  unfold State.seqEvent
  extract_lets x0 x1 x2
  try clear_value x0
  try clear_value x1
  try clear_value x2
  repeat' first
    | with_reducible assumption
    | with_reducible refine Kr.setRg _ _ _ ?_

theorem keep_raiseNow (KR : KeepRegs P) (KF : KeepFlt P) (Kg : KeepLog P) (Kh : KeepChan P) {s : State} {src : Nat} {inst : Nat}
    (hP : P s)  : P (State.raiseNow s src inst) := by
  unfold State.raiseNow
  extract_lets x0 x1
  have k0 : P x0 := by
    unfold x0
    repeat' first
      | with_reducible assumption
      | with_reducible refine keep_raise KR KF Kg ?_
  try clear_value x0
  try clear_value x1
  repeat' first
    | with_reducible assumption
    | with_reducible refine keep_raise KR KF Kg ?_
    | with_reducible refine Kh.setCh _ _ _ ?_
    | split

theorem keep_sraise (KR : KeepRegs P) (KF : KeepFlt P) (Kg : KeepLog P) (Kr : KeepRgn P) (Kh : KeepChan P) {s : State} {g : Nat} {src : Nat} {inst : Nat}
    (hP : P s)  : P (State.sraise s g src inst) := by
  unfold State.sraise
  extract_lets x0
  try clear_value x0
  repeat' first
    | with_reducible assumption
    | with_reducible refine Kr.setRg _ _ _ ?_
    | with_reducible refine keep_raiseNow KR KF Kg Kh ?_
    | split

theorem keep_gather (Kr : KeepRgn P) {s : State} {g : Nat} {l : List (Nat × Nat)}
    (hP : P s)  : P (State.gather s g l) := by
  unfold State.gather
  extract_lets x0
  try clear_value x0
  repeat' first
    | with_reducible assumption
    | with_reducible refine Kr.setRg _ _ _ ?_

theorem keep_raiseGathered (KR : KeepRegs P) (KF : KeepFlt P) (Kg : KeepLog P) (Kr : KeepRgn P) (Kh : KeepChan P) {s : State} {g : Nat}
    (hP : P s)  : P (State.raiseGathered s g) := by
  unfold State.raiseGathered
  extract_lets x0 x1
  try clear_value x0
  try clear_value x1
  repeat' first
    | with_reducible assumption
    | with_reducible refine Kr.setRg _ _ _ ?_
    | with_reducible refine keep_raiseNow KR KF Kg Kh ?_
    | (with_reducible refine keep_forEach ?_ ?_)
    | (intro s x hx)

theorem keep_showMatch (KR : KeepRegs P) (Kr : KeepRgn P) {s : State} {n : Nat} {mg : Rat} {mo : Int}
    (hP : P s)  : P (State.showMatch s n mg mo) := by
  unfold State.showMatch
  extract_lets x0
  have k0 : P x0 := by
    unfold x0
    repeat' first
      | with_reducible assumption
      | with_reducible refine keep_keepShown Kr ?_
  try clear_value x0
  repeat' first
    | with_reducible assumption
    | with_reducible refine KR.setReg _ _ _ ?_

theorem keep_noteBorrow (KR : KeepRegs P) (KF : KeepFlt P) (Kg : KeepLog P) (Kr : KeepRgn P) (Kh : KeepChan P) {s : State} {n : Nat} {c : Nat}
    (hP : P s)  : P (State.noteBorrow s n c) := by
  unfold State.noteBorrow
  repeat' first
    | with_reducible assumption
    | with_reducible refine keep_sraise KR KF Kg Kr Kh ?_
    | split

theorem keep_setOverdue (KR : KeepRegs P) (Kh : KeepChan P) {s : State} {n : Nat} {b : Bool}
    (hP : P s)  : P (State.setOverdue s n b) := by
  unfold State.setOverdue
  extract_lets x0
  try clear_value x0
  repeat' first
    | with_reducible assumption
    | with_reducible refine Kh.setCh _ _ _ ?_
    | with_reducible refine keep_setFlag KR ?_

theorem keep_skipOp (KR : KeepRegs P) (KF : KeepFlt P) (Kg : KeepLog P) (Kr : KeepRgn P) (Kh : KeepChan P) {s : State} {o : SteadyOp} {checked : Bool} {lt : Nat}
    (hP : P s)  : P (State.skipOp s o checked lt) := by
  unfold State.skipOp
  extract_lets x0 x1 x2
  try clear_value x0
  have k1 : P x1 := by
    unfold x1
    repeat' first
      | with_reducible assumption
      | with_reducible refine keep_sraise KR KF Kg Kr Kh ?_
      | with_reducible refine keep_seqEvent Kr ?_
  try clear_value x1
  have k2 : P x2 := by
    unfold x2
    repeat' first
      | with_reducible assumption
      | with_reducible refine keep_setOverdue KR Kh ?_
      | split
  try clear_value x2
  repeat' first
    | with_reducible assumption
    | with_reducible refine keep_setFld KR ?_
    | split

theorem keep_queueOp (KR : KeepRegs P) (Kr : KeepRgn P) {s : State} {o : SteadyOp}
    (hP : P s)  : P (State.queueOp s o).1 := by
  unfold State.queueOp
  extract_lets x0 x1
  try clear_value x0
  try clear_value x1
  repeat' first
    | with_reducible assumption
    | with_reducible refine Kr.setRg _ _ _ ?_
    | with_reducible refine keep_showRegion KR Kr ?_
    | split

theorem keep_requestOp (KR : KeepRegs P) (KF : KeepFlt P) (Kg : KeepLog P) (Kr : KeepRgn P) (Kh : KeepChan P) {s : State} {o : SteadyOp}
    (hP : P s)  : P (State.requestOp s o) := by
  unfold State.requestOp
  repeat' first
    | with_reducible assumption
    | with_reducible refine keep_queueOp KR Kr ?_
    | with_reducible refine keep_sraise KR KF Kg Kr Kh ?_
    | with_reducible refine keep_fst (by assumption) ?_
    | split

theorem keep_unqueue (Kr : KeepRgn P) {s : State} {g : Nat} {o : SteadyOp}
    (hP : P s)  : P (State.unqueue s g o) := by
  unfold State.unqueue
  extract_lets x0
  try clear_value x0
  repeat' first
    | with_reducible assumption
    | with_reducible refine Kr.setRg _ _ _ ?_

theorem keep_addRun (Kr : KeepRgn P) {s : State} {r : RunOp}
    (hP : P s)  : P (State.addRun s r) := by
  unfold State.addRun
  extract_lets x0 x1
  try clear_value x0
  try clear_value x1
  repeat' first
    | with_reducible assumption
    | with_reducible refine Kr.setRg _ _ _ ?_

theorem keep_watchBy (KR : KeepRegs P) (Kr : KeepRgn P) {s : State} {r : RunOp} {c : Nat} {lt : Nat}
    (hP : P s)  : P (State.watchBy s r c lt) := by
  unfold State.watchBy
  extract_lets x0 x1 x2
  try clear_value x0
  try clear_value x1
  have k2 : P x2 := by
    unfold x2
    repeat' first
      | with_reducible assumption
      | with_reducible refine keep_setOp Kr ?_
      | with_reducible refine keep_setSpr KR Kr ?_
  try clear_value x2
  repeat' first
    | with_reducible assumption
    | with_reducible refine keep_showMatch KR Kr ?_
    | with_reducible refine keep_seqEvent Kr ?_
    | with_reducible refine keep_showSteady KR Kr ?_

theorem keep_dispatchOne (KR : KeepRegs P) (KF : KeepFlt P) (Kg : KeepLog P) (Kr : KeepRgn P) (Kh : KeepChan P) {s : State} {o : SteadyOp} {lt : Nat}
    (hP : P s)  : P (State.dispatchOne s o lt).1 := by
  unfold State.dispatchOne
  extract_lets x0 x1 x2 x3 x4 x5
  try clear_value x0
  try clear_value x1
  try clear_value x2
  try clear_value x3
  try clear_value x4
  try clear_value x5
  repeat' first
    | with_reducible assumption
    | with_reducible refine keep_setSpr KR Kr ?_
    | with_reducible refine keep_addRun Kr ?_
    | with_reducible refine keep_callTest KR KF ?_
    | with_reducible refine keep_showSteady KR Kr ?_
    | with_reducible refine keep_noteBorrow KR KF Kg Kr Kh ?_
    | with_reducible refine keep_watchBy KR Kr ?_
    | with_reducible refine keep_skipOp KR KF Kg Kr Kh ?_
    | split
    | dsimp only

theorem keep_dispatch (KR : KeepRegs P) (KF : KeepFlt P) (Kg : KeepLog P) (Kr : KeepRgn P) (Kh : KeepChan P) {s : State} {g : Nat} {lt : Nat}
    (hP : P s)  : P (State.dispatch s g lt) := by
  unfold State.dispatch
  repeat' first
    | with_reducible assumption
    | with_reducible refine keep_dispatchOne KR KF Kg Kr Kh ?_
    | with_reducible refine keep_unqueue Kr ?_
    | with_reducible refine keep_showRegion KR Kr ?_
    | (with_reducible refine keep_forEach ?_ ?_)
    | (intro s x hx)
    | with_reducible refine keep_fst (by assumption) ?_
    | split

theorem keep_matchErr (KR : KeepRegs P) (KF : KeepFlt P) (Kg : KeepLog P) (Kr : KeepRgn P) (Kh : KeepChan P) {s : State} {n : Nat}
    (hP : P s)  : P (State.matchErr s n) := by
  unfold State.matchErr
  extract_lets x0 x1
  try clear_value x0
  have k1 : P x1 := by
    unfold x1
    repeat' first
      | with_reducible assumption
      | with_reducible refine Kh.setCh _ _ _ ?_
  try clear_value x1
  repeat' first
    | with_reducible assumption
    | with_reducible refine keep_keepShown Kr ?_
    | with_reducible refine keep_setFlag KR ?_
    | with_reducible refine keep_sraise KR KF Kg Kr Kh ?_

theorem keep_swap (KR : KeepRegs P) (KF : KeepFlt P) (Kg : KeepLog P) (Kr : KeepRgn P) (Kh : KeepChan P) {s : State} {r : RunOp} {c : Nat} {lt : Nat}
    (hP : P s)  : P (State.swap s r c lt) := by
  unfold State.swap
  extract_lets x0 x1 x2 x3 x4 x5 x6 x7
  try clear_value x0
  try clear_value x1
  try clear_value x2
  try clear_value x3
  have k4 : P x4 := by
    unfold x4
    repeat' first
      | with_reducible assumption
      | with_reducible refine Kh.setCh _ _ _ ?_
  try clear_value x4
  have k5 : P x5 := by
    unfold x5
    repeat' first
      | with_reducible assumption
      | with_reducible refine keep_showMatch KR Kr ?_
  try clear_value x5
  have k6 : P x6 := by
    unfold x6
    repeat' first
      | with_reducible assumption
      | with_reducible refine keep_matchErr KR KF Kg Kr Kh ?_
  try clear_value x6
  have k7 : P x7 := by
    unfold x7
    repeat' first
      | with_reducible assumption
      | with_reducible refine keep_setOp Kr ?_
      | with_reducible refine keep_setSpr KR Kr ?_
  try clear_value x7
  repeat' first
    | with_reducible assumption
    | with_reducible refine keep_endOp Kr ?_
    | with_reducible refine keep_freeSpr KR Kr ?_
    | with_reducible refine keep_skipOp KR KF Kg Kr Kh ?_
    | with_reducible refine keep_showSteady KR Kr ?_
    | with_reducible refine keep_seqEvent Kr ?_
    | split

theorem keep_handBack (KR : KeepRegs P) (KF : KeepFlt P) (Kg : KeepLog P) (Kr : KeepRgn P) (Kh : KeepChan P) {s : State} {r : RunOp} {c : Nat} {lt : Nat}
    (hP : P s)  : P (State.handBack s r c lt) := by
  unfold State.handBack
  extract_lets x0 x1 x2 x3 x4 x5 x6 x7
  try clear_value x0
  try clear_value x1
  try clear_value x2
  have k3 : P x3 := by
    unfold x3
    repeat' first
      | with_reducible assumption
      | with_reducible refine keep_matchErr KR KF Kg Kr Kh ?_
      | split
  try clear_value x3
  try clear_value x4
  have k5 : P x5 := by
    unfold x5
    repeat' first
      | with_reducible assumption
      | with_reducible refine keep_seqEvent Kr ?_
  try clear_value x5
  try clear_value x6
  have k7 : P x7 := by
    unfold x7
    repeat' first
      | with_reducible assumption
      | with_reducible refine Kh.setCh _ _ _ ?_
      | split
  try clear_value x7
  repeat' first
    | with_reducible assumption
    | with_reducible refine keep_endOp Kr ?_
    | with_reducible refine keep_freeSpr KR Kr ?_
    | with_reducible refine keep_showSteady KR Kr ?_

theorem keep_gapEnd (KR : KeepRegs P) (KF : KeepFlt P) (Kg : KeepLog P) (Kr : KeepRgn P) (Kh : KeepChan P) {s : State} {r : RunOp}
    (hP : P s)  : P (State.gapEnd s r) := by
  unfold State.gapEnd
  extract_lets x0 x1 x2 x3
  try clear_value x0
  have k1 : P x1 := by
    unfold x1
    repeat' first
      | with_reducible assumption
      | with_reducible refine keep_seqEvent Kr ?_
  try clear_value x1
  have k2 : P x2 := by
    unfold x2
    repeat' first
      | with_reducible assumption
      | with_reducible refine keep_keepShown Kr ?_
  try clear_value x2
  have k3 : P x3 := by
    unfold x3
    repeat' first
      | with_reducible assumption
      | with_reducible refine keep_bumpBy KR ?_
      | with_reducible refine keep_sraise KR KF Kg Kr Kh ?_
  try clear_value x3
  repeat' first
    | with_reducible assumption
    | with_reducible refine keep_endOp Kr ?_
    | with_reducible refine keep_showSteady KR Kr ?_

theorem keep_advanceGap (KR : KeepRegs P) (KF : KeepFlt P) (Kg : KeepLog P) (Kr : KeepRgn P) (Kh : KeepChan P) {s : State} {lt : Nat} {r : RunOp}
    (hP : P s)  : P (State.advanceGap s lt r) := by
  unfold State.advanceGap
  extract_lets x0
  try clear_value x0
  repeat' first
    | with_reducible assumption
    | with_reducible refine keep_setOp Kr ?_
    | with_reducible refine keep_showSteady KR Kr ?_
    | with_reducible refine keep_gapEnd KR KF Kg Kr Kh ?_
    | split

theorem keep_advanceEvt (KR : KeepRegs P) (KF : KeepFlt P) (Kg : KeepLog P) (Kr : KeepRgn P) (Kh : KeepChan P) {s : State} {lt : Nat} {r : RunOp} {c : Nat}
    (hP : P s)  : P (State.advanceEvt s lt r c) := by
  unfold State.advanceEvt
  extract_lets x0 x1
  try clear_value x0
  try clear_value x1
  repeat' first
    | with_reducible assumption
    | with_reducible refine keep_watchBy KR Kr ?_
    | with_reducible refine keep_handBack KR KF Kg Kr Kh ?_
    | with_reducible refine keep_setOp Kr ?_
    | with_reducible refine keep_setSpr KR Kr ?_
    | with_reducible refine keep_showSteady KR Kr ?_
    | split

theorem keep_advanceCont (KR : KeepRegs P) (KF : KeepFlt P) (Kg : KeepLog P) (Kr : KeepRgn P) (Kh : KeepChan P) {s : State} {g : Nat} {lt : Nat} {wOf : Nat → Option Int} {r : RunOp} {c : Nat}
    (hP : P s)  : P (State.advanceCont s g lt wOf r c) := by
  unfold State.advanceCont
  extract_lets x0 x1 x2 x3 x4 x5
  have k2 : ∀ r, P (x2 r) := fun r =>
    ite_keep (fun _ => keep_showSteady KR Kr (keep_setSpr KR Kr (keep_setOp Kr hP))) (fun _ => hP)
  have k3 : P x3 := keep_setOp Kr hP
  clear_value x1 x2 x3
  split
  · exact keep_showSteady KR Kr (keep_seqEvent Kr k3)
  · exact ite_keep (fun _ => keep_swap KR KF Kg Kr Kh hP) (fun _ => keep_setOp Kr hP)
  · exact k2 _
  · exact k2 _
  · exact k2 _
  · exact ite_keep (fun _ => keep_handBack KR KF Kg Kr Kh hP) (fun _ => keep_setOp Kr hP)
  · exact hP


theorem keep_advanceOne (KR : KeepRegs P) (KF : KeepFlt P) (Kg : KeepLog P) (Kr : KeepRgn P) (Kh : KeepChan P) {s : State} {g : Nat} {lt : Nat} {wOf : Nat → Option Int} {r : RunOp}
    (hP : P s)  : P (State.advanceOne s g lt wOf r) := by
  unfold State.advanceOne
  repeat' first
    | with_reducible assumption
    | with_reducible refine keep_advanceGap KR KF Kg Kr Kh ?_
    | with_reducible refine keep_advanceEvt KR KF Kg Kr Kh ?_
    | with_reducible refine keep_advanceCont KR KF Kg Kr Kh ?_
    | split

theorem keep_advance (KR : KeepRegs P) (KF : KeepFlt P) (Kg : KeepLog P) (Kr : KeepRgn P) (Kh : KeepChan P) {s : State} {g : Nat} {lt : Nat} {wOf : Nat → Option Int}
    (hP : P s)  : P (State.advance s g lt wOf) := by
  unfold State.advance
  repeat' first
    | with_reducible assumption
    | with_reducible refine keep_advanceOne KR KF Kg Kr Kh ?_
    | (with_reducible refine keep_forEach ?_ ?_)
    | (intro s x hx)

theorem keep_abortCal (KR : KeepRegs P) {s : State} {r : RunOp}
    (hP : P s)  : P (State.abortCal s r) := by
  unfold State.abortCal
  repeat' first
    | with_reducible assumption
    | with_reducible refine keep_setFld KR ?_
    | split

theorem keep_dropCover (KR : KeepRegs P) (KF : KeepFlt P) (Kg : KeepLog P) (Kr : KeepRgn P) (Kh : KeepChan P) {s : State} {r : RunOp} {lt : Nat}
    (hP : P s)  : P (State.dropCover s r lt) := by
  unfold State.dropCover
  extract_lets x0 x1
  try clear_value x0
  have k1 : P x1 := by
    unfold x1
    repeat' first
      | with_reducible assumption
      | with_reducible refine keep_abortCal KR ?_
      | with_reducible refine keep_endOp Kr ?_
  try clear_value x1
  repeat' first
    | with_reducible assumption
    | with_reducible refine keep_sraise KR KF Kg Kr Kh ?_
    | with_reducible refine keep_skipOp KR KF Kg Kr Kh ?_
    | with_reducible refine keep_showSteady KR Kr ?_
    | split

theorem keep_unitFail (KR : KeepRegs P) (Kv : KeepConv P) (Kr : KeepRgn P) {s : State} {n : Nat}
    (hP : P s)  : P (State.unitFail s n) := by
  unfold State.unitFail
  extract_lets x0 x1 x2 x3 x4
  try clear_value x0
  try clear_value x1
  try clear_value x2
  have k3 : P x3 := by
    unfold x3
    repeat' first
      | with_reducible assumption
      | with_reducible refine Kv.setCv _ _ _ ?_
  try clear_value x3
  try clear_value x4
  repeat' first
    | with_reducible assumption
    | with_reducible refine Kr.setRg _ _ _ ?_
    | with_reducible refine keep_queueOp KR Kr ?_
    | split

theorem keep_spareFail (KR : KeepRegs P) (KF : KeepFlt P) (Kg : KeepLog P) (Kv : KeepConv P) (Kr : KeepRgn P) (Kh : KeepChan P) {s : State} {c : Nat}
    (hP : P s)  : P (State.spareFail s c) := by
  unfold State.spareFail
  extract_lets x0 x1 x2 x3
  try clear_value x0
  try clear_value x1
  have k2 : P x2 := by
    unfold x2
    repeat' first
      | with_reducible assumption
      | with_reducible refine keep_abortCal KR ?_
      | with_reducible refine keep_endOp Kr ?_
      | split
  try clear_value x2
  have k3 : P x3 := by
    unfold x3
    repeat' first
      | with_reducible assumption
      | with_reducible refine keep_unitFail KR Kv Kr ?_
      | split
  try clear_value x3
  repeat' first
    | with_reducible assumption
    | with_reducible refine keep_setSpr KR Kr ?_
    | with_reducible refine keep_sraise KR KF Kg Kr Kh ?_
    | split

theorem keep_commitTo (KR : KeepRegs P) (KF : KeepFlt P) (Kg : KeepLog P) (Kr : KeepRgn P) (Kh : KeepChan P) {s : State} {n : Nat} {c : Nat} {mg : Rat} {mo : Int} {lt : Nat}
    (hP : P s)  : P (State.commitTo s n c mg mo lt) := by
  unfold State.commitTo
  extract_lets x0 x1 x2 x3 x4 x5
  try clear_value x0
  try clear_value x1
  have k2 : P x2 := by
    unfold x2
    repeat' first
      | with_reducible assumption
      | with_reducible refine Kh.setCh _ _ _ ?_
  try clear_value x2
  try clear_value x3
  have k4 : P x4 := by
    unfold x4
    repeat' first
      | with_reducible assumption
      | with_reducible refine Kr.setRg _ _ _ ?_
      | with_reducible refine keep_unqueue Kr ?_
  try clear_value x4
  have k5 : P x5 := by
    unfold x5
    repeat' first
      | with_reducible assumption
      | with_reducible refine keep_setSpr KR Kr ?_
      | with_reducible refine keep_showMatch KR Kr ?_
  try clear_value x5
  repeat' first
    | with_reducible assumption
    | with_reducible refine keep_sraise KR KF Kg Kr Kh ?_
    | with_reducible refine keep_seqEvent Kr ?_
    | with_reducible refine keep_showSteady KR Kr ?_

theorem keep_commitCovered (KR : KeepRegs P) (KF : KeepFlt P) (Kg : KeepLog P) (Kr : KeepRgn P) (Kh : KeepChan P) {s : State} {r : RunOp} {c : Nat} {lt : Nat}
    (hP : P s)  : P (State.commitCovered s r c lt) := by
  unfold State.commitCovered
  extract_lets x0 x1 x2
  try clear_value x0
  try clear_value x1
  have k2 : P x2 := by
    unfold x2
    repeat' first
      | with_reducible assumption
      | with_reducible refine keep_abortCal KR ?_
      | with_reducible refine keep_endOp Kr ?_
  try clear_value x2
  repeat' first
    | with_reducible assumption
    | with_reducible refine keep_commitTo KR KF Kg Kr Kh ?_

theorem keep_sprPowered (KW : KeepPwr P) {s u : State} {c : Nat} (hP : P s) (e : s.sprPowered c = some u) : P u := by
  unfold State.sprPowered at e
  split at e
  · injection e with e
    exact e ▸ hP
  · split at e
    · split at e
      · injection e with e
        exact e ▸ KW.pwr _ _ hP
      · cases e
    · cases e


theorem keep_powerSpr (KW : KeepPwr P) {s : State} {c : Nat}
    (hP : P s)  : P (State.powerSpr s c) := by
  unfold State.powerSpr
  extract_lets x0
  try clear_value x0
  repeat' first
    | with_reducible assumption
    | split
    | with_reducible refine KW.pwr _ _ ?_

theorem keep_substOne (KR : KeepRegs P) (KF : KeepFlt P) (Kg : KeepLog P) (KW : KeepPwr P) (Kr : KeepRgn P) (Kh : KeepChan P) {s : State} {lt : Nat} {n : Nat}
    (hP : P s)  : P (State.substOne s lt n) := by
  unfold State.substOne
  extract_lets x0 x1 x2 x3 x4 x5 x6 x7 x8 x9
  try clear_value x0
  try clear_value x1
  try clear_value x2
  have k3 : P x3 := by
    unfold x3
    repeat' first
      | with_reducible assumption
      | with_reducible refine Kh.setCh _ _ _ ?_
  try clear_value x3
  have k4 : ∀ (s : State) a0, P s → P (x4 s a0) := by
    intro s a0 h
    unfold x4
    repeat' first
      | with_reducible assumption
      | with_reducible refine keep_commitTo KR KF Kg Kr Kh ?_
      | with_reducible refine keep_noteBorrow KR KF Kg Kr Kh ?_
  try clear_value x4
  try clear_value x5
  try clear_value x6
  try clear_value x7
  try clear_value x8
  have k9 : P x9 := by
    unfold x9
    repeat' first
      | with_reducible assumption
      | with_reducible refine Kh.setCh _ _ _ ?_
      | with_reducible refine keep_unqueue Kr ?_
  try clear_value x9
  repeat' first
    | with_reducible assumption
    | with_reducible refine k4 _ _  ?_
    | with_reducible refine keep_abortCal KR ?_
    | with_reducible refine keep_endOp Kr ?_
    | with_reducible refine keep_commitCovered KR KF Kg Kr Kh ?_
    | with_reducible refine keep_gapEnd KR KF Kg Kr Kh ?_
    | with_reducible refine keep_powerSpr KW ?_
    | with_reducible refine keep_dropCover KR KF Kg Kr Kh ?_
    | with_reducible refine keep_sraise KR KF Kg Kr Kh ?_
    | with_reducible refine keep_seqEvent Kr ?_
    | with_reducible refine keep_showSteady KR Kr ?_
    | with_reducible refine keep_showRegion KR Kr ?_
    | with_reducible refine keep_sprPowered KW ?_ (by assumption)
    | split

theorem keep_substAll (KR : KeepRegs P) (KF : KeepFlt P) (Kg : KeepLog P) (KW : KeepPwr P) (Kr : KeepRgn P) (Kh : KeepChan P) {s : State} {g : Nat} {lt : Nat}
    (hP : P s)  : P (State.substAll s g lt) := by
  unfold State.substAll
  extract_lets x0
  try clear_value x0
  repeat' first
    | with_reducible assumption
    | with_reducible refine keep_substOne KR KF Kg KW Kr Kh ?_
    | (with_reducible refine keep_forEach ?_ ?_)
    | (intro s x hx)
    | split
    | dsimp only

theorem keep_stopFailing (KR : KeepRegs P) (KF : KeepFlt P) (Kg : KeepLog P) (Kv : KeepConv P) (Kr : KeepRgn P) (Kh : KeepChan P) {s : State} {g : Nat} {lt : Nat}
    (hP : P s)  : P (State.stopFailing s g lt) := by
  unfold State.stopFailing
  extract_lets x0 x1
  try clear_value x0
  have k1 : P x1 := by
    unfold x1
    repeat' first
      | with_reducible assumption
      | with_reducible refine Kv.setCv _ _ _ ?_
      | (with_reducible refine keep_forEach ?_ ?_)
      | (intro s x hx)
      | split
      | dsimp only
  try clear_value x1
  repeat' first
    | with_reducible assumption
    | with_reducible refine keep_dropCover KR KF Kg Kr Kh ?_
    | (with_reducible refine keep_forEach ?_ ?_)
    | (intro s x hx)
    | split

theorem keep_steadyEdge (KR : KeepRegs P) (KF : KeepFlt P) (Kg : KeepLog P) (KW : KeepPwr P) (Kv : KeepConv P) (Kr : KeepRgn P) (Kh : KeepChan P) {s : State} {g : Nat} {lt : Nat} {wOf : Nat → Option Int}
    (hP : P s)  : P (State.steadyEdge s g lt wOf) := by
  unfold State.steadyEdge
  extract_lets x0 x1 x2 x3 x4 x5
  try clear_value x0
  have k1 : P x1 := by
    unfold x1
    repeat' first
      | with_reducible assumption
      | with_reducible refine Kr.setRg _ _ _ ?_
  try clear_value x1
  have k2 : P x2 := by
    unfold x2
    repeat' first
      | with_reducible assumption
      | with_reducible refine keep_stopFailing KR KF Kg Kv Kr Kh ?_
  try clear_value x2
  have k3 : P x3 := by
    unfold x3
    repeat' first
      | with_reducible assumption
      | with_reducible refine keep_advance KR KF Kg Kr Kh ?_
  try clear_value x3
  have k4 : P x4 := by
    unfold x4
    repeat' first
      | with_reducible assumption
      | with_reducible refine keep_substAll KR KF Kg KW Kr Kh ?_
  try clear_value x4
  have k5 : P x5 := by
    unfold x5
    repeat' first
      | with_reducible assumption
      | with_reducible refine keep_dispatch KR KF Kg Kr Kh ?_
  try clear_value x5
  repeat' first
    | with_reducible assumption
    | with_reducible refine keep_showSteady KR Kr ?_
    | (with_reducible refine keep_forEach ?_ ?_)
    | (intro s x hx)

theorem keep_requeue (KR : KeepRegs P) (KF : KeepFlt P) (Kg : KeepLog P) (Kr : KeepRgn P) (Kh : KeepChan P) {s : State} {o : SteadyOp}
    (hP : P s)  : P (State.requeue s o) := by
  unfold State.requeue
  extract_lets x0 x1
  try clear_value x0
  try clear_value x1
  repeat' first
    | with_reducible assumption
    | with_reducible refine Kr.setRg _ _ _ ?_
    | with_reducible refine keep_showRegion KR Kr ?_
    | with_reducible refine keep_sraise KR KF Kg Kr Kh ?_
    | split

theorem keep_gapWindow (Kr : KeepRgn P) {s : State} {g : Nat}
    (hP : P s)  : P (State.gapWindow s g) := by
  unfold State.gapWindow
  repeat' first
    | with_reducible assumption
    | with_reducible refine keep_setOp Kr ?_
    | (with_reducible refine keep_forEach ?_ ?_)
    | (intro s x hx)
    | split

theorem keep_steadyStop (KR : KeepRegs P) (KF : KeepFlt P) (Kg : KeepLog P) (Kr : KeepRgn P) (Kh : KeepChan P) {s : State} {g : Nat}
    (hP : P s)  : P (State.steadyStop s g) := by
  unfold State.steadyStop
  repeat' first
    | with_reducible assumption
    | with_reducible refine keep_endOp Kr ?_
    | with_reducible refine keep_freeSpr KR Kr ?_
    | with_reducible refine keep_requeue KR KF Kg Kr Kh ?_
    | with_reducible refine keep_showSteady KR Kr ?_
    | (with_reducible refine keep_forEach ?_ ?_)
    | (intro s x hx)
    | split

theorem keep_steadyStart (KR : KeepRegs P) (KF : KeepFlt P) (Kg : KeepLog P) (KW : KeepPwr P) (Kv : KeepConv P) (Kr : KeepRgn P) (Kh : KeepChan P) {s : State} {g : Nat} {lt : Nat}
    (hP : P s)  : P (State.steadyStart s g lt) := by
  unfold State.steadyStart
  extract_lets x0 x1 x2 x3
  try clear_value x0
  have k1 : P x1 := by
    unfold x1
    repeat' first
      | with_reducible assumption
      | with_reducible refine Kr.setRg _ _ _ ?_
  try clear_value x1
  have k2 : P x2 := by
    unfold x2
    repeat' first
      | with_reducible assumption
      | with_reducible refine keep_gapEnd KR KF Kg Kr Kh ?_
      | with_reducible refine Kh.setCh _ _ _ ?_
      | with_reducible refine keep_endOp Kr ?_
      | with_reducible refine keep_freeSpr KR Kr ?_
      | with_reducible refine keep_showSteady KR Kr ?_
      | (with_reducible refine keep_forEach ?_ ?_)
      | (intro s x hx)
      | split
  try clear_value x2
  have k3 : P x3 := by
    unfold x3
    repeat' first
      | with_reducible assumption
      | with_reducible refine keep_stopFailing KR KF Kg Kv Kr Kh ?_
      | with_reducible refine keep_substAll KR KF Kg KW Kr Kh ?_
  try clear_value x3
  repeat' first
    | with_reducible assumption
    | with_reducible refine keep_showSteady KR Kr ?_
    | (with_reducible refine keep_forEach ?_ ?_)
    | (intro s x hx)
    | split

end Sys2Proof.Machine
end

