-- ==== Sys2Proof/Laws/KeepStreams.lean ====
section
/-! SUPPORT. What the operations of Machine/Streams.lean keep (see Laws/Keep.lean). -/
namespace Sys2Proof.Machine
variable {P : State → Prop}

theorem keep_putStr (KR : KeepRegs P) (KF : KeepFlt P) (Kg : KeepLog P) (Kb : KeepStr P) {s : State} {c : Nat} {x : StrState}
    (hP : P s)  : P (State.putStr s c x) := by
  unfold State.putStr
  extract_lets x0 x1 x2 x3 x4 x5 x6 x7 x8 x9 x10 x11 x12
  try clear_value x0
  try clear_value x1
  try clear_value x2
  try clear_value x3
  have k4 : P x4 := by
    unfold x4
    repeat' first
      | with_reducible assumption
      | with_reducible refine Kb.setStr _ _ _ ?_
  try clear_value x4
  have k5 : P x5 := by
    unfold x5
    repeat' first
      | with_reducible assumption
      | with_reducible refine keep_setFld KR ?_
  try clear_value x5
  have k6 : P x6 := by
    unfold x6
    repeat' first
      | with_reducible assumption
      | with_reducible refine keep_setFld KR ?_
  try clear_value x6
  have k7 : P x7 := by
    unfold x7
    repeat' first
      | with_reducible assumption
      | with_reducible refine keep_setFld KR ?_
  try clear_value x7
  try clear_value x8
  have k9 : P x9 := by
    unfold x9
    repeat' first
      | with_reducible assumption
      | with_reducible refine keep_setFld KR ?_
  try clear_value x9
  have k10 : P x10 := by
    unfold x10
    repeat' first
      | with_reducible assumption
      | with_reducible refine keep_setFld KR ?_
  try clear_value x10
  have k11 : P x11 := by
    unfold x11
    repeat' first
      | with_reducible assumption
      | with_reducible refine keep_setFlag KR ?_
  try clear_value x11
  have k12 : P x12 := by
    unfold x12
    repeat' first
      | with_reducible assumption
      | with_reducible refine keep_setFlag KR ?_
  try clear_value x12
  repeat' first
    | with_reducible assumption
    | with_reducible refine keep_raise KR KF Kg ?_
    | split

theorem keep_drainSpill (KR : KeepRegs P) (KF : KeepFlt P) (KM : KeepMem P) (Kg : KeepLog P) (Kb : KeepStr P) {s : State} {c : Nat}
    (hP : P s)  : P (State.drainSpill s c) := by
  unfold State.drainSpill
  extract_lets x0
  try clear_value x0
  repeat' first
    | with_reducible assumption
    | with_reducible refine keep_putStr KR KF Kg Kb ?_
    | with_reducible refine keep_setBytes KM ?_
    | (with_reducible refine keep_forEach ?_ ?_)
    | (intro s x hx)
    | split

theorem keep_drainAll (KR : KeepRegs P) (KF : KeepFlt P) (KM : KeepMem P) (Kg : KeepLog P) (Kb : KeepStr P) {s : State} {c : Nat}
    (hP : P s)  : P (State.drainAll s c) := by
  unfold State.drainAll
  repeat' first
    | with_reducible assumption
    | with_reducible refine keep_drainSpill KR KF KM Kg Kb ?_
    | (with_reducible refine keep_forEach ?_ ?_)
    | (intro s x hx)

theorem keep_storeUnit (KR : KeepRegs P) (KF : KeepFlt P) (KM : KeepMem P) (Kg : KeepLog P) (Kb : KeepStr P) {s : State} {c : Nat} {deep : Bool} {bs : List Byte}
    (hP : P s)  : P (State.storeUnit s c deep bs) := by
  unfold State.storeUnit
  extract_lets x0 x1 x2
  try clear_value x0
  try clear_value x1
  have k2 : ∀ (s : State) , P s → P (x2 s ) := by
    intro s  h
    unfold x2
    repeat' first
      | with_reducible assumption
      | with_reducible refine keep_setBytes KM ?_
  try clear_value x2
  repeat' first
    | with_reducible assumption
    | with_reducible refine k2 _  ?_
    | with_reducible refine keep_putStr KR KF Kg Kb ?_
    | with_reducible refine keep_raise KR KF Kg ?_
    | split

theorem keep_putUnit (KM : KeepMem P) {s : State} {c : Nat} {u : Nat} {bs : List Byte}
    (hP : P s)  : P (State.putUnit s c u bs) := by
  unfold State.putUnit
  repeat' first
    | with_reducible assumption
    | with_reducible refine keep_setBytes KM ?_

theorem keep_openPkt (KR : KeepRegs P) (KF : KeepFlt P) (KM : KeepMem P) (Kg : KeepLog P) (Kb : KeepStr P) {s : State} {c : Nat} {ptype : Nat} {name : Nat} {idx : Nat} {deep : Bool}
    (hP : P s)  : P (State.openPkt s c ptype name idx deep) := by
  unfold State.openPkt
  extract_lets x0 x1 x2
  try clear_value x0
  have k1 : P x1 := by
    unfold x1
    repeat' first
      | with_reducible assumption
      | with_reducible refine keep_storeUnit KR KF KM Kg Kb ?_
  try clear_value x1
  try clear_value x2
  repeat' first
    | with_reducible assumption
    | with_reducible refine Kb.setStr _ _ _ ?_

theorem keep_putPayload (KR : KeepRegs P) (KF : KeepFlt P) (KM : KeepMem P) (Kg : KeepLog P) (Kb : KeepStr P) {s : State} {c : Nat} {bs : List Byte}
    (hP : P s)  : P (State.putPayload s c bs) := by
  unfold State.putPayload
  extract_lets x0
  try clear_value x0
  repeat' first
    | with_reducible assumption
    | with_reducible refine Kb.setStr _ _ _ ?_
    | with_reducible refine keep_storeUnit KR KF KM Kg Kb ?_
    | (with_reducible refine keep_forEach ?_ ?_)
    | (intro s x hx)
    | split

theorem keep_closePkt (KR : KeepRegs P) (Ko : KeepOut P) (KF : KeepFlt P) (KM : KeepMem P) (Kg : KeepLog P) (Kb : KeepStr P) {s : State} {c : Nat} {stop : Bool} {gapOnly : Bool}
    (hP : P s)  : P (State.closePkt s c stop gapOnly) := by
  unfold State.closePkt
  repeat' first
    | with_reducible assumption
    | with_reducible refine keep_storeUnit KR KF KM Kg Kb ?_
    | with_reducible refine keep_putUnit KM ?_
    | with_reducible refine KR.setReg _ _ _ ?_
    | with_reducible refine keep_putStr KR KF Kg Kb ?_
    | split

theorem keep_setIcnt (KR : KeepRegs P) {s : State} {c : Nat} {v : Nat}
    (hP : P s)  : P (State.setIcnt s c v) := by
  unfold State.setIcnt
  repeat' first
    | with_reducible assumption
    | with_reducible refine keep_setPair KR ?_

theorem keep_appendGap (KR : KeepRegs P) (Ko : KeepOut P) (KF : KeepFlt P) (KM : KeepMem P) (Kg : KeepLog P) (Kb : KeepStr P) {s : State} {c : Nat} {g : GapInfo}
    (hP : P s)  : P (State.appendGap s c g) := by
  unfold State.appendGap
  extract_lets x0 x1 x2 x3 x4
  have k0 : P x0 := by
    unfold x0
    repeat' first
      | with_reducible assumption
      | with_reducible refine keep_closePkt KR Ko KF KM Kg Kb ?_
  try clear_value x0
  have k1 : P x1 := by
    unfold x1
    repeat' first
      | with_reducible assumption
      | with_reducible refine keep_openPkt KR KF KM Kg Kb ?_
  try clear_value x1
  have k2 : P x2 := by
    unfold x2
    repeat' first
      | with_reducible assumption
      | with_reducible refine keep_putPayload KR KF KM Kg Kb ?_
  try clear_value x2
  try clear_value x3
  have k4 : P x4 := by
    unfold x4
    repeat' first
      | with_reducible assumption
      | with_reducible refine Kb.setStr _ _ _ ?_
  try clear_value x4
  repeat' first
    | with_reducible assumption
    | with_reducible refine keep_closePkt KR Ko KF KM Kg Kb ?_

theorem keep_appendDesc (KR : KeepRegs P) (Ko : KeepOut P) (KF : KeepFlt P) (KM : KeepMem P) (Kg : KeepLog P) (Kb : KeepStr P) {s : State} {c : Nat}
    (hP : P s)  : P (State.appendDesc s c) := by
  unfold State.appendDesc
  extract_lets x0 x1 x2 x3 x4 x5 x6 x7
  have k0 : P x0 := by
    unfold x0
    repeat' first
      | with_reducible assumption
      | with_reducible refine keep_closePkt KR Ko KF KM Kg Kb ?_
  try clear_value x0
  have k1 : P x1 := by
    unfold x1
    repeat' first
      | with_reducible assumption
      | with_reducible refine keep_openPkt KR KF KM Kg Kb ?_
  try clear_value x1
  have k2 : P x2 := by
    unfold x2
    repeat' first
      | with_reducible assumption
      | with_reducible refine keep_putPayload KR KF KM Kg Kb ?_
  try clear_value x2
  try clear_value x3
  have k4 : P x4 := by
    unfold x4
    repeat' first
      | with_reducible assumption
      | with_reducible refine Kb.setStr _ _ _ ?_
  try clear_value x4
  have k5 : P x5 := by
    unfold x5
    repeat' first
      | with_reducible assumption
      | with_reducible refine keep_closePkt KR Ko KF KM Kg Kb ?_
  try clear_value x5
  try clear_value x6
  try clear_value x7
  repeat' first
    | with_reducible assumption
    | with_reducible refine Kb.setStr _ _ _ ?_

theorem keep_storeFrags (KR : KeepRegs P) (Ko : KeepOut P) (KF : KeepFlt P) (KM : KeepMem P) (Kg : KeepLog P) (Kb : KeepStr P) {s : State} {c kind lt idx rseq : Nat}
    {bs : List Byte} {b : Bool} {l : List (Bool × Nat)} (h : P s) : P (s.storeFrags c kind lt idx rseq bs b l) := by
  induction l generalizing s bs b with
  | nil => exact h
  | cons a t ih =>
    unfold State.storeFrags
    apply ih
    apply Kb.setStr
    apply keep_putPayload KR KF KM Kg Kb
    split
    · exact keep_openPkt KR KF KM Kg Kb (keep_closePkt KR Ko KF KM Kg Kb h)
    · exact h


theorem keep_storeItem (KR : KeepRegs P) (Ko : KeepOut P) (KF : KeepFlt P) (KM : KeepMem P) (Kg : KeepLog P) (Kb : KeepStr P) {s : State} {c : Nat} {lt : Nat} {idx : Nat} {it : Item}
    (hP : P s)  : P (State.storeItem s c lt idx it) := by
  unfold State.storeItem
  extract_lets x0 x1 x2
  have k0 : P x0 := by
    unfold x0
    repeat' first
      | with_reducible assumption
      | with_reducible refine keep_closePkt KR Ko KF KM Kg Kb ?_
      | with_reducible refine keep_openPkt KR KF KM Kg Kb ?_
      | split
  try clear_value x0
  try clear_value x1
  try clear_value x2
  repeat' first
    | with_reducible assumption
    | with_reducible refine keep_putPayload KR KF KM Kg Kb ?_
    | with_reducible refine Kb.setStr _ _ _ ?_
    | with_reducible refine keep_storeFrags KR Ko KF KM Kg Kb ?_
    | split

theorem keep_appendGaps (KR : KeepRegs P) (Ko : KeepOut P) (KF : KeepFlt P) (KM : KeepMem P) (Kg : KeepLog P) (Kb : KeepStr P) {s : State} {c : Nat} {l : List GapInfo} (h : P s) : P (s.appendGaps c l) := by
  induction l generalizing s with
  | nil => exact h
  | cons g t ih =>
    unfold State.appendGaps
    split
    · exact ih (keep_appendGap KR Ko KF KM Kg Kb (Kb.setStr _ _ _ h))
    · exact h


theorem keep_appendWaits (KR : KeepRegs P) (Ko : KeepOut P) (KF : KeepFlt P) (KM : KeepMem P) (Kg : KeepLog P) (Kb : KeepStr P) {s : State} {c : Nat}
    (hP : P s)  : P (State.appendWaits s c) := by
  unfold State.appendWaits
  extract_lets x0
  have k0 : P x0 := by
    unfold x0
    repeat' first
      | with_reducible assumption
      | with_reducible refine keep_drainAll KR KF KM Kg Kb ?_
      | with_reducible refine keep_appendGaps KR Ko KF KM Kg Kb ?_
  try clear_value x0
  repeat' first
    | with_reducible assumption
    | with_reducible refine keep_openPkt KR KF KM Kg Kb ?_
    | with_reducible refine keep_closePkt KR Ko KF KM Kg Kb ?_
    | with_reducible refine Kb.setStr _ _ _ ?_
    | split

theorem keep_gapEnds (KR : KeepRegs P) (Ko : KeepOut P) (KF : KeepFlt P) (KM : KeepMem P) (Kg : KeepLog P) (Kb : KeepStr P) {s : State} {c : Nat} {lt : Nat} {idx : Nat} {it : Item} {g : GapInfo}
    (hP : P s)  : P (State.gapEnds s c lt idx it g) := by
  unfold State.gapEnds
  extract_lets x0 x1 x2
  try clear_value x0
  have k1 : P x1 := by
    unfold x1
    repeat' first
      | with_reducible assumption
      | with_reducible refine Kb.setStr _ _ _ ?_
      | with_reducible refine keep_appendGap KR Ko KF KM Kg Kb ?_
  try clear_value x1
  have k2 : P x2 := by
    unfold x2
    repeat' first
      | with_reducible assumption
      | with_reducible refine keep_appendDesc KR Ko KF KM Kg Kb ?_
      | split
  try clear_value x2
  repeat' first
    | with_reducible assumption
    | with_reducible refine keep_storeItem KR Ko KF KM Kg Kb ?_

theorem keep_gapBegins (KR : KeepRegs P) (Ko : KeepOut P) (KF : KeepFlt P) (KM : KeepMem P) (Kg : KeepLog P) (Kb : KeepStr P) {s : State} {c : Nat} {lt : Nat} {idx : Nat}
    (hP : P s)  : P (State.gapBegins s c lt idx) := by
  unfold State.gapBegins
  extract_lets x0 x1 x2
  have k0 : P x0 := by
    unfold x0
    repeat' first
      | with_reducible assumption
      | with_reducible refine keep_closePkt KR Ko KF KM Kg Kb ?_
  try clear_value x0
  try clear_value x1
  have k2 : P x2 := by
    unfold x2
    repeat' first
      | with_reducible assumption
      | with_reducible refine keep_putStr KR KF Kg Kb ?_
  try clear_value x2
  repeat' first
    | with_reducible assumption
    | with_reducible refine keep_bump KR ?_
    | with_reducible refine keep_raise KR KF Kg ?_

theorem keep_itemArrives (KR : KeepRegs P) (Ko : KeepOut P) (KF : KeepFlt P) (KM : KeepMem P) (Kg : KeepLog P) (Kb : KeepStr P) {s : State} {c : Nat} {lt : Nat} {it : Item}
    (hP : P s)  : P (State.itemArrives s c lt it) := by
  unfold State.itemArrives
  extract_lets x0 x1 x2 x3
  try clear_value x0
  have k1 : P x1 := by
    unfold x1
    repeat' first
      | with_reducible assumption
      | with_reducible refine keep_setIcnt KR ?_
      | with_reducible refine keep_appendWaits KR Ko KF KM Kg Kb ?_
  try clear_value x1
  try clear_value x2
  have k3 : P x3 := by
    unfold x3
    repeat' first
      | with_reducible assumption
      | with_reducible refine keep_appendDesc KR Ko KF KM Kg Kb ?_
      | split
  try clear_value x3
  repeat' first
    | with_reducible assumption
    | with_reducible refine keep_gapEnds KR Ko KF KM Kg Kb ?_
    | with_reducible refine keep_putStr KR KF Kg Kb ?_
    | with_reducible refine keep_storeItem KR Ko KF KM Kg Kb ?_
    | with_reducible refine keep_gapBegins KR Ko KF KM Kg Kb ?_
    | split

theorem keep_route (KR : KeepRegs P) (Ko : KeepOut P) (KF : KeepFlt P) (KM : KeepMem P) (Kg : KeepLog P) (Kb : KeepStr P) {s : State} {en : Bool} {c : Nat} {kind : Nat} {lt : Nat} {bs : List Byte}
    (hP : P s)  : P (State.route s en c kind lt bs) := by
  unfold State.route
  repeat' first
    | with_reducible assumption
    | with_reducible refine keep_itemArrives KR Ko KF KM Kg Kb ?_
    | with_reducible refine keep_bump KR ?_
    | with_reducible refine keep_raiseHub KR KF Kg ?_
    | split

theorem keep_recordCh (KR : KeepRegs P) (Ko : KeepOut P) (KF : KeepFlt P) (KM : KeepMem P) (Kg : KeepLog P) (Kb : KeepStr P) {s : State} {n : Nat} {kind : Nat} {lt : Nat} {bs : List Byte}
    (hP : P s)  : P (State.recordCh s n kind lt bs) := by
  unfold State.recordCh
  repeat' first
    | with_reducible assumption
    | with_reducible refine keep_route KR Ko KF KM Kg Kb ?_

theorem keep_seqRecord (KR : KeepRegs P) (Ko : KeepOut P) (KF : KeepFlt P) (KM : KeepMem P) (Kg : KeepLog P) (Kb : KeepStr P) {s : State} {g : Nat} {lt : Nat} {payload : Nat}
    (hP : P s)  : P (State.seqRecord s g lt payload) := by
  unfold State.seqRecord
  repeat' first
    | with_reducible assumption
    | with_reducible refine keep_route KR Ko KF KM Kg Kb ?_

theorem keep_cmpRecord (KR : KeepRegs P) (Ko : KeepOut P) (KF : KeepFlt P) (KM : KeepMem P) (Kg : KeepLog P) (Kb : KeepStr P) {s : State} {n : Nat} {kind : Nat} {novr : Nat} {lt : Nat}
    (hP : P s)  : P (State.cmpRecord s n kind novr lt) := by
  unfold State.cmpRecord
  repeat' first
    | with_reducible assumption
    | with_reducible refine keep_recordCh KR Ko KF KM Kg Kb ?_

theorem keep_strStopped (KR : KeepRegs P) (KF : KeepFlt P) (Kg : KeepLog P) (Kb : KeepStr P) {s : State} {c : Nat}
    (hP : P s)  : P (State.strStopped s c) := by
  unfold State.strStopped
  extract_lets x0 x1
  try clear_value x0
  have k1 : P x1 := by
    unfold x1
    repeat' first
      | with_reducible assumption
      | with_reducible refine keep_putStr KR KF Kg Kb ?_
  try clear_value x1
  repeat' first
    | with_reducible assumption
    | with_reducible refine keep_setFld KR ?_

theorem keep_strSettle (KR : KeepRegs P) (KF : KeepFlt P) (Kg : KeepLog P) (Kb : KeepStr P) {s : State} {c : Nat}
    (hP : P s)  : P (State.strSettle s c) := by
  unfold State.strSettle
  extract_lets x0
  try clear_value x0
  repeat' first
    | with_reducible assumption
    | with_reducible refine keep_strStopped KR KF Kg Kb ?_
    | split

theorem keep_strStart (KR : KeepRegs P) (Ko : KeepOut P) (KF : KeepFlt P) (KM : KeepMem P) (Kg : KeepLog P) (Kb : KeepStr P) {s : State} {c : Nat} {gouge : Bool}
    (hP : P s)  : P (State.strStart s c gouge) := by
  unfold State.strStart
  extract_lets x0 x1 x2 x3
  have k0 : P x0 := by
    unfold x0
    repeat' first
      | with_reducible assumption
      | with_reducible refine keep_setFld KR ?_
  try clear_value x0
  have k1 : P x1 := by
    unfold x1
    repeat' first
      | with_reducible assumption
      | with_reducible refine keep_setIcnt KR ?_
  try clear_value x1
  try clear_value x2
  have k3 : P x3 := by
    unfold x3
    repeat' first
      | with_reducible assumption
      | with_reducible refine keep_putStr KR KF Kg Kb ?_
  try clear_value x3
  repeat' first
    | with_reducible assumption
    | with_reducible refine keep_setFlag KR ?_
    | with_reducible refine keep_setFld KR ?_
    | with_reducible refine keep_bump KR ?_
    | with_reducible refine keep_raise KR KF Kg ?_
    | with_reducible refine keep_appendDesc KR Ko KF KM Kg Kb ?_
    | split

theorem keep_strStop (KR : KeepRegs P) (Ko : KeepOut P) (KF : KeepFlt P) (KM : KeepMem P) (Kg : KeepLog P) (Kb : KeepStr P) {s : State} {c : Nat}
    (hP : P s)  : P (State.strStop s c) := by
  unfold State.strStop
  extract_lets x0 x1 x2
  have k0 : P x0 := by
    unfold x0
    repeat' first
      | with_reducible assumption
      | with_reducible refine keep_setFld KR ?_
  try clear_value x0
  try clear_value x1
  have k2 : P x2 := by
    unfold x2
    repeat' first
      | with_reducible assumption
      | with_reducible refine keep_closePkt KR Ko KF KM Kg Kb ?_
      | with_reducible refine keep_putStr KR KF Kg Kb ?_
      | split
  try clear_value x2
  repeat' first
    | with_reducible assumption
    | with_reducible refine keep_appendWaits KR Ko KF KM Kg Kb ?_
    | with_reducible refine keep_strSettle KR KF Kg Kb ?_
    | split

theorem keep_strAbort (KR : KeepRegs P) (Ko : KeepOut P) (KF : KeepFlt P) (KM : KeepMem P) (Kg : KeepLog P) (Kb : KeepStr P) (Kk : KeepGaps P) {s : State} {c : Nat}
    (hP : P s)  : P (State.strAbort s c) := by
  unfold State.strAbort
  extract_lets x0 x1 x2 x3 x4 x5
  try clear_value x0
  try clear_value x1
  have k2 : P x2 := by
    unfold x2
    repeat' first
      | with_reducible assumption
      | with_reducible refine Kk.gapStore _ _ ?_
  try clear_value x2
  try clear_value x3
  have k4 : P x4 := by
    unfold x4
    repeat' first
      | with_reducible assumption
      | with_reducible refine keep_putStr KR KF Kg Kb ?_
  try clear_value x4
  have k5 : P x5 := by
    unfold x5
    repeat' first
      | with_reducible assumption
      | with_reducible refine keep_setFld KR ?_
  try clear_value x5
  repeat' first
    | with_reducible assumption
    | with_reducible refine keep_setFlag KR ?_
    | with_reducible refine keep_raise KR KF Kg ?_
    | with_reducible refine keep_strStopped KR KF Kg Kb ?_
    | with_reducible refine keep_appendGap KR Ko KF KM Kg Kb ?_
    | split

theorem keep_passPkts (KR : KeepRegs P) (KF : KeepFlt P) (Kg : KeepLog P) (Kb : KeepStr P) {s : State} {c : Nat} {k : Nat}
    (hP : P s)  : P (State.passPkts s c k) := by
  unfold State.passPkts
  extract_lets x0
  try clear_value x0
  repeat' first
    | with_reducible assumption
    | with_reducible refine keep_putStr KR KF Kg Kb ?_
    | split

theorem keep_releasePkts (KR : KeepRegs P) (Ko : KeepOut P) (KF : KeepFlt P) (KM : KeepMem P) (Kg : KeepLog P) (Kb : KeepStr P) {s : State} {c : Nat} {k : Nat}
    (hP : P s)  : P (State.releasePkts s c k) := by
  unfold State.releasePkts
  repeat' first
    | with_reducible assumption
    | with_reducible refine keep_passPkts KR KF Kg Kb ?_
    | with_reducible refine keep_appendWaits KR Ko KF KM Kg Kb ?_
    | with_reducible refine keep_strSettle KR KF Kg Kb ?_

theorem keep_confirm (KR : KeepRegs P) (Ko : KeepOut P) (KF : KeepFlt P) (KM : KeepMem P) (Kg : KeepLog P) (Kb : KeepStr P) (Kk : KeepGaps P) {s : State} {c : Nat} {pseq : Nat}
    (hP : P s)  : P (State.confirm s c pseq) := by
  unfold State.confirm
  extract_lets x0
  have k0 : P x0 := by
    unfold x0
    repeat' first
      | with_reducible assumption
      | with_reducible refine Kk.gapStore _ _ ?_
  try clear_value x0
  repeat' first
    | with_reducible assumption
    | with_reducible refine keep_releasePkts KR Ko KF KM Kg Kb ?_

theorem keep_dropPkt (KR : KeepRegs P) (Ko : KeepOut P) (KF : KeepFlt P) (KM : KeepMem P) (Kg : KeepLog P) (Kb : KeepStr P) {s : State} {c : Nat} {pseq : Nat}
    (hP : P s)  : P (State.dropPkt s c pseq) := by
  unfold State.dropPkt
  extract_lets x0 x1 x2
  try clear_value x0
  have k1 : P x1 := by
    unfold x1
    repeat' first
      | with_reducible assumption
      | with_reducible refine keep_passPkts KR KF Kg Kb ?_
  try clear_value x1
  try clear_value x2
  repeat' first
    | with_reducible assumption
    | with_reducible refine keep_appendGap KR Ko KF KM Kg Kb ?_
    | with_reducible refine Kb.setStr _ _ _ ?_
    | with_reducible refine keep_raise KR KF Kg ?_
    | with_reducible refine keep_appendWaits KR Ko KF KM Kg Kb ?_
    | with_reducible refine keep_strSettle KR KF Kg Kb ?_
    | split

theorem keep_rewind (KR : KeepRegs P) (KF : KeepFlt P) (Kg : KeepLog P) (Kb : KeepStr P) (Kk : KeepGaps P) {s : State}
    (hP : P s)  : P (State.rewind s) := by
  unfold State.rewind
  extract_lets x0
  have k0 : P x0 := by
    unfold x0
    repeat' first
      | with_reducible assumption
      | dsimp only
      | with_reducible refine Kk.gapStore _ _ ?_
  try clear_value x0
  repeat' first
    | with_reducible assumption
    | with_reducible refine keep_putStr KR KF Kg Kb ?_
    | (with_reducible refine keep_forEach ?_ ?_)
    | (intro s x hx)

theorem keep_appendRow (KR : KeepRegs P) (Ko : KeepOut P) (KF : KeepFlt P) (KM : KeepMem P) (Kg : KeepLog P) (Kb : KeepStr P) {s : State} {c : Nat} {name : Nat}
    (hP : P s)  : P (State.appendRow s c name) := by
  unfold State.appendRow
  extract_lets x0 x1 x2
  try clear_value x0
  have k1 : P x1 := by
    unfold x1
    repeat' first
      | with_reducible assumption
      | with_reducible refine keep_itemArrives KR Ko KF KM Kg Kb ?_
  try clear_value x1
  try clear_value x2
  repeat' first
    | with_reducible assumption
    | with_reducible refine Kb.setStr _ _ _ ?_

theorem keep_lossGap (KR : KeepRegs P) (Ko : KeepOut P) (KF : KeepFlt P) (KM : KeepMem P) (Kg : KeepLog P) (Kb : KeepStr P) {s : State} {c : Nat} {newStart : Nat}
    (hP : P s)  : P (State.lossGap s c newStart) := by
  unfold State.lossGap
  extract_lets x0
  try clear_value x0
  repeat' first
    | with_reducible assumption
    | with_reducible refine keep_setIcnt KR ?_
    | with_reducible refine keep_closePkt KR Ko KF KM Kg Kb ?_
    | with_reducible refine keep_putStr KR KF Kg Kb ?_
    | with_reducible refine keep_appendWaits KR Ko KF KM Kg Kb ?_
    | with_reducible refine keep_raise KR KF Kg ?_
    | split

theorem keep_lossOff (KR : KeepRegs P) (Ko : KeepOut P) (KF : KeepFlt P) (KM : KeepMem P) (Kg : KeepLog P) (Kb : KeepStr P) {s : State} {g : Nat}
    (hP : P s)  : P (State.lossOff s g) := by
  unfold State.lossOff
  repeat' first
    | with_reducible assumption
    | with_reducible refine Kb.setStr _ _ _ ?_
    | with_reducible refine keep_lossGap KR Ko KF KM Kg Kb ?_
    | (with_reducible refine keep_forEach ?_ ?_)
    | (intro s x hx)
    | split
    | dsimp only

end Sys2Proof.Machine
end

