-- ==== Sys2Proof/Laws/KeepCalib.lean ====
section
/-! SUPPORT. What the operations of Machine/Calib.lean keep (see Laws/Keep.lean). -/
namespace Sys2Proof.Machine
variable {P : State → Prop}

theorem keep_setCalStat (KR : KeepRegs P) (Kr : KeepRgn P) {s : State} {k : Nat} {rf : Nat} {res : Nat} {code : Nat}
    (hP : P s)  : P (State.setCalStat s k rf res code) := by
  unfold State.setCalStat
  extract_lets x0 x1
  try clear_value x0
  have k1 : P x1 := by
    unfold x1
    repeat' first
      | with_reducible assumption
      | with_reducible refine keep_keepShown Kr ?_
  try clear_value x1
  repeat' first
    | with_reducible assumption
    | with_reducible refine keep_setFld KR ?_

theorem keep_setTrim (KR : KeepRegs P) (Ka : KeepAct P) {s : State} {a : Nat} {v : Nat}
    (hP : P s)  : P (State.setTrim s a v) := by
  unfold State.setTrim
  repeat' first
    | with_reducible assumption
    | with_reducible refine KR.setReg _ _ _ ?_
    | with_reducible refine Ka.setAct _ _ _ ?_

theorem keep_passTrims (KR : KeepRegs P) (Ka : KeepAct P) (Kv : KeepConv P) {s : State} {k : Nat} {code : Nat} {full : Bool} {m : CalEnd}
    (hP : P s)  : P (State.passTrims s k code full m) := by
  unfold State.passTrims
  extract_lets x0 x1 x2 x3 x4 x5 x6 x7 x8
  try clear_value x0
  try clear_value x1
  try clear_value x2
  have k3 : P x3 := by
    unfold x3
    repeat' first
      | with_reducible assumption
      | with_reducible refine keep_setTrim KR Ka ?_
  try clear_value x3
  have k4 : P x4 := by
    unfold x4
    repeat' first
      | with_reducible assumption
      | with_reducible refine keep_setTrim KR Ka ?_
      | split
  try clear_value x4
  try clear_value x5
  have k6 : P x6 := by
    unfold x6
    repeat' first
      | with_reducible assumption
      | with_reducible refine KR.setReg _ _ _ ?_
  try clear_value x6
  have k7 : P x7 := by
    unfold x7
    repeat' first
      | with_reducible assumption
      | with_reducible refine keep_setSt KR ?_
      | split
  try clear_value x7
  try clear_value x8
  repeat' first
    | with_reducible assumption
    | with_reducible refine Kv.setCv _ _ _ ?_

theorem keep_opEnded (Kr : KeepRgn P) {s : State} {r : RunOp}
    (hP : P s)  : P (State.opEnded s r) := by
  unfold State.opEnded
  repeat' first
    | with_reducible assumption
    | with_reducible refine keep_setOp Kr ?_

theorem keep_calFailed (KR : KeepRegs P) (KF : KeepFlt P) (Kg : KeepLog P) (Kv : KeepConv P) (Kr : KeepRgn P) (Kh : KeepChan P) {s : State} {r : RunOp}
    (hP : P s)  : P (State.calFailed s r) := by
  unfold State.calFailed
  extract_lets x0 x1 x2 x3
  try clear_value x0
  have k1 : P x1 := by
    unfold x1
    repeat' first
      | with_reducible assumption
      | with_reducible refine keep_setFlag KR ?_
      | with_reducible refine keep_setOverdue KR Kh ?_
      | split
  try clear_value x1
  have k2 : P x2 := by
    unfold x2
    repeat' first
      | with_reducible assumption
      | with_reducible refine keep_setOp Kr ?_
  try clear_value x2
  try clear_value x3
  repeat' first
    | with_reducible assumption
    | with_reducible refine keep_endOp Kr ?_
    | with_reducible refine keep_spareFail KR KF Kg Kv Kr Kh ?_
    | with_reducible refine keep_showSteady KR Kr ?_
    | with_reducible refine keep_commitCovered KR KF Kg Kr Kh ?_
    | with_reducible refine keep_opEnded Kr ?_
    | with_reducible refine keep_unitFail KR Kv Kr ?_
    | split

theorem keep_calPassed (KR : KeepRegs P) (Ka : KeepAct P) (Kv : KeepConv P) (Kr : KeepRgn P) (Kh : KeepChan P) {s : State} {k : Nat} {r : RunOp} {e : CalEnd}
    (hP : P s)  : P (State.calPassed s k r e) := by
  unfold State.calPassed
  extract_lets x0 x1 x2 x3 x4
  have k0 : P x0 := by
    unfold x0
    repeat' first
      | with_reducible assumption
      | with_reducible refine keep_passTrims KR Ka Kv ?_
  try clear_value x0
  try clear_value x1
  have k2 : P x2 := by
    unfold x2
    repeat' first
      | with_reducible assumption
      | with_reducible refine keep_setOverdue KR Kh ?_
  try clear_value x2
  try clear_value x3
  have k4 : P x4 := by
    unfold x4
    repeat' first
      | with_reducible assumption
      | with_reducible refine Kv.setCv _ _ _ ?_
      | split
  try clear_value x4
  repeat' first
    | with_reducible assumption
    | with_reducible refine keep_setOp Kr ?_
    | with_reducible refine Kv.setCv _ _ _ ?_
    | with_reducible refine keep_endOp Kr ?_
    | with_reducible refine keep_freeSpr KR Kr ?_
    | with_reducible refine keep_opEnded Kr ?_
    | split

theorem keep_calEnds (KR : KeepRegs P) (Ka : KeepAct P) (KF : KeepFlt P) (Kg : KeepLog P) (KL : KeepTime P) (Kv : KeepConv P) (Kr : KeepRgn P) (Kh : KeepChan P) {s : State} {k : Nat} {r : RunOp} {e : CalEnd}
    (hP : P s)  : P (State.calEnds s k r e) := by
  unfold State.calEnds
  extract_lets x0 x1 x2 x3 x4 x5
  try clear_value x0
  try clear_value x1
  have k2 : P x2 := by
    unfold x2
    repeat' first
      | with_reducible assumption
      | with_reducible refine keep_moveTo KL ?_
  try clear_value x2
  try clear_value x3
  have k4 : P x4 := by
    unfold x4
    repeat' first
      | with_reducible assumption
      | with_reducible refine keep_setCalStat KR Kr ?_
  try clear_value x4
  have k5 : P x5 := by
    unfold x5
    repeat' first
      | with_reducible assumption
      | with_reducible refine keep_seqEvent Kr ?_
  try clear_value x5
  repeat' first
    | with_reducible assumption
    | with_reducible refine keep_calPassed KR Ka Kv Kr Kh ?_
    | with_reducible refine keep_raise KR KF Kg ?_
    | with_reducible refine keep_calFailed KR KF Kg Kv Kr Kh ?_
    | split

theorem keep_calDone (KR : KeepRegs P) (Ka : KeepAct P) (KF : KeepFlt P) (Kg : KeepLog P) (KL : KeepTime P) (Kv : KeepConv P) (Kr : KeepRgn P) (Kh : KeepChan P) {s : State} {k : Nat} {m : CalMeas}
    (hP : P s)  : P (State.calDone s k m) := by
  unfold State.calDone
  repeat' first
    | with_reducible assumption
    | with_reducible refine keep_calEnds KR Ka KF Kg KL Kv Kr Kh ?_
    | split

theorem keep_execCalibrationDone (KR : KeepRegs P) (Ka : KeepAct P) (KF : KeepFlt P) (Kg : KeepLog P) (KL : KeepTime P) (Kv : KeepConv P) (Kr : KeepRgn P) (Kh : KeepChan P) {k : Fin 432} {m : CalMeas} {s : State}
    (hP : P s) {u : State} (e : execCalibrationDone k m s = .next u) : P u := by
  unfold execCalibrationDone at e
  refine keep_act hP ?_ e
  clear e
  repeat' first
    | with_reducible assumption
    | with_reducible refine keep_calDone KR Ka KF Kg KL Kv Kr Kh ?_

theorem keep_execCalTimeout (KR : KeepRegs P) (KF : KeepFlt P) (Kg : KeepLog P) (KL : KeepTime P) (Kv : KeepConv P) (Kr : KeepRgn P) (Kh : KeepChan P) {k : Fin 432} {s : State}
    (hP : P s) {u : State} (e : execCalTimeout k s = .next u) : P u := by
  unfold execCalTimeout at e
  refine keep_act hP ?_ e
  clear e
  extract_lets x0
  try clear_value x0
  repeat' first
    | with_reducible assumption
    | with_reducible refine keep_moveTo KL ?_
    | with_reducible refine keep_setFld KR ?_
    | with_reducible refine keep_setFlag KR ?_
    | with_reducible refine keep_raise KR KF Kg ?_
    | with_reducible refine keep_calFailed KR KF Kg Kv Kr Kh ?_
    | with_reducible refine keep_setOp Kr ?_
    | with_reducible refine keep_awaitTest KF ?_
    | split

theorem keep_testForOp (KR : KeepRegs P) (KF : KeepFlt P) (Kg : KeepLog P) (Kv : KeepConv P) (Kr : KeepRgn P) (Kh : KeepChan P) {s : State} {r : RunOp} {v : Nat}
    (hP : P s)  : P (State.testForOp s r v) := by
  unfold State.testForOp
  repeat' first
    | with_reducible assumption
    | with_reducible refine keep_setOp Kr ?_
    | with_reducible refine keep_endOp Kr ?_
    | with_reducible refine keep_showSteady KR Kr ?_
    | with_reducible refine keep_spareFail KR KF Kg Kv Kr Kh ?_
    | with_reducible refine keep_calFailed KR KF Kg Kv Kr Kh ?_
    | split

theorem keep_convOut (KR : KeepRegs P) (KF : KeepFlt P) (Kg : KeepLog P) (Kv : KeepConv P) (Kr : KeepRgn P) (Kh : KeepChan P) {s : State} {k : Nat}
    (hP : P s)  : P (State.convOut s k) := by
  unfold State.convOut
  extract_lets x0
  try clear_value x0
  repeat' first
    | with_reducible assumption
    | with_reducible refine Kv.setCv _ _ _ ?_
    | with_reducible refine keep_spareFail KR KF Kg Kv Kr Kh ?_
    | with_reducible refine keep_unitFail KR Kv Kr ?_
    | split

theorem keep_settleTests (KR : KeepRegs P) (KF : KeepFlt P) (Kg : KeepLog P) (Kv : KeepConv P) (Kr : KeepRgn P) (Kh : KeepChan P) {s : State}
    (hP : P s)  : P (State.settleTests s) := by
  unfold State.settleTests
  extract_lets x0 x1 x2 x3
  try clear_value x0
  try clear_value x1
  try clear_value x2
  have k3 : P x3 := by
    unfold x3
    repeat' first
      | with_reducible assumption
      | with_reducible refine KF.flt _ _ ?_
  try clear_value x3
  repeat' first
    | with_reducible assumption
    | with_reducible refine keep_testForOp KR KF Kg Kv Kr Kh ?_
    | with_reducible refine keep_convOut KR KF Kg Kv Kr Kh ?_
    | with_reducible refine Kv.setCv _ _ _ ?_
    | (with_reducible refine keep_forEach ?_ ?_)
    | (intro s x hx)
    | split
    | dsimp only

theorem keep_execIntegratorCheckDone (KR : KeepRegs P) (KF : KeepFlt P) (Kg : KeepLog P) (Kv : KeepConv P) (Kr : KeepRgn P) (Kh : KeepChan P) {k : Fin 432} {levelBad : Bool} {refBad : Bool} {s : State}
    (hP : P s) {u : State} (e : execIntegratorCheckDone k levelBad refBad s = .next u) : P u := by
  unfold execIntegratorCheckDone at e
  refine keep_act hP ?_ e
  clear e
  extract_lets x0 x1 x2 x3 x4
  have k0 : P x0 := by
    unfold x0
    repeat' first
      | with_reducible assumption
      | with_reducible refine keep_raise KR KF Kg ?_
      | split
  try clear_value x0
  have k1 : P x1 := by
    unfold x1
    repeat' first
      | with_reducible assumption
      | with_reducible refine keep_raise KR KF Kg ?_
      | split
  try clear_value x1
  have k2 : P x2 := by
    unfold x2
    repeat' first
      | with_reducible assumption
      | with_reducible refine keep_settleTests KR KF Kg Kv Kr Kh ?_
  try clear_value x2
  try clear_value x3
  have k4 : P x4 := by
    unfold x4
    repeat' first
      | with_reducible assumption
      | with_reducible refine Kv.setCv _ _ _ ?_
  try clear_value x4
  repeat' first
    | with_reducible assumption
    | with_reducible refine keep_spareFail KR KF Kg Kv Kr Kh ?_
    | with_reducible refine keep_abortCal KR ?_
    | with_reducible refine keep_endOp Kr ?_
    | with_reducible refine keep_showSteady KR Kr ?_
    | with_reducible refine keep_unitFail KR Kv Kr ?_
    | split

theorem keep_execStrobeMisaligned (KR : KeepRegs P) (KF : KeepFlt P) (Kg : KeepLog P) (Kv : KeepConv P) {d : Fin 4} {s : State}
    (hP : P s) {u : State} (e : execStrobeMisaligned d s = .next u) : P u := by
  unfold execStrobeMisaligned at e
  refine keep_act hP ?_ e
  clear e
  extract_lets x0
  have k0 : P x0 := by
    unfold x0
    repeat' first
      | with_reducible assumption
      | with_reducible refine keep_raise KR KF Kg ?_
  try clear_value x0
  repeat' first
    | with_reducible assumption
    | with_reducible refine Kv.setCv _ _ _ ?_
    | (with_reducible refine keep_forEach ?_ ?_)
    | (intro s x hx)

theorem keep_execCalOverdue (KR : KeepRegs P) (KL : KeepTime P) (Kh : KeepChan P) {n : Fin 384} {s : State}
    (hP : P s) {u : State} (e : execCalOverdue n s = .next u) : P u := by
  unfold execCalOverdue at e
  refine keep_act hP ?_ e
  clear e
  extract_lets x0 x1 x2
  try clear_value x0
  try clear_value x1
  have k2 : P x2 := by
    unfold x2
    repeat' first
      | with_reducible assumption
      | with_reducible refine keep_pass KL ?_
      | split
  try clear_value x2
  repeat' first
    | with_reducible assumption
    | with_reducible refine keep_setOverdue KR Kh ?_
    | split

theorem keep_impRecord (KR : KeepRegs P) (Ko : KeepOut P) (KF : KeepFlt P) (KM : KeepMem P) (Kg : KeepLog P) (Kb : KeepStr P) {s : State} {n : Nat} {kind : Nat} {q : Nat} {a : Nat} {b : Nat} {c : Nat} {count : Nat} {rv : Nat}
    (hP : P s)  : P (State.impRecord s n kind q a b c count rv) := by
  unfold State.impRecord
  repeat' first
    | with_reducible assumption
    | with_reducible refine keep_recordCh KR Ko KF KM Kg Kb ?_

theorem keep_impDone (KR : KeepRegs P) (Ko : KeepOut P) (KF : KeepFlt P) (KM : KeepMem P) (Kg : KeepLog P) (KL : KeepTime P) (Kr : KeepRgn P) (Kh : KeepChan P) (Kb : KeepStr P) {s : State} {n : Nat} {m : ImpMeas}
    (hP : P s)  : P (State.impDone s n m) := by
  unfold State.impDone
  extract_lets x0
  try clear_value x0
  repeat' first
    | with_reducible assumption
    | with_reducible refine keep_moveTo KL ?_
    | with_reducible refine keep_raise KR KF Kg ?_
    | with_reducible refine keep_setFld KR ?_
    | with_reducible refine keep_bump KR ?_
    | with_reducible refine keep_setSt KR ?_
    | with_reducible refine KR.setReg _ _ _ ?_
    | with_reducible refine Kh.setCh _ _ _ ?_
    | with_reducible refine keep_impRecord KR Ko KF KM Kg Kb ?_
    | with_reducible refine keep_seqEvent Kr ?_
    | with_reducible refine keep_setOp Kr ?_
    | split

theorem keep_execImpedanceCheckDone (KR : KeepRegs P) (Ko : KeepOut P) (KF : KeepFlt P) (KM : KeepMem P) (Kg : KeepLog P) (KL : KeepTime P) (Kr : KeepRgn P) (Kh : KeepChan P) (Kb : KeepStr P) {n : Fin 384} {m : ImpMeas} {s : State}
    (hP : P s) {u : State} (e : execImpedanceCheckDone n m s = .next u) : P u := by
  unfold execImpedanceCheckDone at e
  refine keep_act hP ?_ e
  clear e
  repeat' first
    | with_reducible assumption
    | with_reducible refine keep_impDone KR Ko KF KM Kg KL Kr Kh Kb ?_
    | split

theorem keep_writeImpCfg (KR : KeepRegs P) {s : State} {n : Nat} {v : Word}
    (hP : P s)  : P (State.writeImpCfg s n v) := by
  unfold State.writeImpCfg
  extract_lets x0 x1
  have k0 : P x0 := by
    unfold x0
    repeat' first
      | with_reducible assumption
      | with_reducible refine keep_writeFlds KR ?_
  try clear_value x0
  try clear_value x1
  repeat' first
    | with_reducible assumption
    | with_reducible refine KR.setReg _ _ _ ?_
    | split

theorem keep_execChImpCfgSetref (KR : KeepRegs P) {n : Fin 384} {v : Word} {s : State}
    (hP : P s) {u : State} (e : execChImpCfgSetref n v s = .next u) : P u := by
  unfold execChImpCfgSetref at e
  refine keep_act hP ?_ e
  clear e
  repeat' first
    | with_reducible assumption
    | with_reducible refine keep_writeImpCfg KR ?_

theorem keep_writeSteadyCtrl (KR : KeepRegs P) (KF : KeepFlt P) (Kg : KeepLog P) (Kr : KeepRgn P) (Kh : KeepChan P) {s : State} {n : Nat} {v : Word}
    (hP : P s)  : P (State.writeSteadyCtrl s n v) := by
  unfold State.writeSteadyCtrl
  extract_lets x0 x1 x2 x3 x4
  have k0 : P x0 := by
    unfold x0
    repeat' first
      | with_reducible assumption
      | with_reducible refine keep_writeFlds KR ?_
  try clear_value x0
  try clear_value x1
  try clear_value x2
  try clear_value x3
  have k4 : P x4 := by
    unfold x4
    repeat' first
      | with_reducible assumption
      | with_reducible refine keep_requestOp KR KF Kg Kr Kh ?_
      | split
  try clear_value x4
  repeat' first
    | with_reducible assumption
    | with_reducible refine keep_requestOp KR KF Kg Kr Kh ?_
    | split

theorem keep_execChSteadyCtrlCalReq (KR : KeepRegs P) (KF : KeepFlt P) (Kg : KeepLog P) (Kr : KeepRgn P) (Kh : KeepChan P) {n : Fin 384} {v : Word} {s : State}
    (hP : P s) {u : State} (e : execChSteadyCtrlCalReq n v s = .next u) : P u := by
  unfold execChSteadyCtrlCalReq at e
  refine keep_act hP ?_ e
  clear e
  repeat' first
    | with_reducible assumption
    | with_reducible refine keep_writeSteadyCtrl KR KF Kg Kr Kh ?_

theorem keep_execChSteadyCtrlImpReq (KR : KeepRegs P) (KF : KeepFlt P) (Kg : KeepLog P) (Kr : KeepRgn P) (Kh : KeepChan P) {n : Fin 384} {v : Word} {s : State}
    (hP : P s) {u : State} (e : execChSteadyCtrlImpReq n v s = .next u) : P u := by
  unfold execChSteadyCtrlImpReq at e
  refine keep_act hP ?_ e
  clear e
  repeat' first
    | with_reducible assumption
    | with_reducible refine keep_writeSteadyCtrl KR KF Kg Kr Kh ?_

theorem keep_execChSteadyCtrlRetest (KR : KeepRegs P) (KF : KeepFlt P) (Kg : KeepLog P) (Kr : KeepRgn P) (Kh : KeepChan P) {n : Fin 384} {v : Word} {s : State}
    (hP : P s) {u : State} (e : execChSteadyCtrlRetest n v s = .next u) : P u := by
  unfold execChSteadyCtrlRetest at e
  refine keep_act hP ?_ e
  clear e
  repeat' first
    | with_reducible assumption
    | with_reducible refine keep_writeSteadyCtrl KR KF Kg Kr Kh ?_

theorem keep_sprRequests (KR : KeepRegs P) (KF : KeepFlt P) (Kg : KeepLog P) (Kr : KeepRgn P) (Kh : KeepChan P) {s : State} {c : Nat} {v : Word}
    (hP : P s)  : P (State.sprRequests s c v) := by
  unfold State.sprRequests
  extract_lets x0
  have k0 : P x0 := by
    unfold x0
    repeat' first
      | with_reducible assumption
      | with_reducible refine keep_requestOp KR KF Kg Kr Kh ?_
      | split
  try clear_value x0
  repeat' first
    | with_reducible assumption
    | with_reducible refine keep_requestOp KR KF Kg Kr Kh ?_
    | split

theorem keep_autoRetime (Kr : KeepRgn P) {s : State} {g : Nat} {old : (Nat × Nat) × (Nat × Nat)}
    (hP : P s)  : P (State.autoRetime s g old) := by
  unfold State.autoRetime
  extract_lets x0 x1
  try clear_value x0
  try clear_value x1
  repeat' first
    | with_reducible assumption
    | with_reducible refine Kr.setRg _ _ _ ?_

theorem keep_execAutoScheduleImp (KR : KeepRegs P) (KF : KeepFlt P) (Kg : KeepLog P) (KL : KeepTime P) (Kr : KeepRgn P) (Kh : KeepChan P) {g : Fin 8} {s : State}
    (hP : P s) {u : State} (e : execAutoScheduleImp g s = .next u) : P u := by
  unfold execAutoScheduleImp at e
  refine keep_act hP ?_ e
  clear e
  extract_lets x0 x1 x2 x3 x4
  try clear_value x0
  try clear_value x1
  try clear_value x2
  have k3 : P x3 := by
    unfold x3
    repeat' first
      | with_reducible assumption
      | with_reducible refine keep_moveTo KL ?_
  try clear_value x3
  try clear_value x4
  repeat' first
    | with_reducible assumption
    | with_reducible refine Kr.setRg _ _ _ ?_
    | with_reducible refine keep_requestOp KR KF Kg Kr Kh ?_
    | split

theorem keep_execAutoScheduleCal (KR : KeepRegs P) (KF : KeepFlt P) (Kg : KeepLog P) (KL : KeepTime P) (Kr : KeepRgn P) (Kh : KeepChan P) {g : Fin 8} {s : State}
    (hP : P s) {u : State} (e : execAutoScheduleCal g s = .next u) : P u := by
  unfold execAutoScheduleCal at e
  refine keep_act hP ?_ e
  clear e
  extract_lets x0 x1 x2 x3 x4
  try clear_value x0
  try clear_value x1
  try clear_value x2
  have k3 : P x3 := by
    unfold x3
    repeat' first
      | with_reducible assumption
      | with_reducible refine keep_moveTo KL ?_
  try clear_value x3
  try clear_value x4
  repeat' first
    | with_reducible assumption
    | with_reducible refine Kr.setRg _ _ _ ?_
    | with_reducible refine keep_requestOp KR KF Kg Kr Kh ?_
    | split

end Sys2Proof.Machine
end

