-- ==== Sys2Proof/Laws/KeepLanes.lean ====
section
/-! SUPPORT. What the operations of Machine/Lanes.lean keep (see Laws/Keep.lean). -/
namespace Sys2Proof.Machine
variable {P : State → Prop}

theorem keep_laneQuiet (KR : KeepRegs P) (KF : KeepFlt P) (Kg : KeepLog P) {s : State} {i : Nat}
    (hP : P s)  : P (State.laneQuiet s i) := by
  unfold State.laneQuiet
  repeat' first
    | with_reducible assumption
    | with_reducible refine keep_setLine KR KF Kg ?_
    | split

theorem keep_leaveL0 (KR : KeepRegs P) (KF : KeepFlt P) (Kg : KeepLog P) (Kn : KeepLane P) {s : State} {i : Nat}
    (hP : P s)  : P (State.leaveL0 s i) := by
  unfold State.leaveL0
  extract_lets x0 x1
  have k0 : P x0 := by
    unfold x0
    repeat' first
      | with_reducible assumption
      | with_reducible refine KR.setReg _ _ _ ?_
      | with_reducible refine keep_setFlag KR ?_
  try clear_value x0
  try clear_value x1
  repeat' first
    | with_reducible assumption
    | with_reducible refine Kn.setLn _ _ _ ?_
    | with_reducible refine keep_setLine KR KF Kg ?_

theorem keep_laneStart (KR : KeepRegs P) (KF : KeepFlt P) (Kg : KeepLog P) (Kn : KeepLane P) {s : State} {i : Nat} {r : Nat}
    (hP : P s)  : P (State.laneStart s i r) := by
  unfold State.laneStart
  extract_lets x0 x1 x2
  try clear_value x0
  have k1 : P x1 := by
    unfold x1
    repeat' first
      | with_reducible assumption
      | with_reducible refine Kn.setLn _ _ _ ?_
  try clear_value x1
  have k2 : P x2 := by
    unfold x2
    repeat' first
      | with_reducible assumption
      | with_reducible refine keep_setFlag KR ?_
  try clear_value x2
  repeat' first
    | with_reducible assumption
    | with_reducible refine keep_leaveL0 KR KF Kg Kn ?_
    | split

theorem keep_laneSlot (KR : KeepRegs P) {s : State} {i : Nat} {p : Option Nat}
    (hP : P s)  : P (State.laneSlot s i p) := by
  unfold State.laneSlot
  repeat' first
    | with_reducible assumption
    | with_reducible refine keep_setFlag KR ?_
    | with_reducible refine keep_setFld KR ?_

theorem keep_laneAsk (KR : KeepRegs P) (KF : KeepFlt P) (Kg : KeepLog P) (Kn : KeepLane P) {s : State} {i : Nat} {r : Nat}
    (hP : P s)  : P (State.laneAsk s i r) := by
  unfold State.laneAsk
  extract_lets x0 x1
  try clear_value x0
  have k1 : P x1 := by
    unfold x1
    repeat' first
      | with_reducible assumption
      | with_reducible refine Kn.setLn _ _ _ ?_
  try clear_value x1
  repeat' first
    | with_reducible assumption
    | with_reducible refine keep_laneSlot KR ?_
    | with_reducible refine keep_laneStart KR KF Kg Kn ?_
    | split

theorem keep_ctlAsk (KR : KeepRegs P) (KF : KeepFlt P) (Kg : KeepLog P) (Kn : KeepLane P) {s : State} {i : Nat} {r : Nat}
    (hP : P s)  : P (State.ctlAsk s i r) := by
  unfold State.ctlAsk
  extract_lets x0 x1
  try clear_value x0
  have k1 : P x1 := by
    unfold x1
    repeat' first
      | with_reducible assumption
      | with_reducible refine Kn.setLn _ _ _ ?_
  try clear_value x1
  repeat' first
    | with_reducible assumption
    | with_reducible refine keep_laneAsk KR KF Kg Kn ?_
    | split

theorem keep_execLaneStateRequest (KR : KeepRegs P) (KF : KeepFlt P) (Kg : KeepLog P) (Kn : KeepLane P) {i : Fin 10} {req : Fin 4} {s : State}
    (hP : P s) {u : State} (e : execLaneStateRequest i req s = .next u) : P u := by
  unfold execLaneStateRequest at e
  refine keep_act hP ?_ e
  clear e
  repeat' first
    | with_reducible assumption
    | with_reducible refine keep_ctlAsk KR KF Kg Kn ?_

theorem keep_pllRest (KR : KeepRegs P) {s : State} {q : Nat}
    (hP : P s)  : P (State.pllRest s q) := by
  unfold State.pllRest
  repeat' first
    | with_reducible assumption
    | with_reducible refine keep_setFlag KR ?_
    | split

theorem keep_latency (Ko : KeepOut P) (Kn : KeepLane P) {s : State} {i : Nat}
    (hP : P s)  : P (State.latency s i) := by
  unfold State.latency
  extract_lets x0
  try clear_value x0
  repeat' first
    | with_reducible assumption
    | with_reducible refine Kn.setLn _ _ _ ?_
    | with_reducible refine keep_emit Ko ?_
    | split

theorem keep_laneDone (KR : KeepRegs P) (Ko : KeepOut P) (KF : KeepFlt P) (Kg : KeepLog P) (Kn : KeepLane P) {s : State} {i : Nat}
    (hP : P s)  : P (State.laneDone s i) := by
  unfold State.laneDone
  extract_lets x0 x1 x2 x3 x4 x5 x6 x7 x8 x9 x10 x11
  try clear_value x0
  try clear_value x1
  have k2 : P x2 := by
    unfold x2
    repeat' first
      | with_reducible assumption
      | with_reducible refine keep_raise KR KF Kg ?_
      | split
  try clear_value x2
  have k3 : P x3 := by
    unfold x3
    repeat' first
      | with_reducible assumption
      | with_reducible refine keep_setFld KR ?_
  try clear_value x3
  have k4 : P x4 := by
    unfold x4
    repeat' first
      | with_reducible assumption
      | with_reducible refine keep_setFlag KR ?_
  try clear_value x4
  have k5 : P x5 := by
    unfold x5
    repeat' first
      | with_reducible assumption
      | with_reducible refine keep_latency Ko Kn ?_
      | split
  try clear_value x5
  try clear_value x6
  try clear_value x7
  have k8 : P x8 := by
    unfold x8
    repeat' first
      | with_reducible assumption
      | with_reducible refine keep_setFlag KR ?_
      | with_reducible refine Kn.setLn _ _ _ ?_
      | split
  try clear_value x8
  have k9 : P x9 := by
    unfold x9
    repeat' first
      | with_reducible assumption
      | with_reducible refine keep_pllRest KR ?_
  try clear_value x9
  try clear_value x10
  have k11 : P x11 := by
    unfold x11
    repeat' first
      | with_reducible assumption
      | with_reducible refine keep_laneSlot KR ?_
  try clear_value x11
  repeat' first
    | with_reducible assumption
    | with_reducible refine keep_laneStart KR KF Kg Kn ?_
    | split

theorem keep_execLaneStateChangeDone (KR : KeepRegs P) (Ko : KeepOut P) (KF : KeepFlt P) (Kg : KeepLog P) (Kn : KeepLane P) {i : Fin 10} {s : State}
    (hP : P s) {u : State} (e : execLaneStateChangeDone i s = .next u) : P u := by
  unfold execLaneStateChangeDone at e
  refine keep_act hP ?_ e
  clear e
  repeat' first
    | with_reducible assumption
    | with_reducible refine keep_laneDone KR Ko KF Kg Kn ?_
    | split

theorem keep_execLaneStateTimeout (KR : KeepRegs P) (KF : KeepFlt P) (Kg : KeepLog P) (KL : KeepTime P) (Kn : KeepLane P) {i : Fin 10} {s : State}
    (hP : P s) {u : State} (e : execLaneStateTimeout i s = .next u) : P u := by
  unfold execLaneStateTimeout at e
  refine keep_act hP ?_ e
  clear e
  extract_lets x0 x1
  try clear_value x0
  have k1 : P x1 := by
    unfold x1
    repeat' first
      | with_reducible assumption
      | with_reducible refine keep_moveTo KL ?_
  try clear_value x1
  repeat' first
    | with_reducible assumption
    | with_reducible refine Kn.setLn _ _ _ ?_
    | with_reducible refine keep_raise KR KF Kg ?_
    | split

theorem keep_losCount (Ki : KeepRing P) {s : State} {i : Nat} {t : Option Nat}
    (hP : P s)  : P (State.losCount s i t) := by
  unfold State.losCount
  extract_lets x0
  try clear_value x0
  repeat' first
    | with_reducible assumption
    | with_reducible refine keep_setPt Ki ?_
    | split

theorem keep_execLaneLos (KR : KeepRegs P) (KF : KeepFlt P) (Kg : KeepLog P) (Ki : KeepRing P) {i : Fin 10} {s : State}
    (hP : P s) {u : State} (e : execLaneLos i s = .next u) : P u := by
  unfold execLaneLos at e
  refine keep_act hP ?_ e
  clear e
  extract_lets x0 x1
  have k0 : P x0 := by
    unfold x0
    repeat' first
      | with_reducible assumption
      | with_reducible refine keep_setFlag KR ?_
      | with_reducible refine keep_bump KR ?_
  try clear_value x0
  have k1 : P x1 := by
    unfold x1
    repeat' first
      | with_reducible assumption
      | with_reducible refine keep_losCount Ki ?_
  try clear_value x1
  repeat' first
    | with_reducible assumption
    | with_reducible refine keep_setLine KR KF Kg ?_
    | split

theorem keep_execCdrLockLoss (KR : KeepRegs P) (KF : KeepFlt P) (Kg : KeepLog P) {i : Fin 10} {on : Bool} {s : State}
    (hP : P s) {u : State} (e : execCdrLockLoss i on s = .next u) : P u := by
  unfold execCdrLockLoss at e
  refine keep_act hP ?_ e
  clear e
  repeat' first
    | with_reducible assumption
    | with_reducible refine keep_setFlag KR ?_
    | with_reducible refine keep_setLine KR KF Kg ?_
    | with_reducible refine keep_laneQuiet KR KF Kg ?_
    | split

theorem keep_execEyeMeasurement (KR : KeepRegs P) (KF : KeepFlt P) (Kg : KeepLog P) (KL : KeepTime P) (Kn : KeepLane P) {i : Fin 10} {h : Fin 65} {v : Fin 256} {ctle : Fin 16} {taps : BitVec 30} {s : State}
    (hP : P s) {u : State} (e : execEyeMeasurement i h v ctle taps s = .next u) : P u := by
  unfold execEyeMeasurement at e
  refine keep_act hP ?_ e
  clear e
  extract_lets x0 x1 x2 x3 x4 x5 x6 x7
  try clear_value x0
  have k1 : P x1 := by
    unfold x1
    repeat' first
      | with_reducible assumption
      | with_reducible refine keep_moveTo KL ?_
  try clear_value x1
  try clear_value x2
  have k3 : P x3 := by
    unfold x3
    repeat' first
      | with_reducible assumption
      | with_reducible refine KR.setReg _ _ _ ?_
  try clear_value x3
  try clear_value x4
  have k5 : P x5 := by
    unfold x5
    repeat' first
      | with_reducible assumption
      | with_reducible refine Kn.setLn _ _ _ ?_
  try clear_value x5
  have k6 : P x6 := by
    unfold x6
    repeat' first
      | with_reducible assumption
      | with_reducible refine keep_setFlag KR ?_
      | with_reducible refine keep_setLine KR KF Kg ?_
      | split
  try clear_value x6
  have k7 : P x7 := by
    unfold x7
    repeat' first
      | with_reducible assumption
      | with_reducible refine keep_setFld KR ?_
      | split
  try clear_value x7
  repeat' first
    | with_reducible assumption
    | with_reducible refine KR.setReg _ _ _ ?_
    | split

theorem keep_execEqLow (KR : KeepRegs P) (KF : KeepFlt P) (Kg : KeepLog P) {i : Fin 10} {s : State}
    (hP : P s) {u : State} (e : execEqLow i s = .next u) : P u := by
  unfold execEqLow at e
  refine keep_act hP ?_ e
  clear e
  repeat' first
    | with_reducible assumption
    | with_reducible refine keep_setFlag KR ?_
    | with_reducible refine keep_setLine KR KF Kg ?_
    | split

theorem keep_execPllLockLoss (KR : KeepRegs P) (KF : KeepFlt P) (Kg : KeepLog P) {q : Fin 4} {s : State}
    (hP : P s) {u : State} (e : execPllLockLoss q s = .next u) : P u := by
  unfold execPllLockLoss at e
  refine keep_act hP ?_ e
  clear e
  repeat' first
    | with_reducible assumption
    | with_reducible refine keep_setFlag KR ?_
    | with_reducible refine keep_bump KR ?_
    | with_reducible refine keep_raise KR KF Kg ?_
    | split

theorem keep_pllLocked (KR : KeepRegs P) (Ko : KeepOut P) (Kn : KeepLane P) {s : State} {q : Nat}
    (hP : P s)  : P (State.pllLocked s q) := by
  unfold State.pllLocked
  repeat' first
    | with_reducible assumption
    | with_reducible refine keep_setFlag KR ?_
    | with_reducible refine keep_latency Ko Kn ?_
    | (with_reducible refine keep_forEach ?_ ?_)
    | (intro s x hx)
    | split

theorem keep_lanesLost (KR : KeepRegs P) (KF : KeepFlt P) (Kg : KeepLog P) (Kn : KeepLane P) {s : State}
    (hP : P s)  : P (State.lanesLost s) := by
  unfold State.lanesLost
  extract_lets x0
  have k0 : P x0 := by
    unfold x0
    repeat' first
      | with_reducible assumption
      | with_reducible refine keep_setFld KR ?_
      | with_reducible refine keep_setFlag KR ?_
      | with_reducible refine keep_leaveL0 KR KF Kg Kn ?_
      | with_reducible refine keep_laneSlot KR ?_
      | with_reducible refine Kn.setLn _ _ _ ?_
      | (with_reducible refine keep_forEach ?_ ?_)
      | (intro s x hx)
  try clear_value x0
  repeat' first
    | with_reducible assumption
    | with_reducible refine keep_setFlag KR ?_
    | (with_reducible refine keep_forEach ?_ ?_)
    | (intro s x hx)

theorem keep_lanesBack (KR : KeepRegs P) (KF : KeepFlt P) (Kg : KeepLog P) (Kn : KeepLane P) {s : State}
    (hP : P s)  : P (State.lanesBack s) := by
  unfold State.lanesBack
  repeat' first
    | with_reducible assumption
    | with_reducible refine keep_laneStart KR KF Kg Kn ?_
    | (with_reducible refine keep_forEach ?_ ?_)
    | (intro s x hx)
    | split
    | dsimp only

theorem keep_loadTx (KR : KeepRegs P) {s : State} {i : Nat} {rate : Nat}
    (hP : P s)  : P (State.loadTx s i rate) := by
  unfold State.loadTx
  extract_lets x0
  try clear_value x0
  repeat' first
    | with_reducible assumption
    | with_reducible refine KR.setReg _ _ _ ?_

theorem keep_setRate (KR : KeepRegs P) {s : State} {q : Nat} {rate : Nat}
    (hP : P s)  : P (State.setRate s q rate) := by
  unfold State.setRate
  extract_lets x0
  have k0 : P x0 := by
    unfold x0
    repeat' first
      | with_reducible assumption
      | with_reducible refine keep_setFld KR ?_
  try clear_value x0
  repeat' first
    | with_reducible assumption
    | with_reducible refine keep_loadTx KR ?_
    | with_reducible refine KR.setReg _ _ _ ?_
    | (with_reducible refine keep_forEach ?_ ?_)
    | (intro s x hx)
    | split

theorem keep_writeLneGrp (KR : KeepRegs P) {s : State} {q : Nat} {v : Word}
    (hP : P s)  : P (State.writeLneGrp s q v) := by
  unfold State.writeLneGrp
  extract_lets x0 x1 x2
  try clear_value x0
  try clear_value x1
  have k2 : P x2 := by
    unfold x2
    repeat' first
      | with_reducible assumption
      | with_reducible refine keep_writeFlds KR ?_
  try clear_value x2
  repeat' first
    | with_reducible assumption
    | with_reducible refine keep_noteLocked KR ?_
    | with_reducible refine keep_setFlag KR ?_
    | with_reducible refine keep_setRate KR ?_
    | split

theorem keep_execLneGrpRate (KR : KeepRegs P) {q : Fin 4} {v : Word} {s : State}
    (hP : P s) {u : State} (e : execLneGrpRate q v s = .next u) : P u := by
  unfold execLneGrpRate at e
  refine keep_act hP ?_ e
  clear e
  repeat' first
    | with_reducible assumption
    | with_reducible refine keep_writeLneGrp KR ?_

theorem keep_writeLneRxeq (KR : KeepRegs P) {s : State} {i : Nat} {v : Word}
    (hP : P s)  : P (State.writeLneRxeq s i v) := by
  unfold State.writeLneRxeq
  extract_lets x0 x1
  try clear_value x0
  try clear_value x1
  repeat' first
    | with_reducible assumption
    | with_reducible refine keep_writeFlds KR ?_

theorem keep_writeLneTxeq (KR : KeepRegs P) {s : State} {i : Nat} {v : Word}
    (hP : P s)  : P (State.writeLneTxeq s i v) := by
  unfold State.writeLneTxeq
  extract_lets x0 x1 x2
  try clear_value x0
  try clear_value x1
  have k2 : P x2 := by
    unfold x2
    repeat' first
      | with_reducible assumption
      | with_reducible refine keep_setFlag KR ?_
  try clear_value x2
  repeat' first
    | with_reducible assumption
    | with_reducible refine keep_writeFlds KR ?_
    | with_reducible refine keep_noteIgnored KR ?_
    | split

theorem keep_execLneTxeqWrite (KR : KeepRegs P) {i : Fin 10} {v : Word} {s : State}
    (hP : P s) {u : State} (e : execLneTxeqWrite i v s = .next u) : P u := by
  unfold execLneTxeqWrite at e
  refine keep_act hP ?_ e
  clear e
  repeat' first
    | with_reducible assumption
    | with_reducible refine keep_writeLneTxeq KR ?_

end Sys2Proof.Machine
end

