-- ==== Sys2Proof/Laws/KeepLink.lean ====
section
/-! SUPPORT. What the operations of Machine/Link.lean keep (see Laws/Keep.lean). -/
namespace Sys2Proof.Machine
variable {P : State → Prop}

theorem keep_sendLane (Ko : KeepOut P) {s : State} {k : Nat} {j : Nat} {bits : Nat}
    (hP : P s)  : P (State.sendLane s k j bits) := by
  unfold State.sendLane
  repeat' first
    | with_reducible assumption
    | with_reducible refine keep_emit Ko ?_

theorem keep_alignDue (Ko : KeepOut P) (Kl : KeepLnk P) {s : State} {k : Nat}
    (hP : P s)  : P (State.alignDue s k) := by
  unfold State.alignDue
  extract_lets x0 x1
  try clear_value x0
  try clear_value x1
  repeat' first
    | with_reducible assumption
    | with_reducible refine Kl.setLk _ _ _ ?_
    | with_reducible refine keep_sendLane Ko ?_
    | (with_reducible refine keep_forEach ?_ ?_)
    | (intro s x hx)
    | split

theorem keep_countBlock (Kl : KeepLnk P) {s : State} {k : Nat}
    (hP : P s)  : P (State.countBlock s k) := by
  unfold State.countBlock
  extract_lets x0
  try clear_value x0
  repeat' first
    | with_reducible assumption
    | with_reducible refine Kl.setLk _ _ _ ?_

theorem keep_sendBlock (Ko : KeepOut P) (Kl : KeepLnk P) {s : State} {k : Nat} {bits : Nat}
    (hP : P s)  : P (State.sendBlock s k bits) := by
  unfold State.sendBlock
  extract_lets x0
  have k0 : P x0 := by
    unfold x0
    repeat' first
      | with_reducible assumption
      | with_reducible refine keep_alignDue Ko Kl ?_
  try clear_value x0
  repeat' first
    | with_reducible assumption
    | with_reducible refine keep_sendLane Ko ?_
    | with_reducible refine keep_countBlock Kl ?_

theorem keep_sendIdle (Ko : KeepOut P) (Kl : KeepLnk P) {s : State} {k : Nat}
    (hP : P s)  : P (State.sendIdle s k) := by
  unfold State.sendIdle
  repeat' first
    | with_reducible assumption
    | with_reducible refine keep_sendBlock Ko Kl ?_

theorem keep_sendOnLink (Ko : KeepOut P) (Kl : KeepLnk P) {s : State} {k : Nat} {bits : Nat}
    (hP : P s)  : P (State.sendOnLink s k bits) := by
  unfold State.sendOnLink
  repeat' first
    | with_reducible assumption
    | with_reducible refine keep_sendBlock Ko Kl ?_
    | split

theorem keep_sendTime (Ko : KeepOut P) (Kl : KeepLnk P) {s : State} {k : Nat} {bits : Nat}
    (hP : P s)  : P (State.sendTime s k bits) := by
  unfold State.sendTime
  extract_lets x0
  have k0 : P x0 := by
    unfold x0
    repeat' first
      | with_reducible assumption
      | with_reducible refine keep_alignDue Ko Kl ?_
  try clear_value x0
  repeat' first
    | with_reducible assumption
    | with_reducible refine keep_sendIdle Ko Kl ?_
    | with_reducible refine keep_sendBlock Ko Kl ?_
    | (with_reducible refine keep_forEach ?_ ?_)
    | (intro s x hx)
    | split

theorem keep_putCell (Ko : KeepOut P) (Kl : KeepLnk P) {s : State} {k : Nat} {c : LinkCell}
    (hP : P s)  : P (State.putCell s k c) := by
  unfold State.putCell
  extract_lets x0
  have k0 : P x0 := by
    unfold x0
    repeat' first
      | with_reducible assumption
      | with_reducible refine keep_alignDue Ko Kl ?_
  try clear_value x0
  repeat' first
    | with_reducible assumption
    | with_reducible refine keep_alignDue Ko Kl ?_
    | with_reducible refine keep_emit Ko ?_
    | with_reducible refine keep_countBlock Kl ?_
    | (with_reducible refine keep_forEach ?_ ?_)
    | (intro s x hx)
    | split

theorem keep_freeBlocks (Ko : KeepOut P) (Kl : KeepLnk P) {s : State} {k : Nat} {vc : Nat} {n : Nat}
    (hP : P s)  : P (State.freeBlocks s k vc n) := by
  unfold State.freeBlocks
  extract_lets x0 x1
  try clear_value x0
  try clear_value x1
  repeat' first
    | with_reducible assumption
    | with_reducible refine Kl.setLk _ _ _ ?_
    | with_reducible refine keep_sendOnLink Ko Kl ?_
    | split

theorem keep_sendNext (Ko : KeepOut P) (Kl : KeepLnk P) {s u : State} {k : Nat} (h : P s) (e : s.sendNext k = some u) : P u := by
  unfold State.sendNext at e
  dsimp only at e
  split at e
  · cases e
  · injection e with e
    exact e ▸ keep_freeBlocks Ko Kl (keep_putCell Ko Kl (Kl.setLk _ _ _ h))


theorem keep_pump (Ko : KeepOut P) (Kl : KeepLnk P) {s : State} {k n : Nat} (h : P s) : P (s.pump k n) := by
  induction n generalizing s with
  | zero => exact h
  | succ n ih =>
    unfold State.pump
    split
    · exact ih (keep_sendNext Ko Kl h (by assumption))
    · exact h


theorem keep_flushLink (Ko : KeepOut P) (Kl : KeepLnk P) {s : State} {k : Nat}
    (hP : P s)  : P (State.flushLink s k) := by
  unfold State.flushLink
  repeat' first
    | with_reducible assumption
    | with_reducible refine keep_pump Ko Kl ?_
    | split

theorem keep_sendCell (Ko : KeepOut P) (Kl : KeepLnk P) {s : State} {k : Nat} {vc : Nat} {bs : List Byte}
    (hP : P s)  : P (State.sendCell s k vc bs) := by
  unfold State.sendCell
  extract_lets x0
  try clear_value x0
  repeat' first
    | with_reducible assumption
    | with_reducible refine Kl.setLk _ _ _ ?_
    | with_reducible refine keep_flushLink Ko Kl ?_
    | split

theorem keep_settleCredit (Ko : KeepOut P) (Kl : KeepLnk P) {s : State} {k : Nat} {vc : Nat} {n : Nat} {before : Nat}
    (hP : P s)  : P (State.settleCredit s k vc n before) := by
  unfold State.settleCredit
  extract_lets x0
  try clear_value x0
  repeat' first
    | with_reducible assumption
    | with_reducible refine Kl.setLk _ _ _ ?_
    | with_reducible refine keep_freeBlocks Ko Kl ?_
    | split

theorem keep_execPllLocked (KR : KeepRegs P) (Ko : KeepOut P) (Kl : KeepLnk P) (Kn : KeepLane P) {q : Fin 4} {s : State}
    (hP : P s) {u : State} (e : execPllLocked q s = .next u) : P u := by
  unfold execPllLocked at e
  refine keep_act hP ?_ e
  clear e
  repeat' first
    | with_reducible assumption
    | with_reducible refine keep_pllLocked KR Ko Kn ?_
    | with_reducible refine keep_flushLink Ko Kl ?_

theorem keep_sendBoth (Ko : KeepOut P) (Kl : KeepLnk P) {s : State} {vc : Nat} {bs : List Byte}
    (hP : P s)  : P (State.sendBoth s vc bs) := by
  unfold State.sendBoth
  repeat' first
    | with_reducible assumption
    | with_reducible refine keep_sendCell Ko Kl ?_

theorem keep_sendVc1 (Ko : KeepOut P) (Kk : KeepGaps P) (Kl : KeepLnk P) {s : State} {mtype : Nat} {byte0 : Nat} {time : Nat}
    (hP : P s)  : P (State.sendVc1 s mtype byte0 time) := by
  unfold State.sendVc1
  repeat' first
    | with_reducible assumption
    | with_reducible refine keep_sendBoth Ko Kl ?_
    | with_reducible refine Kk.seenTrig _ _ ?_

theorem keep_takeVc1 (Ko : KeepOut P) (Kk : KeepGaps P) (Kl : KeepLnk P) {s : State} {k : Nat} {mtype : Nat} {m : Vc1Msg}
    (hP : P s)  : P (State.takeVc1 s k mtype m).1 := by
  unfold State.takeVc1
  extract_lets x0 x1
  have k0 : P x0 := by
    unfold x0
    repeat' first
      | with_reducible assumption
      | with_reducible refine keep_sendCell Ko Kl ?_
  try clear_value x0
  try clear_value x1
  repeat' first
    | with_reducible assumption
    | split
    | dsimp only
    | with_reducible refine Kk.seenTrig _ _ ?_

end Sys2Proof.Machine
end

