-- ==== Sys2Proof/Laws/KeepTrigger.lean ====
section
/-! SUPPORT. What the operations of Machine/Trigger.lean keep (see Laws/Keep.lean). -/
namespace Sys2Proof.Machine
variable {P : State → Prop}

theorem keep_setCapState (KR : KeepRegs P) {s : State} {b : Nat} {v : Nat}
    (hP : P s)  : P (State.setCapState s b v) := by
  unfold State.setCapState
  repeat' first
    | with_reducible assumption
    | with_reducible refine keep_setFld KR ?_

theorem keep_trigPulse (Ko : KeepOut P) (KS : KeepSpn P) {s : State} {us : Nat}
    (hP : P s)  : P (State.trigPulse s us) := by
  unfold State.trigPulse
  extract_lets x0 x1
  try clear_value x0
  have k1 : P x1 := by
    unfold x1
    repeat' first
      | with_reducible assumption
      | with_reducible refine KS.spn _ _ ?_
  try clear_value x1
  repeat' first
    | with_reducible assumption
    | with_reducible refine keep_emit Ko ?_
    | split

theorem keep_capRearm (KR : KeepRegs P) (Kp : KeepCap P) {s : State} {b : Nat}
    (hP : P s)  : P (State.capRearm s b) := by
  unfold State.capRearm
  extract_lets x0
  try clear_value x0
  repeat' first
    | with_reducible assumption
    | with_reducible refine Kp.setCp _ _ _ ?_
    | with_reducible refine keep_setCapState KR ?_
    | split

theorem keep_capIdleNow (KR : KeepRegs P) (Kp : KeepCap P) {s : State} {b : Nat}
    (hP : P s)  : P (State.capIdleNow s b) := by
  unfold State.capIdleNow
  extract_lets x0 x1
  try clear_value x0
  try clear_value x1
  repeat' first
    | with_reducible assumption
    | with_reducible refine Kp.setCp _ _ _ ?_
    | with_reducible refine keep_setCapState KR ?_

theorem keep_capDisarmNow (KR : KeepRegs P) (Kp : KeepCap P) {s : State} {b : Nat}
    (hP : P s)  : P (State.capDisarmNow s b) := by
  unfold State.capDisarmNow
  extract_lets x0 x1 x2
  try clear_value x0
  have k1 : P x1 := by
    unfold x1
    repeat' first
      | with_reducible assumption
      | with_reducible refine keep_capIdleNow KR Kp ?_
  try clear_value x1
  try clear_value x2
  repeat' first
    | with_reducible assumption
    | with_reducible refine Kp.setCp _ _ _ ?_

theorem keep_capArmNow (KR : KeepRegs P) (Kp : KeepCap P) {s : State} {b : Nat} {t : Nat}
    (hP : P s)  : P (State.capArmNow s b t) := by
  unfold State.capArmNow
  extract_lets x0
  try clear_value x0
  repeat' first
    | with_reducible assumption
    | with_reducible refine Kp.setCp _ _ _ ?_
    | with_reducible refine keep_capRearm KR Kp ?_

theorem keep_capSync (KR : KeepRegs P) (Kp : KeepCap P) {s : State} {b : Nat}
    (hP : P s)  : P (State.capSync s b) := by
  unfold State.capSync
  extract_lets x0
  have k0 : P x0 := by
    unfold x0
    repeat' first
      | with_reducible assumption
      | with_reducible refine keep_capDisarmNow KR Kp ?_
      | split
  try clear_value x0
  repeat' first
    | with_reducible assumption
    | with_reducible refine keep_capArmNow KR Kp ?_
    | split

theorem keep_capSyncAll (KR : KeepRegs P) (Kp : KeepCap P) {s : State}
    (hP : P s)  : P (State.capSyncAll s) := by
  unfold State.capSyncAll
  repeat' first
    | with_reducible assumption
    | with_reducible refine keep_capSync KR Kp ?_
    | (with_reducible refine keep_forEach ?_ ?_)
    | (intro s x hx)

theorem keep_offerEvent (KR : KeepRegs P) (KF : KeepFlt P) (Kg : KeepLog P) (Kp : KeepCap P) {s : State} {b : Nat} {e : CapEvent}
    (hP : P s)  : P (State.offerEvent s b e) := by
  unfold State.offerEvent
  extract_lets x0 x1 x2
  try clear_value x0
  try clear_value x1
  have k2 : P x2 := by
    unfold x2
    repeat' first
      | with_reducible assumption
      | with_reducible refine Kp.setCp _ _ _ ?_
  try clear_value x2
  repeat' first
    | with_reducible assumption
    | with_reducible refine keep_setFlag KR ?_
    | with_reducible refine keep_raise KR KF Kg ?_
    | split

theorem keep_ringEvent (KR : KeepRegs P) (Ko : KeepOut P) (KF : KeepFlt P) (Kg : KeepLog P) (KS : KeepSpn P) (Kp : KeepCap P) {s : State} {line : Nat} {time : Nat} {origin : Nat}
    (hP : P s)  : P (State.ringEvent s line time origin) := by
  unfold State.ringEvent
  extract_lets x0
  have k0 : P x0 := by
    unfold x0
    repeat' first
      | with_reducible assumption
      | with_reducible refine keep_trigPulse Ko KS ?_
      | split
  try clear_value x0
  repeat' first
    | with_reducible assumption
    | with_reducible refine keep_capSync KR Kp ?_
    | with_reducible refine keep_offerEvent KR KF Kg Kp ?_
    | (with_reducible refine keep_forEach ?_ ?_)
    | (intro s x hx)

theorem keep_sendTrigger (KR : KeepRegs P) (Ko : KeepOut P) (KF : KeepFlt P) (Kg : KeepLog P) (KS : KeepSpn P) (Kp : KeepCap P) (Kk : KeepGaps P) (Kl : KeepLnk P) {s : State} {line : Nat} {time : Nat}
    (hP : P s)  : P (State.sendTrigger s line time) := by
  unfold State.sendTrigger
  extract_lets x0 x1 x2
  try clear_value x0
  have k1 : P x1 := by
    unfold x1
    repeat' first
      | with_reducible assumption
      | with_reducible refine Kk.seenTrig _ _ ?_
  try clear_value x1
  have k2 : P x2 := by
    unfold x2
    repeat' first
      | with_reducible assumption
      | with_reducible refine keep_sendVc1 Ko Kk Kl ?_
  try clear_value x2
  repeat' first
    | with_reducible assumption
    | with_reducible refine keep_ringEvent KR Ko KF Kg KS Kp ?_
    | split

theorem keep_forwardEvent (KR : KeepRegs P) (Ko : KeepOut P) (KF : KeepFlt P) (Kg : KeepLog P) (KS : KeepSpn P) (Kp : KeepCap P) (Kk : KeepGaps P) (Kl : KeepLnk P) {s : State} {b : Nat} {e : CapEvent}
    (hP : P s)  : P (State.forwardEvent s b e) := by
  unfold State.forwardEvent
  repeat' first
    | with_reducible assumption
    | with_reducible refine keep_sendTrigger KR Ko KF Kg KS Kp Kk Kl ?_
    | (with_reducible refine keep_forEach ?_ ?_)
    | (intro s x hx)
    | split

theorem keep_capEventOne (KR : KeepRegs P) (Ko : KeepOut P) (KF : KeepFlt P) (Kg : KeepLog P) (KS : KeepSpn P) (Kp : KeepCap P) (Kk : KeepGaps P) (Kl : KeepLnk P) {s : State} {b : Nat} {e : CapEvent}
    (hP : P s)  : P (State.capEventOne s b e) := by
  unfold State.capEventOne
  repeat' first
    | with_reducible assumption
    | with_reducible refine keep_capSync KR Kp ?_
    | with_reducible refine keep_offerEvent KR KF Kg Kp ?_
    | with_reducible refine keep_forwardEvent KR Ko KF Kg KS Kp Kk Kl ?_

theorem keep_capEvent (KR : KeepRegs P) (Ko : KeepOut P) (KF : KeepFlt P) (Kg : KeepLog P) (KS : KeepSpn P) (Kp : KeepCap P) (Kk : KeepGaps P) (Kl : KeepLnk P) {s : State} {typ : Nat} {param : Nat} {time : Nat}
    (hP : P s)  : P (State.capEvent s typ param time) := by
  unfold State.capEvent
  repeat' first
    | with_reducible assumption
    | with_reducible refine keep_capEventOne KR Ko KF Kg KS Kp Kk Kl ?_
    | (with_reducible refine keep_forEach ?_ ?_)
    | (intro s x hx)

theorem keep_acceptRing (KR : KeepRegs P) (Ko : KeepOut P) (KF : KeepFlt P) (Kg : KeepLog P) (KS : KeepSpn P) (Kp : KeepCap P) (Kk : KeepGaps P) (Kl : KeepLnk P) {s : State} {line : Nat} {time : Nat} {origin : Nat}
    (hP : P s)  : P (State.acceptRing s line time origin) := by
  unfold State.acceptRing
  repeat' first
    | with_reducible assumption
    | with_reducible refine keep_ringEvent KR Ko KF Kg KS Kp ?_
    | with_reducible refine keep_forwardEvent KR Ko KF Kg KS Kp Kk Kl ?_
    | (with_reducible refine keep_forEach ?_ ?_)
    | (intro s x hx)

theorem keep_levelForward (KR : KeepRegs P) (Ko : KeepOut P) (KF : KeepFlt P) (Kg : KeepLog P) (KS : KeepSpn P) (Kp : KeepCap P) (Kk : KeepGaps P) (Kl : KeepLnk P) {s : State} {n : Nat} {tap : Nat} {name : Nat} {v : Int} {q : Nat}
    (hP : P s)  : P (State.levelForward s n tap name v q) := by
  unfold State.levelForward
  repeat' first
    | with_reducible assumption
    | with_reducible refine keep_capSync KR Kp ?_
    | with_reducible refine Kp.setCp _ _ _ ?_
    | with_reducible refine keep_sendTrigger KR Ko KF Kg KS Kp Kk Kl ?_
    | (with_reducible refine keep_forEach ?_ ?_)
    | (intro s x hx)
    | split
    | dsimp only

end Sys2Proof.Machine
end

