-- ==== Sys2Proof/Laws/KeepCapture.lean ====
section
/-! SUPPORT. What the operations of Machine/Capture.lean keep (see Laws/Keep.lean). -/
namespace Sys2Proof.Machine
variable {P : State → Prop}

theorem keep_refuseArm (KR : KeepRegs P) (KF : KeepFlt P) (Kg : KeepLog P) {s : State} {b : Nat} {cause : Nat}
    (hP : P s)  : P (State.refuseArm s b cause) := by
  unfold State.refuseArm
  repeat' first
    | with_reducible assumption
    | with_reducible refine keep_setFlag KR ?_
    | with_reducible refine keep_setFld KR ?_
    | with_reducible refine keep_raise KR KF Kg ?_

theorem keep_capArm (KR : KeepRegs P) (KF : KeepFlt P) (Kg : KeepLog P) (Kp : KeepCap P) {s : State} {b : Nat}
    (hP : P s)  : P (State.capArm s b) := by
  unfold State.capArm
  extract_lets x0 x1 x2
  try clear_value x0
  try clear_value x1
  try clear_value x2
  repeat' first
    | with_reducible assumption
    | with_reducible refine keep_refuseArm KR KF Kg ?_
    | with_reducible refine Kp.setCp _ _ _ ?_
    | split

theorem keep_capDisarm (Kp : KeepCap P) {s : State} {b : Nat}
    (hP : P s)  : P (State.capDisarm s b) := by
  unfold State.capDisarm
  extract_lets x0 x1
  try clear_value x0
  try clear_value x1
  repeat' first
    | with_reducible assumption
    | with_reducible refine Kp.setCp _ _ _ ?_
    | split

theorem keep_showRdq (KR : KeepRegs P) {s : State} {b : Nat}
    (hP : P s)  : P (State.showRdq s b) := by
  unfold State.showRdq
  extract_lets x0
  have k0 : P x0 := by
    unfold x0
    repeat' first
      | with_reducible assumption
      | with_reducible refine keep_setFld KR ?_
  try clear_value x0
  repeat' first
    | with_reducible assumption
    | with_reducible refine keep_setFld KR ?_
    | with_reducible refine keep_setFlag KR ?_
    | split

theorem keep_capFreed (KR : KeepRegs P) (Kp : KeepCap P) {s : State} {b : Nat}
    (hP : P s)  : P (State.capFreed s b) := by
  unfold State.capFreed
  extract_lets x0 x1
  try clear_value x0
  have k1 : P x1 := by
    unfold x1
    repeat' first
      | with_reducible assumption
      | with_reducible refine Kp.setCp _ _ _ ?_
      | with_reducible refine keep_showRdq KR ?_
  try clear_value x1
  repeat' first
    | with_reducible assumption
    | with_reducible refine keep_capRearm KR Kp ?_
    | split

theorem keep_capRel (KR : KeepRegs P) (Kp : KeepCap P) {s : State} {b : Nat}
    (hP : P s)  : P (State.capRel s b) := by
  unfold State.capRel
  extract_lets x0
  try clear_value x0
  repeat' first
    | with_reducible assumption
    | with_reducible refine Kp.setCp _ _ _ ?_
    | with_reducible refine keep_capFreed KR Kp ?_
    | split

theorem keep_capSoft (KR : KeepRegs P) (Ko : KeepOut P) (KF : KeepFlt P) (Kg : KeepLog P) (KS : KeepSpn P) (Kp : KeepCap P) (Kk : KeepGaps P) (Kl : KeepLnk P) {s : State} {b : Nat}
    (hP : P s)  : P (State.capSoft s b) := by
  unfold State.capSoft
  repeat' first
    | with_reducible assumption
    | with_reducible refine keep_capEventOne KR Ko KF Kg KS Kp Kk Kl ?_

theorem keep_writeCapCtrl (KR : KeepRegs P) (Ko : KeepOut P) (KF : KeepFlt P) (Kg : KeepLog P) (KS : KeepSpn P) (Kp : KeepCap P) (Kk : KeepGaps P) (Kl : KeepLnk P) {s : State} {b : Nat} {v : Word}
    (hP : P s)  : P (State.writeCapCtrl s b v) := by
  unfold State.writeCapCtrl
  extract_lets x0 x1 x2 x3
  have k0 : P x0 := by
    unfold x0
    repeat' first
      | with_reducible assumption
      | with_reducible refine keep_capSync KR Kp ?_
      | with_reducible refine keep_writeFlds KR ?_
  try clear_value x0
  have k1 : P x1 := by
    unfold x1
    repeat' first
      | with_reducible assumption
      | with_reducible refine keep_capRel KR Kp ?_
      | split
  try clear_value x1
  have k2 : P x2 := by
    unfold x2
    repeat' first
      | with_reducible assumption
      | with_reducible refine keep_capDisarm Kp ?_
      | split
  try clear_value x2
  have k3 : P x3 := by
    unfold x3
    repeat' first
      | with_reducible assumption
      | with_reducible refine keep_capArm KR KF Kg Kp ?_
      | split
  try clear_value x3
  repeat' first
    | with_reducible assumption
    | with_reducible refine keep_capSoft KR Ko KF Kg KS Kp Kk Kl ?_
    | split

theorem keep_execCapCtrlArm (KR : KeepRegs P) (Ko : KeepOut P) (KF : KeepFlt P) (Kg : KeepLog P) (KS : KeepSpn P) (Kp : KeepCap P) (Kk : KeepGaps P) (Kl : KeepLnk P) {b : Fin 16} {v : Word} {s : State}
    (hP : P s) {u : State} (e : execCapCtrlArm b v s = .next u) : P u := by
  unfold execCapCtrlArm at e
  refine keep_act hP ?_ e
  clear e
  repeat' first
    | with_reducible assumption
    | with_reducible refine keep_writeCapCtrl KR Ko KF Kg KS Kp Kk Kl ?_

theorem keep_execCapCtrlDisarm (KR : KeepRegs P) (Ko : KeepOut P) (KF : KeepFlt P) (Kg : KeepLog P) (KS : KeepSpn P) (Kp : KeepCap P) (Kk : KeepGaps P) (Kl : KeepLnk P) {b : Fin 16} {v : Word} {s : State}
    (hP : P s) {u : State} (e : execCapCtrlDisarm b v s = .next u) : P u := by
  unfold execCapCtrlDisarm at e
  refine keep_act hP ?_ e
  clear e
  repeat' first
    | with_reducible assumption
    | with_reducible refine keep_writeCapCtrl KR Ko KF Kg KS Kp Kk Kl ?_

theorem keep_execCapCtrlSoft (KR : KeepRegs P) (Ko : KeepOut P) (KF : KeepFlt P) (Kg : KeepLog P) (KS : KeepSpn P) (Kp : KeepCap P) (Kk : KeepGaps P) (Kl : KeepLnk P) {b : Fin 16} {v : Word} {s : State}
    (hP : P s) {u : State} (e : execCapCtrlSoft b v s = .next u) : P u := by
  unfold execCapCtrlSoft at e
  refine keep_act hP ?_ e
  clear e
  repeat' first
    | with_reducible assumption
    | with_reducible refine keep_writeCapCtrl KR Ko KF Kg KS Kp Kk Kl ?_

theorem keep_execCapCtrlRel (KR : KeepRegs P) (Ko : KeepOut P) (KF : KeepFlt P) (Kg : KeepLog P) (KS : KeepSpn P) (Kp : KeepCap P) (Kk : KeepGaps P) (Kl : KeepLnk P) {b : Fin 16} {v : Word} {s : State}
    (hP : P s) {u : State} (e : execCapCtrlRel b v s = .next u) : P u := by
  unfold execCapCtrlRel at e
  refine keep_act hP ?_ e
  clear e
  repeat' first
    | with_reducible assumption
    | with_reducible refine keep_writeCapCtrl KR Ko KF Kg KS Kp Kk Kl ?_

theorem keep_capAllocCheck (KR : KeepRegs P) {s : State} {b : Nat}
    (hP : P s)  : P (State.capAllocCheck s b) := by
  unfold State.capAllocCheck
  repeat' first
    | with_reducible assumption
    | with_reducible refine keep_setFlag KR ?_

theorem keep_execCaptureAllocTakesEffect (KR : KeepRegs P) {b : Fin 16} {s : State}
    (hP : P s) {u : State} (e : execCaptureAllocTakesEffect b s = .next u) : P u := by
  unfold execCaptureAllocTakesEffect at e
  refine keep_act hP ?_ e
  clear e
  repeat' first
    | with_reducible assumption
    | with_reducible refine keep_capAllocCheck KR ?_

theorem keep_capPutRow (KM : KeepMem P) {s : State} {b : Nat} {q : Nat} {pos : Nat} {r : CapRow}
    (hP : P s)  : P (State.capPutRow s b q pos r) := by
  unfold State.capPutRow
  repeat' first
    | with_reducible assumption
    | with_reducible refine keep_setBytes KM ?_

theorem keep_capLevelsMet (Kp : KeepCap P) {s : State} {b : Nat} {name : Nat}
    (hP : P s)  : P (State.capLevelsMet s b name).1 := by
  unfold State.capLevelsMet
  suffices hh : ∀ (l : List Nat) (a : State × List Nat), P a.1 →
      P (l.foldl (fun (a : State × List Nat) i =>
        (a.1.setCp b (a.1.capLevel b name i).2, if (a.1.capLevel b name i).1 then a.2 ++ [i] else a.2)) a).1 from hh _ _ hP
  intro l
  induction l with
  | nil => intro a ha; exact ha
  | cons i t ih => intro a ha; exact ih _ (Kp.setCp _ _ _ ha)


theorem keep_capLose (KR : KeepRegs P) (KF : KeepFlt P) (Kg : KeepLog P) (Kp : KeepCap P) {s : State} {b : Nat} {tlt : Nat}
    (hP : P s)  : P (State.capLose s b tlt) := by
  unfold State.capLose
  extract_lets x0 x1 x2
  try clear_value x0
  have k1 : P x1 := by
    unfold x1
    repeat' first
      | with_reducible assumption
      | with_reducible refine keep_bump KR ?_
  try clear_value x1
  have k2 : P x2 := by
    unfold x2
    repeat' first
      | with_reducible assumption
      | with_reducible refine keep_setSt KR ?_
      | split
  try clear_value x2
  repeat' first
    | with_reducible assumption
    | with_reducible refine Kp.setCp _ _ _ ?_
    | with_reducible refine keep_raise KR KF Kg ?_

theorem keep_capReclaim (KR : KeepRegs P) (KF : KeepFlt P) (Kg : KeepLog P) (Kp : KeepCap P) {s : State} {b : Nat}
    (hP : P s) {u : State × Nat} (e : State.capReclaim s b = some u) : P u.1 := by
  unfold State.capReclaim at e
  dsimp only at e
  split at e
  · split at e
    · injection e with e
      exact e ▸ keep_raise KR KF Kg (keep_bump KR (keep_showRdq KR (Kp.setCp _ _ _ hP)))
    · cases e
  · cases e


theorem keep_capStart (KR : KeepRegs P) (Ko : KeepOut P) (KF : KeepFlt P) (KM : KeepMem P) (Kg : KeepLog P) (KS : KeepSpn P) (Kp : KeepCap P) (Kk : KeepGaps P) (Kl : KeepLnk P) {s : State} {b : Nat} {q : Nat} {name : Nat} {mets : List Nat} {evs : List CapEvent} {row : CapRow}
    (hP : P s)  : P (State.capStart s b q name mets evs row) := by
  unfold State.capStart
  extract_lets x0 x1 x2 x3 x4 x5
  try clear_value x0
  try clear_value x1
  try clear_value x2
  try clear_value x3
  try clear_value x4
  try clear_value x5
  repeat' first
    | with_reducible assumption
    | with_reducible refine Kp.setCp _ _ _ ?_
    | with_reducible refine keep_capPutRow KM ?_
    | with_reducible refine keep_setCapState KR ?_
    | with_reducible refine keep_setSt KR ?_
    | with_reducible refine keep_trigPulse Ko KS ?_
    | with_reducible refine keep_capEvent KR Ko KF Kg KS Kp Kk Kl ?_
    | split

theorem keep_capLastRow (Kp : KeepCap P) {s : State} {b : Nat}
    (hP : P s)  : P (State.capLastRow s b) := by
  unfold State.capLastRow
  extract_lets x0
  try clear_value x0
  repeat' first
    | with_reducible assumption
    | with_reducible refine Kp.setCp _ _ _ ?_
    | split

theorem keep_capLevelsSend (KR : KeepRegs P) (Ko : KeepOut P) (KF : KeepFlt P) (Kg : KeepLog P) (KS : KeepSpn P) (Kp : KeepCap P) (Kk : KeepGaps P) (Kl : KeepLnk P) {s : State} {b : Nat} {name : Nat} {lv : List Nat}
    (hP : P s)  : P (State.capLevelsSend s b name lv) := by
  unfold State.capLevelsSend
  repeat' first
    | with_reducible assumption
    | with_reducible refine keep_sendTrigger KR Ko KF Kg KS Kp Kk Kl ?_
    | (with_reducible refine keep_forEach ?_ ?_)
    | (intro s x hx)
    | split

theorem keep_capDecide (KR : KeepRegs P) (Ko : KeepOut P) (KF : KeepFlt P) (KM : KeepMem P) (Kg : KeepLog P) (KS : KeepSpn P) (Kp : KeepCap P) (Kk : KeepGaps P) (Kl : KeepLnk P) {s : State} {b : Nat} {name : Nat} {evs : List CapEvent}
    (hP : P s)  : P (State.capDecide s b name evs) := by
  unfold State.capDecide
  extract_lets x0
  try clear_value x0
  repeat' first
    | with_reducible assumption
    | with_reducible refine keep_capLevelsMet Kp ?_
    | with_reducible refine keep_capLevelsSend KR Ko KF Kg KS Kp Kk Kl ?_
    | with_reducible refine keep_capPutRow KM ?_
    | with_reducible refine Kp.setCp _ _ _ ?_
    | with_reducible refine keep_capStart KR Ko KF KM Kg KS Kp Kk Kl ?_
    | with_reducible refine keep_capLastRow Kp ?_
    | with_reducible refine keep_bumpBy KR ?_
    | with_reducible refine keep_capLose KR KF Kg Kp ?_
    | with_reducible refine keep_capReclaim KR KF Kg Kp (u := (_, _)) ?_ (by assumption)
    | with_reducible refine keep_fst (by assumption) ?_
    | split
    | dsimp only

theorem keep_capMissing (Kp : KeepCap P) {s : State} {b : Nat}
    (hP : P s)  : P (State.capMissing s b) := by
  unfold State.capMissing
  extract_lets x0 x1
  try clear_value x0
  try clear_value x1
  repeat' first
    | with_reducible assumption
    | with_reducible refine Kp.setCp _ _ _ ?_
    | split

theorem keep_decideRow (KR : KeepRegs P) (Ko : KeepOut P) (KF : KeepFlt P) (KM : KeepMem P) (Kg : KeepLog P) (KS : KeepSpn P) (Kp : KeepCap P) (Kk : KeepGaps P) (Kl : KeepLnk P) {s : State} {b : Nat} {r : Nat} {p : Nat}
    (hP : P s)  : P (State.decideRow s b r p) := by
  unfold State.decideRow
  extract_lets x0 x1 x2 x3
  try clear_value x0
  try clear_value x1
  try clear_value x2
  have k3 : P x3 := by
    unfold x3
    repeat' first
      | with_reducible assumption
      | with_reducible refine Kp.setCp _ _ _ ?_
  try clear_value x3
  repeat' first
    | with_reducible assumption
    | with_reducible refine keep_capDecide KR Ko KF KM Kg KS Kp Kk Kl ?_
    | with_reducible refine keep_capMissing Kp ?_
    | split

theorem keep_rowDecision (KR : KeepRegs P) (Ko : KeepOut P) (KF : KeepFlt P) (KM : KeepMem P) (Kg : KeepLog P) (KL : KeepTime P) (KS : KeepSpn P) (Kp : KeepCap P) (Kk : KeepGaps P) (Kl : KeepLnk P) {s : State} {b : Nat}
    (hP : P s)  : P (State.rowDecision s b) := by
  unfold State.rowDecision
  extract_lets x0 x1 x2 x3
  have k0 : P x0 := by
    unfold x0
    repeat' first
      | with_reducible assumption
      | with_reducible refine keep_capSync KR Kp ?_
  try clear_value x0
  try clear_value x1
  try clear_value x2
  have k3 : P x3 := by
    unfold x3
    repeat' first
      | with_reducible assumption
      | with_reducible refine keep_capSync KR Kp ?_
      | with_reducible refine keep_moveTo KL ?_
  try clear_value x3
  repeat' first
    | with_reducible assumption
    | with_reducible refine keep_decideRow KR Ko KF KM Kg KS Kp Kk Kl ?_
    | split

theorem keep_execRowDecision (KR : KeepRegs P) (Ko : KeepOut P) (KF : KeepFlt P) (KM : KeepMem P) (Kg : KeepLog P) (KL : KeepTime P) (KS : KeepSpn P) (Kp : KeepCap P) (Kk : KeepGaps P) (Kl : KeepLnk P) {b : Fin 16} {s : State}
    (hP : P s) {u : State} (e : execRowDecision b s = .next u) : P u := by
  unfold execRowDecision at e
  refine keep_act hP ?_ e
  clear e
  repeat' first
    | with_reducible assumption
    | with_reducible refine keep_rowDecision KR Ko KF KM Kg KL KS Kp Kk Kl ?_

theorem keep_recordComplete (KR : KeepRegs P) (Ko : KeepOut P) (KF : KeepFlt P) (KM : KeepMem P) (Kg : KeepLog P) (Kb : KeepStr P) (Kp : KeepCap P) {s : State} {b : Nat}
    (hP : P s)  : P (State.recordComplete s b) := by
  unfold State.recordComplete
  extract_lets x0 x1
  try clear_value x0
  try clear_value x1
  repeat' first
    | with_reducible assumption
    | with_reducible refine keep_setBytes KM ?_
    | with_reducible refine Kp.setCp _ _ _ ?_
    | with_reducible refine KR.setReg _ _ _ ?_
    | with_reducible refine keep_route KR Ko KF KM Kg Kb ?_
    | with_reducible refine keep_setCapState KR ?_
    | with_reducible refine keep_capFreed KR Kp ?_
    | split

theorem keep_execCaptureRecordComplete (KR : KeepRegs P) (Ko : KeepOut P) (KF : KeepFlt P) (KM : KeepMem P) (Kg : KeepLog P) (Kb : KeepStr P) (Kp : KeepCap P) {b : Fin 16} {s : State}
    (hP : P s) {u : State} (e : execCaptureRecordComplete b s = .next u) : P u := by
  unfold execCaptureRecordComplete at e
  refine keep_act hP ?_ e
  clear e
  repeat' first
    | with_reducible assumption
    | with_reducible refine keep_capSync KR Kp ?_
    | with_reducible refine keep_recordComplete KR Ko KF KM Kg Kb Kp ?_

theorem keep_capHoldEnd (KR : KeepRegs P) (Kp : KeepCap P) {s : State} {b : Nat}
    (hP : P s)  : P (State.capHoldEnd s b) := by
  unfold State.capHoldEnd
  repeat' first
    | with_reducible assumption
    | with_reducible refine keep_capRearm KR Kp ?_
    | split

theorem keep_execCaptureHoldEnd (KR : KeepRegs P) (Kp : KeepCap P) {b : Fin 16} {s : State}
    (hP : P s) {u : State} (e : execCaptureHoldEnd b s = .next u) : P u := by
  unfold execCaptureHoldEnd at e
  refine keep_act hP ?_ e
  clear e
  repeat' first
    | with_reducible assumption
    | with_reducible refine keep_capSync KR Kp ?_
    | with_reducible refine keep_capHoldEnd KR Kp ?_

theorem keep_capRegionConflict (KR : KeepRegs P) (KF : KeepFlt P) (Kg : KeepLog P) (Kp : KeepCap P) {s : State} {g : Nat}
    (hP : P s)  : P (State.capRegionConflict s g) := by
  unfold State.capRegionConflict
  repeat' first
    | with_reducible assumption
    | with_reducible refine keep_capSync KR Kp ?_
    | with_reducible refine keep_capIdleNow KR Kp ?_
    | with_reducible refine keep_refuseArm KR KF Kg ?_
    | (with_reducible refine keep_forEach ?_ ?_)
    | (intro s x hx)
    | split
    | dsimp only

theorem keep_execTrigInEdge (KR : KeepRegs P) (Ko : KeepOut P) (KF : KeepFlt P) (Kg : KeepLog P) (KS : KeepSpn P) (Kp : KeepCap P) (Kk : KeepGaps P) (Kl : KeepLnk P) {falling : Bool} {ph : Phase} {s : State}
    (hP : P s) {u : State} (e : execTrigInEdge falling ph s = .next u) : P u := by
  unfold execTrigInEdge at e
  refine keep_act hP ?_ e
  clear e
  repeat' first
    | with_reducible assumption
    | with_reducible refine keep_capEvent KR Ko KF Kg KS Kp Kk Kl ?_
    | split

theorem keep_ringTrigger (KR : KeepRegs P) (Ko : KeepOut P) (KF : KeepFlt P) (Kg : KeepLog P) (KS : KeepSpn P) (Kp : KeepCap P) (Kk : KeepGaps P) (Kl : KeepLnk P) {s : State} {k : Nat} {m : Vc1Msg}
    (hP : P s)  : P (State.ringTrigger s k m) := by
  unfold State.ringTrigger
  extract_lets x0
  try clear_value x0
  repeat' first
    | with_reducible assumption
    | with_reducible refine keep_takeVc1 Ko Kk Kl ?_
    | with_reducible refine keep_acceptRing KR Ko KF Kg KS Kp Kk Kl ?_
    | with_reducible refine keep_fst (by assumption) ?_
    | split

theorem keep_execRingTriggerRx (KR : KeepRegs P) (Ko : KeepOut P) (KF : KeepFlt P) (Kg : KeepLog P) (KS : KeepSpn P) (Kp : KeepCap P) (Kk : KeepGaps P) (Kl : KeepLnk P) {k : Fin 2} {m : Vc1Msg} {s : State}
    (hP : P s) {u : State} (e : execRingTriggerRx k m s = .next u) : P u := by
  unfold execRingTriggerRx at e
  refine keep_act hP ?_ e
  clear e
  repeat' first
    | with_reducible assumption
    | with_reducible refine keep_ringTrigger KR Ko KF Kg KS Kp Kk Kl ?_

end Sys2Proof.Machine
end

