-- ==== Sys2Proof/Laws/KeepChain.lean ====
section
/-! SUPPORT. What the operations of Machine/Chain.lean keep (see Laws/Keep.lean). -/
namespace Sys2Proof.Machine
variable {P : State → Prop}

theorem keep_showOut (KR : KeepRegs P) {s : State} {n : Nat}
    (hP : P s)  : P (State.showOut s n) := by
  unfold State.showOut
  extract_lets x0 x1
  try clear_value x0
  try clear_value x1
  repeat' first
    | with_reducible assumption
    | with_reducible refine KR.setReg _ _ _ ?_
    | with_reducible refine keep_setSt KR ?_
    | (with_reducible refine keep_forEach ?_ ?_)
    | (intro s x hx)
    | split

theorem keep_pushTap (KR : KeepRegs P) (Ko : KeepOut P) (KF : KeepFlt P) (Kg : KeepLog P) (KS : KeepSpn P) (Kh : KeepChan P) (Kp : KeepCap P) (Kk : KeepGaps P) (Kl : KeepLnk P) {s : State} {n : Nat} {v : TapVal}
    (hP : P s)  : P (State.pushTap s n v) := by
  unfold State.pushTap
  extract_lets x0 x1 x2 x3 x4
  try clear_value x0
  try clear_value x1
  try clear_value x2
  have k3 : P x3 := by
    unfold x3
    repeat' first
      | with_reducible assumption
      | with_reducible refine Kh.setCh _ _ _ ?_
  try clear_value x3
  have k4 : P x4 := by
    unfold x4
    repeat' first
      | with_reducible assumption
      | with_reducible refine keep_showOut KR ?_
      | split
  try clear_value x4
  repeat' first
    | with_reducible assumption
    | with_reducible refine keep_levelForward KR Ko KF Kg KS Kp Kk Kl ?_

theorem keep_noteSat (KR : KeepRegs P) (KF : KeepFlt P) (Kg : KeepLog P) {s : State} {n : Nat} {already : Bool} {sat : Bool}
    (hP : P s)  : P (State.noteSat s n already sat) := by
  unfold State.noteSat
  repeat' first
    | with_reducible assumption
    | with_reducible refine keep_raise KR KF Kg ?_
    | split

theorem keep_setSwCount (Kh : KeepChan P) {s : State} {n : Nat} {w : Nat} {k : Nat}
    (hP : P s)  : P (State.setSwCount s n w k) := by
  unfold State.setSwCount
  extract_lets x0 x1
  try clear_value x0
  try clear_value x1
  repeat' first
    | with_reducible assumption
    | with_reducible refine Kh.setCh _ _ _ ?_

theorem keep_swEval (Kh : KeepChan P) {s : State} {n : Nat} {w : Nat} {name : Nat} {wide : Int} {q : Nat}
    (hP : P s)  : P (State.swEval s n w name wide q) := by
  unfold State.swEval
  extract_lets x0 x1 x2 x3 x4 x5 x6 x7 x8
  try clear_value x0
  try clear_value x1
  try clear_value x2
  have k3 : ∀ (s : State) a0, P s → P (x3 s a0) := by
    intro s a0 h
    unfold x3
    repeat' first
      | with_reducible assumption
      | with_reducible refine keep_setSwCount Kh ?_
      | with_reducible refine Kh.setCh _ _ _ ?_
  try clear_value x3
  try clear_value x4
  have k5 : P x5 := by
    unfold x5
    repeat' first
      | with_reducible assumption
      | with_reducible refine keep_setSwCount Kh ?_
  try clear_value x5
  try clear_value x6
  try clear_value x7
  try clear_value x8
  repeat' first
    | with_reducible assumption
    | with_reducible refine k3 _ _  ?_
    | with_reducible refine keep_setSwCount Kh ?_
    | split

theorem keep_driveSw (Ko : KeepOut P) {s : State} {n : Nat} {w : Nat}
    (hP : P s)  : P (State.driveSw s n w) := by
  unfold State.driveSw
  repeat' first
    | with_reducible assumption
    | with_reducible refine keep_emit Ko ?_
    | (with_reducible refine keep_forEach ?_ ?_)
    | (intro s x hx)
    | split

theorem keep_swChange (KR : KeepRegs P) (Ko : KeepOut P) (KF : KeepFlt P) (KM : KeepMem P) (Kg : KeepLog P) (KS : KeepSpn P) (Kb : KeepStr P) (Kp : KeepCap P) (Kk : KeepGaps P) (Kl : KeepLnk P) {s : State} {n : Nat} {w : Nat} {dst : Bool} {name : Nat} {wide : Int} {q : Nat}
    (hP : P s)  : P (State.swChange s n w dst name wide q) := by
  unfold State.swChange
  extract_lets x0 x1 x2 x3 x4
  try clear_value x0
  try clear_value x1
  have k2 : P x2 := by
    unfold x2
    repeat' first
      | with_reducible assumption
      | with_reducible refine keep_setFld KR ?_
      | with_reducible refine keep_bump KR ?_
  try clear_value x2
  have k3 : P x3 := by
    unfold x3
    repeat' first
      | with_reducible assumption
      | with_reducible refine keep_driveSw Ko ?_
  try clear_value x3
  have k4 : P x4 := by
    unfold x4
    repeat' first
      | with_reducible assumption
      | with_reducible refine keep_capEvent KR Ko KF Kg KS Kp Kk Kl ?_
  try clear_value x4
  repeat' first
    | with_reducible assumption
    | with_reducible refine keep_raise KR KF Kg ?_
    | with_reducible refine keep_recordCh KR Ko KF KM Kg Kb ?_
    | split

theorem keep_swCheck (KR : KeepRegs P) (Ko : KeepOut P) (KF : KeepFlt P) (KM : KeepMem P) (Kg : KeepLog P) (KS : KeepSpn P) (Kh : KeepChan P) (Kb : KeepStr P) (Kp : KeepCap P) (Kk : KeepGaps P) (Kl : KeepLnk P) {s : State} {n : Nat} {w : Nat}
    (hP : P s)  : P (State.swCheck s n w) := by
  unfold State.swCheck
  extract_lets x0 x1 x2 x3 x4 x5 x6 x7
  try clear_value x0
  try clear_value x1
  have k2 : P x2 := by
    unfold x2
    repeat' first
      | with_reducible assumption
      | with_reducible refine keep_setFld KR ?_
  try clear_value x2
  have k3 : P x3 := by
    unfold x3
    repeat' first
      | with_reducible assumption
      | with_reducible refine keep_raise KR KF Kg ?_
  try clear_value x3
  try clear_value x4
  try clear_value x5
  have k6 : P x6 := by
    unfold x6
    repeat' first
      | with_reducible assumption
      | with_reducible refine Kh.setCh _ _ _ ?_
  try clear_value x6
  try clear_value x7
  repeat' first
    | with_reducible assumption
    | with_reducible refine keep_swChange KR Ko KF KM Kg KS Kb Kp Kk Kl ?_
    | split

theorem keep_statClose (Kh : KeepChan P) {s : State} {n : Nat} {byStop : Bool} {byNblk : Bool}
    (hP : P s)  : P (State.statClose s n byStop byNblk) := by
  unfold State.statClose
  extract_lets x0 x1 x2 x3
  try clear_value x0
  try clear_value x1
  try clear_value x2
  try clear_value x3
  repeat' first
    | with_reducible assumption
    | with_reducible refine Kh.setCh _ _ _ ?_
    | split

theorem keep_statOutput (Kh : KeepChan P) {s : State} {n : Nat} {idx : Nat} {name : Nat} {v : Int} {q : Nat}
    (hP : P s)  : P (State.statOutput s n idx name v q) := by
  unfold State.statOutput
  extract_lets x0 x1 x2 x3 x4 x5 x6 x7
  try clear_value x0
  try clear_value x1
  try clear_value x2
  try clear_value x3
  try clear_value x4
  try clear_value x5
  try clear_value x6
  have k7 : P x7 := by
    unfold x7
    repeat' first
      | with_reducible assumption
      | with_reducible refine Kh.setCh _ _ _ ?_
  try clear_value x7
  repeat' first
    | with_reducible assumption
    | with_reducible refine keep_statClose Kh ?_
    | split

theorem keep_putOutput (KR : KeepRegs P) (Ko : KeepOut P) (KF : KeepFlt P) (Kg : KeepLog P) (KS : KeepSpn P) (Kh : KeepChan P) (Kp : KeepCap P) (Kk : KeepGaps P) (Kl : KeepLnk P) {s : State} {n : Nat} {r : SlotReady} {wide : Int} {sc : Int} {q : Nat}
    (hP : P s)  : P (State.putOutput s n r wide sc q) := by
  unfold State.putOutput
  extract_lets x0 x1 x2 x3 x4
  try clear_value x0
  try clear_value x1
  have k2 : P x2 := by
    unfold x2
    repeat' first
      | with_reducible assumption
      | with_reducible refine Kh.setCh _ _ _ ?_
  try clear_value x2
  have k3 : P x3 := by
    unfold x3
    repeat' first
      | with_reducible assumption
      | with_reducible refine keep_swEval Kh ?_
      | (with_reducible refine keep_forEach ?_ ?_)
      | (intro s x hx)
  try clear_value x3
  have k4 : P x4 := by
    unfold x4
    repeat' first
      | with_reducible assumption
      | with_reducible refine keep_pushTap KR Ko KF Kg KS Kh Kp Kk Kl ?_
  try clear_value x4
  repeat' first
    | with_reducible assumption
    | with_reducible refine keep_statOutput Kh ?_
    | split

theorem keep_stages34 (Kh : KeepChan P) {s : State} {n : Nat} {r : SlotReady}
    (hP : P s)  : P (State.stages34 s n r).1 := by
  unfold State.stages34
  extract_lets x0 x1 x2 x3 x4 x5 x6 x7
  try clear_value x0
  try clear_value x1
  try clear_value x2
  have k3 : P x3 := by
    unfold x3
    repeat' first
      | with_reducible assumption
      | with_reducible refine Kh.setCh _ _ _ ?_
  try clear_value x3
  try clear_value x4
  try clear_value x5
  try clear_value x6
  try clear_value x7
  repeat' first
    | with_reducible assumption
    | with_reducible refine Kh.setCh _ _ _ ?_
    | split
    | dsimp only

theorem keep_chainOutput (KR : KeepRegs P) (Ko : KeepOut P) (KF : KeepFlt P) (Kg : KeepLog P) (KS : KeepSpn P) (Kh : KeepChan P) (Kp : KeepCap P) (Kk : KeepGaps P) (Kl : KeepLnk P) {s : State} {n : Nat}
    (hP : P s)  : P (State.chainOutput s n) := by
  unfold State.chainOutput
  extract_lets x
  clear_value x
  split
  · exact hP
  · rename_i r rest _
    extract_lets s1 s2
    have k1 : P s1 := Kh.setCh _ _ _ hP
    clear_value s1
    have k2 : P s2 := by
      unfold s2
      split
      · exact keep_raise KR KF Kg k1
      · exact k1
    clear_value s2
    split
    rename_i z s3 y fl sat e
    have k3 : P s3 := by
      split at e
      · injection e with e; exact e ▸ k2
      · exact keep_fst e (keep_stages34 Kh k2)
    have k4 : P (s3.noteSat n r.sat sat) := keep_noteSat KR KF Kg k3
    dsimp only
    split
    · split <;> exact keep_putOutput KR Ko KF Kg KS Kh Kp Kk Kl k4
    · split <;> exact keep_putOutput KR Ko KF Kg KS Kh Kp Kk Kl k4


theorem keep_flushOutputs (KR : KeepRegs P) (Ko : KeepOut P) (KF : KeepFlt P) (Kg : KeepLog P) (KS : KeepSpn P) (Kh : KeepChan P) (Kp : KeepCap P) (Kk : KeepGaps P) (Kl : KeepLnk P) {s : State} {n : Nat}
    (hP : P s)  : P (State.flushOutputs s n) := by
  unfold State.flushOutputs
  repeat' first
    | with_reducible assumption
    | with_reducible refine keep_chainOutput KR Ko KF Kg KS Kh Kp Kk Kl ?_
    | (with_reducible refine keep_forEach ?_ ?_)
    | (intro s x hx)

theorem keep_applyPrc (KR : KeepRegs P) (Ka : KeepAct P) (Ko : KeepOut P) (KF : KeepFlt P) (KM : KeepMem P) (Kg : KeepLog P) (KS : KeepSpn P) (Kh : KeepChan P) (Kb : KeepStr P) (Kp : KeepCap P) (Kk : KeepGaps P) (Kl : KeepLnk P) {s : State} {n : Nat} {a : Nat} {v : Word}
    (hP : P s)  : P (State.applyPrc s n a v) := by
  unfold State.applyPrc
  extract_lets x0 x1 x2 x3 x4 x5
  try clear_value x0
  try clear_value x1
  have k2 : P x2 := by
    unfold x2
    repeat' first
      | with_reducible assumption
      | with_reducible refine Ka.setAct _ _ _ ?_
  try clear_value x2
  have k3 : P x3 := by
    unfold x3
    repeat' first
      | with_reducible assumption
      | with_reducible refine Ka.setAct _ _ _ ?_
  try clear_value x3
  have k4 : ∀ (s : State) a0, P s → P (x4 s a0) := by
    intro s a0 h
    unfold x4
    repeat' first
      | with_reducible assumption
      | with_reducible refine Ka.setAct _ _ _ ?_
      | (with_reducible refine keep_forEach ?_ ?_)
      | (intro s x hx)
  try clear_value x4
  have k5 : P x5 := by
    unfold x5
    repeat' first
      | with_reducible assumption
      | with_reducible refine k4 _ _  ?_
      | split
  try clear_value x5
  repeat' first
    | with_reducible assumption
    | with_reducible refine k4 _ _  ?_
    | with_reducible refine keep_setSwCount Kh ?_
    | with_reducible refine keep_swCheck KR Ko KF KM Kg KS Kh Kb Kp Kk Kl ?_
    | with_reducible refine keep_showOut KR ?_
    | (with_reducible refine keep_forEach ?_ ?_)
    | (intro s x hx)
    | split
    | dsimp only

theorem keep_prcSettle (Kh : KeepChan P) {s : State} {n : Nat}
    (hP : P s)  : P (State.prcSettle s n) := by
  unfold State.prcSettle
  extract_lets x0 x1
  try clear_value x0
  have k1 : P x1 := by
    unfold x1
    repeat' first
      | with_reducible assumption
      | with_reducible refine Kh.setCh _ _ _ ?_
  try clear_value x1
  repeat' first
    | with_reducible assumption
    | with_reducible refine keep_statClose Kh ?_
    | with_reducible refine keep_setSwCount Kh ?_
    | (with_reducible refine keep_forEach ?_ ?_)
    | (intro s x hx)
    | split

theorem keep_foldlFst {α β : Type} {f : State × β → α → State × β} {l : List α} {r : State × β} (h : P r.1)
    (hf : ∀ r a, P r.1 → P (f r a).1) : P (l.foldl f r).1 := by
  induction l generalizing r with
  | nil => exact h
  | cons a t ih => exact ih (hf r a h)

theorem keep_applyDue (KR : KeepRegs P) (Ka : KeepAct P) (Ko : KeepOut P) (KF : KeepFlt P) (KM : KeepMem P) (Kg : KeepLog P) (KS : KeepSpn P) (Kh : KeepChan P) (Kb : KeepStr P) (Kp : KeepCap P) (Kk : KeepGaps P) (Kl : KeepLnk P) {s : State} {n t : Nat} {due : List (Nat × Word)} (hP : P s) : P (s.applyDue n t due) := by
  unfold State.applyDue
  split
  · exact hP
  · extract_lets x0 x1 x2 x3 x4
    have k0 : P x0 := keep_flushOutputs KR Ko KF Kg KS Kh Kp Kk Kl hP
    have k4 : P x4.1 := keep_foldlFst k0 (fun r a h => keep_applyPrc KR Ka Ko KF KM Kg KS Kh Kb Kp Kk Kl h)
    exact keep_prcSettle Kh (Kh.setCh _ _ _ k4)


theorem keep_applyWaiting (KR : KeepRegs P) (Ka : KeepAct P) (Ko : KeepOut P) (KF : KeepFlt P) (KM : KeepMem P) (Kg : KeepLog P) (KS : KeepSpn P) (Kh : KeepChan P) (Kb : KeepStr P) (Kp : KeepCap P) (Kk : KeepGaps P) (Kl : KeepLnk P) {s : State} {n : Nat} {t : Nat}
    (hP : P s)  : P (State.applyWaiting s n t) := by
  unfold State.applyWaiting
  extract_lets x0 x1
  try clear_value x0
  try clear_value x1
  repeat' first
    | with_reducible assumption
    | with_reducible refine Kh.setCh _ _ _ ?_
    | with_reducible refine keep_applyDue KR Ka Ko KF KM Kg KS Kh Kb Kp Kk Kl ?_

theorem keep_applyAllWaiting (KR : KeepRegs P) (Ka : KeepAct P) (Ko : KeepOut P) (KF : KeepFlt P) (KM : KeepMem P) (Kg : KeepLog P) (KS : KeepSpn P) (Kh : KeepChan P) (Kb : KeepStr P) (Kp : KeepCap P) (Kk : KeepGaps P) (Kl : KeepLnk P) {s : State} {n : Nat} {t : Nat}
    (hP : P s)  : P (State.applyAllWaiting s n t) := by
  unfold State.applyAllWaiting
  extract_lets x0
  try clear_value x0
  repeat' first
    | with_reducible assumption
    | with_reducible refine Kh.setCh _ _ _ ?_
    | with_reducible refine keep_applyDue KR Ka Ko KF KM Kg KS Kh Kb Kp Kk Kl ?_

theorem keep_asBefore (KR : KeepRegs P) (Ka : KeepAct P) (Ko : KeepOut P) (KF : KeepFlt P) (Kg : KeepLog P) (KS : KeepSpn P) (Kh : KeepChan P) (Kp : KeepCap P) (Kk : KeepGaps P) (Kl : KeepLnk P) {s : State} {n : Nat} {closeLt : Nat} {f : State → State}
    (hP : P s) (hf : ∀ (s : State) , P s → P (f s ))  : P (State.asBefore s n closeLt f) := by
  unfold State.asBefore
  repeat' first
    | with_reducible assumption
    | with_reducible refine Ka.setAct _ _ _ ?_
    | with_reducible refine keep_flushOutputs KR Ko KF Kg KS Kh Kp Kk Kl ?_
    | with_reducible refine keep_prcSettle Kh ?_
    | with_reducible refine hf _ ?_
    | (with_reducible refine keep_forEach ?_ ?_)
    | (intro s x hx)
    | split

theorem keep_chainStart (KR : KeepRegs P) (Ko : KeepOut P) (KF : KeepFlt P) (Kg : KeepLog P) (KS : KeepSpn P) (Kh : KeepChan P) (Kp : KeepCap P) (Kk : KeepGaps P) (Kl : KeepLnk P) {s : State} {n : Nat}
    (hP : P s)  : P (State.chainStart s n) := by
  unfold State.chainStart
  extract_lets x0 x1 x2 x3 x4
  have k0 : P x0 := by
    unfold x0
    repeat' first
      | with_reducible assumption
      | with_reducible refine keep_flushOutputs KR Ko KF Kg KS Kh Kp Kk Kl ?_
      | with_reducible refine keep_statClose Kh ?_
  try clear_value x0
  try clear_value x1
  try clear_value x2
  try clear_value x3
  have k4 : P x4 := by
    unfold x4
    repeat' first
      | with_reducible assumption
      | with_reducible refine Kh.setCh _ _ _ ?_
  try clear_value x4
  repeat' first
    | with_reducible assumption
    | with_reducible refine keep_setFlag KR ?_

theorem keep_chainPolicy (KR : KeepRegs P) (Kh : KeepChan P) {s : State} {n : Nat} {w : Sample}
    (hP : P s)  : P (State.chainPolicy s n w).1 := by
  unfold State.chainPolicy
  extract_lets x0 x1 x2 x3 x4 x5 x6 x7 x8 x9 x10 x11 x12
  try clear_value x0
  try clear_value x1
  try clear_value x2
  try clear_value x3
  try clear_value x4
  try clear_value x5
  try clear_value x6
  try clear_value x7
  try clear_value x8
  try clear_value x9
  try clear_value x10
  try clear_value x11
  try clear_value x12
  repeat' first
    | with_reducible assumption
    | with_reducible refine Kh.setCh _ _ _ ?_
    | with_reducible refine keep_setFlag KR ?_
    | split

theorem keep_closeBlock (KR : KeepRegs P) (Ko : KeepOut P) (KF : KeepFlt P) (Kg : KeepLog P) (KS : KeepSpn P) (Kh : KeepChan P) (Kp : KeepCap P) (Kk : KeepGaps P) (Kl : KeepLnk P) {s : State} {n : Nat} {k : Nat} {closeLen : Nat}
    (hP : P s)  : P (State.closeBlock s n k closeLen) := by
  unfold State.closeBlock
  extract_lets x0 x1 x2 x3 x4 x5 x6 x7 x8
  try clear_value x0
  try clear_value x1
  try clear_value x2
  try clear_value x3
  try clear_value x4
  try clear_value x5
  have k6 : P x6 := by
    unfold x6
    repeat' first
      | with_reducible assumption
      | with_reducible refine keep_noteSat KR KF Kg ?_
  try clear_value x6
  try clear_value x7
  have k8 : P x8 := by
    unfold x8
    repeat' first
      | with_reducible assumption
      | with_reducible refine Kh.setCh _ _ _ ?_
  try clear_value x8
  repeat' first
    | with_reducible assumption
    | with_reducible refine Kh.setCh _ _ _ ?_
    | with_reducible refine keep_pushTap KR Ko KF Kg KS Kh Kp Kk Kl ?_
    | split

theorem keep_closeSlot (Kh : KeepChan P) {s : State} {n : Nat} {idx : Nat} {len : Nat} {closeLt : Nat}
    (hP : P s)  : P (State.closeSlot s n idx len closeLt) := by
  unfold State.closeSlot
  extract_lets x0 x1 x2 x3 x4 x5 x6
  try clear_value x0
  try clear_value x1
  try clear_value x2
  try clear_value x3
  try clear_value x4
  try clear_value x5
  try clear_value x6
  repeat' first
    | with_reducible assumption
    | with_reducible refine Kh.setCh _ _ _ ?_

theorem keep_chainFeed (KR : KeepRegs P) (Ko : KeepOut P) (KF : KeepFlt P) (Kg : KeepLog P) (KS : KeepSpn P) (Kh : KeepChan P) (Kp : KeepCap P) (Kk : KeepGaps P) (Kl : KeepLnk P) {s : State} {n : Nat} {w : Sample}
    (hP : P s)  : P (State.chainFeed s n w) := by
  unfold State.chainFeed
  extract_lets x0 x1 x2 x3 x4 x5 x6 x7 x8 x9 x10 x11 x12 x13 x14 x15 x16
  try clear_value x0
  try clear_value x1
  have k2 : P x2 := by
    unfold x2
    repeat' first
      | with_reducible assumption
      | with_reducible refine keep_pushTap KR Ko KF Kg KS Kh Kp Kk Kl ?_
  try clear_value x2
  try clear_value x3
  try clear_value x4
  try clear_value x5
  try clear_value x6
  try clear_value x7
  try clear_value x8
  have k9 : P x9 := by
    unfold x9
    repeat' first
      | with_reducible assumption
      | with_reducible refine keep_pushTap KR Ko KF Kg KS Kh Kp Kk Kl ?_
  try clear_value x9
  try clear_value x10
  try clear_value x11
  have k12 : P x12 := by
    unfold x12
    repeat' first
      | with_reducible assumption
      | with_reducible refine Kh.setCh _ _ _ ?_
  try clear_value x12
  have k13 : P x13 := by
    unfold x13
    repeat' first
      | with_reducible assumption
      | with_reducible refine keep_noteSat KR KF Kg ?_
  try clear_value x13
  try clear_value x14
  try clear_value x15
  try clear_value x16
  repeat' first
    | with_reducible assumption
    | with_reducible refine Kh.setCh _ _ _ ?_
    | with_reducible refine keep_noteSat KR KF Kg ?_
    | with_reducible refine keep_chainPolicy KR Kh ?_
    | with_reducible refine keep_closeBlock KR Ko KF Kg KS Kh Kp Kk Kl ?_
    | with_reducible refine keep_closeSlot Kh ?_
    | with_reducible refine keep_fst (by assumption) ?_
    | split
    | dsimp only

theorem keep_execChainOutput (KR : KeepRegs P) (Ko : KeepOut P) (KF : KeepFlt P) (Kg : KeepLog P) (KS : KeepSpn P) (Kh : KeepChan P) (Kp : KeepCap P) (Kk : KeepGaps P) (Kl : KeepLnk P) {n : Fin 384} {s : State}
    (hP : P s) {u : State} (e : execChainOutput n s = .next u) : P u := by
  unfold execChainOutput at e
  refine keep_act hP ?_ e
  clear e
  repeat' first
    | with_reducible assumption
    | with_reducible refine keep_chainOutput KR Ko KF Kg KS Kh Kp Kk Kl ?_

theorem keep_fillDone (KR : KeepRegs P) (Kh : KeepChan P) {s : State} {n : Nat}
    (hP : P s)  : P (State.fillDone s n) := by
  unfold State.fillDone
  extract_lets x0 x1
  try clear_value x0
  try clear_value x1
  repeat' first
    | with_reducible assumption
    | with_reducible refine Kh.setCh _ _ _ ?_
    | with_reducible refine keep_setFlag KR ?_
    | split

theorem keep_execRefillEnd (KR : KeepRegs P) (Kh : KeepChan P) {n : Fin 384} {s : State}
    (hP : P s) {u : State} (e : execRefillEnd n s = .next u) : P u := by
  unfold execRefillEnd at e
  refine keep_act hP ?_ e
  clear e
  repeat' first
    | with_reducible assumption
    | with_reducible refine keep_fillDone KR Kh ?_
    | split

theorem keep_execFillEnd (KR : KeepRegs P) (Kh : KeepChan P) {n : Fin 384} {s : State}
    (hP : P s) {u : State} (e : execFillEnd n s = .next u) : P u := by
  unfold execFillEnd at e
  refine keep_act hP ?_ e
  clear e
  repeat' first
    | with_reducible assumption
    | with_reducible refine keep_fillDone KR Kh ?_
    | split

theorem keep_statEnd (KR : KeepRegs P) (Ko : KeepOut P) (KF : KeepFlt P) (KM : KeepMem P) (Kg : KeepLog P) (KS : KeepSpn P) (Kh : KeepChan P) (Kb : KeepStr P) (Kp : KeepCap P) (Kk : KeepGaps P) (Kl : KeepLnk P) {s : State} {n : Nat}
    (hP : P s)  : P (State.statEnd s n) := by
  unfold State.statEnd
  extract_lets x0 x1 x2
  have k0 : P x0 := by
    unfold x0
    repeat' first
      | with_reducible assumption
      | with_reducible refine keep_flushOutputs KR Ko KF Kg KS Kh Kp Kk Kl ?_
      | with_reducible refine keep_statClose Kh ?_
      | split
  try clear_value x0
  try clear_value x1
  try clear_value x2
  repeat' first
    | with_reducible assumption
    | with_reducible refine Kh.setCh _ _ _ ?_
    | with_reducible refine keep_raise KR KF Kg ?_
    | with_reducible refine keep_recordCh KR Ko KF KM Kg Kb ?_
    | split

theorem keep_execStatisticsBlockEnd (KR : KeepRegs P) (Ko : KeepOut P) (KF : KeepFlt P) (KM : KeepMem P) (Kg : KeepLog P) (KS : KeepSpn P) (Kh : KeepChan P) (Kb : KeepStr P) (Kp : KeepCap P) (Kk : KeepGaps P) (Kl : KeepLnk P) {n : Fin 384} {s : State}
    (hP : P s) {u : State} (e : execStatisticsBlockEnd n s = .next u) : P u := by
  unfold execStatisticsBlockEnd at e
  refine keep_act hP ?_ e
  clear e
  repeat' first
    | with_reducible assumption
    | with_reducible refine keep_statEnd KR Ko KF KM Kg KS Kh Kb Kp Kk Kl ?_

theorem keep_execSwitchChange (KR : KeepRegs P) (Ko : KeepOut P) (KF : KeepFlt P) (KM : KeepMem P) (Kg : KeepLog P) (KS : KeepSpn P) (Kh : KeepChan P) (Kb : KeepStr P) (Kp : KeepCap P) (Kk : KeepGaps P) (Kl : KeepLnk P) {n : Fin 384} {w : Fin 4} {s : State}
    (hP : P s) {u : State} (e : execSwitchChange n w s = .next u) : P u := by
  unfold execSwitchChange at e
  refine keep_act hP ?_ e
  clear e
  extract_lets x0 x1
  try clear_value x0
  try clear_value x1
  repeat' first
    | with_reducible assumption
    | with_reducible refine Kh.setCh _ _ _ ?_
    | with_reducible refine keep_swChange KR Ko KF KM Kg KS Kb Kp Kk Kl ?_
    | split

theorem keep_execChOutWRead (Ko : KeepOut P) (Ky : KeepHeld P) {n : Fin 384} {s : State}
    (hP : P s) {u : State} (e : execChOutWRead n s = .next u) : P u := by
  unfold execChOutWRead at e
  refine keep_act hP ?_ e
  clear e
  extract_lets x0
  have k0 : P x0 := by
    unfold x0
    repeat' first
      | with_reducible assumption
      | (with_reducible refine keep_forEach ?_ ?_)
      | (intro s x hx)
      | with_reducible refine Ky.latchPut _ _ _ ?_
  try clear_value x0
  repeat' first
    | with_reducible assumption
    | with_reducible refine keep_answer Ko ?_

theorem keep_prcWrite (KR : KeepRegs P) (Ka : KeepAct P) (Ko : KeepOut P) (KF : KeepFlt P) (KM : KeepMem P) (Kg : KeepLog P) (KS : KeepSpn P) (Kh : KeepChan P) (Kb : KeepStr P) (Kp : KeepCap P) (Kk : KeepGaps P) (Kl : KeepLnk P) {s : State} {n : Nat} {a : Nat} {v : Word}
    (hP : P s)  : P (State.prcWrite s n a v) := by
  unfold State.prcWrite
  extract_lets x0
  try clear_value x0
  repeat' first
    | with_reducible assumption
    | with_reducible refine keep_applyDue KR Ka Ko KF KM Kg KS Kh Kb Kp Kk Kl ?_
    | with_reducible refine Kh.setCh _ _ _ ?_
    | split

theorem keep_writeBqCtrl (KR : KeepRegs P) (Ka : KeepAct P) (Ko : KeepOut P) (KF : KeepFlt P) (KM : KeepMem P) (Kg : KeepLog P) (KS : KeepSpn P) (Kh : KeepChan P) (Kb : KeepStr P) (Kp : KeepCap P) (Kk : KeepGaps P) (Kl : KeepLnk P) {s : State} {n : Nat} {v : Word}
    (hP : P s)  : P (State.writeBqCtrl s n v) := by
  unfold State.writeBqCtrl
  extract_lets x0 x1
  try clear_value x0
  try clear_value x1
  repeat' first
    | with_reducible assumption
    | with_reducible refine keep_writeFlds KR ?_
    | with_reducible refine keep_prcWrite KR Ka Ko KF KM Kg KS Kh Kb Kp Kk Kl ?_

theorem keep_execChBqCtrlCommit (KR : KeepRegs P) (Ka : KeepAct P) (Ko : KeepOut P) (KF : KeepFlt P) (KM : KeepMem P) (Kg : KeepLog P) (KS : KeepSpn P) (Kh : KeepChan P) (Kb : KeepStr P) (Kp : KeepCap P) (Kk : KeepGaps P) (Kl : KeepLnk P) {n : Fin 384} {v : Word} {s : State}
    (hP : P s) {u : State} (e : execChBqCtrlCommit n v s = .next u) : P u := by
  unfold execChBqCtrlCommit at e
  refine keep_act hP ?_ e
  clear e
  repeat' first
    | with_reducible assumption
    | with_reducible refine keep_writeBqCtrl KR Ka Ko KF KM Kg KS Kh Kb Kp Kk Kl ?_

end Sys2Proof.Machine
end

