-- ==== Sys2Proof/Laws/KeepDieLink.lean ====
section
/-! SUPPORT. What the operations of Machine/DieLink.lean keep (see Laws/Keep.lean). -/
namespace Sys2Proof.Machine
variable {P : State → Prop}

theorem keep_dieSend (Ko : KeepOut P) (Kd : KeepDlk P) {s : State} {d : Nat} {typ : Nat} {payload : Nat}
    (hP : P s)  : P (State.dieSend s d typ payload) := by
  unfold State.dieSend
  extract_lets x0 x1
  try clear_value x0
  try clear_value x1
  repeat' first
    | with_reducible assumption
    | with_reducible refine Kd.setDl _ _ _ ?_
    | with_reducible refine keep_emit Ko ?_
    | split

theorem keep_dieWrite (Ko : KeepOut P) (Kd : KeepDlk P) {s : State} {d : Nat} {w : Nat × Word}
    (hP : P s)  : P (State.dieWrite s d w) := by
  unfold State.dieWrite
  repeat' first
    | with_reducible assumption
    | with_reducible refine keep_dieSend Ko Kd ?_

theorem keep_idleCycle (Ko : KeepOut P) (KL : KeepTime P) (Kd : KeepDlk P) {s : State}
    (hP : P s)  : P (State.idleCycle s) := by
  unfold State.idleCycle
  extract_lets x0
  have k0 : P x0 := by
    unfold x0
    repeat' first
      | with_reducible assumption
      | with_reducible refine keep_pass KL ?_
  try clear_value x0
  repeat' first
    | with_reducible assumption
    | with_reducible refine keep_dieSend Ko Kd ?_
    | (with_reducible refine keep_forEach ?_ ?_)
    | (intro s x hx)
    | split

theorem keep_feWrites (KR : KeepRegs P) (Ko : KeepOut P) (Kd : KeepDlk P) {s : State} {d : Nat} {ws : List (Nat × Word)}
    (hP : P s)  : P (State.feWrites s d ws).1 := by
  unfold State.feWrites
  extract_lets x0
  try clear_value x0
  repeat' first
    | with_reducible assumption
    | with_reducible refine Kd.setDl _ _ _ ?_
    | with_reducible refine keep_dieWrite Ko Kd ?_
    | with_reducible refine keep_bumpBy KR ?_
    | (with_reducible refine keep_forEach ?_ ?_)
    | (intro s x hx)
    | split

theorem keep_dieFreeze (Kd : KeepDlk P) {s : State} {d : Nat}
    (hP : P s)  : P (State.dieFreeze s d) := by
  unfold State.dieFreeze
  extract_lets x0
  try clear_value x0
  repeat' first
    | with_reducible assumption
    | with_reducible refine Kd.setDl _ _ _ ?_
    | split

theorem keep_dieResume (Ko : KeepOut P) (Kd : KeepDlk P) {s : State} {d : Nat}
    (hP : P s)  : P (State.dieResume s d) := by
  unfold State.dieResume
  extract_lets x0
  try clear_value x0
  repeat' first
    | with_reducible assumption
    | with_reducible refine Kd.setDl _ _ _ ?_
    | with_reducible refine keep_dieWrite Ko Kd ?_
    | (with_reducible refine keep_forEach ?_ ?_)
    | (intro s x hx)
    | split

theorem keep_execGridMark (Ko : KeepOut P) (KL : KeepTime P) (KS : KeepSpn P) (Kd : KeepDlk P) {s : State}
    (hP : P s) {u : State} (e : execGridMark s = .next u) : P u := by
  unfold execGridMark at e
  refine keep_act hP ?_ e
  clear e
  repeat' first
    | with_reducible assumption
    | with_reducible refine keep_moveTo KL ?_
    | with_reducible refine keep_dieSend Ko Kd ?_
    | with_reducible refine Kd.setDl _ _ _ ?_
    | (with_reducible refine keep_forEach ?_ ?_)
    | (intro s x hx)
    | split
    | dsimp only
    | with_reducible refine KS.spn _ _ ?_

theorem keep_dieDown (KR : KeepRegs P) (KF : KeepFlt P) (Kg : KeepLog P) (Kd : KeepDlk P) {s : State} {d : Nat}
    (hP : P s)  : P (State.dieDown s d) := by
  unfold State.dieDown
  extract_lets x0 x1 x2 x3
  have k0 : P x0 := by
    unfold x0
    repeat' first
      | with_reducible assumption
      | with_reducible refine keep_dieFreeze Kd ?_
  try clear_value x0
  have k1 : P x1 := by
    unfold x1
    repeat' first
      | with_reducible assumption
      | with_reducible refine keep_setFlag KR ?_
      | with_reducible refine keep_bump KR ?_
  try clear_value x1
  try clear_value x2
  have k3 : P x3 := by
    unfold x3
    repeat' first
      | with_reducible assumption
      | with_reducible refine Kd.setDl _ _ _ ?_
  try clear_value x3
  repeat' first
    | with_reducible assumption
    | with_reducible refine keep_raiseD KR KF Kg ?_
    | split

theorem keep_dieTake (Ko : KeepOut P) (Kd : KeepDlk P) {s : State} {d : Nat} {typ : Nat}
    (hP : P s)  : P (State.dieTake s d typ) := by
  unfold State.dieTake
  extract_lets x0 x1
  try clear_value x0
  have k1 : P x1 := by
    unfold x1
    repeat' first
      | with_reducible assumption
      | with_reducible refine Kd.setDl _ _ _ ?_
  try clear_value x1
  repeat' first
    | with_reducible assumption
    | with_reducible refine keep_dieSend Ko Kd ?_
    | split

theorem keep_dieBad (KR : KeepRegs P) (Ko : KeepOut P) (KF : KeepFlt P) (Kg : KeepLog P) (Kd : KeepDlk P) {s : State} {d : Nat} {typ : Nat} {payload : Nat} {crc : Nat}
    (hP : P s)  : P (State.dieBad s d typ payload crc) := by
  unfold State.dieBad
  extract_lets x0 x1
  try clear_value x0
  have k1 : P x1 := by
    unfold x1
    repeat' first
      | with_reducible assumption
      | with_reducible refine Kd.setDl _ _ _ ?_
      | with_reducible refine keep_dieSend Ko Kd ?_
  try clear_value x1
  repeat' first
    | with_reducible assumption
    | with_reducible refine keep_dieDown KR KF Kg Kd ?_
    | split

theorem keep_dieReceive (KR : KeepRegs P) (Ko : KeepOut P) (KF : KeepFlt P) (Kg : KeepLog P) (Kd : KeepDlk P) {s : State} {d : Nat} {typ : Nat} {payload : Nat} {crc : Nat} {f : State → State}
    (hP : P s) (hf : ∀ (s : State) , P s → P (f s ))  : P (State.dieReceive s d typ payload crc f) := by
  unfold State.dieReceive
  repeat' first
    | with_reducible assumption
    | with_reducible refine keep_dieTake Ko Kd ?_
    | with_reducible refine keep_dieBad KR Ko KF Kg Kd ?_
    | with_reducible refine hf _ ?_
    | split

theorem keep_dieResend (Ko : KeepOut P) {s : State} {d n : Nat} {l : List (Nat × Nat)} (h : P s) : P (s.dieResend d n l) := by
  induction l generalizing s n with
  | nil => exact h
  | cons g t ih => exact ih (keep_emit Ko h)


theorem keep_dieNak (KR : KeepRegs P) (Ko : KeepOut P) (KF : KeepFlt P) (Kg : KeepLog P) (Kd : KeepDlk P) {s : State} {d : Nat} {seq : Nat}
    (hP : P s)  : P (State.dieNak s d seq) := by
  unfold State.dieNak
  extract_lets x0 x1 x2 x3
  try clear_value x0
  try clear_value x1
  have k2 : P x2 := by
    unfold x2
    repeat' first
      | with_reducible assumption
      | with_reducible refine Kd.setDl _ _ _ ?_
  try clear_value x2
  try clear_value x3
  repeat' first
    | with_reducible assumption
    | with_reducible refine keep_dieDown KR KF Kg Kd ?_
    | with_reducible refine keep_bump KR ?_
    | with_reducible refine keep_dieResend Ko ?_
    | split

theorem keep_execDieLinkNakRx (KR : KeepRegs P) (Ko : KeepOut P) (KF : KeepFlt P) (Kg : KeepLog P) (Kd : KeepDlk P) {d : Fin 4} {w : DieSeq} {s : State}
    (hP : P s) {u : State} (e : execDieLinkNakRx d w s = .next u) : P u := by
  unfold execDieLinkNakRx at e
  refine keep_act hP ?_ e
  clear e
  repeat' first
    | with_reducible assumption
    | with_reducible refine keep_dieReceive KR Ko KF Kg Kd ?_ ?_
    | with_reducible refine keep_dieNak KR Ko KF Kg Kd ?_
    | intro _ h

theorem keep_execDieLinkAckRx (KR : KeepRegs P) (Ko : KeepOut P) (KF : KeepFlt P) (Kg : KeepLog P) (Kd : KeepDlk P) {d : Fin 4} {w : DieSeq} {s : State}
    (hP : P s) {u : State} (e : execDieLinkAckRx d w s = .next u) : P u := by
  unfold execDieLinkAckRx at e
  refine keep_act hP ?_ e
  clear e
  repeat' first
    | with_reducible assumption
    | with_reducible refine keep_dieReceive KR Ko KF Kg Kd ?_ ?_
    | with_reducible refine Kd.setDl _ _ _ ?_
    | intro _ h

theorem keep_execDieLinkBadWord (KR : KeepRegs P) (Ko : KeepOut P) (KF : KeepFlt P) (Kg : KeepLog P) (Kd : KeepDlk P) {d : Fin 4} {typ : Fin 256} {payload : BitVec 64} {crc : Fin 256} {s : State}
    (hP : P s) {u : State} (e : execDieLinkBadWord d typ payload crc s = .next u) : P u := by
  unfold execDieLinkBadWord at e
  refine keep_act hP ?_ e
  clear e
  repeat' first
    | with_reducible assumption
    | with_reducible refine keep_dieReceive KR Ko KF Kg Kd ?_ ?_
    | (with_reducible rw [id_eq])
    | intro _ h
    | split

theorem keep_execDieLinkRetry (Ko : KeepOut P) {d : Fin 4} {s : State}
    (hP : P s) {u : State} (e : execDieLinkRetry d s = .next u) : P u := by
  unfold execDieLinkRetry at e
  refine keep_act hP ?_ e
  clear e
  repeat' first
    | with_reducible assumption
    | with_reducible refine keep_emit Ko ?_
    | split

end Sys2Proof.Machine
end

