-- ==== Sys2Proof/Laws/KeepFrames.lean ====
section
/-! SUPPORT. What the operations of Machine/Frames.lean keep (see Laws/Keep.lean). -/
namespace Sys2Proof.Machine
variable {P : State → Prop}

theorem keep_setX (KR : KeepRegs P) {s : State} {p : Nat} {v : Nat}
    (hP : P s)  : P (State.setX s p v) := by
  unfold State.setX
  repeat' first
    | with_reducible assumption
    | with_reducible refine keep_setFld KR ?_

theorem keep_rxGate (KR : KeepRegs P) {s : State} {p : Nat} {h : RxHead} {svc : Service} {t : State}
    (hP : P s) (hPt : P t)  : P (State.rxGate s p h svc t) := by
  unfold State.rxGate
  repeat' first
    | with_reducible assumption
    | with_reducible refine keep_bump KR ?_
    | split

end Sys2Proof.Machine
end

