-- ==== Sys2Proof/Laws/KeepGouge.lean ====
section
/-! SUPPORT. What the operations of Machine/Gouge.lean keep (see Laws/Keep.lean). -/
namespace Sys2Proof.Machine
variable {P : State → Prop}

theorem keep_setGg (Ke : KeepGge P) {s : State} {c : Nat} {x : GgeCtx}
    (hP : P s)  : P (State.setGg s c x) := by
  unfold State.setGg
  extract_lets x0
  try clear_value x0
  repeat' first
    | with_reducible assumption
    | with_reducible refine Ke.gge _ _ ?_

theorem keep_ggeResetAll (Ke : KeepGge P) {s : State}
    (hP : P s)  : P (State.ggeResetAll s) := by
  unfold State.ggeResetAll
  extract_lets x0 x1
  try clear_value x0
  have k1 : P x1 := by
    unfold x1
    repeat' first
      | with_reducible assumption
      | with_reducible refine Ke.gge _ _ ?_
  try clear_value x1
  repeat' first
    | with_reducible assumption
    | with_reducible refine keep_setGg Ke ?_
    | (with_reducible refine keep_forEach ?_ ?_)
    | (intro s x hx)

theorem keep_ggeVerdict (KR : KeepRegs P) (KF : KeepFlt P) (Kg : KeepLog P) (Ke : KeepGge P) {s : State} {v : Nat}
    (hP : P s)  : P (State.ggeVerdict s v) := by
  unfold State.ggeVerdict
  extract_lets x0 x1 x2 x3
  have k0 : P x0 := by
    unfold x0
    repeat' first
      | with_reducible assumption
      | with_reducible refine keep_setFld KR ?_
  try clear_value x0
  try clear_value x1
  try clear_value x2
  have k3 : P x3 := by
    unfold x3
    repeat' first
      | with_reducible assumption
      | with_reducible refine Ke.gge _ _ ?_
  try clear_value x3
  repeat' first
    | with_reducible assumption
    | with_reducible refine keep_setFld KR ?_
    | with_reducible refine keep_ggeResetAll Ke ?_
    | with_reducible refine keep_raiseHub KR KF Kg ?_
    | split
    | with_reducible refine Ke.gge _ _ ?_

theorem keep_ggeSync (KR : KeepRegs P) (KF : KeepFlt P) (Kg : KeepLog P) (Ke : KeepGge P) {s : State}
    (hP : P s)  : P (State.ggeSync s) := by
  unfold State.ggeSync
  extract_lets x0 x1 x2 x3
  try clear_value x0
  try clear_value x1
  have k2 : P x2 := by
    unfold x2
    repeat' first
      | with_reducible assumption
      | split
      | with_reducible refine KF.flt _ _ ?_
  try clear_value x2
  have k3 : P x3 := by
    unfold x3
    repeat' first
      | with_reducible assumption
      | with_reducible refine keep_ggeVerdict KR KF Kg Ke ?_
      | (with_reducible refine keep_forEach ?_ ?_)
      | (intro s x hx)
  try clear_value x3
  repeat' first
    | with_reducible assumption
    | with_reducible refine keep_setFld KR ?_
    | split

theorem keep_ggeMismatch (KR : KeepRegs P) (KF : KeepFlt P) (Kg : KeepLog P) (Ke : KeepGge P) {s : State} {c : Nat} {resend : Bool}
    (hP : P s)  : P (State.ggeMismatch s c resend) := by
  unfold State.ggeMismatch
  extract_lets x0
  have k0 : P x0 := by
    unfold x0
    repeat' first
      | with_reducible assumption
      | with_reducible refine keep_bump KR ?_
      | with_reducible refine keep_raise KR KF Kg ?_
      | with_reducible refine keep_awaitTest KF ?_
  try clear_value x0
  repeat' first
    | with_reducible assumption
    | with_reducible refine keep_record KR KF Kg ?_
    | with_reducible refine keep_stopRequest KF ?_
    | with_reducible refine keep_updAlive KR ?_
    | with_reducible refine keep_markHigh KF ?_
    | with_reducible refine keep_ggeSync KR KF Kg Ke ?_
    | split

theorem keep_ggeRefuse (KR : KeepRegs P) (KF : KeepFlt P) (Kg : KeepLog P) {s : State} {c : Nat} {r : Nat}
    (hP : P s)  : P (State.ggeRefuse s c r) := by
  unfold State.ggeRefuse
  extract_lets x0
  have k0 : P x0 := by
    unfold x0
    repeat' first
      | with_reducible assumption
      | with_reducible refine keep_setFld KR ?_
  try clear_value x0
  repeat' first
    | with_reducible assumption
    | with_reducible refine keep_raise KR KF Kg ?_
    | split

theorem keep_ggeOpen (Ke : KeepGge P) {s : State} {c : Nat}
    (hP : P s)  : P (State.ggeOpen s c) := by
  unfold State.ggeOpen
  extract_lets x0 x1 x2
  try clear_value x0
  try clear_value x1
  try clear_value x2
  repeat' first
    | with_reducible assumption
    | with_reducible refine keep_setGg Ke ?_

theorem keep_ctxStart (KR : KeepRegs P) (Ko : KeepOut P) (KF : KeepFlt P) (KM : KeepMem P) (Kg : KeepLog P) (Kb : KeepStr P) (Ke : KeepGge P) {s : State} {c : Nat}
    (hP : P s)  : P (State.ctxStart s c) := by
  unfold State.ctxStart
  extract_lets x0 x1 x2
  have k0 : P x0 := by
    unfold x0
    repeat' first
      | with_reducible assumption
      | with_reducible refine keep_ggeSync KR KF Kg Ke ?_
  try clear_value x0
  try clear_value x1
  have k2 : P x2 := by
    unfold x2
    repeat' first
      | with_reducible assumption
      | with_reducible refine keep_ggeRefuse KR KF Kg ?_
      | with_reducible refine keep_ggeOpen Ke ?_
      | split
  try clear_value x2
  repeat' first
    | with_reducible assumption
    | with_reducible refine keep_strStart KR Ko KF KM Kg Kb ?_

theorem keep_ggeDiscard (KR : KeepRegs P) (Ke : KeepGge P) {s : State} {c : Nat}
    (hP : P s)  : P (State.ggeDiscard s c) := by
  unfold State.ggeDiscard
  extract_lets x0 x1 x2
  try clear_value x0
  try clear_value x1
  have k2 : P x2 := by
    unfold x2
    repeat' first
      | with_reducible assumption
      | with_reducible refine Ke.gge _ _ ?_
  try clear_value x2
  repeat' first
    | with_reducible assumption
    | with_reducible refine keep_setFlag KR ?_
    | split

theorem keep_ctxAbort (KR : KeepRegs P) (Ko : KeepOut P) (KF : KeepFlt P) (KM : KeepMem P) (Kg : KeepLog P) (Kb : KeepStr P) (Ke : KeepGge P) (Kk : KeepGaps P) {s : State} {c : Nat}
    (hP : P s)  : P (State.ctxAbort s c) := by
  unfold State.ctxAbort
  extract_lets x0 x1
  have k0 : P x0 := by
    unfold x0
    repeat' first
      | with_reducible assumption
      | with_reducible refine keep_ggeDiscard KR Ke ?_
  try clear_value x0
  try clear_value x1
  repeat' first
    | with_reducible assumption
    | with_reducible refine keep_setGg Ke ?_
    | with_reducible refine keep_strAbort KR Ko KF KM Kg Kb Kk ?_
    | split

theorem keep_rewindAll (KR : KeepRegs P) (KF : KeepFlt P) (Kg : KeepLog P) (Kb : KeepStr P) (Ke : KeepGge P) (Kk : KeepGaps P) {s : State}
    (hP : P s)  : P (State.rewindAll s) := by
  unfold State.rewindAll
  extract_lets x0
  have k0 : P x0 := by
    unfold x0
    repeat' first
      | with_reducible assumption
      | with_reducible refine keep_ggeDiscard KR Ke ?_
      | with_reducible refine keep_setGg Ke ?_
      | with_reducible refine Kb.setStr _ _ _ ?_
      | (with_reducible refine keep_forEach ?_ ?_)
      | (intro s x hx)
  try clear_value x0
  repeat' first
    | with_reducible assumption
    | with_reducible refine keep_rewind KR KF Kg Kb Kk ?_

theorem keep_anchorStep (Ke : KeepGge P) {s : State} {c : Nat} {p : Pkt}
    (hP : P s)  : P (State.anchorStep s c p) := by
  unfold State.anchorStep
  extract_lets x0 x1 x2 x3
  try clear_value x0
  try clear_value x1
  try clear_value x2
  try clear_value x3
  repeat' first
    | with_reducible assumption
    | with_reducible refine keep_setGg Ke ?_
    | split

theorem keep_ggeConfirm (Ke : KeepGge P) {s : State} {c : Nat} {pseq : Nat}
    (hP : P s)  : P (State.ggeConfirm s c pseq) := by
  unfold State.ggeConfirm
  extract_lets x0
  try clear_value x0
  repeat' first
    | with_reducible assumption
    | with_reducible refine keep_anchorStep Ke ?_
    | (with_reducible refine keep_forEach ?_ ?_)
    | (intro s x hx)
    | split

theorem keep_ggePut (Ke : KeepGge P) {s : State} {o : GgeOut}
    (hP : P s)  : P (State.ggePut s o) := by
  unfold State.ggePut
  extract_lets x0
  try clear_value x0
  repeat' first
    | with_reducible assumption
    | with_reducible refine Ke.gge _ _ ?_

theorem keep_ggeWrite (KR : KeepRegs P) (Ke : KeepGge P) {s : State} {j : GgeJob}
    (hP : P s)  : P (State.ggeWrite s j) := by
  unfold State.ggeWrite
  extract_lets x0 x1 x2
  try clear_value x0
  try clear_value x1
  have k2 : P x2 := by
    unfold x2
    repeat' first
      | with_reducible assumption
      | with_reducible refine keep_setFlag KR ?_
      | with_reducible refine Ke.gge _ _ ?_
  try clear_value x2
  repeat' first
    | with_reducible assumption
    | with_reducible refine keep_ggePut Ke ?_
    | split

theorem keep_takePkt (KR : KeepRegs P) (KF : KeepFlt P) (Kg : KeepLog P) (Kb : KeepStr P) {s : State} {c : Nat} {p : Pkt} {coded : Bool} {sent : Bool}
    (hP : P s)  : P (State.takePkt s c p coded sent) := by
  unfold State.takePkt
  extract_lets x0
  try clear_value x0
  repeat' first
    | with_reducible assumption
    | with_reducible refine keep_putStr KR KF Kg Kb ?_

theorem keep_ggeTake (KR : KeepRegs P) (KF : KeepFlt P) (Kg : KeepLog P) (Kb : KeepStr P) (Ke : KeepGge P) {s : State} {c : Nat} {p : Pkt}
    (hP : P s)  : P (State.ggeTake s c p) := by
  unfold State.ggeTake
  extract_lets x0 x1 x2
  try clear_value x0
  have k1 : P x1 := by
    unfold x1
    repeat' first
      | with_reducible assumption
      | with_reducible refine keep_takePkt KR KF Kg Kb ?_
      | with_reducible refine Ke.gge _ _ ?_
  try clear_value x1
  have k2 : P x2 := by
    unfold x2
    repeat' first
      | with_reducible assumption
      | with_reducible refine keep_ggeWrite KR Ke ?_
  try clear_value x2
  repeat' first
    | with_reducible assumption
    | with_reducible refine keep_ggeWrite KR Ke ?_
    | with_reducible refine keep_raise KR KF Kg ?_
    | with_reducible refine keep_ggeSync KR KF Kg Ke ?_
    | split

theorem keep_ggeStart (KR : KeepRegs P) (KF : KeepFlt P) (Kg : KeepLog P) (Kb : KeepStr P) (Ke : KeepGge P) {s : State}
    (hP : P s)  : P (State.ggeStart s) := by
  unfold State.ggeStart
  extract_lets x0 x1
  have k0 : P x0 := by
    unfold x0
    repeat' first
      | with_reducible assumption
      | with_reducible refine keep_ggeSync KR KF Kg Ke ?_
  try clear_value x0
  try clear_value x1
  repeat' first
    | with_reducible assumption
    | with_reducible refine keep_ggeTake KR KF Kg Kb Ke ?_
    | split

theorem keep_execGougeBlockStart (KR : KeepRegs P) (KF : KeepFlt P) (Kg : KeepLog P) (Kb : KeepStr P) (Ke : KeepGge P) {s : State}
    (hP : P s) {u : State} (e : execGougeBlockStart s = .next u) : P u := by
  unfold execGougeBlockStart at e
  refine keep_act hP ?_ e
  clear e
  repeat' first
    | with_reducible assumption
    | with_reducible refine keep_ggeStart KR KF Kg Kb Ke ?_

theorem keep_ggeRelease (KR : KeepRegs P) (Ke : KeepGge P) {s : State} {j : GgeJob}
    (hP : P s)  : P (State.ggeRelease s j) := by
  unfold State.ggeRelease
  extract_lets x0 x1 x2 x3 x4 x5 x6 x7
  try clear_value x0
  try clear_value x1
  try clear_value x2
  have k3 : P x3 := by
    unfold x3
    repeat' first
      | with_reducible assumption
      | with_reducible refine keep_ggePut Ke ?_
  try clear_value x3
  have k4 : P x4 := by
    unfold x4
    repeat' first
      | with_reducible assumption
      | with_reducible refine keep_setGg Ke ?_
  try clear_value x4
  have k5 : P x5 := by
    unfold x5
    repeat' first
      | with_reducible assumption
      | with_reducible refine KR.setReg _ _ _ ?_
  try clear_value x5
  have k6 : P x6 := by
    unfold x6
    repeat' first
      | with_reducible assumption
      | with_reducible refine KR.setReg _ _ _ ?_
  try clear_value x6
  have k7 : P x7 := by
    unfold x7
    repeat' first
      | with_reducible assumption
      | with_reducible refine keep_bump KR ?_
      | split
  try clear_value x7
  repeat' first
    | with_reducible assumption
    | with_reducible refine keep_bump KR ?_
    | split

theorem keep_ggeReplace (KR : KeepRegs P) (KF : KeepFlt P) (Kg : KeepLog P) (Ke : KeepGge P) {s : State} {j : GgeJob}
    (hP : P s)  : P (State.ggeReplace s j) := by
  unfold State.ggeReplace
  extract_lets x0 x1 x2 x3
  try clear_value x0
  try clear_value x1
  have k2 : P x2 := by
    unfold x2
    repeat' first
      | with_reducible assumption
      | with_reducible refine keep_setGg Ke ?_
      | with_reducible refine keep_ggeMismatch KR KF Kg Ke ?_
  try clear_value x2
  try clear_value x3
  repeat' first
    | with_reducible assumption
    | with_reducible refine keep_ggeWrite KR Ke ?_

theorem keep_ggeVerify (KR : KeepRegs P) (KF : KeepFlt P) (Kg : KeepLog P) (Ke : KeepGge P) {s : State} {mismatch : Bool}
    (hP : P s)  : P (State.ggeVerify s mismatch) := by
  unfold State.ggeVerify
  repeat' first
    | with_reducible assumption
    | with_reducible refine keep_ggeRelease KR Ke ?_
    | with_reducible refine keep_ggeReplace KR KF Kg Ke ?_
    | split
    | dsimp only

theorem keep_execGougeVerifyDone (KR : KeepRegs P) (KF : KeepFlt P) (Kg : KeepLog P) (Ke : KeepGge P) {mismatch : Bool} {s : State}
    (hP : P s) {u : State} (e : execGougeVerifyDone mismatch s = .next u) : P u := by
  unfold execGougeVerifyDone at e
  refine keep_act hP ?_ e
  clear e
  repeat' first
    | with_reducible assumption
    | with_reducible refine keep_ggeSync KR KF Kg Ke ?_
    | with_reducible refine keep_ggeVerify KR KF Kg Ke ?_

theorem keep_execGougeStallEnd (KR : KeepRegs P) (Ke : KeepGge P) {s : State}
    (hP : P s) {u : State} (e : execGougeStallEnd s = .next u) : P u := by
  unfold execGougeStallEnd at e
  refine keep_act hP ?_ e
  clear e
  repeat' first
    | with_reducible assumption
    | with_reducible refine keep_ggeWrite KR Ke ?_
    | split

theorem keep_writeGgeCtrl (KR : KeepRegs P) (KF : KeepFlt P) (Kg : KeepLog P) (Ke : KeepGge P) {s : State} {v : Word}
    (hP : P s)  : P (State.writeGgeCtrl s v) := by
  unfold State.writeGgeCtrl
  extract_lets x0 x1
  have k0 : P x0 := by
    unfold x0
    repeat' first
      | with_reducible assumption
      | with_reducible refine keep_ggeSync KR KF Kg Ke ?_
      | with_reducible refine keep_writeFlds KR ?_
  try clear_value x0
  try clear_value x1
  repeat' first
    | with_reducible assumption
    | with_reducible refine keep_ggeSync KR KF Kg Ke ?_
    | with_reducible refine keep_callTest KR KF ?_
    | split
    | with_reducible refine Ke.gge _ _ ?_

theorem keep_execGgeCtrlRetest (KR : KeepRegs P) (KF : KeepFlt P) (Kg : KeepLog P) (Ke : KeepGge P) {v : Word} {s : State}
    (hP : P s) {u : State} (e : execGgeCtrlRetest v s = .next u) : P u := by
  unfold execGgeCtrlRetest at e
  refine keep_act hP ?_ e
  clear e
  repeat' first
    | with_reducible assumption
    | with_reducible refine keep_writeGgeCtrl KR KF Kg Ke ?_

theorem keep_execGougeSelftestDone (KR : KeepRegs P) (KF : KeepFlt P) (Kg : KeepLog P) (Ke : KeepGge P) {v : Verdict} {s : State}
    (hP : P s) {u : State} (e : execGougeSelftestDone v s = .next u) : P u := by
  unfold execGougeSelftestDone at e
  refine keep_act hP ?_ e
  clear e
  repeat' first
    | with_reducible assumption
    | with_reducible refine keep_endTest KR KF Kg ?_
    | with_reducible refine keep_ggeSync KR KF Kg Ke ?_
    | split

end Sys2Proof.Machine
end

