-- ==== Sys2Proof/Laws/KeepNet.lean ====
section
/-! SUPPORT. What the operations of Machine/Net.lean keep (see Laws/Keep.lean). -/
namespace Sys2Proof.Machine
variable {P : State → Prop}

theorem keep_sendFrame (Ko : KeepOut P) {s : State} {p : Nat} {kind : Nat} {fields : List Nat}
    (hP : P s)  : P (State.sendFrame s p kind fields) := by
  unfold State.sendFrame
  repeat' first
    | with_reducible assumption
    | with_reducible refine keep_emit Ko ?_
    | split

theorem keep_sendUdp (Ko : KeepOut P) {s : State} {p : Nat} {dscp : Nat} {addr : List Nat} {sport : Nat} {dport : Nat} {bs : List Byte}
    (hP : P s)  : P (State.sendUdp s p dscp addr sport dport bs) := by
  unfold State.sendUdp
  extract_lets x0 x1
  try clear_value x0
  try clear_value x1
  repeat' first
    | with_reducible assumption
    | with_reducible refine keep_emit Ko ?_
    | split

theorem keep_sendCmdUdp (Ko : KeepOut P) {s : State} {p : Nat} {addr : List Nat} {dport : Nat} {bs : List Byte}
    (hP : P s)  : P (State.sendCmdUdp s p addr dport bs) := by
  unfold State.sendCmdUdp
  repeat' first
    | with_reducible assumption
    | with_reducible refine keep_sendUdp Ko ?_

theorem keep_solicit (Ko : KeepOut P) {s : State} {p : Nat} {d : Nat}
    (hP : P s)  : P (State.solicit s p d) := by
  unfold State.solicit
  repeat' first
    | with_reducible assumption
    | with_reducible refine keep_sendFrame Ko ?_
    | split

theorem keep_unresolve (KR : KeepRegs P) (Ko : KeepOut P) (KF : KeepFlt P) (Kg : KeepLog P) (Ki : KeepRing P) {s : State} {p : Nat} {d : Nat}
    (hP : P s)  : P (State.unresolve s p d) := by
  unfold State.unresolve
  extract_lets x0 x1
  try clear_value x0
  try clear_value x1
  repeat' first
    | with_reducible assumption
    | with_reducible refine keep_setEpisode KR KF Kg ?_
    | with_reducible refine keep_solicit Ko ?_
    | split
    | with_reducible refine Ki.ring _ _ ?_

theorem keep_resolveAll (KR : KeepRegs P) (KF : KeepFlt P) (Kg : KeepLog P) (Ki : KeepRing P) {s : State} {gone : Nat → Bool}
    (hP : P s)  : P (State.resolveAll s gone) := by
  unfold State.resolveAll
  extract_lets x0 x1
  try clear_value x0
  try clear_value x1
  repeat' first
    | with_reducible assumption
    | with_reducible refine keep_setEpisode KR KF Kg ?_
    | (with_reducible refine keep_forEach ?_ ?_)
    | (intro s x hx)
    | with_reducible refine Ki.ring _ _ ?_

theorem keep_confirmTo (KR : KeepRegs P) (Ko : KeepOut P) (KF : KeepFlt P) (KM : KeepMem P) (Kg : KeepLog P) (Kb : KeepStr P) (Ke : KeepGge P) (Kk : KeepGaps P) (Kl : KeepLnk P) (Ki : KeepRing P) {s : State} {origin : Nat} {c : Nat} {pseq : Nat} {drop : Bool}
    (hP : P s)  : P (State.confirmTo s origin c pseq drop) := by
  unfold State.confirmTo
  extract_lets x0 x1 x2 x3
  try clear_value x0
  try clear_value x1
  try clear_value x2
  have k3 : P x3 := by
    unfold x3
    repeat' first
      | with_reducible assumption
      | with_reducible refine Ki.ring _ _ ?_
  try clear_value x3
  repeat' first
    | with_reducible assumption
    | with_reducible refine keep_ggeConfirm Ke ?_
    | with_reducible refine keep_dropPkt KR Ko KF KM Kg Kb ?_
    | with_reducible refine keep_confirm KR Ko KF KM Kg Kb Kk ?_
    | with_reducible refine keep_sendCell Ko Kl ?_
    | split

theorem keep_exitSend (KR : KeepRegs P) (Ko : KeepOut P) (KF : KeepFlt P) (KM : KeepMem P) (Kg : KeepLog P) (Kb : KeepStr P) (Ke : KeepGge P) (Kk : KeepGaps P) (Kl : KeepLnk P) (Ki : KeepRing P) {s : State} {p : Nat} {e : ExitPkt}
    (hP : P s)  : P (State.exitSend s p e) := by
  unfold State.exitSend
  extract_lets x0 x1
  try clear_value x0
  try clear_value x1
  repeat' first
    | with_reducible assumption
    | with_reducible refine keep_confirmTo KR Ko KF KM Kg Kb Ke Kk Kl Ki ?_
    | with_reducible refine keep_setFlag KR ?_
    | with_reducible refine keep_raise KR KF Kg ?_
    | with_reducible refine keep_sendUdp Ko ?_
    | split
    | with_reducible refine Ki.ring _ _ ?_

theorem keep_exitOffer (KR : KeepRegs P) (Ko : KeepOut P) (KF : KeepFlt P) (KM : KeepMem P) (Kg : KeepLog P) (Kb : KeepStr P) (Ke : KeepGge P) (Kk : KeepGaps P) (Kl : KeepLnk P) (Ki : KeepRing P) {s : State} {p : Nat} {e : ExitPkt}
    (hP : P s)  : P (State.exitOffer s p e) := by
  unfold State.exitOffer
  extract_lets x0 x1
  have k0 : P x0 := by
    unfold x0
    repeat' first
      | with_reducible assumption
      | with_reducible refine keep_unresolve KR Ko KF Kg Ki ?_
      | split
  try clear_value x0
  try clear_value x1
  repeat' first
    | with_reducible assumption
    | with_reducible refine keep_exitSend KR Ko KF KM Kg Kb Ke Kk Kl Ki ?_
    | split
    | with_reducible refine Ki.ring _ _ ?_

theorem keep_exitFlush (KR : KeepRegs P) (Ko : KeepOut P) (KF : KeepFlt P) (KM : KeepMem P) (Kg : KeepLog P) (Kb : KeepStr P) (Ke : KeepGge P) (Kk : KeepGaps P) (Kl : KeepLnk P) (Ki : KeepRing P) {s : State} {p : Nat}
    (hP : P s)  : P (State.exitFlush s p) := by
  unfold State.exitFlush
  extract_lets x0 x1
  try clear_value x0
  try clear_value x1
  repeat' first
    | with_reducible assumption
    | with_reducible refine keep_exitOffer KR Ko KF KM Kg Kb Ke Kk Kl Ki ?_
    | (with_reducible refine keep_forEach ?_ ?_)
    | (intro s x hx)
    | with_reducible refine Ki.ring _ _ ?_

theorem keep_execLaneLosClear (KR : KeepRegs P) (Ko : KeepOut P) (KF : KeepFlt P) (KM : KeepMem P) (Kg : KeepLog P) (Kb : KeepStr P) (Ke : KeepGge P) (Kk : KeepGaps P) (Kl : KeepLnk P) (Ki : KeepRing P) {i : Fin 10} {s : State}
    (hP : P s) {u : State} (e : execLaneLosClear i s = .next u) : P u := by
  unfold execLaneLosClear at e
  refine keep_act hP ?_ e
  clear e
  extract_lets x0
  have k0 : P x0 := by
    unfold x0
    repeat' first
      | with_reducible assumption
      | with_reducible refine keep_setFlag KR ?_
      | with_reducible refine keep_laneQuiet KR KF Kg ?_
      | with_reducible refine keep_losCount Ki ?_
  try clear_value x0
  repeat' first
    | with_reducible assumption
    | with_reducible refine keep_exitFlush KR Ko KF KM Kg Kb Ke Kk Kl Ki ?_
    | split

theorem keep_execExitPacketExpiry (KL : KeepTime P) (Ki : KeepRing P) {s : State}
    (hP : P s) {u : State} (e : execExitPacketExpiry s = .next u) : P u := by
  unfold execExitPacketExpiry at e
  refine keep_act hP ?_ e
  clear e
  repeat' first
    | with_reducible assumption
    | with_reducible refine keep_moveTo KL ?_
    | split
    | dsimp only
    | with_reducible refine Ki.ring _ _ ?_

theorem keep_execDatagramPassedEchoMonitor (KR : KeepRegs P) (Ko : KeepOut P) (KF : KeepFlt P) (KM : KeepMem P) (Kg : KeepLog P) (Kb : KeepStr P) (Ke : KeepGge P) (Kk : KeepGaps P) (Kl : KeepLnk P) (Ki : KeepRing P) {origin : Fin 65536} {c : Fin 512} {pseq : BitVec 32} {s : State}
    (hP : P s) {u : State} (e : execDatagramPassedEchoMonitor origin c pseq s = .next u) : P u := by
  unfold execDatagramPassedEchoMonitor at e
  refine keep_act hP ?_ e
  clear e
  extract_lets x0 x1
  try clear_value x0
  try clear_value x1
  repeat' first
    | with_reducible assumption
    | with_reducible refine keep_confirmTo KR Ko KF KM Kg Kb Ke Kk Kl Ki ?_
    | split
    | with_reducible refine Ki.ring _ _ ?_

theorem keep_pathSync (KR : KeepRegs P) (KF : KeepFlt P) (Kg : KeepLog P) (Kb : KeepStr P) (Ke : KeepGge P) (Kk : KeepGaps P) (Ki : KeepRing P) {s : State}
    (hP : P s)  : P (State.pathSync s) := by
  unfold State.pathSync
  extract_lets x0 x1 x2
  try clear_value x0
  have k1 : P x1 := by
    unfold x1
    repeat' first
      | with_reducible assumption
      | with_reducible refine keep_rewindAll KR KF Kg Kb Ke Kk ?_
      | split
  try clear_value x1
  try clear_value x2
  repeat' first
    | with_reducible assumption
    | with_reducible refine Ki.ring _ _ ?_

theorem keep_sendUp (Ko : KeepOut P) (Kl : KeepLnk P) {s : State} {k : Nat} {c : Nat} {pseq : Nat} {bs : List Byte}
    (hP : P s)  : P (State.sendUp s k c pseq bs) := by
  unfold State.sendUp
  repeat' first
    | with_reducible assumption
    | with_reducible refine keep_sendCell Ko Kl ?_
    | (with_reducible refine keep_forEach ?_ ?_)
    | (intro s x hx)

theorem keep_sendTake (KR : KeepRegs P) (KF : KeepFlt P) (Kg : KeepLog P) (Kb : KeepStr P) (Ke : KeepGge P) (Kk : KeepGaps P) {s : State} {c : Nat} {stored : Bool} {q : Nat}
    (hP : P s)  : P (State.sendTake s c stored q) := by
  unfold State.sendTake
  extract_lets x0 x1 x2 x3
  try clear_value x0
  try clear_value x1
  have k2 : P x2 := by
    unfold x2
    repeat' first
      | with_reducible assumption
      | with_reducible refine Ke.gge _ _ ?_
  try clear_value x2
  try clear_value x3
  repeat' first
    | with_reducible assumption
    | with_reducible refine Kb.setStr _ _ _ ?_
    | with_reducible refine keep_takePkt KR KF Kg Kb ?_
    | split
    | with_reducible refine Kk.gapStore _ _ ?_

theorem keep_packetSend (KR : KeepRegs P) (Ko : KeepOut P) (KF : KeepFlt P) (KM : KeepMem P) (Kg : KeepLog P) (Kb : KeepStr P) (Ke : KeepGge P) (Kk : KeepGaps P) (Kl : KeepLnk P) (Ki : KeepRing P) {s : State} {c : Nat} {stored : Bool}
    (hP : P s)  : P (State.packetSend s c stored) := by
  unfold State.packetSend
  extract_lets x0
  try clear_value x0
  repeat' first
    | with_reducible assumption
    | with_reducible refine keep_sendTake KR KF Kg Kb Ke Kk ?_
    | with_reducible refine keep_exitSend KR Ko KF KM Kg Kb Ke Kk Kl Ki ?_
    | with_reducible refine keep_sendUp Ko Kl ?_
    | with_reducible refine keep_unresolve KR Ko KF Kg Ki ?_
    | split
    | dsimp only

theorem keep_execPacketSend (KR : KeepRegs P) (Ko : KeepOut P) (KF : KeepFlt P) (KM : KeepMem P) (Kg : KeepLog P) (Kb : KeepStr P) (Ke : KeepGge P) (Kk : KeepGaps P) (Kl : KeepLnk P) (Ki : KeepRing P) {c : Fin 512} {stored : Bool} {s : State}
    (hP : P s) {u : State} (e : execPacketSend c stored s = .next u) : P u := by
  unfold execPacketSend at e
  refine keep_act hP ?_ e
  clear e
  repeat' first
    | with_reducible assumption
    | with_reducible refine keep_packetSend KR Ko KF KM Kg Kb Ke Kk Kl Ki ?_

theorem keep_execStreamConfirmation (KR : KeepRegs P) (Ko : KeepOut P) (KF : KeepFlt P) (KM : KeepMem P) (Kg : KeepLog P) (Kb : KeepStr P) (Ke : KeepGge P) (Kk : KeepGaps P) {c : Fin 512} {pseq : BitVec 32} {s : State}
    (hP : P s) {u : State} (e : execStreamConfirmation c pseq s = .next u) : P u := by
  unfold execStreamConfirmation at e
  refine keep_act hP ?_ e
  clear e
  repeat' first
    | with_reducible assumption
    | with_reducible refine keep_ggeConfirm Ke ?_
    | with_reducible refine keep_confirm KR Ko KF KM Kg Kb Kk ?_

theorem keep_execDropEntry (KR : KeepRegs P) (Ko : KeepOut P) (KF : KeepFlt P) (KM : KeepMem P) (Kg : KeepLog P) (Kb : KeepStr P) (Ke : KeepGge P) {c : Fin 512} {pseq : BitVec 32} {s : State}
    (hP : P s) {u : State} (e : execDropEntry c pseq s = .next u) : P u := by
  unfold execDropEntry at e
  refine keep_act hP ?_ e
  clear e
  repeat' first
    | with_reducible assumption
    | with_reducible refine keep_ggeConfirm Ke ?_
    | with_reducible refine keep_dropPkt KR Ko KF KM Kg Kb ?_

theorem keep_writeStrCtrl (KR : KeepRegs P) (Ko : KeepOut P) (KF : KeepFlt P) (KM : KeepMem P) (Kg : KeepLog P) (Kb : KeepStr P) (Ke : KeepGge P) (Kk : KeepGaps P) {s : State} {c : Nat} {v : Word}
    (hP : P s)  : P (State.writeStrCtrl s c v) := by
  unfold State.writeStrCtrl
  extract_lets x0
  have k0 : P x0 := by
    unfold x0
    repeat' first
      | with_reducible assumption
      | with_reducible refine keep_writeFlds KR ?_
  try clear_value x0
  repeat' first
    | with_reducible assumption
    | with_reducible refine keep_ctxAbort KR Ko KF KM Kg Kb Ke Kk ?_
    | with_reducible refine keep_strStop KR Ko KF KM Kg Kb ?_
    | with_reducible refine keep_ctxStart KR Ko KF KM Kg Kb Ke ?_
    | split

theorem keep_execStrCtrlStart (KR : KeepRegs P) (Ko : KeepOut P) (KF : KeepFlt P) (KM : KeepMem P) (Kg : KeepLog P) (Kb : KeepStr P) (Ke : KeepGge P) (Kk : KeepGaps P) {c : Fin 512} {v : Word} {s : State}
    (hP : P s) {u : State} (e : execStrCtrlStart c v s = .next u) : P u := by
  unfold execStrCtrlStart at e
  refine keep_act hP ?_ e
  clear e
  repeat' first
    | with_reducible assumption
    | with_reducible refine keep_writeStrCtrl KR Ko KF KM Kg Kb Ke Kk ?_

theorem keep_execStrCtrlStop (KR : KeepRegs P) (Ko : KeepOut P) (KF : KeepFlt P) (KM : KeepMem P) (Kg : KeepLog P) (Kb : KeepStr P) (Ke : KeepGge P) (Kk : KeepGaps P) {c : Fin 512} {v : Word} {s : State}
    (hP : P s) {u : State} (e : execStrCtrlStop c v s = .next u) : P u := by
  unfold execStrCtrlStop at e
  refine keep_act hP ?_ e
  clear e
  repeat' first
    | with_reducible assumption
    | with_reducible refine keep_writeStrCtrl KR Ko KF KM Kg Kb Ke Kk ?_

theorem keep_execStrCtrlAbort (KR : KeepRegs P) (Ko : KeepOut P) (KF : KeepFlt P) (KM : KeepMem P) (Kg : KeepLog P) (Kb : KeepStr P) (Ke : KeepGge P) (Kk : KeepGaps P) {c : Fin 512} {v : Word} {s : State}
    (hP : P s) {u : State} (e : execStrCtrlAbort c v s = .next u) : P u := by
  unfold execStrCtrlAbort at e
  refine keep_act hP ?_ e
  clear e
  repeat' first
    | with_reducible assumption
    | with_reducible refine keep_writeStrCtrl KR Ko KF KM Kg Kb Ke Kk ?_

theorem keep_execStreamRowAppend (KR : KeepRegs P) (Ko : KeepOut P) (KF : KeepFlt P) (KM : KeepMem P) (Kg : KeepLog P) (KL : KeepTime P) (Kb : KeepStr P) {c : Fin 512} {s : State}
    (hP : P s) {u : State} (e : execStreamRowAppend c s = .next u) : P u := by
  unfold execStreamRowAppend at e
  refine keep_act hP ?_ e
  clear e
  repeat' first
    | with_reducible assumption
    | with_reducible refine keep_moveTo KL ?_
    | with_reducible refine keep_lossGap KR Ko KF KM Kg Kb ?_
    | with_reducible refine keep_appendRow KR Ko KF KM Kg Kb ?_
    | with_reducible refine Kb.setStr _ _ _ ?_
    | split

theorem keep_execSpillDrain (KR : KeepRegs P) (KF : KeepFlt P) (KM : KeepMem P) (Kg : KeepLog P) (Kb : KeepStr P) {c : Fin 512} {s : State}
    (hP : P s) {u : State} (e : execSpillDrain c s = .next u) : P u := by
  unfold execSpillDrain at e
  refine keep_act hP ?_ e
  clear e
  repeat' first
    | with_reducible assumption
    | with_reducible refine keep_drainSpill KR KF KM Kg Kb ?_

theorem keep_execPacketFlush (KR : KeepRegs P) (Ko : KeepOut P) (KF : KeepFlt P) (KM : KeepMem P) (Kg : KeepLog P) (KL : KeepTime P) (Kb : KeepStr P) {c : Fin 512} {s : State}
    (hP : P s) {u : State} (e : execPacketFlush c s = .next u) : P u := by
  unfold execPacketFlush at e
  refine keep_act hP ?_ e
  clear e
  repeat' first
    | with_reducible assumption
    | with_reducible refine keep_moveTo KL ?_
    | with_reducible refine keep_closePkt KR Ko KF KM Kg Kb ?_
    | split

theorem keep_execDescriptorDue (KR : KeepRegs P) (Ko : KeepOut P) (KF : KeepFlt P) (KM : KeepMem P) (Kg : KeepLog P) (KL : KeepTime P) (Kb : KeepStr P) {c : Fin 512} {s : State}
    (hP : P s) {u : State} (e : execDescriptorDue c s = .next u) : P u := by
  unfold execDescriptorDue at e
  refine keep_act hP ?_ e
  clear e
  repeat' first
    | with_reducible assumption
    | with_reducible refine keep_moveTo KL ?_
    | with_reducible refine keep_appendDesc KR Ko KF KM Kg Kb ?_
    | with_reducible refine Kb.setStr _ _ _ ?_
    | split
    | dsimp only

theorem keep_execArpRequestRx (KR : KeepRegs P) (Ko : KeepOut P) {p : RxPort} {target : BitVec 32} {sender : BitVec 32} {mac : BitVec 48} {s : State}
    (hP : P s) {u : State} (e : execArpRequestRx p target sender mac s = .next u) : P u := by
  unfold execArpRequestRx at e
  refine keep_act hP ?_ e
  clear e
  repeat' first
    | with_reducible assumption
    | with_reducible refine keep_rxGate KR ?_ ?_
    | with_reducible refine keep_sendFrame Ko ?_
    | split

theorem keep_execNeighbourSolicitationRx (KR : KeepRegs P) (Ko : KeepOut P) {p : RxPort} {target : BitVec 128} {source : BitVec 128} {s : State}
    (hP : P s) {u : State} (e : execNeighbourSolicitationRx p target source s = .next u) : P u := by
  unfold execNeighbourSolicitationRx at e
  refine keep_act hP ?_ e
  clear e
  repeat' first
    | with_reducible assumption
    | with_reducible refine keep_rxGate KR ?_ ?_
    | with_reducible refine keep_sendFrame Ko ?_
    | split

theorem keep_resolved (KR : KeepRegs P) (Ko : KeepOut P) (KF : KeepFlt P) (KM : KeepMem P) (Kg : KeepLog P) (Kb : KeepStr P) (Ke : KeepGge P) (Kk : KeepGaps P) (Kl : KeepLnk P) (Ki : KeepRing P) {s : State} {p : Nat}
    (hP : P s)  : P (State.resolved s p) := by
  unfold State.resolved
  repeat' first
    | with_reducible assumption
    | with_reducible refine keep_resolveAll KR KF Kg Ki ?_
    | with_reducible refine keep_exitFlush KR Ko KF KM Kg Kb Ke Kk Kl Ki ?_

theorem keep_ipConflict (KR : KeepRegs P) (KF : KeepFlt P) (Kg : KeepLog P) {s : State} {p : Nat}
    (hP : P s)  : P (State.ipConflict s p) := by
  unfold State.ipConflict
  repeat' first
    | with_reducible assumption
    | with_reducible refine keep_setFlag KR ?_
    | with_reducible refine keep_raise KR KF Kg ?_

theorem keep_execArpReplyRx (KR : KeepRegs P) (Ko : KeepOut P) (KF : KeepFlt P) (KM : KeepMem P) (Kg : KeepLog P) (Kb : KeepStr P) (Ke : KeepGge P) (Kk : KeepGaps P) (Kl : KeepLnk P) (Ki : KeepRing P) {p : RxPort} {ip : BitVec 32} {mac : BitVec 48} {s : State}
    (hP : P s) {u : State} (e : execArpReplyRx p ip mac s = .next u) : P u := by
  unfold execArpReplyRx at e
  refine keep_act hP ?_ e
  clear e
  extract_lets x0
  try clear_value x0
  repeat' first
    | with_reducible assumption
    | with_reducible refine keep_rxGate KR ?_ ?_
    | with_reducible refine keep_ipConflict KR KF Kg ?_
    | with_reducible refine keep_resolved KR Ko KF KM Kg Kb Ke Kk Kl Ki ?_
    | split
    | with_reducible refine Ki.ring _ _ ?_

theorem keep_execNeighbourAdvertisementRx (KR : KeepRegs P) (Ko : KeepOut P) (KF : KeepFlt P) (KM : KeepMem P) (Kg : KeepLog P) (Kb : KeepStr P) (Ke : KeepGge P) (Kk : KeepGaps P) (Kl : KeepLnk P) (Ki : KeepRing P) {p : RxPort} {ip : BitVec 128} {mac : BitVec 48} {s : State}
    (hP : P s) {u : State} (e : execNeighbourAdvertisementRx p ip mac s = .next u) : P u := by
  unfold execNeighbourAdvertisementRx at e
  refine keep_act hP ?_ e
  clear e
  extract_lets x0
  try clear_value x0
  repeat' first
    | with_reducible assumption
    | with_reducible refine keep_rxGate KR ?_ ?_
    | with_reducible refine keep_ipConflict KR KF Kg ?_
    | with_reducible refine keep_resolved KR Ko KF KM Kg Kb Ke Kk Kl Ki ?_
    | split
    | with_reducible refine Ki.ring _ _ ?_

theorem keep_execIcmpEchoRequest (KR : KeepRegs P) (Ko : KeepOut P) {p : EchoRx} {v6 : Bool} {dest : BitVec 128} {source : BitVec 128} {ident : Fin 65536} {seq : Fin 65536} {s : State}
    (hP : P s) {u : State} (e : execIcmpEchoRequest p v6 dest source ident seq s = .next u) : P u := by
  unfold execIcmpEchoRequest at e
  refine keep_act hP ?_ e
  clear e
  repeat' first
    | with_reducible assumption
    | with_reducible refine keep_rxGate KR ?_ ?_
    | with_reducible refine keep_sendFrame Ko ?_
    | split

theorem keep_execDestResolveRetry (KR : KeepRegs P) (Ko : KeepOut P) (KF : KeepFlt P) (KM : KeepMem P) (Kg : KeepLog P) (KL : KeepTime P) (Kb : KeepStr P) (Ke : KeepGge P) (Kk : KeepGaps P) (Kl : KeepLnk P) (Ki : KeepRing P) {s : State}
    (hP : P s) {u : State} (e : execDestResolveRetry s = .next u) : P u := by
  unfold execDestResolveRetry at e
  refine keep_act hP ?_ e
  clear e
  extract_lets x0 x1 x2
  have k0 : P x0 := by
    unfold x0
    repeat' first
      | with_reducible assumption
      | with_reducible refine keep_moveTo KL ?_
  try clear_value x0
  try clear_value x1
  have k2 : P x2 := by
    unfold x2
    repeat' first
      | with_reducible assumption
      | with_reducible refine Ki.ring _ _ ?_
  try clear_value x2
  repeat' first
    | with_reducible assumption
    | with_reducible refine keep_resolved KR Ko KF KM Kg Kb Ke Kk Kl Ki ?_
    | with_reducible refine keep_solicit Ko ?_
    | (with_reducible refine keep_forEach ?_ ?_)
    | (intro s x hx)
    | split

end Sys2Proof.Machine
end

