-- ==== Sys2Proof/Laws/KeepSnapshot.lean ====
section
/-! SUPPORT. What the operations of Machine/Snapshot.lean keep (see Laws/Keep.lean). -/
namespace Sys2Proof.Machine
variable {P : State → Prop}

theorem keep_snapRequest (KR : KeepRegs P) (KQ : KeepSnap P) {s : State} {time : Nat} {cause : Nat} {late : Bool}
    (hP : P s)  : P (State.snapRequest s time cause late).1 := by
  unfold State.snapRequest
  extract_lets x0
  have k0 : P x0 := by
    unfold x0
    split
    · exact keep_setFlag KR hP
    · exact hP
  clear_value x0
  split
  · exact KQ.snap _ _ (by simp) k0
  split
  · exact keep_setFld KR (KQ.snap _ _ (fun h => h) k0)
  split
  · exact keep_bump KR k0
  · rename_i _ _ h2
    refine KQ.snap _ _ (fun _ => ?_) k0
    have hlen : ∀ (r : SnapReq) (l : List SnapReq), (insSnap r l).length = l.length + 1 := by
      intro r l
      induction l with
      | nil => rfl
      | cons a t ih => unfold insSnap; split <;> simp [ih]
    simp only [hlen]
    simp at h2
    omega


theorem keep_snapLocal (KR : KeepRegs P) (Ko : KeepOut P) (Kk : KeepGaps P) (Kl : KeepLnk P) (KQ : KeepSnap P) {s : State} {req : Nat} {time : Nat} {cause : Nat} {late : Bool} {fwd : Bool}
    (hP : P s)  : P (State.snapLocal s req time cause late fwd) := by
  unfold State.snapLocal
  extract_lets x0
  try clear_value x0
  repeat' first
    | with_reducible assumption
    | with_reducible refine keep_snapRequest KR KQ ?_
    | with_reducible refine keep_sendVc1 Ko Kk Kl ?_
    | with_reducible refine keep_fst (by assumption) ?_
    | split

theorem keep_execSnapPinEdge (KR : KeepRegs P) (Ko : KeepOut P) (Kk : KeepGaps P) (Kl : KeepLnk P) (KQ : KeepSnap P) {ph : Phase} {s : State}
    (hP : P s) {u : State} (e : execSnapPinEdge ph s = .next u) : P u := by
  unfold execSnapPinEdge at e
  refine keep_act hP ?_ e
  clear e
  extract_lets x0
  try clear_value x0
  repeat' first
    | with_reducible assumption
    | with_reducible refine keep_snapLocal KR Ko Kk Kl KQ ?_
    | split

theorem keep_writeSnapCtrl (KR : KeepRegs P) (Ko : KeepOut P) (Kk : KeepGaps P) (Kl : KeepLnk P) (KQ : KeepSnap P) {s : State} {v : Word}
    (hP : P s)  : P (State.writeSnapCtrl s v) := by
  unfold State.writeSnapCtrl
  extract_lets x0
  have k0 : P x0 := by
    unfold x0
    repeat' first
      | with_reducible assumption
      | with_reducible refine keep_writeFlds KR ?_
  try clear_value x0
  repeat' first
    | with_reducible assumption
    | with_reducible refine keep_snapLocal KR Ko Kk Kl KQ ?_
    | split

theorem keep_execSnapCtrlSoft (KR : KeepRegs P) (Ko : KeepOut P) (Kk : KeepGaps P) (Kl : KeepLnk P) (KQ : KeepSnap P) {v : Word} {s : State}
    (hP : P s) {u : State} (e : execSnapCtrlSoft v s = .next u) : P u := by
  unfold execSnapCtrlSoft at e
  refine keep_act hP ?_ e
  clear e
  repeat' first
    | with_reducible assumption
    | with_reducible refine keep_writeSnapCtrl KR Ko Kk Kl KQ ?_

theorem keep_snapBroadcast (KR : KeepRegs P) (Ko : KeepOut P) (Kk : KeepGaps P) (Kl : KeepLnk P) (KQ : KeepSnap P) {s : State} {k : Nat} {m : Vc1Msg}
    (hP : P s)  : P (State.snapBroadcast s k m) := by
  unfold State.snapBroadcast
  extract_lets x0
  try clear_value x0
  repeat' first
    | with_reducible assumption
    | with_reducible refine keep_takeVc1 Ko Kk Kl ?_
    | with_reducible refine keep_snapRequest KR KQ ?_
    | with_reducible refine keep_fst (by assumption) ?_
    | split

theorem keep_execSnapshotBroadcastRx (KR : KeepRegs P) (Ko : KeepOut P) (Kk : KeepGaps P) (Kl : KeepLnk P) (KQ : KeepSnap P) {k : Fin 2} {m : Vc1Msg} {s : State}
    (hP : P s) {u : State} (e : execSnapshotBroadcastRx k m s = .next u) : P u := by
  unfold execSnapshotBroadcastRx at e
  refine keep_act hP ?_ e
  clear e
  repeat' first
    | with_reducible assumption
    | with_reducible refine keep_snapBroadcast KR Ko Kk Kl KQ ?_

end Sys2Proof.Machine
end

