-- ==== Sys2Proof/Laws/KeepSpindle.lean ====
section
/-! SUPPORT. What the operations of Machine/Spindle.lean keep (see Laws/Keep.lean). -/
namespace Sys2Proof.Machine
variable {P : State → Prop}

theorem keep_setTkState (KR : KeepRegs P) {s : State} {t : Nat} {v : Nat}
    (hP : P s)  : P (State.setTkState s t v) := by
  unfold State.setTkState
  repeat' first
    | with_reducible assumption
    | with_reducible refine keep_setFld KR ?_

theorem keep_ppsGate (Ko : KeepOut P) (KS : KeepSpn P) {s : State}
    (hP : P s)  : P (State.ppsGate s) := by
  unfold State.ppsGate
  extract_lets x0
  try clear_value x0
  repeat' first
    | with_reducible assumption
    | with_reducible refine keep_emit Ko ?_
    | split
    | with_reducible refine KS.spn _ _ ?_

theorem keep_updTqFrom (KR : KeepRegs P) (Ko : KeepOut P) (KS : KeepSpn P) (Kk : KeepGaps P) (Kl : KeepLnk P) {s : State} {old : Nat}
    (hP : P s)  : P (State.updTqFrom s old) := by
  unfold State.updTqFrom
  extract_lets x0 x1
  have k0 : P x0 := by
    unfold x0
    repeat' first
      | with_reducible assumption
      | with_reducible refine keep_setFld KR ?_
      | split
  try clear_value x0
  have k1 : P x1 := by
    unfold x1
    repeat' first
      | with_reducible assumption
      | with_reducible refine keep_ppsGate Ko KS ?_
  try clear_value x1
  repeat' first
    | with_reducible assumption
    | with_reducible refine keep_sendVc1 Ko Kk Kl ?_
    | split

theorem keep_updTq (KR : KeepRegs P) (Ko : KeepOut P) (KS : KeepSpn P) (Kk : KeepGaps P) (Kl : KeepLnk P) {s : State}
    (hP : P s)  : P (State.updTq s) := by
  unfold State.updTq
  repeat' first
    | with_reducible assumption
    | with_reducible refine keep_updTqFrom KR Ko KS Kk Kl ?_

theorem keep_ptpRx (KR : KeepRegs P) {s : State} {r : RxPort} {t : State}
    (hP : P s) (hPt : P t) {u : State} (e : State.ptpRx s r t = .next u) : P u := by
  unfold State.ptpRx at e
  refine keep_act hP ?_ e
  clear e
  repeat' first
    | with_reducible assumption
    | with_reducible refine keep_rxGate KR ?_ ?_
    | split

theorem keep_timed  {s : State} {t : State}
    (hP : P s) (hPt : P t) {u : State} (e : State.timed s t = .next u) : P u := by
  unfold State.timed at e
  refine keep_act hP ?_ e
  clear e
  repeat' first
    | with_reducible assumption
    | split

theorem keep_setOwnTqFrom (KR : KeepRegs P) (Ko : KeepOut P) (KS : KeepSpn P) (Kk : KeepGaps P) (Kl : KeepLnk P) {s : State} {old : Nat}
    (hP : P s)  : P (State.setOwnTqFrom s old) := by
  unfold State.setOwnTqFrom
  extract_lets x0 x1
  try clear_value x0
  try clear_value x1
  repeat' first
    | with_reducible assumption
    | with_reducible refine keep_updTqFrom KR Ko KS Kk Kl ?_
    | with_reducible refine KS.spn _ _ ?_

theorem keep_setOwnTq (KR : KeepRegs P) (Ko : KeepOut P) (KS : KeepSpn P) (Kk : KeepGaps P) (Kl : KeepLnk P) {s : State}
    (hP : P s)  : P (State.setOwnTq s) := by
  unfold State.setOwnTq
  repeat' first
    | with_reducible assumption
    | with_reducible refine keep_setOwnTqFrom KR Ko KS Kk Kl ?_

theorem keep_applyRate (KR : KeepRegs P) (KF : KeepFlt P) (Kg : KeepLog P) {s : State} {ppb : Rat}
    (hP : P s)  : P (State.applyRate s ppb) := by
  unfold State.applyRate
  extract_lets x0 x1
  try clear_value x0
  have k1 : P x1 := by
    unfold x1
    repeat' first
      | with_reducible assumption
      | with_reducible refine keep_setPair KR ?_
  try clear_value x1
  repeat' first
    | with_reducible assumption
    | with_reducible refine keep_setLine KR KF Kg ?_

theorem keep_applyRateWord (KR : KeepRegs P) (KF : KeepFlt P) (Kg : KeepLog P) {s : State} {v : Nat}
    (hP : P s)  : P (State.applyRateWord s v) := by
  unfold State.applyRateWord
  extract_lets x0 x1
  try clear_value x0
  try clear_value x1
  repeat' first
    | with_reducible assumption
    | with_reducible refine keep_setPair KR ?_
    | with_reducible refine keep_setLine KR KF Kg ?_

theorem keep_cmpActions (KR : KeepRegs P) (Ko : KeepOut P) (KF : KeepFlt P) (Kg : KeepLog P) (KS : KeepSpn P) (Kr : KeepRgn P) (Kp : KeepCap P) (Kk : KeepGaps P) (Kl : KeepLnk P) (KQ : KeepSnap P) {s : State} {m : Nat} {t : Nat}
    (hP : P s)  : P (State.cmpActions s m t) := by
  unfold State.cmpActions
  extract_lets x0 x1 x2 x3
  try clear_value x0
  have k1 : P x1 := by
    unfold x1
    repeat' first
      | with_reducible assumption
      | with_reducible refine keep_trigPulse Ko KS ?_
  try clear_value x1
  have k2 : P x2 := by
    unfold x2
    repeat' first
      | with_reducible assumption
      | with_reducible refine keep_snapLocal KR Ko Kk Kl KQ ?_
      | split
  try clear_value x2
  have k3 : P x3 := by
    unfold x3
    repeat' first
      | with_reducible assumption
      | with_reducible refine keep_capEvent KR Ko KF Kg KS Kp Kk Kl ?_
      | split
  try clear_value x3
  repeat' first
    | with_reducible assumption
    | with_reducible refine Kr.setRg _ _ _ ?_
    | with_reducible refine keep_setFld KR ?_
    | (with_reducible refine keep_forEach ?_ ?_)
    | (intro s x hx)
    | split

theorem keep_setCmpU (KS : KeepSpn P) {s : State} {m : Nat} {t : Int}
    (hP : P s)  : P (State.setCmpU s m t) := by
  unfold State.setCmpU
  extract_lets x0
  try clear_value x0
  repeat' first
    | with_reducible assumption
    | with_reducible refine KS.spn _ _ ?_

theorem keep_cmpStep (KR : KeepRegs P) (Ko : KeepOut P) (KF : KeepFlt P) (Kg : KeepLog P) (KS : KeepSpn P) (Kr : KeepRgn P) (Kp : KeepCap P) (Kk : KeepGaps P) (Kl : KeepLnk P) (KQ : KeepSnap P) {s : State}
    (hP : P s)  : P (State.cmpStep s) := by
  unfold State.cmpStep
  repeat' first
    | with_reducible assumption
    | with_reducible refine keep_setFlag KR ?_
    | with_reducible refine keep_bumpBy KR ?_
    | with_reducible refine keep_raise KR KF Kg ?_
    | with_reducible refine keep_setCmpU KS ?_
    | with_reducible refine keep_cmpActions KR Ko KF Kg KS Kr Kp Kk Kl KQ ?_
    | (with_reducible refine keep_forEach ?_ ?_)
    | (intro s x hx)
    | split
    | dsimp only

theorem keep_stepTo (KR : KeepRegs P) (Ko : KeepOut P) (KF : KeepFlt P) (Kg : KeepLog P) (KT : KeepTls P) (KW : KeepPwr P) (KL : KeepTime P) (KS : KeepSpn P) (Kr : KeepRgn P) (Kh : KeepChan P) (Km : KeepMains P) (Kb : KeepStr P) (Kp : KeepCap P) (Kk : KeepGaps P) (Kl : KeepLnk P) (Kn : KeepLane P) (Ki : KeepRing P) (KH : KeepHs P) (KQ : KeepSnap P) {s : State} {new : Nat}
    (hP : P s)  : P (State.stepTo s new) := by
  unfold State.stepTo
  extract_lets d s0 x1 s1 s2 s3 s4
  have k0 : P s0 := keep_shiftTimers KF KT KW KS Kr Kh Km Kb Kp Kl Kn Ki KH hP
  clear_value s0
  have k1 : P s1 := KS.spn { s0 with lt := new } _ (KL.lt _ _ k0)
  clear_value s1
  have k2 : P s2 := keep_forEach k1 (fun s c h => Kb.setStr _ _ _ h)
  clear_value s2
  have k3 : P s3 := keep_forEach k2 (fun s c h => Kp.setCp _ _ _ h)
  clear_value s3
  have k4 : P s4 := keep_raiseHub KR KF Kg k3
  clear_value s4
  split
  · exact keep_cmpStep KR Ko KF Kg KS Kr Kp Kk Kl KQ k4
  · exact k4


theorem keep_startSteer (KR : KeepRegs P) (Ko : KeepOut P) (KS : KeepSpn P) (Kk : KeepGaps P) (Kl : KeepLnk P) {s : State} {t : Nat}
    (hP : P s)  : P (State.startSteer s t) := by
  unfold State.startSteer
  extract_lets x0 x1 x2 x3 x4 x5 x6
  try clear_value x0
  try clear_value x1
  try clear_value x2
  have k3 : P x3 := by
    unfold x3
    repeat' first
      | with_reducible assumption
      | with_reducible refine keep_setTkState KR ?_
  try clear_value x3
  have k4 : P x4 := by
    unfold x4
    repeat' first
      | with_reducible assumption
      | with_reducible refine keep_setFld KR ?_
      | split
  try clear_value x4
  try clear_value x5
  have k6 : P x6 := by
    unfold x6
    repeat' first
      | with_reducible assumption
      | with_reducible refine KS.spn _ _ ?_
  try clear_value x6
  repeat' first
    | with_reducible assumption
    | with_reducible refine keep_setOwnTqFrom KR Ko KS Kk Kl ?_

theorem keep_enterHoldover (KR : KeepRegs P) (Ko : KeepOut P) (KF : KeepFlt P) (Kg : KeepLog P) (KS : KeepSpn P) (Kk : KeepGaps P) (Kl : KeepLnk P) {s : State}
    (hP : P s)  : P (State.enterHoldover s) := by
  unfold State.enterHoldover
  extract_lets x0 x1 x2
  try clear_value x0
  have k1 : P x1 := by
    unfold x1
    repeat' first
      | with_reducible assumption
      | with_reducible refine KS.spn _ _ ?_
  try clear_value x1
  have k2 : P x2 := by
    unfold x2
    repeat' first
      | with_reducible assumption
      | with_reducible refine keep_applyRate KR KF Kg ?_
      | split
  try clear_value x2
  repeat' first
    | with_reducible assumption
    | with_reducible refine keep_raiseHub KR KF Kg ?_
    | with_reducible refine keep_updTq KR Ko KS Kk Kl ?_

theorem keep_demote (KR : KeepRegs P) (KS : KeepSpn P) {s : State} {t : Nat}
    (hP : P s)  : P (State.demote s t) := by
  unfold State.demote
  extract_lets x0
  try clear_value x0
  repeat' first
    | with_reducible assumption
    | with_reducible refine keep_setTkState KR ?_
    | with_reducible refine keep_setTrk KS ?_

theorem keep_switchTo (KR : KeepRegs P) (Ko : KeepOut P) (KF : KeepFlt P) (Kg : KeepLog P) (KS : KeepSpn P) (Kk : KeepGaps P) (Kl : KeepLnk P) {s : State} {o : Nat}
    (hP : P s)  : P (State.switchTo s o) := by
  unfold State.switchTo
  extract_lets x0
  have k0 : P x0 := by
    unfold x0
    repeat' first
      | with_reducible assumption
      | with_reducible refine keep_demote KR KS ?_
      | split
  try clear_value x0
  repeat' first
    | with_reducible assumption
    | with_reducible refine keep_startSteer KR Ko KS Kk Kl ?_
    | with_reducible refine keep_raiseHub KR KF Kg ?_

theorem keep_dropSource (KR : KeepRegs P) (KS : KeepSpn P) {s : State} {t : Nat}
    (hP : P s)  : P (State.dropSource s t) := by
  unfold State.dropSource
  extract_lets x0 x1
  have k0 : P x0 := by
    unfold x0
    repeat' first
      | with_reducible assumption
      | with_reducible refine keep_setTkState KR ?_
      | with_reducible refine keep_bump KR ?_
  try clear_value x0
  try clear_value x1
  repeat' first
    | with_reducible assumption
    | with_reducible refine keep_setTrk KS ?_

theorem keep_loseSource (KR : KeepRegs P) (Ko : KeepOut P) (KF : KeepFlt P) (Kg : KeepLog P) (KS : KeepSpn P) (Kk : KeepGaps P) (Kl : KeepLnk P) {s : State} {t : Nat}
    (hP : P s)  : P (State.loseSource s t) := by
  unfold State.loseSource
  extract_lets x0 x1 x2
  try clear_value x0
  have k1 : P x1 := by
    unfold x1
    repeat' first
      | with_reducible assumption
      | with_reducible refine keep_dropSource KR KS ?_
  try clear_value x1
  have k2 : P x2 := by
    unfold x2
    repeat' first
      | with_reducible assumption
      | with_reducible refine keep_raiseHub KR KF Kg ?_
      | with_reducible refine keep_raise KR KF Kg ?_
      | split
  try clear_value x2
  repeat' first
    | with_reducible assumption
    | with_reducible refine keep_switchTo KR Ko KF Kg KS Kk Kl ?_
    | with_reducible refine keep_enterHoldover KR Ko KF Kg KS Kk Kl ?_
    | split

theorem keep_loseAll (KR : KeepRegs P) (Ko : KeepOut P) (KF : KeepFlt P) (Kg : KeepLog P) (KS : KeepSpn P) (Kk : KeepGaps P) (Kl : KeepLnk P) {s : State} {ts : List Nat}
    (hP : P s)  : P (State.loseAll s ts) := by
  unfold State.loseAll
  extract_lets x0 x1
  try clear_value x0
  try clear_value x1
  repeat' first
    | with_reducible assumption
    | with_reducible refine keep_dropSource KR KS ?_
    | with_reducible refine keep_raiseHub KR KF Kg ?_
    | with_reducible refine keep_raise KR KF Kg ?_
    | with_reducible refine keep_enterHoldover KR Ko KF Kg KS Kk Kl ?_
    | with_reducible refine keep_loseSource KR Ko KF Kg KS Kk Kl ?_
    | (with_reducible refine keep_forEach ?_ ?_)
    | (intro s x hx)
    | split

theorem keep_losePort (KR : KeepRegs P) (Ko : KeepOut P) (KF : KeepFlt P) (Kg : KeepLog P) (KS : KeepSpn P) (Kk : KeepGaps P) (Kl : KeepLnk P) {s : State}
    (hP : P s)  : P (State.losePort s) := by
  unfold State.losePort
  repeat' first
    | with_reducible assumption
    | with_reducible refine keep_loseAll KR Ko KF Kg KS Kk Kl ?_

theorem keep_refreshTrackers (KR : KeepRegs P) (Ko : KeepOut P) (KF : KeepFlt P) (Kg : KeepLog P) (KS : KeepSpn P) (Kk : KeepGaps P) (Kl : KeepLnk P) {s : State}
    (hP : P s)  : P (State.refreshTrackers s) := by
  unfold State.refreshTrackers
  repeat' first
    | with_reducible assumption
    | with_reducible refine keep_setTkState KR ?_
    | with_reducible refine keep_setTrk KS ?_
    | with_reducible refine keep_enterHoldover KR Ko KF Kg KS Kk Kl ?_
    | (with_reducible refine keep_forEach ?_ ?_)
    | (intro s x hx)
    | split
    | dsimp only

theorem keep_sourceValid (KR : KeepRegs P) (KS : KeepSpn P) {s : State} {t : Nat}
    (hP : P s)  : P (State.sourceValid s t) := by
  unfold State.sourceValid
  extract_lets x0
  try clear_value x0
  repeat' first
    | with_reducible assumption
    | with_reducible refine keep_setTkState KR ?_
    | with_reducible refine keep_setTrk KS ?_
    | split

theorem keep_servo (KR : KeepRegs P) (Ko : KeepOut P) (KF : KeepFlt P) (Kg : KeepLog P) (KT : KeepTls P) (KW : KeepPwr P) (KL : KeepTime P) (KS : KeepSpn P) (Kr : KeepRgn P) (Kh : KeepChan P) (Km : KeepMains P) (Kb : KeepStr P) (Kp : KeepCap P) (Kk : KeepGaps P) (Kl : KeepLnk P) (Kn : KeepLane P) (Ki : KeepRing P) (KH : KeepHs P) (KQ : KeepSnap P) {s : State} {t : Nat} {theta : Int} {dt : Nat}
    (hP : P s)  : P (State.servo s t theta dt) := by
  unfold State.servo
  extract_lets x0 x1 x2 x3 x4 x5 x6 x7 x8 x9 x10 x11 x12
  try clear_value x0
  try clear_value x1
  try clear_value x2
  try clear_value x3
  try clear_value x4
  have k5 : P x5 := by
    unfold x5
    repeat' first
      | with_reducible assumption
      | with_reducible refine KS.spn _ _ ?_
  try clear_value x5
  have k6 : P x6 := by
    unfold x6
    repeat' first
      | with_reducible assumption
      | with_reducible refine keep_raiseHub KR KF Kg ?_
      | split
  try clear_value x6
  try clear_value x7
  try clear_value x8
  try clear_value x9
  try clear_value x10
  try clear_value x11
  try clear_value x12
  repeat' first
    | with_reducible assumption
    | with_reducible refine keep_stepTo KR Ko KF Kg KT KW KL KS Kr Kh Km Kb Kp Kk Kl Kn Ki KH KQ ?_
    | with_reducible refine keep_applyRate KR KF Kg ?_
    | split
    | with_reducible refine KS.spn _ _ ?_

theorem keep_measure (KR : KeepRegs P) (Ko : KeepOut P) (KF : KeepFlt P) (Kg : KeepLog P) (KT : KeepTls P) (KW : KeepPwr P) (KL : KeepTime P) (KS : KeepSpn P) (Kr : KeepRgn P) (Kh : KeepChan P) (Km : KeepMains P) (Kb : KeepStr P) (Kp : KeepCap P) (Kk : KeepGaps P) (Kl : KeepLnk P) (Kn : KeepLane P) (Ki : KeepRing P) (KH : KeepHs P) (KQ : KeepSnap P) {s : State} {t : Nat} {theta : Int} {frq : Nat} {iv : Nat}
    (hP : P s)  : P (State.measure s t theta frq iv) := by
  unfold State.measure
  extract_lets x0 x1 x2 x3 x4 x5 x6 x7 x8 x9 x10
  have k0 : P x0 := by
    unfold x0
    repeat' first
      | with_reducible assumption
      | with_reducible refine keep_sourceValid KR KS ?_
  try clear_value x0
  have k1 : P x1 := by
    unfold x1
    repeat' first
      | with_reducible assumption
      | with_reducible refine keep_setPair KR ?_
  try clear_value x1
  have k2 : P x2 := by
    unfold x2
    repeat' first
      | with_reducible assumption
      | with_reducible refine KR.setReg _ _ _ ?_
  try clear_value x2
  try clear_value x3
  try clear_value x4
  try clear_value x5
  have k6 : P x6 := by
    unfold x6
    repeat' first
      | with_reducible assumption
      | with_reducible refine keep_setTrk KS ?_
  try clear_value x6
  try clear_value x7
  try clear_value x8
  try clear_value x9
  have k10 : P x10 := by
    unfold x10
    repeat' first
      | with_reducible assumption
      | split
      | with_reducible refine KS.spn _ _ ?_
  try clear_value x10
  repeat' first
    | with_reducible assumption
    | with_reducible refine keep_servo KR Ko KF Kg KT KW KL KS Kr Kh Km Kb Kp Kk Kl Kn Ki KH KQ ?_
    | split

theorem keep_ptpMeasure (KR : KeepRegs P) (Ko : KeepOut P) (KF : KeepFlt P) (Kg : KeepLog P) (KT : KeepTls P) (KW : KeepPwr P) (KL : KeepTime P) (KS : KeepSpn P) (Kr : KeepRgn P) (Kh : KeepChan P) (Km : KeepMains P) (Kb : KeepStr P) (Kp : KeepCap P) (Kk : KeepGaps P) (Kl : KeepLnk P) (Kn : KeepLane P) (Ki : KeepRing P) (KH : KeepHs P) (KQ : KeepSnap P) {s : State} {t : Nat} {frq : Nat}
    (hP : P s)  : P (State.ptpMeasure s t frq) := by
  unfold State.ptpMeasure
  extract_lets x0
  try clear_value x0
  repeat' first
    | with_reducible assumption
    | with_reducible refine keep_setTrk KS ?_
    | with_reducible refine keep_measure KR Ko KF Kg KT KW KL KS Kr Kh Km Kb Kp Kk Kl Kn Ki KH KQ ?_
    | split

theorem keep_execSyncRx (KR : KeepRegs P) (Ko : KeepOut P) (KF : KeepFlt P) (Kg : KeepLog P) (KT : KeepTls P) (KW : KeepPwr P) (KL : KeepTime P) (KS : KeepSpn P) (Kr : KeepRgn P) (Kh : KeepChan P) (Km : KeepMains P) (Kb : KeepStr P) (Kp : KeepCap P) (Kk : KeepGaps P) (Kl : KeepLnk P) (Kn : KeepLane P) (Ki : KeepRing P) (KH : KeepHs P) (KQ : KeepSnap P) {m : PtpMsg} {ph : Phase} {frq : BitVec 32} {s : State}
    (hP : P s) {u : State} (e : execSyncRx m ph frq s = .next u) : P u := by
  unfold execSyncRx at e
  refine keep_next ?_ e
  clear e
  extract_lets x0
  have k0 : P x0 := by
    unfold x0
    repeat' first
      | with_reducible assumption
      | with_reducible refine keep_refreshTrackers KR Ko KF Kg KS Kk Kl ?_
  try clear_value x0
  repeat' first
    | with_reducible assumption
    | with_reducible refine keep_rxGate KR ?_ ?_
    | with_reducible refine keep_sourceValid KR KS ?_
    | with_reducible refine keep_setTrk KS ?_
    | with_reducible refine keep_ptpMeasure KR Ko KF Kg KT KW KL KS Kr Kh Km Kb Kp Kk Kl Kn Ki KH KQ ?_
    | split
    | dsimp only

theorem keep_execFollowUpRx (KR : KeepRegs P) (Ko : KeepOut P) (KF : KeepFlt P) (Kg : KeepLog P) (KT : KeepTls P) (KW : KeepPwr P) (KL : KeepTime P) (KS : KeepSpn P) (Kr : KeepRgn P) (Kh : KeepChan P) (Km : KeepMains P) (Kb : KeepStr P) (Kp : KeepCap P) (Kk : KeepGaps P) (Kl : KeepLnk P) (Kn : KeepLane P) (Ki : KeepRing P) (KH : KeepHs P) (KQ : KeepSnap P) {m : PtpMsg} {frq : BitVec 32} {s : State}
    (hP : P s) {u : State} (e : execFollowUpRx m frq s = .next u) : P u := by
  unfold execFollowUpRx at e
  refine keep_next ?_ e
  clear e
  repeat' first
    | with_reducible assumption
    | with_reducible refine keep_rxGate KR ?_ ?_
    | with_reducible refine keep_setTrk KS ?_
    | with_reducible refine keep_ptpMeasure KR Ko KF Kg KT KW KL KS Kr Kh Km Kb Kp Kk Kl Kn Ki KH KQ ?_
    | split
    | dsimp only

theorem keep_sendPtp (Ko : KeepOut P) {s : State} {p : Nat} {kind : Nat} {domain : Nat} {seq : Nat} {stamp : Nat} {corr : Int}
    (hP : P s)  : P (State.sendPtp s p kind domain seq stamp corr) := by
  unfold State.sendPtp
  extract_lets x0
  try clear_value x0
  repeat' first
    | with_reducible assumption
    | with_reducible refine keep_emit Ko ?_
    | split

theorem keep_execDelayReqSend (Ko : KeepOut P) (KL : KeepTime P) (KS : KeepSpn P) {t : Fin 2} {ph : Phase} {s : State}
    (hP : P s) {u : State} (e : execDelayReqSend t ph s = .next u) : P u := by
  unfold execDelayReqSend at e
  refine keep_next ?_ e
  clear e
  extract_lets x0 x1 x2 x3
  try clear_value x0
  have k1 : P x1 := by
    unfold x1
    repeat' first
      | with_reducible assumption
      | with_reducible refine keep_moveTo KL ?_
  try clear_value x1
  try clear_value x2
  try clear_value x3
  repeat' first
    | with_reducible assumption
    | with_reducible refine keep_setTrk KS ?_
    | with_reducible refine keep_sendPtp Ko ?_
    | split

theorem keep_execDelayRespRx (KR : KeepRegs P) (Ko : KeepOut P) (KF : KeepFlt P) (Kg : KeepLog P) (KT : KeepTls P) (KW : KeepPwr P) (KL : KeepTime P) (KS : KeepSpn P) (Kr : KeepRgn P) (Kh : KeepChan P) (Km : KeepMains P) (Kb : KeepStr P) (Kp : KeepCap P) (Kk : KeepGaps P) (Kl : KeepLnk P) (Kn : KeepLane P) (Ki : KeepRing P) (KH : KeepHs P) (KQ : KeepSnap P) {m : PtpMsg} {frq : BitVec 32} {s : State}
    (hP : P s) {u : State} (e : execDelayRespRx m frq s = .next u) : P u := by
  unfold execDelayRespRx at e
  refine keep_next ?_ e
  clear e
  repeat' first
    | with_reducible assumption
    | with_reducible refine keep_rxGate KR ?_ ?_
    | with_reducible refine keep_setTrk KS ?_
    | with_reducible refine keep_ptpMeasure KR Ko KF Kg KT KW KL KS Kr Kh Km Kb Kp Kk Kl Kn Ki KH KQ ?_
    | split
    | dsimp only

theorem keep_execPdelayReqSend (Ko : KeepOut P) (KL : KeepTime P) (KS : KeepSpn P) {ph : Phase} {s : State}
    (hP : P s) {u : State} (e : execPdelayReqSend ph s = .next u) : P u := by
  unfold execPdelayReqSend at e
  refine keep_next ?_ e
  clear e
  repeat' first
    | with_reducible assumption
    | with_reducible refine keep_moveTo KL ?_
    | with_reducible refine keep_setTrk KS ?_
    | with_reducible refine keep_sendPtp Ko ?_
    | (with_reducible refine keep_forEach ?_ ?_)
    | (intro s x hx)
    | split

theorem keep_nextCycle (KL : KeepTime P) {s : State}
    (hP : P s)  : P (State.nextCycle s) := by
  unfold State.nextCycle
  repeat' first
    | with_reducible assumption
    | with_reducible refine keep_moveTo KL ?_

theorem keep_execPdelayReqRx (KR : KeepRegs P) (Ko : KeepOut P) (KL : KeepTime P) {m : PtpMsg} {ph : Phases} {s : State}
    (hP : P s) {u : State} (e : execPdelayReqRx m ph s = .next u) : P u := by
  unfold execPdelayReqRx at e
  refine keep_next ?_ e
  clear e
  extract_lets x0 x1 x2
  try clear_value x0
  have k1 : P x1 := by
    unfold x1
    repeat' first
      | with_reducible assumption
      | with_reducible refine keep_nextCycle KL ?_
  try clear_value x1
  try clear_value x2
  repeat' first
    | with_reducible assumption
    | with_reducible refine keep_rxGate KR ?_ ?_
    | with_reducible refine keep_sendPtp Ko ?_
    | split

theorem keep_execPdelayRespRx (KR : KeepRegs P) (KS : KeepSpn P) {m : PtpMsg} {followUp : Bool} {ph : Phase} {s : State}
    (hP : P s) {u : State} (e : execPdelayRespRx m followUp ph s = .next u) : P u := by
  unfold execPdelayRespRx at e
  refine keep_next ?_ e
  clear e
  extract_lets x0 x1
  try clear_value x0
  try clear_value x1
  repeat' first
    | with_reducible assumption
    | with_reducible refine keep_rxGate KR ?_ ?_
    | with_reducible refine keep_setTrk KS ?_
    | (with_reducible refine keep_forEach ?_ ?_)
    | (intro s x hx)
    | split

theorem keep_execAnnounceRx (KR : KeepRegs P) (Ko : KeepOut P) (KF : KeepFlt P) (Kg : KeepLog P) (KS : KeepSpn P) (Kk : KeepGaps P) (Kl : KeepLnk P) {m : AnnounceMsg} {s : State}
    (hP : P s) {u : State} (e : execAnnounceRx m s = .next u) : P u := by
  unfold execAnnounceRx at e
  refine keep_next ?_ e
  clear e
  extract_lets x0
  have k0 : P x0 := by
    unfold x0
    repeat' first
      | with_reducible assumption
      | with_reducible refine keep_refreshTrackers KR Ko KF Kg KS Kk Kl ?_
  try clear_value x0
  repeat' first
    | with_reducible assumption
    | with_reducible refine keep_rxGate KR ?_ ?_
    | with_reducible refine keep_setTrk KS ?_
    | split
    | dsimp only

theorem keep_losePtp (KR : KeepRegs P) (Ko : KeepOut P) (KF : KeepFlt P) (Kg : KeepLog P) (KS : KeepSpn P) (Kk : KeepGaps P) (Kl : KeepLnk P) {s : State} {t : Nat}
    (hP : P s)  : P (State.losePtp s t) := by
  unfold State.losePtp
  extract_lets x0
  try clear_value x0
  repeat' first
    | with_reducible assumption
    | with_reducible refine keep_loseAll KR Ko KF Kg KS Kk Kl ?_

theorem keep_execAnnounceReceiptTimeout (KR : KeepRegs P) (Ko : KeepOut P) (KF : KeepFlt P) (Kg : KeepLog P) (KL : KeepTime P) (KS : KeepSpn P) (Kk : KeepGaps P) (Kl : KeepLnk P) {t : Fin 2} {s : State}
    (hP : P s) {u : State} (e : execAnnounceReceiptTimeout t s = .next u) : P u := by
  unfold execAnnounceReceiptTimeout at e
  refine keep_next ?_ e
  clear e
  extract_lets x0 x1
  have k0 : P x0 := by
    unfold x0
    repeat' first
      | with_reducible assumption
      | with_reducible refine keep_moveTo KL ?_
      | with_reducible refine keep_losePtp KR Ko KF Kg KS Kk Kl ?_
  try clear_value x0
  try clear_value x1
  repeat' first
    | with_reducible assumption
    | with_reducible refine keep_setTrk KS ?_
    | split

theorem keep_execSyncTimeout (KR : KeepRegs P) (Ko : KeepOut P) (KF : KeepFlt P) (Kg : KeepLog P) (KL : KeepTime P) (KS : KeepSpn P) (Kk : KeepGaps P) (Kl : KeepLnk P) {t : Fin 2} {s : State}
    (hP : P s) {u : State} (e : execSyncTimeout t s = .next u) : P u := by
  unfold execSyncTimeout at e
  refine keep_next ?_ e
  clear e
  repeat' first
    | with_reducible assumption
    | with_reducible refine keep_moveTo KL ?_
    | with_reducible refine keep_losePtp KR Ko KF Kg KS Kk Kl ?_
    | split

theorem keep_execPpsInEdge (KR : KeepRegs P) (Ko : KeepOut P) (KF : KeepFlt P) (Kg : KeepLog P) (KT : KeepTls P) (KW : KeepPwr P) (KL : KeepTime P) (KS : KeepSpn P) (Kr : KeepRgn P) (Kh : KeepChan P) (Km : KeepMains P) (Kb : KeepStr P) (Kp : KeepCap P) (Kk : KeepGaps P) (Kl : KeepLnk P) (Kn : KeepLane P) (Ki : KeepRing P) (KH : KeepHs P) (KQ : KeepSnap P) {ph : Phase} {frq : BitVec 32} {s : State}
    (hP : P s) {u : State} (e : execPpsInEdge ph frq s = .next u) : P u := by
  unfold execPpsInEdge at e
  refine keep_next ?_ e
  clear e
  extract_lets x0 x1 x2 x3 x4
  have k0 : P x0 := by
    unfold x0
    repeat' first
      | with_reducible assumption
      | with_reducible refine keep_refreshTrackers KR Ko KF Kg KS Kk Kl ?_
  try clear_value x0
  try clear_value x1
  try clear_value x2
  try clear_value x3
  try clear_value x4
  repeat' first
    | with_reducible assumption
    | with_reducible refine keep_measure KR Ko KF Kg KT KW KL KS Kr Kh Km Kb Kp Kk Kl Kn Ki KH KQ ?_
    | split
    | with_reducible refine KS.spn _ _ ?_

theorem keep_execPpsMissing (KR : KeepRegs P) (Ko : KeepOut P) (KF : KeepFlt P) (Kg : KeepLog P) (KL : KeepTime P) (KS : KeepSpn P) (Kk : KeepGaps P) (Kl : KeepLnk P) {s : State}
    (hP : P s) {u : State} (e : execPpsMissing s = .next u) : P u := by
  unfold execPpsMissing at e
  refine keep_next ?_ e
  clear e
  repeat' first
    | with_reducible assumption
    | with_reducible refine keep_moveTo KL ?_
    | with_reducible refine keep_loseSource KR Ko KF Kg KS Kk Kl ?_
    | with_reducible refine keep_raiseHub KR KF Kg ?_
    | split

theorem keep_execTcExchangeTimeout (KR : KeepRegs P) (Ko : KeepOut P) (KF : KeepFlt P) (Kg : KeepLog P) (KL : KeepTime P) (KS : KeepSpn P) (Kk : KeepGaps P) (Kl : KeepLnk P) {s : State}
    (hP : P s) {u : State} (e : execTcExchangeTimeout s = .next u) : P u := by
  unfold execTcExchangeTimeout at e
  refine keep_next ?_ e
  clear e
  repeat' first
    | with_reducible assumption
    | with_reducible refine keep_moveTo KL ?_
    | with_reducible refine keep_loseSource KR Ko KF Kg KS Kk Kl ?_
    | split

theorem keep_selectTracker (KR : KeepRegs P) (Ko : KeepOut P) (KS : KeepSpn P) (Kk : KeepGaps P) (Kl : KeepLnk P) {s : State} {t : Nat}
    (hP : P s)  : P (State.selectTracker s t) := by
  unfold State.selectTracker
  extract_lets x0
  try clear_value x0
  repeat' first
    | with_reducible assumption
    | with_reducible refine keep_startSteer KR Ko KS Kk Kl ?_
    | split

theorem keep_trackerReady (KR : KeepRegs P) (KS : KeepSpn P) {s : State} {t : Nat}
    (hP : P s)  : P (State.trackerReady s t) := by
  unfold State.trackerReady
  extract_lets x0
  try clear_value x0
  repeat' first
    | with_reducible assumption
    | with_reducible refine keep_setTkState KR ?_
    | with_reducible refine keep_setTrk KS ?_

theorem keep_execTrackerQualified (KR : KeepRegs P) (Ko : KeepOut P) (KL : KeepTime P) (KS : KeepSpn P) (Kk : KeepGaps P) (Kl : KeepLnk P) {t : Fin 3} {s : State}
    (hP : P s) {u : State} (e : execTrackerQualified t s = .next u) : P u := by
  unfold execTrackerQualified at e
  refine keep_next ?_ e
  clear e
  extract_lets x0 x1 x2 x3
  have k0 : P x0 := by
    unfold x0
    repeat' first
      | with_reducible assumption
      | with_reducible refine keep_moveTo KL ?_
      | split
  try clear_value x0
  try clear_value x1
  try clear_value x2
  have k3 : P x3 := by
    unfold x3
    repeat' first
      | with_reducible assumption
      | with_reducible refine keep_trackerReady KR KS ?_
  try clear_value x3
  repeat' first
    | with_reducible assumption
    | with_reducible refine keep_trackerReady KR KS ?_
    | with_reducible refine keep_selectTracker KR Ko KS Kk Kl ?_
    | split

theorem keep_execTrackerLockChange (KR : KeepRegs P) (Ko : KeepOut P) (KS : KeepSpn P) (Kk : KeepGaps P) (Kl : KeepLnk P) {t : Fin 3} {s : State}
    (hP : P s) {u : State} (e : execTrackerLockChange t s = .next u) : P u := by
  unfold execTrackerLockChange at e
  refine keep_next ?_ e
  clear e
  extract_lets x0
  try clear_value x0
  repeat' first
    | with_reducible assumption
    | with_reducible refine keep_setTkState KR ?_
    | with_reducible refine keep_setOwnTq KR Ko KS Kk Kl ?_
    | split

theorem keep_execDomainDisagreement (KR : KeepRegs P) (KF : KeepFlt P) (Kg : KeepLog P) (KS : KeepSpn P) {s : State}
    (hP : P s) {u : State} (e : execDomainDisagreement s = .next u) : P u := by
  unfold execDomainDisagreement at e
  refine keep_next ?_ e
  clear e
  extract_lets x0
  try clear_value x0
  repeat' first
    | with_reducible assumption
    | with_reducible refine keep_raiseHub KR KF Kg ?_
    | split
    | with_reducible refine KS.spn _ _ ?_

theorem keep_execHoldExpired (KR : KeepRegs P) (Ko : KeepOut P) (KF : KeepFlt P) (Kg : KeepLog P) (KL : KeepTime P) (KS : KeepSpn P) (Kk : KeepGaps P) (Kl : KeepLnk P) {s : State}
    (hP : P s) {u : State} (e : execHoldExpired s = .next u) : P u := by
  unfold execHoldExpired at e
  refine keep_next ?_ e
  clear e
  repeat' first
    | with_reducible assumption
    | with_reducible refine keep_moveTo KL ?_
    | with_reducible refine keep_raiseHub KR KF Kg ?_
    | with_reducible refine keep_updTq KR Ko KS Kk Kl ?_
    | split
    | dsimp only
    | with_reducible refine KS.spn _ _ ?_

theorem keep_writeSpnSw (KR : KeepRegs P) (Ko : KeepOut P) (KF : KeepFlt P) (Kg : KeepLog P) (KS : KeepSpn P) (Kk : KeepGaps P) (Kl : KeepLnk P) {s : State} {v : Word}
    (hP : P s)  : P (State.writeSpnSw s v) := by
  unfold State.writeSpnSw
  extract_lets x0
  have k0 : P x0 := by
    unfold x0
    repeat' first
      | with_reducible assumption
      | with_reducible refine keep_writeFlds KR ?_
  try clear_value x0
  repeat' first
    | with_reducible assumption
    | with_reducible refine keep_switchTo KR Ko KF Kg KS Kk Kl ?_
    | with_reducible refine keep_bump KR ?_
    | split

theorem keep_execSpnSwForce (KR : KeepRegs P) (Ko : KeepOut P) (KF : KeepFlt P) (Kg : KeepLog P) (KS : KeepSpn P) (Kk : KeepGaps P) (Kl : KeepLnk P) {v : Word} {s : State}
    (hP : P s) {u : State} (e : execSpnSwForce v s = .next u) : P u := by
  unfold execSpnSwForce at e
  refine keep_act hP ?_ e
  clear e
  repeat' first
    | with_reducible assumption
    | with_reducible refine keep_writeSpnSw KR Ko KF Kg KS Kk Kl ?_

theorem keep_execRevertSwitch (KR : KeepRegs P) (Ko : KeepOut P) (KF : KeepFlt P) (Kg : KeepLog P) (KL : KeepTime P) (KS : KeepSpn P) (Kk : KeepGaps P) (Kl : KeepLnk P) {s : State}
    (hP : P s) {u : State} (e : execRevertSwitch s = .next u) : P u := by
  unfold execRevertSwitch at e
  refine keep_next ?_ e
  clear e
  extract_lets x0 x1
  try clear_value x0
  have k1 : P x1 := by
    unfold x1
    repeat' first
      | with_reducible assumption
      | with_reducible refine keep_moveTo KL ?_
  try clear_value x1
  repeat' first
    | with_reducible assumption
    | with_reducible refine keep_switchTo KR Ko KF Kg KS Kk Kl ?_
    | split

theorem keep_modeSet (KR : KeepRegs P) (Ko : KeepOut P) (KS : KeepSpn P) (Kk : KeepGaps P) (Kl : KeepLnk P) {s : State} {was : Bool}
    (hP : P s)  : P (State.modeSet s was) := by
  unfold State.modeSet
  extract_lets x0 x1 x2
  try clear_value x0
  have k1 : P x1 := by
    unfold x1
    repeat' first
      | with_reducible assumption
      | with_reducible refine keep_demote KR KS ?_
      | split
      | with_reducible refine KS.spn _ _ ?_
  try clear_value x1
  try clear_value x2
  repeat' first
    | with_reducible assumption
    | with_reducible refine keep_setOwnTq KR Ko KS Kk Kl ?_
    | with_reducible refine keep_selectTracker KR Ko KS Kk Kl ?_
    | split
    | with_reducible refine KS.spn _ _ ?_

theorem keep_writeSpnCtrl (KR : KeepRegs P) (Ko : KeepOut P) (KF : KeepFlt P) (Kg : KeepLog P) (KT : KeepTls P) (KW : KeepPwr P) (KL : KeepTime P) (KS : KeepSpn P) (Kr : KeepRgn P) (Kh : KeepChan P) (Km : KeepMains P) (Kb : KeepStr P) (Kp : KeepCap P) (Kk : KeepGaps P) (Kl : KeepLnk P) (Kn : KeepLane P) (Ki : KeepRing P) (KH : KeepHs P) (KQ : KeepSnap P) {s : State} {v : Word}
    (hP : P s)  : P (State.writeSpnCtrl s v) := by
  unfold State.writeSpnCtrl
  extract_lets x0
  have k0 : P x0 := by
    unfold x0
    repeat' first
      | with_reducible assumption
      | with_reducible refine keep_writeFlds KR ?_
      | with_reducible refine keep_modeSet KR Ko KS Kk Kl ?_
  try clear_value x0
  repeat' first
    | with_reducible assumption
    | with_reducible refine keep_bump KR ?_
    | with_reducible refine keep_stepTo KR Ko KF Kg KT KW KL KS Kr Kh Km Kb Kp Kk Kl Kn Ki KH KQ ?_
    | split

theorem keep_execSpnCtrlStep (KR : KeepRegs P) (Ko : KeepOut P) (KF : KeepFlt P) (Kg : KeepLog P) (KT : KeepTls P) (KW : KeepPwr P) (KL : KeepTime P) (KS : KeepSpn P) (Kr : KeepRgn P) (Kh : KeepChan P) (Km : KeepMains P) (Kb : KeepStr P) (Kp : KeepCap P) (Kk : KeepGaps P) (Kl : KeepLnk P) (Kn : KeepLane P) (Ki : KeepRing P) (KH : KeepHs P) (KQ : KeepSnap P) {v : Word} {s : State}
    (hP : P s) {u : State} (e : execSpnCtrlStep v s = .next u) : P u := by
  unfold execSpnCtrlStep at e
  refine keep_act hP ?_ e
  clear e
  repeat' first
    | with_reducible assumption
    | with_reducible refine keep_writeSpnCtrl KR Ko KF Kg KT KW KL KS Kr Kh Km Kb Kp Kk Kl Kn Ki KH KQ ?_

theorem keep_execSpnLtsRead (Ko : KeepOut P) (Ky : KeepHeld P) {s : State}
    (hP : P s) {u : State} (e : execSpnLtsRead s = .next u) : P u := by
  unfold execSpnLtsRead at e
  refine keep_act hP ?_ e
  clear e
  apply keep_answer Ko
  have h1 := Ky.latchPut s R.SPN_LTS_HI (some (BitVec.ofNat 32 (ltSec s.lt / 2 ^ 32))) hP
  have h2 := Ky.latchPut _ R.SPN_LTN (some (BitVec.ofNat 32 (ltNs s.lt))) h1
  exact Ky.latchPut _ R.SPN_LTF (some (BitVec.ofNat 32 (ltFrac s.lt))) h2


theorem keep_execPpsOutRise (Ko : KeepOut P) (KL : KeepTime P) (KS : KeepSpn P) {s : State}
    (hP : P s) {u : State} (e : execPpsOutRise s = .next u) : P u := by
  unfold execPpsOutRise at e
  refine keep_act hP ?_ e
  clear e
  split
  · split
    · extract_lets t s1 x s2 tq w
      have k1 : P s1 := keep_moveTo KL hP
      have k2 : P s2 := KS.spn _ _ k1
      split
      · exact keep_emit Ko (KS.spn _ _ k2)
      · exact k2
    · exact hP
  · exact hP


theorem keep_execPpsOutFall (Ko : KeepOut P) (KL : KeepTime P) (KS : KeepSpn P) {s : State}
    (hP : P s) {u : State} (e : execPpsOutFall s = .next u) : P u := by
  unfold execPpsOutFall at e
  refine keep_act hP ?_ e
  clear e
  extract_lets x0 x1
  have k0 : P x0 := by
    unfold x0
    repeat' first
      | with_reducible assumption
      | with_reducible refine keep_moveTo KL ?_
  try clear_value x0
  try clear_value x1
  repeat' first
    | with_reducible assumption
    | with_reducible refine keep_emit Ko ?_
    | split
    | with_reducible refine KS.spn _ _ ?_

theorem keep_armCmp (KR : KeepRegs P) (Ko : KeepOut P) (Ky : KeepHeld P) (KF : KeepFlt P) (Kg : KeepLog P) (KS : KeepSpn P) (Kr : KeepRgn P) (Kp : KeepCap P) (Kk : KeepGaps P) (Kl : KeepLnk P) (KQ : KeepSnap P) {s : State} {m : Nat} {v : Word}
    (hP : P s)  : P (State.armCmp s m v) := by
  unfold State.armCmp
  extract_lets x0 x1 x2 x3 x4 x5 x6 x7 s1 s2 s3
  have k0 : P x0 := by
    unfold x0
    split
    · exact KR.setReg _ _ _ (Ky.held _ _ _ hP)
    · exact hP
  have k1 : P x1 := keep_writeFlds KR k0
  have k2 : P s2 := keep_bumpBy KR (keep_raise KR KF Kg (keep_setFlag KR k1))
  have k3 : P s3 := ite_keep (fun _ => keep_setFlag KR k2) (fun _ => keep_setCmpU KS (keep_setFlag KR k2))
  refine ite_keep (fun _ => keep_setFlag KR (keep_setFlag KR k1)) (fun _ => ?_)
  refine ite_keep (fun _ => keep_setCmpU KS (keep_setFlag KR k1)) (fun _ => ?_)
  exact ite_keep (fun _ => keep_cmpActions KR Ko KF Kg KS Kr Kp Kk Kl KQ k3) (fun _ => k3)


theorem keep_execCmpArm (KR : KeepRegs P) (Ko : KeepOut P) (Ky : KeepHeld P) (KF : KeepFlt P) (Kg : KeepLog P) (KS : KeepSpn P) (Kr : KeepRgn P) (Kp : KeepCap P) (Kk : KeepGaps P) (Kl : KeepLnk P) (KQ : KeepSnap P) {m : Fin 16} {v : Word} {s : State}
    (hP : P s) {u : State} (e : execCmpArm m v s = .next u) : P u := by
  unfold execCmpArm at e
  refine keep_act hP ?_ e
  clear e
  repeat' first
    | with_reducible assumption
    | with_reducible refine keep_armCmp KR Ko Ky KF Kg KS Kr Kp Kk Kl KQ ?_

theorem keep_execCmpFire (KR : KeepRegs P) (Ko : KeepOut P) (KF : KeepFlt P) (Kg : KeepLog P) (KL : KeepTime P) (KS : KeepSpn P) (Kr : KeepRgn P) (Kp : KeepCap P) (Kk : KeepGaps P) (Kl : KeepLnk P) (KQ : KeepSnap P) {m : Fin 16} {s : State}
    (hP : P s) {u : State} (e : execCmpFire m s = .next u) : P u := by
  unfold execCmpFire at e
  refine keep_act hP ?_ e
  clear e
  extract_lets x0 x1 x2 x3
  try clear_value x0
  have k1 : P x1 := by
    unfold x1
    repeat' first
      | with_reducible assumption
      | with_reducible refine keep_moveTo KL ?_
  try clear_value x1
  try clear_value x2
  have k3 : P x3 := by
    unfold x3
    repeat' first
      | with_reducible assumption
      | with_reducible refine keep_setFlag KR ?_
      | with_reducible refine keep_setCmpU KS ?_
      | split
  try clear_value x3
  repeat' first
    | with_reducible assumption
    | with_reducible refine keep_cmpActions KR Ko KF Kg KS Kr Kp Kk Kl KQ ?_
    | split

theorem keep_writeCmpCtrl (KR : KeepRegs P) {s : State} {m : Nat} {v : Word}
    (hP : P s)  : P (State.writeCmpCtrl s m v) := by
  unfold State.writeCmpCtrl
  extract_lets x0
  have k0 : P x0 := by
    unfold x0
    repeat' first
      | with_reducible assumption
      | with_reducible refine keep_writeFlds KR ?_
  try clear_value x0
  repeat' first
    | with_reducible assumption
    | with_reducible refine keep_setFlag KR ?_
    | split

theorem keep_execCmpCtrlDisarm (KR : KeepRegs P) {m : Fin 16} {v : Word} {s : State}
    (hP : P s) {u : State} (e : execCmpCtrlDisarm m v s = .next u) : P u := by
  unfold execCmpCtrlDisarm at e
  refine keep_act hP ?_ e
  clear e
  repeat' first
    | with_reducible assumption
    | with_reducible refine keep_writeCmpCtrl KR ?_

theorem keep_execTrigOutPulseEnd (Ko : KeepOut P) (KL : KeepTime P) (KS : KeepSpn P) {s : State}
    (hP : P s) {u : State} (e : execTrigOutPulseEnd s = .next u) : P u := by
  unfold execTrigOutPulseEnd at e
  refine keep_act hP ?_ e
  clear e
  repeat' first
    | with_reducible assumption
    | with_reducible refine keep_moveTo KL ?_
    | with_reducible refine keep_emit Ko ?_
    | split
    | dsimp only
    | with_reducible refine KS.spn _ _ ?_

theorem keep_execTimeExchangeStart (Ko : KeepOut P) (KL : KeepTime P) (KS : KeepSpn P) (Kl : KeepLnk P) {s : State}
    (hP : P s) {u : State} (e : execTimeExchangeStart s = .next u) : P u := by
  unfold execTimeExchangeStart at e
  refine keep_next ?_ e
  clear e
  extract_lets x0 x1 x2 x3 x4 x5
  try clear_value x0
  try clear_value x1
  have k2 : P x2 := by
    unfold x2
    repeat' first
      | with_reducible assumption
      | with_reducible refine keep_moveTo KL ?_
  try clear_value x2
  try clear_value x3
  have k4 : P x4 := by
    unfold x4
    repeat' first
      | with_reducible assumption
      | with_reducible refine keep_sendTime Ko Kl ?_
      | with_reducible refine keep_sendCell Ko Kl ?_
      | (with_reducible refine keep_forEach ?_ ?_)
      | (intro s x hx)
  try clear_value x4
  try clear_value x5
  repeat' first
    | with_reducible assumption
    | split
    | with_reducible refine KS.spn _ _ ?_

theorem keep_voidExchange (KR : KeepRegs P) (Ko : KeepOut P) (KF : KeepFlt P) (Kg : KeepLog P) (KS : KeepSpn P) (Kk : KeepGaps P) (Kl : KeepLnk P) {s : State}
    (hP : P s)  : P (State.voidExchange s) := by
  unfold State.voidExchange
  extract_lets x0 x1 x2
  try clear_value x0
  have k1 : P x1 := by
    unfold x1
    repeat' first
      | with_reducible assumption
      | with_reducible refine KS.spn _ _ ?_
  try clear_value x1
  try clear_value x2
  repeat' first
    | with_reducible assumption
    | with_reducible refine keep_loseSource KR Ko KF Kg KS Kk Kl ?_
    | split
    | with_reducible refine KS.spn _ _ ?_

theorem keep_execTimeT1Rx (KR : KeepRegs P) (Ko : KeepOut P) (KF : KeepFlt P) (Kg : KeepLog P) (KL : KeepTime P) (KS : KeepSpn P) (Kk : KeepGaps P) (Kl : KeepLnk P) {k : Fin 2} {xseq : Fin 16} {stamp : BitVec 40} {ph : Phase} {s : State}
    (hP : P s) {u : State} (e : execTimeT1Rx k xseq stamp ph s = .next u) : P u := by
  unfold execTimeT1Rx at e
  refine keep_next ?_ e
  clear e
  extract_lets x0 x1 x2 x3 x4 x5 x6
  have k0 : P x0 := by
    unfold x0
    repeat' first
      | with_reducible assumption
      | with_reducible refine keep_refreshTrackers KR Ko KF Kg KS Kk Kl ?_
  try clear_value x0
  have k1 : P x1 := by
    unfold x1
    repeat' first
      | with_reducible assumption
      | with_reducible refine keep_voidExchange KR Ko KF Kg KS Kk Kl ?_
      | split
  try clear_value x1
  try clear_value x2
  have k3 : P x3 := by
    unfold x3
    repeat' first
      | with_reducible assumption
      | with_reducible refine keep_nextCycle KL ?_
  try clear_value x3
  try clear_value x4
  try clear_value x5
  have k6 : P x6 := by
    unfold x6
    repeat' first
      | with_reducible assumption
      | with_reducible refine KS.spn _ _ ?_
  try clear_value x6
  repeat' first
    | with_reducible assumption
    | with_reducible refine keep_sendTime Ko Kl ?_
    | split

theorem keep_missingT1 (KR : KeepRegs P) (Ko : KeepOut P) (KF : KeepFlt P) (Kg : KeepLog P) (KS : KeepSpn P) (Kk : KeepGaps P) (Kl : KeepLnk P) {s : State} {xseq : Nat}
    (hP : P s)  : P (State.missingT1 s xseq) := by
  unfold State.missingT1
  extract_lets x0 x1
  have k0 : P x0 := by
    unfold x0
    repeat' first
      | with_reducible assumption
      | with_reducible refine keep_voidExchange KR Ko KF Kg KS Kk Kl ?_
      | split
  try clear_value x0
  try clear_value x1
  repeat' first
    | with_reducible assumption
    | with_reducible refine keep_voidExchange KR Ko KF Kg KS Kk Kl ?_
    | with_reducible refine KS.spn _ _ ?_

theorem keep_fullTimeWord (KR : KeepRegs P) (Ko : KeepOut P) (KF : KeepFlt P) (Kg : KeepLog P) (KS : KeepSpn P) (Kk : KeepGaps P) (Kl : KeepLnk P) {s : State} {k : Nat} {xseq : Nat} {tstat : Nat} {t : Nat}
    (hP : P s)  : P (State.fullTimeWord s k xseq tstat t) := by
  unfold State.fullTimeWord
  extract_lets x0 x1 x2 x3
  try clear_value x0
  try clear_value x1
  have k2 : P x2 := by
    unfold x2
    repeat' first
      | with_reducible assumption
      | with_reducible refine keep_missingT1 KR Ko KF Kg KS Kk Kl ?_
      | split
      | with_reducible refine KS.spn _ _ ?_
  try clear_value x2
  try clear_value x3
  repeat' first
    | with_reducible assumption
    | with_reducible refine keep_updTq KR Ko KS Kk Kl ?_
    | split
    | with_reducible refine KS.spn _ _ ?_

theorem keep_execFullTimeWordRx (KR : KeepRegs P) (Ko : KeepOut P) (KF : KeepFlt P) (Kg : KeepLog P) (KS : KeepSpn P) (Kk : KeepGaps P) (Kl : KeepLnk P) {k : Fin 2} {xseq : Fin 16} {tstat : Fin 256} {_sender : Fin 65536} {t : LtOp} {s : State}
    (hP : P s) {u : State} (e : execFullTimeWordRx k xseq tstat _sender t s = .next u) : P u := by
  unfold execFullTimeWordRx at e
  refine keep_next ?_ e
  clear e
  repeat' first
    | with_reducible assumption
    | with_reducible refine keep_fullTimeWord KR Ko KF Kg KS Kk Kl ?_
    | split

theorem keep_execTimeT3Rx (Ko : KeepOut P) (KS : KeepSpn P) (Kl : KeepLnk P) {k : Fin 2} {xseq : Fin 16} {_stamp : BitVec 40} {ph : Phase} {s : State}
    (hP : P s) {u : State} (e : execTimeT3Rx k xseq _stamp ph s = .next u) : P u := by
  unfold execTimeT3Rx at e
  refine keep_next ?_ e
  clear e
  extract_lets x0 x1
  try clear_value x0
  try clear_value x1
  repeat' first
    | with_reducible assumption
    | with_reducible refine keep_sendTime Ko Kl ?_
    | split
    | with_reducible refine KS.spn _ _ ?_

theorem keep_execTimeT4Rx (KR : KeepRegs P) (Ko : KeepOut P) (KF : KeepFlt P) (Kg : KeepLog P) (KT : KeepTls P) (KW : KeepPwr P) (KL : KeepTime P) (KS : KeepSpn P) (Kr : KeepRgn P) (Kh : KeepChan P) (Km : KeepMains P) (Kb : KeepStr P) (Kp : KeepCap P) (Kk : KeepGaps P) (Kl : KeepLnk P) (Kn : KeepLane P) (Ki : KeepRing P) (KH : KeepHs P) (KQ : KeepSnap P) {k : Fin 2} {xseq : Fin 16} {stamp : BitVec 40} {frq : BitVec 32} {s : State}
    (hP : P s) {u : State} (e : execTimeT4Rx k xseq stamp frq s = .next u) : P u := by
  unfold execTimeT4Rx at e
  refine keep_next ?_ e
  clear e
  extract_lets x0 x1 x2 x3
  try clear_value x0
  try clear_value x1
  try clear_value x2
  have k3 : P x3 := by
    unfold x3
    repeat' first
      | with_reducible assumption
      | with_reducible refine KS.spn _ _ ?_
  try clear_value x3
  repeat' first
    | with_reducible assumption
    | with_reducible refine keep_voidExchange KR Ko KF Kg KS Kk Kl ?_
    | with_reducible refine keep_measure KR Ko KF Kg KT KW KL KS Kr Kh Km Kb Kp Kk Kl Kn Ki KH KQ ?_
    | split
    | dsimp only

theorem keep_timeNotice (KR : KeepRegs P) (Ko : KeepOut P) (KS : KeepSpn P) (Kk : KeepGaps P) (Kl : KeepLnk P) {s : State} {k : Nat} {m : Vc1Msg}
    (hP : P s)  : P (State.timeNotice s k m) := by
  unfold State.timeNotice
  repeat' first
    | with_reducible assumption
    | with_reducible refine keep_takeVc1 Ko Kk Kl ?_
    | with_reducible refine keep_updTq KR Ko KS Kk Kl ?_
    | with_reducible refine keep_fst (by assumption) ?_
    | split
    | dsimp only
    | with_reducible refine KS.spn _ _ ?_

theorem keep_execTimeStatusNoticeRx (KR : KeepRegs P) (Ko : KeepOut P) (KS : KeepSpn P) (Kk : KeepGaps P) (Kl : KeepLnk P) {k : Fin 2} {m : Vc1Msg} {s : State}
    (hP : P s) {u : State} (e : execTimeStatusNoticeRx k m s = .next u) : P u := by
  unfold execTimeStatusNoticeRx at e
  refine keep_act hP ?_ e
  clear e
  repeat' first
    | with_reducible assumption
    | with_reducible refine keep_timeNotice KR Ko KS Kk Kl ?_

end Sys2Proof.Machine
end

