-- ==== Sys2Proof/Laws/KeepRing.lean ====
section
/-! SUPPORT. What the operations of Machine/Ring.lean keep (see Laws/Keep.lean). -/
namespace Sys2Proof.Machine
variable {P : State → Prop}

theorem keep_sendEnum (Ko : KeepOut P) (Kl : KeepLnk P) (Ki : KeepRing P) {s : State}
    (hP : P s)  : P (State.sendEnum s) := by
  unfold State.sendEnum
  extract_lets x0
  try clear_value x0
  repeat' first
    | with_reducible assumption
    | with_reducible refine keep_sendBoth Ko Kl ?_
    | with_reducible refine Ki.ring _ _ ?_

theorem keep_segTouch (Ki : KeepRing P) {s : State}
    (hP : P s)  : P (State.segTouch s) := by
  unfold State.segTouch
  extract_lets x0
  try clear_value x0
  repeat' first
    | with_reducible assumption
    | with_reducible refine Ki.ring _ _ ?_

theorem keep_segChanged (Ko : KeepOut P) (Kl : KeepLnk P) (Ki : KeepRing P) {s : State}
    (hP : P s)  : P (State.segChanged s) := by
  unfold State.segChanged
  repeat' first
    | with_reducible assumption
    | with_reducible refine keep_sendEnum Ko Kl Ki ?_
    | with_reducible refine keep_segTouch Ki ?_

theorem keep_execEnumerationSend (Ko : KeepOut P) (KL : KeepTime P) (Kl : KeepLnk P) (Ki : KeepRing P) {s : State}
    (hP : P s) {u : State} (e : execEnumerationSend s = .next u) : P u := by
  unfold execEnumerationSend at e
  refine keep_act hP ?_ e
  clear e
  repeat' first
    | with_reducible assumption
    | with_reducible refine keep_moveTo KL ?_
    | with_reducible refine keep_sendEnum Ko Kl Ki ?_

theorem keep_noteLoss (Ki : KeepRing P) {s : State} {was : Bool}
    (hP : P s)  : P (State.noteLoss s was) := by
  unfold State.noteLoss
  extract_lets x0
  try clear_value x0
  repeat' first
    | with_reducible assumption
    | split
    | with_reducible refine Ki.ring _ _ ?_

theorem keep_portsSet (KR : KeepRegs P) (Ko : KeepOut P) (Kl : KeepLnk P) (Ki : KeepRing P) {s : State}
    (hP : P s)  : P (State.portsSet s) := by
  unfold State.portsSet
  extract_lets x0 x1
  try clear_value x0
  have k1 : P x1 := by
    unfold x1
    repeat' first
      | with_reducible assumption
      | with_reducible refine keep_setX KR ?_
  try clear_value x1
  repeat' first
    | with_reducible assumption
    | with_reducible refine keep_segChanged Ko Kl Ki ?_
    | split

theorem keep_mirrorLine (KR : KeepRegs P) (KF : KeepFlt P) (Kg : KeepLog P) {s : State}
    (hP : P s)  : P (State.mirrorLine s) := by
  unfold State.mirrorLine
  repeat' first
    | with_reducible assumption
    | with_reducible refine keep_setLine KR KF Kg ?_

theorem keep_portsSync (KR : KeepRegs P) (Ko : KeepOut P) (KF : KeepFlt P) (Kg : KeepLog P) (Kl : KeepLnk P) (Ki : KeepRing P) {s : State}
    (hP : P s)  : P (State.portsSync s) := by
  unfold State.portsSync
  repeat' first
    | with_reducible assumption
    | with_reducible refine keep_portsSet KR Ko Kl Ki ?_
    | with_reducible refine keep_mirrorLine KR KF Kg ?_

theorem keep_exitEvent (Ko : KeepOut P) (Kl : KeepLnk P) {s : State} {evt : Nat} {p : Nat} {target : Nat}
    (hP : P s)  : P (State.exitEvent s evt p target) := by
  unfold State.exitEvent
  repeat' first
    | with_reducible assumption
    | with_reducible refine keep_sendBoth Ko Kl ?_

theorem keep_followExit (KR : KeepRegs P) (Ko : KeepOut P) (KF : KeepFlt P) (Kg : KeepLog P) (KS : KeepSpn P) (Kb : KeepStr P) (Ke : KeepGge P) (Kk : KeepGaps P) (Kl : KeepLnk P) (Ki : KeepRing P) {s : State} {id : Nat} {p : Nat}
    (hP : P s)  : P (State.followExit s id p) := by
  unfold State.followExit
  extract_lets x0 x1 x2 x3 x4 x5 x6
  try clear_value x0
  try clear_value x1
  have k2 : P x2 := by
    unfold x2
    repeat' first
      | with_reducible assumption
      | with_reducible refine KR.setReg _ _ _ ?_
  try clear_value x2
  have k3 : P x3 := by
    unfold x3
    repeat' first
      | with_reducible assumption
      | with_reducible refine keep_setFlag KR ?_
  try clear_value x3
  have k4 : P x4 := by
    unfold x4
    repeat' first
      | with_reducible assumption
      | with_reducible refine keep_refreshTrackers KR Ko KF Kg KS Kk Kl ?_
      | with_reducible refine keep_updTq KR Ko KS Kk Kl ?_
      | with_reducible refine keep_loseSource KR Ko KF Kg KS Kk Kl ?_
      | split
  try clear_value x4
  have k5 : P x5 := by
    unfold x5
    repeat' first
      | with_reducible assumption
      | with_reducible refine keep_rewindAll KR KF Kg Kb Ke Kk ?_
  try clear_value x5
  try clear_value x6
  repeat' first
    | with_reducible assumption
    | with_reducible refine keep_refreshTrackers KR Ko KF Kg KS Kk Kl ?_
    | with_reducible refine keep_updTq KR Ko KS Kk Kl ?_
    | with_reducible refine keep_pathSync KR KF Kg Kb Ke Kk Ki ?_
    | split
    | with_reducible refine Ki.ring _ _ ?_

theorem keep_sendMirror (Ko : KeepOut P) (Kl : KeepLnk P) {s : State} {k : Nat} {bs : List Byte}
    (hP : P s)  : P (State.sendMirror s k bs) := by
  unfold State.sendMirror
  repeat' first
    | with_reducible assumption
    | with_reducible refine keep_sendCell Ko Kl ?_
    | (with_reducible refine keep_forEach ?_ ?_)
    | (intro s x hx)

theorem keep_mirrorNow (Ko : KeepOut P) (Kl : KeepLnk P) (Ki : KeepRing P) {s : State} {p : Nat}
    (hP : P s)  : P (State.mirrorNow s p) := by
  unfold State.mirrorNow
  extract_lets x0 x1 x2 x3
  try clear_value x0
  try clear_value x1
  have k2 : P x2 := by
    unfold x2
    repeat' first
      | with_reducible assumption
      | with_reducible refine Ki.ring _ _ ?_
  try clear_value x2
  try clear_value x3
  repeat' first
    | with_reducible assumption
    | with_reducible refine keep_sendMirror Ko Kl ?_

theorem keep_execMirrorSend (Ko : KeepOut P) (KL : KeepTime P) (Kl : KeepLnk P) (Ki : KeepRing P) {s : State}
    (hP : P s) {u : State} (e : execMirrorSend s = .next u) : P u := by
  unfold execMirrorSend at e
  refine keep_act hP ?_ e
  clear e
  repeat' first
    | with_reducible assumption
    | with_reducible refine keep_moveTo KL ?_
    | with_reducible refine keep_mirrorNow Ko Kl Ki ?_
    | split

theorem keep_loadTracker (KR : KeepRegs P) (KS : KeepSpn P) {s : State} {t : Nat} {b : List Byte}
    (hP : P s)  : P (State.loadTracker s t b) := by
  unfold State.loadTracker
  extract_lets x0 x1 x2
  try clear_value x0
  try clear_value x1
  have k2 : P x2 := by
    unfold x2
    repeat' first
      | with_reducible assumption
      | with_reducible refine keep_setTrk KS ?_
  try clear_value x2
  repeat' first
    | with_reducible assumption
    | with_reducible refine keep_setTkState KR ?_
    | with_reducible refine keep_sourceValid KR KS ?_
    | split

theorem keep_loadMirror (KR : KeepRegs P) (KS : KeepSpn P) (Ki : KeepRing P) {s : State} {m : Mirror}
    (hP : P s)  : P (State.loadMirror s m) := by
  unfold State.loadMirror
  extract_lets b na nn o ago x5 x6 s1
  have k0 : ∀ (r : RingState) (p : SpnState), P { s with ring := r, spn := p } :=
    fun r p => KS.spn { s with ring := r } p (Ki.ring s r hP)
  have k1 : P s1 := k0 _ _
  exact keep_loadTracker KR KS (keep_loadTracker KR KS k1)


theorem keep_endSwitch (KR : KeepRegs P) (Ki : KeepRing P) {s : State}
    (hP : P s)  : P (State.endSwitch s) := by
  unfold State.endSwitch
  extract_lets x0
  try clear_value x0
  repeat' first
    | with_reducible assumption
    | with_reducible refine keep_setFlag KR ?_
    | with_reducible refine Ki.ring _ _ ?_

theorem keep_exitTrackers (KR : KeepRegs P) (KS : KeepSpn P) (Ki : KeepRing P) {s : State} {valid : Bool}
    (hP : P s)  : P (State.exitTrackers s valid) := by
  unfold State.exitTrackers
  repeat' first
    | with_reducible assumption
    | with_reducible refine keep_loadMirror KR KS Ki ?_
    | with_reducible refine keep_setTrk KS ?_
    | with_reducible refine keep_setTkState KR ?_
    | (with_reducible refine keep_forEach ?_ ?_)
    | (intro s x hx)
    | split

theorem keep_announceExit (Ko : KeepOut P) {s : State} {p : Nat}
    (hP : P s)  : P (State.announceExit s p) := by
  unfold State.announceExit
  extract_lets x0
  have k0 : P x0 := by
    unfold x0
    repeat' first
      | with_reducible assumption
      | with_reducible refine keep_sendFrame Ko ?_
      | split
  try clear_value x0
  repeat' first
    | with_reducible assumption
    | with_reducible refine keep_sendFrame Ko ?_
    | split

theorem keep_activate (KR : KeepRegs P) (Ko : KeepOut P) (KF : KeepFlt P) (Kg : KeepLog P) (KS : KeepSpn P) (Kb : KeepStr P) (Ke : KeepGge P) (Kk : KeepGaps P) (Kl : KeepLnk P) (Ki : KeepRing P) {s : State} {p : Nat}
    (hP : P s)  : P (State.activate s p) := by
  unfold State.activate
  extract_lets x0 x1 x2 x3 x4 x5 x6
  try clear_value x0
  have k1 : P x1 := by
    unfold x1
    repeat' first
      | with_reducible assumption
      | with_reducible refine keep_endSwitch KR Ki ?_
      | with_reducible refine keep_resolveAll KR KF Kg Ki ?_
  try clear_value x1
  have k2 : P x2 := by
    unfold x2
    repeat' first
      | with_reducible assumption
      | with_reducible refine Ki.ring _ _ ?_
  try clear_value x2
  have k3 : P x3 := by
    unfold x3
    repeat' first
      | with_reducible assumption
      | with_reducible refine keep_setX KR ?_
      | with_reducible refine keep_followExit KR Ko KF Kg KS Kb Ke Kk Kl Ki ?_
      | with_reducible refine keep_exitTrackers KR KS Ki ?_
  try clear_value x3
  have k4 : P x4 := by
    unfold x4
    repeat' first
      | with_reducible assumption
      | with_reducible refine keep_raise KR KF Kg ?_
      | with_reducible refine keep_mirrorLine KR KF Kg ?_
  try clear_value x4
  have k5 : P x5 := by
    unfold x5
    repeat' first
      | with_reducible assumption
      | with_reducible refine keep_raise KR KF Kg ?_
      | with_reducible refine keep_announceExit Ko ?_
      | split
  try clear_value x5
  have k6 : P x6 := by
    unfold x6
    repeat' first
      | with_reducible assumption
      | with_reducible refine keep_exitEvent Ko Kl ?_
      | with_reducible refine keep_setFlag KR ?_
  try clear_value x6
  repeat' first
    | with_reducible assumption
    | with_reducible refine keep_setLine KR KF Kg ?_
    | with_reducible refine keep_segChanged Ko Kl Ki ?_

theorem keep_deactivate (KR : KeepRegs P) (Ko : KeepOut P) (KF : KeepFlt P) (Kg : KeepLog P) (KS : KeepSpn P) (Kb : KeepStr P) (Ke : KeepGge P) (Kk : KeepGaps P) (Kl : KeepLnk P) (Ki : KeepRing P) {s : State} {p : Nat} {x : Nat}
    (hP : P s)  : P (State.deactivate s p x) := by
  unfold State.deactivate
  extract_lets x0 x1 x2 x3 x4 x5
  try clear_value x0
  have k1 : P x1 := by
    unfold x1
    repeat' first
      | with_reducible assumption
      | with_reducible refine keep_setX KR ?_
  try clear_value x1
  have k2 : P x2 := by
    unfold x2
    repeat' first
      | with_reducible assumption
      | with_reducible refine keep_resolveAll KR KF Kg Ki ?_
  try clear_value x2
  try clear_value x3
  have k4 : P x4 := by
    unfold x4
    repeat' first
      | with_reducible assumption
      | with_reducible refine Ki.ring _ _ ?_
  try clear_value x4
  have k5 : P x5 := by
    unfold x5
    repeat' first
      | with_reducible assumption
      | with_reducible refine keep_setFlag KR ?_
      | with_reducible refine keep_noteLoss Ki ?_
  try clear_value x5
  repeat' first
    | with_reducible assumption
    | with_reducible refine keep_refreshTrackers KR Ko KF Kg KS Kk Kl ?_
    | with_reducible refine keep_updTq KR Ko KS Kk Kl ?_
    | with_reducible refine keep_pathSync KR KF Kg Kb Ke Kk Ki ?_

theorem keep_dropParts (Ki : KeepRing P) {s : State} {before : List SegHub}
    (hP : P s)  : P (State.dropParts s before) := by
  unfold State.dropParts
  extract_lets x0 x1
  try clear_value x0
  try clear_value x1
  repeat' first
    | with_reducible assumption
    | with_reducible refine Ki.ring _ _ ?_

theorem keep_pruneSeg (Ks : KeepSeg P) (Ki : KeepRing P) {s : State}
    (hP : P s)  : P (State.pruneSeg s) := by
  unfold State.pruneSeg
  have k0 : ∀ (l : List SegHub) (r : RingState), P { s with seg := l, ring := r } :=
    fun l r => Ki.ring { s with seg := l } r (Ks.seg s l hP)
  exact k0 _ _


theorem keep_showSeg (KR : KeepRegs P) (KF : KeepFlt P) (Kg : KeepLog P) {s : State}
    (hP : P s)  : P (State.showSeg s) := by
  unfold State.showSeg
  extract_lets x0 x1 x2
  try clear_value x0
  have k1 : P x1 := by
    unfold x1
    repeat' first
      | with_reducible assumption
      | with_reducible refine keep_setFld KR ?_
  try clear_value x1
  have k2 : P x2 := by
    unfold x2
    repeat' first
      | with_reducible assumption
      | with_reducible refine keep_setFld KR ?_
  try clear_value x2
  repeat' first
    | with_reducible assumption
    | with_reducible refine keep_setLine KR KF Kg ?_

theorem keep_exitRules (KR : KeepRegs P) (Ko : KeepOut P) (KF : KeepFlt P) (Kg : KeepLog P) (KS : KeepSpn P) (Kb : KeepStr P) (Ke : KeepGge P) (Kk : KeepGaps P) (Kl : KeepLnk P) (Ki : KeepRing P) {s : State}
    (hP : P s)  : P (State.exitRules s).1 := by
  unfold State.exitRules
  extract_lets x0 x1
  try clear_value x0
  have k1 : P x1 := by
    unfold x1
    repeat' first
      | with_reducible assumption
      | with_reducible refine keep_setFlag KR ?_
      | with_reducible refine KR.setReg _ _ _ ?_
  try clear_value x1
  repeat' first
    | with_reducible assumption
    | with_reducible refine keep_deactivate KR Ko KF Kg KS Kb Ke Kk Kl Ki ?_
    | with_reducible refine keep_exitEvent Ko Kl ?_
    | with_reducible refine keep_segChanged Ko Kl Ki ?_
    | with_reducible refine keep_setFlag KR ?_
    | with_reducible refine keep_setLine KR KF Kg ?_
    | with_reducible refine keep_followExit KR Ko KF Kg KS Kb Ke Kk Kl Ki ?_
    | with_reducible refine keep_refreshTrackers KR Ko KF Kg KS Kk Kl ?_
    | with_reducible refine keep_updTq KR Ko KS Kk Kl ?_
    | with_reducible refine keep_pathSync KR KF Kg Kb Ke Kk Ki ?_
    | (with_reducible refine keep_forEach ?_ ?_)
    | (intro s x hx)
    | split

theorem keep_switchStill (KR : KeepRegs P) (Ki : KeepRing P) {s : State}
    (hP : P s)  : P (State.switchStill s) := by
  unfold State.switchStill
  repeat' first
    | with_reducible assumption
    | with_reducible refine keep_endSwitch KR Ki ?_
    | split

theorem keep_tableSettled (KR : KeepRegs P) (Ko : KeepOut P) (KF : KeepFlt P) (Kg : KeepLog P) (KS : KeepSpn P) (Kb : KeepStr P) (Ke : KeepGge P) (Kk : KeepGaps P) (Kl : KeepLnk P) (Ks : KeepSeg P) (Ki : KeepRing P) {s : State}
    (hP : P s)  : P (State.tableSettled s) := by
  unfold State.tableSettled
  extract_lets x0 r1 x1
  have k1 : P x1 := keep_portsSet KR Ko Kl Ki (keep_showSeg KR KF Kg (keep_noteLoss Ki (keep_pruneSeg Ks Ki (Ki.ring _ _ hP))))
  clear_value x1
  refine ite_keep (fun _ => ?_) (fun _ => keep_mirrorLine KR KF Kg (keep_setLine KR KF Kg k1))
  have k2 : P x1.exitRules.1 := keep_exitRules KR Ko KF Kg KS Kb Ke Kk Kl Ki k1
  generalize x1.exitRules = y at k2 ⊢
  obtain ⟨y, o⟩ := y
  have k3 : P (y.setLine 190 instHub y.idConflict) := keep_setLine KR KF Kg k2
  cases o with
  | none => exact keep_switchStill KR Ki (keep_mirrorLine KR KF Kg k3)
  | some p => exact keep_switchStill KR Ki (keep_activate KR Ko KF Kg KS Kb Ke Kk Kl Ki k3)


theorem keep_execTableSettled (KR : KeepRegs P) (Ko : KeepOut P) (KF : KeepFlt P) (Kg : KeepLog P) (KL : KeepTime P) (KS : KeepSpn P) (Kb : KeepStr P) (Ke : KeepGge P) (Kk : KeepGaps P) (Kl : KeepLnk P) (Ks : KeepSeg P) (Ki : KeepRing P) {s : State}
    (hP : P s) {u : State} (e : execTableSettled s = .next u) : P u := by
  unfold execTableSettled at e
  refine keep_act hP ?_ e
  clear e
  repeat' first
    | with_reducible assumption
    | with_reducible refine keep_moveTo KL ?_
    | with_reducible refine keep_tableSettled KR Ko KF Kg KS Kb Ke Kk Kl Ks Ki ?_
    | split

theorem keep_execExitEligible (KR : KeepRegs P) (Ko : KeepOut P) (KF : KeepFlt P) (Kg : KeepLog P) (KL : KeepTime P) (Kl : KeepLnk P) (Ki : KeepRing P) {p : Fin 2} {s : State}
    (hP : P s) {u : State} (e : execExitEligible p s = .next u) : P u := by
  unfold execExitEligible at e
  refine keep_act hP ?_ e
  clear e
  repeat' first
    | with_reducible assumption
    | with_reducible refine keep_moveTo KL ?_
    | with_reducible refine keep_portsSync KR Ko KF Kg Kl Ki ?_
    | split

theorem keep_forwardVc0 (Ko : KeepOut P) (Kl : KeepLnk P) {s : State} {k : Nat} {bs : List Byte}
    (hP : P s)  : P (State.forwardVc0 s k bs) := by
  unfold State.forwardVc0
  extract_lets x0
  try clear_value x0
  repeat' first
    | with_reducible assumption
    | with_reducible refine keep_sendCell Ko Kl ?_
    | split

theorem keep_enumRx (KR : KeepRegs P) (Ko : KeepOut P) (KF : KeepFlt P) (Kg : KeepLog P) (Kl : KeepLnk P) (Ks : KeepSeg P) (Ki : KeepRing P) {s : State} {k : Nat} {hops : Nat} {origin : Nat} {links : Nat} {xst : Nat} {actLt : Nat}
    (hP : P s)  : P (State.enumRx s k hops origin links xst actLt) := by
  unfold State.enumRx
  extract_lets x0 x1 x2 x3 x4 x5
  try clear_value x0
  have k1 : P x1 := by
    unfold x1
    repeat' first
      | with_reducible assumption
      | with_reducible refine keep_forwardVc0 Ko Kl ?_
  try clear_value x1
  try clear_value x2
  try clear_value x3
  have k4 : P x4 := by
    unfold x4
    repeat' first
      | with_reducible assumption
      | with_reducible refine keep_dropParts Ki ?_
      | with_reducible refine keep_segTouch Ki ?_
      | split
      | with_reducible refine Ks.seg _ _ ?_
  try clear_value x4
  have k5 : P x5 := by
    unfold x5
    repeat' first
      | with_reducible assumption
      | with_reducible refine keep_noteLoss Ki ?_
  try clear_value x5
  repeat' first
    | with_reducible assumption
    | with_reducible refine keep_raiseHub KR KF Kg ?_
    | with_reducible refine keep_setLine KR KF Kg ?_
    | split

theorem keep_execEnumerationRx (KR : KeepRegs P) (Ko : KeepOut P) (KF : KeepFlt P) (Kg : KeepLog P) (Kl : KeepLnk P) (Ks : KeepSeg P) (Ki : KeepRing P) {k : Fin 2} {hops : Fin 256} {origin : Fin 65536} {links : Fin 4} {xst : Fin 64} {actLt : LtOp} {s : State}
    (hP : P s) {u : State} (e : execEnumerationRx k hops origin links xst actLt s = .next u) : P u := by
  unfold execEnumerationRx at e
  refine keep_act hP ?_ e
  clear e
  repeat' first
    | with_reducible assumption
    | with_reducible refine keep_enumRx KR Ko KF Kg Kl Ks Ki ?_

theorem keep_onSwitch (KR : KeepRegs P) (Ko : KeepOut P) (KF : KeepFlt P) (Kg : KeepLog P) (KS : KeepSpn P) (Kb : KeepStr P) (Ke : KeepGge P) (Kk : KeepGaps P) (Kl : KeepLnk P) (Ki : KeepRing P) {s : State} {target : Nat} {p : Nat} {time : Nat}
    (hP : P s)  : P (State.onSwitch s target p time) := by
  unfold State.onSwitch
  extract_lets x0 x1
  try clear_value x0
  have k1 : P x1 := by
    unfold x1
    repeat' first
      | with_reducible assumption
      | with_reducible refine Ki.ring _ _ ?_
  try clear_value x1
  repeat' first
    | with_reducible assumption
    | with_reducible refine keep_mirrorNow Ko Kl Ki ?_
    | with_reducible refine keep_setFld KR ?_
    | with_reducible refine keep_deactivate KR Ko KF Kg KS Kb Ke Kk Kl Ki ?_
    | with_reducible refine keep_activate KR Ko KF Kg KS Kb Ke Kk Kl Ki ?_
    | split
    | dsimp only
    | with_reducible refine Ki.ring _ _ ?_

theorem keep_exitEventRx (KR : KeepRegs P) (Ko : KeepOut P) (KF : KeepFlt P) (Kg : KeepLog P) (KS : KeepSpn P) (Kb : KeepStr P) (Ke : KeepGge P) (Kk : KeepGaps P) (Kl : KeepLnk P) (Ks : KeepSeg P) (Ki : KeepRing P) {s : State} {k : Nat} {hops : Nat} {origin : Nat} {evt : Nat} {p : Nat} {target : Nat} {time : Nat}
    (hP : P s)  : P (State.exitEventRx s k hops origin evt p target time) := by
  unfold State.exitEventRx
  extract_lets x0 x1 x2 x3
  have k0 : P x0 := by
    unfold x0
    repeat' first
      | with_reducible assumption
      | with_reducible refine keep_forwardVc0 Ko Kl ?_
  try clear_value x0
  try clear_value x1
  try clear_value x2
  have k3 : P x3 := by
    unfold x3
    repeat' first
      | with_reducible assumption
      | with_reducible refine keep_segTouch Ki ?_
      | with_reducible refine Ks.seg _ _ ?_
  try clear_value x3
  repeat' first
    | with_reducible assumption
    | with_reducible refine keep_noteLoss Ki ?_
    | with_reducible refine keep_segTouch Ki ?_
    | with_reducible refine keep_setX KR ?_
    | with_reducible refine keep_setFlag KR ?_
    | with_reducible refine keep_endSwitch KR Ki ?_
    | with_reducible refine keep_exitEvent Ko Kl ?_
    | with_reducible refine keep_segChanged Ko Kl Ki ?_
    | with_reducible refine keep_followExit KR Ko KF Kg KS Kb Ke Kk Kl Ki ?_
    | with_reducible refine keep_onSwitch KR Ko KF Kg KS Kb Ke Kk Kl Ki ?_
    | split
    | dsimp only
    | with_reducible refine Ks.seg _ _ ?_
    | with_reducible refine Ki.ring _ _ ?_

theorem keep_execExitEventRx (KR : KeepRegs P) (Ko : KeepOut P) (KF : KeepFlt P) (Kg : KeepLog P) (KS : KeepSpn P) (Kb : KeepStr P) (Ke : KeepGge P) (Kk : KeepGaps P) (Kl : KeepLnk P) (Ks : KeepSeg P) (Ki : KeepRing P) {k : Fin 2} {hops : Fin 256} {origin : Fin 65536} {evt : Fin 256} {p : Fin 2} {target : Fin 65536} {time : LtOp} {s : State}
    (hP : P s) {u : State} (e : execExitEventRx k hops origin evt p target time s = .next u) : P u := by
  unfold execExitEventRx at e
  refine keep_act hP ?_ e
  clear e
  repeat' first
    | with_reducible assumption
    | with_reducible refine keep_exitEventRx KR Ko KF Kg KS Kb Ke Kk Kl Ks Ki ?_

theorem keep_execSwitchOldPortStop (Ki : KeepRing P) {p : Fin 2} {s : State}
    (hP : P s) {u : State} (e : execSwitchOldPortStop p s = .next u) : P u := by
  unfold execSwitchOldPortStop at e
  refine keep_act hP ?_ e
  clear e
  extract_lets x0
  try clear_value x0
  repeat' first
    | with_reducible assumption
    | split
    | with_reducible refine Ki.ring _ _ ?_

theorem keep_mirrorRx (KR : KeepRegs P) (Ko : KeepOut P) (KF : KeepFlt P) (Kg : KeepLog P) (KS : KeepSpn P) (Kb : KeepStr P) (Ke : KeepGge P) (Kk : KeepGaps P) (Kl : KeepLnk P) (Ki : KeepRing P) {s : State} {k : Nat} {b : List Byte}
    (hP : P s)  : P (State.mirrorRx s k b) := by
  unfold State.mirrorRx
  extract_lets x0 x1
  have k0 : P x0 := by
    unfold x0
    repeat' first
      | with_reducible assumption
      | with_reducible refine keep_sendMirror Ko Kl ?_
  try clear_value x0
  try clear_value x1
  repeat' first
    | with_reducible assumption
    | with_reducible refine keep_setFld KR ?_
    | with_reducible refine keep_activate KR Ko KF Kg KS Kb Ke Kk Kl Ki ?_
    | with_reducible refine keep_portsSync KR Ko KF Kg Kl Ki ?_
    | split
    | dsimp only
    | with_reducible refine Ki.ring _ _ ?_

theorem keep_execMirrorRx (KR : KeepRegs P) (Ko : KeepOut P) (KF : KeepFlt P) (Kg : KeepLog P) (KS : KeepSpn P) (Kb : KeepStr P) (Ke : KeepGge P) (Kk : KeepGaps P) (Kl : KeepLnk P) (Ki : KeepRing P) {k : Fin 2} {image : List Byte} {s : State}
    (hP : P s) {u : State} (e : execMirrorRx k image s = .next u) : P u := by
  unfold execMirrorRx at e
  refine keep_act hP ?_ e
  clear e
  repeat' first
    | with_reducible assumption
    | with_reducible refine keep_mirrorRx KR Ko KF Kg KS Kb Ke Kk Kl Ki ?_

theorem keep_execMirrorExpiry (KR : KeepRegs P) (Ko : KeepOut P) (KF : KeepFlt P) (Kg : KeepLog P) (KL : KeepTime P) (Kl : KeepLnk P) (Ki : KeepRing P) {s : State}
    (hP : P s) {u : State} (e : execMirrorExpiry s = .next u) : P u := by
  unfold execMirrorExpiry at e
  refine keep_act hP ?_ e
  clear e
  repeat' first
    | with_reducible assumption
    | with_reducible refine keep_moveTo KL ?_
    | with_reducible refine keep_setFld KR ?_
    | with_reducible refine keep_portsSync KR Ko KF Kg Kl Ki ?_
    | split
    | dsimp only
    | with_reducible refine Ki.ring _ _ ?_

theorem keep_writeChpRing (KR : KeepRegs P) (Ko : KeepOut P) (KF : KeepFlt P) (Kg : KeepLog P) (KS : KeepSpn P) (Kb : KeepStr P) (Ke : KeepGge P) (Kk : KeepGaps P) (Kl : KeepLnk P) (Ki : KeepRing P) {s : State} {v : Word}
    (hP : P s)  : P (State.writeChpRing s v) := by
  unfold State.writeChpRing
  extract_lets x0 x1 x2 x3
  have k0 : P x0 := by
    unfold x0
    repeat' first
      | with_reducible assumption
      | with_reducible refine keep_writeFlds KR ?_
  try clear_value x0
  try clear_value x1
  try clear_value x2
  have k3 : P x3 := by
    unfold x3
    repeat' first
      | with_reducible assumption
      | with_reducible refine keep_setFlag KR ?_
  try clear_value x3
  repeat' first
    | with_reducible assumption
    | with_reducible refine keep_setFlag KR ?_
    | with_reducible refine keep_sendBoth Ko Kl ?_
    | with_reducible refine keep_onSwitch KR Ko KF Kg KS Kb Ke Kk Kl Ki ?_
    | split

theorem keep_execChpRingSwitch (KR : KeepRegs P) (Ko : KeepOut P) (KF : KeepFlt P) (Kg : KeepLog P) (KS : KeepSpn P) (Kb : KeepStr P) (Ke : KeepGge P) (Kk : KeepGaps P) (Kl : KeepLnk P) (Ki : KeepRing P) {v : Word} {s : State}
    (hP : P s) {u : State} (e : execChpRingSwitch v s = .next u) : P u := by
  unfold execChpRingSwitch at e
  refine keep_act hP ?_ e
  clear e
  repeat' first
    | with_reducible assumption
    | with_reducible refine keep_writeChpRing KR Ko KF Kg KS Kb Ke Kk Kl Ki ?_

theorem keep_portFails (KR : KeepRegs P) (Ko : KeepOut P) (KF : KeepFlt P) (Kg : KeepLog P) (KS : KeepSpn P) (Kb : KeepStr P) (Ke : KeepGge P) (Kk : KeepGaps P) (Kl : KeepLnk P) (Ki : KeepRing P) {s : State} {p : Nat}
    (hP : P s)  : P (State.portFails s p) := by
  unfold State.portFails
  repeat' first
    | with_reducible assumption
    | with_reducible refine keep_deactivate KR Ko KF Kg KS Kb Ke Kk Kl Ki ?_
    | with_reducible refine keep_raise KR KF Kg ?_
    | with_reducible refine keep_exitEvent Ko Kl ?_
    | with_reducible refine keep_segChanged Ko Kl Ki ?_
    | with_reducible refine keep_setX KR ?_
    | split

theorem keep_execExitPortFailure (KR : KeepRegs P) (Ko : KeepOut P) (KF : KeepFlt P) (Kg : KeepLog P) (KL : KeepTime P) (KS : KeepSpn P) (Kb : KeepStr P) (Ke : KeepGge P) (Kk : KeepGaps P) (Kl : KeepLnk P) (Ki : KeepRing P) {p : Fin 2} {s : State}
    (hP : P s) {u : State} (e : execExitPortFailure p s = .next u) : P u := by
  unfold execExitPortFailure at e
  refine keep_act hP ?_ e
  clear e
  extract_lets x0 x1 x2 x3
  try clear_value x0
  try clear_value x1
  try clear_value x2
  try clear_value x3
  repeat' first
    | with_reducible assumption
    | with_reducible refine keep_portFails KR Ko KF Kg KS Kb Ke Kk Kl Ki ?_
    | with_reducible refine keep_moveTo KL ?_
    | split

theorem keep_execEchoError (KR : KeepRegs P) (Ko : KeepOut P) (KF : KeepFlt P) (Kg : KeepLog P) (Kl : KeepLnk P) (Ki : KeepRing P) {p : Fin 2} {s : State}
    (hP : P s) {u : State} (e : execEchoError p s = .next u) : P u := by
  unfold execEchoError at e
  refine keep_act hP ?_ e
  clear e
  extract_lets x0 x1 x2
  try clear_value x0
  have k1 : P x1 := by
    unfold x1
    repeat' first
      | with_reducible assumption
      | with_reducible refine keep_bump KR ?_
  try clear_value x1
  have k2 : P x2 := by
    unfold x2
    repeat' first
      | with_reducible assumption
      | with_reducible refine keep_setPt Ki ?_
  try clear_value x2
  repeat' first
    | with_reducible assumption
    | with_reducible refine keep_portsSync KR Ko KF Kg Kl Ki ?_

theorem keep_pcsLink (KR : KeepRegs P) (Ko : KeepOut P) (KF : KeepFlt P) (Kg : KeepLog P) (KS : KeepSpn P) (Kk : KeepGaps P) (Kl : KeepLnk P) (Ki : KeepRing P) {s : State} {p : Nat} {up : Bool}
    (hP : P s)  : P (State.pcsLink s p up) := by
  unfold State.pcsLink
  extract_lets x0 x1 x2 x3
  have k0 : P x0 := by
    unfold x0
    repeat' first
      | with_reducible assumption
      | with_reducible refine keep_setFlag KR ?_
  try clear_value x0
  try clear_value x1
  have k2 : P x2 := by
    unfold x2
    repeat' first
      | with_reducible assumption
      | with_reducible refine keep_setPt Ki ?_
  try clear_value x2
  have k3 : P x3 := by
    unfold x3
    repeat' first
      | with_reducible assumption
      | with_reducible refine keep_losePort KR Ko KF Kg KS Kk Kl ?_
      | split
  try clear_value x3
  repeat' first
    | with_reducible assumption
    | with_reducible refine keep_portsSync KR Ko KF Kg Kl Ki ?_
    | split

theorem keep_execPcsLinkChange (KR : KeepRegs P) (Ko : KeepOut P) (KF : KeepFlt P) (Kg : KeepLog P) (KS : KeepSpn P) (Kk : KeepGaps P) (Kl : KeepLnk P) (Ki : KeepRing P) {p : Fin 2} {up : Bool} {s : State}
    (hP : P s) {u : State} (e : execPcsLinkChange p up s = .next u) : P u := by
  unfold execPcsLinkChange at e
  refine keep_act hP ?_ e
  clear e
  repeat' first
    | with_reducible assumption
    | with_reducible refine keep_pcsLink KR Ko KF Kg KS Kk Kl Ki ?_

theorem keep_writeNetCtrl (KR : KeepRegs P) (Ko : KeepOut P) (KF : KeepFlt P) (Kg : KeepLog P) (KS : KeepSpn P) (Kb : KeepStr P) (Ke : KeepGge P) (Kk : KeepGaps P) (Kl : KeepLnk P) (Kn : KeepLane P) (Ki : KeepRing P) {s : State} {p : Nat} {v : Word}
    (hP : P s)  : P (State.writeNetCtrl s p v) := by
  unfold State.writeNetCtrl
  extract_lets x0 x1 x2 x3
  try clear_value x0
  have k1 : P x1 := by
    unfold x1
    repeat' first
      | with_reducible assumption
      | with_reducible refine keep_writeFlds KR ?_
  try clear_value x1
  try clear_value x2
  have k3 : P x3 := by
    unfold x3
    repeat' first
      | with_reducible assumption
      | with_reducible refine keep_deactivate KR Ko KF Kg KS Kb Ke Kk Kl Ki ?_
      | with_reducible refine keep_exitEvent Ko Kl ?_
      | with_reducible refine keep_segChanged Ko Kl Ki ?_
      | with_reducible refine keep_portsSync KR Ko KF Kg Kl Ki ?_
      | split
  try clear_value x3
  repeat' first
    | with_reducible assumption
    | with_reducible refine keep_noteLocked KR ?_
    | with_reducible refine keep_portsSync KR Ko KF Kg Kl Ki ?_
    | with_reducible refine keep_ctlAsk KR KF Kg Kn ?_
    | split

theorem keep_execNetCtrlExitEnClear (KR : KeepRegs P) (Ko : KeepOut P) (KF : KeepFlt P) (Kg : KeepLog P) (KS : KeepSpn P) (Kb : KeepStr P) (Ke : KeepGge P) (Kk : KeepGaps P) (Kl : KeepLnk P) (Kn : KeepLane P) (Ki : KeepRing P) {p : Fin 2} {v : Word} {s : State}
    (hP : P s) {u : State} (e : execNetCtrlExitEnClear p v s = .next u) : P u := by
  unfold execNetCtrlExitEnClear at e
  refine keep_act hP ?_ e
  clear e
  repeat' first
    | with_reducible assumption
    | with_reducible refine keep_writeNetCtrl KR Ko KF Kg KS Kb Ke Kk Kl Kn Ki ?_

end Sys2Proof.Machine
end

