-- ==== Sys2Proof/Laws/KeepChainpo.lean ====
section
/-! SUPPORT. What the operations of Machine/Chainpo.lean keep (see Laws/Keep.lean). -/
namespace Sys2Proof.Machine
variable {P : State → Prop}

theorem keep_ctlCheck (KR : KeepRegs P) {s : State} {k : Nat} {b : Nat} {typ : Nat}
    (hP : P s)  : P (State.ctlCheck s k b typ).1 := by
  unfold State.ctlCheck
  repeat' first
    | with_reducible assumption
    | with_reducible refine keep_bump KR ?_
    | split

theorem keep_sendTrain (Ko : KeepOut P) (Kl : KeepLnk P) {s : State} {k : Nat}
    (hP : P s)  : P (State.sendTrain s k) := by
  unfold State.sendTrain
  extract_lets x0 x1 x2
  try clear_value x0
  try clear_value x1
  have k2 : P x2 := by
    unfold x2
    repeat' first
      | with_reducible assumption
      | with_reducible refine Kl.setLk _ _ _ ?_
      | split
  try clear_value x2
  repeat' first
    | with_reducible assumption
    | with_reducible refine keep_sendLane Ko ?_
    | (with_reducible refine keep_forEach ?_ ?_)
    | (intro s x hx)

theorem keep_trainLanes (KR : KeepRegs P) (Ko : KeepOut P) (KF : KeepFlt P) (Kg : KeepLog P) (Kl : KeepLnk P) (Kn : KeepLane P) {s : State} {k : Nat}
    (hP : P s)  : P (State.trainLanes s k) := by
  unfold State.trainLanes
  repeat' first
    | with_reducible assumption
    | with_reducible refine keep_ctlAsk KR KF Kg Kn ?_
    | with_reducible refine keep_sendTrain Ko Kl ?_
    | (with_reducible refine keep_forEach ?_ ?_)
    | (intro s x hx)

theorem keep_trainAt (KR : KeepRegs P) (Ko : KeepOut P) (KF : KeepFlt P) (Kg : KeepLog P) (Kl : KeepLnk P) (Kn : KeepLane P) {s : State} {k : Nat} {rate : Nat}
    (hP : P s)  : P (State.trainAt s k rate) := by
  unfold State.trainAt
  extract_lets x0 x1 x2
  try clear_value x0
  have k1 : P x1 := by
    unfold x1
    repeat' first
      | with_reducible assumption
      | with_reducible refine Kl.setLk _ _ _ ?_
  try clear_value x1
  try clear_value x2
  repeat' first
    | with_reducible assumption
    | with_reducible refine Kl.setLk _ _ _ ?_
    | with_reducible refine keep_trainLanes KR Ko KF Kg Kl Kn ?_
    | with_reducible refine keep_ctlAsk KR KF Kg Kn ?_
    | (with_reducible refine keep_forEach ?_ ?_)
    | (intro s x hx)
    | split

theorem keep_trainRate (KR : KeepRegs P) (Ko : KeepOut P) (KF : KeepFlt P) (Kg : KeepLog P) (Kl : KeepLnk P) (Kn : KeepLane P) {s : State} {k : Nat} {rate : Nat}
    (hP : P s)  : P (State.trainRate s k rate) := by
  unfold State.trainRate
  extract_lets x0
  try clear_value x0
  repeat' first
    | with_reducible assumption
    | with_reducible refine Kl.setLk _ _ _ ?_
    | with_reducible refine keep_setRate KR ?_
    | with_reducible refine keep_trainLanes KR Ko KF Kg Kl Kn ?_
    | split

theorem keep_linkDrop (KR : KeepRegs P) (Ko : KeepOut P) (KF : KeepFlt P) (Kg : KeepLog P) (KS : KeepSpn P) (Kb : KeepStr P) (Ke : KeepGge P) (Kk : KeepGaps P) (Kl : KeepLnk P) (Ks : KeepSeg P) (Ki : KeepRing P) (KH : KeepHs P) {s : State} {k : Nat}
    (hP : P s)  : P (State.linkDrop s k) := by
  unfold State.linkDrop
  extract_lets x0 x1 x2 x3 x4 x5 x6 x7 x8 x9 x10 x11
  have k0 : P x0 := by
    unfold x0
    repeat' first
      | with_reducible assumption
      | with_reducible refine keep_loseSource KR Ko KF Kg KS Kk Kl ?_
      | split
  try clear_value x0
  try clear_value x1
  try clear_value x2
  have k3 : P x3 := by
    unfold x3
    repeat' first
      | with_reducible assumption
      | with_reducible refine keep_setFlag KR ?_
      | with_reducible refine keep_setFld KR ?_
  try clear_value x3
  have k4 : P x4 := by
    unfold x4
    repeat' first
      | with_reducible assumption
      | with_reducible refine keep_freeBlocks Ko Kl ?_
      | (with_reducible refine keep_forEach ?_ ?_)
      | (intro s x hx)
  try clear_value x4
  try clear_value x5
  have k6 : P x6 := by
    unfold x6
    repeat' first
      | with_reducible assumption
      | with_reducible refine Kl.setLk _ _ _ ?_
  try clear_value x6
  try clear_value x7
  have k8 : P x8 := by
    unfold x8
    repeat' first
      | with_reducible assumption
      | with_reducible refine Kl.setLk _ _ _ ?_
  try clear_value x8
  have k10 : P x10 := by
    unfold x10
    repeat' first
      | with_reducible assumption
      | with_reducible refine KH.hs _ _ ?_ ?_
      | exact fun hq => hq
  try clear_value x10
  have k11 : P x11 := by
    unfold x11
    repeat' first
      | with_reducible assumption
      | with_reducible refine keep_dropParts Ki ?_
      | with_reducible refine Ks.seg _ _ ?_
  try clear_value x11
  repeat' first
    | with_reducible assumption
    | with_reducible refine keep_noteLoss Ki ?_
    | with_reducible refine keep_pathSync KR KF Kg Kb Ke Kk Ki ?_
    | with_reducible refine keep_segChanged Ko Kl Ki ?_
    | with_reducible refine keep_portsSync KR Ko KF Kg Kl Ki ?_
    | split

theorem keep_linkDown (KR : KeepRegs P) (Ko : KeepOut P) (KF : KeepFlt P) (Kg : KeepLog P) (KS : KeepSpn P) (Kb : KeepStr P) (Ke : KeepGge P) (Kk : KeepGaps P) (Kl : KeepLnk P) (Ks : KeepSeg P) (Ki : KeepRing P) (KH : KeepHs P) {s : State} {k : Nat}
    (hP : P s)  : P (State.linkDown s k) := by
  unfold State.linkDown
  repeat' first
    | with_reducible assumption
    | with_reducible refine keep_linkDrop KR Ko KF Kg KS Kb Ke Kk Kl Ks Ki KH ?_
    | with_reducible refine keep_bump KR ?_
    | with_reducible refine keep_raise KR KF Kg ?_
    | split

theorem keep_execChainpoLinkDown (KR : KeepRegs P) (Ko : KeepOut P) (KF : KeepFlt P) (Kg : KeepLog P) (KS : KeepSpn P) (Kb : KeepStr P) (Ke : KeepGge P) (Kk : KeepGaps P) (Kl : KeepLnk P) (Ks : KeepSeg P) (Ki : KeepRing P) (KH : KeepHs P) {k : Fin 2} {s : State}
    (hP : P s) {u : State} (e : execChainpoLinkDown k s = .next u) : P u := by
  unfold execChainpoLinkDown at e
  refine keep_act hP ?_ e
  clear e
  repeat' first
    | with_reducible assumption
    | with_reducible refine keep_linkDown KR Ko KF Kg KS Kb Ke Kk Kl Ks Ki KH ?_

theorem keep_trainStep (KR : KeepRegs P) (Ko : KeepOut P) (KF : KeepFlt P) (Kg : KeepLog P) (Kl : KeepLnk P) (Kn : KeepLane P) {s : State} {k : Nat}
    (hP : P s)  : P (State.trainStep s k) := by
  unfold State.trainStep
  extract_lets x0
  try clear_value x0
  repeat' first
    | with_reducible assumption
    | with_reducible refine Kl.setLk _ _ _ ?_
    | with_reducible refine keep_trainAt KR Ko KF Kg Kl Kn ?_
    | with_reducible refine keep_trainRate KR Ko KF Kg Kl Kn ?_
    | with_reducible refine keep_sendTrain Ko Kl ?_
    | split

theorem keep_execLinkTraining (KR : KeepRegs P) (Ko : KeepOut P) (KF : KeepFlt P) (Kg : KeepLog P) (Kl : KeepLnk P) (Kn : KeepLane P) {k : Fin 2} {s : State}
    (hP : P s) {u : State} (e : execLinkTraining k s = .next u) : P u := by
  unfold execLinkTraining at e
  refine keep_act hP ?_ e
  clear e
  repeat' first
    | with_reducible assumption
    | with_reducible refine keep_trainStep KR Ko KF Kg Kl Kn ?_

theorem keep_execChainpoLinkRetry (KR : KeepRegs P) (Ko : KeepOut P) (KF : KeepFlt P) (Kg : KeepLog P) (KL : KeepTime P) (Kl : KeepLnk P) (Kn : KeepLane P) {k : Fin 2} {s : State}
    (hP : P s) {u : State} (e : execChainpoLinkRetry k s = .next u) : P u := by
  unfold execChainpoLinkRetry at e
  refine keep_act hP ?_ e
  clear e
  extract_lets x0 x1
  have k0 : P x0 := by
    unfold x0
    repeat' first
      | with_reducible assumption
      | with_reducible refine keep_moveTo KL ?_
  try clear_value x0
  try clear_value x1
  repeat' first
    | with_reducible assumption
    | with_reducible refine Kl.setLk _ _ _ ?_
    | with_reducible refine keep_trainStep KR Ko KF Kg Kl Kn ?_
    | split

theorem keep_execTrainRx (KR : KeepRegs P) (Ko : KeepOut P) (KF : KeepFlt P) (Kg : KeepLog P) (KS : KeepSpn P) (Kb : KeepStr P) (Ke : KeepGge P) (Kk : KeepGaps P) (Kl : KeepLnk P) (Ks : KeepSeg P) (Ki : KeepRing P) (KH : KeepHs P) {k : Fin 2} {block : BitVec 64} {s : State}
    (hP : P s) {u : State} (e : execTrainRx k block s = .next u) : P u := by
  unfold execTrainRx at e
  refine keep_act hP ?_ e
  clear e
  extract_lets x0 x1
  try clear_value x0
  try clear_value x1
  repeat' first
    | with_reducible assumption
    | with_reducible refine keep_ctlCheck KR ?_
    | with_reducible refine keep_linkDown KR Ko KF Kg KS Kb Ke Kk Kl Ks Ki KH ?_
    | with_reducible refine keep_setFld KR ?_
    | with_reducible refine Kl.setLk _ _ _ ?_
    | with_reducible refine keep_fst (by assumption) ?_
    | split

theorem keep_linkTrained (KR : KeepRegs P) (Ko : KeepOut P) (KF : KeepFlt P) (Kg : KeepLog P) (KL : KeepTime P) (Kb : KeepStr P) (Ke : KeepGge P) (Kk : KeepGaps P) (Kl : KeepLnk P) (Kn : KeepLane P) (Ki : KeepRing P) {s : State} {k : Nat}
    (hP : P s)  : P (State.linkTrained s k) := by
  unfold State.linkTrained
  extract_lets x0
  try clear_value x0
  repeat' first
    | with_reducible assumption
    | with_reducible refine keep_moveTo KL ?_
    | with_reducible refine Kl.setLk _ _ _ ?_
    | with_reducible refine keep_setFlag KR ?_
    | with_reducible refine keep_setFld KR ?_
    | with_reducible refine keep_ctlAsk KR KF Kg Kn ?_
    | with_reducible refine keep_raise KR KF Kg ?_
    | with_reducible refine keep_segChanged Ko Kl Ki ?_
    | with_reducible refine keep_portsSync KR Ko KF Kg Kl Ki ?_
    | with_reducible refine keep_pathSync KR KF Kg Kb Ke Kk Ki ?_
    | (with_reducible refine keep_forEach ?_ ?_)
    | (intro s x hx)
    | split

theorem keep_execLinkTrained (KR : KeepRegs P) (Ko : KeepOut P) (KF : KeepFlt P) (Kg : KeepLog P) (KL : KeepTime P) (Kb : KeepStr P) (Ke : KeepGge P) (Kk : KeepGaps P) (Kl : KeepLnk P) (Kn : KeepLane P) (Ki : KeepRing P) {k : Fin 2} {s : State}
    (hP : P s) {u : State} (e : execLinkTrained k s = .next u) : P u := by
  unfold execLinkTrained at e
  refine keep_act hP ?_ e
  clear e
  repeat' first
    | with_reducible assumption
    | with_reducible refine keep_linkTrained KR Ko KF Kg KL Kb Ke Kk Kl Kn Ki ?_

theorem keep_writeChpCtrl (KR : KeepRegs P) (Ko : KeepOut P) (KF : KeepFlt P) (Kg : KeepLog P) (KS : KeepSpn P) (Kb : KeepStr P) (Ke : KeepGge P) (Kk : KeepGaps P) (Kl : KeepLnk P) (Kn : KeepLane P) (Ks : KeepSeg P) (Ki : KeepRing P) (KH : KeepHs P) {s : State} {k : Nat} {v : Word}
    (hP : P s)  : P (State.writeChpCtrl s k v) := by
  unfold State.writeChpCtrl
  extract_lets x0 x1 x2 x3 x4 x5
  try clear_value x0
  have k1 : P x1 := by
    unfold x1
    repeat' first
      | with_reducible assumption
      | with_reducible refine keep_writeFlds KR ?_
  try clear_value x1
  try clear_value x2
  have k3 : P x3 := by
    unfold x3
    repeat' first
      | with_reducible assumption
      | with_reducible refine keep_setFlag KR ?_
  try clear_value x3
  have k4 : P x4 := by
    unfold x4
    repeat' first
      | with_reducible assumption
      | with_reducible refine keep_setFlag KR ?_
      | with_reducible refine keep_linkDrop KR Ko KF Kg KS Kb Ke Kk Kl Ks Ki KH ?_
  try clear_value x4
  try clear_value x5
  repeat' first
    | with_reducible assumption
    | with_reducible refine keep_linkDrop KR Ko KF Kg KS Kb Ke Kk Kl Ks Ki KH ?_
    | with_reducible refine Kl.setLk _ _ _ ?_
    | with_reducible refine keep_ctlAsk KR KF Kg Kn ?_
    | with_reducible refine keep_trainStep KR Ko KF Kg Kl Kn ?_
    | (with_reducible refine keep_forEach ?_ ?_)
    | (intro s x hx)
    | split

theorem keep_execChpCtrlRetrain (KR : KeepRegs P) (Ko : KeepOut P) (KF : KeepFlt P) (Kg : KeepLog P) (KS : KeepSpn P) (Kb : KeepStr P) (Ke : KeepGge P) (Kk : KeepGaps P) (Kl : KeepLnk P) (Kn : KeepLane P) (Ks : KeepSeg P) (Ki : KeepRing P) (KH : KeepHs P) {k : Fin 2} {v : Word} {s : State}
    (hP : P s) {u : State} (e : execChpCtrlRetrain k v s = .next u) : P u := by
  unfold execChpCtrlRetrain at e
  refine keep_act hP ?_ e
  clear e
  repeat' first
    | with_reducible assumption
    | with_reducible refine keep_writeChpCtrl KR Ko KF Kg KS Kb Ke Kk Kl Kn Ks Ki KH ?_

theorem keep_execAlignRx (KR : KeepRegs P) (Kl : KeepLnk P) {k : Fin 2} {block : BitVec 64} {s : State}
    (hP : P s) {u : State} (e : execAlignRx k block s = .next u) : P u := by
  unfold execAlignRx at e
  refine keep_act hP ?_ e
  clear e
  extract_lets x0
  try clear_value x0
  repeat' first
    | with_reducible assumption
    | with_reducible refine keep_ctlCheck KR ?_
    | with_reducible refine Kl.setLk _ _ _ ?_
    | with_reducible refine keep_fst (by assumption) ?_
    | split
    | dsimp only

theorem keep_linkTick (Ko : KeepOut P) (Kl : KeepLnk P) {s : State} {before : Nat} {k : Nat}
    (hP : P s)  : P (State.linkTick s before k) := by
  unfold State.linkTick
  extract_lets x0 x1
  try clear_value x0
  try clear_value x1
  repeat' first
    | with_reducible assumption
    | with_reducible refine keep_sendIdle Ko Kl ?_
    | (with_reducible refine keep_forEach ?_ ?_)
    | (intro s x hx)
    | split

theorem keep_idleStep (Ko : KeepOut P) (KL : KeepTime P) (Kd : KeepDlk P) (Kl : KeepLnk P) {s : State}
    (hP : P s)  : P (State.idleStep s) := by
  unfold State.idleStep
  repeat' first
    | with_reducible assumption
    | with_reducible refine keep_idleCycle Ko KL Kd ?_
    | with_reducible refine keep_linkTick Ko Kl ?_

theorem keep_execLctlSend (Ko : KeepOut P) (KL : KeepTime P) (Kl : KeepLnk P) {k : Fin 2} {s : State}
    (hP : P s) {u : State} (e : execLctlSend k s = .next u) : P u := by
  unfold execLctlSend at e
  refine keep_act hP ?_ e
  clear e
  extract_lets x0 x1 x2
  have k0 : P x0 := by
    unfold x0
    repeat' first
      | with_reducible assumption
      | with_reducible refine keep_moveTo KL ?_
  try clear_value x0
  try clear_value x1
  have k2 : P x2 := by
    unfold x2
    repeat' first
      | with_reducible assumption
      | with_reducible refine Kl.setLk _ _ _ ?_
  try clear_value x2
  repeat' first
    | with_reducible assumption
    | with_reducible refine keep_sendBlock Ko Kl ?_
    | (with_reducible refine keep_forEach ?_ ?_)
    | (intro s x hx)
    | split

theorem keep_execLctlRx (KR : KeepRegs P) (Ko : KeepOut P) (KF : KeepFlt P) (Kg : KeepLog P) (KS : KeepSpn P) (Kb : KeepStr P) (Ke : KeepGge P) (Kk : KeepGaps P) (Kl : KeepLnk P) (Ks : KeepSeg P) (Ki : KeepRing P) (KH : KeepHs P) {k : Fin 2} {block : BitVec 64} {s : State}
    (hP : P s) {u : State} (e : execLctlRx k block s = .next u) : P u := by
  unfold execLctlRx at e
  refine keep_act hP ?_ e
  clear e
  extract_lets x0 x1
  try clear_value x0
  try clear_value x1
  repeat' first
    | with_reducible assumption
    | with_reducible refine keep_ctlCheck KR ?_
    | with_reducible refine Kl.setLk _ _ _ ?_
    | with_reducible refine keep_linkDown KR Ko KF Kg KS Kb Ke Kk Kl Ks Ki KH ?_
    | with_reducible refine keep_bump KR ?_
    | with_reducible refine keep_putCell Ko Kl ?_
    | with_reducible refine keep_flushLink Ko Kl ?_
    | (with_reducible refine keep_forEach ?_ ?_)
    | (intro s x hx)
    | with_reducible refine keep_fst (by assumption) ?_
    | split
    | dsimp only

theorem keep_cellCheck (Ko : KeepOut P) (Kl : KeepLnk P) {s : State} {k : Nat} {hdr : Nat} {bs : List Byte}
    (hP : P s)  : P (State.cellCheck s k hdr bs).1 := by
  unfold State.cellCheck
  extract_lets x0 x1 x2 x3 x4
  try clear_value x0
  try clear_value x1
  try clear_value x2
  try clear_value x3
  have k4 : P x4 := by
    unfold x4
    repeat' first
      | with_reducible assumption
      | with_reducible refine Kl.setLk _ _ _ ?_
  try clear_value x4
  repeat' first
    | with_reducible assumption
    | with_reducible refine Kl.setLk _ _ _ ?_
    | with_reducible refine keep_sendOnLink Ko Kl ?_
    | split

theorem keep_reassemble (KR : KeepRegs P) (Ko : KeepOut P) (KF : KeepFlt P) (KM : KeepMem P) (Kg : KeepLog P) (Kb : KeepStr P) (Ke : KeepGge P) (Kk : KeepGaps P) (Kl : KeepLnk P) (Ki : KeepRing P) {s : State} {p : Nat} {bs : List Byte}
    (hP : P s)  : P (State.reassemble s p bs) := by
  unfold State.reassemble
  extract_lets x0 x1 x2 x3 x4 x5 x6 x7 x8
  try clear_value x0
  try clear_value x1
  try clear_value x2
  try clear_value x3
  try clear_value x4
  try clear_value x5
  try clear_value x6
  try clear_value x7
  try clear_value x8
  repeat' first
    | with_reducible assumption
    | with_reducible refine keep_exitOffer KR Ko KF KM Kg Kb Ke Kk Kl Ki ?_
    | split
    | with_reducible refine Ki.ring _ _ ?_

theorem keep_streamCell (KR : KeepRegs P) (Ko : KeepOut P) (KF : KeepFlt P) (KM : KeepMem P) (Kg : KeepLog P) (Kb : KeepStr P) (Ke : KeepGge P) (Kk : KeepGaps P) (Kl : KeepLnk P) (Ki : KeepRing P) {s : State} {k : Nat} {bs : List Byte}
    (hP : P s)  : P (State.streamCell s k bs) := by
  unfold State.streamCell
  repeat' first
    | with_reducible assumption
    | with_reducible refine keep_reassemble KR Ko KF KM Kg Kb Ke Kk Kl Ki ?_
    | with_reducible refine keep_sendCell Ko Kl ?_
    | split

theorem keep_execStreamCellRx (KR : KeepRegs P) (Ko : KeepOut P) (KF : KeepFlt P) (KM : KeepMem P) (Kg : KeepLog P) (Kb : KeepStr P) (Ke : KeepGge P) (Kk : KeepGaps P) (Kl : KeepLnk P) (Ki : KeepRing P) {k : Fin 2} {payload : List Byte} {s : State}
    (hP : P s) {u : State} (e : execStreamCellRx k payload s = .next u) : P u := by
  unfold execStreamCellRx at e
  refine keep_act hP ?_ e
  clear e
  repeat' first
    | with_reducible assumption
    | with_reducible refine keep_streamCell KR Ko KF KM Kg Kb Ke Kk Kl Ki ?_

end Sys2Proof.Machine
end

