-- ==== Sys2Proof/Laws/KeepEvent.lean ====
section
/-! SUPPORT. What the operations of Machine/Event.lean keep (see Laws/Keep.lean). -/
namespace Sys2Proof.Machine
variable {P : State → Prop}

theorem keep_evtCheck (KR : KeepRegs P) (KF : KeepFlt P) (Kg : KeepLog P) {s : State} {n : Nat}
    (hP : P s)  : P (State.evtCheck s n) := by
  unfold State.evtCheck
  extract_lets x0 x1 x2 x3 x4
  try clear_value x0
  try clear_value x1
  try clear_value x2
  have k3 : P x3 := by
    unfold x3
    repeat' first
      | with_reducible assumption
      | with_reducible refine keep_setFlag KR ?_
  try clear_value x3
  have k4 : P x4 := by
    unfold x4
    repeat' first
      | with_reducible assumption
      | with_reducible refine keep_setFlag KR ?_
      | split
  try clear_value x4
  repeat' first
    | with_reducible assumption
    | with_reducible refine keep_raise KR KF Kg ?_
    | split

theorem keep_evtIdle (KR : KeepRegs P) (KF : KeepFlt P) (Kg : KeepLog P) (Kh : KeepChan P) {s : State} {n : Nat}
    (hP : P s)  : P (State.evtIdle s n) := by
  unfold State.evtIdle
  extract_lets x0 x1 x2
  try clear_value x0
  have k1 : P x1 := by
    unfold x1
    repeat' first
      | with_reducible assumption
      | with_reducible refine keep_setFlag KR ?_
  try clear_value x1
  try clear_value x2
  repeat' first
    | with_reducible assumption
    | with_reducible refine Kh.setCh _ _ _ ?_
    | with_reducible refine keep_setLine KR KF Kg ?_

theorem keep_evtRearm (KR : KeepRegs P) {s : State} {n : Nat} {lt : Nat}
    (hP : P s)  : P (State.evtRearm s n lt) := by
  unfold State.evtRearm
  extract_lets x0 x1
  try clear_value x0
  try clear_value x1
  repeat' first
    | with_reducible assumption
    | with_reducible refine keep_setFlag KR ?_
    | split

theorem keep_execComparatorCrossing (KR : KeepRegs P) (Ko : KeepOut P) (KF : KeepFlt P) (KM : KeepMem P) (Kg : KeepLog P) (KL : KeepTime P) (KS : KeepSpn P) (Kh : KeepChan P) (Kb : KeepStr P) (Kp : KeepCap P) (Kk : KeepGaps P) (Kl : KeepLnk P) {n : Fin 384} {s : State}
    (hP : P s) {u : State} (e : execComparatorCrossing n s = .next u) : P u := by
  unfold execComparatorCrossing at e
  refine keep_act hP ?_ e
  clear e
  extract_lets x0 x1 x2 x3 x4 x5 x6 x7
  try clear_value x0
  try clear_value x1
  have k2 : P x2 := by
    unfold x2
    repeat' first
      | with_reducible assumption
      | with_reducible refine keep_moveTo KL ?_
  try clear_value x2
  try clear_value x3
  have k4 : P x4 := by
    unfold x4
    repeat' first
      | with_reducible assumption
      | with_reducible refine keep_setFlag KR ?_
  try clear_value x4
  have k5 : P x5 := by
    unfold x5
    repeat' first
      | with_reducible assumption
      | with_reducible refine keep_setSt KR ?_
  try clear_value x5
  try clear_value x6
  have k7 : P x7 := by
    unfold x7
    repeat' first
      | with_reducible assumption
      | with_reducible refine Kh.setCh _ _ _ ?_
  try clear_value x7
  repeat' first
    | with_reducible assumption
    | with_reducible refine keep_cmpRecord KR Ko KF KM Kg Kb ?_
    | with_reducible refine keep_capEvent KR Ko KF Kg KS Kp Kk Kl ?_
    | split

theorem keep_execBurstEnd (KR : KeepRegs P) (Kh : KeepChan P) {n : Fin 384} {s : State}
    (hP : P s) {u : State} (e : execBurstEnd n s = .next u) : P u := by
  unfold execBurstEnd at e
  refine keep_act hP ?_ e
  clear e
  extract_lets x0 x1 x2 x3
  try clear_value x0
  try clear_value x1
  have k2 : P x2 := by
    unfold x2
    repeat' first
      | with_reducible assumption
      | with_reducible refine keep_setFlag KR ?_
  try clear_value x2
  try clear_value x3
  repeat' first
    | with_reducible assumption
    | with_reducible refine Kh.setCh _ _ _ ?_
    | split

theorem keep_execComparatorHoldoffEnd (KR : KeepRegs P) {n : Fin 384} {s : State}
    (hP : P s) {u : State} (e : execComparatorHoldoffEnd n s = .next u) : P u := by
  unfold execComparatorHoldoffEnd at e
  refine keep_act hP ?_ e
  clear e
  extract_lets x0
  try clear_value x0
  repeat' first
    | with_reducible assumption
    | with_reducible refine keep_setFlag KR ?_
    | with_reducible refine keep_evtRearm KR ?_
    | split

theorem keep_execComparatorOverrun (KR : KeepRegs P) (Ko : KeepOut P) (KF : KeepFlt P) (KM : KeepMem P) (Kg : KeepLog P) (KL : KeepTime P) (Kh : KeepChan P) (Kb : KeepStr P) {n : Fin 384} {s : State}
    (hP : P s) {u : State} (e : execComparatorOverrun n s = .next u) : P u := by
  unfold execComparatorOverrun at e
  refine keep_act hP ?_ e
  clear e
  extract_lets x0 x1 x2 x3 x4 x5 x6
  try clear_value x0
  try clear_value x1
  have k2 : P x2 := by
    unfold x2
    repeat' first
      | with_reducible assumption
      | with_reducible refine keep_moveTo KL ?_
  try clear_value x2
  try clear_value x3
  have k4 : P x4 := by
    unfold x4
    repeat' first
      | with_reducible assumption
      | with_reducible refine Kh.setCh _ _ _ ?_
  try clear_value x4
  have k5 : P x5 := by
    unfold x5
    repeat' first
      | with_reducible assumption
      | with_reducible refine keep_bump KR ?_
  try clear_value x5
  have k6 : P x6 := by
    unfold x6
    repeat' first
      | with_reducible assumption
      | with_reducible refine keep_cmpRecord KR Ko KF KM Kg Kb ?_
  try clear_value x6
  repeat' first
    | with_reducible assumption
    | with_reducible refine keep_raise KR KF Kg ?_
    | split

theorem keep_execComparatorStuck (KR : KeepRegs P) (Ko : KeepOut P) (KF : KeepFlt P) (KM : KeepMem P) (Kg : KeepLog P) (Kh : KeepChan P) (Kb : KeepStr P) {n : Fin 384} {s : State}
    (hP : P s) {u : State} (e : execComparatorStuck n s = .next u) : P u := by
  unfold execComparatorStuck at e
  refine keep_act hP ?_ e
  clear e
  extract_lets x0 x1 x2 x3
  try clear_value x0
  try clear_value x1
  have k2 : P x2 := by
    unfold x2
    repeat' first
      | with_reducible assumption
      | with_reducible refine Kh.setCh _ _ _ ?_
  try clear_value x2
  have k3 : P x3 := by
    unfold x3
    repeat' first
      | with_reducible assumption
      | with_reducible refine keep_setFlag KR ?_
  try clear_value x3
  repeat' first
    | with_reducible assumption
    | with_reducible refine keep_cmpRecord KR Ko KF KM Kg Kb ?_
    | with_reducible refine keep_setLine KR KF Kg ?_
    | split

theorem keep_execComparatorBandReentry (KR : KeepRegs P) (KF : KeepFlt P) (Kg : KeepLog P) (Kh : KeepChan P) {l : SeenLevel} {s : State}
    (hP : P s) {u : State} (e : execComparatorBandReentry l s = .next u) : P u := by
  unfold execComparatorBandReentry at e
  refine keep_act hP ?_ e
  clear e
  extract_lets x0 x1
  try clear_value x0
  try clear_value x1
  repeat' first
    | with_reducible assumption
    | with_reducible refine Kh.setCh _ _ _ ?_
    | with_reducible refine keep_setFlag KR ?_
    | with_reducible refine keep_setLine KR KF Kg ?_
    | split

theorem keep_evtEdge (KR : KeepRegs P) (Kh : KeepChan P) {s : State} {n : Nat} {lt : Nat}
    (hP : P s)  : P (State.evtEdge s n lt) := by
  unfold State.evtEdge
  extract_lets x0 x1 x2 x3
  try clear_value x0
  have k1 : P x1 := by
    unfold x1
    repeat' first
      | with_reducible assumption
      | with_reducible refine Kh.setCh _ _ _ ?_
  try clear_value x1
  have k2 : P x2 := by
    unfold x2
    repeat' first
      | with_reducible assumption
      | with_reducible refine keep_evtRearm KR ?_
  try clear_value x2
  try clear_value x3
  repeat' first
    | with_reducible assumption
    | with_reducible refine Kh.setCh _ _ _ ?_
    | with_reducible refine keep_setFlag KR ?_
    | split

theorem keep_evtWrite (KR : KeepRegs P) (Ka : KeepAct P) (KF : KeepFlt P) (Kg : KeepLog P) (Kh : KeepChan P) {s : State} {n : Nat} {a : Nat} {v : Word}
    (hP : P s)  : P (State.evtWrite s n a v) := by
  unfold State.evtWrite
  extract_lets x0 x1 x2
  try clear_value x0
  have k1 : P x1 := by
    unfold x1
    repeat' first
      | with_reducible assumption
      | with_reducible refine Ka.setAct _ _ _ ?_
  try clear_value x1
  have k2 : P x2 := by
    unfold x2
    repeat' first
      | with_reducible assumption
      | with_reducible refine keep_evtIdle KR KF Kg Kh ?_
      | split
  try clear_value x2
  repeat' first
    | with_reducible assumption
    | with_reducible refine keep_evtCheck KR KF Kg ?_

theorem keep_evtStart (KR : KeepRegs P) (KF : KeepFlt P) (Kg : KeepLog P) (Kh : KeepChan P) {s : State} {n : Nat}
    (hP : P s)  : P (State.evtStart s n) := by
  unfold State.evtStart
  repeat' first
    | with_reducible assumption
    | with_reducible refine keep_evtIdle KR KF Kg Kh ?_
    | with_reducible refine keep_evtCheck KR KF Kg ?_
    | split

theorem keep_evtStop (KR : KeepRegs P) (KF : KeepFlt P) (Kg : KeepLog P) (Kh : KeepChan P) {s : State} {n : Nat}
    (hP : P s)  : P (State.evtStop s n) := by
  unfold State.evtStop
  repeat' first
    | with_reducible assumption
    | with_reducible refine keep_evtIdle KR KF Kg Kh ?_
    | split

end Sys2Proof.Machine
end

