-- ==== Sys2Proof/Laws/KeepExcite.lean ====
section
/-! SUPPORT. What the operations of Machine/Excite.lean keep (see Laws/Keep.lean). -/
namespace Sys2Proof.Machine
variable {P : State → Prop}

theorem keep_onset (Kc : KeepClu P) {s : State} {c : Nat} {src : Nat}
    (hP : P s)  : P (State.onset s c src) := by
  unfold State.onset
  extract_lets x0
  try clear_value x0
  repeat' first
    | with_reducible assumption
    | with_reducible refine Kc.setCl _ _ _ ?_

theorem keep_cluLine (KR : KeepRegs P) (KF : KeepFlt P) (Kg : KeepLog P) (Kc : KeepClu P) {s : State} {src : Nat} {c : Nat} {on : Bool}
    (hP : P s)  : P (State.cluLine s src c on) := by
  unfold State.cluLine
  extract_lets x0
  have k0 : P x0 := by
    unfold x0
    repeat' first
      | with_reducible assumption
      | with_reducible refine keep_onset Kc ?_
      | split
  try clear_value x0
  repeat' first
    | with_reducible assumption
    | with_reducible refine keep_setLine KR KF Kg ?_

theorem keep_settleStart (Kc : KeepClu P) {s : State} {c : Nat}
    (hP : P s)  : P (State.settleStart s c) := by
  unfold State.settleStart
  extract_lets x0 x1
  try clear_value x0
  try clear_value x1
  repeat' first
    | with_reducible assumption
    | with_reducible refine Kc.setCl _ _ _ ?_

theorem keep_excOpen (Kc : KeepClu P) {s : State} {c : Nat}
    (hP : P s)  : P (State.excOpen s c) := by
  unfold State.excOpen
  extract_lets x0
  try clear_value x0
  repeat' first
    | with_reducible assumption
    | with_reducible refine Kc.setCl _ _ _ ?_

theorem keep_excOff (KR : KeepRegs P) (KF : KeepFlt P) (Kg : KeepLog P) {s : State} {c : Nat}
    (hP : P s)  : P (State.excOff s c) := by
  unfold State.excOff
  extract_lets x0 x1
  try clear_value x0
  have k1 : P x1 := by
    unfold x1
    repeat' first
      | with_reducible assumption
      | with_reducible refine keep_setFlag KR ?_
  try clear_value x1
  repeat' first
    | with_reducible assumption
    | with_reducible refine keep_setLine KR KF Kg ?_

theorem keep_excResolve (KR : KeepRegs P) (KF : KeepFlt P) (Kg : KeepLog P) (Kc : KeepClu P) {s : State} {c : Nat} {run : Bool}
    (hP : P s)  : P (State.excResolve s c run) := by
  unfold State.excResolve
  extract_lets x0 x1 x2 x3 x4 x5 x6 x7 x8
  try clear_value x0
  try clear_value x1
  try clear_value x2
  try clear_value x3
  try clear_value x4
  have k5 : P x5 := by
    unfold x5
    repeat' first
      | with_reducible assumption
      | with_reducible refine keep_setFlag KR ?_
  try clear_value x5
  have k6 : P x6 := by
    unfold x6
    repeat' first
      | with_reducible assumption
      | with_reducible refine keep_excOff KR KF Kg ?_
      | split
  try clear_value x6
  try clear_value x7
  have k8 : P x8 := by
    unfold x8
    repeat' first
      | with_reducible assumption
      | with_reducible refine Kc.setCl _ _ _ ?_
  try clear_value x8
  repeat' first
    | with_reducible assumption
    | with_reducible refine keep_settleStart Kc ?_
    | split

theorem keep_excPolSet (Ka : KeepAct P) (Kc : KeepClu P) {s : State} {c : Nat} {p : Bool}
    (hP : P s)  : P (State.excPolSet s c p) := by
  unfold State.excPolSet
  extract_lets x0 x1 x2
  try clear_value x0
  try clear_value x1
  try clear_value x2
  repeat' first
    | with_reducible assumption
    | with_reducible refine Kc.setCl _ _ _ ?_
    | with_reducible refine keep_setActFld Ka ?_
    | split

theorem keep_excWrite (KR : KeepRegs P) (Ka : KeepAct P) (KF : KeepFlt P) (Kg : KeepLog P) (Kc : KeepClu P) {s : State} {a : Nat} {v : Word}
    (hP : P s)  : P (State.excWrite s a v) := by
  unfold State.excWrite
  extract_lets x0 x1 x2 x3 x4 x5 x6
  try clear_value x0
  try clear_value x1
  have k2 : P x2 := by
    unfold x2
    repeat' first
      | with_reducible assumption
      | with_reducible refine keep_excPolSet Ka Kc ?_
  try clear_value x2
  try clear_value x3
  try clear_value x4
  have k5 : P x5 := by
    unfold x5
    repeat' first
      | with_reducible assumption
      | with_reducible refine Kc.setCl _ _ _ ?_
      | split
  try clear_value x5
  have k6 : P x6 := by
    unfold x6
    repeat' first
      | with_reducible assumption
      | with_reducible refine Ka.setAct _ _ _ ?_
  try clear_value x6
  repeat' first
    | with_reducible assumption
    | with_reducible refine Ka.setAct _ _ _ ?_
    | with_reducible refine keep_setFlag KR ?_
    | with_reducible refine keep_setLine KR KF Kg ?_
    | split

theorem keep_excShow (KR : KeepRegs P) {s : State} {a : Nat} {f : Fld} {v : Nat}
    (hP : P s)  : P (State.excShow s a f v) := by
  unfold State.excShow
  repeat' first
    | with_reducible assumption
    | with_reducible refine keep_setFld KR ?_
    | split

theorem keep_excSeq (KR : KeepRegs P) (Ka : KeepAct P) (Kc : KeepClu P) {s : State} {c : Nat} {kind : Nat} {v : Nat}
    (hP : P s)  : P (State.excSeq s c kind v) := by
  unfold State.excSeq
  extract_lets x0 x1 x2 x3
  try clear_value x0
  try clear_value x1
  try clear_value x2
  have k3 : P x3 := by
    unfold x3
    repeat' first
      | with_reducible assumption
      | with_reducible refine keep_excPolSet Ka Kc ?_
  try clear_value x3
  repeat' first
    | with_reducible assumption
    | with_reducible refine keep_setActFld Ka ?_
    | with_reducible refine keep_excShow KR ?_
    | split

theorem keep_settleTick (Kc : KeepClu P) {s : State} {c : Nat}
    (hP : P s)  : P (State.settleTick s c) := by
  unfold State.settleTick
  extract_lets x0
  try clear_value x0
  repeat' first
    | with_reducible assumption
    | with_reducible refine Kc.setCl _ _ _ ?_
    | split

theorem keep_excStart (Kc : KeepClu P) {s : State} {c : Nat}
    (hP : P s)  : P (State.excStart s c) := by
  unfold State.excStart
  extract_lets x0 x1
  try clear_value x0
  have k1 : P x1 := by
    unfold x1
    repeat' first
      | with_reducible assumption
      | with_reducible refine Kc.setCl _ _ _ ?_
  try clear_value x1
  repeat' first
    | with_reducible assumption
    | with_reducible refine keep_settleStart Kc ?_
    | with_reducible refine keep_excOpen Kc ?_
    | split

theorem keep_execReferenceDeviation (KR : KeepRegs P) (KF : KeepFlt P) (Kg : KeepLog P) (Kc : KeepClu P) {p : RefPoint} {on : Bool} {s : State}
    (hP : P s) {u : State} (e : execReferenceDeviation p on s = .next u) : P u := by
  unfold execReferenceDeviation at e
  refine keep_act hP ?_ e
  clear e
  repeat' first
    | with_reducible assumption
    | with_reducible refine keep_onset Kc ?_
    | with_reducible refine keep_setLine KR KF Kg ?_
    | (with_reducible refine keep_forEach ?_ ?_)
    | (intro s x hx)
    | split

theorem keep_execSenseOpen (KR : KeepRegs P) (KF : KeepFlt P) (Kg : KeepLog P) (Kc : KeepClu P) {c : Fin 48} {on : Bool} {s : State}
    (hP : P s) {u : State} (e : execSenseOpen c on s = .next u) : P u := by
  unfold execSenseOpen at e
  refine keep_act hP ?_ e
  clear e
  extract_lets x0
  try clear_value x0
  repeat' first
    | with_reducible assumption
    | with_reducible refine keep_setFlag KR ?_
    | with_reducible refine keep_cluLine KR KF Kg Kc ?_

theorem keep_execExcRegulationFault (KR : KeepRegs P) (KF : KeepFlt P) (Kg : KeepLog P) (Kc : KeepClu P) {c : Fin 48} {on : Bool} {s : State}
    (hP : P s) {u : State} (e : execExcRegulationFault c on s = .next u) : P u := by
  unfold execExcRegulationFault at e
  refine keep_act hP ?_ e
  clear e
  repeat' first
    | with_reducible assumption
    | with_reducible refine keep_cluLine KR KF Kg Kc ?_

theorem keep_execExcDropout (KR : KeepRegs P) (KF : KeepFlt P) (Kg : KeepLog P) (Kc : KeepClu P) {c : Fin 48} {on : Bool} {s : State}
    (hP : P s) {u : State} (e : execExcDropout c on s = .next u) : P u := by
  unfold execExcDropout at e
  refine keep_act hP ?_ e
  clear e
  extract_lets x0
  try clear_value x0
  repeat' first
    | with_reducible assumption
    | with_reducible refine keep_setFlag KR ?_
    | with_reducible refine keep_cluLine KR KF Kg Kc ?_

theorem keep_execVexcLow (KR : KeepRegs P) (KF : KeepFlt P) (Kg : KeepLog P) {g : Fin 8} {on : Bool} {s : State}
    (hP : P s) {u : State} (e : execVexcLow g on s = .next u) : P u := by
  unfold execVexcLow at e
  refine keep_act hP ?_ e
  clear e
  repeat' first
    | with_reducible assumption
    | with_reducible refine keep_setLine KR KF Kg ?_

theorem keep_execExcCurrentLimit (KR : KeepRegs P) (KF : KeepFlt P) (Kg : KeepLog P) {c : Fin 48} {l : Limiting} {s : State}
    (hP : P s) {u : State} (e : execExcCurrentLimit c l s = .next u) : P u := by
  unfold execExcCurrentLimit at e
  refine keep_act hP ?_ e
  clear e
  extract_lets x0 x1 x2 x3 x4
  try clear_value x0
  try clear_value x1
  try clear_value x2
  have k3 : P x3 := by
    unfold x3
    repeat' first
      | with_reducible assumption
      | with_reducible refine keep_bump KR ?_
      | split
  try clear_value x3
  have k4 : P x4 := by
    unfold x4
    repeat' first
      | with_reducible assumption
      | with_reducible refine keep_setFlag KR ?_
  try clear_value x4
  repeat' first
    | with_reducible assumption
    | with_reducible refine keep_setLine KR KF Kg ?_
    | split

theorem keep_execExcShutdown (KR : KeepRegs P) (KF : KeepFlt P) (Kg : KeepLog P) (Kc : KeepClu P) {c : Fin 48} {s : State}
    (hP : P s) {u : State} (e : execExcShutdown c s = .next u) : P u := by
  unfold execExcShutdown at e
  refine keep_act hP ?_ e
  clear e
  extract_lets x0
  try clear_value x0
  repeat' first
    | with_reducible assumption
    | with_reducible refine keep_excOff KR KF Kg ?_
    | with_reducible refine keep_setFlag KR ?_
    | with_reducible refine keep_cluLine KR KF Kg Kc ?_
    | with_reducible refine keep_excOpen Kc ?_
    | split

theorem keep_autoReverse (KR : KeepRegs P) (Ka : KeepAct P) (KF : KeepFlt P) (Kg : KeepLog P) (Kc : KeepClu P) {s : State} {c : Nat}
    (hP : P s)  : P (State.autoReverse s c) := by
  unfold State.autoReverse
  extract_lets x0 x1 x2 x3 x4 x5 x6 x7
  try clear_value x0
  try clear_value x1
  try clear_value x2
  try clear_value x3
  try clear_value x4
  try clear_value x5
  have k6 : P x6 := by
    unfold x6
    repeat' first
      | with_reducible assumption
      | with_reducible refine Kc.setCl _ _ _ ?_
  try clear_value x6
  have k7 : P x7 := by
    unfold x7
    repeat' first
      | with_reducible assumption
      | with_reducible refine keep_setActFld Ka ?_
  try clear_value x7
  repeat' first
    | with_reducible assumption
    | with_reducible refine keep_excShow KR ?_
    | with_reducible refine keep_excResolve KR KF Kg Kc ?_
    | split

theorem keep_execExcAutoReversal (KR : KeepRegs P) (Ka : KeepAct P) (KF : KeepFlt P) (Kg : KeepLog P) (Kc : KeepClu P) {c : Fin 48} {s : State}
    (hP : P s) {u : State} (e : execExcAutoReversal c s = .next u) : P u := by
  unfold execExcAutoReversal at e
  refine keep_act hP ?_ e
  clear e
  repeat' first
    | with_reducible assumption
    | with_reducible refine keep_autoReverse KR Ka KF Kg Kc ?_

theorem keep_execExcRampEnd (KR : KeepRegs P) (Kc : KeepClu P) {c : Fin 48} {s : State}
    (hP : P s) {u : State} (e : execExcRampEnd c s = .next u) : P u := by
  unfold execExcRampEnd at e
  refine keep_act hP ?_ e
  clear e
  extract_lets x0 x1
  try clear_value x0
  try clear_value x1
  repeat' first
    | with_reducible assumption
    | with_reducible refine keep_setFlag KR ?_
    | with_reducible refine Kc.setCl _ _ _ ?_

theorem keep_execSettlePeriodEnd (Kc : KeepClu P) {c : Fin 48} {s : State}
    (hP : P s) {u : State} (e : execSettlePeriodEnd c s = .next u) : P u := by
  unfold execSettlePeriodEnd at e
  refine keep_act hP ?_ e
  clear e
  extract_lets x0 x1
  try clear_value x0
  try clear_value x1
  repeat' first
    | with_reducible assumption
    | with_reducible refine Kc.setCl _ _ _ ?_
    | split

theorem keep_execExcMeasUpdate (KR : KeepRegs P) {c : Fin 48} {imeas : Fin 65536} {vsense : Fin 65536} {vdrive : Fin 65536} {vhead : Fin 65536} {s : State}
    (hP : P s) {u : State} (e : execExcMeasUpdate c imeas vsense vdrive vhead s = .next u) : P u := by
  unfold execExcMeasUpdate at e
  refine keep_act hP ?_ e
  clear e
  repeat' first
    | with_reducible assumption
    | with_reducible refine KR.setReg _ _ _ ?_

end Sys2Proof.Machine
end

