-- ==== Sys2Proof/Laws/KeepSequencer.lean ====
section
/-! SUPPORT. What the operations of Machine/Sequencer.lean keep (see Laws/Keep.lean). -/
namespace Sys2Proof.Machine
variable {P : State → Prop}

theorem keep_setSeqState (KR : KeepRegs P) {s : State} {g : Nat} {v : Nat}
    (hP : P s)  : P (State.setSeqState s g v) := by
  unfold State.setSeqState
  repeat' first
    | with_reducible assumption
    | with_reducible refine keep_setFld KR ?_

theorem keep_seqStand (KR : KeepRegs P) {s : State} {g : Nat}
    (hP : P s)  : P (State.seqStand s g) := by
  unfold State.seqStand
  repeat' first
    | with_reducible assumption
    | with_reducible refine keep_setFlag KR ?_
    | with_reducible refine keep_setSeqState KR ?_

theorem keep_seqGoto (KR : KeepRegs P) (Kr : KeepRgn P) {s : State} {g : Nat} {i : Nat} {dst : Nat}
    (hP : P s)  : P (State.seqGoto s g i dst) := by
  unfold State.seqGoto
  extract_lets x0 x1 x2
  try clear_value x0
  have k1 : P x1 := by
    unfold x1
    repeat' first
      | with_reducible assumption
      | with_reducible refine keep_setFld KR ?_
  try clear_value x1
  try clear_value x2
  repeat' first
    | with_reducible assumption
    | with_reducible refine Kr.setRg _ _ _ ?_
    | with_reducible refine keep_setSeqState KR ?_

theorem keep_seqDone (KR : KeepRegs P) (Kr : KeepRgn P) {s : State} {g : Nat} {i : Nat}
    (hP : P s)  : P (State.seqDone s g i) := by
  unfold State.seqDone
  extract_lets x0 x1
  try clear_value x0
  try clear_value x1
  repeat' first
    | with_reducible assumption
    | with_reducible refine Kr.setRg _ _ _ ?_
    | with_reducible refine keep_seqGoto KR Kr ?_
    | split

theorem keep_seqWaitDone (KR : KeepRegs P) (Kr : KeepRgn P) {s : State} {g : Nat} {i : Nat}
    (hP : P s)  : P (State.seqWaitDone s g i) := by
  unfold State.seqWaitDone
  repeat' first
    | with_reducible assumption
    | with_reducible refine keep_seqGoto KR Kr ?_

theorem keep_seqExec (KR : KeepRegs P) (Kr : KeepRgn P) {s : State} {g : Nat} {op : Nat} {f : State → Nat → State}
    (hP : P s) (hf : ∀ (s : State) a0, P s → P (f s a0))  : P (State.seqExec s g op f) := by
  unfold State.seqExec
  extract_lets x0 x1
  try clear_value x0
  try clear_value x1
  repeat' first
    | with_reducible assumption
    | with_reducible refine Kr.setRg _ _ _ ?_
    | with_reducible refine keep_bump KR ?_
    | with_reducible refine hf _ _ ?_
    | split

theorem keep_seqHalt (KR : KeepRegs P) (Ka : KeepAct P) (Kr : KeepRgn P) {s : State} {g : Nat}
    (hP : P s)  : P (State.seqHalt s g) := by
  unfold State.seqHalt
  extract_lets x0 x1 x2
  have k0 : P x0 := by
    unfold x0
    repeat' first
      | with_reducible assumption
      | with_reducible refine keep_setFlag KR ?_
      | with_reducible refine keep_setSeqState KR ?_
  try clear_value x0
  have k1 : P x1 := by
    unfold x1
    repeat' first
      | with_reducible assumption
      | with_reducible refine keep_setActFld Ka ?_
  try clear_value x1
  try clear_value x2
  repeat' first
    | with_reducible assumption
    | with_reducible refine Kr.setRg _ _ _ ?_

theorem keep_seqWait (KR : KeepRegs P) (Kr : KeepRgn P) {s : State} {g : Nat}
    (hP : P s)  : P (State.seqWait s g) := by
  unfold State.seqWait
  extract_lets x0
  try clear_value x0
  repeat' first
    | with_reducible assumption
    | with_reducible refine Kr.setRg _ _ _ ?_
    | with_reducible refine keep_setSeqState KR ?_

theorem keep_seqQueue (KR : KeepRegs P) (Kr : KeepRgn P) {s : State} {g : Nat} {i : Nat} {o : SteadyOp} {moved : State → State}
    (hP : P s) (hmoved : ∀ (s : State) , P s → P (moved s ))  : P (State.seqQueue s g i o moved) := by
  unfold State.seqQueue
  repeat' first
    | with_reducible assumption
    | with_reducible refine keep_queueOp KR Kr ?_
    | with_reducible refine keep_setFlag KR ?_
    | with_reducible refine keep_seqDone KR Kr ?_
    | with_reducible refine keep_seqWait KR Kr ?_
    | with_reducible refine hmoved _ ?_
    | with_reducible refine keep_fst (by assumption) ?_
    | split

theorem keep_execHalt (KR : KeepRegs P) (Ka : KeepAct P) (Kr : KeepRgn P) {g : Fin 8} {s : State}
    (hP : P s) {u : State} (e : execHalt g s = .next u) : P u := by
  unfold execHalt at e
  refine keep_act hP ?_ e
  clear e
  repeat' first
    | with_reducible assumption
    | with_reducible refine keep_seqExec KR Kr ?_ ?_
    | with_reducible refine keep_seqHalt KR Ka Kr ?_
    | with_reducible refine keep_seqEvent Kr ?_
    | intro _ _ h

theorem keep_execNop (KR : KeepRegs P) (Kr : KeepRgn P) {g : Fin 8} {s : State}
    (hP : P s) {u : State} (e : execNop g s = .next u) : P u := by
  unfold execNop at e
  refine keep_act hP ?_ e
  clear e
  repeat' first
    | with_reducible assumption
    | with_reducible refine keep_seqExec KR Kr ?_ ?_
    | with_reducible refine keep_seqDone KR Kr ?_
    | intro _ _ h

theorem keep_execWaitCmp (KR : KeepRegs P) (Kr : KeepRgn P) {g : Fin 8} {s : State}
    (hP : P s) {u : State} (e : execWaitCmp g s = .next u) : P u := by
  unfold execWaitCmp at e
  refine keep_act hP ?_ e
  clear e
  extract_lets x0
  try clear_value x0
  repeat' first
    | with_reducible assumption
    | with_reducible refine keep_seqExec KR Kr ?_ ?_
    | with_reducible refine keep_setFld KR ?_
    | with_reducible refine keep_seqWaitDone KR Kr ?_
    | with_reducible refine keep_seqWait KR Kr ?_
    | intro _ _ h
    | split
    | dsimp only

theorem keep_execCal (KR : KeepRegs P) (Kr : KeepRgn P) {g : Fin 8} {s : State}
    (hP : P s) {u : State} (e : execCal g s = .next u) : P u := by
  unfold execCal at e
  refine keep_act hP ?_ e
  clear e
  repeat' first
    | with_reducible assumption
    | with_reducible refine keep_seqExec KR Kr ?_ ?_
    | with_reducible refine keep_seqQueue KR Kr ?_ ?_
    | (with_reducible rw [id_eq])
    | intro _ _ h
    | intro _ h

theorem keep_execImp (KR : KeepRegs P) (Kr : KeepRgn P) {g : Fin 8} {s : State}
    (hP : P s) {u : State} (e : execImp g s = .next u) : P u := by
  unfold execImp at e
  refine keep_act hP ?_ e
  clear e
  repeat' first
    | with_reducible assumption
    | with_reducible refine keep_seqExec KR Kr ?_ ?_
    | with_reducible refine keep_seqQueue KR Kr ?_ ?_
    | (with_reducible rw [id_eq])
    | intro _ _ h
    | intro _ h

theorem keep_execCalimp (KR : KeepRegs P) (Kr : KeepRgn P) {g : Fin 8} {s : State}
    (hP : P s) {u : State} (e : execCalimp g s = .next u) : P u := by
  unfold execCalimp at e
  refine keep_act hP ?_ e
  clear e
  repeat' first
    | with_reducible assumption
    | with_reducible refine keep_seqExec KR Kr ?_ ?_
    | with_reducible refine keep_seqQueue KR Kr ?_ ?_
    | (with_reducible rw [id_eq])
    | intro _ _ h
    | intro _ h

theorem keep_seqNext (KR : KeepRegs P) (Kr : KeepRgn P) {s : State} {g : Nat} {i : Nat} {kind : OpKind} {spares : Bool}
    (hP : P s)  : P (State.seqNext s g i kind spares) := by
  unfold State.seqNext
  extract_lets x0
  try clear_value x0
  repeat' first
    | with_reducible assumption
    | with_reducible refine keep_seqDone KR Kr ?_
    | with_reducible refine keep_seqQueue KR Kr ?_ ?_
    | with_reducible refine keep_setFld KR ?_
    | intro _ h
    | split

theorem keep_execCalNext (KR : KeepRegs P) (Kr : KeepRgn P) {g : Fin 8} {s : State}
    (hP : P s) {u : State} (e : execCalNext g s = .next u) : P u := by
  unfold execCalNext at e
  refine keep_act hP ?_ e
  clear e
  repeat' first
    | with_reducible assumption
    | with_reducible refine keep_seqExec KR Kr ?_ ?_
    | with_reducible refine keep_seqNext KR Kr ?_
    | intro _ _ h

theorem keep_execImpNext (KR : KeepRegs P) (Kr : KeepRgn P) {g : Fin 8} {s : State}
    (hP : P s) {u : State} (e : execImpNext g s = .next u) : P u := by
  unfold execImpNext at e
  refine keep_act hP ?_ e
  clear e
  repeat' first
    | with_reducible assumption
    | with_reducible refine keep_seqExec KR Kr ?_ ?_
    | with_reducible refine keep_seqNext KR Kr ?_
    | intro _ _ h

theorem keep_execCalimpNext (KR : KeepRegs P) (Kr : KeepRgn P) {g : Fin 8} {s : State}
    (hP : P s) {u : State} (e : execCalimpNext g s = .next u) : P u := by
  unfold execCalimpNext at e
  refine keep_act hP ?_ e
  clear e
  repeat' first
    | with_reducible assumption
    | with_reducible refine keep_seqExec KR Kr ?_ ?_
    | with_reducible refine keep_seqNext KR Kr ?_
    | intro _ _ h

theorem keep_seqExcite (KR : KeepRegs P) (Ka : KeepAct P) (KF : KeepFlt P) (Kg : KeepLog P) (Kc : KeepClu P) (Kr : KeepRgn P) {s : State} {g : Nat} {i : Nat} {kind : Nat} {v : Nat}
    (hP : P s)  : P (State.seqExcite s g i kind v) := by
  unfold State.seqExcite
  repeat' first
    | with_reducible assumption
    | with_reducible refine keep_excSeq KR Ka Kc ?_
    | with_reducible refine keep_excResolve KR KF Kg Kc ?_
    | with_reducible refine keep_seqDone KR Kr ?_
    | (with_reducible refine keep_forEach ?_ ?_)
    | (intro s x hx)

theorem keep_execExcSet (KR : KeepRegs P) (Ka : KeepAct P) (KF : KeepFlt P) (Kg : KeepLog P) (Kc : KeepClu P) (Kr : KeepRgn P) {g : Fin 8} {s : State}
    (hP : P s) {u : State} (e : execExcSet g s = .next u) : P u := by
  unfold execExcSet at e
  refine keep_act hP ?_ e
  clear e
  repeat' first
    | with_reducible assumption
    | with_reducible refine keep_seqExec KR Kr ?_ ?_
    | with_reducible refine keep_seqExcite KR Ka KF Kg Kc Kr ?_
    | intro _ _ h

theorem keep_execExcPol (KR : KeepRegs P) (Ka : KeepAct P) (KF : KeepFlt P) (Kg : KeepLog P) (Kc : KeepClu P) (Kr : KeepRgn P) {g : Fin 8} {s : State}
    (hP : P s) {u : State} (e : execExcPol g s = .next u) : P u := by
  unfold execExcPol at e
  refine keep_act hP ?_ e
  clear e
  repeat' first
    | with_reducible assumption
    | with_reducible refine keep_seqExec KR Kr ?_ ?_
    | with_reducible refine keep_seqExcite KR Ka KF Kg Kc Kr ?_
    | intro _ _ h

theorem keep_execMark (KR : KeepRegs P) (Kr : KeepRgn P) {g : Fin 8} {s : State}
    (hP : P s) {u : State} (e : execMark g s = .next u) : P u := by
  unfold execMark at e
  refine keep_act hP ?_ e
  clear e
  repeat' first
    | with_reducible assumption
    | with_reducible refine keep_seqExec KR Kr ?_ ?_
    | with_reducible refine keep_seqEvent Kr ?_
    | with_reducible refine keep_seqDone KR Kr ?_
    | intro _ _ h

theorem keep_execJump (KR : KeepRegs P) (Kr : KeepRgn P) {g : Fin 8} {s : State}
    (hP : P s) {u : State} (e : execJump g s = .next u) : P u := by
  unfold execJump at e
  refine keep_act hP ?_ e
  clear e
  repeat' first
    | with_reducible assumption
    | with_reducible refine keep_seqExec KR Kr ?_ ?_
    | with_reducible refine keep_seqGoto KR Kr ?_
    | with_reducible refine Kr.setRg _ _ _ ?_
    | intro _ _ h
    | split
    | dsimp only

theorem keep_execWaitIdle (KR : KeepRegs P) (Kr : KeepRgn P) {g : Fin 8} {s : State}
    (hP : P s) {u : State} (e : execWaitIdle g s = .next u) : P u := by
  unfold execWaitIdle at e
  refine keep_act hP ?_ e
  clear e
  repeat' first
    | with_reducible assumption
    | with_reducible refine keep_seqExec KR Kr ?_ ?_
    | with_reducible refine keep_seqWaitDone KR Kr ?_
    | with_reducible refine keep_seqWait KR Kr ?_
    | intro _ _ h
    | split
    | dsimp only

theorem keep_execSeqInvalidEntry (KR : KeepRegs P) (Ka : KeepAct P) (KF : KeepFlt P) (Kg : KeepLog P) (Kr : KeepRgn P) {g : Fin 8} {s : State}
    (hP : P s) {u : State} (e : execSeqInvalidEntry g s = .next u) : P u := by
  unfold execSeqInvalidEntry at e
  refine keep_act hP ?_ e
  clear e
  extract_lets x0 x1 x2
  try clear_value x0
  have k1 : P x1 := by
    unfold x1
    repeat' first
      | with_reducible assumption
      | with_reducible refine keep_seqHalt KR Ka Kr ?_
  try clear_value x1
  have k2 : P x2 := by
    unfold x2
    repeat' first
      | with_reducible assumption
      | with_reducible refine keep_setFlag KR ?_
      | with_reducible refine keep_setFld KR ?_
  try clear_value x2
  repeat' first
    | with_reducible assumption
    | with_reducible refine keep_raise KR KF Kg ?_
    | with_reducible refine keep_seqEvent Kr ?_
    | split

theorem keep_execSeqDelayExpiry (Kr : KeepRgn P) {g : Fin 8} {s : State}
    (hP : P s) {u : State} (e : execSeqDelayExpiry g s = .next u) : P u := by
  unfold execSeqDelayExpiry at e
  refine keep_act hP ?_ e
  clear e
  extract_lets x0
  try clear_value x0
  repeat' first
    | with_reducible assumption
    | with_reducible refine Kr.setRg _ _ _ ?_
    | split

theorem keep_seqStopped (KR : KeepRegs P) (Kr : KeepRgn P) {s : State} {g : Nat}
    (hP : P s)  : P (State.seqStopped s g) := by
  unfold State.seqStopped
  extract_lets x0
  try clear_value x0
  repeat' first
    | with_reducible assumption
    | with_reducible refine Kr.setRg _ _ _ ?_
    | with_reducible refine keep_seqStand KR ?_
    | split

theorem keep_seqEdge (KR : KeepRegs P) (Kr : KeepRgn P) {s : State} {g : Nat} {lt : Nat}
    (hP : P s)  : P (State.seqEdge s g lt) := by
  unfold State.seqEdge
  extract_lets x0 x1 x2 x3 x4 x5
  try clear_value x0
  try clear_value x1
  have k2 : P x2 := by
    unfold x2
    repeat' first
      | with_reducible assumption
      | with_reducible refine Kr.setRg _ _ _ ?_
  try clear_value x2
  have k3 : P x3 := by
    unfold x3
    repeat' first
      | with_reducible assumption
      | with_reducible refine keep_seqStopped KR Kr ?_
  try clear_value x3
  try clear_value x4
  have k5 : P x5 := by
    unfold x5
    repeat' first
      | with_reducible assumption
      | with_reducible refine Kr.setRg _ _ _ ?_
  try clear_value x5
  repeat' first
    | with_reducible assumption
    | with_reducible refine keep_setFld KR ?_
    | with_reducible refine keep_setSeqState KR ?_
    | split

theorem keep_seqRun (KR : KeepRegs P) (Ka : KeepAct P) (Kr : KeepRgn P) {s : State} {g : Nat} {v : Word}
    (hP : P s)  : P (State.seqRun s g v) := by
  unfold State.seqRun
  extract_lets x0 x1 x2 x3
  try clear_value x0
  try clear_value x1
  try clear_value x2
  have k3 : P x3 := by
    unfold x3
    repeat' first
      | with_reducible assumption
      | with_reducible refine Ka.setAct _ _ _ ?_
  try clear_value x3
  repeat' first
    | with_reducible assumption
    | with_reducible refine Kr.setRg _ _ _ ?_
    | with_reducible refine keep_setFld KR ?_
    | with_reducible refine keep_seqStand KR ?_
    | split

end Sys2Proof.Machine
end

