-- ==== Sys2Proof/Laws/KeepWindow.lean ====
section
/-! SUPPORT. What the operations of Machine/Window.lean keep (see Laws/Keep.lean). -/
namespace Sys2Proof.Machine
variable {P : State → Prop}

theorem keep_convRan (Kv : KeepConv P) {s : State} {k : Nat} {wseq : Nat}
    (hP : P s)  : P (State.convRan s k wseq) := by
  unfold State.convRan
  extract_lets x0 x1
  try clear_value x0
  try clear_value x1
  repeat' first
    | with_reducible assumption
    | with_reducible refine Kv.setCv _ _ _ ?_

theorem keep_closeChan (KR : KeepRegs P) (Kv : KeepConv P) (Kh : KeepChan P) {s : State} {n : Nat} {openLt : Nat} {closeLt : Nat} {npk : Nat} {wseq : Nat} {obs : List ConvObs}
    (hP : P s)  : P (State.closeChan s n openLt closeLt npk wseq obs) := by
  unfold State.closeChan
  extract_lets x0 x1 x2 x3 x4 x5 x6 x7 x8 x9
  try clear_value x0
  try clear_value x1
  try clear_value x2
  try clear_value x3
  try clear_value x4
  have k5 : P x5 := by
    unfold x5
    repeat' first
      | with_reducible assumption
      | with_reducible refine Kh.setCh _ _ _ ?_
  try clear_value x5
  have k6 : P x6 := by
    unfold x6
    repeat' first
      | with_reducible assumption
      | with_reducible refine keep_convRan Kv ?_
      | (with_reducible refine keep_forEach ?_ ?_)
      | (intro s x hx)
  try clear_value x6
  try clear_value x7
  try clear_value x8
  try clear_value x9
  repeat' first
    | with_reducible assumption
    | with_reducible refine keep_setFlag KR ?_
    | split

theorem keep_feApply (KR : KeepRegs P) (Ka : KeepAct P) (KF : KeepFlt P) (Kg : KeepLog P) (Kc : KeepClu P) (Kh : KeepChan P) {s : State} {a : Nat} {v : Word}
    (hP : P s)  : P (State.feApply s a v) := by
  unfold State.feApply
  extract_lets x0 x1 x2 x3 x4 x5 x6
  try clear_value x0
  try clear_value x1
  have k2 : P x2 := by
    unfold x2
    repeat' first
      | with_reducible assumption
      | with_reducible refine Ka.setAct _ _ _ ?_
  try clear_value x2
  try clear_value x3
  have k4 : P x4 := by
    unfold x4
    repeat' first
      | with_reducible assumption
      | with_reducible refine keep_setFld KR ?_
  try clear_value x4
  have k5 : P x5 := by
    unfold x5
    repeat' first
      | with_reducible assumption
      | with_reducible refine keep_setFld KR ?_
  try clear_value x5
  have k6 : P x6 := by
    unfold x6
    repeat' first
      | with_reducible assumption
      | with_reducible refine keep_setFld KR ?_
  try clear_value x6
  repeat' first
    | with_reducible assumption
    | with_reducible refine keep_excWrite KR Ka KF Kg Kc ?_
    | with_reducible refine Ka.setAct _ _ _ ?_
    | with_reducible refine keep_setFlag KR ?_
    | with_reducible refine keep_evtWrite KR Ka KF Kg Kh ?_
    | split

theorem keep_feApplyAll (KR : KeepRegs P) (Ka : KeepAct P) (KF : KeepFlt P) (Kg : KeepLog P) (Kc : KeepClu P) (Kr : KeepRgn P) (Kh : KeepChan P) {s : State} {g : Nat} {run : Bool} {due : List (Nat × Word × Nat)}
    (hP : P s)  : P (State.feApplyAll s g run due) := by
  unfold State.feApplyAll
  extract_lets x0 x1 x2 x3 x4
  try clear_value x0
  have k1 : P x1 := by
    unfold x1
    repeat' first
      | with_reducible assumption
      | with_reducible refine keep_excOpen Kc ?_
      | (with_reducible refine keep_forEach ?_ ?_)
      | (intro s x hx)
      | split
  try clear_value x1
  try clear_value x2
  have k3 : P x3 := by
    unfold x3
    repeat' first
      | with_reducible assumption
      | with_reducible refine Kr.setRg _ _ _ ?_
  try clear_value x3
  have k4 : P x4 := by
    unfold x4
    repeat' first
      | with_reducible assumption
      | with_reducible refine keep_feApply KR Ka KF Kg Kc Kh ?_
      | (with_reducible refine keep_forEach ?_ ?_)
      | (intro s x hx)
  try clear_value x4
  repeat' first
    | with_reducible assumption
    | with_reducible refine keep_excResolve KR KF Kg Kc ?_
    | (with_reducible refine keep_forEach ?_ ?_)
    | (intro s x hx)

theorem keep_hltApply (Ka : KeepAct P) {s : State} {g : Nat}
    (hP : P s)  : P (State.hltApply s g) := by
  unfold State.hltApply
  repeat' first
    | with_reducible assumption
    | with_reducible refine Ka.setAct _ _ _ ?_
    | (with_reducible refine keep_forEach ?_ ?_)
    | (intro s x hx)

theorem keep_keepWindow (Kr : KeepRgn P) {s : State} {g : Nat} {wseq : Nat} {lt : Nat}
    (hP : P s)  : P (State.keepWindow s g wseq lt) := by
  unfold State.keepWindow
  extract_lets x0 x1 x2
  try clear_value x0
  try clear_value x1
  try clear_value x2
  repeat' first
    | with_reducible assumption
    | with_reducible refine Kr.setRg _ _ _ ?_
    | split

theorem keep_convEnds (KR : KeepRegs P) (Ka : KeepAct P) (Ko : KeepOut P) (KF : KeepFlt P) (KM : KeepMem P) (Kg : KeepLog P) (KS : KeepSpn P) (Kr : KeepRgn P) (Kh : KeepChan P) (Kb : KeepStr P) (Kp : KeepCap P) (Kk : KeepGaps P) (Kl : KeepLnk P) {s : State} {g : Nat} {lt : Nat}
    (hP : P s)  : P (State.convEnds s g lt) := by
  unfold State.convEnds
  extract_lets x0 x1 x2 x3 x4
  try clear_value x0
  try clear_value x1
  have k2 : P x2 := by
    unfold x2
    repeat' first
      | with_reducible assumption
      | with_reducible refine Kr.setRg _ _ _ ?_
  try clear_value x2
  have k3 : P x3 := by
    unfold x3
    repeat' first
      | with_reducible assumption
      | with_reducible refine keep_evtStop KR KF Kg Kh ?_
      | (with_reducible refine keep_forEach ?_ ?_)
      | (intro s x hx)
  try clear_value x3
  have k4 : P x4 := by
    unfold x4
    repeat' first
      | with_reducible assumption
      | with_reducible refine keep_steadyStop KR KF Kg Kr Kh ?_
      | with_reducible refine keep_seqStopped KR Kr ?_
  try clear_value x4
  repeat' first
    | with_reducible assumption
    | with_reducible refine keep_applyAllWaiting KR Ka Ko KF KM Kg KS Kh Kb Kp Kk Kl ?_
    | (with_reducible refine keep_forEach ?_ ?_)
    | (intro s x hx)

theorem keep_regionStopped (KR : KeepRegs P) (Ka : KeepAct P) (Ko : KeepOut P) (KF : KeepFlt P) (KM : KeepMem P) (Kg : KeepLog P) (KS : KeepSpn P) (Kc : KeepClu P) (Kr : KeepRgn P) (Kh : KeepChan P) (Kb : KeepStr P) (Kp : KeepCap P) (Kk : KeepGaps P) (Kl : KeepLnk P) {s : State} {g : Nat}
    (hP : P s)  : P (State.regionStopped s g) := by
  unfold State.regionStopped
  extract_lets x0 x1 x2 x3
  try clear_value x0
  have k1 : P x1 := by
    unfold x1
    repeat' first
      | with_reducible assumption
      | with_reducible refine Kr.setRg _ _ _ ?_
  try clear_value x1
  have k2 : P x2 := by
    unfold x2
    repeat' first
      | with_reducible assumption
      | with_reducible refine keep_setRgState KR ?_
  try clear_value x2
  have k3 : P x3 := by
    unfold x3
    repeat' first
      | with_reducible assumption
      | with_reducible refine keep_feApplyAll KR Ka KF Kg Kc Kr Kh ?_
  try clear_value x3
  repeat' first
    | with_reducible assumption
    | with_reducible refine keep_hltApply Ka ?_
    | with_reducible refine keep_convEnds KR Ka Ko KF KM Kg KS Kr Kh Kb Kp Kk Kl ?_

theorem keep_openWindow (KR : KeepRegs P) (Kr : KeepRgn P) {s : State} {g : Nat} {lt : Nat} {wseq : Nat}
    (hP : P s)  : P (State.openWindow s g lt wseq) := by
  unfold State.openWindow
  extract_lets x0 x1 x2 x3
  try clear_value x0
  have k1 : P x1 := by
    unfold x1
    repeat' first
      | with_reducible assumption
      | with_reducible refine KR.setReg _ _ _ ?_
  try clear_value x1
  try clear_value x2
  have k3 : P x3 := by
    unfold x3
    repeat' first
      | with_reducible assumption
      | with_reducible refine Kr.setRg _ _ _ ?_
  try clear_value x3
  repeat' first
    | with_reducible assumption
    | with_reducible refine keep_keepWindow Kr ?_

theorem keep_cluEdge (Kc : KeepClu P) {s : State} {c : Nat}
    (hP : P s)  : P (State.cluEdge s c) := by
  unfold State.cluEdge
  extract_lets x0 x1 x2
  have k0 : P x0 := by
    unfold x0
    repeat' first
      | with_reducible assumption
      | with_reducible refine keep_settleTick Kc ?_
  try clear_value x0
  try clear_value x1
  try clear_value x2
  repeat' first
    | with_reducible assumption
    | with_reducible refine Kc.setCl _ _ _ ?_
    | with_reducible refine keep_excOpen Kc ?_

theorem keep_openCleared (KR : KeepRegs P) (KF : KeepFlt P) (Kg : KeepLog P) (Kr : KeepRgn P) (Kh : KeepChan P) {s : State} {n : Nat}
    (hP : P s)  : P (State.openCleared s n) := by
  unfold State.openCleared
  repeat' first
    | with_reducible assumption
    | with_reducible refine keep_setFlag KR ?_
    | with_reducible refine keep_requestOp KR KF Kg Kr Kh ?_
    | split

theorem keep_execOpenWireCleared (KR : KeepRegs P) (KF : KeepFlt P) (Kg : KeepLog P) (Kr : KeepRgn P) (Kh : KeepChan P) {n : Fin 384} {s : State}
    (hP : P s) {u : State} (e : execOpenWireCleared n s = .next u) : P u := by
  unfold execOpenWireCleared at e
  refine keep_act hP ?_ e
  clear e
  repeat' first
    | with_reducible assumption
    | with_reducible refine keep_openCleared KR KF Kg Kr Kh ?_

theorem keep_openWire (KR : KeepRegs P) (Ko : KeepOut P) (KF : KeepFlt P) (KM : KeepMem P) (Kg : KeepLog P) (Kc : KeepClu P) (Kr : KeepRgn P) (Kh : KeepChan P) (Kb : KeepStr P) {s : State} {n : Nat} {e : Expect} {owd : Bool} {q : Nat}
    (hP : P s)  : P (State.openWire s n e owd q).1 := by
  unfold State.openWire
  extract_lets x0 x1 x2 x3 x4 x5 x6 x7 x8 x9 x10 x11 x12
  try clear_value x0
  have k1 : P x1 := by
    unfold x1
    repeat' first
      | with_reducible assumption
      | with_reducible refine keep_setFlag KR ?_
  try clear_value x1
  have k2 : P x2 := by
    unfold x2
    repeat' first
      | with_reducible assumption
      | with_reducible refine keep_openCleared KR KF Kg Kr Kh ?_
      | split
  try clear_value x2
  try clear_value x3
  try clear_value x4
  try clear_value x5
  try clear_value x6
  try clear_value x7
  try clear_value x8
  have k9 : P x9 := by
    unfold x9
    repeat' first
      | with_reducible assumption
      | with_reducible refine Kh.setCh _ _ _ ?_
  try clear_value x9
  have k10 : P x10 := by
    unfold x10
    repeat' first
      | with_reducible assumption
      | with_reducible refine keep_setFlag KR ?_
      | with_reducible refine keep_bump KR ?_
  try clear_value x10
  have k11 : P x11 := by
    unfold x11
    repeat' first
      | with_reducible assumption
      | with_reducible refine keep_setSt KR ?_
  try clear_value x11
  have k12 : P x12 := by
    unfold x12
    repeat' first
      | with_reducible assumption
      | with_reducible refine keep_setFlag KR ?_
      | with_reducible refine Kh.setCh _ _ _ ?_
  try clear_value x12
  repeat' first
    | with_reducible assumption
    | with_reducible refine Kh.setCh _ _ _ ?_
    | with_reducible refine keep_raise KR KF Kg ?_
    | with_reducible refine keep_impRecord KR Ko KF KM Kg Kb ?_
    | split

theorem keep_clearRecord (KR : KeepRegs P) (Ko : KeepOut P) (KF : KeepFlt P) (KM : KeepMem P) (Kg : KeepLog P) (Kh : KeepChan P) (Kb : KeepStr P) {s : State} {n : Nat} {q : Nat}
    (hP : P s)  : P (State.clearRecord s n q) := by
  unfold State.clearRecord
  extract_lets x0 x1
  try clear_value x0
  try clear_value x1
  repeat' first
    | with_reducible assumption
    | with_reducible refine Kh.setCh _ _ _ ?_
    | with_reducible refine keep_impRecord KR Ko KF KM Kg Kb ?_
    | split

theorem keep_deliver (KR : KeepRegs P) (Ka : KeepAct P) (Ko : KeepOut P) (KF : KeepFlt P) (Kg : KeepLog P) (KS : KeepSpn P) (Kh : KeepChan P) (Kp : KeepCap P) (Kk : KeepGaps P) (Kl : KeepLnk P) {s : State} {n : Nat} {e : Expect} {wide : Int} {q : Nat}
    (hP : P s)  : P (State.deliver s n e wide q) := by
  unfold State.deliver
  extract_lets x0
  try clear_value x0
  repeat' first
    | with_reducible assumption
    | with_reducible refine keep_asBefore KR Ka Ko KF Kg KS Kh Kp Kk Kl ?_ ?_
    | with_reducible refine keep_chainFeed KR Ko KF Kg KS Kh Kp Kk Kl ?_
    | intro _ h

theorem keep_noResult (KR : KeepRegs P) (Ka : KeepAct P) (Ko : KeepOut P) (KF : KeepFlt P) (Kg : KeepLog P) (KS : KeepSpn P) (Kh : KeepChan P) (Kp : KeepCap P) (Kk : KeepGaps P) (Kl : KeepLnk P) {s : State} {n : Nat}
    (hP : P s)  : P (State.noResult s n) := by
  unfold State.noResult
  extract_lets x0
  try clear_value x0
  repeat' first
    | with_reducible assumption
    | with_reducible refine Kh.setCh _ _ _ ?_
    | with_reducible refine keep_deliver KR Ka Ko KF Kg KS Kh Kp Kk Kl ?_
    | split

theorem keep_expire (KR : KeepRegs P) (Ka : KeepAct P) (Ko : KeepOut P) (KF : KeepFlt P) (Kg : KeepLog P) (KS : KeepSpn P) (Kh : KeepChan P) (Kp : KeepCap P) (Kk : KeepGaps P) (Kl : KeepLnk P) {s : State} {n : Nat}
    (hP : P s)  : P (State.expire s n) := by
  unfold State.expire
  repeat' first
    | with_reducible assumption
    | with_reducible refine keep_noResult KR Ka Ko KF Kg KS Kh Kp Kk Kl ?_
    | (with_reducible refine keep_forEach ?_ ?_)
    | (intro s x hx)
    | split

theorem keep_slotEdge (KR : KeepRegs P) (Ka : KeepAct P) (Ko : KeepOut P) (KF : KeepFlt P) (KM : KeepMem P) (Kg : KeepLog P) (KS : KeepSpn P) (Kh : KeepChan P) (Kb : KeepStr P) (Kp : KeepCap P) (Kk : KeepGaps P) (Kl : KeepLnk P) {s : State} {n : Nat} {t : Nat} {npk : Nat} {wseq : Nat}
    (hP : P s)  : P (State.slotEdge s n t npk wseq) := by
  unfold State.slotEdge
  repeat' first
    | with_reducible assumption
    | with_reducible refine keep_applyWaiting KR Ka Ko KF KM Kg KS Kh Kb Kp Kk Kl ?_
    | split

theorem keep_windowEdge (KR : KeepRegs P) (Ka : KeepAct P) (Ko : KeepOut P) (KF : KeepFlt P) (KM : KeepMem P) (Kg : KeepLog P) (KW : KeepPwr P) (KL : KeepTime P) (KS : KeepSpn P) (Kc : KeepClu P) (Kv : KeepConv P) (Kr : KeepRgn P) (Kh : KeepChan P) (Kb : KeepStr P) (Kp : KeepCap P) (Kk : KeepGaps P) (Kl : KeepLnk P) {s : State} {g : Nat} {obs : List ConvObs}
    (hP : P s)  : P (State.windowEdge s g obs) := by
  unfold State.windowEdge
  extract_lets x0 x1 x2 x3 x4 x5 x6 x7 x8 x9 x10 x11 x12 x13 x14 x15 x16 x17
  try clear_value x0
  try clear_value x1
  try clear_value x2
  try clear_value x3
  have k4 : P x4 := by
    unfold x4
    repeat' first
      | with_reducible assumption
      | with_reducible refine keep_moveTo KL ?_
      | with_reducible refine keep_settleTests KR KF Kg Kv Kr Kh ?_
  try clear_value x4
  have k5 : P x5 := by
    unfold x5
    repeat' first
      | with_reducible assumption
      | with_reducible refine keep_expire KR Ka Ko KF Kg KS Kh Kp Kk Kl ?_
      | (with_reducible refine keep_forEach ?_ ?_)
      | (intro s x hx)
      | split
  try clear_value x5
  try clear_value x6
  have k7 : P x7 := by
    unfold x7
    repeat' first
      | with_reducible assumption
      | with_reducible refine keep_closeChan KR Kv Kh ?_
      | (with_reducible refine keep_forEach ?_ ?_)
      | (intro s x hx)
  try clear_value x7
  have k8 : P x8 := by
    unfold x8
    repeat' first
      | with_reducible assumption
      | with_reducible refine keep_gather Kr ?_
  try clear_value x8
  have k9 : P x9 := by
    unfold x9
    repeat' first
      | with_reducible assumption
      | with_reducible refine keep_cluEdge Kc ?_
      | (with_reducible refine keep_forEach ?_ ?_)
      | (intro s x hx)
  try clear_value x9
  have k10 : P x10 := by
    unfold x10
    repeat' first
      | with_reducible assumption
      | with_reducible refine keep_gapWindow Kr ?_
  try clear_value x10
  try clear_value x11
  try clear_value x12
  have k13 : P x13 := by
    unfold x13
    repeat' first
      | with_reducible assumption
      | with_reducible refine keep_openWindow KR Kr ?_
  try clear_value x13
  have k14 : P x14 := by
    unfold x14
    repeat' first
      | with_reducible assumption
      | with_reducible refine keep_feApplyAll KR Ka KF Kg Kc Kr Kh ?_
  try clear_value x14
  have k15 : P x15 := by
    unfold x15
    repeat' first
      | with_reducible assumption
      | with_reducible refine keep_hltApply Ka ?_
  try clear_value x15
  have k16 : P x16 := by
    unfold x16
    repeat' first
      | with_reducible assumption
      | with_reducible refine keep_evtEdge KR Kh ?_
      | (with_reducible refine keep_forEach ?_ ?_)
      | (intro s x hx)
      | split
  try clear_value x16
  have k17 : P x17 := by
    unfold x17
    repeat' first
      | with_reducible assumption
      | with_reducible refine keep_slotEdge KR Ka Ko KF KM Kg KS Kh Kb Kp Kk Kl ?_
      | (with_reducible refine keep_forEach ?_ ?_)
      | (intro s x hx)
  try clear_value x17
  repeat' first
    | with_reducible assumption
    | with_reducible refine Kr.setRg _ _ _ ?_
    | with_reducible refine keep_keepWindow Kr ?_
    | with_reducible refine keep_regionStopped KR Ka Ko KF KM Kg KS Kc Kr Kh Kb Kp Kk Kl ?_
    | with_reducible refine keep_raiseGathered KR KF Kg Kr Kh ?_
    | with_reducible refine keep_steadyEdge KR KF Kg KW Kv Kr Kh ?_
    | with_reducible refine keep_seqEdge KR Kr ?_
    | split

theorem keep_execWindowEdge (KR : KeepRegs P) (Ka : KeepAct P) (Ko : KeepOut P) (KF : KeepFlt P) (KM : KeepMem P) (Kg : KeepLog P) (KW : KeepPwr P) (KL : KeepTime P) (KS : KeepSpn P) (Kc : KeepClu P) (Kv : KeepConv P) (Kr : KeepRgn P) (Kh : KeepChan P) (Kb : KeepStr P) (Kp : KeepCap P) (Kk : KeepGaps P) (Kl : KeepLnk P) {g : Fin 8} {obs : List ConvObs} {s : State}
    (hP : P s) {u : State} (e : execWindowEdge g obs s = .next u) : P u := by
  unfold execWindowEdge at e
  refine keep_act hP ?_ e
  clear e
  repeat' first
    | with_reducible assumption
    | with_reducible refine keep_windowEdge KR Ka Ko KF KM Kg KW KL KS Kc Kv Kr Kh Kb Kp Kk Kl ?_

theorem keep_execResultDeadline (KR : KeepRegs P) (Ka : KeepAct P) (Ko : KeepOut P) (KF : KeepFlt P) (Kg : KeepLog P) (KL : KeepTime P) (KS : KeepSpn P) (Kh : KeepChan P) (Kp : KeepCap P) (Kk : KeepGaps P) (Kl : KeepLnk P) {n : Fin 384} {s : State}
    (hP : P s) {u : State} (e : execResultDeadline n s = .next u) : P u := by
  unfold execResultDeadline at e
  refine keep_act hP ?_ e
  clear e
  extract_lets x0
  have k0 : P x0 := by
    unfold x0
    repeat' first
      | with_reducible assumption
      | with_reducible refine keep_noResult KR Ka Ko KF Kg KS Kh Kp Kk Kl ?_
      | (with_reducible refine keep_forEach ?_ ?_)
      | (intro s x hx)
      | split
  try clear_value x0
  repeat' first
    | with_reducible assumption
    | with_reducible refine keep_noResult KR Ka Ko KF Kg KS Kh Kp Kk Kl ?_
    | with_reducible refine keep_moveTo KL ?_
    | split

theorem keep_intake (KR : KeepRegs P) (Ka : KeepAct P) (Ko : KeepOut P) (KF : KeepFlt P) (KM : KeepMem P) (Kg : KeepLog P) (KS : KeepSpn P) (Kc : KeepClu P) (Kr : KeepRgn P) (Kh : KeepChan P) (Kb : KeepStr P) (Kp : KeepCap P) (Kk : KeepGaps P) (Kl : KeepLnk P) {s : State} {n : Nat} {e : Expect} {count : Int} {resid : Nat} {ovr : Bool} {owd : Bool}
    (hP : P s)  : P (State.intake s n e count resid ovr owd) := by
  unfold State.intake
  extract_lets x0 x1 x2 x3 x4 x5 x6
  try clear_value x0
  try clear_value x1
  try clear_value x2
  try clear_value x3
  try clear_value x4
  try clear_value x5
  have k6 : P x6.1 := by
    unfold x6
    repeat' first
      | with_reducible assumption
      | with_reducible refine keep_openWire KR Ko KF KM Kg Kc Kr Kh Kb ?_
  try clear_value x6
  repeat' first
    | with_reducible assumption
    | with_reducible refine keep_clearRecord KR Ko KF KM Kg Kh Kb ?_
    | with_reducible refine keep_deliver KR Ka Ko KF Kg KS Kh Kp Kk Kl ?_

theorem keep_outOfSequence (KR : KeepRegs P) (KF : KeepFlt P) (Kg : KeepLog P) (Kv : KeepConv P) {s : State} {k : Nat} {intb : Bool}
    (hP : P s)  : P (State.outOfSequence s k intb) := by
  unfold State.outOfSequence
  extract_lets x0
  try clear_value x0
  repeat' first
    | with_reducible assumption
    | with_reducible refine Kv.setCv _ _ _ ?_
    | with_reducible refine keep_raise KR KF Kg ?_

theorem keep_resultFor (KR : KeepRegs P) (Ka : KeepAct P) (Ko : KeepOut P) (KF : KeepFlt P) (KM : KeepMem P) (Kg : KeepLog P) (KS : KeepSpn P) (Kc : KeepClu P) (Kv : KeepConv P) (Kr : KeepRgn P) (Kh : KeepChan P) (Kb : KeepStr P) (Kp : KeepCap P) (Kk : KeepGaps P) (Kl : KeepLnk P) {s : State} {n : Nat} {k : Nat} {e : Expect} {payload : Nat}
    (hP : P s)  : P (State.resultFor s n k e payload) := by
  unfold State.resultFor
  extract_lets x0 x1 x2 x3 x4 x5 x6 x7 x8 x9 x10
  try clear_value x0
  try clear_value x1
  try clear_value x2
  try clear_value x3
  have k4 : P x4 := by
    unfold x4
    repeat' first
      | with_reducible assumption
      | with_reducible refine Kv.setCv _ _ _ ?_
  try clear_value x4
  try clear_value x5
  have k6 : P x6 := by
    unfold x6
    repeat' first
      | with_reducible assumption
      | with_reducible refine Kh.setCh _ _ _ ?_
  try clear_value x6
  try clear_value x7
  try clear_value x8
  have k9 : P x9 := by
    unfold x9
    repeat' first
      | with_reducible assumption
      | with_reducible refine KR.setReg _ _ _ ?_
  try clear_value x9
  have k10 : P x10 := by
    unfold x10
    repeat' first
      | with_reducible assumption
      | with_reducible refine KR.setReg _ _ _ ?_
  try clear_value x10
  repeat' first
    | with_reducible assumption
    | with_reducible refine keep_outOfSequence KR KF Kg Kv ?_
    | with_reducible refine keep_intake KR Ka Ko KF KM Kg KS Kc Kr Kh Kb Kp Kk Kl ?_
    | split

theorem keep_windowResult (KR : KeepRegs P) (Ka : KeepAct P) (Ko : KeepOut P) (KF : KeepFlt P) (KM : KeepMem P) (Kg : KeepLog P) (KS : KeepSpn P) (Kc : KeepClu P) (Kv : KeepConv P) (Kr : KeepRgn P) (Kh : KeepChan P) (Kb : KeepStr P) (Kp : KeepCap P) (Kk : KeepGaps P) (Kl : KeepLnk P) {s : State} {d : Nat} {payload : Nat}
    (hP : P s)  : P (State.windowResult s d payload) := by
  unfold State.windowResult
  extract_lets x0
  try clear_value x0
  repeat' first
    | with_reducible assumption
    | with_reducible refine keep_outOfSequence KR KF Kg Kv ?_
    | with_reducible refine keep_expire KR Ka Ko KF Kg KS Kh Kp Kk Kl ?_
    | with_reducible refine keep_resultFor KR Ka Ko KF KM Kg KS Kc Kv Kr Kh Kb Kp Kk Kl ?_
    | split
    | dsimp only

theorem keep_execWindowResult (KR : KeepRegs P) (Ka : KeepAct P) (Ko : KeepOut P) (KF : KeepFlt P) (KM : KeepMem P) (Kg : KeepLog P) (KS : KeepSpn P) (Kd : KeepDlk P) (Kc : KeepClu P) (Kv : KeepConv P) (Kr : KeepRgn P) (Kh : KeepChan P) (Kb : KeepStr P) (Kp : KeepCap P) (Kk : KeepGaps P) (Kl : KeepLnk P) {d : Fin 4} {w : DieBody} {s : State}
    (hP : P s) {u : State} (e : execWindowResult d w s = .next u) : P u := by
  unfold execWindowResult at e
  refine keep_act hP ?_ e
  clear e
  repeat' first
    | with_reducible assumption
    | with_reducible refine keep_settleTests KR KF Kg Kv Kr Kh ?_
    | with_reducible refine keep_dieReceive KR Ko KF Kg Kd ?_ ?_
    | with_reducible refine keep_windowResult KR Ka Ko KF KM Kg KS Kc Kv Kr Kh Kb Kp Kk Kl ?_
    | intro _ h

end Sys2Proof.Machine
end

