-- ==== Sys2Proof/Laws/KeepConverter.lean ====
section
/-! SUPPORT. What the operations of Machine/Converter.lean keep (see Laws/Keep.lean). -/
namespace Sys2Proof.Machine
variable {P : State → Prop}

theorem keep_refuseStart (KR : KeepRegs P) (KF : KeepFlt P) (Kg : KeepLog P) {s : State} {g : Nat} {cause : Nat}
    (hP : P s)  : P (State.refuseStart s g cause) := by
  unfold State.refuseStart
  extract_lets x0
  have k0 : P x0 := by
    unfold x0
    repeat' first
      | with_reducible assumption
      | with_reducible refine keep_bump KR ?_
  try clear_value x0
  repeat' first
    | with_reducible assumption
    | with_reducible refine keep_setFld KR ?_
    | with_reducible refine keep_raise KR KF Kg ?_

theorem keep_checkStart (KR : KeepRegs P) (KF : KeepFlt P) (Kg : KeepLog P) (Kr : KeepRgn P) {s : State} {g : Nat}
    (hP : P s)  : P (State.checkStart s g) := by
  unfold State.checkStart
  extract_lets x0 x1 x2 x3 x4
  try clear_value x0
  have k1 : P x1 := by
    unfold x1
    repeat' first
      | with_reducible assumption
      | with_reducible refine Kr.setRg _ _ _ ?_
  try clear_value x1
  try clear_value x2
  try clear_value x3
  try clear_value x4
  repeat' first
    | with_reducible assumption
    | with_reducible refine Kr.setRg _ _ _ ?_
    | with_reducible refine keep_refuseStart KR KF Kg ?_
    | with_reducible refine keep_setRgState KR ?_
    | split

theorem keep_regionStart (KR : KeepRegs P) (KF : KeepFlt P) (Kg : KeepLog P) (Kr : KeepRgn P) {s : State} {g : Nat}
    (hP : P s)  : P (State.regionStart s g) := by
  unfold State.regionStart
  extract_lets x0
  try clear_value x0
  repeat' first
    | with_reducible assumption
    | with_reducible refine Kr.setRg _ _ _ ?_
    | with_reducible refine keep_checkStart KR KF Kg Kr ?_
    | split

theorem keep_regionStop (KR : KeepRegs P) (Ka : KeepAct P) (Ko : KeepOut P) (KF : KeepFlt P) (KM : KeepMem P) (Kg : KeepLog P) (KS : KeepSpn P) (Kc : KeepClu P) (Kr : KeepRgn P) (Kh : KeepChan P) (Kb : KeepStr P) (Kp : KeepCap P) (Kk : KeepGaps P) (Kl : KeepLnk P) {s : State} {g : Nat}
    (hP : P s)  : P (State.regionStop s g) := by
  unfold State.regionStop
  extract_lets x0 x1 x2 x3
  try clear_value x0
  try clear_value x1
  have k2 : P x2 := by
    unfold x2
    repeat' first
      | with_reducible assumption
      | with_reducible refine Kr.setRg _ _ _ ?_
  try clear_value x2
  try clear_value x3
  repeat' first
    | with_reducible assumption
    | with_reducible refine Kr.setRg _ _ _ ?_
    | with_reducible refine keep_setRgState KR ?_
    | with_reducible refine keep_lossOff KR Ko KF KM Kg Kb ?_
    | with_reducible refine keep_regionStopped KR Ka Ko KF KM Kg KS Kc Kr Kh Kb Kp Kk Kl ?_
    | split

theorem keep_rgnCtrlAct (KR : KeepRegs P) (Ka : KeepAct P) (Ko : KeepOut P) (KF : KeepFlt P) (KM : KeepMem P) (Kg : KeepLog P) (KS : KeepSpn P) (Kc : KeepClu P) (Kr : KeepRgn P) (Kh : KeepChan P) (Kb : KeepStr P) (Kp : KeepCap P) (Kk : KeepGaps P) (Kl : KeepLnk P) {s : State} {g : Nat} {v : Word}
    (hP : P s)  : P (State.rgnCtrlAct s g v) := by
  unfold State.rgnCtrlAct
  repeat' first
    | with_reducible assumption
    | with_reducible refine keep_regionStop KR Ka Ko KF KM Kg KS Kc Kr Kh Kb Kp Kk Kl ?_
    | with_reducible refine keep_regionStart KR KF Kg Kr ?_
    | split

theorem keep_execStartAfterStep (KR : KeepRegs P) (KF : KeepFlt P) (Kg : KeepLog P) (KL : KeepTime P) (Kr : KeepRgn P) {g : Fin 8} {s : State}
    (hP : P s) {u : State} (e : execStartAfterStep g s = .next u) : P u := by
  unfold execStartAfterStep at e
  refine keep_act hP ?_ e
  clear e
  repeat' first
    | with_reducible assumption
    | with_reducible refine keep_moveTo KL ?_
    | with_reducible refine keep_checkStart KR KF Kg Kr ?_
    | split

theorem keep_startRegion (KR : KeepRegs P) (Ka : KeepAct P) (Ko : KeepOut P) (KF : KeepFlt P) (KM : KeepMem P) (Kg : KeepLog P) (KW : KeepPwr P) (KL : KeepTime P) (KS : KeepSpn P) (Kc : KeepClu P) (Kv : KeepConv P) (Kr : KeepRgn P) (Kh : KeepChan P) (Kb : KeepStr P) (Kp : KeepCap P) (Kk : KeepGaps P) (Kl : KeepLnk P) {s : State} {g : Nat} {t : Nat}
    (hP : P s)  : P (State.startRegion s g t) := by
  unfold State.startRegion
  extract_lets x0 x1 x2 x3 x4 x5 x6 x7 x8 x9 x10 x11 x12
  have k0 : P x0 := by
    unfold x0
    repeat' first
      | with_reducible assumption
      | with_reducible refine keep_moveTo KL ?_
  try clear_value x0
  have k1 : P x1 := by
    unfold x1
    repeat' first
      | with_reducible assumption
      | with_reducible refine keep_expire KR Ka Ko KF Kg KS Kh Kp Kk Kl ?_
      | with_reducible refine keep_chainStart KR Ko KF Kg KS Kh Kp Kk Kl ?_
      | (with_reducible refine keep_forEach ?_ ?_)
      | (intro s x hx)
  try clear_value x1
  try clear_value x2
  try clear_value x3
  have k4 : P x4 := by
    unfold x4
    repeat' first
      | with_reducible assumption
      | with_reducible refine Kr.setRg _ _ _ ?_
  try clear_value x4
  have k5 : P x5 := by
    unfold x5
    repeat' first
      | with_reducible assumption
      | with_reducible refine keep_setRgState KR ?_
  try clear_value x5
  have k6 : P x6 := by
    unfold x6
    repeat' first
      | with_reducible assumption
      | with_reducible refine Kv.setCv _ _ _ ?_
      | (with_reducible refine keep_forEach ?_ ?_)
      | (intro s x hx)
  try clear_value x6
  have k7 : P x7 := by
    unfold x7
    repeat' first
      | with_reducible assumption
      | with_reducible refine keep_capRegionConflict KR KF Kg Kp ?_
      | with_reducible refine keep_openWindow KR Kr ?_
  try clear_value x7
  have k8 : P x8 := by
    unfold x8
    repeat' first
      | with_reducible assumption
      | with_reducible refine keep_excStart Kc ?_
      | (with_reducible refine keep_forEach ?_ ?_)
      | (intro s x hx)
  try clear_value x8
  have k9 : P x9 := by
    unfold x9
    repeat' first
      | with_reducible assumption
      | with_reducible refine keep_feApplyAll KR Ka KF Kg Kc Kr Kh ?_
  try clear_value x9
  have k10 : P x10 := by
    unfold x10
    repeat' first
      | with_reducible assumption
      | with_reducible refine keep_hltApply Ka ?_
  try clear_value x10
  have k11 : P x11 := by
    unfold x11
    repeat' first
      | with_reducible assumption
      | with_reducible refine keep_evtStart KR KF Kg Kh ?_
      | (with_reducible refine keep_forEach ?_ ?_)
      | (intro s x hx)
  try clear_value x11
  have k12 : P x12 := by
    unfold x12
    repeat' first
      | with_reducible assumption
      | with_reducible refine keep_slotEdge KR Ka Ko KF KM Kg KS Kh Kb Kp Kk Kl ?_
      | (with_reducible refine keep_forEach ?_ ?_)
      | (intro s x hx)
  try clear_value x12
  repeat' first
    | with_reducible assumption
    | with_reducible refine keep_gather Kr ?_
    | with_reducible refine keep_steadyStart KR KF Kg KW Kv Kr Kh ?_
    | with_reducible refine keep_dispatch KR KF Kg Kr Kh ?_
    | with_reducible refine keep_seqEdge KR Kr ?_
    | with_reducible refine keep_raiseGathered KR KF Kg Kr Kh ?_

theorem keep_execRegionStartPoint (KR : KeepRegs P) (Ka : KeepAct P) (Ko : KeepOut P) (KF : KeepFlt P) (KM : KeepMem P) (Kg : KeepLog P) (KW : KeepPwr P) (KL : KeepTime P) (KS : KeepSpn P) (Kc : KeepClu P) (Kv : KeepConv P) (Kr : KeepRgn P) (Kh : KeepChan P) (Kb : KeepStr P) (Kp : KeepCap P) (Kk : KeepGaps P) (Kl : KeepLnk P) {g : Fin 8} {s : State}
    (hP : P s) {u : State} (e : execRegionStartPoint g s = .next u) : P u := by
  unfold execRegionStartPoint at e
  refine keep_act hP ?_ e
  clear e
  extract_lets x0
  try clear_value x0
  repeat' first
    | with_reducible assumption
    | with_reducible refine keep_startRegion KR Ka Ko KF KM Kg KW KL KS Kc Kv Kr Kh Kb Kp Kk Kl ?_
    | split

theorem keep_showMains (KR : KeepRegs P) {s : State}
    (hP : P s)  : P (State.showMains s) := by
  unfold State.showMains
  extract_lets x0
  try clear_value x0
  repeat' first
    | with_reducible assumption
    | with_reducible refine KR.setReg _ _ _ ?_
    | (with_reducible refine keep_forEach ?_ ?_)
    | (intro s x hx)

theorem keep_execMainsEdge (KR : KeepRegs P) (Km : KeepMains P) {ph : Phase} {s : State}
    (hP : P s) {u : State} (e : execMainsEdge ph s = .next u) : P u := by
  unfold execMainsEdge at e
  refine keep_act hP ?_ e
  clear e
  extract_lets x0 x1
  try clear_value x0
  try clear_value x1
  repeat' first
    | with_reducible assumption
    | with_reducible refine keep_showMains KR ?_
    | split
    | dsimp only
    | with_reducible refine Km.mains _ _ ?_

theorem keep_execMainsHold (KR : KeepRegs P) (KF : KeepFlt P) (Kg : KeepLog P) (KL : KeepTime P) (Km : KeepMains P) {s : State}
    (hP : P s) {u : State} (e : execMainsHold s = .next u) : P u := by
  unfold execMainsHold at e
  refine keep_act hP ?_ e
  clear e
  extract_lets x0
  try clear_value x0
  repeat' first
    | with_reducible assumption
    | with_reducible refine keep_moveTo KL ?_
    | with_reducible refine keep_setLine KR KF Kg ?_
    | split
    | with_reducible refine Km.mains _ _ ?_

theorem keep_execMainsHoldEnd (KR : KeepRegs P) (KF : KeepFlt P) (Kg : KeepLog P) (Km : KeepMains P) {s : State}
    (hP : P s) {u : State} (e : execMainsHoldEnd s = .next u) : P u := by
  unfold execMainsHoldEnd at e
  refine keep_act hP ?_ e
  clear e
  extract_lets x0
  try clear_value x0
  repeat' first
    | with_reducible assumption
    | with_reducible refine keep_setLine KR KF Kg ?_
    | with_reducible refine keep_showMains KR ?_
    | split
    | with_reducible refine Km.mains _ _ ?_

theorem keep_feArrive (KR : KeepRegs P) (Ka : KeepAct P) (Ko : KeepOut P) (KF : KeepFlt P) (KM : KeepMem P) (Kg : KeepLog P) (KS : KeepSpn P) (Kc : KeepClu P) (Kr : KeepRgn P) (Kh : KeepChan P) (Kb : KeepStr P) (Kp : KeepCap P) (Kk : KeepGaps P) (Kl : KeepLnk P) {s : State} {a : Nat} {v : Word}
    (hP : P s)  : P (State.feArrive s a v) := by
  unfold State.feArrive
  extract_lets x0 x1 x2 x3
  try clear_value x0
  try clear_value x1
  try clear_value x2
  have k3 : P x3 := by
    unfold x3
    repeat' first
      | with_reducible assumption
      | with_reducible refine Kr.setRg _ _ _ ?_
  try clear_value x3
  repeat' first
    | with_reducible assumption
    | with_reducible refine keep_rgnCtrlAct KR Ka Ko KF KM Kg KS Kc Kr Kh Kb Kp Kk Kl ?_
    | with_reducible refine keep_seqRun KR Ka Kr ?_
    | with_reducible refine keep_sprRequests KR KF Kg Kr Kh ?_
    | with_reducible refine keep_feApplyAll KR Ka KF Kg Kc Kr Kh ?_
    | with_reducible refine KR.setReg _ _ _ ?_
    | with_reducible refine Ka.setAct _ _ _ ?_
    | split

theorem keep_feFlush (KR : KeepRegs P) (Ka : KeepAct P) (Ko : KeepOut P) (KF : KeepFlt P) (KM : KeepMem P) (Kg : KeepLog P) (KS : KeepSpn P) (Kd : KeepDlk P) (Kc : KeepClu P) (Kr : KeepRgn P) (Kh : KeepChan P) (Kb : KeepStr P) (Kp : KeepCap P) (Kk : KeepGaps P) (Kl : KeepLnk P) {s : State} {d : Nat}
    (hP : P s)  : P (State.feFlush s d) := by
  unfold State.feFlush
  extract_lets x0
  try clear_value x0
  repeat' first
    | with_reducible assumption
    | with_reducible refine Kd.setDl _ _ _ ?_
    | with_reducible refine keep_feArrive KR Ka Ko KF KM Kg KS Kc Kr Kh Kb Kp Kk Kl ?_
    | (with_reducible refine keep_forEach ?_ ?_)
    | (intro s x hx)

theorem keep_execFeRegisterWriteArrival (KR : KeepRegs P) (Ka : KeepAct P) (Ko : KeepOut P) (KF : KeepFlt P) (KM : KeepMem P) (Kg : KeepLog P) (KS : KeepSpn P) (Kd : KeepDlk P) (Kc : KeepClu P) (Kr : KeepRgn P) (Kh : KeepChan P) (Kb : KeepStr P) (Kp : KeepCap P) (Kk : KeepGaps P) (Kl : KeepLnk P) {d : Fin 4} {s : State}
    (hP : P s) {u : State} (e : execFeRegisterWriteArrival d s = .next u) : P u := by
  unfold execFeRegisterWriteArrival at e
  refine keep_act hP ?_ e
  clear e
  extract_lets x0
  try clear_value x0
  repeat' first
    | with_reducible assumption
    | with_reducible refine Kd.setDl _ _ _ ?_
    | with_reducible refine keep_feArrive KR Ka Ko KF KM Kg KS Kc Kr Kh Kb Kp Kk Kl ?_
    | split

theorem keep_feTake (KR : KeepRegs P) (Kd : KeepDlk P) (Kr : KeepRgn P) {s : State} {a : Nat} {flds : List Fld} {v : Word}
    (hP : P s)  : P (State.feTake s a flds v) := by
  unfold State.feTake
  extract_lets x0 x1 x2 x3 x4 x5 x6 x7
  try clear_value x0
  try clear_value x1
  try clear_value x2
  have k3 : P x3 := by
    unfold x3
    repeat' first
      | with_reducible assumption
      | with_reducible refine keep_noteIgnored KR ?_
      | split
  try clear_value x3
  try clear_value x4
  try clear_value x5
  have k6 : P x6 := by
    unfold x6
    repeat' first
      | with_reducible assumption
      | with_reducible refine Kd.setDl _ _ _ ?_
      | split
  try clear_value x6
  have k7 : P x7 := by
    unfold x7
    repeat' first
      | with_reducible assumption
      | with_reducible refine KR.setReg _ _ _ ?_
  try clear_value x7
  repeat' first
    | with_reducible assumption
    | with_reducible refine keep_setFlag KR ?_
    | with_reducible refine keep_autoRetime Kr ?_
    | split

theorem keep_writeFeAll (KR : KeepRegs P) (Ko : KeepOut P) (Kd : KeepDlk P) (Kr : KeepRgn P) {s : State} {ws : List (Nat × List Fld × Word)}
    (hP : P s)  : P (State.writeFeAll s ws) := by
  unfold State.writeFeAll
  repeat' first
    | with_reducible assumption
    | with_reducible refine keep_feWrites KR Ko Kd ?_
    | with_reducible refine keep_feTake KR Kd Kr ?_
    | (with_reducible refine keep_forEach ?_ ?_)
    | (intro s x hx)
    | split
    | dsimp only

theorem keep_writeFe (KR : KeepRegs P) (Ko : KeepOut P) (Kd : KeepDlk P) (Kr : KeepRgn P) {s : State} {a : Nat} {flds : List Fld} {v : Word}
    (hP : P s)  : P (State.writeFe s a flds v) := by
  unfold State.writeFe
  repeat' first
    | with_reducible assumption
    | with_reducible refine keep_writeFeAll KR Ko Kd Kr ?_

theorem keep_writeFeNow (KR : KeepRegs P) (Ka : KeepAct P) (Ko : KeepOut P) (KF : KeepFlt P) (KM : KeepMem P) (Kg : KeepLog P) (KS : KeepSpn P) (Kd : KeepDlk P) (Kc : KeepClu P) (Kr : KeepRgn P) (Kh : KeepChan P) (Kb : KeepStr P) (Kp : KeepCap P) (Kk : KeepGaps P) (Kl : KeepLnk P) {s : State} {a : Nat} {flds : List Fld} {v : Word}
    (hP : P s)  : P (State.writeFeNow s a flds v) := by
  unfold State.writeFeNow
  extract_lets x0 x1
  have k0 : P x0 := by
    unfold x0
    repeat' first
      | with_reducible assumption
      | with_reducible refine keep_writeFe KR Ko Kd Kr ?_
  try clear_value x0
  try clear_value x1
  repeat' first
    | with_reducible assumption
    | with_reducible refine keep_feFlush KR Ka Ko KF KM Kg KS Kd Kc Kr Kh Kb Kp Kk Kl ?_
    | split

theorem keep_writeRgnCtrl (KR : KeepRegs P) (Ka : KeepAct P) (Ko : KeepOut P) (KF : KeepFlt P) (KM : KeepMem P) (Kg : KeepLog P) (KS : KeepSpn P) (Kd : KeepDlk P) (Kc : KeepClu P) (Kr : KeepRgn P) (Kh : KeepChan P) (Kb : KeepStr P) (Kp : KeepCap P) (Kk : KeepGaps P) (Kl : KeepLnk P) {s : State} {g : Nat} {v : Word}
    (hP : P s)  : P (State.writeRgnCtrl s g v) := by
  unfold State.writeRgnCtrl
  repeat' first
    | with_reducible assumption
    | with_reducible refine keep_writeFeNow KR Ka Ko KF KM Kg KS Kd Kc Kr Kh Kb Kp Kk Kl ?_
    | with_reducible refine keep_writeFlds KR ?_
    | with_reducible refine keep_rgnCtrlAct KR Ka Ko KF KM Kg KS Kc Kr Kh Kb Kp Kk Kl ?_
    | split

theorem keep_execRgnCtrlStart (KR : KeepRegs P) (Ka : KeepAct P) (Ko : KeepOut P) (KF : KeepFlt P) (KM : KeepMem P) (Kg : KeepLog P) (KS : KeepSpn P) (Kd : KeepDlk P) (Kc : KeepClu P) (Kr : KeepRgn P) (Kh : KeepChan P) (Kb : KeepStr P) (Kp : KeepCap P) (Kk : KeepGaps P) (Kl : KeepLnk P) {g : Fin 8} {v : Word} {s : State}
    (hP : P s) {u : State} (e : execRgnCtrlStart g v s = .next u) : P u := by
  unfold execRgnCtrlStart at e
  refine keep_act hP ?_ e
  clear e
  repeat' first
    | with_reducible assumption
    | with_reducible refine keep_writeRgnCtrl KR Ka Ko KF KM Kg KS Kd Kc Kr Kh Kb Kp Kk Kl ?_

theorem keep_execRgnCtrlStop (KR : KeepRegs P) (Ka : KeepAct P) (Ko : KeepOut P) (KF : KeepFlt P) (KM : KeepMem P) (Kg : KeepLog P) (KS : KeepSpn P) (Kd : KeepDlk P) (Kc : KeepClu P) (Kr : KeepRgn P) (Kh : KeepChan P) (Kb : KeepStr P) (Kp : KeepCap P) (Kk : KeepGaps P) (Kl : KeepLnk P) {g : Fin 8} {v : Word} {s : State}
    (hP : P s) {u : State} (e : execRgnCtrlStop g v s = .next u) : P u := by
  unfold execRgnCtrlStop at e
  refine keep_act hP ?_ e
  clear e
  repeat' first
    | with_reducible assumption
    | with_reducible refine keep_writeRgnCtrl KR Ka Ko KF KM Kg KS Kd Kc Kr Kh Kb Kp Kk Kl ?_

theorem keep_writeSeqCtrl (KR : KeepRegs P) (Ka : KeepAct P) (Ko : KeepOut P) (KF : KeepFlt P) (KM : KeepMem P) (Kg : KeepLog P) (KS : KeepSpn P) (Kd : KeepDlk P) (Kc : KeepClu P) (Kr : KeepRgn P) (Kh : KeepChan P) (Kb : KeepStr P) (Kp : KeepCap P) (Kk : KeepGaps P) (Kl : KeepLnk P) {s : State} {g : Nat} {v : Word}
    (hP : P s)  : P (State.writeSeqCtrl s g v) := by
  unfold State.writeSeqCtrl
  repeat' first
    | with_reducible assumption
    | with_reducible refine keep_writeFeNow KR Ka Ko KF KM Kg KS Kd Kc Kr Kh Kb Kp Kk Kl ?_

theorem keep_execRgnSeqRunSet (KR : KeepRegs P) (Ka : KeepAct P) (Ko : KeepOut P) (KF : KeepFlt P) (KM : KeepMem P) (Kg : KeepLog P) (KS : KeepSpn P) (Kd : KeepDlk P) (Kc : KeepClu P) (Kr : KeepRgn P) (Kh : KeepChan P) (Kb : KeepStr P) (Kp : KeepCap P) (Kk : KeepGaps P) (Kl : KeepLnk P) {g : Fin 8} {v : Word} {s : State}
    (hP : P s) {u : State} (e : execRgnSeqRunSet g v s = .next u) : P u := by
  unfold execRgnSeqRunSet at e
  refine keep_act hP ?_ e
  clear e
  repeat' first
    | with_reducible assumption
    | with_reducible refine keep_writeSeqCtrl KR Ka Ko KF KM Kg KS Kd Kc Kr Kh Kb Kp Kk Kl ?_

theorem keep_execRgnSeqRunClear (KR : KeepRegs P) (Ka : KeepAct P) (Ko : KeepOut P) (KF : KeepFlt P) (KM : KeepMem P) (Kg : KeepLog P) (KS : KeepSpn P) (Kd : KeepDlk P) (Kc : KeepClu P) (Kr : KeepRgn P) (Kh : KeepChan P) (Kb : KeepStr P) (Kp : KeepCap P) (Kk : KeepGaps P) (Kl : KeepLnk P) {g : Fin 8} {v : Word} {s : State}
    (hP : P s) {u : State} (e : execRgnSeqRunClear g v s = .next u) : P u := by
  unfold execRgnSeqRunClear at e
  refine keep_act hP ?_ e
  clear e
  repeat' first
    | with_reducible assumption
    | with_reducible refine keep_writeSeqCtrl KR Ka Ko KF KM Kg KS Kd Kc Kr Kh Kb Kp Kk Kl ?_

theorem keep_writeSprCtrl (KR : KeepRegs P) (Ka : KeepAct P) (Ko : KeepOut P) (KF : KeepFlt P) (KM : KeepMem P) (Kg : KeepLog P) (KS : KeepSpn P) (Kd : KeepDlk P) (Kc : KeepClu P) (Kr : KeepRgn P) (Kh : KeepChan P) (Kb : KeepStr P) (Kp : KeepCap P) (Kk : KeepGaps P) (Kl : KeepLnk P) {s : State} {c : Nat} {v : Word}
    (hP : P s)  : P (State.writeSprCtrl s c v) := by
  unfold State.writeSprCtrl
  repeat' first
    | with_reducible assumption
    | with_reducible refine keep_writeFeNow KR Ka Ko KF KM Kg KS Kd Kc Kr Kh Kb Kp Kk Kl ?_

theorem keep_execSprCtrlCalReq (KR : KeepRegs P) (Ka : KeepAct P) (Ko : KeepOut P) (KF : KeepFlt P) (KM : KeepMem P) (Kg : KeepLog P) (KS : KeepSpn P) (Kd : KeepDlk P) (Kc : KeepClu P) (Kr : KeepRgn P) (Kh : KeepChan P) (Kb : KeepStr P) (Kp : KeepCap P) (Kk : KeepGaps P) (Kl : KeepLnk P) {c : Fin 48} {v : Word} {s : State}
    (hP : P s) {u : State} (e : execSprCtrlCalReq c v s = .next u) : P u := by
  unfold execSprCtrlCalReq at e
  refine keep_act hP ?_ e
  clear e
  repeat' first
    | with_reducible assumption
    | with_reducible refine keep_writeSprCtrl KR Ka Ko KF KM Kg KS Kd Kc Kr Kh Kb Kp Kk Kl ?_

theorem keep_execSprCtrlRetest (KR : KeepRegs P) (Ka : KeepAct P) (Ko : KeepOut P) (KF : KeepFlt P) (KM : KeepMem P) (Kg : KeepLog P) (KS : KeepSpn P) (Kd : KeepDlk P) (Kc : KeepClu P) (Kr : KeepRgn P) (Kh : KeepChan P) (Kb : KeepStr P) (Kp : KeepCap P) (Kk : KeepGaps P) (Kl : KeepLnk P) {c : Fin 48} {v : Word} {s : State}
    (hP : P s) {u : State} (e : execSprCtrlRetest c v s = .next u) : P u := by
  unfold execSprCtrlRetest at e
  refine keep_act hP ?_ e
  clear e
  repeat' first
    | with_reducible assumption
    | with_reducible refine keep_writeSprCtrl KR Ka Ko KF KM Kg KS Kd Kc Kr Kh Kb Kp Kk Kl ?_

theorem keep_execCluExcCtrlClrShut (KR : KeepRegs P) (Ko : KeepOut P) (Kd : KeepDlk P) (Kr : KeepRgn P) {c : Fin 48} {v : Word} {s : State}
    (hP : P s) {u : State} (e : execCluExcCtrlClrShut c v s = .next u) : P u := by
  unfold execCluExcCtrlClrShut at e
  refine keep_act hP ?_ e
  clear e
  repeat' first
    | with_reducible assumption
    | with_reducible refine keep_writeFe KR Ko Kd Kr ?_

end Sys2Proof.Machine
end

