-- ==== Sys2Proof/Laws/KeepDieEvents.lean ====
section
/-! SUPPORT. What the operations of Machine/DieEvents.lean keep (see Laws/Keep.lean). -/
namespace Sys2Proof.Machine
variable {P : State → Prop}

theorem keep_takeVerdicts (KR : KeepRegs P) (KF : KeepFlt P) (Kg : KeepLog P) (Kv : KeepConv P) (Kr : KeepRgn P) (Kh : KeepChan P) (Ke : KeepGge P) {s : State}
    (hP : P s)  : P (State.takeVerdicts s) := by
  unfold State.takeVerdicts
  repeat' first
    | with_reducible assumption
    | with_reducible refine keep_settleTests KR KF Kg Kv Kr Kh ?_
    | with_reducible refine keep_ggeSync KR KF Kg Ke ?_

theorem keep_event (KR : KeepRegs P) (KF : KeepFlt P) (Kg : KeepLog P) (Kv : KeepConv P) (Kr : KeepRgn P) (Kh : KeepChan P) (Ke : KeepGge P) {s : State} {src : Nat} {inst : Nat} {detail : Nat}
    (hP : P s)  : P (State.event s src inst detail) := by
  unfold State.event
  repeat' first
    | with_reducible assumption
    | with_reducible refine keep_raiseD KR KF Kg ?_
    | with_reducible refine keep_takeVerdicts KR KF Kg Kv Kr Kh Ke ?_

theorem keep_execDieLinkDown (KR : KeepRegs P) (KF : KeepFlt P) (Kg : KeepLog P) (Kd : KeepDlk P) (Kv : KeepConv P) (Kr : KeepRgn P) (Kh : KeepChan P) (Ke : KeepGge P) {d : Fin 4} {s : State}
    (hP : P s) {u : State} (e : execDieLinkDown d s = .next u) : P u := by
  unfold execDieLinkDown at e
  refine keep_act hP ?_ e
  clear e
  repeat' first
    | with_reducible assumption
    | with_reducible refine keep_dieDown KR KF Kg Kd ?_
    | with_reducible refine keep_takeVerdicts KR KF Kg Kv Kr Kh Ke ?_

theorem keep_dieRegion (KR : KeepRegs P) (Ka : KeepAct P) (Ko : KeepOut P) (KF : KeepFlt P) (KM : KeepMem P) (Kg : KeepLog P) (KS : KeepSpn P) (Kc : KeepClu P) (Kv : KeepConv P) (Kr : KeepRgn P) (Kh : KeepChan P) (Kb : KeepStr P) (Kp : KeepCap P) (Kk : KeepGaps P) (Kl : KeepLnk P) {s : State} {g : Nat}
    (hP : P s)  : P (State.dieRegion s g) := by
  unfold State.dieRegion
  extract_lets x0 x1 x2 x3 x4 x5 x6 x7 x8 x9
  try clear_value x0
  try clear_value x1
  have k2 : P x2 := by
    unfold x2
    repeat' first
      | with_reducible assumption
      | with_reducible refine keep_convEnds KR Ka Ko KF KM Kg KS Kr Kh Kb Kp Kk Kl ?_
      | with_reducible refine keep_steadyStop KR KF Kg Kr Kh ?_
      | split
  try clear_value x2
  have k3 : P x3 := by
    unfold x3
    repeat' first
      | with_reducible assumption
      | with_reducible refine keep_lossOff KR Ko KF KM Kg Kb ?_
      | split
  try clear_value x3
  try clear_value x4
  try clear_value x5
  have k6 : P x6 := by
    unfold x6
    repeat' first
      | with_reducible assumption
      | with_reducible refine Kr.setRg _ _ _ ?_
  try clear_value x6
  have k7 : P x7 := by
    unfold x7
    repeat' first
      | with_reducible assumption
      | with_reducible refine keep_setRgState KR ?_
  try clear_value x7
  have k8 : P x8 := by
    unfold x8
    repeat' first
      | with_reducible assumption
      | with_reducible refine Kc.setCl _ _ _ ?_
      | (with_reducible refine keep_forEach ?_ ?_)
      | (intro s x hx)
  try clear_value x8
  have k9 : P x9 := by
    unfold x9
    repeat' first
      | with_reducible assumption
      | with_reducible refine Kv.setCv _ _ _ ?_
      | (with_reducible refine keep_forEach ?_ ?_)
      | (intro s x hx)
  try clear_value x9
  repeat' first
    | with_reducible assumption
    | with_reducible refine Kh.setCh _ _ _ ?_
    | (with_reducible refine keep_forEach ?_ ?_)
    | (intro s x hx)

theorem keep_dieRestart (KR : KeepRegs P) (Ka : KeepAct P) (Ko : KeepOut P) (KF : KeepFlt P) (KM : KeepMem P) (Kg : KeepLog P) (KS : KeepSpn P) (Kd : KeepDlk P) (Kc : KeepClu P) (Kv : KeepConv P) (Kr : KeepRgn P) (Kh : KeepChan P) (Kb : KeepStr P) (Kp : KeepCap P) (Kk : KeepGaps P) (Kl : KeepLnk P) {s : State} {d : Nat}
    (hP : P s)  : P (State.dieRestart s d) := by
  unfold State.dieRestart
  extract_lets x0 x1 x2 x3 x4
  have k0 : P x0 := by
    unfold x0
    repeat' first
      | with_reducible assumption
      | with_reducible refine keep_dieRegion KR Ka Ko KF KM Kg KS Kc Kv Kr Kh Kb Kp Kk Kl ?_
      | (with_reducible refine keep_forEach ?_ ?_)
      | (intro s x hx)
  try clear_value x0
  try clear_value x1
  have k2 : P x2 := by
    unfold x2
    repeat' first
      | with_reducible assumption
      | with_reducible refine KR.setReg _ _ _ ?_
      | (with_reducible refine keep_forEach ?_ ?_)
      | (intro s x hx)
  try clear_value x2
  have k3 : P x3 := by
    unfold x3
    repeat' first
      | with_reducible assumption
      | with_reducible refine Ka.act _ _ ?_ ?_
      | exact fun hq => tabWf_sublist List.filter_sublist hq
  try clear_value x3
  have k4 : P x4 := by
    unfold x4
    repeat' first
      | with_reducible assumption
      | with_reducible refine keep_dieWrite Ko Kd ?_
      | (with_reducible refine keep_forEach ?_ ?_)
      | (intro s x hx)
  try clear_value x4
  repeat' first
    | with_reducible assumption
    | with_reducible refine keep_feArrive KR Ka Ko KF KM Kg KS Kc Kr Kh Kb Kp Kk Kl ?_
    | (with_reducible refine keep_forEach ?_ ?_)
    | (intro s x hx)

theorem keep_execDieLinkUp (KR : KeepRegs P) (Ka : KeepAct P) (Ko : KeepOut P) (KF : KeepFlt P) (KM : KeepMem P) (Kg : KeepLog P) (KS : KeepSpn P) (Kd : KeepDlk P) (Kc : KeepClu P) (Kv : KeepConv P) (Kr : KeepRgn P) (Kh : KeepChan P) (Kb : KeepStr P) (Kp : KeepCap P) (Kk : KeepGaps P) (Kl : KeepLnk P) {d : Fin 4} {restart : Bool} {s : State}
    (hP : P s) {u : State} (e : execDieLinkUp d restart s = .next u) : P u := by
  unfold execDieLinkUp at e
  refine keep_act hP ?_ e
  clear e
  extract_lets x0 x1 x2 x3 x4 x5 x6
  try clear_value x0
  have k1 : P x1 := by
    unfold x1
    repeat' first
      | with_reducible assumption
      | with_reducible refine keep_setFlag KR ?_
  try clear_value x1
  have k2 : P x2 := by
    unfold x2
    repeat' first
      | with_reducible assumption
      | with_reducible refine Kd.setDl _ _ _ ?_
  try clear_value x2
  have k3 : P x3 := by
    unfold x3
    repeat' first
      | with_reducible assumption
      | with_reducible refine keep_setFlag KR ?_
      | with_reducible refine keep_dieRestart KR Ka Ko KF KM Kg KS Kd Kc Kv Kr Kh Kb Kp Kk Kl ?_
      | split
  try clear_value x3
  try clear_value x4
  try clear_value x5
  have k6 : P x6 := by
    unfold x6
    repeat' first
      | with_reducible assumption
      | with_reducible refine Kd.setDl _ _ _ ?_
  try clear_value x6
  repeat' first
    | with_reducible assumption
    | with_reducible refine keep_dieWrite Ko Kd ?_
    | (with_reducible refine keep_forEach ?_ ?_)
    | (intro s x hx)
    | split

theorem keep_shownNow (Kr : KeepRgn P) {s : State} {g : Nat} {as : List Nat}
    (hP : P s)  : P (State.shownNow s g as) := by
  unfold State.shownNow
  extract_lets x0
  try clear_value x0
  repeat' first
    | with_reducible assumption
    | with_reducible refine Kr.setRg _ _ _ ?_

theorem keep_execDieLinkReadResponse (KR : KeepRegs P) (Ko : KeepOut P) (KF : KeepFlt P) (Kg : KeepLog P) (Kd : KeepDlk P) (Kr : KeepRgn P) {d : Fin 4} {a : Nat} {w : DieData} {s : State}
    (hP : P s) {u : State} (e : execDieLinkReadResponse d a w s = .next u) : P u := by
  unfold execDieLinkReadResponse at e
  refine keep_act hP ?_ e
  clear e
  repeat' first
    | with_reducible assumption
    | with_reducible refine keep_dieReceive KR Ko KF Kg Kd ?_ ?_
    | with_reducible refine Kd.setDl _ _ _ ?_
    | with_reducible refine KR.setReg _ _ _ ?_
    | with_reducible refine keep_shownNow Kr ?_
    | with_reducible refine keep_answer Ko ?_
    | intro _ h
    | split
    | dsimp only

theorem keep_execSequencerEventWord (KR : KeepRegs P) (Ko : KeepOut P) (KF : KeepFlt P) (KM : KeepMem P) (Kg : KeepLog P) (Kd : KeepDlk P) (Kr : KeepRgn P) (Kb : KeepStr P) {d : Fin 4} {w : DieBody} {s : State}
    (hP : P s) {u : State} (e : execSequencerEventWord d w s = .next u) : P u := by
  unfold execSequencerEventWord at e
  refine keep_act hP ?_ e
  clear e
  extract_lets x0 x1
  try clear_value x0
  try clear_value x1
  repeat' first
    | with_reducible assumption
    | with_reducible refine keep_dieReceive KR Ko KF Kg Kd ?_ ?_
    | with_reducible refine keep_shownNow Kr ?_
    | with_reducible refine Kr.setRg _ _ _ ?_
    | with_reducible refine keep_seqRecord KR Ko KF KM Kg Kb ?_
    | intro _ h
    | split
    | dsimp only

theorem keep_execFaultReportWord (KR : KeepRegs P) (Ko : KeepOut P) (KF : KeepFlt P) (Kg : KeepLog P) (Kd : KeepDlk P) (Kv : KeepConv P) (Kr : KeepRgn P) (Kh : KeepChan P) (Ke : KeepGge P) {d : Fin 4} {w : DieBody} {s : State}
    (hP : P s) {u : State} (e : execFaultReportWord d w s = .next u) : P u := by
  unfold execFaultReportWord at e
  refine keep_act hP ?_ e
  clear e
  extract_lets x0 x1
  try clear_value x0
  try clear_value x1
  repeat' first
    | with_reducible assumption
    | with_reducible refine keep_dieReceive KR Ko KF Kg Kd ?_ ?_
    | with_reducible refine keep_event KR KF Kg Kv Kr Kh Ke ?_
    | intro _ h

end Sys2Proof.Machine
end

