-- ==== Sys2Proof/Laws/KeepFaultRows.lean ====
section
/-! SUPPORT. What the operations of Machine/FaultRows.lean keep (see Laws/Keep.lean). -/
namespace Sys2Proof.Machine
variable {P : State → Prop}

theorem keep_execFaultEvent (KR : KeepRegs P) (KF : KeepFlt P) (Kg : KeepLog P) (Kv : KeepConv P) (Kr : KeepRgn P) (Kh : KeepChan P) (Ke : KeepGge P) {src : Fin 256} {inst : Fin 1024} {detail : BitVec 48} {s : State}
    (hP : P s) {u : State} (e : execFaultEvent src inst detail s = .next u) : P u := by
  unfold execFaultEvent at e
  refine keep_act hP ?_ e
  clear e
  repeat' first
    | with_reducible assumption
    | with_reducible refine keep_event KR KF Kg Kv Kr Kh Ke ?_

theorem keep_noteReserved (KR : KeepRegs P) {s : State} {a : Nat} {w : Nat} {v : Nat}
    (hP : P s)  : P (State.noteReserved s a w v) := by
  unfold State.noteReserved
  repeat' first
    | with_reducible assumption
    | with_reducible refine keep_noteIgnored KR ?_
    | split

theorem keep_writeForce (KR : KeepRegs P) (KF : KeepFlt P) (Kg : KeepLog P) (Kv : KeepConv P) (Kr : KeepRgn P) (Kh : KeepChan P) (Ke : KeepGge P) {s : State} {w : Nat} {v : Word}
    (hP : P s)  : P (State.writeForce s w v) := by
  unfold State.writeForce
  extract_lets x0 x1 x2 x3 x4
  try clear_value x0
  try clear_value x1
  try clear_value x2
  have k3 : P x3 := by
    unfold x3
    repeat' first
      | with_reducible assumption
      | with_reducible refine keep_noteReserved KR ?_
      | with_reducible refine KR.setReg _ _ _ ?_
  try clear_value x3
  have k4 : P x4 := by
    unfold x4
    repeat' first
      | with_reducible assumption
      | with_reducible refine keep_updRaw KR ?_
      | (with_reducible refine keep_forEach ?_ ?_)
      | (intro s x hx)
  try clear_value x4
  repeat' first
    | with_reducible assumption
    | with_reducible refine keep_forceEdge KR KF Kg ?_
    | with_reducible refine keep_takeVerdicts KR KF Kg Kv Kr Kh Ke ?_
    | (with_reducible refine keep_forEach ?_ ?_)
    | (intro s x hx)

theorem keep_execFltForceWrite (KR : KeepRegs P) (KF : KeepFlt P) (Kg : KeepLog P) (Kv : KeepConv P) (Kr : KeepRgn P) (Kh : KeepChan P) (Ke : KeepGge P) {w : Fin 8} {v : Word} {s : State}
    (hP : P s) {u : State} (e : execFltForceWrite w v s = .next u) : P u := by
  unfold execFltForceWrite at e
  refine keep_act hP ?_ e
  clear e
  repeat' first
    | with_reducible assumption
    | with_reducible refine keep_writeForce KR KF Kg Kv Kr Kh Ke ?_

theorem keep_clearSticky (KR : KeepRegs P) {s : State} {n : Nat}
    (hP : P s)  : P (State.clearSticky s n) := by
  unfold State.clearSticky
  repeat' first
    | with_reducible assumption
    | with_reducible refine keep_setSrcBit KR ?_
    | with_reducible refine keep_clearList KR ?_
    | split

theorem keep_writeSticky (KR : KeepRegs P) {s : State} {w : Nat} {v : Word}
    (hP : P s)  : P (State.writeSticky s w v) := by
  unfold State.writeSticky
  extract_lets x0
  have k0 : P x0 := by
    unfold x0
    repeat' first
      | with_reducible assumption
      | with_reducible refine keep_noteReserved KR ?_
  try clear_value x0
  repeat' first
    | with_reducible assumption
    | with_reducible refine keep_clearSticky KR ?_
    | with_reducible refine keep_updAlive KR ?_
    | (with_reducible refine keep_forEach ?_ ?_)
    | (intro s x hx)

theorem keep_execFltStickyClear (KR : KeepRegs P) {w : Fin 8} {v : Word} {s : State}
    (hP : P s) {u : State} (e : execFltStickyClear w v s = .next u) : P u := by
  unfold execFltStickyClear at e
  refine keep_act hP ?_ e
  clear e
  repeat' first
    | with_reducible assumption
    | with_reducible refine keep_writeSticky KR ?_

theorem keep_execFltListClear (KR : KeepRegs P) {src : Fin 256} {x : Fin 16} {v : Word} {s : State}
    (hP : P s) {u : State} (e : execFltListClear src x v s = .next u) : P u := by
  unfold execFltListClear at e
  refine keep_act hP ?_ e
  clear e
  repeat' first
    | with_reducible assumption
    | with_reducible refine keep_writeFlds KR ?_

theorem keep_writeFltCtrl (KR : KeepRegs P) {s : State} {v : Word}
    (hP : P s)  : P (State.writeFltCtrl s v) := by
  unfold State.writeFltCtrl
  extract_lets x0
  have k0 : P x0 := by
    unfold x0
    repeat' first
      | with_reducible assumption
      | with_reducible refine keep_writeFlds KR ?_
  try clear_value x0
  repeat' first
    | with_reducible assumption
    | with_reducible refine keep_clearSticky KR ?_
    | with_reducible refine keep_updAlive KR ?_
    | (with_reducible refine keep_forEach ?_ ?_)
    | (intro s x hx)
    | split

theorem keep_execFltCtrlClrAll (KR : KeepRegs P) {v : Word} {s : State}
    (hP : P s) {u : State} (e : execFltCtrlClrAll v s = .next u) : P u := by
  unfold execFltCtrlClrAll at e
  refine keep_act hP ?_ e
  clear e
  repeat' first
    | with_reducible assumption
    | with_reducible refine keep_writeFltCtrl KR ?_

theorem keep_writeFltFirst (KR : KeepRegs P) {s : State} {v : Word}
    (hP : P s)  : P (State.writeFltFirst s v) := by
  unfold State.writeFltFirst
  extract_lets x0
  have k0 : P x0 := by
    unfold x0
    repeat' first
      | with_reducible assumption
      | with_reducible refine keep_writeFlds KR ?_
  try clear_value x0
  repeat' first
    | with_reducible assumption
    | with_reducible refine KR.setReg _ _ _ ?_
    | split

theorem keep_execFltFirstValidClear (KR : KeepRegs P) {v : Word} {s : State}
    (hP : P s) {u : State} (e : execFltFirstValidClear v s = .next u) : P u := by
  unfold execFltFirstValidClear at e
  refine keep_act hP ?_ e
  clear e
  repeat' first
    | with_reducible assumption
    | with_reducible refine keep_writeFltFirst KR ?_

theorem keep_execFltLogRidxWrite (KR : KeepRegs P) {v : Word} {s : State}
    (hP : P s) {u : State} (e : execFltLogRidxWrite v s = .next u) : P u := by
  unfold execFltLogRidxWrite at e
  refine keep_act hP ?_ e
  clear e
  repeat' first
    | with_reducible assumption
    | with_reducible refine keep_writeFlds KR ?_

theorem keep_writeFltEn (KR : KeepRegs P) {s : State} {w : Nat} {v : Word}
    (hP : P s)  : P (State.writeFltEn s w v) := by
  unfold State.writeFltEn
  repeat' first
    | with_reducible assumption
    | with_reducible refine keep_noteReserved KR ?_
    | with_reducible refine KR.setReg _ _ _ ?_
    | with_reducible refine keep_updAlive KR ?_

theorem keep_unitReads (Kb : KeepStr P) {s : State} {a : Nat} {bs : List Byte}
    (hP : P s)  : P (State.unitReads s a bs) := by
  unfold State.unitReads
  repeat' first
    | with_reducible assumption
    | with_reducible refine Kb.setStr _ _ _ ?_
    | split

theorem keep_markBad (KF : KeepFlt P) {s : State} {a : Nat} {bs : List Byte}
    (hP : P s)  : P (State.markBad s a bs) := by
  unfold State.markBad
  extract_lets x0
  try clear_value x0
  repeat' first
    | with_reducible assumption
    | with_reducible refine KF.flt _ _ ?_

theorem keep_spoil (Ko : KeepOut P) (KF : KeepFlt P) (KM : KeepMem P) (Kb : KeepStr P) {s : State} {a : Nat}
    (hP : P s)  : P (State.spoil s a) := by
  unfold State.spoil
  extract_lets x0 x1
  try clear_value x0
  have k1 : P x1 := by
    unfold x1
    repeat' first
      | with_reducible assumption
      | with_reducible refine keep_fresh Ko ?_
      | with_reducible refine KM.setByte _ _ _ ?_
      | (with_reducible refine keep_forEach ?_ ?_)
      | (intro s x hx)
  try clear_value x1
  repeat' first
    | with_reducible assumption
    | with_reducible refine keep_unitReads Kb ?_
    | with_reducible refine keep_markBad KF ?_

theorem keep_historyBad (KF : KeepFlt P) (Ke : KeepGge P) {s : State} {c : Nat} {a : Nat}
    (hP : P s)  : P (State.historyBad s c a) := by
  unfold State.historyBad
  extract_lets x0
  try clear_value x0
  repeat' first
    | with_reducible assumption
    | with_reducible refine keep_setGg Ke ?_
    | with_reducible refine keep_markBad KF ?_
    | split

theorem keep_memEvent (KR : KeepRegs P) (KF : KeepFlt P) (Kg : KeepLog P) (Kv : KeepConv P) (Kr : KeepRgn P) (Kh : KeepChan P) (Ke : KeepGge P) {s : State} {src : Nat} {part : Nat} {detail : Nat} {a : Nat}
    (hP : P s)  : P (State.memEvent s src part detail a) := by
  unfold State.memEvent
  repeat' first
    | with_reducible assumption
    | with_reducible refine keep_raiseMem KR KF Kg ?_
    | with_reducible refine keep_takeVerdicts KR KF Kg Kv Kr Kh Ke ?_

theorem keep_execEccError (KR : KeepRegs P) (Ko : KeepOut P) (KF : KeepFlt P) (KM : KeepMem P) (Kg : KeepLog P) (Kv : KeepConv P) (Kr : KeepRgn P) (Kh : KeepChan P) (Kb : KeepStr P) (Ke : KeepGge P) (KH : KeepHs P) {part : Fin 6} {uncorrectable : Bool} {addr : Word} {detail : BitVec 48} {s : State}
    (hP : P s) {u : State} (e : execEccError part uncorrectable addr detail s = .next u) : P u := by
  unfold execEccError at e
  refine keep_act hP ?_ e
  clear e
  extract_lets a d s1 s2 s3 s4 y1 y2
  have k1 : P s1 := ite_keep (fun _ => keep_spoil Ko KF KM Kb hP) (fun _ => hP)
  have k2 : P s2 := ite_keep (fun _ => keep_historyBad KF Ke k1) (fun _ => k1)
  have k3 : P s3 := keep_memEvent KR KF Kg Kv Kr Kh Ke k2
  have k4 : P s4 := keep_event KR KF Kg Kv Kr Kh Ke hP
  have k5 : P { s4 with flt := { s4.flt with restarting := true } } := KF.flt _ _ k4
  refine ite_keep (fun _ => keep_memEvent KR KF Kg Kv Kr Kh Ke hP) (fun _ => ?_)
  refine ite_keep (fun _ => ite_keep (fun _ => keep_takeVerdicts KR KF Kg Kv Kr Kh Ke (keep_endTest KR KF Kg k3)) (fun _ => k3)) (fun _ => ?_)
  refine ite_keep (fun _ => keep_memEvent KR KF Kg Kv Kr Kh Ke hP) (fun _ => ite_keep (fun _ => ?_) (fun _ => hP))
  exact KH.hs { s4 with flt := { s4.flt with restarting := true } } _ (fun h => ⟨h.1, h.2.1, h.2.2⟩) k5


theorem keep_execStageHoldTimeout (KR : KeepRegs P) (KF : KeepFlt P) (Kg : KeepLog P) (Kv : KeepConv P) (Kr : KeepRgn P) (Kh : KeepChan P) (Ke : KeepGge P) {s : State}
    (hP : P s) {u : State} (e : execStageHoldTimeout s = .next u) : P u := by
  unfold execStageHoldTimeout at e
  refine keep_act hP ?_ e
  clear e
  extract_lets x0
  try clear_value x0
  repeat' first
    | with_reducible assumption
    | with_reducible refine keep_event KR KF Kg Kv Kr Kh Ke ?_
    | with_reducible refine KF.flt _ _ ?_

theorem keep_execFirmwareWatchdog (KR : KeepRegs P) (KF : KeepFlt P) (Kg : KeepLog P) (Kv : KeepConv P) (Kr : KeepRgn P) (Kh : KeepChan P) (Ke : KeepGge P) {s : State}
    (hP : P s) {u : State} (e : execFirmwareWatchdog s = .next u) : P u := by
  unfold execFirmwareWatchdog at e
  refine keep_act hP ?_ e
  clear e
  extract_lets x0
  try clear_value x0
  repeat' first
    | with_reducible assumption
    | with_reducible refine keep_event KR KF Kg Kv Kr Kh Ke ?_
    | with_reducible refine KF.flt _ _ ?_

theorem keep_execAliveToggle (Ko : KeepOut P) (KF : KeepFlt P) (KL : KeepTime P) {s : State}
    (hP : P s) {u : State} (e : execAliveToggle s = .next u) : P u := by
  unfold execAliveToggle at e
  refine keep_act hP ?_ e
  clear e
  extract_lets x0 x1 x2 x3
  have k0 : P x0 := by
    unfold x0
    repeat' first
      | with_reducible assumption
      | with_reducible refine keep_moveTo KL ?_
  try clear_value x0
  try clear_value x1
  try clear_value x2
  have k3 : P x3 := by
    unfold x3
    repeat' first
      | with_reducible assumption
      | with_reducible refine KF.flt _ _ ?_
  try clear_value x3
  repeat' first
    | with_reducible assumption
    | with_reducible refine keep_emit Ko ?_
    | with_reducible refine keep_aliveLow Ko KF ?_
    | split

theorem keep_lineTest (KR : KeepRegs P) (KF : KeepFlt P) (Kg : KeepLog P) {s : State} {part : Nat} {key : Nat} {v : Nat}
    (hP : P s)  : P (State.lineTest s part key v) := by
  unfold State.lineTest
  extract_lets x0 x1 x2
  try clear_value x0
  try clear_value x1
  have k2 : P x2 := by
    unfold x2
    repeat' first
      | with_reducible assumption
      | with_reducible refine KF.flt _ _ ?_
  try clear_value x2
  repeat' first
    | with_reducible assumption
    | with_reducible refine keep_endTest KR KF Kg ?_
    | with_reducible refine keep_raiseMem KR KF Kg ?_
    | split

theorem keep_testDone (KR : KeepRegs P) (KF : KeepFlt P) (Kg : KeepLog P) (Kv : KeepConv P) (Kr : KeepRgn P) (Kh : KeepChan P) (Ke : KeepGge P) {s : State} {v : Nat}
    (hP : P s)  : P (State.testDone s v) := by
  unfold State.testDone
  extract_lets x0
  try clear_value x0
  repeat' first
    | with_reducible assumption
    | with_reducible refine keep_lineTest KR KF Kg ?_
    | with_reducible refine keep_endTest KR KF Kg ?_
    | with_reducible refine keep_takeVerdicts KR KF Kg Kv Kr Kh Ke ?_
    | split
    | dsimp only
    | with_reducible refine KF.flt _ _ ?_

theorem keep_execSelftestDone (KR : KeepRegs P) (KF : KeepFlt P) (Kg : KeepLog P) (Kv : KeepConv P) (Kr : KeepRgn P) (Kh : KeepChan P) (Ke : KeepGge P) {v : Verdict} {s : State}
    (hP : P s) {u : State} (e : execSelftestDone v s = .next u) : P u := by
  unfold execSelftestDone at e
  refine keep_act hP ?_ e
  clear e
  repeat' first
    | with_reducible assumption
    | with_reducible refine keep_testDone KR KF Kg Kv Kr Kh Ke ?_

theorem keep_execSelftestRequeue (KR : KeepRegs P) (KF : KeepFlt P) {s : State}
    (hP : P s) {u : State} (e : execSelftestRequeue s = .next u) : P u := by
  unfold execSelftestRequeue at e
  refine keep_act hP ?_ e
  clear e
  extract_lets x0
  try clear_value x0
  repeat' first
    | with_reducible assumption
    | with_reducible refine keep_callTest KR KF ?_
    | split
    | with_reducible refine KF.flt _ _ ?_

end Sys2Proof.Machine
end

