-- ==== Sys2Proof/Laws/KeepLaneTest.lean ====
section
/-! SUPPORT. What the operations of Machine/LaneTest.lean keep (see Laws/Keep.lean). -/
namespace Sys2Proof.Machine
variable {P : State → Prop}

theorem keep_laneTraffic (KR : KeepRegs P) (Ko : KeepOut P) (KF : KeepFlt P) (Kg : KeepLog P) (KS : KeepSpn P) (Kb : KeepStr P) (Ke : KeepGge P) (Kk : KeepGaps P) (Kl : KeepLnk P) (Ks : KeepSeg P) (Ki : KeepRing P) (KH : KeepHs P) {s : State} {i : Nat}
    (hP : P s)  : P (State.laneTraffic s i) := by
  unfold State.laneTraffic
  extract_lets x0
  try clear_value x0
  repeat' first
    | with_reducible assumption
    | with_reducible refine keep_pcsLink KR Ko KF Kg KS Kk Kl Ki ?_
    | with_reducible refine keep_linkDown KR Ko KF Kg KS Kb Ke Kk Kl Ks Ki KH ?_
    | split

theorem keep_testOn (KR : KeepRegs P) (Ko : KeepOut P) (KF : KeepFlt P) (Kg : KeepLog P) (KS : KeepSpn P) (Kb : KeepStr P) (Ke : KeepGge P) (Kk : KeepGaps P) (Kl : KeepLnk P) (Kn : KeepLane P) (Ks : KeepSeg P) (Ki : KeepRing P) (KH : KeepHs P) {s : State} {i : Nat}
    (hP : P s)  : P (State.testOn s i) := by
  unfold State.testOn
  extract_lets x0
  have k0 : P x0 := by
    unfold x0
    repeat' first
      | with_reducible assumption
      | with_reducible refine keep_laneTraffic KR Ko KF Kg KS Kb Ke Kk Kl Ks Ki KH ?_
  try clear_value x0
  repeat' first
    | with_reducible assumption
    | with_reducible refine keep_laneStart KR KF Kg Kn ?_
    | split

theorem keep_testOff (KR : KeepRegs P) (KF : KeepFlt P) (Kg : KeepLog P) (Kn : KeepLane P) {s : State} {i : Nat}
    (hP : P s)  : P (State.testOff s i) := by
  unfold State.testOff
  extract_lets x0 x1
  have k0 : P x0 := by
    unfold x0
    repeat' first
      | with_reducible assumption
      | with_reducible refine keep_laneSlot KR ?_
  try clear_value x0
  try clear_value x1
  repeat' first
    | with_reducible assumption
    | with_reducible refine keep_laneSlot KR ?_
    | with_reducible refine keep_laneStart KR KF Kg Kn ?_
    | split

theorem keep_prbsTake (KR : KeepRegs P) (Kn : KeepLane P) {s : State} {i : Nat} {k : Nat} {bad : Nat}
    (hP : P s)  : P (State.prbsTake s i k bad).2 := by
  unfold State.prbsTake
  extract_lets x0 x1 x2 x3 x4
  try clear_value x0
  try clear_value x1
  try clear_value x2
  try clear_value x3
  try clear_value x4
  repeat' first
    | with_reducible assumption
    | with_reducible refine Kn.setLn _ _ _ ?_
    | with_reducible refine keep_bumpBy KR ?_

theorem keep_injectErr (KR : KeepRegs P) (Ko : KeepOut P) (Kn : KeepLane P) {s : State} {i : Nat}
    (hP : P s)  : P (State.injectErr s i) := by
  unfold State.injectErr
  extract_lets x0
  have k0 : P x0 := by
    unfold x0
    repeat' first
      | with_reducible assumption
      | with_reducible refine keep_emit Ko ?_
      | split
  try clear_value x0
  repeat' first
    | with_reducible assumption
    | with_reducible refine keep_prbsTake KR Kn ?_
    | split

theorem keep_applyLneCtrl (KR : KeepRegs P) (Ko : KeepOut P) (KF : KeepFlt P) (Kg : KeepLog P) (KS : KeepSpn P) (Kb : KeepStr P) (Ke : KeepGge P) (Kk : KeepGaps P) (Kl : KeepLnk P) (Kn : KeepLane P) (Ks : KeepSeg P) (Ki : KeepRing P) (KH : KeepHs P) {s : State} {i : Nat} {v : Word}
    (hP : P s)  : P (State.applyLneCtrl s i v) := by
  unfold State.applyLneCtrl
  extract_lets x0 x1 x2 x3 x4 x5 x6 x7 x8 x9
  try clear_value x0
  try clear_value x1
  try clear_value x2
  try clear_value x3
  have k4 : P x4 := by
    unfold x4
    repeat' first
      | with_reducible assumption
      | with_reducible refine keep_writeFlds KR ?_
  try clear_value x4
  try clear_value x5
  have k6 : P x6 := by
    unfold x6
    repeat' first
      | with_reducible assumption
      | with_reducible refine keep_setFlag KR ?_
  try clear_value x6
  have k7 : P x7 := by
    unfold x7
    repeat' first
      | with_reducible assumption
      | with_reducible refine keep_testOn KR Ko KF Kg KS Kb Ke Kk Kl Kn Ks Ki KH ?_
      | with_reducible refine keep_testOff KR KF Kg Kn ?_
      | split
  try clear_value x7
  have k8 : P x8 := by
    unfold x8
    repeat' first
      | with_reducible assumption
      | with_reducible refine keep_laneAsk KR KF Kg Kn ?_
      | split
  try clear_value x8
  have k9 : P x9 := by
    unfold x9
    repeat' first
      | with_reducible assumption
      | with_reducible refine keep_emit Ko ?_
      | split
  try clear_value x9
  repeat' first
    | with_reducible assumption
    | with_reducible refine keep_injectErr KR Ko Kn ?_
    | split

theorem keep_writeLneCtrl (KR : KeepRegs P) (Ko : KeepOut P) (KF : KeepFlt P) (Kg : KeepLog P) (KS : KeepSpn P) (Kb : KeepStr P) (Ke : KeepGge P) (Kk : KeepGaps P) (Kl : KeepLnk P) (Kn : KeepLane P) (Ks : KeepSeg P) (Ki : KeepRing P) (KH : KeepHs P) {s : State} {i : Nat} {via : Via} {v : Word}
    (hP : P s)  : P (State.writeLneCtrl s i via v) := by
  unfold State.writeLneCtrl
  repeat' first
    | with_reducible assumption
    | with_reducible refine keep_setFlag KR ?_
    | with_reducible refine keep_applyLneCtrl KR Ko KF Kg KS Kb Ke Kk Kl Kn Ks Ki KH ?_
    | split

theorem keep_execLneCtrlTmode (KR : KeepRegs P) (Ko : KeepOut P) (KF : KeepFlt P) (Kg : KeepLog P) (KS : KeepSpn P) (Kb : KeepStr P) (Ke : KeepGge P) (Kk : KeepGaps P) (Kl : KeepLnk P) (Kn : KeepLane P) (Ks : KeepSeg P) (Ki : KeepRing P) (KH : KeepHs P) {i : Fin 10} {via : Via} {v : Word} {s : State}
    (hP : P s) {u : State} (e : execLneCtrlTmode i via v s = .next u) : P u := by
  unfold execLneCtrlTmode at e
  refine keep_act hP ?_ e
  clear e
  repeat' first
    | with_reducible assumption
    | with_reducible refine keep_writeLneCtrl KR Ko KF Kg KS Kb Ke Kk Kl Kn Ks Ki KH ?_

theorem keep_execLneCtrlErrinj (KR : KeepRegs P) (Ko : KeepOut P) (KF : KeepFlt P) (Kg : KeepLog P) (KS : KeepSpn P) (Kb : KeepStr P) (Ke : KeepGge P) (Kk : KeepGaps P) (Kl : KeepLnk P) (Kn : KeepLane P) (Ks : KeepSeg P) (Ki : KeepRing P) (KH : KeepHs P) {i : Fin 10} {v : Word} {s : State}
    (hP : P s) {u : State} (e : execLneCtrlErrinj i v s = .next u) : P u := by
  unfold execLneCtrlErrinj at e
  refine keep_act hP ?_ e
  clear e
  repeat' first
    | with_reducible assumption
    | with_reducible refine keep_writeLneCtrl KR Ko KF Kg KS Kb Ke Kk Kl Kn Ks Ki KH ?_

theorem keep_prbsLock (KR : KeepRegs P) (Ko : KeepOut P) (Kn : KeepLane P) {s : State} {i : Nat}
    (hP : P s)  : P (State.prbsLock s i) := by
  unfold State.prbsLock
  extract_lets x0 x1 x2 x3 x4 x5
  have k2 : P x2 := keep_fresh Ko hP
  have k4 : ∀ a b, P (x4 a b) := fun a b => keep_setFlag KR (Kn.setLn _ _ _ k2)
  clear_value x2 x4
  split
  · split
    · exact k4 _ _
    · exact k2
  · exact k4 _ _


theorem keep_execPrbsLock (KR : KeepRegs P) (Ko : KeepOut P) (Kn : KeepLane P) {i : Fin 10} {s : State}
    (hP : P s) {u : State} (e : execPrbsLock i s = .next u) : P u := by
  unfold execPrbsLock at e
  refine keep_act hP ?_ e
  clear e
  repeat' first
    | with_reducible assumption
    | with_reducible refine keep_prbsLock KR Ko Kn ?_
    | split

theorem keep_execPrbsReseed (KR : KeepRegs P) (Kn : KeepLane P) {i : Fin 10} {errors : Fin 1025} {s : State}
    (hP : P s) {u : State} (e : execPrbsReseed i errors s = .next u) : P u := by
  unfold execPrbsReseed at e
  refine keep_act hP ?_ e
  clear e
  have k : P (s.prbsTake i.val 1024 errors.val).2 := keep_prbsTake KR Kn hP
  exact ite_keep (fun _ => ite_keep (fun _ => keep_setFlag KR k) (fun _ => k)) (fun _ => hP)


end Sys2Proof.Machine
end

