-- ==== Sys2Proof/Laws/KeepPower.lean ====
section
/-! SUPPORT. What the operations of Machine/Power.lean keep (see Laws/Keep.lean). -/
namespace Sys2Proof.Machine
variable {P : State → Prop}

theorem keep_setCaps (KR : KeepRegs P) {s : State} {l : Nat}
    (hP : P s)  : P (State.setCaps s l) := by
  unfold State.setCaps
  repeat' first
    | with_reducible assumption
    | with_reducible refine KR.setReg _ _ _ ?_

theorem keep_refusePower (KR : KeepRegs P) (KF : KeepFlt P) (Kg : KeepLog P) {s : State} {kind : Nat} {value : Nat} {cause : Nat}
    (hP : P s)  : P (State.refusePower s kind value cause) := by
  unfold State.refusePower
  extract_lets x0
  have k0 : P x0 := by
    unfold x0
    repeat' first
      | with_reducible assumption
      | with_reducible refine keep_setFld KR ?_
      | with_reducible refine keep_bump KR ?_
      | with_reducible refine keep_raiseHub KR KF Kg ?_
  try clear_value x0
  repeat' first
    | with_reducible assumption
    | with_reducible refine keep_raiseHub KR KF Kg ?_
    | split

theorem keep_hushEntry (KW : KeepPwr P) (KL : KeepTime P) {s : State} {entry : Nat}
    (hP : P s)  : P (State.hushEntry s entry) := by
  unfold State.hushEntry
  extract_lets x0 x1 x2 x3
  have k0 : P x0 := by
    unfold x0
    repeat' first
      | with_reducible assumption
      | with_reducible refine keep_pass KL ?_
  try clear_value x0
  try clear_value x1
  try clear_value x2
  try clear_value x3
  repeat' first
    | with_reducible assumption
    | with_reducible refine KW.pwr _ _ ?_

theorem keep_powerBegin (KR : KeepRegs P) (KW : KeepPwr P) (KL : KeepTime P) {s : State} {kind : Nat} {value : Nat} {entry : Nat}
    (hP : P s)  : P (State.powerBegin s kind value entry) := by
  unfold State.powerBegin
  extract_lets x0 x1 x2 x3
  have k0 : P x0 := by
    unfold x0
    repeat' first
      | with_reducible assumption
      | with_reducible refine keep_setFlag KR ?_
      | with_reducible refine keep_setFld KR ?_
  try clear_value x0
  try clear_value x1
  have k2 : P x2 := by
    unfold x2
    repeat' first
      | with_reducible assumption
      | with_reducible refine KW.pwr _ _ ?_
  try clear_value x2
  try clear_value x3
  repeat' first
    | with_reducible assumption
    | with_reducible refine keep_setFld KR ?_
    | with_reducible refine keep_setCaps KR ?_
    | with_reducible refine keep_hushEntry KW KL ?_
    | split
    | with_reducible refine KW.pwr _ _ ?_

theorem keep_powerStart (KR : KeepRegs P) (KF : KeepFlt P) (Kg : KeepLog P) (KW : KeepPwr P) (KL : KeepTime P) {s : State} {kind : Nat} {value : Nat} {entry : Nat}
    (hP : P s)  : P (State.powerStart s kind value entry) := by
  unfold State.powerStart
  repeat' first
    | with_reducible assumption
    | with_reducible refine keep_refusePower KR KF Kg ?_
    | with_reducible refine keep_powerBegin KR KW KL ?_
    | split

theorem keep_powerRequest (KR : KeepRegs P) (KF : KeepFlt P) (Kg : KeepLog P) (KW : KeepPwr P) (KL : KeepTime P) {s : State} {kind : Nat} {value : Nat} {entry : Nat}
    (hP : P s)  : P (State.powerRequest s kind value entry) := by
  unfold State.powerRequest
  extract_lets x0 x1
  have k0 : P x0 := by
    unfold x0
    repeat' first
      | with_reducible assumption
      | with_reducible refine keep_setFlag KR ?_
      | with_reducible refine keep_setFld KR ?_
  try clear_value x0
  try clear_value x1
  repeat' first
    | with_reducible assumption
    | with_reducible refine keep_powerStart KR KF Kg KW KL ?_
    | split
    | with_reducible refine KW.pwr _ _ ?_

theorem keep_writePwrReq (KR : KeepRegs P) (KF : KeepFlt P) (Kg : KeepLog P) (KW : KeepPwr P) (KL : KeepTime P) {s : State} {v : Word}
    (hP : P s)  : P (State.writePwrReq s v) := by
  unfold State.writePwrReq
  extract_lets x0 x1 x2
  have k0 : P x0 := by
    unfold x0
    repeat' first
      | with_reducible assumption
      | with_reducible refine keep_writeFlds KR ?_
  try clear_value x0
  try clear_value x1
  try clear_value x2
  repeat' first
    | with_reducible assumption
    | with_reducible refine keep_powerRequest KR KF Kg KW KL ?_
    | split

theorem keep_execPwrReqLevel (KR : KeepRegs P) (KF : KeepFlt P) (Kg : KeepLog P) (KW : KeepPwr P) (KL : KeepTime P) {v : Word} {s : State}
    (hP : P s) {u : State} (e : execPwrReqLevel v s = .next u) : P u := by
  unfold execPwrReqLevel at e
  refine keep_act hP ?_ e
  clear e
  repeat' first
    | with_reducible assumption
    | with_reducible refine keep_writePwrReq KR KF Kg KW KL ?_

theorem keep_execPwrReqMode (KR : KeepRegs P) (KF : KeepFlt P) (Kg : KeepLog P) (KW : KeepPwr P) (KL : KeepTime P) {v : Word} {s : State}
    (hP : P s) {u : State} (e : execPwrReqMode v s = .next u) : P u := by
  unfold execPwrReqMode at e
  refine keep_act hP ?_ e
  clear e
  repeat' first
    | with_reducible assumption
    | with_reducible refine keep_writePwrReq KR KF Kg KW KL ?_

theorem keep_checkRecord (KR : KeepRegs P) (KL : KeepTime P) {s : State}
    (hP : P s)  : P (State.checkRecord s) := by
  unfold State.checkRecord
  extract_lets x0
  have k0 : P x0 := by
    unfold x0
    repeat' first
      | with_reducible assumption
      | with_reducible refine KR.setReg _ _ _ ?_
      | (with_reducible refine keep_forEach ?_ ?_)
      | (intro s x hx)
  try clear_value x0
  repeat' first
    | with_reducible assumption
    | with_reducible refine KR.setReg _ _ _ ?_
    | with_reducible refine keep_setFld KR ?_
    | with_reducible refine keep_setPair KR ?_
    | (with_reducible refine keep_forEach ?_ ?_)
    | (intro s x hx)
    | split
    | dsimp only
    | with_reducible refine KL.lt _ _ ?_

theorem keep_xt32Line (KR : KeepRegs P) (KF : KeepFlt P) (Kg : KeepLog P) {s : State}
    (hP : P s)  : P (State.xt32Line s) := by
  unfold State.xt32Line
  repeat' first
    | with_reducible assumption
    | with_reducible refine keep_setFlag KR ?_
    | with_reducible refine keep_setLine KR KF Kg ?_
    | split

theorem keep_release (KR : KeepRegs P) (KF : KeepFlt P) (Kg : KeepLog P) (KW : KeepPwr P) (KL : KeepTime P) {s : State} {hid : Nat}
    (hP : P s)  : P (State.release s hid) := by
  unfold State.release
  extract_lets x0 x1 x2 x3
  try clear_value x0
  have k1 : P x1 := by
    unfold x1
    repeat' first
      | with_reducible assumption
      | with_reducible refine KW.pwr _ _ ?_
  try clear_value x1
  have k2 : P x2 := by
    unfold x2
    repeat' first
      | with_reducible assumption
      | with_reducible refine keep_setFld KR ?_
  try clear_value x2
  have k3 : P x3 := by
    unfold x3
    repeat' first
      | with_reducible assumption
      | with_reducible refine KR.setReg _ _ _ ?_
      | with_reducible refine keep_setPair KR ?_
  try clear_value x3
  repeat' first
    | with_reducible assumption
    | with_reducible refine keep_checkRecord KR KL ?_
    | with_reducible refine keep_xt32Line KR KF Kg ?_
    | split

theorem keep_execResetRelease (KR : KeepRegs P) (KF : KeepFlt P) (Kg : KeepLog P) (KW : KeepPwr P) (KL : KeepTime P) {hid : Fin 16} {s : State}
    (hP : P s) {u : State} (e : execResetRelease hid s = .next u) : P u := by
  unfold execResetRelease at e
  refine keep_next ?_ e
  clear e
  repeat' first
    | with_reducible assumption
    | with_reducible refine keep_release KR KF Kg KW KL ?_
    | split

theorem keep_execPowerOnReset (KR : KeepRegs P) (KF : KeepFlt P) (Kg : KeepLog P) (KW : KeepPwr P) (KL : KeepTime P) (KX : KeepReset P) (KZ : ∀ (s : State) x, P s → P { s with always := x }) {hid : Fin 16} {s : State} (hP : P s) {u : State}
    (e : execPowerOnReset hid s = .next u) : P u := by
  unfold execPowerOnReset at e
  refine keep_next ?_ e
  clear e
  extract_lets x0 x1 x2 x3 x4 x5 x6
  have k3 : P x3 := by
    unfold x3
    split
    · exact KW.pwr { s with always := 0 } _ (KZ s 0 hP)
    · exact hP
  have k5 : P x5 := KW.pwr _ _ k3
  have k6 : P x6 := KX.fullReset _ _ _ k5
  split
  · exact k6
  · exact keep_release KR KF Kg KW KL k6


theorem keep_powerFail (KW : KeepPwr P) (KX : KeepReset P) {s : State} {sup : Supply}
    (hP : P s)  : P (State.powerFail s sup) := by
  unfold State.powerFail
  extract_lets x0 x1
  try clear_value x0
  try clear_value x1
  repeat' first
    | with_reducible assumption
    | with_reducible refine KX.fullReset _ _ _ ?_
    | with_reducible refine KW.pwr _ _ ?_

theorem keep_execSupplyPowerFail (KW : KeepPwr P) (KX : KeepReset P) {sup : Supply} {s : State}
    (hP : P s) {u : State} (e : execSupplyPowerFail sup s = .next u) : P u := by
  unfold execSupplyPowerFail at e
  refine keep_next ?_ e
  clear e
  repeat' first
    | with_reducible assumption
    | with_reducible refine keep_powerFail KW KX ?_

theorem keep_execResetPin (KW : KeepPwr P) (KX : KeepReset P) {s : State}
    (hP : P s) {u : State} (e : execResetPin s = .next u) : P u := by
  unfold execResetPin at e
  refine keep_next ?_ e
  clear e
  extract_lets x0 x1 x2
  try clear_value x0
  try clear_value x1
  have k2 : P x2 := by
    unfold x2
    repeat' first
      | with_reducible assumption
      | with_reducible refine KW.pwr _ _ ?_
  try clear_value x2
  repeat' first
    | with_reducible assumption
    | with_reducible refine KX.fullReset _ _ _ ?_
    | split

theorem keep_brownOut (KX : KeepReset P) {s : State}
    (hP : P s)  : P (State.brownOut s) := by
  unfold State.brownOut
  repeat' first
    | with_reducible assumption
    | with_reducible refine KX.fullReset _ _ _ ?_

theorem keep_execBrownOut (KX : KeepReset P) {s : State}
    (hP : P s) {u : State} (e : execBrownOut s = .next u) : P u := by
  unfold execBrownOut at e
  refine keep_next ?_ e
  clear e
  repeat' first
    | with_reducible assumption
    | with_reducible refine keep_brownOut KX ?_

theorem keep_execHeadstockStartDone (KR : KeepRegs P) (KF : KeepFlt P) (Kg : KeepLog P) (Kv : KeepConv P) (Kr : KeepRgn P) (Kh : KeepChan P) (Ke : KeepGge P) {s : State}
    (hP : P s) {u : State} (e : execHeadstockStartDone s = .next u) : P u := by
  unfold execHeadstockStartDone at e
  refine keep_act hP ?_ e
  clear e
  extract_lets x0 x1 x2 x3 x4 x5
  have k2 : P x2 := keep_updAlive KR (KF.flt _ _ hP)
  have k4 : P x4 := by
    unfold x4
    split
    · with_reducible exact keep_event KR KF Kg Kv Kr Kh Ke k2
    · exact k2
  have k5 : P x5 := by
    unfold x5
    split
    · with_reducible exact keep_event KR KF Kg Kv Kr Kh Ke k4
    · exact k4
  split
  · split
    · with_reducible exact keep_event KR KF Kg Kv Kr Kh Ke k5
    · exact k5
  · exact k2


theorem keep_setSup (KR : KeepRegs P) {s : State} {b : Nat} {on : Bool}
    (hP : P s)  : P (State.setSup s b on) := by
  unfold State.setSup
  repeat' first
    | with_reducible assumption
    | with_reducible refine KR.setReg _ _ _ ?_

theorem keep_supWarn (KR : KeepRegs P) (KF : KeepFlt P) (Kg : KeepLog P) (Kv : KeepConv P) (Kr : KeepRgn P) (Kh : KeepChan P) (Ke : KeepGge P) {s : State} {sup : Supply}
    (hP : P s)  : P (State.supWarn s sup) := by
  unfold State.supWarn
  extract_lets x0
  have k0 : P x0 := by
    unfold x0
    repeat' first
      | with_reducible assumption
      | with_reducible refine keep_setSup KR ?_
  try clear_value x0
  repeat' first
    | with_reducible assumption
    | with_reducible refine keep_event KR KF Kg Kv Kr Kh Ke ?_
    | with_reducible refine keep_setLine KR KF Kg ?_
    | with_reducible refine keep_takeVerdicts KR KF Kg Kv Kr Kh Ke ?_
    | split
    | dsimp only

theorem keep_execSupplyWarning (KR : KeepRegs P) (KF : KeepFlt P) (Kg : KeepLog P) (KW : KeepPwr P) (Kv : KeepConv P) (Kr : KeepRgn P) (Kh : KeepChan P) (Ke : KeepGge P) (KX : KeepReset P) {sup : Supply} {mv : Fin 65536} {s : State}
    (hP : P s) {u : State} (e : execSupplyWarning sup mv s = .next u) : P u := by
  unfold execSupplyWarning at e
  extract_lets x0 at e
  split at e
  · exact keep_next (keep_powerFail KW KX hP) e
  · split at e
    · exact keep_next hP e
    · split at e
      · exact keep_next (keep_supWarn KR KF Kg Kv Kr Kh Ke hP) e
      · cases e


theorem keep_execSupplyWarningClear (KR : KeepRegs P) (KF : KeepFlt P) (Kg : KeepLog P) {sup : Supply} {s : State}
    (hP : P s) {u : State} (e : execSupplyWarningClear sup s = .next u) : P u := by
  unfold execSupplyWarningClear at e
  refine keep_act hP ?_ e
  clear e
  extract_lets x0
  have k0 : P x0 := by
    unfold x0
    repeat' first
      | with_reducible assumption
      | with_reducible refine keep_setSup KR ?_
  try clear_value x0
  repeat' first
    | with_reducible assumption
    | with_reducible refine keep_setLine KR KF Kg ?_
    | split

theorem keep_execVddcOutOfRegulation (KR : KeepRegs P) (KF : KeepFlt P) (Kg : KeepLog P) (KW : KeepPwr P) (Kv : KeepConv P) (Kr : KeepRgn P) (Kh : KeepChan P) (Ke : KeepGge P) (KX : KeepReset P) {mv : Fin 65536} {s : State}
    (hP : P s) {u : State} (e : execVddcOutOfRegulation mv s = .next u) : P u := by
  unfold execVddcOutOfRegulation at e
  split at e
  · split at e
    · exact keep_next hP e
    · exact keep_execBrownOut KX hP e
  · refine keep_act hP ?_ e
    exact keep_takeVerdicts KR KF Kg Kv Kr Kh Ke (keep_setLine KR KF Kg (keep_setFlag KR (KW.pwr _ _ hP)))


theorem keep_tempLine (KR : KeepRegs P) (KF : KeepFlt P) (Kg : KeepLog P) {s : State} {d : Nat}
    (hP : P s)  : P (State.tempLine s d) := by
  unfold State.tempLine
  extract_lets x0
  try clear_value x0
  repeat' first
    | with_reducible assumption
    | with_reducible refine keep_setLine KR KF Kg ?_
    | split

theorem keep_execTemperatureWarning (KR : KeepRegs P) (KF : KeepFlt P) (Kg : KeepLog P) (Kv : KeepConv P) (Kr : KeepRgn P) (Kh : KeepChan P) (Ke : KeepGge P) {d : Fin 5} {t : Fin 65536} {s : State}
    (hP : P s) {u : State} (e : execTemperatureWarning d t s = .next u) : P u := by
  unfold execTemperatureWarning at e
  refine keep_act hP ?_ e
  clear e
  repeat' first
    | with_reducible assumption
    | with_reducible refine KR.setReg _ _ _ ?_
    | with_reducible refine keep_tempLine KR KF Kg ?_
    | with_reducible refine keep_takeVerdicts KR KF Kg Kv Kr Kh Ke ?_

theorem keep_writeTwarn (KR : KeepRegs P) (KF : KeepFlt P) (Kg : KeepLog P) (Kv : KeepConv P) (Kr : KeepRgn P) (Kh : KeepChan P) (Ke : KeepGge P) {s : State} {v : Word}
    (hP : P s)  : P (State.writeTwarn s v) := by
  unfold State.writeTwarn
  repeat' first
    | with_reducible assumption
    | with_reducible refine keep_writeFlds KR ?_
    | with_reducible refine keep_tempLine KR KF Kg ?_
    | with_reducible refine keep_takeVerdicts KR KF Kg Kv Kr Kh Ke ?_
    | (with_reducible refine keep_forEach ?_ ?_)
    | (intro s x hx)

theorem keep_execXt32Stopped (KR : KeepRegs P) (KF : KeepFlt P) (Kg : KeepLog P) (KW : KeepPwr P) (Kv : KeepConv P) (Kr : KeepRgn P) (Kh : KeepChan P) (Ke : KeepGge P) {s : State}
    (hP : P s) {u : State} (e : execXt32Stopped s = .next u) : P u := by
  unfold execXt32Stopped at e
  have k : P { s with pwr := { s.pwr with xt32 := true } } := KW.pwr _ _ hP
  exact keep_act k (keep_takeVerdicts KR KF Kg Kv Kr Kh Ke (keep_setLine KR KF Kg (keep_setFlag KR k))) e


theorem keep_wakeReset (KX : KeepReset P) {s : State}
    (hP : P s)  : P (State.wakeReset s) := by
  unfold State.wakeReset
  repeat' first
    | with_reducible assumption
    | with_reducible refine KX.fullReset _ _ _ ?_

theorem keep_hushDone (KW : KeepPwr P) (KX : KeepReset P) {s : State}
    (hP : P s)  : P (State.hushDone s) := by
  unfold State.hushDone
  extract_lets x0 x1
  try clear_value x0
  have k1 : P x1 := by
    unfold x1
    repeat' first
      | with_reducible assumption
      | with_reducible refine KW.pwr _ _ ?_
  try clear_value x1
  repeat' first
    | with_reducible assumption
    | with_reducible refine keep_wakeReset KX ?_
    | split

theorem keep_powerReached (KR : KeepRegs P) (KW : KeepPwr P) {s : State} {c : PwrChange}
    (hP : P s)  : P (State.powerReached s c) := by
  unfold State.powerReached
  extract_lets x0 x1 x2 x3 x4 x5
  try clear_value x0
  have k1 : P x1 := by
    unfold x1
    repeat' first
      | with_reducible assumption
      | with_reducible refine KW.pwr _ _ ?_
  try clear_value x1
  have k2 : P x2 := by
    unfold x2
    repeat' first
      | with_reducible assumption
      | with_reducible refine keep_setFlag KR ?_
      | with_reducible refine keep_setFld KR ?_
  try clear_value x2
  try clear_value x3
  try clear_value x4
  have k5 : P x5 := by
    unfold x5
    repeat' first
      | with_reducible assumption
      | with_reducible refine KW.pwr _ _ ?_
  try clear_value x5
  repeat' first
    | with_reducible assumption
    | with_reducible refine keep_setFld KR ?_
    | with_reducible refine keep_setCaps KR ?_
    | split

theorem keep_powerNext (KR : KeepRegs P) (KF : KeepFlt P) (Kg : KeepLog P) (KW : KeepPwr P) (KL : KeepTime P) {s : State}
    (hP : P s)  : P (State.powerNext s) := by
  unfold State.powerNext
  extract_lets x0 x1 x2
  try clear_value x0
  have k1 : P x1 := by
    unfold x1
    repeat' first
      | with_reducible assumption
      | with_reducible refine KW.pwr _ _ ?_
  try clear_value x1
  have k2 : P x2 := by
    unfold x2
    repeat' first
      | with_reducible assumption
      | with_reducible refine keep_setFlag KR ?_
      | with_reducible refine keep_setFld KR ?_
  try clear_value x2
  repeat' first
    | with_reducible assumption
    | with_reducible refine keep_powerStart KR KF Kg KW KL ?_
    | split

theorem keep_execPowerChangeDone (KR : KeepRegs P) (KF : KeepFlt P) (Kg : KeepLog P) (KW : KeepPwr P) (KL : KeepTime P) (KX : KeepReset P) {s : State}
    (hP : P s) {u : State} (e : execPowerChangeDone s = .next u) : P u := by
  unfold execPowerChangeDone at e
  refine keep_act hP ?_ e
  clear e
  repeat' first
    | with_reducible assumption
    | with_reducible refine keep_hushDone KW KX ?_
    | with_reducible refine keep_powerReached KR KW ?_
    | with_reducible refine keep_powerNext KR KF Kg KW KL ?_
    | split

theorem keep_execPowerChangeTimeout (KR : KeepRegs P) (KF : KeepFlt P) (Kg : KeepLog P) (KW : KeepPwr P) (KL : KeepTime P) (Kv : KeepConv P) (Kr : KeepRgn P) (Kh : KeepChan P) (Ke : KeepGge P) {s : State}
    (hP : P s) {u : State} (e : execPowerChangeTimeout s = .next u) : P u := by
  unfold execPowerChangeTimeout at e
  refine keep_act hP ?_ e
  clear e
  repeat' first
    | with_reducible assumption
    | with_reducible refine keep_moveTo KL ?_
    | with_reducible refine keep_event KR KF Kg Kv Kr Kh Ke ?_
    | split
    | dsimp only
    | with_reducible refine KW.pwr _ _ ?_

theorem keep_wake (KW : KeepPwr P) (KX : KeepReset P) {s : State} {bit : Nat}
    (hP : P s)  : P (State.wake s bit) := by
  unfold State.wake
  extract_lets x0 x1 x2 x3
  try clear_value x0
  try clear_value x1
  try clear_value x2
  have k3 : P x3 := by
    unfold x3
    repeat' first
      | with_reducible assumption
      | split
      | with_reducible refine KW.pwr _ _ ?_
  try clear_value x3
  repeat' first
    | with_reducible assumption
    | with_reducible refine keep_wakeReset KX ?_
    | split

theorem keep_execWatchWake (KW : KeepPwr P) (KX : KeepReset P) {g : Fin 8} {uv : Word} {s : State}
    (hP : P s) {u : State} (e : execWatchWake g uv s = .next u) : P u := by
  unfold execWatchWake at e
  refine keep_next ?_ e
  clear e
  repeat' first
    | with_reducible assumption
    | with_reducible refine keep_wake KW KX ?_
    | split

theorem keep_execWakePin (KW : KeepPwr P) (KX : KeepReset P) {s : State}
    (hP : P s) {u : State} (e : execWakePin s = .next u) : P u := by
  unfold execWakePin at e
  refine keep_next ?_ e
  clear e
  repeat' first
    | with_reducible assumption
    | with_reducible refine keep_wake KW KX ?_
    | split

theorem keep_execAlarmWake (KW : KeepPwr P) (KL : KeepTime P) (KX : KeepReset P) {s : State}
    (hP : P s) {u : State} (e : execAlarmWake s = .next u) : P u := by
  unfold execAlarmWake at e
  refine keep_next ?_ e
  clear e
  extract_lets x0 x1
  try clear_value x0
  try clear_value x1
  repeat' first
    | with_reducible assumption
    | with_reducible refine keep_pass KL ?_
    | with_reducible refine keep_wake KW KX ?_
    | split

theorem keep_execSpareAvailable (KW : KeepPwr P) (KL : KeepTime P) {c : Fin 48} {s : State}
    (hP : P s) {u : State} (e : execSpareAvailable c s = .next u) : P u := by
  unfold execSpareAvailable at e
  refine keep_act hP ?_ e
  clear e
  repeat' first
    | with_reducible assumption
    | with_reducible refine keep_moveTo KL ?_
    | split
    | dsimp only
    | with_reducible refine KW.pwr _ _ ?_

end Sys2Proof.Machine
end

