-- ==== Sys2Proof/Laws/KeepAccess.lean ====
section
/-! SUPPORT. What the operations of Machine/Access.lean keep (see Laws/Keep.lean). -/
namespace Sys2Proof.Machine
variable {P : State → Prop}

theorem keep_setHeld (Ky : KeepHeld P) {s : State} {a : Nat} {w : Option Word}
    (hP : P s)  : P (State.setHeld s a w) := by
  unfold State.setHeld
  repeat' first
    | with_reducible assumption
    | with_reducible refine Ky.held _ _ _ ?_

theorem keep_trialReg (KR : KeepRegs P) (Ky : KeepHeld P) {t : State} {v : Word} {a : Nat}
    (hPt : P t)  : P (State.trialReg t v a) := by
  unfold State.trialReg
  extract_lets x0
  have k0 : P x0 := by
    unfold x0
    repeat' first
      | with_reducible assumption
      | with_reducible refine keep_setHeld Ky ?_
      | with_reducible refine KR.setReg _ _ _ ?_
      | split
  try clear_value x0
  repeat' first
    | with_reducible assumption
    | with_reducible refine keep_setHeld Ky ?_
    | with_reducible refine KR.setReg _ _ _ ?_
    | with_reducible refine keep_setFld KR ?_
    | split

theorem keep_trial (KR : KeepRegs P) (Ky : KeepHeld P) {t : State} {w : Nat × Word}
    (hPt : P t)  : P (State.trial t w) := by
  unfold State.trial
  repeat' first
    | with_reducible assumption
    | with_reducible refine keep_trialReg KR Ky ?_
    | (with_reducible refine keep_forEach ?_ ?_)
    | (intro s x hx)

theorem keep_writeHubid (KR : KeepRegs P) (Ko : KeepOut P) (Kl : KeepLnk P) (Ki : KeepRing P) {s : State} {v : Word}
    (hP : P s)  : P (State.writeHubid s v) := by
  unfold State.writeHubid
  extract_lets x0 x1
  try clear_value x0
  have k1 : P x1 := by
    unfold x1
    repeat' first
      | with_reducible assumption
      | with_reducible refine keep_writeFlds KR ?_
  try clear_value x1
  repeat' first
    | with_reducible assumption
    | with_reducible refine keep_setFld KR ?_
    | with_reducible refine keep_segChanged Ko Kl Ki ?_
    | split

theorem keep_renewTracker (KR : KeepRegs P) (Ko : KeepOut P) (KF : KeepFlt P) (Kg : KeepLog P) (KS : KeepSpn P) (Kk : KeepGaps P) (Kl : KeepLnk P) {s : State} {t : Nat}
    (hP : P s)  : P (State.renewTracker s t) := by
  unfold State.renewTracker
  extract_lets x0 x1
  try clear_value x0
  have k1 : P x1 := by
    unfold x1
    repeat' first
      | with_reducible assumption
      | with_reducible refine keep_setTkState KR ?_
      | with_reducible refine keep_setTrk KS ?_
  try clear_value x1
  repeat' first
    | with_reducible assumption
    | with_reducible refine keep_enterHoldover KR Ko KF Kg KS Kk Kl ?_
    | split

theorem keep_writeTrkCfg (KR : KeepRegs P) (Ko : KeepOut P) (KF : KeepFlt P) (Kg : KeepLog P) (KS : KeepSpn P) (Kk : KeepGaps P) (Kl : KeepLnk P) {s : State} {t : Nat} {v : Word}
    (hP : P s)  : P (State.writeTrkCfg s t v) := by
  unfold State.writeTrkCfg
  extract_lets x0 x1 x2 x3 x4
  try clear_value x0
  try clear_value x1
  have k2 : P x2 := by
    unfold x2
    repeat' first
      | with_reducible assumption
      | with_reducible refine keep_noteIgnored KR ?_
      | split
  try clear_value x2
  try clear_value x3
  have k4 : P x4 := by
    unfold x4
    repeat' first
      | with_reducible assumption
      | with_reducible refine keep_writeFlds KR ?_
  try clear_value x4
  repeat' first
    | with_reducible assumption
    | with_reducible refine keep_renewTracker KR Ko KF Kg KS Kk Kl ?_
    | with_reducible refine keep_refreshTrackers KR Ko KF Kg KS Kk Kl ?_
    | split

theorem keep_takeHeld (KR : KeepRegs P) (Ky : KeepHeld P) {s : State} {a : Nat}
    (hP : P s)  : P (State.takeHeld s a) := by
  unfold State.takeHeld
  repeat' first
    | with_reducible assumption
    | with_reducible refine keep_setHeld Ky ?_
    | with_reducible refine KR.setReg _ _ _ ?_
    | split

theorem keep_writeRate (KR : KeepRegs P) (Ky : KeepHeld P) (KF : KeepFlt P) (Kg : KeepLog P) {s : State} {d : RegDesc} {v : Word}
    (hP : P s)  : P (State.writeRate s d v) := by
  unfold State.writeRate
  extract_lets x0 x1
  have k0 : P x0 := by
    unfold x0
    repeat' first
      | with_reducible assumption
      | with_reducible refine keep_setHeld Ky ?_
  try clear_value x0
  have k1 : P x1 := by
    unfold x1
    repeat' first
      | with_reducible assumption
      | with_reducible refine keep_takeHeld KR Ky ?_
      | with_reducible refine keep_writeFlds KR ?_
  try clear_value x1
  repeat' first
    | with_reducible assumption
    | with_reducible refine keep_noteIgnored KR ?_
    | with_reducible refine keep_applyRateWord KR KF Kg ?_
    | split

theorem keep_writeFePair (KR : KeepRegs P) (Ko : KeepOut P) (Ky : KeepHeld P) (Kd : KeepDlk P) (Kr : KeepRgn P) {s : State} {a : Nat} {d : RegDesc} {v : Word}
    (hP : P s)  : P (State.writeFePair s a d v) := by
  unfold State.writeFePair
  extract_lets x0
  try clear_value x0
  repeat' first
    | with_reducible assumption
    | with_reducible refine keep_setHeld Ky ?_
    | with_reducible refine keep_writeFeAll KR Ko Kd Kr ?_
    | with_reducible refine keep_writeFe KR Ko Kd Kr ?_
    | split

theorem keep_writeReg (KR : KeepRegs P) (Ka : KeepAct P) (Ko : KeepOut P) (Ky : KeepHeld P) (KF : KeepFlt P) (KM : KeepMem P) (Kg : KeepLog P) (KT : KeepTls P) (KW : KeepPwr P) (KL : KeepTime P) (KS : KeepSpn P) (Kd : KeepDlk P) (Kc : KeepClu P) (Kv : KeepConv P) (Kr : KeepRgn P) (Kh : KeepChan P) (Km : KeepMains P) (Kb : KeepStr P) (Kp : KeepCap P) (Ke : KeepGge P) (Kk : KeepGaps P) (Kl : KeepLnk P) (Kn : KeepLane P) (Ks : KeepSeg P) (Ki : KeepRing P) (KH : KeepHs P) (KQ : KeepSnap P) {s : State} {via : Via} {d : RegDesc} {ix : List Nat} {a : Nat} {v : Word}
    (hP : P s)  : P (State.writeReg s via d ix a v) := by
  unfold State.writeReg
  extract_lets x0
  have k0 : P x0 := by
    unfold x0
    repeat' first
      | with_reducible assumption
      | with_reducible refine keep_writeFlds KR ?_
  try clear_value x0
  repeat' first
    | with_reducible assumption
    | with_reducible refine keep_setHeld Ky ?_
    | with_reducible refine keep_writeSnapCtrl KR Ko Kk Kl KQ ?_
    | with_reducible refine keep_writeFlds KR ?_
    | with_reducible refine keep_emit Ko ?_
    | with_reducible refine keep_writePwrReq KR KF Kg KW KL ?_
    | with_reducible refine keep_writeTwarn KR KF Kg Kv Kr Kh Ke ?_
    | with_reducible refine keep_writeSpnCtrl KR Ko KF Kg KT KW KL KS Kr Kh Km Kb Kp Kk Kl Kn Ki KH KQ ?_
    | with_reducible refine keep_writeSpnSw KR Ko KF Kg KS Kk Kl ?_
    | with_reducible refine keep_ppsGate Ko KS ?_
    | with_reducible refine keep_takeHeld KR Ky ?_
    | with_reducible refine keep_writeRate KR Ky KF Kg ?_
    | with_reducible refine keep_writeTrkCfg KR Ko KF Kg KS Kk Kl ?_
    | with_reducible refine keep_armCmp KR Ko Ky KF Kg KS Kr Kp Kk Kl KQ ?_
    | with_reducible refine keep_writeCmpCtrl KR ?_
    | with_reducible refine keep_writeFltCtrl KR ?_
    | with_reducible refine keep_writeFltFirst KR ?_
    | with_reducible refine keep_writeSticky KR ?_
    | with_reducible refine keep_writeForce KR KF Kg Kv Kr Kh Ke ?_
    | with_reducible refine keep_writeFltEn KR ?_
    | with_reducible refine keep_updAlive KR ?_
    | with_reducible refine keep_writeHubid KR Ko Kl Ki ?_
    | with_reducible refine keep_writeLneCtrl KR Ko KF Kg KS Kb Ke Kk Kl Kn Ks Ki KH ?_
    | with_reducible refine keep_writeLneTxeq KR ?_
    | with_reducible refine keep_writeLneRxeq KR ?_
    | with_reducible refine keep_writeLneGrp KR ?_
    | with_reducible refine keep_writeNetCtrl KR Ko KF Kg KS Kb Ke Kk Kl Kn Ki ?_
    | with_reducible refine keep_writeChpCtrl KR Ko KF Kg KS Kb Ke Kk Kl Kn Ks Ki KH ?_
    | with_reducible refine keep_writeChpRing KR Ko KF Kg KS Kb Ke Kk Kl Ki ?_
    | with_reducible refine keep_showSeg KR KF Kg ?_
    | with_reducible refine keep_writeStrCtrl KR Ko KF KM Kg Kb Ke Kk ?_
    | with_reducible refine keep_writeGgeCtrl KR KF Kg Ke ?_
    | with_reducible refine keep_writeCapCtrl KR Ko KF Kg KS Kp Kk Kl ?_
    | with_reducible refine keep_capAllocCheck KR ?_
    | with_reducible refine keep_writeRgnCtrl KR Ka Ko KF KM Kg KS Kd Kc Kr Kh Kb Kp Kk Kl ?_
    | with_reducible refine keep_writeSeqCtrl KR Ka Ko KF KM Kg KS Kd Kc Kr Kh Kb Kp Kk Kl ?_
    | with_reducible refine keep_writeFePair KR Ko Ky Kd Kr ?_
    | with_reducible refine keep_writeSprCtrl KR Ka Ko KF KM Kg KS Kd Kc Kr Kh Kb Kp Kk Kl ?_
    | with_reducible refine keep_writeSteadyCtrl KR KF Kg Kr Kh ?_
    | with_reducible refine keep_writeImpCfg KR ?_
    | with_reducible refine keep_writeBqCtrl KR Ka Ko KF KM Kg KS Kh Kb Kp Kk Kl ?_
    | with_reducible refine keep_prcWrite KR Ka Ko KF KM Kg KS Kh Kb Kp Kk Kl ?_
    | with_reducible refine keep_writeFe KR Ko Kd Kr ?_
    | split

theorem keep_writeImage (KM : KeepMem P) (Ke : KeepGge P) {s : State} {c : Nat} {o : Nat} {v : Word}
    (hP : P s)  : P (State.writeImage s c o v) := by
  unfold State.writeImage
  extract_lets x0 x1
  try clear_value x0
  have k1 : P x1 := by
    unfold x1
    repeat' first
      | with_reducible assumption
      | with_reducible refine keep_setBytes KM ?_
      | with_reducible refine keep_setGg Ke ?_
      | split
  try clear_value x1
  repeat' first
    | with_reducible assumption
    | with_reducible refine keep_setBytes KM ?_

theorem keep_writePlain (KR : KeepRegs P) (Ka : KeepAct P) (Ko : KeepOut P) (Ky : KeepHeld P) (KF : KeepFlt P) (KM : KeepMem P) (Kg : KeepLog P) (KT : KeepTls P) (KW : KeepPwr P) (KL : KeepTime P) (KS : KeepSpn P) (Kd : KeepDlk P) (Kc : KeepClu P) (Kv : KeepConv P) (Kr : KeepRgn P) (Kh : KeepChan P) (Km : KeepMains P) (Kb : KeepStr P) (Kp : KeepCap P) (Ke : KeepGge P) (Kk : KeepGaps P) (Kl : KeepLnk P) (Kn : KeepLane P) (Ks : KeepSeg P) (Ki : KeepRing P) (KH : KeepHs P) (KQ : KeepSnap P) {s : State} {via : Via} {v : Word} {a : Nat}
    (hP : P s)  : P (State.writePlain s via v a) := by
  unfold State.writePlain
  repeat' first
    | with_reducible assumption
    | with_reducible refine keep_noteLocked KR ?_
    | with_reducible refine KR.setReg _ _ _ ?_
    | with_reducible refine keep_writeReg KR Ka Ko Ky KF KM Kg KT KW KL KS Kd Kc Kv Kr Kh Km Kb Kp Ke Kk Kl Kn Ks Ki KH KQ ?_
    | with_reducible refine keep_writeImage KM Ke ?_
    | with_reducible refine keep_noteIgnored KR ?_
    | split

theorem keep_writeWord (KR : KeepRegs P) (Ka : KeepAct P) (Ko : KeepOut P) (Ky : KeepHeld P) (KF : KeepFlt P) (KM : KeepMem P) (Kg : KeepLog P) (KT : KeepTls P) (KW : KeepPwr P) (KL : KeepTime P) (KS : KeepSpn P) (Kd : KeepDlk P) (Kc : KeepClu P) (Kv : KeepConv P) (Kr : KeepRgn P) (Kh : KeepChan P) (Km : KeepMains P) (Kb : KeepStr P) (Kp : KeepCap P) (Ke : KeepGge P) (Kk : KeepGaps P) (Kl : KeepLnk P) (Kn : KeepLane P) (Ks : KeepSeg P) (Ki : KeepRing P) (KH : KeepHs P) (KQ : KeepSnap P) {s : State} {via : Via} {w : Nat × Word}
    (hP : P s)  : P (State.writeWord s via w) := by
  unfold State.writeWord
  extract_lets x0 x1 x2
  have k0 : P x0 := by
    unfold x0
    repeat' first
      | with_reducible assumption
      | with_reducible refine keep_writePlain KR Ka Ko Ky KF KM Kg KT KW KL KS Kd Kc Kv Kr Kh Km Kb Kp Ke Kk Kl Kn Ks Ki KH KQ ?_
      | with_reducible refine KR.setReg _ _ _ ?_
      | (with_reducible refine keep_forEach ?_ ?_)
      | (intro s x hx)
  try clear_value x0
  have k1 : P x1 := by
    unfold x1
    repeat' first
      | with_reducible assumption
      | with_reducible refine KR.setReg _ _ _ ?_
  try clear_value x1
  have k2 : P x2 := by
    unfold x2
    repeat' first
      | with_reducible assumption
      | with_reducible refine keep_noteLocked KR ?_
      | split
  try clear_value x2
  repeat' first
    | with_reducible assumption
    | with_reducible refine keep_writePlain KR Ka Ko Ky KF KM Kg KT KW KL KS Kd Kc Kv Kr Kh Km Kb Kp Ke Kk Kl Kn Ks Ki KH KQ ?_
    | with_reducible refine keep_noteIgnored KR ?_
    | split

theorem keep_demandRefused (KR : KeepRegs P) (Ky : KeepHeld P) (KF : KeepFlt P) (Kg : KeepLog P) (Kv : KeepConv P) (Kr : KeepRgn P) (Kh : KeepChan P) (Ke : KeepGge P) {s : State} {ws : List (Nat × Word)} {rw : Bool}
    (hP : P s)  : P (State.demandRefused s ws rw) := by
  unfold State.demandRefused
  extract_lets x0 x1 x2 x3 x4
  have k0 : P x0 := by
    unfold x0
    repeat' first
      | with_reducible assumption
      | with_reducible refine keep_trial KR Ky ?_
      | (intro s x hx)
      | (with_reducible refine keep_foldl ?_ ?_)
  try clear_value x0
  try clear_value x1
  try clear_value x2
  try clear_value x3
  have k4 : P x4 := by
    unfold x4
    repeat' first
      | with_reducible assumption
      | with_reducible refine keep_setFlag KR ?_
      | with_reducible refine keep_event KR KF Kg Kv Kr Kh Ke ?_
      | split
  try clear_value x4
  repeat' first
    | with_reducible assumption
    | with_reducible refine keep_refuseStart KR KF Kg ?_
    | with_reducible refine keep_refuseArm KR KF Kg ?_
    | (with_reducible refine keep_forEach ?_ ?_)
    | (intro s x hx)
    | split

theorem keep_accessWrite (KR : KeepRegs P) (Ka : KeepAct P) (Ko : KeepOut P) (Ky : KeepHeld P) (KF : KeepFlt P) (KM : KeepMem P) (Kg : KeepLog P) (KT : KeepTls P) (KW : KeepPwr P) (KL : KeepTime P) (KS : KeepSpn P) (Kd : KeepDlk P) (Kc : KeepClu P) (Kv : KeepConv P) (Kr : KeepRgn P) (Kh : KeepChan P) (Km : KeepMains P) (Kb : KeepStr P) (Kp : KeepCap P) (Ke : KeepGge P) (Kk : KeepGaps P) (Kl : KeepLnk P) (Kn : KeepLane P) (Ks : KeepSeg P) (Ki : KeepRing P) (KH : KeepHs P) (KQ : KeepSnap P) {s : State} {via : Via} {ws : List (Nat × Word)}
    (hP : P s)  : P (State.accessWrite s via ws).1 := by
  unfold State.accessWrite
  repeat' first
    | with_reducible assumption
    | with_reducible refine keep_writeWord KR Ka Ko Ky KF KM Kg KT KW KL KS Kd Kc Kv Kr Kh Km Kb Kp Ke Kk Kl Kn Ks Ki KH KQ ?_
    | with_reducible refine keep_noteLocked KR ?_
    | with_reducible refine keep_demandRefused KR Ky KF Kg Kv Kr Kh Ke ?_
    | with_reducible refine keep_setFlag KR ?_
    | (with_reducible refine keep_forEach ?_ ?_)
    | (intro s x hx)
    | (with_reducible refine keep_foldl ?_ ?_)
    | split

theorem keep_writeAnswer (KR : KeepRegs P) (Ka : KeepAct P) (Ko : KeepOut P) (Ky : KeepHeld P) (KF : KeepFlt P) (KM : KeepMem P) (Kg : KeepLog P) (KT : KeepTls P) (KW : KeepPwr P) (KL : KeepTime P) (KS : KeepSpn P) (Kd : KeepDlk P) (Kc : KeepClu P) (Kv : KeepConv P) (Kr : KeepRgn P) (Kh : KeepChan P) (Km : KeepMains P) (Kb : KeepStr P) (Kp : KeepCap P) (Ke : KeepGge P) (Kk : KeepGaps P) (Kl : KeepLnk P) (Kn : KeepLane P) (Ks : KeepSeg P) (Ki : KeepRing P) (KH : KeepHs P) (KQ : KeepSnap P) {s : State} {a : Nat} {v : Word}
    (hP : P s)  : P (State.writeAnswer s a v) := by
  unfold State.writeAnswer
  repeat' first
    | with_reducible assumption
    | with_reducible refine keep_accessWrite KR Ka Ko Ky KF KM Kg KT KW KL KS Kd Kc Kv Kr Kh Km Kb Kp Ke Kk Kl Kn Ks Ki KH KQ ?_
    | with_reducible refine keep_answer Ko ?_

theorem keep_execPairLowerWrite (KR : KeepRegs P) (Ka : KeepAct P) (Ko : KeepOut P) (Ky : KeepHeld P) (KF : KeepFlt P) (KM : KeepMem P) (Kg : KeepLog P) (KT : KeepTls P) (KW : KeepPwr P) (KL : KeepTime P) (KS : KeepSpn P) (Kd : KeepDlk P) (Kc : KeepClu P) (Kv : KeepConv P) (Kr : KeepRgn P) (Kh : KeepChan P) (Km : KeepMains P) (Kb : KeepStr P) (Kp : KeepCap P) (Ke : KeepGge P) (Kk : KeepGaps P) (Kl : KeepLnk P) (Kn : KeepLane P) (Ks : KeepSeg P) (Ki : KeepRing P) (KH : KeepHs P) (KQ : KeepSnap P) {a : Nat} {v : Word} {s : State}
    (hP : P s) {u : State} (e : execPairLowerWrite a v s = .next u) : P u := by
  unfold execPairLowerWrite at e
  refine keep_act hP ?_ e
  clear e
  repeat' first
    | with_reducible assumption
    | with_reducible refine keep_writeAnswer KR Ka Ko Ky KF KM Kg KT KW KL KS Kd Kc Kv Kr Kh Km Kb Kp Ke Kk Kl Kn Ks Ki KH KQ ?_

theorem keep_execPairUpperWrite (KR : KeepRegs P) (Ka : KeepAct P) (Ko : KeepOut P) (Ky : KeepHeld P) (KF : KeepFlt P) (KM : KeepMem P) (Kg : KeepLog P) (KT : KeepTls P) (KW : KeepPwr P) (KL : KeepTime P) (KS : KeepSpn P) (Kd : KeepDlk P) (Kc : KeepClu P) (Kv : KeepConv P) (Kr : KeepRgn P) (Kh : KeepChan P) (Km : KeepMains P) (Kb : KeepStr P) (Kp : KeepCap P) (Ke : KeepGge P) (Kk : KeepGaps P) (Kl : KeepLnk P) (Kn : KeepLane P) (Ks : KeepSeg P) (Ki : KeepRing P) (KH : KeepHs P) (KQ : KeepSnap P) {a : Nat} {v : Word} {s : State}
    (hP : P s) {u : State} (e : execPairUpperWrite a v s = .next u) : P u := by
  unfold execPairUpperWrite at e
  refine keep_act hP ?_ e
  clear e
  repeat' first
    | with_reducible assumption
    | with_reducible refine keep_writeAnswer KR Ka Ko Ky KF KM Kg KT KW KL KS Kd Kc Kv Kr Kh Km Kb Kp Ke Kk Kl Kn Ks Ki KH KQ ?_

theorem keep_execRegisterWrite (KR : KeepRegs P) (Ka : KeepAct P) (Ko : KeepOut P) (Ky : KeepHeld P) (KF : KeepFlt P) (KM : KeepMem P) (Kg : KeepLog P) (KT : KeepTls P) (KW : KeepPwr P) (KL : KeepTime P) (KS : KeepSpn P) (Kd : KeepDlk P) (Kc : KeepClu P) (Kv : KeepConv P) (Kr : KeepRgn P) (Kh : KeepChan P) (Km : KeepMains P) (Kb : KeepStr P) (Kp : KeepCap P) (Ke : KeepGge P) (Kk : KeepGaps P) (Kl : KeepLnk P) (Kn : KeepLane P) (Ks : KeepSeg P) (Ki : KeepRing P) (KH : KeepHs P) (KQ : KeepSnap P) {a : Nat} {v : Word} {s : State}
    (hP : P s) {u : State} (e : execRegisterWrite a v s = .next u) : P u := by
  unfold execRegisterWrite at e
  refine keep_act hP ?_ e
  clear e
  repeat' first
    | with_reducible assumption
    | with_reducible refine keep_writeAnswer KR Ka Ko Ky KF KM Kg KT KW KL KS Kd Kc Kv Kr Kh Km Kb Kp Ke Kk Kl Kn Ks Ki KH KQ ?_

theorem keep_execAliasWrite (KR : KeepRegs P) (Ka : KeepAct P) (Ko : KeepOut P) (Ky : KeepHeld P) (KF : KeepFlt P) (KM : KeepMem P) (Kg : KeepLog P) (KT : KeepTls P) (KW : KeepPwr P) (KL : KeepTime P) (KS : KeepSpn P) (Kd : KeepDlk P) (Kc : KeepClu P) (Kv : KeepConv P) (Kr : KeepRgn P) (Kh : KeepChan P) (Km : KeepMains P) (Kb : KeepStr P) (Kp : KeepCap P) (Ke : KeepGge P) (Kk : KeepGaps P) (Kl : KeepLnk P) (Kn : KeepLane P) (Ks : KeepSeg P) (Ki : KeepRing P) (KH : KeepHs P) (KQ : KeepSnap P) {a : Nat} {v : Word} {s : State}
    (hP : P s) {u : State} (e : execAliasWrite a v s = .next u) : P u := by
  unfold execAliasWrite at e
  refine keep_act hP ?_ e
  clear e
  repeat' first
    | with_reducible assumption
    | with_reducible refine keep_writeAnswer KR Ka Ko Ky KF KM Kg KT KW KL KS Kd Kc Kv Kr Kh Km Kb Kp Ke Kk Kl Kn Ks Ki KH KQ ?_

theorem keep_execGougeImageWrite (KR : KeepRegs P) (Ka : KeepAct P) (Ko : KeepOut P) (Ky : KeepHeld P) (KF : KeepFlt P) (KM : KeepMem P) (Kg : KeepLog P) (KT : KeepTls P) (KW : KeepPwr P) (KL : KeepTime P) (KS : KeepSpn P) (Kd : KeepDlk P) (Kc : KeepClu P) (Kv : KeepConv P) (Kr : KeepRgn P) (Kh : KeepChan P) (Km : KeepMains P) (Kb : KeepStr P) (Kp : KeepCap P) (Ke : KeepGge P) (Kk : KeepGaps P) (Kl : KeepLnk P) (Kn : KeepLane P) (Ks : KeepSeg P) (Ki : KeepRing P) (KH : KeepHs P) (KQ : KeepSnap P) {a : Nat} {v : Word} {s : State}
    (hP : P s) {u : State} (e : execGougeImageWrite a v s = .next u) : P u := by
  unfold execGougeImageWrite at e
  refine keep_act hP ?_ e
  clear e
  repeat' first
    | with_reducible assumption
    | with_reducible refine keep_writeAnswer KR Ka Ko Ky KF KM Kg KT KW KL KS Kd Kc Kv Kr Kh Km Kb Kp Ke Kk Kl Kn Ks Ki KH KQ ?_

theorem keep_execCmdHubidWrite (KR : KeepRegs P) (Ko : KeepOut P) (Kl : KeepLnk P) (Ki : KeepRing P) {v : Word} {s : State}
    (hP : P s) {u : State} (e : execCmdHubidWrite v s = .next u) : P u := by
  unfold execCmdHubidWrite at e
  refine keep_act hP ?_ e
  clear e
  repeat' first
    | with_reducible assumption
    | with_reducible refine keep_writeHubid KR Ko Kl Ki ?_

end Sys2Proof.Machine
end

