-- ==== Sys2Proof/Laws/KeepReading.lean ====
section
/-! SUPPORT. What the operations of Machine/Reading.lean keep (see Laws/Keep.lean). -/
namespace Sys2Proof.Machine
variable {P : State → Prop}

theorem keep_latchWord (Ky : KeepHeld P) {s : State} {a : Nat} {w : Word}
    (hP : P s)  : P (State.latchWord s a w) := by
  unfold State.latchWord
  repeat' first
    | with_reducible assumption
    | with_reducible refine Ky.latchPut _ _ _ ?_

theorem keep_readClears (KR : KeepRegs P) (Kp : KeepCap P) {s : State} {a : Nat} {d : RegDesc} {ix : List Nat}
    (hP : P s)  : P (State.readClears s a d ix) := by
  unfold State.readClears
  extract_lets x0
  have k0 : P x0 := by
    unfold x0
    repeat' first
      | with_reducible assumption
      | with_reducible refine KR.setReg _ _ _ ?_
      | split
  try clear_value x0
  repeat' first
    | with_reducible assumption
    | with_reducible refine KR.setReg _ _ _ ?_
    | with_reducible refine Kp.setCp _ _ _ ?_
    | split

theorem keep_readSync (KR : KeepRegs P) (KF : KeepFlt P) (Kg : KeepLog P) (Kp : KeepCap P) (Ke : KeepGge P) {s : State} {r : Reg} {ix : List Nat}
    (hP : P s)  : P (State.readSync s r ix) := by
  unfold State.readSync
  repeat' first
    | with_reducible assumption
    | with_reducible refine keep_capSync KR Kp ?_
    | with_reducible refine keep_ggeSync KR KF Kg Ke ?_
    | split

theorem keep_readReg (KR : KeepRegs P) (Ko : KeepOut P) (Ky : KeepHeld P) (KF : KeepFlt P) (Kg : KeepLog P) (Kd : KeepDlk P) (Kp : KeepCap P) (Ke : KeepGge P) {s : State} {a : Nat} {d : RegDesc} {ix : List Nat}
    (hP : P s)  : P (State.readReg s a d ix).1 := by
  unfold State.readReg
  extract_lets x0 x1 x2 x3 x4 x5 x6
  try clear_value x0
  try clear_value x1
  have k2 : P x2 := by
    unfold x2
    repeat' first
      | with_reducible assumption
      | with_reducible refine keep_readSync KR KF Kg Kp Ke ?_
  try clear_value x2
  try clear_value x3
  have k4 : P x4 := by
    unfold x4
    repeat' first
      | with_reducible assumption
      | with_reducible refine keep_latchWord Ky ?_
      | (with_reducible refine keep_forEach ?_ ?_)
      | (intro s x hx)
  try clear_value x4
  try clear_value x5
  have k6 : P x6 := by
    unfold x6
    repeat' first
      | with_reducible assumption
      | with_reducible refine Kd.setDl _ _ _ ?_
      | with_reducible refine keep_dieSend Ko Kd ?_
      | split
  try clear_value x6
  repeat' first
    | with_reducible assumption
    | with_reducible refine keep_setFlag KR ?_
    | with_reducible refine keep_readClears KR Kp ?_
    | split

theorem keep_readBad (KR : KeepRegs P) (KF : KeepFlt P) (Kg : KeepLog P) {s : State} {a : Nat} {part : Nat} {detail : Nat} {bytes : List Byte}
    (hP : P s)  : P (State.readBad s a part detail bytes) := by
  unfold State.readBad
  repeat' first
    | with_reducible assumption
    | with_reducible refine keep_raiseMem KR KF Kg ?_
    | split

theorem keep_readWord (KR : KeepRegs P) (Ko : KeepOut P) (Ky : KeepHeld P) (KF : KeepFlt P) (Kg : KeepLog P) (Kd : KeepDlk P) (Kp : KeepCap P) (Ke : KeepGge P) {s : State} {a : Nat}
    (hP : P s)  : P (State.readWord s a).1 := by
  unfold State.readWord
  extract_lets x0
  try clear_value x0
  repeat' first
    | with_reducible assumption
    | with_reducible refine keep_readBad KR KF Kg ?_
    | with_reducible refine keep_readReg KR Ko Ky KF Kg Kd Kp Ke ?_
    | split

theorem keep_readAll (KR : KeepRegs P) (Ko : KeepOut P) (Ky : KeepHeld P) (KF : KeepFlt P) (Kg : KeepLog P) (Kd : KeepDlk P) (Kp : KeepCap P) (Ke : KeepGge P) {s : State} {l : List Nat} (h : P s) : P (s.readAll l).1 := by
  induction l generalizing s with
  | nil => exact h
  | cons a t ih => exact ih (keep_readWord KR Ko Ky KF Kg Kd Kp Ke h)


theorem keep_execPairLowerRead (KR : KeepRegs P) (Ko : KeepOut P) (Ky : KeepHeld P) (KF : KeepFlt P) (Kg : KeepLog P) (Kd : KeepDlk P) (Kp : KeepCap P) (Ke : KeepGge P) {a : Nat} {s : State}
    (hP : P s) {u : State} (e : execPairLowerRead a s = .next u) : P u := by
  unfold execPairLowerRead at e
  refine keep_act hP ?_ e
  clear e
  repeat' first
    | with_reducible assumption
    | with_reducible refine keep_readWord KR Ko Ky KF Kg Kd Kp Ke ?_
    | with_reducible refine keep_answer Ko ?_
    | split

end Sys2Proof.Machine
end

