-- ==== Sys2Proof/Laws/KeepTailstock.lean ====
section
/-! SUPPORT. What the operations of Machine/Tailstock.lean keep (see Laws/Keep.lean). -/
namespace Sys2Proof.Machine
variable {P : State → Prop}

theorem keep_setInp (KT : KeepTls P) {s : State} {j : Nat} {x : SafeInput}
    (hP : P s)  : P (State.setInp s j x) := by
  unfold State.setInp
  extract_lets x0
  repeat' first
    | with_reducible assumption
    | dsimp only
    | with_reducible refine KT.tls _ _ ?_ ?_
    | exact fun hq => hq

theorem keep_setAxis (KT : KeepTls P) {s : State} {x : Nat} {a : SafeAxis}
    (hP : P s)  : P (State.setAxis s x a) := by
  unfold State.setAxis
  extract_lets x0
  repeat' first
    | with_reducible assumption
    | dsimp only
    | with_reducible refine KT.tls _ _ ?_ ?_
    | exact fun hq => hq

theorem keep_setDrive (KT : KeepTls P) {s : State} {c : Bool} {x : Nat} {d : SafeDrive}
    (hP : P s)  : P (State.setDrive s c x d) := by
  unfold State.setDrive
  extract_lets x0
  try clear_value x0
  repeat' first
    | with_reducible assumption
    | with_reducible refine keep_setAxis KT ?_

theorem keep_bothDrives (KT : KeepTls P) {s : State} {x : Nat} {f : SafeDrive → SafeDrive}
    (hP : P s)  : P (State.bothDrives s x f) := by
  unfold State.bothDrives
  repeat' first
    | with_reducible assumption
    | with_reducible refine keep_setDrive KT ?_

theorem keep_setSch (KT : KeepTls P) {s : State} {c : Bool} {x : SafeChan}
    (hP : P s)  : P (State.setSch s c x) := by
  unfold State.setSch
  extract_lets x0
  repeat' first
    | with_reducible assumption
    | with_reducible refine KT.setTls _ _ ?_ ?_
    | split
    | dsimp only
    | exact fun hq => hq

theorem keep_say (KT : KeepTls P) {s : State} {src : Nat} {inst : Nat}
    (hP : P s)  : P (State.say s src inst) := by
  unfold State.say
  extract_lets x0
  repeat' first
    | with_reducible assumption
    | with_reducible refine KT.setTls _ _ ?_ ?_
    | dsimp only
    | exact fun hq => hq

theorem keep_sayOnce (KT : KeepTls P) {s : State} {src : Nat} {inst : Nat}
    (hP : P s)  : P (State.sayOnce s src inst) := by
  unfold State.sayOnce
  repeat' first
    | with_reducible assumption
    | with_reducible refine keep_say KT ?_
    | split

theorem keep_raiseTls (KR : KeepRegs P) (KF : KeepFlt P) (Kg : KeepLog P) (KT : KeepTls P) {s : State}
    (hP : P s)  : P (State.raiseTls s) := by
  unfold State.raiseTls
  extract_lets x0 x1
  try clear_value x0
  repeat' first
    | with_reducible assumption
    | with_reducible refine KT.setTls _ _ ?_ ?_
    | with_reducible refine keep_raise KR KF Kg ?_
    | (with_reducible refine keep_forEach ?_ ?_)
    | (intro s x hx)
    | dsimp only
    | exact fun hq => hq

theorem keep_toChanB (Ko : KeepOut P) (Kd : KeepDlk P) {s : State} {kind : Nat} {b : List Byte}
    (hP : P s)  : P (State.toChanB s kind b) := by
  unfold State.toChanB
  repeat' first
    | with_reducible assumption
    | with_reducible refine keep_dieSend Ko Kd ?_
    | (with_reducible refine keep_forEach ?_ ?_)
    | (intro s x hx)

theorem keep_safeParam (KR : KeepRegs P) (Ko : KeepOut P) (KF : KeepFlt P) (Kg : KeepLog P) (KT : KeepTls P) (Kd : KeepDlk P) {s : State} {b : List Byte}
    (hP : P s)  : P (State.safeParam s b).1 := by
  unfold State.safeParam
  extract_lets x0 x1 x2 x3 x4 x5
  have k0 : P x0 := by
    unfold x0
    repeat' first
      | with_reducible assumption
      | with_reducible refine keep_toChanB Ko Kd ?_
  try clear_value x0
  try clear_value x1
  try clear_value x2
  have k4 : P x4 := by
    unfold x4
    repeat' first
      | with_reducible assumption
      | with_reducible refine KT.setTls _ _ ?_ ?_
      | dsimp only
      | exact fun hq => hq
  try clear_value x4
  repeat' first
    | with_reducible assumption
    | with_reducible refine KT.setTls _ _ ?_ ?_
    | with_reducible refine keep_raiseHub KR KF Kg ?_
    | split
    | dsimp only
    | exact fun hq => hq

theorem keep_axOff (KT : KeepTls P) {s : State} {c : Bool} {x : Nat} {st : Nat}
    (hP : P s)  : P (State.axOff s c x st) := by
  unfold State.axOff
  extract_lets x0
  try clear_value x0
  repeat' first
    | with_reducible assumption
    | with_reducible refine keep_setDrive KT ?_

theorem keep_axToFault (KT : KeepTls P) {s : State} {x : Nat}
    (hP : P s)  : P (State.axToFault s x) := by
  unfold State.axToFault
  repeat' first
    | with_reducible assumption
    | with_reducible refine keep_bothDrives KT ?_
    | split

theorem keep_allFault (KT : KeepTls P) {s : State}
    (hP : P s)  : P (State.allFault s) := by
  unfold State.allFault
  repeat' first
    | with_reducible assumption
    | with_reducible refine keep_axToFault KT ?_
    | (with_reducible refine keep_forEach ?_ ?_)
    | (intro s x hx)

theorem keep_allOff (KT : KeepTls P) {s : State}
    (hP : P s)  : P (State.allOff s) := by
  unfold State.allOff
  repeat' first
    | with_reducible assumption
    | with_reducible refine keep_bothDrives KT ?_
    | (with_reducible refine keep_forEach ?_ ?_)
    | (intro s x hx)

theorem keep_lockout (KT : KeepTls P) {s : State} {cause : Nat}
    (hP : P s)  : P (State.lockout s cause) := by
  unfold State.lockout
  extract_lets x0 x1
  have k0 : P x0 := by
    unfold x0
    repeat' first
      | with_reducible assumption
      | with_reducible refine keep_allFault KT ?_
      | with_reducible refine keep_allOff KT ?_
  try clear_value x0
  repeat' first
    | with_reducible assumption
    | with_reducible refine KT.setTls _ _ ?_ ?_
    | with_reducible refine keep_say KT ?_
    | split
    | dsimp only
    | exact fun hq => hq

theorem keep_toNoparam (KT : KeepTls P) {s : State}
    (hP : P s)  : P (State.toNoparam s) := by
  unfold State.toNoparam
  extract_lets x0 x1
  have k0 : P x0 := by
    unfold x0
    repeat' first
      | with_reducible assumption
      | with_reducible refine keep_axOff KT ?_
      | (with_reducible refine keep_forEach ?_ ?_)
      | (intro s x hx)
  try clear_value x0
  repeat' first
    | with_reducible assumption
    | with_reducible refine KT.setTls _ _ ?_ ?_
    | dsimp only
    | exact fun hq => hq

theorem keep_inFault (KT : KeepTls P) {s : State} {j : Nat} {src : Nat}
    (hP : P s)  : P (State.inFault s j src) := by
  unfold State.inFault
  extract_lets x0
  try clear_value x0
  repeat' first
    | with_reducible assumption
    | with_reducible refine keep_setInp KT ?_
    | with_reducible refine keep_sayOnce KT ?_

theorem keep_filterTurn (KT : KeepTls P) {s : State} {c : Bool} {j : Nat}
    (hP : P s)  : P (State.filterTurn s c j) := by
  unfold State.filterTurn
  extract_lets x0 x1
  try clear_value x0
  try clear_value x1
  repeat' first
    | with_reducible assumption
    | with_reducible refine keep_setInp KT ?_
    | split

theorem keep_sampleInput (KT : KeepTls P) {s : State} {o : CycleObs} {j : Nat}
    (hP : P s)  : P (State.sampleInput s o j) := by
  unfold State.sampleInput
  extract_lets x0 x1 x2 x3 x4 x5 x6 x7 x8 x9
  try clear_value x0
  try clear_value x1
  try clear_value x2
  try clear_value x3
  try clear_value x4
  try clear_value x5
  try clear_value x6
  try clear_value x7
  have k8 : P x8 := by
    unfold x8
    repeat' first
      | with_reducible assumption
      | with_reducible refine keep_setInp KT ?_
  try clear_value x8
  have k9 : P x9 := by
    unfold x9
    repeat' first
      | with_reducible assumption
      | with_reducible refine keep_inFault KT ?_
      | split
  try clear_value x9
  repeat' first
    | with_reducible assumption
    | with_reducible refine keep_filterTurn KT ?_
    | split

theorem keep_discrepancy (KT : KeepTls P) {s : State} {j : Nat}
    (hP : P s)  : P (State.discrepancy s j) := by
  unfold State.discrepancy
  repeat' first
    | with_reducible assumption
    | with_reducible refine keep_inFault KT ?_
    | split

theorem keep_trackInput (KT : KeepTls P) {s : State} {j : Nat}
    (hP : P s)  : P (State.trackInput s j) := by
  unfold State.trackInput
  extract_lets x0 x1 x2
  try clear_value x0
  try clear_value x1
  try clear_value x2
  repeat' first
    | with_reducible assumption
    | with_reducible refine keep_setInp KT ?_
    | with_reducible refine keep_discrepancy KT ?_

theorem keep_latchCounts (KT : KeepTls P) {s : State}
    (hP : P s)  : P (State.latchCounts s) := by
  unfold State.latchCounts
  repeat' first
    | with_reducible assumption
    | with_reducible refine keep_bothDrives KT ?_
    | (with_reducible refine keep_forEach ?_ ?_)
    | (intro s x hx)

theorem keep_ss1Done (KT : KeepTls P) {s : State} {c : Bool} {x : Nat}
    (hP : P s)  : P (State.ss1Done s c x) := by
  unfold State.ss1Done
  extract_lets x0
  have k0 : P x0 := by
    unfold x0
    repeat' first
      | with_reducible assumption
      | with_reducible refine keep_axOff KT ?_
  try clear_value x0
  repeat' first
    | with_reducible assumption
    | with_reducible refine keep_sayOnce KT ?_
    | split

theorem keep_ss1Check (KT : KeepTls P) {s : State} {c : Bool} {x : Nat}
    (hP : P s)  : P (State.ss1Check s c x) := by
  unfold State.ss1Check
  extract_lets x0 x1 x2 x3 x4 x5
  try clear_value x0
  try clear_value x1
  try clear_value x2
  try clear_value x3
  try clear_value x4
  try clear_value x5
  repeat' first
    | with_reducible assumption
    | with_reducible refine keep_axToFault KT ?_
    | with_reducible refine keep_sayOnce KT ?_
    | with_reducible refine keep_ss1Done KT ?_
    | split

theorem keep_ss1Start (KT : KeepTls P) {s : State} {c : Bool} {x : Nat} {src : Nat}
    (hP : P s)  : P (State.ss1Start s c x src) := by
  unfold State.ss1Start
  extract_lets x0 x1
  try clear_value x0
  have k1 : P x1 := by
    unfold x1
    repeat' first
      | with_reducible assumption
      | with_reducible refine keep_setDrive KT ?_
  try clear_value x1
  repeat' first
    | with_reducible assumption
    | with_reducible refine keep_sayOnce KT ?_
    | split

theorem keep_evalDrive (KT : KeepTls P) {s : State} {c : Bool} {x : Nat}
    (hP : P s)  : P (State.evalDrive s c x) := by
  unfold State.evalDrive
  extract_lets x0 x1 x2
  try clear_value x0
  try clear_value x1
  try clear_value x2
  repeat' first
    | with_reducible assumption
    | with_reducible refine keep_axOff KT ?_
    | with_reducible refine keep_sayOnce KT ?_
    | with_reducible refine keep_ss1Start KT ?_
    | with_reducible refine keep_ss1Check KT ?_
    | split

theorem keep_evalAxis (KT : KeepTls P) {s : State} {x : Nat}
    (hP : P s)  : P (State.evalAxis s x) := by
  unfold State.evalAxis
  extract_lets x0 x1
  have k0 : P x0 := by
    unfold x0
    repeat' first
      | with_reducible assumption
      | with_reducible refine keep_axToFault KT ?_
      | split
  try clear_value x0
  have k1 : P x1 := by
    unfold x1
    repeat' first
      | with_reducible assumption
      | with_reducible refine keep_bothDrives KT ?_
      | split
  try clear_value x1
  repeat' first
    | with_reducible assumption
    | with_reducible refine keep_evalDrive KT ?_
    | split

theorem keep_axRestart (KT : KeepTls P) {s : State} {x : Nat}
    (hP : P s)  : P (State.axRestart s x) := by
  unfold State.axRestart
  extract_lets x0
  try clear_value x0
  repeat' first
    | with_reducible assumption
    | with_reducible refine keep_bothDrives KT ?_

theorem keep_autoRestart (KT : KeepTls P) {s : State} {x : Nat}
    (hP : P s)  : P (State.autoRestart s x) := by
  unfold State.autoRestart
  repeat' first
    | with_reducible assumption
    | with_reducible refine keep_axRestart KT ?_
    | split

theorem keep_edgeClear (KT : KeepTls P) {s : State}
    (hP : P s)  : P (State.edgeClear s) := by
  unfold State.edgeClear
  extract_lets x0 x1
  have k1 : P x1 := by
    unfold x1
    repeat' first
      | with_reducible assumption
      | with_reducible refine KT.setTls _ _ ?_ ?_
      | dsimp only
      | exact fun hq => hq
  try clear_value x1
  repeat' first
    | with_reducible assumption
    | with_reducible refine keep_setInp KT ?_
    | (with_reducible refine keep_forEach ?_ ?_)
    | (intro s x hx)
    | split
    | dsimp only

theorem keep_resetEdge (KT : KeepTls P) {s : State}
    (hP : P s)  : P (State.resetEdge s) := by
  unfold State.resetEdge
  extract_lets x0 x1 x2
  have k0 : P x0 := by
    unfold x0
    repeat' first
      | with_reducible assumption
      | with_reducible refine keep_edgeClear KT ?_
  try clear_value x0
  try clear_value x1
  have k2 : P x2 := by
    unfold x2
    repeat' first
      | with_reducible assumption
      | with_reducible refine keep_axRestart KT ?_
      | (with_reducible refine keep_forEach ?_ ?_)
      | (intro s x hx)
      | split
  try clear_value x2
  repeat' first
    | with_reducible assumption
    | with_reducible refine keep_sayOnce KT ?_
    | split

theorem keep_takeRst (KT : KeepTls P) {s : State}
    (hP : P s)  : P (State.takeRst s) := by
  unfold State.takeRst
  extract_lets x0 x1 x2
  try clear_value x1
  try clear_value x2
  repeat' first
    | with_reducible assumption
    | with_reducible refine KT.setTls _ _ ?_ ?_
    | dsimp only
    | exact fun hq => hq

theorem keep_brake (KT : KeepTls P) {s : State} {c : Bool} {x : Nat}
    (hP : P s)  : P (State.brake s c x) := by
  unfold State.brake
  extract_lets x0
  try clear_value x0
  repeat' first
    | with_reducible assumption
    | with_reducible refine keep_setDrive KT ?_
    | split

theorem keep_showTls (KR : KeepRegs P) {s : State}
    (hP : P s)  : P (State.showTls s) := by
  unfold State.showTls
  extract_lets x0 x1 x2 x3 x4 x5 x6 x7 x8
  have k1 : P x1 := by
    unfold x1
    repeat' first
      | with_reducible assumption
      | with_reducible refine KR.setReg _ _ _ ?_
  try clear_value x1
  have k2 : P x2 := by
    unfold x2
    repeat' first
      | with_reducible assumption
      | with_reducible refine KR.setReg _ _ _ ?_
  try clear_value x2
  have k3 : P x3 := by
    unfold x3
    repeat' first
      | with_reducible assumption
      | with_reducible refine KR.setReg _ _ _ ?_
  try clear_value x3
  have k4 : P x4 := by
    unfold x4
    repeat' first
      | with_reducible assumption
      | with_reducible refine KR.setReg _ _ _ ?_
      | (with_reducible refine keep_forEach ?_ ?_)
      | (intro s x hx)
  try clear_value x4
  have k5 : P x5 := by
    unfold x5
    repeat' first
      | with_reducible assumption
      | with_reducible refine KR.setReg _ _ _ ?_
  try clear_value x5
  have k6 : P x6 := by
    unfold x6
    repeat' first
      | with_reducible assumption
      | with_reducible refine KR.setReg _ _ _ ?_
  try clear_value x6
  have k7 : P x7 := by
    unfold x7
    repeat' first
      | with_reducible assumption
      | with_reducible refine KR.setReg _ _ _ ?_
  try clear_value x7
  have k8 : P x8 := by
    unfold x8
    repeat' first
      | with_reducible assumption
      | with_reducible refine KR.setReg _ _ _ ?_
  try clear_value x8
  repeat' first
    | with_reducible assumption
    | with_reducible refine KR.setReg _ _ _ ?_

theorem keep_tlgRefuse (KT : KeepTls P) {s : State} {q : ReqCtx} {code : Nat}
    (hP : P s)  : P (State.tlgRefuse s q code) := by
  unfold State.tlgRefuse
  extract_lets x0
  repeat' first
    | with_reducible assumption
    | with_reducible refine KT.setTls _ _ ?_ ?_
    | with_reducible refine keep_say KT ?_
    | dsimp only
    | exact fun hq => hq

theorem keep_safeTlg (KR : KeepRegs P) (Ko : KeepOut P) (KF : KeepFlt P) (Kg : KeepLog P) (KT : KeepTls P) (Kd : KeepDlk P) {s : State} {q : ReqCtx} {b : List Byte}
    (hP : P s)  : P (State.safeTlg s q b) := by
  unfold State.safeTlg
  extract_lets x0 x1
  have k0 : P x0 := by
    unfold x0
    repeat' first
      | with_reducible assumption
      | with_reducible refine keep_toChanB Ko Kd ?_
  try clear_value x0
  repeat' first
    | with_reducible assumption
    | with_reducible refine keep_tlgRefuse KT ?_
    | with_reducible refine keep_raiseTls KR KF Kg KT ?_
    | with_reducible refine KT.setTls _ _ ?_ ?_
    | split
    | dsimp only
    | (intro; simp only [List.length_append, List.length_cons, List.length_nil]; omega)

theorem keep_tlgTake (KT : KeepTls P) {s : State} {q : ReqCtx} {b : List Byte} {cb : List Byte}
    (hP : P s)  : P (State.tlgTake s q b cb) := by
  unfold State.tlgTake
  extract_lets x0 x1 x2 x3
  try clear_value x1
  try clear_value x2
  try clear_value x3
  repeat' first
    | with_reducible assumption
    | with_reducible refine keep_tlgRefuse KT ?_
    | with_reducible refine KT.setTls _ _ ?_ ?_
    | split
    | dsimp only
    | exact fun hq => hq

theorem keep_tlgExpire (KT : KeepTls P) {s : State}
    (hP : P s)  : P (State.tlgExpire s) := by
  unfold State.tlgExpire
  extract_lets x0
  repeat' first
    | with_reducible assumption
    | with_reducible refine KT.setTls _ _ ?_ ?_
    | with_reducible refine keep_say KT ?_
    | split
    | dsimp only
    | exact fun hq => hq

theorem keep_checkSeal (KT : KeepTls P) {s : State} {o : CycleObs}
    (hP : P s)  : P (State.checkSeal s o) := by
  unfold State.checkSeal
  extract_lets x0 x1 x2
  have k1 : P x1 := by
    unfold x1
    repeat' first
      | with_reducible assumption
      | with_reducible refine KT.setTls _ _ ?_ ?_
      | dsimp only
      | exact fun hq => hq
  try clear_value x1
  try clear_value x2
  repeat' first
    | with_reducible assumption
    | with_reducible refine keep_toNoparam KT ?_
    | with_reducible refine keep_say KT ?_
    | split

theorem keep_readback (KT : KeepTls P) {s : State} {o : CycleObs} {x : Nat}
    (hP : P s)  : P (State.readback s o x) := by
  unfold State.readback
  repeat' first
    | with_reducible assumption
    | with_reducible refine keep_setDrive KT ?_

theorem keep_readbackBad (KT : KeepTls P) {s : State} {x : Nat}
    (hP : P s)  : P (State.readbackBad s x) := by
  unfold State.readbackBad
  extract_lets x0 x1 x2
  try clear_value x0
  try clear_value x1
  have k2 : P x2 := by
    unfold x2
    repeat' first
      | with_reducible assumption
      | with_reducible refine keep_lockout KT ?_
      | with_reducible refine keep_say KT ?_
      | split
  try clear_value x2
  repeat' first
    | with_reducible assumption
    | with_reducible refine keep_lockout KT ?_
    | with_reducible refine keep_say KT ?_
    | split

theorem keep_rstHeld (KT : KeepTls P) {s : State}
    (hP : P s)  : P (State.rstHeld s) := by
  unfold State.rstHeld
  extract_lets x0
  repeat' first
    | with_reducible assumption
    | with_reducible refine KT.setTls _ _ ?_ ?_
    | with_reducible refine keep_say KT ?_
    | split
    | dsimp only
    | exact fun hq => hq

theorem keep_sampleRst (KT : KeepTls P) {s : State} {o : CycleObs}
    (hP : P s)  : P (State.sampleRst s o) := by
  unfold State.sampleRst
  extract_lets x0
  repeat' first
    | with_reducible assumption
    | with_reducible refine KT.setTls _ _ ?_ ?_
    | with_reducible refine keep_rstHeld KT ?_
    | dsimp only
    | exact fun hq => hq

theorem keep_keepCommands (KT : KeepTls P) {s : State} {c : Bool}
    (hP : P s)  : P (State.keepCommands s c) := by
  unfold State.keepCommands
  extract_lets x0
  try clear_value x0
  repeat' first
    | with_reducible assumption
    | with_reducible refine keep_setSch KT ?_

theorem keep_compareWord (KT : KeepTls P) {s : State} {c : Bool} {g : Nat} {w : Option Nat}
    (hP : P s)  : P (State.compareWord s c g w) := by
  unfold State.compareWord
  extract_lets x0
  try clear_value x0
  repeat' first
    | with_reducible assumption
    | with_reducible refine keep_setSch KT ?_
    | with_reducible refine keep_allFault KT ?_
    | with_reducible refine keep_sayOnce KT ?_
    | with_reducible refine keep_lockout KT ?_
    | with_reducible refine keep_say KT ?_
    | split
    | dsimp only

theorem keep_setCounts (KT : KeepTls P) {s : State} {i : Nat} {bad : Bool}
    (hP : P s)  : P (State.setCounts s i bad) := by
  unfold State.setCounts
  extract_lets x0 x1 x2 x3
  try clear_value x0
  try clear_value x1
  have k2 : P x2 := by
    unfold x2
    repeat' first
      | with_reducible assumption
      | with_reducible refine keep_setAxis KT ?_
  try clear_value x2
  have k3 : P x3 := by
    unfold x3
    repeat' first
      | with_reducible assumption
      | with_reducible refine keep_axToFault KT ?_
      | split
  try clear_value x3
  repeat' first
    | with_reducible assumption
    | with_reducible refine keep_say KT ?_
    | split

theorem keep_compareWords (KT : KeepTls P) {s : State} {g : Nat} {wa : Option Nat}
    (hP : P s)  : P (State.compareWords s g wa) := by
  unfold State.compareWords
  extract_lets x0 x1 x2 x3 x4
  try clear_value x0
  have k2 : P x2 := by
    unfold x2
    repeat' first
      | with_reducible assumption
      | with_reducible refine KT.setTls _ _ ?_ ?_
      | dsimp only
      | exact fun hq => hq
  try clear_value x2
  have k3 : P x3 := by
    unfold x3
    repeat' first
      | with_reducible assumption
      | with_reducible refine keep_compareWord KT ?_
  try clear_value x3
  try clear_value x4
  repeat' first
    | with_reducible assumption
    | with_reducible refine keep_setCounts KT ?_
    | (with_reducible refine keep_forEach ?_ ?_)
    | (intro s x hx)

theorem keep_applySet (KT : KeepTls P) {s : State}
    (hP : P s)  : P (State.applySet s) := by
  unfold State.applySet
  extract_lets x0 x1
  try clear_value x1
  repeat' first
    | with_reducible assumption
    | with_reducible refine KT.setTls _ _ ?_ ?_
    | with_reducible refine keep_bothDrives KT ?_
    | with_reducible refine keep_say KT ?_
    | (with_reducible refine keep_forEach ?_ ?_)
    | (intro s x hx)
    | split
    | dsimp only
    | exact fun hq => hq

theorem keep_timingClear (KT : KeepTls P) {s : State}
    (hP : P s)  : P (State.timingClear s) := by
  unfold State.timingClear
  extract_lets x0
  repeat' first
    | with_reducible assumption
    | with_reducible refine KT.setTls _ _ ?_ ?_
    | split
    | dsimp only
    | exact fun hq => hq

theorem keep_timingFault (KT : KeepTls P) {s : State}
    (hP : P s)  : P (State.timingFault s) := by
  unfold State.timingFault
  extract_lets x0 x1 x2
  try clear_value x0
  have k2 : P x2 := by
    unfold x2
    repeat' first
      | with_reducible assumption
      | with_reducible refine KT.setTls _ _ ?_ ?_
      | with_reducible refine keep_allFault KT ?_
      | dsimp only
      | exact fun hq => hq
  try clear_value x2
  repeat' first
    | with_reducible assumption
    | with_reducible refine keep_say KT ?_
    | split

theorem keep_checkGap (KT : KeepTls P) {s : State} {packets : Nat}
    (hP : P s)  : P (State.checkGap s packets) := by
  unfold State.checkGap
  extract_lets x0 x1 x2 x3 x4
  try clear_value x0
  try clear_value x1
  have k3 : P x3 := by
    unfold x3
    repeat' first
      | with_reducible assumption
      | with_reducible refine KT.setTls _ _ ?_ ?_
      | with_reducible refine keep_timingClear KT ?_
      | with_reducible refine keep_timingFault KT ?_
      | split
      | dsimp only
      | exact fun hq => hq
  try clear_value x3
  repeat' first
    | with_reducible assumption
    | with_reducible refine KT.setTls _ _ ?_ ?_
    | dsimp only
    | exact fun hq => hq

theorem keep_cycleEnd (KR : KeepRegs P) (KF : KeepFlt P) (Kg : KeepLog P) (KT : KeepTls P) {s : State}
    (hP : P s)  : P (State.cycleEnd s) := by
  unfold State.cycleEnd
  extract_lets x0 x1 x2 x3
  have k0 : P x0 := by
    unfold x0
    repeat' first
      | with_reducible assumption
      | with_reducible refine keep_brake KT ?_
      | (with_reducible refine keep_forEach ?_ ?_)
      | (intro s x hx)
  try clear_value x0
  have k1 : P x1 := by
    unfold x1
    repeat' first
      | with_reducible assumption
      | with_reducible refine keep_showTls KR ?_
  try clear_value x1
  try clear_value x2
  repeat' first
    | with_reducible assumption
    | with_reducible refine KT.setTls _ _ ?_ ?_
    | with_reducible refine keep_raiseTls KR KF Kg KT ?_
    | dsimp only
    | exact fun hq => hq

theorem keep_cycleSample (KT : KeepTls P) (KL : KeepTime P) {s : State} {o : CycleObs}
    (hP : P s)  : P (State.cycleSample s o) := by
  unfold State.cycleSample
  extract_lets x0 x1 x2 x3 x4
  have k0 : P x0 := by
    unfold x0
    repeat' first
      | with_reducible assumption
      | with_reducible refine keep_moveTo KL ?_
      | with_reducible refine keep_keepCommands KT ?_
  try clear_value x0
  have k2 : P x2 := by
    unfold x2
    repeat' first
      | with_reducible assumption
      | with_reducible refine KT.setTls _ _ ?_ ?_
      | dsimp only
      | exact fun hq => hq
  try clear_value x2
  have k3 : P x3 := by
    unfold x3
    repeat' first
      | with_reducible assumption
      | with_reducible refine keep_checkGap KT ?_
      | with_reducible refine keep_checkSeal KT ?_
  try clear_value x3
  have k4 : P x4 := by
    unfold x4
    repeat' first
      | with_reducible assumption
      | with_reducible refine keep_sampleInput KT ?_
      | with_reducible refine keep_sampleRst KT ?_
      | (with_reducible refine keep_forEach ?_ ?_)
      | (intro s x hx)
  try clear_value x4
  repeat' first
    | with_reducible assumption
    | with_reducible refine keep_readback KT ?_
    | with_reducible refine keep_latchCounts KT ?_
    | (with_reducible refine keep_forEach ?_ ?_)
    | (intro s x hx)

theorem keep_cycleTake (KT : KeepTls P) {s : State}
    (hP : P s)  : P (State.cycleTake s) := by
  unfold State.cycleTake
  extract_lets x0 x1
  try clear_value x0
  repeat' first
    | with_reducible assumption
    | with_reducible refine KT.setTls _ _ ?_ ?_
    | with_reducible refine keep_tlgTake KT ?_
    | with_reducible refine keep_tlgExpire KT ?_
    | with_reducible refine keep_applySet KT ?_
    | (with_reducible refine keep_forEach ?_ ?_)
    | (intro s x hx)
    | dsimp only
    | exact fun _ => Nat.zero_le 4

theorem keep_takeStop (KF : KeepFlt P) (KT : KeepTls P) {s : State}
    (hP : P s)  : P (State.takeStop s) := by
  unfold State.takeStop
  exact ite_keep (fun _ => keep_collect KF KT hP) (fun _ => hP)


theorem keep_cycleEvaluate (KF : KeepFlt P) (KT : KeepTls P) {s : State} {g : Nat} {wa : Option Nat}
    (hP : P s)  : P (State.cycleEvaluate s g wa) := by
  unfold State.cycleEvaluate
  extract_lets x0 x1
  have k0 : P x0 := by
    unfold x0
    repeat' first
      | with_reducible assumption
      | with_reducible refine keep_compareWords KT ?_
      | with_reducible refine keep_readbackBad KT ?_
      | with_reducible refine keep_takeStop KF KT ?_
      | (with_reducible refine keep_forEach ?_ ?_)
      | (intro s x hx)
  try clear_value x0
  have k1 : P x1 := by
    unfold x1
    repeat' first
      | with_reducible assumption
      | with_reducible refine keep_trackInput KT ?_
      | (with_reducible refine keep_forEach ?_ ?_)
      | (intro s x hx)
  try clear_value x1
  repeat' first
    | with_reducible assumption
    | with_reducible refine keep_evalAxis KT ?_
    | (with_reducible refine keep_forEach ?_ ?_)
    | (intro s x hx)

theorem keep_cycleReset (KT : KeepTls P) {s : State}
    (hP : P s)  : P (State.cycleReset s) := by
  unfold State.cycleReset
  extract_lets x0
  have k0 : P x0 := by
    unfold x0
    repeat' first
      | with_reducible assumption
      | with_reducible refine keep_takeRst KT ?_
      | with_reducible refine keep_resetEdge KT ?_
      | split
  try clear_value x0
  repeat' first
    | with_reducible assumption
    | with_reducible refine keep_autoRestart KT ?_
    | (with_reducible refine keep_forEach ?_ ?_)
    | (intro s x hx)

theorem keep_cycleDecide (KR : KeepRegs P) (KF : KeepFlt P) (Kg : KeepLog P) (KT : KeepTls P) {s : State} {wa : Option Nat}
    (hP : P s)  : P (State.cycleDecide s wa) := by
  unfold State.cycleDecide
  repeat' first
    | with_reducible assumption
    | with_reducible refine keep_cycleTake KT ?_
    | with_reducible refine keep_cycleEvaluate KF KT ?_
    | with_reducible refine keep_cycleReset KT ?_
    | with_reducible refine keep_cycleEnd KR KF Kg KT ?_

theorem keep_safetyCycle (KR : KeepRegs P) (Ko : KeepOut P) (KF : KeepFlt P) (Kg : KeepLog P) (KT : KeepTls P) (KL : KeepTime P) (Kd : KeepDlk P) {s : State} {o : CycleObs}
    (hP : P s)  : P (State.safetyCycle s o) := by
  unfold State.safetyCycle
  extract_lets x0 x1
  have k0 : P x0 := by
    unfold x0
    repeat' first
      | with_reducible assumption
      | with_reducible refine keep_cycleSample KT KL ?_
  try clear_value x0
  try clear_value x1
  repeat' first
    | with_reducible assumption
    | with_reducible refine keep_dieSend Ko Kd ?_
    | with_reducible refine keep_cycleDecide KR KF Kg KT ?_
    | split

theorem keep_execInputFilterChange (KT : KeepTls P) {chB : Bool} {j : Fin 16} {s : State}
    (hP : P s) {u : State} (e : execInputFilterChange chB j s = .next u) : P u := by
  unfold execInputFilterChange at e
  refine keep_act hP ?_ e
  clear e
  repeat' first
    | with_reducible assumption
    | with_reducible refine keep_filterTurn KT ?_

theorem keep_execDiscrepancyTimeout (KR : KeepRegs P) (KF : KeepFlt P) (Kg : KeepLog P) (KT : KeepTls P) {j : Fin 16} {s : State}
    (hP : P s) {u : State} (e : execDiscrepancyTimeout j s = .next u) : P u := by
  unfold execDiscrepancyTimeout at e
  refine keep_act hP ?_ e
  clear e
  repeat' first
    | with_reducible assumption
    | with_reducible refine keep_discrepancy KT ?_
    | with_reducible refine keep_raiseTls KR KF Kg KT ?_

theorem keep_tpLow (KT : KeepTls P) {s : State} {x : Option Nat} (h : P s) : P { s with tls := { s.tls with tpLow := x } } :=
  KT.tls s _ (fun hq => hq) h

theorem keep_execTestPulseStart (Ko : KeepOut P) (KT : KeepTls P) (KL : KeepTime P) {s : State} (hP : P s) {u : State} (e : execTestPulseStart s = .next u) : P u := by
  unfold execTestPulseStart at e
  refine keep_act hP ?_ e
  clear e
  split
  · split
    · exact keep_emit Ko (keep_tpLow KT (keep_moveTo KL hP))
    · exact hP
  · exact hP


theorem keep_execTestPulseEnd (Ko : KeepOut P) (KT : KeepTls P) (KL : KeepTime P) {s : State}
    (hP : P s) {u : State} (e : execTestPulseEnd s = .next u) : P u := by
  unfold execTestPulseEnd at e
  refine keep_act hP ?_ e
  clear e
  split
  · split
    · exact hP
    · exact keep_emit Ko (keep_tpLow KT (keep_moveTo KL hP))
  · exact hP


theorem keep_execEncoderEdge (KR : KeepRegs P) (KF : KeepFlt P) (Kg : KeepLog P) (KT : KeepTls P) {x : Fin 4} {tracks : Fin 4} {fast : Bool} {s : State}
    (hP : P s) {u : State} (e : execEncoderEdge x tracks fast s = .next u) : P u := by
  unfold execEncoderEdge at e
  refine keep_act hP ?_ e
  clear e
  extract_lets x0 x1
  try clear_value x0
  have k1 : P x1 := by
    unfold x1
    repeat' first
      | with_reducible assumption
      | with_reducible refine keep_setAxis KT ?_
  try clear_value x1
  repeat' first
    | with_reducible assumption
    | with_reducible refine keep_bothDrives KT ?_
    | with_reducible refine keep_axToFault KT ?_
    | with_reducible refine keep_raise KR KF Kg ?_
    | split

theorem keep_execSs1TimeLimit (KR : KeepRegs P) (KF : KeepFlt P) (Kg : KeepLog P) (KT : KeepTls P) {x : Fin 4} {s : State}
    (hP : P s) {u : State} (e : execSs1TimeLimit x s = .next u) : P u := by
  unfold execSs1TimeLimit at e
  refine keep_act hP ?_ e
  clear e
  repeat' first
    | with_reducible assumption
    | with_reducible refine keep_ss1Check KT ?_
    | with_reducible refine keep_raiseTls KR KF Kg KT ?_

theorem keep_execSbcRelease (KT : KeepTls P) {x : Fin 4} {s : State}
    (hP : P s) {u : State} (e : execSbcRelease x s = .next u) : P u := by
  unfold execSbcRelease at e
  refine keep_act hP ?_ e
  clear e
  repeat' first
    | with_reducible assumption
    | with_reducible refine keep_brake KT ?_

theorem keep_execOutputOffTest (KR : KeepRegs P) (Ko : KeepOut P) (KF : KeepFlt P) (Kg : KeepLog P) (KT : KeepTls P) {x : Fin 4} {chB : Bool} {sbc : Bool} {low : Bool} {s : State}
    (hP : P s) {u : State} (e : execOutputOffTest x chB sbc low s = .next u) : P u := by
  unfold execOutputOffTest at e
  refine keep_act hP ?_ e
  clear e
  extract_lets x0 x1 x2
  try clear_value x0
  try clear_value x1
  have k2 : P x2 := by
    unfold x2
    repeat' first
      | with_reducible assumption
      | with_reducible refine keep_emit Ko ?_
  try clear_value x2
  repeat' first
    | with_reducible assumption
    | with_reducible refine keep_lockout KT ?_
    | with_reducible refine keep_say KT ?_
    | with_reducible refine keep_raiseTls KR KF Kg KT ?_
    | split

theorem keep_execSafeRstEdge (KR : KeepRegs P) (KF : KeepFlt P) (Kg : KeepLog P) (KT : KeepTls P) {s : State}
    (hP : P s) {u : State} (e : execSafeRstEdge s = .next u) : P u := by
  unfold execSafeRstEdge at e
  refine keep_act hP ?_ e
  clear e
  repeat' first
    | with_reducible assumption
    | with_reducible refine keep_takeRst KT ?_
    | with_reducible refine keep_resetEdge KT ?_
    | with_reducible refine keep_raiseTls KR KF Kg KT ?_
    | split

theorem keep_execSafeRstHeld (KR : KeepRegs P) (KF : KeepFlt P) (Kg : KeepLog P) (KT : KeepTls P) {s : State}
    (hP : P s) {u : State} (e : execSafeRstHeld s = .next u) : P u := by
  unfold execSafeRstHeld at e
  refine keep_act hP ?_ e
  clear e
  repeat' first
    | with_reducible assumption
    | with_reducible refine keep_rstHeld KT ?_
    | with_reducible refine keep_raiseTls KR KF Kg KT ?_

theorem keep_execTelegramWatchdog (KR : KeepRegs P) (KF : KeepFlt P) (Kg : KeepLog P) (KT : KeepTls P) {s : State}
    (hP : P s) {u : State} (e : execTelegramWatchdog s = .next u) : P u := by
  unfold execTelegramWatchdog at e
  refine keep_act hP ?_ e
  clear e
  repeat' first
    | with_reducible assumption
    | with_reducible refine keep_tlgExpire KT ?_
    | with_reducible refine keep_raiseTls KR KF Kg KT ?_

theorem keep_execCycleTimeout (KR : KeepRegs P) (KF : KeepFlt P) (Kg : KeepLog P) (KT : KeepTls P) (KL : KeepTime P) {s : State}
    (hP : P s) {u : State} (e : execCycleTimeout s = .next u) : P u := by
  unfold execCycleTimeout at e
  refine keep_act hP ?_ e
  clear e
  repeat' first
    | with_reducible assumption
    | with_reducible refine keep_pass KL ?_
    | with_reducible refine keep_timingFault KT ?_
    | with_reducible refine keep_raiseTls KR KF Kg KT ?_
    | split
    | dsimp only

theorem keep_execCycleFaultClear (KT : KeepTls P) {s : State}
    (hP : P s) {u : State} (e : execCycleFaultClear s = .next u) : P u := by
  unfold execCycleFaultClear at e
  refine keep_act hP ?_ e
  clear e
  repeat' first
    | with_reducible assumption
    | with_reducible refine keep_timingClear KT ?_

theorem keep_execParamCrcCheck (KR : KeepRegs P) (KF : KeepFlt P) (Kg : KeepLog P) (KT : KeepTls P) {ok : Bool} {s : State}
    (hP : P s) {u : State} (e : execParamCrcCheck ok s = .next u) : P u := by
  unfold execParamCrcCheck at e
  refine keep_act hP ?_ e
  clear e
  repeat' first
    | with_reducible assumption
    | with_reducible refine keep_lockout KT ?_
    | with_reducible refine keep_raiseTls KR KF Kg KT ?_
    | split

end Sys2Proof.Machine
end

