-- ==== Sys2Proof/Laws/KeepHeadstock.lean ====
section
/-! SUPPORT. What the operations of Machine/Headstock.lean keep (see Laws/Keep.lean). -/
namespace Sys2Proof.Machine
variable {P : State → Prop}

theorem KeepHs.setHs (K : KeepHs P) (s : State) (x : HsState) (hq : s.hs.Bounded → x.Bounded) (h : P s) : P (State.setHs s x) :=
  K.hs s x hq h

theorem keep_spiPut (KH : KeepHs P) {s : State} {bs : List Byte} (hP : P s) : P (s.spiPut bs) := by
  unfold State.spiPut
  extract_lets x0
  split
  · rename_i h
    refine KH.setHs _ _ (fun hq => ⟨?_, hq.2.1, hq.2.2⟩) hP
    simp only [List.length_append, List.length_cons, List.length_nil]
    exact h.2
  · exact KH.setHs _ _ (fun hq => hq) hP


theorem keep_spiRing (KH : KeepHs P) {s : State} {k : Nat} {bs : List Byte}
    (hP : P s)  : P (State.spiRing s k bs) := by
  unfold State.spiRing
  dsimp only
  split
  · rename_i h
    refine KH.setHs _ _ (fun hq => ⟨?_, hq.2.1, hq.2.2⟩) hP
    simp only [List.length_append, List.length_cons, List.length_nil]
    exact h.2.2
  · exact KH.setHs _ _ (fun hq => ⟨hq.1, hq.2.1, hq.2.2⟩) hP


theorem keep_spiPop (Ko : KeepOut P) (Kl : KeepLnk P) (KH : KeepHs P) {s : State}
    (hP : P s)  : P (State.spiPop s) := by
  unfold State.spiPop
  dsimp only
  split
  · refine KH.setHs _ _ (fun hq => ⟨?_, hq.2.1, hq.2.2⟩) hP
    have := hq.1
    simp only [List.length_append, List.length_drop, List.length_cons, List.length_nil]
    omega
  · refine keep_freeBlocks Ko Kl (KH.setHs _ _ (fun hq => ⟨?_, hq.2.1, hq.2.2⟩) hP)
    have := hq.1
    simp only [List.length_append, List.length_drop, List.length_cons, List.length_nil]
    omega
  · refine KH.setHs _ _ (fun hq => ⟨?_, hq.2.1, hq.2.2⟩) hP
    have := hq.1
    simp only [List.length_drop]
    omega


theorem keep_sendVc2 (Ko : KeepOut P) (Kl : KeepLnk P) {s : State} {k : Nat} {q : ReqCtx} {dest : Nat} {flags : Nat} {hops : Nat} {bs : List Byte}
    (hP : P s)  : P (State.sendVc2 s k q dest flags hops bs) := by
  unfold State.sendVc2
  repeat' first
    | with_reducible assumption
    | with_reducible refine keep_sendCell Ko Kl ?_
    | (with_reducible refine keep_forEach ?_ ?_)
    | (intro s x hx)

theorem keep_replyOut (Ko : KeepOut P) (Kl : KeepLnk P) (KH : KeepHs P) {s : State} {q : ReqCtx} {bs : List Byte}
    (hP : P s)  : P (State.replyOut s q bs) := by
  unfold State.replyOut
  repeat' first
    | with_reducible assumption
    | with_reducible refine keep_sendCmdUdp Ko ?_
    | with_reducible refine keep_sendVc2 Ko Kl ?_
    | with_reducible refine keep_spiPut KH ?_
    | split

theorem keep_sendReply (Ko : KeepOut P) (Kl : KeepLnk P) (KH : KeepHs P) {s : State} {q : ReqCtx} {st : Nat} {p : List Byte}
    (hP : P s)  : P (State.sendReply s q st p) := by
  unfold State.sendReply
  extract_lets x0
  try clear_value x0
  repeat' first
    | with_reducible assumption
    | with_reducible refine keep_replyOut Ko Kl KH ?_
    | (with_reducible refine keep_forEach ?_ ?_)
    | (intro s x hx)

theorem keep_noteRefusal (KR : KeepRegs P) (KF : KeepFlt P) (Kg : KeepLog P) {s : State} {q : ReqCtx} {st : Nat}
    (hP : P s)  : P (State.noteRefusal s q st) := by
  unfold State.noteRefusal
  extract_lets x0 x1 x2
  have k0 : P x0 := by
    unfold x0
    repeat' first
      | with_reducible assumption
      | with_reducible refine KR.setReg _ _ _ ?_
  try clear_value x0
  have k1 : P x1 := by
    unfold x1
    repeat' first
      | with_reducible assumption
      | with_reducible refine keep_bump KR ?_
  try clear_value x1
  have k2 : P x2 := by
    unfold x2
    repeat' first
      | with_reducible assumption
      | with_reducible refine keep_bump KR ?_
      | split
  try clear_value x2
  repeat' first
    | with_reducible assumption
    | with_reducible refine keep_raiseHub KR KF Kg ?_
    | split

theorem keep_finish (KR : KeepRegs P) (Ko : KeepOut P) (KF : KeepFlt P) (Kg : KeepLog P) (Kl : KeepLnk P) (KH : KeepHs P) {s : State} {q : ReqCtx} {st : Nat} {p : List Byte}
    (hP : P s)  : P (State.finish s q st p) := by
  unfold State.finish
  extract_lets x0 x1 x2
  have k0 : P x0 := by
    unfold x0
    repeat' first
      | with_reducible assumption
      | with_reducible refine keep_noteRefusal KR KF Kg ?_
      | split
  try clear_value x0
  have k1 : P x1 := by
    unfold x1
    repeat' first
      | with_reducible assumption
      | with_reducible refine keep_sendReply Ko Kl KH ?_
      | split
  try clear_value x1
  repeat' first
    | with_reducible assumption
    | with_reducible refine KH.setHs _ _ ?_ ?_
    | exact fun hq => hq

theorem keep_refuseAt (KR : KeepRegs P) (Ko : KeepOut P) (KF : KeepFlt P) (Kg : KeepLog P) (Kl : KeepLnk P) (KH : KeepHs P) {s : State} {q : ReqCtx} {st : Nat}
    (hP : P s)  : P (State.refuseAt s q st).1 := by
  unfold State.refuseAt
  extract_lets x0
  have k0 : P x0 := by
    unfold x0
    repeat' first
      | with_reducible assumption
      | with_reducible refine keep_noteRefusal KR KF Kg ?_
  try clear_value x0
  repeat' first
    | with_reducible assumption
    | with_reducible refine keep_sendReply Ko Kl KH ?_
    | split

theorem keep_drainAnswers (KR : KeepRegs P) (Ko : KeepOut P) (KF : KeepFlt P) (Kg : KeepLog P) (KT : KeepTls P) (Kl : KeepLnk P) (KH : KeepHs P) {s : State}
    (hP : P s)  : P (State.drainAnswers s) := by
  unfold State.drainAnswers
  extract_lets x0 x1
  try clear_value x0
  repeat' first
    | with_reducible assumption
    | with_reducible refine KT.setTls _ _ ?_ ?_
    | with_reducible refine keep_finish KR Ko KF Kg Kl KH ?_
    | (with_reducible refine keep_forEach ?_ ?_)
    | (intro s x hx)
    | dsimp only
    | exact fun hq => hq

theorem keep_crcDiscard (KR : KeepRegs P) (KF : KeepFlt P) (Kg : KeepLog P) {s : State}
    (hP : P s)  : P (State.crcDiscard s) := by
  unfold State.crcDiscard
  repeat' first
    | with_reducible assumption
    | with_reducible refine keep_bump KR ?_
    | with_reducible refine keep_raiseHub KR KF Kg ?_

theorem keep_cmdRead (KR : KeepRegs P) (Ko : KeepOut P) (Ky : KeepHeld P) (KF : KeepFlt P) (Kg : KeepLog P) (Kd : KeepDlk P) (Kp : KeepCap P) (Ke : KeepGge P) {s : State} {l : List Nat}
    (hP : P s)  : P (State.cmdRead s l).1 := by
  unfold State.cmdRead
  repeat' first
    | with_reducible assumption
    | with_reducible refine keep_readAll KR Ko Ky KF Kg Kd Kp Ke ?_
    | split

theorem keep_cmdWrites (KR : KeepRegs P) (Ka : KeepAct P) (Ko : KeepOut P) (Ky : KeepHeld P) (KF : KeepFlt P) (KM : KeepMem P) (Kg : KeepLog P) (KT : KeepTls P) (KW : KeepPwr P) (KL : KeepTime P) (KS : KeepSpn P) (Kd : KeepDlk P) (Kc : KeepClu P) (Kv : KeepConv P) (Kr : KeepRgn P) (Kh : KeepChan P) (Km : KeepMains P) (Kb : KeepStr P) (Kp : KeepCap P) (Ke : KeepGge P) (Kk : KeepGaps P) (Kl : KeepLnk P) (Kn : KeepLane P) (Ks : KeepSeg P) (Ki : KeepRing P) (KH : KeepHs P) (KQ : KeepSnap P) {s : State} {blocked : Bool} {via : Via} {ws : List (Nat × Word)}
    (hP : P s)  : P (State.cmdWrites s blocked via ws).1 := by
  unfold State.cmdWrites
  extract_lets x0
  try clear_value x0
  repeat' first
    | with_reducible assumption
    | with_reducible refine keep_accessWrite KR Ka Ko Ky KF KM Kg KT KW KL KS Kd Kc Kv Kr Kh Km Kb Kp Ke Kk Kl Kn Ks Ki KH KQ ?_
    | split

theorem keep_cmdWrite (KR : KeepRegs P) (Ka : KeepAct P) (Ko : KeepOut P) (Ky : KeepHeld P) (KF : KeepFlt P) (KM : KeepMem P) (Kg : KeepLog P) (KT : KeepTls P) (KW : KeepPwr P) (KL : KeepTime P) (KS : KeepSpn P) (Kd : KeepDlk P) (Kc : KeepClu P) (Kv : KeepConv P) (Kr : KeepRgn P) (Kh : KeepChan P) (Km : KeepMains P) (Kb : KeepStr P) (Kp : KeepCap P) (Ke : KeepGge P) (Kk : KeepGaps P) (Kl : KeepLnk P) (Kn : KeepLane P) (Ks : KeepSeg P) (Ki : KeepRing P) (KH : KeepHs P) (KQ : KeepSnap P) {s : State} {blocked : Bool} {via : Via} {ws : List (Nat × Word)}
    (hP : P s)  : P (State.cmdWrite s blocked via ws).1 := by
  unfold State.cmdWrite
  repeat' first
    | with_reducible assumption
    | with_reducible refine keep_cmdWrites KR Ka Ko Ky KF KM Kg KT KW KL KS Kd Kc Kv Kr Kh Km Kb Kp Ke Kk Kl Kn Ks Ki KH KQ ?_

theorem keep_cmdMask (KR : KeepRegs P) (Ka : KeepAct P) (Ko : KeepOut P) (Ky : KeepHeld P) (KF : KeepFlt P) (KM : KeepMem P) (Kg : KeepLog P) (KT : KeepTls P) (KW : KeepPwr P) (KL : KeepTime P) (KS : KeepSpn P) (Kd : KeepDlk P) (Kc : KeepClu P) (Kv : KeepConv P) (Kr : KeepRgn P) (Kh : KeepChan P) (Km : KeepMains P) (Kb : KeepStr P) (Kp : KeepCap P) (Ke : KeepGge P) (Kk : KeepGaps P) (Kl : KeepLnk P) (Kn : KeepLane P) (Ks : KeepSeg P) (Ki : KeepRing P) (KH : KeepHs P) (KQ : KeepSnap P) {s : State} {blocked : Bool} {via : Via} {a : Nat} {m : Word} {v : Word}
    (hP : P s)  : P (State.cmdMask s blocked via a m v).1 := by
  unfold State.cmdMask
  extract_lets x0 x1
  try clear_value x0
  try clear_value x1
  repeat' first
    | with_reducible assumption
    | with_reducible refine keep_readWord KR Ko Ky KF Kg Kd Kp Ke ?_
    | with_reducible refine keep_writeWord KR Ka Ko Ky KF KM Kg KT KW KL KS Kd Kc Kv Kr Kh Km Kb Kp Ke Kk Kl Kn Ks Ki KH KQ ?_
    | with_reducible refine keep_cmdWrites KR Ka Ko Ky KF KM Kg KT KW KL KS Kd Kc Kv Kr Kh Km Kb Kp Ke Kk Kl Kn Ks Ki KH KQ ?_
    | split

theorem keep_wordEntry (KR : KeepRegs P) (Ko : KeepOut P) (Ky : KeepHeld P) (KF : KeepFlt P) (Kg : KeepLog P) (Kd : KeepDlk P) (Kp : KeepCap P) (Ke : KeepGge P) {s : State} {n : Nat}
    (hP : P s)  : P (State.wordEntry s n).1 := by
  unfold State.wordEntry
  repeat' first
    | with_reducible assumption
    | with_reducible refine keep_readAll KR Ko Ky KF Kg Kd Kp Ke ?_

theorem keep_cmdWords (KR : KeepRegs P) (Ko : KeepOut P) (Ky : KeepHeld P) (KF : KeepFlt P) (Kg : KeepLog P) (Kd : KeepDlk P) (Kp : KeepCap P) (Ke : KeepGge P) {s : State} {l : List Nat} (h : P s) : P (s.cmdWords l).1 := by
  induction l generalizing s with
  | nil => exact h
  | cons a t ih => exact ih (keep_wordEntry KR Ko Ky KF Kg Kd Kp Ke h)


theorem keep_cmdSnap (KR : KeepRegs P) (Ko : KeepOut P) (Kk : KeepGaps P) (Kl : KeepLnk P) (KQ : KeepSnap P) {s : State} {time : Nat} {late : Bool} {uni : Bool}
    (hP : P s)  : P (State.cmdSnap s time late uni).1 := by
  unfold State.cmdSnap
  extract_lets x0 x1
  try clear_value x0
  try clear_value x1
  repeat' first
    | with_reducible assumption
    | with_reducible refine keep_snapRequest KR KQ ?_
    | with_reducible refine keep_sendVc1 Ko Kk Kl ?_
    | with_reducible refine keep_fst (by assumption) ?_
    | split

theorem keep_cmdSnapshot (KR : KeepRegs P) (Ko : KeepOut P) (Kk : KeepGaps P) (Kl : KeepLnk P) (KQ : KeepSnap P) {s : State} {uni : Bool} {p : List Byte}
    (hP : P s)  : P (State.cmdSnapshot s uni p).1 := by
  unfold State.cmdSnapshot
  have go : ∀ (t : Nat) (l : Bool) (r : Nat × List Byte), P (match s.cmdSnap t l uni with
      | (s, some t) => ((s, some (stOk, ltBytes t ++ beBytes 2 0)) : CmdRes)
      | (s, none) => (s, some r)).1 := by
    intro t l r
    have k := keep_cmdSnap KR Ko Kk Kl KQ (s := s) (time := t) (late := l) (uni := uni) hP
    generalize s.cmdSnap t l uni = y at k
    obtain ⟨y, o⟩ := y
    cases o <;> exact k
  dsimp only
  split
  · split
    · split
      · exact go _ _ _
      · exact go _ _ _
    · exact hP
  · exact go _ _ _


theorem keep_cmdCapture (KR : KeepRegs P) (Ko : KeepOut P) (KF : KeepFlt P) (Kg : KeepLog P) (KS : KeepSpn P) (Kp : KeepCap P) (Kk : KeepGaps P) (Kl : KeepLnk P) {s : State} {mask : Nat}
    (hP : P s)  : P (State.cmdCapture s mask).1 := by
  unfold State.cmdCapture
  repeat' first
    | with_reducible assumption
    | with_reducible refine keep_capSoft KR Ko KF Kg KS Kp Kk Kl ?_
    | (with_reducible refine keep_forEach ?_ ?_)
    | (intro s x hx)

theorem keep_cmdHubid (KR : KeepRegs P) (Ko : KeepOut P) (Kl : KeepLnk P) (Ki : KeepRing P) {s : State} {p : List Byte}
    (hP : P s)  : P (State.cmdHubid s p).1 := by
  unfold State.cmdHubid
  extract_lets x0
  try clear_value x0
  repeat' first
    | with_reducible assumption
    | with_reducible refine keep_writeHubid KR Ko Kl Ki ?_
    | split

theorem keep_cmdPower (KR : KeepRegs P) (KF : KeepFlt P) (Kg : KeepLog P) (KW : KeepPwr P) (KL : KeepTime P) {s : State} {kind : Nat} {value : Nat}
    (hP : P s)  : P (State.cmdPower s kind value).1 := by
  unfold State.cmdPower
  repeat' first
    | with_reducible assumption
    | with_reducible refine keep_powerRequest KR KF Kg KW KL ?_
    | split

theorem keep_cmdReset (KW : KeepPwr P) {s : State} {p : List Byte}
    (hP : P s)  : P (State.cmdReset s p).1 := by
  unfold State.cmdReset
  extract_lets x0 x1
  try clear_value x0
  try clear_value x1
  repeat' first
    | with_reducible assumption
    | split
    | dsimp only
    | with_reducible refine KW.pwr _ _ ?_

theorem keep_cmdSafeParam (KR : KeepRegs P) (Ko : KeepOut P) (KF : KeepFlt P) (Kg : KeepLog P) (KT : KeepTls P) (Kd : KeepDlk P) {s : State} {p : List Byte}
    (hP : P s)  : P (State.cmdSafeParam s p).1 := by
  unfold State.cmdSafeParam
  repeat' first
    | with_reducible assumption
    | with_reducible refine keep_safeParam KR Ko KF Kg KT Kd ?_

theorem keep_cmdSafeTlg (KR : KeepRegs P) (Ko : KeepOut P) (KF : KeepFlt P) (Kg : KeepLog P) (KT : KeepTls P) (Kd : KeepDlk P) {s : State} {q : ReqCtx} {p : List Byte}
    (hP : P s)  : P (State.cmdSafeTlg s q p).1 := by
  unfold State.cmdSafeTlg
  repeat' first
    | with_reducible assumption
    | with_reducible refine keep_safeTlg KR Ko KF Kg KT Kd ?_

theorem ite_cases {α : Type} {P : α → Prop} {c : Prop} [Decidable c] {a b : α} (ha : c → P a) (hb : ¬c → P b) :
    P (if c then a else b) := by
  split
  · exact ha (by assumption)
  · exact hb (by assumption)

theorem keep_runCmd (KR : KeepRegs P) (Ka : KeepAct P) (Ko : KeepOut P) (Ky : KeepHeld P) (KF : KeepFlt P) (KM : KeepMem P) (Kg : KeepLog P) (KT : KeepTls P) (KW : KeepPwr P) (KL : KeepTime P) (KS : KeepSpn P) (Kd : KeepDlk P) (Kc : KeepClu P) (Kv : KeepConv P) (Kr : KeepRgn P) (Kh : KeepChan P) (Km : KeepMains P) (Kb : KeepStr P) (Kp : KeepCap P) (Ke : KeepGge P) (Kk : KeepGaps P) (Kl : KeepLnk P) (Kn : KeepLane P) (Ks : KeepSeg P) (Ki : KeepRing P) (KH : KeepHs P) (KQ : KeepSnap P) {s : State} {q : ReqCtx} {ver : Nat} {via : Via} {p : List Byte} (hP : P s) : P (s.runCmd q ver via p).1 := by
  unfold State.runCmd
  extract_lets x0
  iterate 4 refine ite_cases (P := fun r : CmdRes => P r.1) (fun _ => hP) (fun _ => ?_)
  refine ite_cases (P := fun r : CmdRes => P r.1) (fun _ => keep_cmdWrite KR Ka Ko Ky KF KM Kg KT KW KL KS Kd Kc Kv Kr Kh Km Kb Kp Ke Kk Kl Kn Ks Ki KH KQ hP) (fun _ => ?_)
  refine ite_cases (P := fun r : CmdRes => P r.1) (fun _ => keep_cmdMask KR Ka Ko Ky KF KM Kg KT KW KL KS Kd Kc Kv Kr Kh Km Kb Kp Ke Kk Kl Kn Ks Ki KH KQ hP) (fun _ => ?_)
  iterate 2 refine ite_cases (P := fun r : CmdRes => P r.1) (fun _ => hP) (fun _ => ?_)
  refine ite_cases (P := fun r : CmdRes => P r.1) (fun _ => keep_cmdRead KR Ko Ky KF Kg Kd Kp Ke hP) (fun _ => ?_)
  refine ite_cases (P := fun r : CmdRes => P r.1) (fun _ => keep_cmdWords KR Ko Ky KF Kg Kd Kp Ke hP) (fun _ => ?_)
  refine ite_cases (P := fun r : CmdRes => P r.1) (fun _ => keep_cmdSnapshot KR Ko Kk Kl KQ hP) (fun _ => ?_)
  refine ite_cases (P := fun r : CmdRes => P r.1) (fun _ => keep_cmdCapture KR Ko KF Kg KS Kp Kk Kl hP) (fun _ => ?_)
  refine ite_cases (P := fun r : CmdRes => P r.1) (fun _ => hP) (fun _ => ?_)
  refine ite_cases (P := fun r : CmdRes => P r.1) (fun _ => keep_cmdHubid KR Ko Kl Ki hP) (fun _ => ?_)
  refine ite_cases (P := fun r : CmdRes => P r.1) (fun _ => keep_cmdPower KR KF Kg KW KL hP) (fun _ => ?_)
  refine ite_cases (P := fun r : CmdRes => P r.1) (fun _ => keep_cmdReset KW hP) (fun _ => ?_)
  refine ite_cases (P := fun r : CmdRes => P r.1) (fun _ => keep_cmdSafeParam KR Ko KF Kg KT Kd hP) (fun _ => ?_)
  exact keep_cmdSafeTlg KR Ko KF Kg KT Kd hP


theorem keep_execCmd (KR : KeepRegs P) (Ka : KeepAct P) (Ko : KeepOut P) (Ky : KeepHeld P) (KF : KeepFlt P) (KM : KeepMem P) (Kg : KeepLog P) (KT : KeepTls P) (KW : KeepPwr P) (KL : KeepTime P) (KS : KeepSpn P) (Kd : KeepDlk P) (Kc : KeepClu P) (Kv : KeepConv P) (Kr : KeepRgn P) (Kh : KeepChan P) (Km : KeepMains P) (Kb : KeepStr P) (Kp : KeepCap P) (Ke : KeepGge P) (Kk : KeepGaps P) (Kl : KeepLnk P) (Kn : KeepLane P) (Ks : KeepSeg P) (Ki : KeepRing P) (KH : KeepHs P) (KQ : KeepSnap P) {s : State} {q : ReqCtx} {ver : Nat} {via : Via} {p : List Byte}
    (hP : P s)  : P (State.execCmd s q ver via p) := by
  unfold State.execCmd
  extract_lets x0
  repeat' first
    | with_reducible assumption
    | with_reducible refine KH.setHs _ _ ?_ ?_
    | with_reducible refine keep_runCmd KR Ka Ko Ky KF KM Kg KT KW KL KS Kd Kc Kv Kr Kh Km Kb Kp Ke Kk Kl Kn Ks Ki KH KQ ?_
    | with_reducible refine keep_finish KR Ko KF Kg Kl KH ?_
    | with_reducible refine keep_drainAnswers KR Ko KF Kg KT Kl KH ?_
    | with_reducible refine keep_fst (by assumption) ?_
    | split
    | dsimp only
    | exact fun hq => hq

theorem keep_hearSource (KH : KeepHs P) {s : State} {id : Nat}
    (hP : P s)  : P (State.hearSource s id) := by
  unfold State.hearSource
  split
  · rename_i y hy
    refine KH.setHs _ _ (fun hq => ⟨hq.1, ?_, hq.2.2⟩) hP
    have h1 := List.mem_of_find?_eq_some hy
    have h2 := List.find?_some hy
    have h3 : (s.hs.sources.filter (fun z => decide (z.id ≠ id))).length < s.hs.sources.length :=
      List.length_filter_lt_length_iff_exists.2 ⟨y, h1, by simpa using h2⟩
    have := hq.2.1
    simp only [List.length_append, List.length_cons, List.length_nil]
    omega
  · exact hP


theorem keep_markSource (KH : KeepHs P) {s : State} {id : Nat} {sseq : Nat}
    (hP : P s)  : P (State.markSource s id sseq) := by
  unfold State.markSource
  extract_lets x0 x1
  refine KH.setHs _ _ (fun hq => ⟨hq.1, ?_, hq.2.2⟩) hP
  simp only [List.length_append, List.length_drop, List.length_cons, List.length_nil]
  omega


theorem keep_dropPart (KH : KeepHs P) {s : State} {key : Nat × Nat}
    (hP : P s)  : P (State.dropPart s key) := by
  unfold State.dropPart
  extract_lets x0
  repeat' first
    | with_reducible assumption
    | with_reducible refine KH.setHs _ _ ?_ ?_
    | exact fun hq => hq

theorem keep_endParts (KR : KeepRegs P) (Ko : KeepOut P) (KF : KeepFlt P) (Kg : KeepLog P) (Kl : KeepLnk P) (KH : KeepHs P) {s : State} {x : HsPart}
    (hP : P s)  : P (State.endParts s x) := by
  unfold State.endParts
  repeat' first
    | with_reducible assumption
    | with_reducible refine keep_dropPart KH ?_
    | with_reducible refine keep_finish KR Ko KF Kg Kl KH ?_

theorem keep_partsDue (KR : KeepRegs P) (Ko : KeepOut P) (KF : KeepFlt P) (Kg : KeepLog P) (Kl : KeepLnk P) (KH : KeepHs P) {s : State} {key : Nat × Nat}
    (hP : P s)  : P (State.partsDue s key) := by
  unfold State.partsDue
  repeat' first
    | with_reducible assumption
    | with_reducible refine keep_endParts KR Ko KF Kg Kl KH ?_
    | split

theorem keep_takePart (KR : KeepRegs P) (Ka : KeepAct P) (Ko : KeepOut P) (Ky : KeepHeld P) (KF : KeepFlt P) (KM : KeepMem P) (Kg : KeepLog P) (KT : KeepTls P) (KW : KeepPwr P) (KL : KeepTime P) (KS : KeepSpn P) (Kd : KeepDlk P) (Kc : KeepClu P) (Kv : KeepConv P) (Kr : KeepRgn P) (Kh : KeepChan P) (Km : KeepMains P) (Kb : KeepStr P) (Kp : KeepCap P) (Ke : KeepGge P) (Kk : KeepGaps P) (Kl : KeepLnk P) (Kn : KeepLane P) (Ks : KeepSeg P) (Ki : KeepRing P) (KH : KeepHs P) (KQ : KeepSnap P) {s : State} {x : HsPart} {q : ReqCtx} {ver : Nat} {more : Bool} {via : Via} {p : List Byte}
    (hP : P s)  : P (State.takePart s x q ver more via p).1 := by
  unfold State.takePart
  extract_lets x0 x1 x2 x3 x4
  have k0 : P x0 := by
    unfold x0
    repeat' first
      | with_reducible assumption
      | with_reducible refine keep_markSource KH ?_
  try clear_value x0
  try clear_value x1
  try clear_value x2
  try clear_value x3
  repeat' first
    | with_reducible assumption
    | with_reducible refine keep_dropPart KH ?_
    | with_reducible refine keep_refuseAt KR Ko KF Kg Kl KH ?_
    | with_reducible refine KH.setHs _ _ ?_ ?_
    | with_reducible refine keep_execCmd KR Ka Ko Ky KF KM Kg KT KW KL KS Kd Kc Kv Kr Kh Km Kb Kp Ke Kk Kl Kn Ks Ki KH KQ ?_
    | split
    | exact fun hq => hq

theorem keep_acceptPart (KR : KeepRegs P) (Ka : KeepAct P) (Ko : KeepOut P) (Ky : KeepHeld P) (KF : KeepFlt P) (KM : KeepMem P) (Kg : KeepLog P) (KT : KeepTls P) (KW : KeepPwr P) (KL : KeepTime P) (KS : KeepSpn P) (Kd : KeepDlk P) (Kc : KeepClu P) (Kv : KeepConv P) (Kr : KeepRgn P) (Kh : KeepChan P) (Km : KeepMains P) (Kb : KeepStr P) (Kp : KeepCap P) (Ke : KeepGge P) (Kk : KeepGaps P) (Kl : KeepLnk P) (Kn : KeepLane P) (Ks : KeepSeg P) (Ki : KeepRing P) (KH : KeepHs P) (KQ : KeepSnap P) {s : State} {q : ReqCtx} {ver : Nat} {more : Bool} {via : Via} {p : List Byte}
    (hP : P s)  : P (State.acceptPart s q ver more via p).1 := by
  unfold State.acceptPart
  extract_lets x0 x1 x2 x3 x4
  have k0 : P x0 := by
    unfold x0
    repeat' first
      | with_reducible assumption
      | with_reducible refine keep_partsDue KR Ko KF Kg Kl KH ?_
      | with_reducible refine keep_hearSource KH ?_
  try clear_value x0
  try clear_value x1
  have k2 : P x2 := by
    unfold x2
    repeat' first
      | with_reducible assumption
      | with_reducible refine keep_markSource KH ?_
  try clear_value x2
  try clear_value x3
  repeat' first
    | with_reducible assumption
    | with_reducible refine keep_refuseAt KR Ko KF Kg Kl KH ?_
    | with_reducible refine keep_takePart KR Ka Ko Ky KF KM Kg KT KW KL KS Kd Kc Kv Kr Kh Km Kb Kp Ke Kk Kl Kn Ks Ki KH KQ ?_
    | with_reducible refine keep_markSource KH ?_
    | with_reducible refine KH.setHs _ _ ?_ ?_
    | with_reducible refine keep_execCmd KR Ka Ko Ky KF KM Kg KT KW KL KS Kd Kc Kv Kr Kh Km Kb Kp Ke Kk Kl Kn Ks Ki KH KQ ?_
    | split
    | exact fun hq => hq

theorem keep_acceptHere (KR : KeepRegs P) (Ka : KeepAct P) (Ko : KeepOut P) (Ky : KeepHeld P) (KF : KeepFlt P) (KM : KeepMem P) (Kg : KeepLog P) (KT : KeepTls P) (KW : KeepPwr P) (KL : KeepTime P) (KS : KeepSpn P) (Kd : KeepDlk P) (Kc : KeepClu P) (Kv : KeepConv P) (Kr : KeepRgn P) (Kh : KeepChan P) (Km : KeepMains P) (Kb : KeepStr P) (Kp : KeepCap P) (Ke : KeepGge P) (Kk : KeepGaps P) (Kl : KeepLnk P) (Kn : KeepLane P) (Ks : KeepSeg P) (Ki : KeepRing P) (KH : KeepHs P) (KQ : KeepSnap P) {s : State} {q : ReqCtx} {via : Via} {b : List Byte}
    (hP : P s)  : P (State.acceptHere s q via b).1 := by
  unfold State.acceptHere
  repeat' first
    | with_reducible assumption
    | with_reducible refine keep_acceptPart KR Ka Ko Ky KF KM Kg KT KW KL KS Kd Kc Kv Kr Kh Km Kb Kp Ke Kk Kl Kn Ks Ki KH KQ ?_

theorem keep_awaitReply (KH : KeepHs P) {s : State} {q : ReqCtx} {more : Bool} (hP : P s)
    (hw : q.due = true → more = false → s.hs.fwd.length < 128) : P (s.awaitReply q more) := by
  unfold State.awaitReply
  extract_lets x0 x1
  refine KH.setHs _ _ (fun hq => ⟨hq.1, hq.2.1, ?_⟩) hP
  have := hq.2.2
  dsimp only
  split
  · rename_i h
    simp only [Bool.and_eq_true, Bool.not_eq_true'] at h
    have := hw h.1 h.2
    simp only [x0, List.length_append, List.length_cons, List.length_nil]
    omega
  · exact this


theorem keep_hsSeen (KH : KeepHs P) {s : State} {x : List (Nat × Nat)} (hP : P s) : P (s.setHs { s.hs with seen := x }) :=
  KH.setHs s _ (fun hq => hq) hP

theorem keep_hsVc2 (KH : KeepHs P) {s : State} {x : List Vc2Part} (hP : P s) : P (s.setHs { s.hs with vc2 := x }) :=
  KH.setHs s _ (fun hq => hq) hP

theorem keep_hsForward (KH : KeepHs P) {s : State} {l : List Nat} {f : ReqCtx × Nat → Bool} (hP : P s) :
    P (s.setHs { s.hs with fwd := s.hs.fwd.filter f, late := l }) :=
  KH.setHs s _ (fun hq => ⟨hq.1, hq.2.1, Nat.le_trans (List.length_filter_le _ _) hq.2.2⟩) hP

theorem keep_noteSeen (KH : KeepHs P) {s : State} {key : Nat × Nat} (hP : P s) : P (s.noteSeen key) := by
  unfold State.noteSeen
  exact keep_hsSeen KH hP


theorem keep_forwardCmd (KR : KeepRegs P) (Ko : KeepOut P) (KF : KeepFlt P) (Kg : KeepLog P) (Kl : KeepLnk P) (KH : KeepHs P) {s : State} {q : ReqCtx} {b : List Byte}
    (hP : P s)  : P (State.forwardCmd s q b).1 := by
  unfold State.forwardCmd
  split
  · exact keep_refuseAt KR Ko KF Kg Kl KH hP
  · split
    · split
      · exact keep_sendReply Ko Kl KH hP
      · exact hP
    · split
      · exact keep_refuseAt KR Ko KF Kg Kl KH hP
      · rename_i h _ n
        refine keep_awaitReply KH (keep_sendVc2 Ko Kl hP) (fun a b => ?_)
        rw [keep_sendVc2 (P := fun t => t.hs = s.hs) ⟨fun _ _ h => h, fun _ _ h => h, fun _ _ h => h⟩ ⟨fun _ _ _ h => h⟩ rfl]
        simp only [a, b, Bool.not_false, true_and, Nat.not_le] at n
        exact n


theorem keep_enter (KR : KeepRegs P) (Ka : KeepAct P) (Ko : KeepOut P) (Ky : KeepHeld P) (KF : KeepFlt P) (KM : KeepMem P) (Kg : KeepLog P) (KT : KeepTls P) (KW : KeepPwr P) (KL : KeepTime P) (KS : KeepSpn P) (Kd : KeepDlk P) (Kc : KeepClu P) (Kv : KeepConv P) (Kr : KeepRgn P) (Kh : KeepChan P) (Km : KeepMains P) (Kb : KeepStr P) (Kp : KeepCap P) (Ke : KeepGge P) (Kk : KeepGaps P) (Kl : KeepLnk P) (Kn : KeepLane P) (Ks : KeepSeg P) (Ki : KeepRing P) (KH : KeepHs P) (KQ : KeepSnap P) {s : State} {path : Nat} {saddr : Nat} {sport : Nat} {via : Via} {b : List Byte}
    (hP : P s)  : P (State.enter s path saddr sport via b).1 := by
  unfold State.enter
  extract_lets x0 x1 x2 x3 x4
  try clear_value x0
  have k1 : P x1 := by
    unfold x1
    repeat' first
      | with_reducible assumption
      | with_reducible refine keep_sendVc2 Ko Kl ?_
  try clear_value x1
  have k2 : P x2 := by
    unfold x2
    repeat' first
      | with_reducible assumption
      | with_reducible refine keep_noteSeen KH ?_
  try clear_value x2
  have k4 : P x4 := by
    unfold x4
    repeat' first
      | with_reducible assumption
      | with_reducible refine KH.setHs _ _ ?_ ?_
      | exact fun hq => hq
  try clear_value x4
  repeat' first
    | with_reducible assumption
    | with_reducible refine keep_acceptHere KR Ka Ko Ky KF KM Kg KT KW KL KS Kd Kc Kv Kr Kh Km Kb Kp Ke Kk Kl Kn Ks Ki KH KQ ?_
    | with_reducible refine keep_refuseAt KR Ko KF Kg Kl KH ?_
    | with_reducible refine keep_forwardCmd KR Ko KF Kg Kl KH ?_
    | split
    | dsimp only
    | (refine keep_awaitReply KH hP (fun a b => ?_); simp only [a, b, Bool.not_false, true_and, Nat.not_le] at *; assumption)

theorem keep_recvUdp (KR : KeepRegs P) (Ka : KeepAct P) (Ko : KeepOut P) (Ky : KeepHeld P) (KF : KeepFlt P) (KM : KeepMem P) (Kg : KeepLog P) (KT : KeepTls P) (KW : KeepPwr P) (KL : KeepTime P) (KS : KeepSpn P) (Kd : KeepDlk P) (Kc : KeepClu P) (Kv : KeepConv P) (Kr : KeepRgn P) (Kh : KeepChan P) (Km : KeepMains P) (Kb : KeepStr P) (Kp : KeepCap P) (Ke : KeepGge P) (Kk : KeepGaps P) (Kl : KeepLnk P) (Kn : KeepLane P) (Ks : KeepSeg P) (Ki : KeepRing P) (KH : KeepHs P) (KQ : KeepSnap P) {s : State} {p : Fin 2} {saddr : Nat} {sport : Nat} {b : List Byte}
    (hP : P s)  : P (State.recvUdp s p saddr sport b) := by
  unfold State.recvUdp
  repeat' first
    | with_reducible assumption
    | with_reducible refine keep_crcDiscard KR KF Kg ?_
    | with_reducible refine keep_enter KR Ka Ko Ky KF KM Kg KT KW KL KS Kd Kc Kv Kr Kh Km Kb Kp Ke Kk Kl Kn Ks Ki KH KQ ?_
    | split

theorem keep_cmdSendStatus (KR : KeepRegs P) (Ka : KeepAct P) (Ko : KeepOut P) (Ky : KeepHeld P) (KF : KeepFlt P) (KM : KeepMem P) (Kg : KeepLog P) (KT : KeepTls P) (KW : KeepPwr P) (KL : KeepTime P) (KS : KeepSpn P) (Kd : KeepDlk P) (Kc : KeepClu P) (Kv : KeepConv P) (Kr : KeepRgn P) (Kh : KeepChan P) (Km : KeepMains P) (Kb : KeepStr P) (Kp : KeepCap P) (Ke : KeepGge P) (Kk : KeepGaps P) (Kl : KeepLnk P) (Kn : KeepLane P) (Ks : KeepSeg P) (Ki : KeepRing P) (KH : KeepHs P) (KQ : KeepSnap P) {s : State} {b : List Byte}
    (hP : P s)  : P (State.cmdSendStatus s b).1 := by
  unfold State.cmdSendStatus
  repeat' first
    | with_reducible assumption
    | with_reducible refine keep_crcDiscard KR KF Kg ?_
    | with_reducible refine keep_refuseAt KR Ko KF Kg Kl KH ?_
    | with_reducible refine keep_enter KR Ka Ko Ky KF KM Kg KT KW KL KS Kd Kc Kv Kr Kh Km Kb Kp Ke Kk Kl Kn Ks Ki KH KQ ?_
    | split

theorem keep_cmdSend (KR : KeepRegs P) (Ka : KeepAct P) (Ko : KeepOut P) (Ky : KeepHeld P) (KF : KeepFlt P) (KM : KeepMem P) (Kg : KeepLog P) (KT : KeepTls P) (KW : KeepPwr P) (KL : KeepTime P) (KS : KeepSpn P) (Kd : KeepDlk P) (Kc : KeepClu P) (Kv : KeepConv P) (Kr : KeepRgn P) (Kh : KeepChan P) (Km : KeepMains P) (Kb : KeepStr P) (Kp : KeepCap P) (Ke : KeepGge P) (Kk : KeepGaps P) (Kl : KeepLnk P) (Kn : KeepLane P) (Ks : KeepSeg P) (Ki : KeepRing P) (KH : KeepHs P) (KQ : KeepSnap P) {s : State} {b : List Byte}
    (hP : P s)  : P (State.cmdSend s b) := by
  unfold State.cmdSend
  repeat' first
    | with_reducible assumption
    | with_reducible refine keep_cmdSendStatus KR Ka Ko Ky KF KM Kg KT KW KL KS Kd Kc Kv Kr Kh Km Kb Kp Ke Kk Kl Kn Ks Ki KH KQ ?_
    | with_reducible refine keep_emit Ko ?_
    | split

theorem keep_command (KR : KeepRegs P) (Ka : KeepAct P) (Ko : KeepOut P) (Ky : KeepHeld P) (KF : KeepFlt P) (KM : KeepMem P) (Kg : KeepLog P) (KT : KeepTls P) (KW : KeepPwr P) (KL : KeepTime P) (KS : KeepSpn P) (Kd : KeepDlk P) (Kc : KeepClu P) (Kv : KeepConv P) (Kr : KeepRgn P) (Kh : KeepChan P) (Km : KeepMains P) (Kb : KeepStr P) (Kp : KeepCap P) (Ke : KeepGge P) (Kk : KeepGaps P) (Kl : KeepLnk P) (Kn : KeepLane P) (Ks : KeepSeg P) (Ki : KeepRing P) (KH : KeepHs P) (KQ : KeepSnap P) {s : State} {op : Nat} {r : CmdReq}
    (hP : P s)  : P (State.command s op r) := by
  unfold State.command
  repeat' first
    | with_reducible assumption
    | with_reducible refine keep_cmdSend KR Ka Ko Ky KF KM Kg KT KW KL KS Kd Kc Kv Kr Kh Km Kb Kp Ke Kk Kl Kn Ks Ki KH KQ ?_
    | with_reducible refine keep_recvUdp KR Ka Ko Ky KF KM Kg KT KW KL KS Kd Kc Kv Kr Kh Km Kb Kp Ke Kk Kl Kn Ks Ki KH KQ ?_
    | split

theorem keep_replyDue (KH : KeepHs P) {s : State} {entry : Nat} {xid : Nat}
    (hP : P s)  : P (State.replyDue s entry xid).1 := by
  unfold State.replyDue
  extract_lets x0
  repeat' first
    | with_reducible assumption
    | with_reducible refine KH.setHs _ _ ?_ ?_
    | split
    | exact fun hq => ⟨hq.1, hq.2.1, Nat.le_trans (List.length_filter_le _ _) hq.2.2⟩

theorem keep_vc2Pass (Ko : KeepOut P) (Kl : KeepLnk P) {s : State} {k : Nat} {head : List Byte} {body : List Byte}
    (hP : P s)  : P (State.vc2Pass s k head body) := by
  unfold State.vc2Pass
  extract_lets x0 x1
  try clear_value x0
  try clear_value x1
  repeat' first
    | with_reducible assumption
    | with_reducible refine keep_sendVc2 Ko Kl ?_

theorem keep_vc2Reply (Ko : KeepOut P) (Kl : KeepLnk P) (KH : KeepHs P) {s : State} {k : Nat} {head : List Byte} {body : List Byte}
    (hP : P s)  : P (State.vc2Reply s k head body) := by
  unfold State.vc2Reply
  repeat' first
    | with_reducible assumption
    | with_reducible refine keep_replyDue KH ?_
    | with_reducible refine keep_sendCmdUdp Ko ?_
    | with_reducible refine keep_vc2Pass Ko Kl ?_
    | with_reducible refine keep_spiRing KH ?_
    | with_reducible refine keep_fst (by assumption) ?_
    | split

theorem keep_vc2Run (KR : KeepRegs P) (Ka : KeepAct P) (Ko : KeepOut P) (Ky : KeepHeld P) (KF : KeepFlt P) (KM : KeepMem P) (Kg : KeepLog P) (KT : KeepTls P) (KW : KeepPwr P) (KL : KeepTime P) (KS : KeepSpn P) (Kd : KeepDlk P) (Kc : KeepClu P) (Kv : KeepConv P) (Kr : KeepRgn P) (Kh : KeepChan P) (Km : KeepMains P) (Kb : KeepStr P) (Kp : KeepCap P) (Ke : KeepGge P) (Kk : KeepGaps P) (Kl : KeepLnk P) (Kn : KeepLane P) (Ks : KeepSeg P) (Ki : KeepRing P) (KH : KeepHs P) (KQ : KeepSnap P) {s : State} {k : Fin 2} {head : List Byte} {body : List Byte}
    (hP : P s)  : P (State.vc2Run s k head body) := by
  unfold State.vc2Run
  repeat' first
    | with_reducible assumption
    | with_reducible refine keep_crcDiscard KR KF Kg ?_
    | with_reducible refine keep_acceptHere KR Ka Ko Ky KF KM Kg KT KW KL KS Kd Kc Kv Kr Kh Km Kb Kp Ke Kk Kl Kn Ks Ki KH KQ ?_
    | split

theorem keep_vc2Message (KR : KeepRegs P) (Ka : KeepAct P) (Ko : KeepOut P) (Ky : KeepHeld P) (KF : KeepFlt P) (KM : KeepMem P) (Kg : KeepLog P) (KT : KeepTls P) (KW : KeepPwr P) (KL : KeepTime P) (KS : KeepSpn P) (Kd : KeepDlk P) (Kc : KeepClu P) (Kv : KeepConv P) (Kr : KeepRgn P) (Kh : KeepChan P) (Km : KeepMains P) (Kb : KeepStr P) (Kp : KeepCap P) (Ke : KeepGge P) (Kk : KeepGaps P) (Kl : KeepLnk P) (Kn : KeepLane P) (Ks : KeepSeg P) (Ki : KeepRing P) (KH : KeepHs P) (KQ : KeepSnap P) {s : State} {k : Fin 2} {head : List Byte} {body : List Byte}
    (hP : P s)  : P (State.vc2Message s k head body) := by
  unfold State.vc2Message
  extract_lets x0 x1 x2 x3
  try clear_value x0
  try clear_value x1
  try clear_value x2
  try clear_value x3
  repeat' first
    | with_reducible assumption
    | with_reducible refine keep_vc2Reply Ko Kl KH ?_
    | with_reducible refine keep_noteSeen KH ?_
    | with_reducible refine keep_vc2Pass Ko Kl ?_
    | with_reducible refine keep_vc2Run KR Ka Ko Ky KF KM Kg KT KW KL KS Kd Kc Kv Kr Kh Km Kb Kp Ke Kk Kl Kn Ks Ki KH KQ ?_
    | with_reducible refine keep_refuseAt KR Ko KF Kg Kl KH ?_
    | split

theorem keep_vc2Cell (KR : KeepRegs P) (Ka : KeepAct P) (Ko : KeepOut P) (Ky : KeepHeld P) (KF : KeepFlt P) (KM : KeepMem P) (Kg : KeepLog P) (KT : KeepTls P) (KW : KeepPwr P) (KL : KeepTime P) (KS : KeepSpn P) (Kd : KeepDlk P) (Kc : KeepClu P) (Kv : KeepConv P) (Kr : KeepRgn P) (Kh : KeepChan P) (Km : KeepMains P) (Kb : KeepStr P) (Kp : KeepCap P) (Ke : KeepGge P) (Kk : KeepGaps P) (Kl : KeepLnk P) (Kn : KeepLane P) (Ks : KeepSeg P) (Ki : KeepRing P) (KH : KeepHs P) (KQ : KeepSnap P) {s : State} {k : Fin 2} {b : List Byte}
    (hP : P s)  : P (State.vc2Cell s k b) := by
  unfold State.vc2Cell
  extract_lets x0 x1 x2 x3 x4 x5 x6 x7 x8
  try clear_value x0
  try clear_value x1
  try clear_value x2
  try clear_value x3
  try clear_value x4
  have k6 : P x6 := by
    unfold x6
    repeat' first
      | with_reducible assumption
      | with_reducible refine KH.setHs _ _ ?_ ?_
      | exact fun hq => hq
  try clear_value x6
  try clear_value x7
  repeat' first
    | with_reducible assumption
    | with_reducible refine KH.setHs _ _ ?_ ?_
    | with_reducible refine keep_vc2Message KR Ka Ko Ky KF KM Kg KT KW KL KS Kd Kc Kv Kr Kh Km Kb Kp Ke Kk Kl Kn Ks Ki KH KQ ?_
    | split
    | exact fun hq => hq

theorem keep_execCommandPart (KR : KeepRegs P) (Ka : KeepAct P) (Ko : KeepOut P) (Ky : KeepHeld P) (KF : KeepFlt P) (KM : KeepMem P) (Kg : KeepLog P) (KT : KeepTls P) (KW : KeepPwr P) (KL : KeepTime P) (KS : KeepSpn P) (Kd : KeepDlk P) (Kc : KeepClu P) (Kv : KeepConv P) (Kr : KeepRgn P) (Kh : KeepChan P) (Km : KeepMains P) (Kb : KeepStr P) (Kp : KeepCap P) (Ke : KeepGge P) (Kk : KeepGaps P) (Kl : KeepLnk P) (Kn : KeepLane P) (Ks : KeepSeg P) (Ki : KeepRing P) (KH : KeepHs P) (KQ : KeepSnap P) {op : Fin 128} {r : CmdReq} {s : State}
    (hP : P s) {u : State} (e : execCommandPart op r s = .next u) : P u := by
  unfold execCommandPart at e
  refine keep_act hP ?_ e
  clear e
  repeat' first
    | with_reducible assumption
    | with_reducible refine keep_command KR Ka Ko Ky KF KM Kg KT KW KL KS Kd Kc Kv Kr Kh Km Kb Kp Ke Kk Kl Kn Ks Ki KH KQ ?_

theorem keep_execPartsTimeout (KR : KeepRegs P) (Ko : KeepOut P) (KF : KeepFlt P) (Kg : KeepLog P) (KL : KeepTime P) (Kl : KeepLnk P) (KH : KeepHs P) {srcid : BitVec 32} {tag : Fin 64} {s : State}
    (hP : P s) {u : State} (e : execPartsTimeout srcid tag s = .next u) : P u := by
  unfold execPartsTimeout at e
  refine keep_act hP ?_ e
  clear e
  repeat' first
    | with_reducible assumption
    | with_reducible refine keep_moveTo KL ?_
    | with_reducible refine keep_endParts KR Ko KF Kg Kl KH ?_
    | split

theorem keep_execIdent (KR : KeepRegs P) (Ka : KeepAct P) (Ko : KeepOut P) (Ky : KeepHeld P) (KF : KeepFlt P) (KM : KeepMem P) (Kg : KeepLog P) (KT : KeepTls P) (KW : KeepPwr P) (KL : KeepTime P) (KS : KeepSpn P) (Kd : KeepDlk P) (Kc : KeepClu P) (Kv : KeepConv P) (Kr : KeepRgn P) (Kh : KeepChan P) (Km : KeepMains P) (Kb : KeepStr P) (Kp : KeepCap P) (Ke : KeepGge P) (Kk : KeepGaps P) (Kl : KeepLnk P) (Kn : KeepLane P) (Ks : KeepSeg P) (Ki : KeepRing P) (KH : KeepHs P) (KQ : KeepSnap P) {r : CmdReq} {s : State}
    (hP : P s) {u : State} (e : execIdent r s = .next u) : P u := by
  unfold execIdent at e
  refine keep_act hP ?_ e
  clear e
  repeat' first
    | with_reducible assumption
    | with_reducible refine keep_command KR Ka Ko Ky KF KM Kg KT KW KL KS Kd Kc Kv Kr Kh Km Kb Kp Ke Kk Kl Kn Ks Ki KH KQ ?_

theorem keep_execRead (KR : KeepRegs P) (Ka : KeepAct P) (Ko : KeepOut P) (Ky : KeepHeld P) (KF : KeepFlt P) (KM : KeepMem P) (Kg : KeepLog P) (KT : KeepTls P) (KW : KeepPwr P) (KL : KeepTime P) (KS : KeepSpn P) (Kd : KeepDlk P) (Kc : KeepClu P) (Kv : KeepConv P) (Kr : KeepRgn P) (Kh : KeepChan P) (Km : KeepMains P) (Kb : KeepStr P) (Kp : KeepCap P) (Ke : KeepGge P) (Kk : KeepGaps P) (Kl : KeepLnk P) (Kn : KeepLane P) (Ks : KeepSeg P) (Ki : KeepRing P) (KH : KeepHs P) (KQ : KeepSnap P) {r : CmdReq} {s : State}
    (hP : P s) {u : State} (e : execRead r s = .next u) : P u := by
  unfold execRead at e
  refine keep_act hP ?_ e
  clear e
  repeat' first
    | with_reducible assumption
    | with_reducible refine keep_command KR Ka Ko Ky KF KM Kg KT KW KL KS Kd Kc Kv Kr Kh Km Kb Kp Ke Kk Kl Kn Ks Ki KH KQ ?_

theorem keep_execWrite (KR : KeepRegs P) (Ka : KeepAct P) (Ko : KeepOut P) (Ky : KeepHeld P) (KF : KeepFlt P) (KM : KeepMem P) (Kg : KeepLog P) (KT : KeepTls P) (KW : KeepPwr P) (KL : KeepTime P) (KS : KeepSpn P) (Kd : KeepDlk P) (Kc : KeepClu P) (Kv : KeepConv P) (Kr : KeepRgn P) (Kh : KeepChan P) (Km : KeepMains P) (Kb : KeepStr P) (Kp : KeepCap P) (Ke : KeepGge P) (Kk : KeepGaps P) (Kl : KeepLnk P) (Kn : KeepLane P) (Ks : KeepSeg P) (Ki : KeepRing P) (KH : KeepHs P) (KQ : KeepSnap P) {r : CmdReq} {s : State}
    (hP : P s) {u : State} (e : execWrite r s = .next u) : P u := by
  unfold execWrite at e
  refine keep_act hP ?_ e
  clear e
  repeat' first
    | with_reducible assumption
    | with_reducible refine keep_command KR Ka Ko Ky KF KM Kg KT KW KL KS Kd Kc Kv Kr Kh Km Kb Kp Ke Kk Kl Kn Ks Ki KH KQ ?_

theorem keep_execWriteMask (KR : KeepRegs P) (Ka : KeepAct P) (Ko : KeepOut P) (Ky : KeepHeld P) (KF : KeepFlt P) (KM : KeepMem P) (Kg : KeepLog P) (KT : KeepTls P) (KW : KeepPwr P) (KL : KeepTime P) (KS : KeepSpn P) (Kd : KeepDlk P) (Kc : KeepClu P) (Kv : KeepConv P) (Kr : KeepRgn P) (Kh : KeepChan P) (Km : KeepMains P) (Kb : KeepStr P) (Kp : KeepCap P) (Ke : KeepGge P) (Kk : KeepGaps P) (Kl : KeepLnk P) (Kn : KeepLane P) (Ks : KeepSeg P) (Ki : KeepRing P) (KH : KeepHs P) (KQ : KeepSnap P) {r : CmdReq} {s : State}
    (hP : P s) {u : State} (e : execWriteMask r s = .next u) : P u := by
  unfold execWriteMask at e
  refine keep_act hP ?_ e
  clear e
  repeat' first
    | with_reducible assumption
    | with_reducible refine keep_command KR Ka Ko Ky KF KM Kg KT KW KL KS Kd Kc Kv Kr Kh Km Kb Kp Ke Kk Kl Kn Ks Ki KH KQ ?_

theorem keep_execReadList (KR : KeepRegs P) (Ka : KeepAct P) (Ko : KeepOut P) (Ky : KeepHeld P) (KF : KeepFlt P) (KM : KeepMem P) (Kg : KeepLog P) (KT : KeepTls P) (KW : KeepPwr P) (KL : KeepTime P) (KS : KeepSpn P) (Kd : KeepDlk P) (Kc : KeepClu P) (Kv : KeepConv P) (Kr : KeepRgn P) (Kh : KeepChan P) (Km : KeepMains P) (Kb : KeepStr P) (Kp : KeepCap P) (Ke : KeepGge P) (Kk : KeepGaps P) (Kl : KeepLnk P) (Kn : KeepLane P) (Ks : KeepSeg P) (Ki : KeepRing P) (KH : KeepHs P) (KQ : KeepSnap P) {r : CmdReq} {s : State}
    (hP : P s) {u : State} (e : execReadList r s = .next u) : P u := by
  unfold execReadList at e
  refine keep_act hP ?_ e
  clear e
  repeat' first
    | with_reducible assumption
    | with_reducible refine keep_command KR Ka Ko Ky KF KM Kg KT KW KL KS Kd Kc Kv Kr Kh Km Kb Kp Ke Kk Kl Kn Ks Ki KH KQ ?_

theorem keep_execWriteList (KR : KeepRegs P) (Ka : KeepAct P) (Ko : KeepOut P) (Ky : KeepHeld P) (KF : KeepFlt P) (KM : KeepMem P) (Kg : KeepLog P) (KT : KeepTls P) (KW : KeepPwr P) (KL : KeepTime P) (KS : KeepSpn P) (Kd : KeepDlk P) (Kc : KeepClu P) (Kv : KeepConv P) (Kr : KeepRgn P) (Kh : KeepChan P) (Km : KeepMains P) (Kb : KeepStr P) (Kp : KeepCap P) (Ke : KeepGge P) (Kk : KeepGaps P) (Kl : KeepLnk P) (Kn : KeepLane P) (Ks : KeepSeg P) (Ki : KeepRing P) (KH : KeepHs P) (KQ : KeepSnap P) {r : CmdReq} {s : State}
    (hP : P s) {u : State} (e : execWriteList r s = .next u) : P u := by
  unfold execWriteList at e
  refine keep_act hP ?_ e
  clear e
  repeat' first
    | with_reducible assumption
    | with_reducible refine keep_command KR Ka Ko Ky KF KM Kg KT KW KL KS Kd Kc Kv Kr Kh Km Kb Kp Ke Kk Kl Kn Ks Ki KH KQ ?_

theorem keep_execReadWord (KR : KeepRegs P) (Ka : KeepAct P) (Ko : KeepOut P) (Ky : KeepHeld P) (KF : KeepFlt P) (KM : KeepMem P) (Kg : KeepLog P) (KT : KeepTls P) (KW : KeepPwr P) (KL : KeepTime P) (KS : KeepSpn P) (Kd : KeepDlk P) (Kc : KeepClu P) (Kv : KeepConv P) (Kr : KeepRgn P) (Kh : KeepChan P) (Km : KeepMains P) (Kb : KeepStr P) (Kp : KeepCap P) (Ke : KeepGge P) (Kk : KeepGaps P) (Kl : KeepLnk P) (Kn : KeepLane P) (Ks : KeepSeg P) (Ki : KeepRing P) (KH : KeepHs P) (KQ : KeepSnap P) {r : CmdReq} {s : State}
    (hP : P s) {u : State} (e : execReadWord r s = .next u) : P u := by
  unfold execReadWord at e
  refine keep_act hP ?_ e
  clear e
  repeat' first
    | with_reducible assumption
    | with_reducible refine keep_command KR Ka Ko Ky KF KM Kg KT KW KL KS Kd Kc Kv Kr Kh Km Kb Kp Ke Kk Kl Kn Ks Ki KH KQ ?_

theorem keep_execSnapshot (KR : KeepRegs P) (Ka : KeepAct P) (Ko : KeepOut P) (Ky : KeepHeld P) (KF : KeepFlt P) (KM : KeepMem P) (Kg : KeepLog P) (KT : KeepTls P) (KW : KeepPwr P) (KL : KeepTime P) (KS : KeepSpn P) (Kd : KeepDlk P) (Kc : KeepClu P) (Kv : KeepConv P) (Kr : KeepRgn P) (Kh : KeepChan P) (Km : KeepMains P) (Kb : KeepStr P) (Kp : KeepCap P) (Ke : KeepGge P) (Kk : KeepGaps P) (Kl : KeepLnk P) (Kn : KeepLane P) (Ks : KeepSeg P) (Ki : KeepRing P) (KH : KeepHs P) (KQ : KeepSnap P) {r : CmdReq} {s : State}
    (hP : P s) {u : State} (e : execSnapshot r s = .next u) : P u := by
  unfold execSnapshot at e
  refine keep_act hP ?_ e
  clear e
  repeat' first
    | with_reducible assumption
    | with_reducible refine keep_command KR Ka Ko Ky KF KM Kg KT KW KL KS Kd Kc Kv Kr Kh Km Kb Kp Ke Kk Kl Kn Ks Ki KH KQ ?_

theorem keep_execCapture (KR : KeepRegs P) (Ka : KeepAct P) (Ko : KeepOut P) (Ky : KeepHeld P) (KF : KeepFlt P) (KM : KeepMem P) (Kg : KeepLog P) (KT : KeepTls P) (KW : KeepPwr P) (KL : KeepTime P) (KS : KeepSpn P) (Kd : KeepDlk P) (Kc : KeepClu P) (Kv : KeepConv P) (Kr : KeepRgn P) (Kh : KeepChan P) (Km : KeepMains P) (Kb : KeepStr P) (Kp : KeepCap P) (Ke : KeepGge P) (Kk : KeepGaps P) (Kl : KeepLnk P) (Kn : KeepLane P) (Ks : KeepSeg P) (Ki : KeepRing P) (KH : KeepHs P) (KQ : KeepSnap P) {r : CmdReq} {s : State}
    (hP : P s) {u : State} (e : execCapture r s = .next u) : P u := by
  unfold execCapture at e
  refine keep_act hP ?_ e
  clear e
  repeat' first
    | with_reducible assumption
    | with_reducible refine keep_command KR Ka Ko Ky KF KM Kg KT KW KL KS Kd Kc Kv Kr Kh Km Kb Kp Ke Kk Kl Kn Ks Ki KH KQ ?_

theorem keep_execRingInfo (KR : KeepRegs P) (Ka : KeepAct P) (Ko : KeepOut P) (Ky : KeepHeld P) (KF : KeepFlt P) (KM : KeepMem P) (Kg : KeepLog P) (KT : KeepTls P) (KW : KeepPwr P) (KL : KeepTime P) (KS : KeepSpn P) (Kd : KeepDlk P) (Kc : KeepClu P) (Kv : KeepConv P) (Kr : KeepRgn P) (Kh : KeepChan P) (Km : KeepMains P) (Kb : KeepStr P) (Kp : KeepCap P) (Ke : KeepGge P) (Kk : KeepGaps P) (Kl : KeepLnk P) (Kn : KeepLane P) (Ks : KeepSeg P) (Ki : KeepRing P) (KH : KeepHs P) (KQ : KeepSnap P) {r : CmdReq} {s : State}
    (hP : P s) {u : State} (e : execRingInfo r s = .next u) : P u := by
  unfold execRingInfo at e
  refine keep_act hP ?_ e
  clear e
  repeat' first
    | with_reducible assumption
    | with_reducible refine keep_command KR Ka Ko Ky KF KM Kg KT KW KL KS Kd Kc Kv Kr Kh Km Kb Kp Ke Kk Kl Kn Ks Ki KH KQ ?_

theorem keep_execSetHubid (KR : KeepRegs P) (Ka : KeepAct P) (Ko : KeepOut P) (Ky : KeepHeld P) (KF : KeepFlt P) (KM : KeepMem P) (Kg : KeepLog P) (KT : KeepTls P) (KW : KeepPwr P) (KL : KeepTime P) (KS : KeepSpn P) (Kd : KeepDlk P) (Kc : KeepClu P) (Kv : KeepConv P) (Kr : KeepRgn P) (Kh : KeepChan P) (Km : KeepMains P) (Kb : KeepStr P) (Kp : KeepCap P) (Ke : KeepGge P) (Kk : KeepGaps P) (Kl : KeepLnk P) (Kn : KeepLane P) (Ks : KeepSeg P) (Ki : KeepRing P) (KH : KeepHs P) (KQ : KeepSnap P) {r : CmdReq} {s : State}
    (hP : P s) {u : State} (e : execSetHubid r s = .next u) : P u := by
  unfold execSetHubid at e
  refine keep_act hP ?_ e
  clear e
  repeat' first
    | with_reducible assumption
    | with_reducible refine keep_command KR Ka Ko Ky KF KM Kg KT KW KL KS Kd Kc Kv Kr Kh Km Kb Kp Ke Kk Kl Kn Ks Ki KH KQ ?_

theorem keep_execPowerLevel (KR : KeepRegs P) (Ka : KeepAct P) (Ko : KeepOut P) (Ky : KeepHeld P) (KF : KeepFlt P) (KM : KeepMem P) (Kg : KeepLog P) (KT : KeepTls P) (KW : KeepPwr P) (KL : KeepTime P) (KS : KeepSpn P) (Kd : KeepDlk P) (Kc : KeepClu P) (Kv : KeepConv P) (Kr : KeepRgn P) (Kh : KeepChan P) (Km : KeepMains P) (Kb : KeepStr P) (Kp : KeepCap P) (Ke : KeepGge P) (Kk : KeepGaps P) (Kl : KeepLnk P) (Kn : KeepLane P) (Ks : KeepSeg P) (Ki : KeepRing P) (KH : KeepHs P) (KQ : KeepSnap P) {r : CmdReq} {s : State}
    (hP : P s) {u : State} (e : execPowerLevel r s = .next u) : P u := by
  unfold execPowerLevel at e
  refine keep_act hP ?_ e
  clear e
  repeat' first
    | with_reducible assumption
    | with_reducible refine keep_command KR Ka Ko Ky KF KM Kg KT KW KL KS Kd Kc Kv Kr Kh Km Kb Kp Ke Kk Kl Kn Ks Ki KH KQ ?_

theorem keep_execPowerMode (KR : KeepRegs P) (Ka : KeepAct P) (Ko : KeepOut P) (Ky : KeepHeld P) (KF : KeepFlt P) (KM : KeepMem P) (Kg : KeepLog P) (KT : KeepTls P) (KW : KeepPwr P) (KL : KeepTime P) (KS : KeepSpn P) (Kd : KeepDlk P) (Kc : KeepClu P) (Kv : KeepConv P) (Kr : KeepRgn P) (Kh : KeepChan P) (Km : KeepMains P) (Kb : KeepStr P) (Kp : KeepCap P) (Ke : KeepGge P) (Kk : KeepGaps P) (Kl : KeepLnk P) (Kn : KeepLane P) (Ks : KeepSeg P) (Ki : KeepRing P) (KH : KeepHs P) (KQ : KeepSnap P) {r : CmdReq} {s : State}
    (hP : P s) {u : State} (e : execPowerMode r s = .next u) : P u := by
  unfold execPowerMode at e
  refine keep_act hP ?_ e
  clear e
  repeat' first
    | with_reducible assumption
    | with_reducible refine keep_command KR Ka Ko Ky KF KM Kg KT KW KL KS Kd Kc Kv Kr Kh Km Kb Kp Ke Kk Kl Kn Ks Ki KH KQ ?_

theorem keep_execReset (KR : KeepRegs P) (Ka : KeepAct P) (Ko : KeepOut P) (Ky : KeepHeld P) (KF : KeepFlt P) (KM : KeepMem P) (Kg : KeepLog P) (KT : KeepTls P) (KW : KeepPwr P) (KL : KeepTime P) (KS : KeepSpn P) (Kd : KeepDlk P) (Kc : KeepClu P) (Kv : KeepConv P) (Kr : KeepRgn P) (Kh : KeepChan P) (Km : KeepMains P) (Kb : KeepStr P) (Kp : KeepCap P) (Ke : KeepGge P) (Kk : KeepGaps P) (Kl : KeepLnk P) (Kn : KeepLane P) (Ks : KeepSeg P) (Ki : KeepRing P) (KH : KeepHs P) (KQ : KeepSnap P) {r : CmdReq} {s : State}
    (hP : P s) {u : State} (e : execReset r s = .next u) : P u := by
  unfold execReset at e
  refine keep_act hP ?_ e
  clear e
  repeat' first
    | with_reducible assumption
    | with_reducible refine keep_command KR Ka Ko Ky KF KM Kg KT KW KL KS Kd Kc Kv Kr Kh Km Kb Kp Ke Kk Kl Kn Ks Ki KH KQ ?_

theorem keep_execCommandResetExpiry (KW : KeepPwr P) (KL : KeepTime P) (KX : KeepReset P) {s : State}
    (hP : P s) {u : State} (e : execCommandResetExpiry s = .next u) : P u := by
  unfold execCommandResetExpiry at e
  refine keep_act hP ?_ e
  clear e
  repeat' first
    | with_reducible assumption
    | with_reducible refine keep_moveTo KL ?_
    | with_reducible refine KX.fullReset _ _ _ ?_
    | split

theorem keep_execSafeParam (KR : KeepRegs P) (Ka : KeepAct P) (Ko : KeepOut P) (Ky : KeepHeld P) (KF : KeepFlt P) (KM : KeepMem P) (Kg : KeepLog P) (KT : KeepTls P) (KW : KeepPwr P) (KL : KeepTime P) (KS : KeepSpn P) (Kd : KeepDlk P) (Kc : KeepClu P) (Kv : KeepConv P) (Kr : KeepRgn P) (Kh : KeepChan P) (Km : KeepMains P) (Kb : KeepStr P) (Kp : KeepCap P) (Ke : KeepGge P) (Kk : KeepGaps P) (Kl : KeepLnk P) (Kn : KeepLane P) (Ks : KeepSeg P) (Ki : KeepRing P) (KH : KeepHs P) (KQ : KeepSnap P) {r : CmdReq} {s : State}
    (hP : P s) {u : State} (e : execSafeParam r s = .next u) : P u := by
  unfold execSafeParam at e
  refine keep_act hP ?_ e
  clear e
  repeat' first
    | with_reducible assumption
    | with_reducible refine keep_command KR Ka Ko Ky KF KM Kg KT KW KL KS Kd Kc Kv Kr Kh Km Kb Kp Ke Kk Kl Kn Ks Ki KH KQ ?_

theorem keep_execSafeTlg (KR : KeepRegs P) (Ka : KeepAct P) (Ko : KeepOut P) (Ky : KeepHeld P) (KF : KeepFlt P) (KM : KeepMem P) (Kg : KeepLog P) (KT : KeepTls P) (KW : KeepPwr P) (KL : KeepTime P) (KS : KeepSpn P) (Kd : KeepDlk P) (Kc : KeepClu P) (Kv : KeepConv P) (Kr : KeepRgn P) (Kh : KeepChan P) (Km : KeepMains P) (Kb : KeepStr P) (Kp : KeepCap P) (Ke : KeepGge P) (Kk : KeepGaps P) (Kl : KeepLnk P) (Kn : KeepLane P) (Ks : KeepSeg P) (Ki : KeepRing P) (KH : KeepHs P) (KQ : KeepSnap P) {r : CmdReq} {s : State}
    (hP : P s) {u : State} (e : execSafeTlg r s = .next u) : P u := by
  unfold execSafeTlg at e
  refine keep_act hP ?_ e
  clear e
  repeat' first
    | with_reducible assumption
    | with_reducible refine keep_command KR Ka Ko Ky KF KM Kg KT KW KL KS Kd Kc Kv Kr Kh Km Kb Kp Ke Kk Kl Kn Ks Ki KH KQ ?_

theorem keep_execVc2CellRx (KR : KeepRegs P) (Ka : KeepAct P) (Ko : KeepOut P) (Ky : KeepHeld P) (KF : KeepFlt P) (KM : KeepMem P) (Kg : KeepLog P) (KT : KeepTls P) (KW : KeepPwr P) (KL : KeepTime P) (KS : KeepSpn P) (Kd : KeepDlk P) (Kc : KeepClu P) (Kv : KeepConv P) (Kr : KeepRgn P) (Kh : KeepChan P) (Km : KeepMains P) (Kb : KeepStr P) (Kp : KeepCap P) (Ke : KeepGge P) (Kk : KeepGaps P) (Kl : KeepLnk P) (Kn : KeepLane P) (Ks : KeepSeg P) (Ki : KeepRing P) (KH : KeepHs P) (KQ : KeepSnap P) {k : Fin 2} {payload : List Byte} {s : State}
    (hP : P s) {u : State} (e : execVc2CellRx k payload s = .next u) : P u := by
  unfold execVc2CellRx at e
  refine keep_act hP ?_ e
  clear e
  repeat' first
    | with_reducible assumption
    | with_reducible refine keep_vc2Cell KR Ka Ko Ky KF KM Kg KT KW KL KS Kd Kc Kv Kr Kh Km Kb Kp Ke Kk Kl Kn Ks Ki KH KQ ?_

theorem keep_execVc2ReassemblyTimeout (KL : KeepTime P) (KH : KeepHs P) {entry : Fin 65536} {xid : Fin 65536} {s : State}
    (hP : P s) {u : State} (e : execVc2ReassemblyTimeout entry xid s = .next u) : P u := by
  unfold execVc2ReassemblyTimeout at e
  refine keep_act hP ?_ e
  clear e
  extract_lets x0
  clear_value x0
  split
  · with_reducible exact keep_hsVc2 KH (keep_moveTo KL hP)
  · exact hP


theorem keep_execForwardTimeout (KR : KeepRegs P) (Ko : KeepOut P) (KF : KeepFlt P) (Kg : KeepLog P) (KL : KeepTime P) (Kl : KeepLnk P) (KH : KeepHs P) {xid : Fin 65536} {s : State}
    (hP : P s) {u : State} (e : execForwardTimeout xid s = .next u) : P u := by
  unfold execForwardTimeout at e
  refine keep_act hP ?_ e
  clear e
  split
  · with_reducible exact keep_sendReply Ko Kl KH (keep_raiseHub KR KF Kg (keep_hsForward KH (keep_moveTo KL hP)))
  · exact hP


theorem keep_spiResult (Ko : KeepOut P) {s : State} {n : Nat} {st : Nat} {data : List Byte}
    (hP : P s)  : P (State.spiResult s n st data) := by
  unfold State.spiResult
  repeat' first
    | with_reducible assumption
    | with_reducible refine keep_emit Ko ?_

theorem keep_regRead (KR : KeepRegs P) (Ko : KeepOut P) (Ky : KeepHeld P) (KF : KeepFlt P) (Kg : KeepLog P) (Kd : KeepDlk P) (Kp : KeepCap P) (Ke : KeepGge P) {s : State} {a : Nat} {n : Nat} {stride : Nat}
    (hP : P s)  : P (State.regRead s a n stride) := by
  unfold State.regRead
  extract_lets x0
  try clear_value x0
  repeat' first
    | with_reducible assumption
    | with_reducible refine keep_spiResult Ko ?_
    | with_reducible refine keep_readAll KR Ko Ky KF Kg Kd Kp Ke ?_
    | split

theorem keep_execRegRead (KR : KeepRegs P) (Ko : KeepOut P) (Ky : KeepHeld P) (KF : KeepFlt P) (Kg : KeepLog P) (Kd : KeepDlk P) (Kp : KeepCap P) (Ke : KeepGge P) {a : Word} {n : Fin 65536} {stride : Fin 65536} {crcErr : BitVec 32} {s : State}
    (hP : P s) {u : State} (e : execRegRead a n stride crcErr s = .next u) : P u := by
  unfold execRegRead at e
  refine keep_act hP ?_ e
  clear e
  repeat' first
    | with_reducible assumption
    | with_reducible refine keep_spiResult Ko ?_
    | with_reducible refine keep_regRead KR Ko Ky KF Kg Kd Kp Ke ?_
    | split

theorem keep_regWrite (KR : KeepRegs P) (Ka : KeepAct P) (Ko : KeepOut P) (Ky : KeepHeld P) (KF : KeepFlt P) (KM : KeepMem P) (Kg : KeepLog P) (KT : KeepTls P) (KW : KeepPwr P) (KL : KeepTime P) (KS : KeepSpn P) (Kd : KeepDlk P) (Kc : KeepClu P) (Kv : KeepConv P) (Kr : KeepRgn P) (Kh : KeepChan P) (Km : KeepMains P) (Kb : KeepStr P) (Kp : KeepCap P) (Ke : KeepGge P) (Kk : KeepGaps P) (Kl : KeepLnk P) (Kn : KeepLane P) (Ks : KeepSeg P) (Ki : KeepRing P) (KH : KeepHs P) (KQ : KeepSnap P) {s : State} {a : Nat} {n : Nat} {stride : Nat} {words : List Word}
    (hP : P s)  : P (State.regWrite s a n stride words) := by
  unfold State.regWrite
  extract_lets x0 x1 x2
  try clear_value x0
  try clear_value x1
  try clear_value x2
  repeat' first
    | with_reducible assumption
    | with_reducible refine keep_spiResult Ko ?_
    | with_reducible refine keep_accessWrite KR Ka Ko Ky KF KM Kg KT KW KL KS Kd Kc Kv Kr Kh Km Kb Kp Ke Kk Kl Kn Ks Ki KH KQ ?_
    | split

theorem keep_execRegWrite (KR : KeepRegs P) (Ka : KeepAct P) (Ko : KeepOut P) (Ky : KeepHeld P) (KF : KeepFlt P) (KM : KeepMem P) (Kg : KeepLog P) (KT : KeepTls P) (KW : KeepPwr P) (KL : KeepTime P) (KS : KeepSpn P) (Kd : KeepDlk P) (Kc : KeepClu P) (Kv : KeepConv P) (Kr : KeepRgn P) (Kh : KeepChan P) (Km : KeepMains P) (Kb : KeepStr P) (Kp : KeepCap P) (Ke : KeepGge P) (Kk : KeepGaps P) (Kl : KeepLnk P) (Kn : KeepLane P) (Ks : KeepSeg P) (Ki : KeepRing P) (KH : KeepHs P) (KQ : KeepSnap P) {a : Word} {n : Fin 65536} {stride : Fin 65536} {words : List Word} {crcErr : BitVec 32} {s : State}
    (hP : P s) {u : State} (e : execRegWrite a n stride words crcErr s = .next u) : P u := by
  unfold execRegWrite at e
  refine keep_act hP ?_ e
  clear e
  extract_lets x0
  try clear_value x0
  repeat' first
    | with_reducible assumption
    | with_reducible refine keep_spiResult Ko ?_
    | with_reducible refine keep_regWrite KR Ka Ko Ky KF KM Kg KT KW KL KS Kd Kc Kv Kr Kh Km Kb Kp Ke Kk Kl Kn Ks Ki KH KQ ?_
    | split

theorem keep_execCmdSend (KR : KeepRegs P) (Ka : KeepAct P) (Ko : KeepOut P) (Ky : KeepHeld P) (KF : KeepFlt P) (KM : KeepMem P) (Kg : KeepLog P) (KT : KeepTls P) (KW : KeepPwr P) (KL : KeepTime P) (KS : KeepSpn P) (Kd : KeepDlk P) (Kc : KeepClu P) (Kv : KeepConv P) (Kr : KeepRgn P) (Kh : KeepChan P) (Km : KeepMains P) (Kb : KeepStr P) (Kp : KeepCap P) (Ke : KeepGge P) (Kk : KeepGaps P) (Kl : KeepLnk P) (Kn : KeepLane P) (Ks : KeepSeg P) (Ki : KeepRing P) (KH : KeepHs P) (KQ : KeepSnap P) {datagram : List Byte} {s : State}
    (hP : P s) {u : State} (e : execCmdSend datagram s = .next u) : P u := by
  unfold execCmdSend at e
  refine keep_act hP ?_ e
  clear e
  repeat' first
    | with_reducible assumption
    | with_reducible refine keep_cmdSend KR Ka Ko Ky KF KM Kg KT KW KL KS Kd Kc Kv Kr Kh Km Kb Kp Ke Kk Kl Kn Ks Ki KH KQ ?_

theorem keep_execCmdRecv (Ko : KeepOut P) (Kl : KeepLnk P) (KH : KeepHs P) {clocked : Nat} {s : State}
    (hP : P s) {u : State} (e : execCmdRecv clocked s = .next u) : P u := by
  unfold execCmdRecv at e
  refine keep_act hP ?_ e
  clear e
  extract_lets x0 x1 x2
  try clear_value x0
  try clear_value x1
  have k2 : P x2 := by
    unfold x2
    repeat' first
      | with_reducible assumption
      | with_reducible refine keep_emit Ko ?_
  try clear_value x2
  repeat' first
    | with_reducible assumption
    | with_reducible refine keep_spiPop Ko Kl KH ?_
    | split

theorem keep_execSpiBadFrame (Ko : KeepOut P) {b : Fin 256} {s : State}
    (hP : P s) {u : State} (e : execSpiBadFrame b s = .next u) : P u := by
  unfold execSpiBadFrame at e
  refine keep_act hP ?_ e
  clear e
  repeat' first
    | with_reducible assumption
    | with_reducible refine keep_spiResult Ko ?_
    | split

theorem keep_execSpiFrameAbort  {s : State}
    (hP : P s) {u : State} (e : execSpiFrameAbort s = .next u) : P u := by
  unfold execSpiFrameAbort at e
  refine keep_act hP ?_ e
  clear e
  repeat' first
    | with_reducible assumption

end Sys2Proof.Machine
end

