-- ==== Sys2Proof/Laws/KeepCells.lean ====
section
/-! SUPPORT. What the operations of Machine/Cells.lean keep (see Laws/Keep.lean). -/
namespace Sys2Proof.Machine
variable {P : State → Prop}

theorem keep_frameIn (KR : KeepRegs P) (Ka : KeepAct P) (Ko : KeepOut P) (Ky : KeepHeld P) (KF : KeepFlt P) (KM : KeepMem P) (Kg : KeepLog P) (KT : KeepTls P) (KW : KeepPwr P) (KL : KeepTime P) (KS : KeepSpn P) (Kd : KeepDlk P) (Kc : KeepClu P) (Kv : KeepConv P) (Kr : KeepRgn P) (Kh : KeepChan P) (Km : KeepMains P) (Kb : KeepStr P) (Kp : KeepCap P) (Ke : KeepGge P) (Kk : KeepGaps P) (Kl : KeepLnk P) (Kn : KeepLane P) (Ks : KeepSeg P) (Ki : KeepRing P) (KH : KeepHs P) (KQ : KeepSnap P) {s : State} {p : Fin 2} {f : Frame}
    (hP : P s)  : P (State.frameIn s p f) := by
  unfold State.frameIn
  repeat' first
    | with_reducible assumption
    | with_reducible refine keep_rxGate KR ?_ ?_
    | with_reducible refine keep_bump KR ?_
    | with_reducible refine keep_recvUdp KR Ka Ko Ky KF KM Kg KT KW KL KS Kd Kc Kv Kr Kh Km Kb Kp Ke Kk Kl Kn Ks Ki KH KQ ?_
    | split

theorem keep_execFrameRx (KR : KeepRegs P) (Ka : KeepAct P) (Ko : KeepOut P) (Ky : KeepHeld P) (KF : KeepFlt P) (KM : KeepMem P) (Kg : KeepLog P) (KT : KeepTls P) (KW : KeepPwr P) (KL : KeepTime P) (KS : KeepSpn P) (Kd : KeepDlk P) (Kc : KeepClu P) (Kv : KeepConv P) (Kr : KeepRgn P) (Kh : KeepChan P) (Km : KeepMains P) (Kb : KeepStr P) (Kp : KeepCap P) (Ke : KeepGge P) (Kk : KeepGaps P) (Kl : KeepLnk P) (Kn : KeepLane P) (Ks : KeepSeg P) (Ki : KeepRing P) (KH : KeepHs P) (KQ : KeepSnap P) {p : Fin 2} {f : Frame} {s : State}
    (hP : P s) {u : State} (e : execFrameRx p f s = .next u) : P u := by
  unfold execFrameRx at e
  refine keep_act hP ?_ e
  clear e
  repeat' first
    | with_reducible assumption
    | with_reducible refine keep_frameIn KR Ka Ko Ky KF KM Kg KT KW KL KS Kd Kc Kv Kr Kh Km Kb Kp Ke Kk Kl Kn Ks Ki KH KQ ?_

theorem keep_vc0Deliver (KR : KeepRegs P) (Ko : KeepOut P) (KF : KeepFlt P) (Kg : KeepLog P) (KS : KeepSpn P) (Kb : KeepStr P) (Ke : KeepGge P) (Kk : KeepGaps P) (Kl : KeepLnk P) (Ks : KeepSeg P) (Ki : KeepRing P) {s : State} {k : Nat} {b : List Byte}
    (hP : P s)  : P (State.vc0Deliver s k b) := by
  unfold State.vc0Deliver
  repeat' first
    | with_reducible assumption
    | with_reducible refine keep_enumRx KR Ko KF Kg Kl Ks Ki ?_
    | with_reducible refine keep_exitEventRx KR Ko KF Kg KS Kb Ke Kk Kl Ks Ki ?_
    | with_reducible refine keep_fullTimeWord KR Ko KF Kg KS Kk Kl ?_
    | split

theorem keep_vc1Deliver (KR : KeepRegs P) (Ko : KeepOut P) (KF : KeepFlt P) (Kg : KeepLog P) (KS : KeepSpn P) (Kp : KeepCap P) (Kk : KeepGaps P) (Kl : KeepLnk P) (KQ : KeepSnap P) {s : State} {k : Nat} {b : List Byte}
    (hP : P s)  : P (State.vc1Deliver s k b) := by
  unfold State.vc1Deliver
  repeat' first
    | with_reducible assumption
    | with_reducible refine keep_ringTrigger KR Ko KF Kg KS Kp Kk Kl ?_
    | with_reducible refine keep_snapBroadcast KR Ko Kk Kl KQ ?_
    | with_reducible refine keep_timeNotice KR Ko KS Kk Kl ?_
    | split

theorem keep_vc4Deliver (KR : KeepRegs P) (Ko : KeepOut P) (KF : KeepFlt P) (KM : KeepMem P) (Kg : KeepLog P) (Kb : KeepStr P) (Ke : KeepGge P) (Kk : KeepGaps P) (Kl : KeepLnk P) {s : State} {k : Nat} {b : List Byte}
    (hP : P s)  : P (State.vc4Deliver s k b) := by
  unfold State.vc4Deliver
  extract_lets x0 x1 x2
  try clear_value x0
  try clear_value x1
  have k2 : P x2 := by
    unfold x2
    repeat' first
      | with_reducible assumption
      | with_reducible refine keep_ggeConfirm Ke ?_
  try clear_value x2
  repeat' first
    | with_reducible assumption
    | with_reducible refine keep_sendCell Ko Kl ?_
    | with_reducible refine keep_dropPkt KR Ko KF KM Kg Kb ?_
    | with_reducible refine keep_confirm KR Ko KF KM Kg Kb Kk ?_
    | split

theorem keep_vc5Deliver (KR : KeepRegs P) (Ko : KeepOut P) (KF : KeepFlt P) (Kg : KeepLog P) (KS : KeepSpn P) (Kb : KeepStr P) (Ke : KeepGge P) (Kk : KeepGaps P) (Kl : KeepLnk P) (Ki : KeepRing P) {s : State} {k : Nat} {b : List Byte}
    (hP : P s)  : P (State.vc5Deliver s k b) := by
  unfold State.vc5Deliver
  extract_lets x0 x1
  try clear_value x0
  try clear_value x1
  repeat' first
    | with_reducible assumption
    | with_reducible refine Kl.setLk _ _ _ ?_
    | with_reducible refine keep_mirrorRx KR Ko KF Kg KS Kb Ke Kk Kl Ki ?_
    | split

theorem keep_deliverCell (KR : KeepRegs P) (Ka : KeepAct P) (Ko : KeepOut P) (Ky : KeepHeld P) (KF : KeepFlt P) (KM : KeepMem P) (Kg : KeepLog P) (KT : KeepTls P) (KW : KeepPwr P) (KL : KeepTime P) (KS : KeepSpn P) (Kd : KeepDlk P) (Kc : KeepClu P) (Kv : KeepConv P) (Kr : KeepRgn P) (Kh : KeepChan P) (Km : KeepMains P) (Kb : KeepStr P) (Kp : KeepCap P) (Ke : KeepGge P) (Kk : KeepGaps P) (Kl : KeepLnk P) (Kn : KeepLane P) (Ks : KeepSeg P) (Ki : KeepRing P) (KH : KeepHs P) (KQ : KeepSnap P) {s : State} {k : Fin 2} {vc : Nat} {b : List Byte}
    (hP : P s)  : P (State.deliverCell s k vc b) := by
  unfold State.deliverCell
  repeat' first
    | with_reducible assumption
    | with_reducible refine keep_vc0Deliver KR Ko KF Kg KS Kb Ke Kk Kl Ks Ki ?_
    | with_reducible refine keep_vc1Deliver KR Ko KF Kg KS Kp Kk Kl KQ ?_
    | with_reducible refine keep_vc2Cell KR Ka Ko Ky KF KM Kg KT KW KL KS Kd Kc Kv Kr Kh Km Kb Kp Ke Kk Kl Kn Ks Ki KH KQ ?_
    | with_reducible refine keep_streamCell KR Ko KF KM Kg Kb Ke Kk Kl Ki ?_
    | with_reducible refine keep_vc4Deliver KR Ko KF KM Kg Kb Ke Kk Kl ?_
    | with_reducible refine keep_vc5Deliver KR Ko KF Kg KS Kb Ke Kk Kl Ki ?_
    | split

theorem keep_holdCredit (KH : KeepHs P) {s : State} {n : Nat}
    (hP : P s)  : P (State.holdCredit s n) := by
  unfold State.holdCredit
  extract_lets x0
  repeat' first
    | with_reducible assumption
    | with_reducible refine KH.setHs _ _ ?_ ?_
    | exact fun hq => hq

theorem keep_execCellRx (KR : KeepRegs P) (Ka : KeepAct P) (Ko : KeepOut P) (Ky : KeepHeld P) (KF : KeepFlt P) (KM : KeepMem P) (Kg : KeepLog P) (KT : KeepTls P) (KW : KeepPwr P) (KL : KeepTime P) (KS : KeepSpn P) (Kd : KeepDlk P) (Kc : KeepClu P) (Kv : KeepConv P) (Kr : KeepRgn P) (Kh : KeepChan P) (Km : KeepMains P) (Kb : KeepStr P) (Kp : KeepCap P) (Ke : KeepGge P) (Kk : KeepGaps P) (Kl : KeepLnk P) (Kn : KeepLane P) (Ks : KeepSeg P) (Ki : KeepRing P) (KH : KeepHs P) (KQ : KeepSnap P) {k : Fin 2} {header : BitVec 64} {payload : List Byte} {s : State}
    (hP : P s) {u : State} (e : execCellRx k header payload s = .next u) : P u := by
  unfold execCellRx at e
  refine keep_act hP ?_ e
  clear e
  repeat' first
    | with_reducible assumption
    | with_reducible refine keep_cellCheck Ko Kl ?_
    | with_reducible refine keep_deliverCell KR Ka Ko Ky KF KM Kg KT KW KL KS Kd Kc Kv Kr Kh Km Kb Kp Ke Kk Kl Kn Ks Ki KH KQ ?_
    | with_reducible refine keep_holdCredit KH ?_
    | with_reducible refine keep_settleCredit Ko Kl ?_
    | with_reducible refine keep_fst (by assumption) ?_
    | split
    | dsimp only

end Sys2Proof.Machine
end

