-- ==== Sys2Proof/Laws/KeepPages.lean ====
section
/-! SUPPORT. What the operations of Machine/Pages.lean keep (see Laws/Keep.lean). -/
namespace Sys2Proof.Machine
variable {P : State → Prop}

theorem keep_transfer (KR : KeepRegs P) (KQ : KeepSnap P) {s : State}
    (hP : P s)  : P (State.transfer s) := by
  unfold State.transfer
  extract_lets x0 x1
  have k1 : P x1 := by
    unfold x1
    repeat' first
      | with_reducible assumption
      | dsimp only
      | with_reducible refine KQ.snap _ _ ?_ ?_
      | exact fun hq => hq
  try clear_value x1
  repeat' first
    | with_reducible assumption
    | with_reducible refine KR.setReg _ _ _ ?_
    | with_reducible refine keep_setFlag KR ?_

theorem keep_strobe (KR : KeepRegs P) (KL : KeepTime P) (KQ : KeepSnap P) {s : State} {r : SnapReq}
    (hP : P s)  : P (State.strobe s r) := by
  unfold State.strobe
  extract_lets x0 x1 x2 x3 x4 x5 x6
  have k0 : P x0 := by
    unfold x0
    repeat' first
      | with_reducible assumption
      | with_reducible refine keep_moveTo KL ?_
  try clear_value x0
  have k2 : P x2 := by
    unfold x2
    repeat' first
      | with_reducible assumption
      | dsimp only
      | with_reducible refine KQ.snap _ _ ?_ ?_
      | exact fun hq => Nat.le_trans (List.length_filter_le _ _) hq
  try clear_value x2
  have k3 : P x3 := by
    unfold x3
    repeat' first
      | with_reducible assumption
      | with_reducible refine keep_setFlag KR ?_
      | with_reducible refine keep_setFld KR ?_
  try clear_value x3
  have k4 : P x4 := by
    unfold x4
    repeat' first
      | with_reducible assumption
      | with_reducible refine keep_setPair KR ?_
      | with_reducible refine KR.setReg _ _ _ ?_
  try clear_value x4
  have k5 : P x5 := by
    unfold x5
    repeat' first
      | with_reducible assumption
      | with_reducible refine KR.setReg _ _ _ ?_
  try clear_value x5
  repeat' first
    | with_reducible assumption
    | dsimp only
    | with_reducible refine KQ.snap _ _ ?_ ?_
    | exact fun hq => hq

theorem keep_execSnapshotStrobe (KR : KeepRegs P) (KL : KeepTime P) (KQ : KeepSnap P) {s : State}
    (hP : P s) {u : State} (e : execSnapshotStrobe s = .next u) : P u := by
  unfold execSnapshotStrobe at e
  refine keep_act hP ?_ e
  clear e
  repeat' first
    | with_reducible assumption
    | with_reducible refine keep_transfer KR KQ ?_
    | with_reducible refine keep_strobe KR KL KQ ?_
    | split

theorem keep_execSnapshotTransferDone (KR : KeepRegs P) (KQ : KeepSnap P) {s : State}
    (hP : P s) {u : State} (e : execSnapshotTransferDone s = .next u) : P u := by
  unfold execSnapshotTransferDone at e
  refine keep_act hP ?_ e
  clear e
  repeat' first
    | with_reducible assumption
    | with_reducible refine keep_transfer KR KQ ?_
    | split

end Sys2Proof.Machine
end

