-- ==== Sys2Proof/Laws/KeepRefclk.lean ====
section
/-! SUPPORT. What the operations of Machine/Refclk.lean keep (see Laws/Keep.lean). -/
namespace Sys2Proof.Machine
variable {P : State → Prop}

theorem keep_lossRegion (KR : KeepRegs P) (Ka : KeepAct P) (Ko : KeepOut P) (KF : KeepFlt P) (KM : KeepMem P) (Kg : KeepLog P) (KS : KeepSpn P) (Kc : KeepClu P) (Kr : KeepRgn P) (Kh : KeepChan P) (Kb : KeepStr P) (Kp : KeepCap P) (Kk : KeepGaps P) (Kl : KeepLnk P) {s : State} {g : Nat}
    (hP : P s)  : P (State.lossRegion s g) := by
  unfold State.lossRegion
  extract_lets x0 x1
  try clear_value x0
  try clear_value x1
  repeat' first
    | with_reducible assumption
    | with_reducible refine Kr.setRg _ _ _ ?_
    | with_reducible refine keep_setRgState KR ?_
    | with_reducible refine keep_convEnds KR Ka Ko KF KM Kg KS Kr Kh Kb Kp Kk Kl ?_
    | with_reducible refine keep_regionStopped KR Ka Ko KF KM Kg KS Kc Kr Kh Kb Kp Kk Kl ?_
    | with_reducible refine keep_refuseStart KR KF Kg ?_
    | split

theorem keep_lossBegin (KR : KeepRegs P) (Ko : KeepOut P) (KF : KeepFlt P) (KM : KeepMem P) (Kg : KeepLog P) (Kb : KeepStr P) {s : State}
    (hP : P s)  : P (State.lossBegin s) := by
  unfold State.lossBegin
  extract_lets x0
  have k0 : P x0 := by
    unfold x0
    repeat' first
      | with_reducible assumption
      | with_reducible refine keep_lossOff KR Ko KF KM Kg Kb ?_
      | (with_reducible refine keep_forEach ?_ ?_)
      | (intro s x hx)
  try clear_value x0
  repeat' first
    | with_reducible assumption
    | with_reducible refine Kb.setStr _ _ _ ?_
    | (with_reducible refine keep_forEach ?_ ?_)
    | (intro s x hx)

theorem keep_execRefclkLoss (KR : KeepRegs P) (Ka : KeepAct P) (Ko : KeepOut P) (KF : KeepFlt P) (KM : KeepMem P) (Kg : KeepLog P) (KS : KeepSpn P) (Kd : KeepDlk P) (Kc : KeepClu P) (Kr : KeepRgn P) (Kh : KeepChan P) (Kb : KeepStr P) (Kp : KeepCap P) (Kk : KeepGaps P) (Kl : KeepLnk P) (Kn : KeepLane P) {s : State}
    (hP : P s) {u : State} (e : execRefclkLoss s = .next u) : P u := by
  unfold execRefclkLoss at e
  refine keep_act hP ?_ e
  clear e
  extract_lets x0 x1 x2 x3 x4
  have k0 : P x0 := by
    unfold x0
    repeat' first
      | with_reducible assumption
      | with_reducible refine keep_lossBegin KR Ko KF KM Kg Kb ?_
  try clear_value x0
  have k1 : P x1 := by
    unfold x1
    repeat' first
      | with_reducible assumption
      | with_reducible refine keep_dieFreeze Kd ?_
      | (with_reducible refine keep_forEach ?_ ?_)
      | (intro s x hx)
  try clear_value x1
  try clear_value x2
  have k3 : P x3 := by
    unfold x3
    repeat' first
      | with_reducible assumption
      | with_reducible refine KS.spn _ _ ?_
  try clear_value x3
  have k4 : P x4 := by
    unfold x4
    repeat' first
      | with_reducible assumption
      | with_reducible refine keep_setLine KR KF Kg ?_
      | with_reducible refine keep_aliveLow Ko KF ?_
      | with_reducible refine keep_lanesLost KR KF Kg Kn ?_
  try clear_value x4
  repeat' first
    | with_reducible assumption
    | with_reducible refine keep_lossRegion KR Ka Ko KF KM Kg KS Kc Kr Kh Kb Kp Kk Kl ?_
    | (with_reducible refine keep_forEach ?_ ?_)
    | (intro s x hx)
    | split

theorem keep_lossRelock (KR : KeepRegs P) (Ko : KeepOut P) (KF : KeepFlt P) (KM : KeepMem P) (Kg : KeepLog P) (Kb : KeepStr P) {s : State} {t : Nat} {c : Nat}
    (hP : P s)  : P (State.lossRelock s t c) := by
  unfold State.lossRelock
  extract_lets x0
  try clear_value x0
  repeat' first
    | with_reducible assumption
    | with_reducible refine Kb.setStr _ _ _ ?_
    | with_reducible refine keep_lossGap KR Ko KF KM Kg Kb ?_
    | split

theorem keep_execRefclkRelock (KR : KeepRegs P) (Ko : KeepOut P) (KF : KeepFlt P) (KM : KeepMem P) (Kg : KeepLog P) (KL : KeepTime P) (KS : KeepSpn P) (Kd : KeepDlk P) (Kr : KeepRgn P) (Km : KeepMains P) (Kb : KeepStr P) (Kp : KeepCap P) (Kk : KeepGaps P) (Kl : KeepLnk P) (Kn : KeepLane P) (KQ : KeepSnap P) {cycles : Nat} {s : State}
    (hP : P s) {u : State} (e : execRefclkRelock cycles s = .next u) : P u := by
  unfold execRefclkRelock at e
  refine keep_act hP ?_ e
  clear e
  extract_lets x0 x1 x2 x3 x4 x5 x6 x7 x8 x9
  try clear_value x0
  try clear_value x1
  try clear_value x2
  try clear_value x4
  have k5 : P x5 := by
    unfold x5
    repeat' first
      | with_reducible assumption
      | dsimp only
      | with_reducible refine keep_relock KL KS Km KQ ?_ ?_ ?_
      | exact Nat.le_max_left _ _
      | exact fun hq => Nat.le_trans (List.length_filter_le _ _) hq
  try clear_value x5
  have k6 : P x6 := by
    unfold x6
    repeat' first
      | with_reducible assumption
      | with_reducible refine keep_bumpBy KR ?_
  try clear_value x6
  have k7 : P x7 := by
    unfold x7
    repeat' first
      | with_reducible assumption
      | with_reducible refine keep_setTkState KR ?_
      | (with_reducible refine keep_forEach ?_ ?_)
      | (intro s x hx)
      | split
  try clear_value x7
  have k8 : P x8 := by
    unfold x8
    repeat' first
      | with_reducible assumption
      | with_reducible refine keep_updTq KR Ko KS Kk Kl ?_
      | with_reducible refine keep_setLine KR KF Kg ?_
      | with_reducible refine keep_cmpStep KR Ko KF Kg KS Kr Kp Kk Kl KQ ?_
      | with_reducible refine keep_lanesBack KR KF Kg Kn ?_
  try clear_value x8
  have k9 : P x9 := by
    unfold x9
    repeat' first
      | with_reducible assumption
      | with_reducible refine keep_dieResume Ko Kd ?_
      | (with_reducible refine keep_forEach ?_ ?_)
      | (intro s x hx)
  try clear_value x9
  repeat' first
    | with_reducible assumption
    | with_reducible refine keep_lossRelock KR Ko KF KM Kg Kb ?_
    | (with_reducible refine keep_forEach ?_ ?_)
    | (intro s x hx)
    | split

theorem keep_execRegionRestart (KR : KeepRegs P) (Ka : KeepAct P) (Ko : KeepOut P) (KF : KeepFlt P) (KM : KeepMem P) (Kg : KeepLog P) (KW : KeepPwr P) (KL : KeepTime P) (KS : KeepSpn P) (Kc : KeepClu P) (Kv : KeepConv P) (Kr : KeepRgn P) (Kh : KeepChan P) (Kb : KeepStr P) (Kp : KeepCap P) (Kk : KeepGaps P) (Kl : KeepLnk P) {g : Fin 8} {s : State}
    (hP : P s) {u : State} (e : execRegionRestart g s = .next u) : P u := by
  unfold execRegionRestart at e
  refine keep_act hP ?_ e
  clear e
  repeat' first
    | with_reducible assumption
    | with_reducible refine keep_moveTo KL ?_
    | with_reducible refine keep_lossGap KR Ko KF KM Kg Kb ?_
    | with_reducible refine keep_startRegion KR Ka Ko KF KM Kg KW KL KS Kc Kv Kr Kh Kb Kp Kk Kl ?_
    | (with_reducible refine keep_forEach ?_ ?_)
    | (intro s x hx)
    | split

end Sys2Proof.Machine
end

