-- ==== Sys2Proof/Laws/KeepSafetyRows.lean ====
section
/-! SUPPORT. What the operations of Machine/SafetyRows.lean keep (see Laws/Keep.lean). -/
namespace Sys2Proof.Machine
variable {P : State → Prop}

theorem keep_execSafetyCycle (KR : KeepRegs P) (Ko : KeepOut P) (KF : KeepFlt P) (Kg : KeepLog P) (KT : KeepTls P) (KL : KeepTime P) (Kd : KeepDlk P) (Kl : KeepLnk P) (KH : KeepHs P) {o : CycleObs} {s : State}
    (hP : P s) {u : State} (e : execSafetyCycle o s = .next u) : P u := by
  unfold execSafetyCycle at e
  refine keep_act hP ?_ e
  clear e
  repeat' first
    | with_reducible assumption
    | with_reducible refine keep_safetyCycle KR Ko KF Kg KT KL Kd ?_
    | with_reducible refine keep_drainAnswers KR Ko KF Kg KT Kl KH ?_

theorem keep_replyCrc (KR : KeepRegs P) (Ko : KeepOut P) (KF : KeepFlt P) (Kg : KeepLog P) (KT : KeepTls P) (Kl : KeepLnk P) (KH : KeepHs P) {s : State} {crc : Nat}
    (hP : P s)  : P (State.replyCrc s crc) := by
  unfold State.replyCrc
  extract_lets x0
  repeat' first
    | with_reducible assumption
    | with_reducible refine KT.setTls _ _ ?_ ?_
    | with_reducible refine keep_finish KR Ko KF Kg Kl KH ?_
    | with_reducible refine KH.setHs _ _ ?_ ?_
    | with_reducible refine keep_raiseHub KR KF Kg ?_
    | split
    | dsimp only
    | exact fun hq => hq

theorem keep_crossWord (KR : KeepRegs P) (Ko : KeepOut P) (KF : KeepFlt P) (Kg : KeepLog P) (KT : KeepTls P) (Kl : KeepLnk P) (KH : KeepHs P) {s : State} {w : Nat}
    (hP : P s)  : P (State.crossWord s w) := by
  unfold State.crossWord
  extract_lets x0
  repeat' first
    | with_reducible assumption
    | with_reducible refine KT.setTls _ _ ?_ ?_
    | with_reducible refine keep_replyCrc KR Ko KF Kg KT Kl KH ?_
    | split
    | dsimp only
    | exact fun hq => hq

theorem keep_execCrossChannelWord (KR : KeepRegs P) (Ko : KeepOut P) (KF : KeepFlt P) (Kg : KeepLog P) (KT : KeepTls P) (Kd : KeepDlk P) (Kl : KeepLnk P) (KH : KeepHs P) {w : DieBody} {s : State}
    (hP : P s) {u : State} (e : execCrossChannelWord w s = .next u) : P u := by
  unfold execCrossChannelWord at e
  refine keep_act hP ?_ e
  clear e
  repeat' first
    | with_reducible assumption
    | with_reducible refine keep_dieReceive KR Ko KF Kg Kd ?_ ?_
    | with_reducible refine keep_crossWord KR Ko KF Kg KT Kl KH ?_
    | intro _ h

end Sys2Proof.Machine
end

