-- ==== Sys2Proof/Laws/KeepExec.lean ====
section
/-! SUPPORT. Every command keeps what the updates it is made of keep: the case split over all rows, once. -/
namespace Sys2Proof.Machine
variable {P : State → Prop}

/-- A property is kept by the updates of a part. -/
def KeepPart (P : State → Prop) : Part → Prop
  | .regs => KeepRegs P
  | .effect => KeepAct P
  | .outputs => KeepOut P
  | .held => KeepHeld P
  | .faults => KeepFlt P
  | .memory => KeepMem P
  | .log => KeepLog P
  | .tailstock => KeepTls P
  | .power => KeepPwr P
  | .time => KeepTime P
  | .spindle => KeepSpn P
  | .dieLinks => KeepDlk P
  | .drivers => KeepClu P
  | .converters => KeepConv P
  | .regions => KeepRgn P
  | .channels => KeepChan P
  | .mains => KeepMains P
  | .streams => KeepStr P
  | .captures => KeepCap P
  | .gouge => KeepGge P
  | .gaps => KeepGaps P
  | .links => KeepLnk P
  | .lanes => KeepLane P
  | .segment => KeepSeg P
  | .ring => KeepRing P
  | .headstock => KeepHs P
  | .snapshots => KeepSnap P

/-- A command that answers a next state keeps a property that the updates of the parts it may change keep; a reset must keep it too
(R442), and POWER_ON_RESET also starts the always-on count again (R434). -/
theorem keep_exec {c : Instr} {s u : State} (K : ∀ p, c.changes.contains p = true → KeepPart P p)
    (KX : c.changes = Part.every → KeepReset P)
    (hz : (∃ hid, c = .powerOnReset hid) → ∀ (s : State) x, P s → P { s with always := x }) (h : P s) (e : exec c s = .next u) :
    P u := by
  cases c with
  | pairLowerRead => exact keep_execPairLowerRead (K .regs rfl) (K .outputs rfl) (K .held rfl) (K .faults rfl) (K .log rfl) (K .dieLinks rfl) (K .captures rfl) (K .gouge rfl) h e
  | pairLowerWrite => exact keep_execPairLowerWrite (K .regs rfl) (K .effect rfl) (K .outputs rfl) (K .held rfl) (K .faults rfl) (K .memory rfl) (K .log rfl) (K .tailstock rfl) (K .power rfl) (K .time rfl) (K .spindle rfl) (K .dieLinks rfl) (K .drivers rfl) (K .converters rfl) (K .regions rfl) (K .channels rfl) (K .mains rfl) (K .streams rfl) (K .captures rfl) (K .gouge rfl) (K .gaps rfl) (K .links rfl) (K .lanes rfl) (K .segment rfl) (K .ring rfl) (K .headstock rfl) (K .snapshots rfl) h e
  | pairUpperWrite => exact keep_execPairUpperWrite (K .regs rfl) (K .effect rfl) (K .outputs rfl) (K .held rfl) (K .faults rfl) (K .memory rfl) (K .log rfl) (K .tailstock rfl) (K .power rfl) (K .time rfl) (K .spindle rfl) (K .dieLinks rfl) (K .drivers rfl) (K .converters rfl) (K .regions rfl) (K .channels rfl) (K .mains rfl) (K .streams rfl) (K .captures rfl) (K .gouge rfl) (K .gaps rfl) (K .links rfl) (K .lanes rfl) (K .segment rfl) (K .ring rfl) (K .headstock rfl) (K .snapshots rfl) h e
  | registerWrite => exact keep_execRegisterWrite (K .regs rfl) (K .effect rfl) (K .outputs rfl) (K .held rfl) (K .faults rfl) (K .memory rfl) (K .log rfl) (K .tailstock rfl) (K .power rfl) (K .time rfl) (K .spindle rfl) (K .dieLinks rfl) (K .drivers rfl) (K .converters rfl) (K .regions rfl) (K .channels rfl) (K .mains rfl) (K .streams rfl) (K .captures rfl) (K .gouge rfl) (K .gaps rfl) (K .links rfl) (K .lanes rfl) (K .segment rfl) (K .ring rfl) (K .headstock rfl) (K .snapshots rfl) h e
  | aliasWrite => exact keep_execAliasWrite (K .regs rfl) (K .effect rfl) (K .outputs rfl) (K .held rfl) (K .faults rfl) (K .memory rfl) (K .log rfl) (K .tailstock rfl) (K .power rfl) (K .time rfl) (K .spindle rfl) (K .dieLinks rfl) (K .drivers rfl) (K .converters rfl) (K .regions rfl) (K .channels rfl) (K .mains rfl) (K .streams rfl) (K .captures rfl) (K .gouge rfl) (K .gaps rfl) (K .links rfl) (K .lanes rfl) (K .segment rfl) (K .ring rfl) (K .headstock rfl) (K .snapshots rfl) h e
  | gougeImageWrite => exact keep_execGougeImageWrite (K .regs rfl) (K .effect rfl) (K .outputs rfl) (K .held rfl) (K .faults rfl) (K .memory rfl) (K .log rfl) (K .tailstock rfl) (K .power rfl) (K .time rfl) (K .spindle rfl) (K .dieLinks rfl) (K .drivers rfl) (K .converters rfl) (K .regions rfl) (K .channels rfl) (K .mains rfl) (K .streams rfl) (K .captures rfl) (K .gouge rfl) (K .gaps rfl) (K .links rfl) (K .lanes rfl) (K .segment rfl) (K .ring rfl) (K .headstock rfl) (K .snapshots rfl) h e
  | snapPinEdge => exact keep_execSnapPinEdge (K .regs rfl) (K .outputs rfl) (K .gaps rfl) (K .links rfl) (K .snapshots rfl) h e
  | snapCtrlSoft => exact keep_execSnapCtrlSoft (K .regs rfl) (K .outputs rfl) (K .gaps rfl) (K .links rfl) (K .snapshots rfl) h e
  | snapshotBroadcastRx => exact keep_execSnapshotBroadcastRx (K .regs rfl) (K .outputs rfl) (K .gaps rfl) (K .links rfl) (K .snapshots rfl) h e
  | snapshotStrobe => exact keep_execSnapshotStrobe (K .regs rfl) (K .time rfl) (K .snapshots rfl) h e
  | snapshotTransferDone => exact keep_execSnapshotTransferDone (K .regs rfl) (K .snapshots rfl) h e
  | windowEdge => exact keep_execWindowEdge (K .regs rfl) (K .effect rfl) (K .outputs rfl) (K .faults rfl) (K .memory rfl) (K .log rfl) (K .power rfl) (K .time rfl) (K .spindle rfl) (K .drivers rfl) (K .converters rfl) (K .regions rfl) (K .channels rfl) (K .streams rfl) (K .captures rfl) (K .gaps rfl) (K .links rfl) h e
  | windowResult => exact keep_execWindowResult (K .regs rfl) (K .effect rfl) (K .outputs rfl) (K .faults rfl) (K .memory rfl) (K .log rfl) (K .spindle rfl) (K .dieLinks rfl) (K .drivers rfl) (K .converters rfl) (K .regions rfl) (K .channels rfl) (K .streams rfl) (K .captures rfl) (K .gaps rfl) (K .links rfl) h e
  | resultDeadline => exact keep_execResultDeadline (K .regs rfl) (K .effect rfl) (K .outputs rfl) (K .faults rfl) (K .log rfl) (K .time rfl) (K .spindle rfl) (K .channels rfl) (K .captures rfl) (K .gaps rfl) (K .links rfl) h e
  | openWireCleared => exact keep_execOpenWireCleared (K .regs rfl) (K .faults rfl) (K .log rfl) (K .regions rfl) (K .channels rfl) h e
  | dieLinkBadWord => exact keep_execDieLinkBadWord (K .regs rfl) (K .outputs rfl) (K .faults rfl) (K .log rfl) (K .dieLinks rfl) h e
  | dieLinkNakRx => exact keep_execDieLinkNakRx (K .regs rfl) (K .outputs rfl) (K .faults rfl) (K .log rfl) (K .dieLinks rfl) h e
  | dieLinkAckRx => exact keep_execDieLinkAckRx (K .regs rfl) (K .outputs rfl) (K .faults rfl) (K .log rfl) (K .dieLinks rfl) h e
  | dieLinkDown => exact keep_execDieLinkDown (K .regs rfl) (K .faults rfl) (K .log rfl) (K .dieLinks rfl) (K .converters rfl) (K .regions rfl) (K .channels rfl) (K .gouge rfl) h e
  | dieLinkRetry => exact keep_execDieLinkRetry (K .outputs rfl) h e
  | dieLinkUp => exact keep_execDieLinkUp (K .regs rfl) (K .effect rfl) (K .outputs rfl) (K .faults rfl) (K .memory rfl) (K .log rfl) (K .spindle rfl) (K .dieLinks rfl) (K .drivers rfl) (K .converters rfl) (K .regions rfl) (K .channels rfl) (K .streams rfl) (K .captures rfl) (K .gaps rfl) (K .links rfl) h e
  | feRegisterWriteArrival => exact keep_execFeRegisterWriteArrival (K .regs rfl) (K .effect rfl) (K .outputs rfl) (K .faults rfl) (K .memory rfl) (K .log rfl) (K .spindle rfl) (K .dieLinks rfl) (K .drivers rfl) (K .regions rfl) (K .channels rfl) (K .streams rfl) (K .captures rfl) (K .gaps rfl) (K .links rfl) h e
  | dieLinkReadResponse => exact keep_execDieLinkReadResponse (K .regs rfl) (K .outputs rfl) (K .faults rfl) (K .log rfl) (K .dieLinks rfl) (K .regions rfl) h e
  | sequencerEventWord => exact keep_execSequencerEventWord (K .regs rfl) (K .outputs rfl) (K .faults rfl) (K .memory rfl) (K .log rfl) (K .dieLinks rfl) (K .regions rfl) (K .streams rfl) h e
  | faultReportWord => exact keep_execFaultReportWord (K .regs rfl) (K .outputs rfl) (K .faults rfl) (K .log rfl) (K .dieLinks rfl) (K .converters rfl) (K .regions rfl) (K .channels rfl) (K .gouge rfl) h e
  | gridMark => exact keep_execGridMark (K .outputs rfl) (K .time rfl) (K .spindle rfl) (K .dieLinks rfl) h e
  | spnLtsRead => exact keep_execSpnLtsRead (K .outputs rfl) (K .held rfl) h e
  | syncRx => exact keep_execSyncRx (K .regs rfl) (K .outputs rfl) (K .faults rfl) (K .log rfl) (K .tailstock rfl) (K .power rfl) (K .time rfl) (K .spindle rfl) (K .regions rfl) (K .channels rfl) (K .mains rfl) (K .streams rfl) (K .captures rfl) (K .gaps rfl) (K .links rfl) (K .lanes rfl) (K .ring rfl) (K .headstock rfl) (K .snapshots rfl) h e
  | followUpRx => exact keep_execFollowUpRx (K .regs rfl) (K .outputs rfl) (K .faults rfl) (K .log rfl) (K .tailstock rfl) (K .power rfl) (K .time rfl) (K .spindle rfl) (K .regions rfl) (K .channels rfl) (K .mains rfl) (K .streams rfl) (K .captures rfl) (K .gaps rfl) (K .links rfl) (K .lanes rfl) (K .ring rfl) (K .headstock rfl) (K .snapshots rfl) h e
  | delayReqSend => exact keep_execDelayReqSend (K .outputs rfl) (K .time rfl) (K .spindle rfl) h e
  | delayRespRx => exact keep_execDelayRespRx (K .regs rfl) (K .outputs rfl) (K .faults rfl) (K .log rfl) (K .tailstock rfl) (K .power rfl) (K .time rfl) (K .spindle rfl) (K .regions rfl) (K .channels rfl) (K .mains rfl) (K .streams rfl) (K .captures rfl) (K .gaps rfl) (K .links rfl) (K .lanes rfl) (K .ring rfl) (K .headstock rfl) (K .snapshots rfl) h e
  | pdelayReqSend => exact keep_execPdelayReqSend (K .outputs rfl) (K .time rfl) (K .spindle rfl) h e
  | pdelayReqRx => exact keep_execPdelayReqRx (K .regs rfl) (K .outputs rfl) (K .time rfl) h e
  | pdelayRespRx => exact keep_execPdelayRespRx (K .regs rfl) (K .spindle rfl) h e
  | announceRx => exact keep_execAnnounceRx (K .regs rfl) (K .outputs rfl) (K .faults rfl) (K .log rfl) (K .spindle rfl) (K .gaps rfl) (K .links rfl) h e
  | announceReceiptTimeout => exact keep_execAnnounceReceiptTimeout (K .regs rfl) (K .outputs rfl) (K .faults rfl) (K .log rfl) (K .time rfl) (K .spindle rfl) (K .gaps rfl) (K .links rfl) h e
  | syncTimeout => exact keep_execSyncTimeout (K .regs rfl) (K .outputs rfl) (K .faults rfl) (K .log rfl) (K .time rfl) (K .spindle rfl) (K .gaps rfl) (K .links rfl) h e
  | ppsInEdge => exact keep_execPpsInEdge (K .regs rfl) (K .outputs rfl) (K .faults rfl) (K .log rfl) (K .tailstock rfl) (K .power rfl) (K .time rfl) (K .spindle rfl) (K .regions rfl) (K .channels rfl) (K .mains rfl) (K .streams rfl) (K .captures rfl) (K .gaps rfl) (K .links rfl) (K .lanes rfl) (K .ring rfl) (K .headstock rfl) (K .snapshots rfl) h e
  | ppsMissing => exact keep_execPpsMissing (K .regs rfl) (K .outputs rfl) (K .faults rfl) (K .log rfl) (K .time rfl) (K .spindle rfl) (K .gaps rfl) (K .links rfl) h e
  | tcExchangeTimeout => exact keep_execTcExchangeTimeout (K .regs rfl) (K .outputs rfl) (K .faults rfl) (K .log rfl) (K .time rfl) (K .spindle rfl) (K .gaps rfl) (K .links rfl) h e
  | trackerQualified => exact keep_execTrackerQualified (K .regs rfl) (K .outputs rfl) (K .time rfl) (K .spindle rfl) (K .gaps rfl) (K .links rfl) h e
  | trackerLockChange => exact keep_execTrackerLockChange (K .regs rfl) (K .outputs rfl) (K .spindle rfl) (K .gaps rfl) (K .links rfl) h e
  | domainDisagreement => exact keep_execDomainDisagreement (K .regs rfl) (K .faults rfl) (K .log rfl) (K .spindle rfl) h e
  | holdExpired => exact keep_execHoldExpired (K .regs rfl) (K .outputs rfl) (K .faults rfl) (K .log rfl) (K .time rfl) (K .spindle rfl) (K .gaps rfl) (K .links rfl) h e
  | spnSwForce => exact keep_execSpnSwForce (K .regs rfl) (K .outputs rfl) (K .faults rfl) (K .log rfl) (K .spindle rfl) (K .gaps rfl) (K .links rfl) h e
  | revertSwitch => exact keep_execRevertSwitch (K .regs rfl) (K .outputs rfl) (K .faults rfl) (K .log rfl) (K .time rfl) (K .spindle rfl) (K .gaps rfl) (K .links rfl) h e
  | spnCtrlStep => exact keep_execSpnCtrlStep (K .regs rfl) (K .outputs rfl) (K .faults rfl) (K .log rfl) (K .tailstock rfl) (K .power rfl) (K .time rfl) (K .spindle rfl) (K .regions rfl) (K .channels rfl) (K .mains rfl) (K .streams rfl) (K .captures rfl) (K .gaps rfl) (K .links rfl) (K .lanes rfl) (K .ring rfl) (K .headstock rfl) (K .snapshots rfl) h e
  | startAfterStep => exact keep_execStartAfterStep (K .regs rfl) (K .faults rfl) (K .log rfl) (K .time rfl) (K .regions rfl) h e
  | refclkLoss => exact keep_execRefclkLoss (K .regs rfl) (K .effect rfl) (K .outputs rfl) (K .faults rfl) (K .memory rfl) (K .log rfl) (K .spindle rfl) (K .dieLinks rfl) (K .drivers rfl) (K .regions rfl) (K .channels rfl) (K .streams rfl) (K .captures rfl) (K .gaps rfl) (K .links rfl) (K .lanes rfl) h e
  | refclkRelock => exact keep_execRefclkRelock (K .regs rfl) (K .outputs rfl) (K .faults rfl) (K .memory rfl) (K .log rfl) (K .time rfl) (K .spindle rfl) (K .dieLinks rfl) (K .regions rfl) (K .mains rfl) (K .streams rfl) (K .captures rfl) (K .gaps rfl) (K .links rfl) (K .lanes rfl) (K .snapshots rfl) h e
  | regionRestart => exact keep_execRegionRestart (K .regs rfl) (K .effect rfl) (K .outputs rfl) (K .faults rfl) (K .memory rfl) (K .log rfl) (K .power rfl) (K .time rfl) (K .spindle rfl) (K .drivers rfl) (K .converters rfl) (K .regions rfl) (K .channels rfl) (K .streams rfl) (K .captures rfl) (K .gaps rfl) (K .links rfl) h e
  | ppsOutRise => exact keep_execPpsOutRise (K .outputs rfl) (K .time rfl) (K .spindle rfl) h e
  | ppsOutFall => exact keep_execPpsOutFall (K .outputs rfl) (K .time rfl) (K .spindle rfl) h e
  | cmpArm => exact keep_execCmpArm (K .regs rfl) (K .outputs rfl) (K .held rfl) (K .faults rfl) (K .log rfl) (K .spindle rfl) (K .regions rfl) (K .captures rfl) (K .gaps rfl) (K .links rfl) (K .snapshots rfl) h e
  | cmpFire => exact keep_execCmpFire (K .regs rfl) (K .outputs rfl) (K .faults rfl) (K .log rfl) (K .time rfl) (K .spindle rfl) (K .regions rfl) (K .captures rfl) (K .gaps rfl) (K .links rfl) (K .snapshots rfl) h e
  | cmpCtrlDisarm => exact keep_execCmpCtrlDisarm (K .regs rfl) h e
  | trigOutPulseEnd => exact keep_execTrigOutPulseEnd (K .outputs rfl) (K .time rfl) (K .spindle rfl) h e
  | timeExchangeStart => exact keep_execTimeExchangeStart (K .outputs rfl) (K .time rfl) (K .spindle rfl) (K .links rfl) h e
  | timeT1Rx => exact keep_execTimeT1Rx (K .regs rfl) (K .outputs rfl) (K .faults rfl) (K .log rfl) (K .time rfl) (K .spindle rfl) (K .gaps rfl) (K .links rfl) h e
  | fullTimeWordRx k xseq tstat sender t => exact keep_execFullTimeWordRx (K .regs rfl) (K .outputs rfl) (K .faults rfl) (K .log rfl) (K .spindle rfl) (K .gaps rfl) (K .links rfl) (_sender := sender) h e
  | timeT3Rx k xseq stamp ph => exact keep_execTimeT3Rx (K .outputs rfl) (K .spindle rfl) (K .links rfl) (_stamp := stamp) h e
  | timeT4Rx => exact keep_execTimeT4Rx (K .regs rfl) (K .outputs rfl) (K .faults rfl) (K .log rfl) (K .tailstock rfl) (K .power rfl) (K .time rfl) (K .spindle rfl) (K .regions rfl) (K .channels rfl) (K .mains rfl) (K .streams rfl) (K .captures rfl) (K .gaps rfl) (K .links rfl) (K .lanes rfl) (K .ring rfl) (K .headstock rfl) (K .snapshots rfl) h e
  | timeStatusNoticeRx => exact keep_execTimeStatusNoticeRx (K .regs rfl) (K .outputs rfl) (K .spindle rfl) (K .gaps rfl) (K .links rfl) h e
  | referenceDeviation => exact keep_execReferenceDeviation (K .regs rfl) (K .faults rfl) (K .log rfl) (K .drivers rfl) h e
  | senseOpen => exact keep_execSenseOpen (K .regs rfl) (K .faults rfl) (K .log rfl) (K .drivers rfl) h e
  | excRegulationFault => exact keep_execExcRegulationFault (K .regs rfl) (K .faults rfl) (K .log rfl) (K .drivers rfl) h e
  | excDropout => exact keep_execExcDropout (K .regs rfl) (K .faults rfl) (K .log rfl) (K .drivers rfl) h e
  | vexcLow => exact keep_execVexcLow (K .regs rfl) (K .faults rfl) (K .log rfl) h e
  | excCurrentLimit => exact keep_execExcCurrentLimit (K .regs rfl) (K .faults rfl) (K .log rfl) h e
  | excShutdown => exact keep_execExcShutdown (K .regs rfl) (K .faults rfl) (K .log rfl) (K .drivers rfl) h e
  | cluExcCtrlClrShut => exact keep_execCluExcCtrlClrShut (K .regs rfl) (K .outputs rfl) (K .dieLinks rfl) (K .regions rfl) h e
  | excAutoReversal => exact keep_execExcAutoReversal (K .regs rfl) (K .effect rfl) (K .faults rfl) (K .log rfl) (K .drivers rfl) h e
  | excRampEnd => exact keep_execExcRampEnd (K .regs rfl) (K .drivers rfl) h e
  | settlePeriodEnd => exact keep_execSettlePeriodEnd (K .drivers rfl) h e
  | excMeasUpdate => exact keep_execExcMeasUpdate (K .regs rfl) h e
  | integratorCheckDone => exact keep_execIntegratorCheckDone (K .regs rfl) (K .faults rfl) (K .log rfl) (K .converters rfl) (K .regions rfl) (K .channels rfl) h e
  | strobeMisaligned => exact keep_execStrobeMisaligned (K .regs rfl) (K .faults rfl) (K .log rfl) (K .converters rfl) h e
  | rgnCtrlStart => exact keep_execRgnCtrlStart (K .regs rfl) (K .effect rfl) (K .outputs rfl) (K .faults rfl) (K .memory rfl) (K .log rfl) (K .spindle rfl) (K .dieLinks rfl) (K .drivers rfl) (K .regions rfl) (K .channels rfl) (K .streams rfl) (K .captures rfl) (K .gaps rfl) (K .links rfl) h e
  | rgnCtrlStop => exact keep_execRgnCtrlStop (K .regs rfl) (K .effect rfl) (K .outputs rfl) (K .faults rfl) (K .memory rfl) (K .log rfl) (K .spindle rfl) (K .dieLinks rfl) (K .drivers rfl) (K .regions rfl) (K .channels rfl) (K .streams rfl) (K .captures rfl) (K .gaps rfl) (K .links rfl) h e
  | regionStartPoint => exact keep_execRegionStartPoint (K .regs rfl) (K .effect rfl) (K .outputs rfl) (K .faults rfl) (K .memory rfl) (K .log rfl) (K .power rfl) (K .time rfl) (K .spindle rfl) (K .drivers rfl) (K .converters rfl) (K .regions rfl) (K .channels rfl) (K .streams rfl) (K .captures rfl) (K .gaps rfl) (K .links rfl) h e
  | mainsEdge => exact keep_execMainsEdge (K .regs rfl) (K .mains rfl) h e
  | mainsHold => exact keep_execMainsHold (K .regs rfl) (K .faults rfl) (K .log rfl) (K .time rfl) (K .mains rfl) h e
  | mainsHoldEnd => exact keep_execMainsHoldEnd (K .regs rfl) (K .faults rfl) (K .log rfl) (K .mains rfl) h e
  | comparatorCrossing => exact keep_execComparatorCrossing (K .regs rfl) (K .outputs rfl) (K .faults rfl) (K .memory rfl) (K .log rfl) (K .time rfl) (K .spindle rfl) (K .channels rfl) (K .streams rfl) (K .captures rfl) (K .gaps rfl) (K .links rfl) h e
  | burstEnd => exact keep_execBurstEnd (K .regs rfl) (K .channels rfl) h e
  | comparatorHoldoffEnd => exact keep_execComparatorHoldoffEnd (K .regs rfl) h e
  | comparatorOverrun => exact keep_execComparatorOverrun (K .regs rfl) (K .outputs rfl) (K .faults rfl) (K .memory rfl) (K .log rfl) (K .time rfl) (K .channels rfl) (K .streams rfl) h e
  | comparatorStuck => exact keep_execComparatorStuck (K .regs rfl) (K .outputs rfl) (K .faults rfl) (K .memory rfl) (K .log rfl) (K .channels rfl) (K .streams rfl) h e
  | comparatorBandReentry => exact keep_execComparatorBandReentry (K .regs rfl) (K .faults rfl) (K .log rfl) (K .channels rfl) h e
  | halt => exact keep_execHalt (K .regs rfl) (K .effect rfl) (K .regions rfl) h e
  | nop => exact keep_execNop (K .regs rfl) (K .regions rfl) h e
  | waitCmp => exact keep_execWaitCmp (K .regs rfl) (K .regions rfl) h e
  | cal => exact keep_execCal (K .regs rfl) (K .regions rfl) h e
  | imp => exact keep_execImp (K .regs rfl) (K .regions rfl) h e
  | calimp => exact keep_execCalimp (K .regs rfl) (K .regions rfl) h e
  | calNext => exact keep_execCalNext (K .regs rfl) (K .regions rfl) h e
  | impNext => exact keep_execImpNext (K .regs rfl) (K .regions rfl) h e
  | calimpNext => exact keep_execCalimpNext (K .regs rfl) (K .regions rfl) h e
  | excSet => exact keep_execExcSet (K .regs rfl) (K .effect rfl) (K .faults rfl) (K .log rfl) (K .drivers rfl) (K .regions rfl) h e
  | excPol => exact keep_execExcPol (K .regs rfl) (K .effect rfl) (K .faults rfl) (K .log rfl) (K .drivers rfl) (K .regions rfl) h e
  | mark => exact keep_execMark (K .regs rfl) (K .regions rfl) h e
  | jump => exact keep_execJump (K .regs rfl) (K .regions rfl) h e
  | waitIdle => exact keep_execWaitIdle (K .regs rfl) (K .regions rfl) h e
  | seqInvalidEntry => exact keep_execSeqInvalidEntry (K .regs rfl) (K .effect rfl) (K .faults rfl) (K .log rfl) (K .regions rfl) h e
  | seqDelayExpiry => exact keep_execSeqDelayExpiry (K .regions rfl) h e
  | rgnSeqRunSet => exact keep_execRgnSeqRunSet (K .regs rfl) (K .effect rfl) (K .outputs rfl) (K .faults rfl) (K .memory rfl) (K .log rfl) (K .spindle rfl) (K .dieLinks rfl) (K .drivers rfl) (K .regions rfl) (K .channels rfl) (K .streams rfl) (K .captures rfl) (K .gaps rfl) (K .links rfl) h e
  | rgnSeqRunClear => exact keep_execRgnSeqRunClear (K .regs rfl) (K .effect rfl) (K .outputs rfl) (K .faults rfl) (K .memory rfl) (K .log rfl) (K .spindle rfl) (K .dieLinks rfl) (K .drivers rfl) (K .regions rfl) (K .channels rfl) (K .streams rfl) (K .captures rfl) (K .gaps rfl) (K .links rfl) h e
  | autoScheduleImp => exact keep_execAutoScheduleImp (K .regs rfl) (K .faults rfl) (K .log rfl) (K .time rfl) (K .regions rfl) (K .channels rfl) h e
  | autoScheduleCal => exact keep_execAutoScheduleCal (K .regs rfl) (K .faults rfl) (K .log rfl) (K .time rfl) (K .regions rfl) (K .channels rfl) h e
  | chSteadyCtrlCalReq => exact keep_execChSteadyCtrlCalReq (K .regs rfl) (K .faults rfl) (K .log rfl) (K .regions rfl) (K .channels rfl) h e
  | chSteadyCtrlImpReq => exact keep_execChSteadyCtrlImpReq (K .regs rfl) (K .faults rfl) (K .log rfl) (K .regions rfl) (K .channels rfl) h e
  | chSteadyCtrlRetest => exact keep_execChSteadyCtrlRetest (K .regs rfl) (K .faults rfl) (K .log rfl) (K .regions rfl) (K .channels rfl) h e
  | sprCtrlCalReq => exact keep_execSprCtrlCalReq (K .regs rfl) (K .effect rfl) (K .outputs rfl) (K .faults rfl) (K .memory rfl) (K .log rfl) (K .spindle rfl) (K .dieLinks rfl) (K .drivers rfl) (K .regions rfl) (K .channels rfl) (K .streams rfl) (K .captures rfl) (K .gaps rfl) (K .links rfl) h e
  | sprCtrlRetest => exact keep_execSprCtrlRetest (K .regs rfl) (K .effect rfl) (K .outputs rfl) (K .faults rfl) (K .memory rfl) (K .log rfl) (K .spindle rfl) (K .dieLinks rfl) (K .drivers rfl) (K .regions rfl) (K .channels rfl) (K .streams rfl) (K .captures rfl) (K .gaps rfl) (K .links rfl) h e
  | calibrationDone => exact keep_execCalibrationDone (K .regs rfl) (K .effect rfl) (K .faults rfl) (K .log rfl) (K .time rfl) (K .converters rfl) (K .regions rfl) (K .channels rfl) h e
  | calTimeout => exact keep_execCalTimeout (K .regs rfl) (K .faults rfl) (K .log rfl) (K .time rfl) (K .converters rfl) (K .regions rfl) (K .channels rfl) h e
  | calOverdue => exact keep_execCalOverdue (K .regs rfl) (K .time rfl) (K .channels rfl) h e
  | impedanceCheckDone => exact keep_execImpedanceCheckDone (K .regs rfl) (K .outputs rfl) (K .faults rfl) (K .memory rfl) (K .log rfl) (K .time rfl) (K .regions rfl) (K .channels rfl) (K .streams rfl) h e
  | chImpCfgSetref => exact keep_execChImpCfgSetref (K .regs rfl) h e
  | refillEnd => exact keep_execRefillEnd (K .regs rfl) (K .channels rfl) h e
  | fillEnd => exact keep_execFillEnd (K .regs rfl) (K .channels rfl) h e
  | chainOutput => exact keep_execChainOutput (K .regs rfl) (K .outputs rfl) (K .faults rfl) (K .log rfl) (K .spindle rfl) (K .channels rfl) (K .captures rfl) (K .gaps rfl) (K .links rfl) h e
  | chBqCtrlCommit => exact keep_execChBqCtrlCommit (K .regs rfl) (K .effect rfl) (K .outputs rfl) (K .faults rfl) (K .memory rfl) (K .log rfl) (K .spindle rfl) (K .channels rfl) (K .streams rfl) (K .captures rfl) (K .gaps rfl) (K .links rfl) h e
  | statisticsBlockEnd => exact keep_execStatisticsBlockEnd (K .regs rfl) (K .outputs rfl) (K .faults rfl) (K .memory rfl) (K .log rfl) (K .spindle rfl) (K .channels rfl) (K .streams rfl) (K .captures rfl) (K .gaps rfl) (K .links rfl) h e
  | switchChange => exact keep_execSwitchChange (K .regs rfl) (K .outputs rfl) (K .faults rfl) (K .memory rfl) (K .log rfl) (K .spindle rfl) (K .channels rfl) (K .streams rfl) (K .captures rfl) (K .gaps rfl) (K .links rfl) h e
  | chOutWRead => exact keep_execChOutWRead (K .outputs rfl) (K .held rfl) h e
  | capCtrlArm => exact keep_execCapCtrlArm (K .regs rfl) (K .outputs rfl) (K .faults rfl) (K .log rfl) (K .spindle rfl) (K .captures rfl) (K .gaps rfl) (K .links rfl) h e
  | capCtrlDisarm => exact keep_execCapCtrlDisarm (K .regs rfl) (K .outputs rfl) (K .faults rfl) (K .log rfl) (K .spindle rfl) (K .captures rfl) (K .gaps rfl) (K .links rfl) h e
  | capCtrlSoft => exact keep_execCapCtrlSoft (K .regs rfl) (K .outputs rfl) (K .faults rfl) (K .log rfl) (K .spindle rfl) (K .captures rfl) (K .gaps rfl) (K .links rfl) h e
  | capCtrlRel => exact keep_execCapCtrlRel (K .regs rfl) (K .outputs rfl) (K .faults rfl) (K .log rfl) (K .spindle rfl) (K .captures rfl) (K .gaps rfl) (K .links rfl) h e
  | captureAllocTakesEffect => exact keep_execCaptureAllocTakesEffect (K .regs rfl) h e
  | rowDecision => exact keep_execRowDecision (K .regs rfl) (K .outputs rfl) (K .faults rfl) (K .memory rfl) (K .log rfl) (K .time rfl) (K .spindle rfl) (K .captures rfl) (K .gaps rfl) (K .links rfl) h e
  | captureRecordComplete => exact keep_execCaptureRecordComplete (K .regs rfl) (K .outputs rfl) (K .faults rfl) (K .memory rfl) (K .log rfl) (K .streams rfl) (K .captures rfl) h e
  | captureHoldEnd => exact keep_execCaptureHoldEnd (K .regs rfl) (K .captures rfl) h e
  | trigInEdge => exact keep_execTrigInEdge (K .regs rfl) (K .outputs rfl) (K .faults rfl) (K .log rfl) (K .spindle rfl) (K .captures rfl) (K .gaps rfl) (K .links rfl) h e
  | ringTriggerRx => exact keep_execRingTriggerRx (K .regs rfl) (K .outputs rfl) (K .faults rfl) (K .log rfl) (K .spindle rfl) (K .captures rfl) (K .gaps rfl) (K .links rfl) h e
  | strCtrlStart => exact keep_execStrCtrlStart (K .regs rfl) (K .outputs rfl) (K .faults rfl) (K .memory rfl) (K .log rfl) (K .streams rfl) (K .gouge rfl) (K .gaps rfl) h e
  | strCtrlStop => exact keep_execStrCtrlStop (K .regs rfl) (K .outputs rfl) (K .faults rfl) (K .memory rfl) (K .log rfl) (K .streams rfl) (K .gouge rfl) (K .gaps rfl) h e
  | strCtrlAbort => exact keep_execStrCtrlAbort (K .regs rfl) (K .outputs rfl) (K .faults rfl) (K .memory rfl) (K .log rfl) (K .streams rfl) (K .gouge rfl) (K .gaps rfl) h e
  | streamRowAppend => exact keep_execStreamRowAppend (K .regs rfl) (K .outputs rfl) (K .faults rfl) (K .memory rfl) (K .log rfl) (K .time rfl) (K .streams rfl) h e
  | spillDrain => exact keep_execSpillDrain (K .regs rfl) (K .faults rfl) (K .memory rfl) (K .log rfl) (K .streams rfl) h e
  | packetFlush => exact keep_execPacketFlush (K .regs rfl) (K .outputs rfl) (K .faults rfl) (K .memory rfl) (K .log rfl) (K .time rfl) (K .streams rfl) h e
  | descriptorDue => exact keep_execDescriptorDue (K .regs rfl) (K .outputs rfl) (K .faults rfl) (K .memory rfl) (K .log rfl) (K .time rfl) (K .streams rfl) h e
  | packetSend => exact keep_execPacketSend (K .regs rfl) (K .outputs rfl) (K .faults rfl) (K .memory rfl) (K .log rfl) (K .streams rfl) (K .gouge rfl) (K .gaps rfl) (K .links rfl) (K .ring rfl) h e
  | streamConfirmation => exact keep_execStreamConfirmation (K .regs rfl) (K .outputs rfl) (K .faults rfl) (K .memory rfl) (K .log rfl) (K .streams rfl) (K .gouge rfl) (K .gaps rfl) h e
  | dropEntry => exact keep_execDropEntry (K .regs rfl) (K .outputs rfl) (K .faults rfl) (K .memory rfl) (K .log rfl) (K .streams rfl) (K .gouge rfl) h e
  | gougeBlockStart => exact keep_execGougeBlockStart (K .regs rfl) (K .faults rfl) (K .log rfl) (K .streams rfl) (K .gouge rfl) h e
  | gougeVerifyDone => exact keep_execGougeVerifyDone (K .regs rfl) (K .faults rfl) (K .log rfl) (K .gouge rfl) h e
  | gougeStallEnd => exact keep_execGougeStallEnd (K .regs rfl) (K .gouge rfl) h e
  | ggeCtrlRetest => exact keep_execGgeCtrlRetest (K .regs rfl) (K .faults rfl) (K .log rfl) (K .gouge rfl) h e
  | gougeSelftestDone => exact keep_execGougeSelftestDone (K .regs rfl) (K .faults rfl) (K .log rfl) (K .gouge rfl) h e
  | lneGrpRate => exact keep_execLneGrpRate (K .regs rfl) h e
  | lneTxeqWrite => exact keep_execLneTxeqWrite (K .regs rfl) h e
  | laneStateRequest => exact keep_execLaneStateRequest (K .regs rfl) (K .faults rfl) (K .log rfl) (K .lanes rfl) h e
  | laneStateChangeDone => exact keep_execLaneStateChangeDone (K .regs rfl) (K .outputs rfl) (K .faults rfl) (K .log rfl) (K .lanes rfl) h e
  | laneStateTimeout => exact keep_execLaneStateTimeout (K .regs rfl) (K .faults rfl) (K .log rfl) (K .time rfl) (K .lanes rfl) h e
  | laneLos => exact keep_execLaneLos (K .regs rfl) (K .faults rfl) (K .log rfl) (K .ring rfl) h e
  | laneLosClear => exact keep_execLaneLosClear (K .regs rfl) (K .outputs rfl) (K .faults rfl) (K .memory rfl) (K .log rfl) (K .streams rfl) (K .gouge rfl) (K .gaps rfl) (K .links rfl) (K .ring rfl) h e
  | cdrLockLoss => exact keep_execCdrLockLoss (K .regs rfl) (K .faults rfl) (K .log rfl) h e
  | eyeMeasurement => exact keep_execEyeMeasurement (K .regs rfl) (K .faults rfl) (K .log rfl) (K .time rfl) (K .lanes rfl) h e
  | eqLow => exact keep_execEqLow (K .regs rfl) (K .faults rfl) (K .log rfl) h e
  | pllLockLoss => exact keep_execPllLockLoss (K .regs rfl) (K .faults rfl) (K .log rfl) h e
  | pllLocked => exact keep_execPllLocked (K .regs rfl) (K .outputs rfl) (K .links rfl) (K .lanes rfl) h e
  | lneCtrlTmode => exact keep_execLneCtrlTmode (K .regs rfl) (K .outputs rfl) (K .faults rfl) (K .log rfl) (K .spindle rfl) (K .streams rfl) (K .gouge rfl) (K .gaps rfl) (K .links rfl) (K .lanes rfl) (K .segment rfl) (K .ring rfl) (K .headstock rfl) h e
  | lneCtrlErrinj => exact keep_execLneCtrlErrinj (K .regs rfl) (K .outputs rfl) (K .faults rfl) (K .log rfl) (K .spindle rfl) (K .streams rfl) (K .gouge rfl) (K .gaps rfl) (K .links rfl) (K .lanes rfl) (K .segment rfl) (K .ring rfl) (K .headstock rfl) h e
  | prbsLock => exact keep_execPrbsLock (K .regs rfl) (K .outputs rfl) (K .lanes rfl) h e
  | prbsReseed => exact keep_execPrbsReseed (K .regs rfl) (K .lanes rfl) h e
  | frameRx => exact keep_execFrameRx (K .regs rfl) (K .effect rfl) (K .outputs rfl) (K .held rfl) (K .faults rfl) (K .memory rfl) (K .log rfl) (K .tailstock rfl) (K .power rfl) (K .time rfl) (K .spindle rfl) (K .dieLinks rfl) (K .drivers rfl) (K .converters rfl) (K .regions rfl) (K .channels rfl) (K .mains rfl) (K .streams rfl) (K .captures rfl) (K .gouge rfl) (K .gaps rfl) (K .links rfl) (K .lanes rfl) (K .segment rfl) (K .ring rfl) (K .headstock rfl) (K .snapshots rfl) h e
  | arpRequestRx => exact keep_execArpRequestRx (K .regs rfl) (K .outputs rfl) h e
  | arpReplyRx => exact keep_execArpReplyRx (K .regs rfl) (K .outputs rfl) (K .faults rfl) (K .memory rfl) (K .log rfl) (K .streams rfl) (K .gouge rfl) (K .gaps rfl) (K .links rfl) (K .ring rfl) h e
  | neighbourSolicitationRx => exact keep_execNeighbourSolicitationRx (K .regs rfl) (K .outputs rfl) h e
  | neighbourAdvertisementRx => exact keep_execNeighbourAdvertisementRx (K .regs rfl) (K .outputs rfl) (K .faults rfl) (K .memory rfl) (K .log rfl) (K .streams rfl) (K .gouge rfl) (K .gaps rfl) (K .links rfl) (K .ring rfl) h e
  | icmpEchoRequest => exact keep_execIcmpEchoRequest (K .regs rfl) (K .outputs rfl) h e
  | destResolveRetry => exact keep_execDestResolveRetry (K .regs rfl) (K .outputs rfl) (K .faults rfl) (K .memory rfl) (K .log rfl) (K .time rfl) (K .streams rfl) (K .gouge rfl) (K .gaps rfl) (K .links rfl) (K .ring rfl) h e
  | netCtrlExitEnClear => exact keep_execNetCtrlExitEnClear (K .regs rfl) (K .outputs rfl) (K .faults rfl) (K .log rfl) (K .spindle rfl) (K .streams rfl) (K .gouge rfl) (K .gaps rfl) (K .links rfl) (K .lanes rfl) (K .ring rfl) h e
  | linkTraining => exact keep_execLinkTraining (K .regs rfl) (K .outputs rfl) (K .faults rfl) (K .log rfl) (K .links rfl) (K .lanes rfl) h e
  | trainRx => exact keep_execTrainRx (K .regs rfl) (K .outputs rfl) (K .faults rfl) (K .log rfl) (K .spindle rfl) (K .streams rfl) (K .gouge rfl) (K .gaps rfl) (K .links rfl) (K .segment rfl) (K .ring rfl) (K .headstock rfl) h e
  | linkTrained => exact keep_execLinkTrained (K .regs rfl) (K .outputs rfl) (K .faults rfl) (K .log rfl) (K .time rfl) (K .streams rfl) (K .gouge rfl) (K .gaps rfl) (K .links rfl) (K .lanes rfl) (K .ring rfl) h e
  | chpCtrlRetrain => exact keep_execChpCtrlRetrain (K .regs rfl) (K .outputs rfl) (K .faults rfl) (K .log rfl) (K .spindle rfl) (K .streams rfl) (K .gouge rfl) (K .gaps rfl) (K .links rfl) (K .lanes rfl) (K .segment rfl) (K .ring rfl) (K .headstock rfl) h e
  | alignRx => exact keep_execAlignRx (K .regs rfl) (K .links rfl) h e
  | cellRx => exact keep_execCellRx (K .regs rfl) (K .effect rfl) (K .outputs rfl) (K .held rfl) (K .faults rfl) (K .memory rfl) (K .log rfl) (K .tailstock rfl) (K .power rfl) (K .time rfl) (K .spindle rfl) (K .dieLinks rfl) (K .drivers rfl) (K .converters rfl) (K .regions rfl) (K .channels rfl) (K .mains rfl) (K .streams rfl) (K .captures rfl) (K .gouge rfl) (K .gaps rfl) (K .links rfl) (K .lanes rfl) (K .segment rfl) (K .ring rfl) (K .headstock rfl) (K .snapshots rfl) h e
  | lctlRx => exact keep_execLctlRx (K .regs rfl) (K .outputs rfl) (K .faults rfl) (K .log rfl) (K .spindle rfl) (K .streams rfl) (K .gouge rfl) (K .gaps rfl) (K .links rfl) (K .segment rfl) (K .ring rfl) (K .headstock rfl) h e
  | lctlSend => exact keep_execLctlSend (K .outputs rfl) (K .time rfl) (K .links rfl) h e
  | chainpoLinkDown => exact keep_execChainpoLinkDown (K .regs rfl) (K .outputs rfl) (K .faults rfl) (K .log rfl) (K .spindle rfl) (K .streams rfl) (K .gouge rfl) (K .gaps rfl) (K .links rfl) (K .segment rfl) (K .ring rfl) (K .headstock rfl) h e
  | chainpoLinkRetry => exact keep_execChainpoLinkRetry (K .regs rfl) (K .outputs rfl) (K .faults rfl) (K .log rfl) (K .time rfl) (K .links rfl) (K .lanes rfl) h e
  | streamCellRx => exact keep_execStreamCellRx (K .regs rfl) (K .outputs rfl) (K .faults rfl) (K .memory rfl) (K .log rfl) (K .streams rfl) (K .gouge rfl) (K .gaps rfl) (K .links rfl) (K .ring rfl) h e
  | exitPacketExpiry => exact keep_execExitPacketExpiry (K .time rfl) (K .ring rfl) h e
  | enumerationSend => exact keep_execEnumerationSend (K .outputs rfl) (K .time rfl) (K .links rfl) (K .ring rfl) h e
  | enumerationRx => exact keep_execEnumerationRx (K .regs rfl) (K .outputs rfl) (K .faults rfl) (K .log rfl) (K .links rfl) (K .segment rfl) (K .ring rfl) h e
  | tableSettled => exact keep_execTableSettled (K .regs rfl) (K .outputs rfl) (K .faults rfl) (K .log rfl) (K .time rfl) (K .spindle rfl) (K .streams rfl) (K .gouge rfl) (K .gaps rfl) (K .links rfl) (K .segment rfl) (K .ring rfl) h e
  | exitEligible => exact keep_execExitEligible (K .regs rfl) (K .outputs rfl) (K .faults rfl) (K .log rfl) (K .time rfl) (K .links rfl) (K .ring rfl) h e
  | echoError => exact keep_execEchoError (K .regs rfl) (K .outputs rfl) (K .faults rfl) (K .log rfl) (K .links rfl) (K .ring rfl) h e
  | exitPortFailure => exact keep_execExitPortFailure (K .regs rfl) (K .outputs rfl) (K .faults rfl) (K .log rfl) (K .time rfl) (K .spindle rfl) (K .streams rfl) (K .gouge rfl) (K .gaps rfl) (K .links rfl) (K .ring rfl) h e
  | exitEventRx => exact keep_execExitEventRx (K .regs rfl) (K .outputs rfl) (K .faults rfl) (K .log rfl) (K .spindle rfl) (K .streams rfl) (K .gouge rfl) (K .gaps rfl) (K .links rfl) (K .segment rfl) (K .ring rfl) h e
  | mirrorSend => exact keep_execMirrorSend (K .outputs rfl) (K .time rfl) (K .links rfl) (K .ring rfl) h e
  | mirrorRx => exact keep_execMirrorRx (K .regs rfl) (K .outputs rfl) (K .faults rfl) (K .log rfl) (K .spindle rfl) (K .streams rfl) (K .gouge rfl) (K .gaps rfl) (K .links rfl) (K .ring rfl) h e
  | mirrorExpiry => exact keep_execMirrorExpiry (K .regs rfl) (K .outputs rfl) (K .faults rfl) (K .log rfl) (K .time rfl) (K .links rfl) (K .ring rfl) h e
  | chpRingSwitch => exact keep_execChpRingSwitch (K .regs rfl) (K .outputs rfl) (K .faults rfl) (K .log rfl) (K .spindle rfl) (K .streams rfl) (K .gouge rfl) (K .gaps rfl) (K .links rfl) (K .ring rfl) h e
  | switchOldPortStop => exact keep_execSwitchOldPortStop (K .ring rfl) h e
  | commandPart => exact keep_execCommandPart (K .regs rfl) (K .effect rfl) (K .outputs rfl) (K .held rfl) (K .faults rfl) (K .memory rfl) (K .log rfl) (K .tailstock rfl) (K .power rfl) (K .time rfl) (K .spindle rfl) (K .dieLinks rfl) (K .drivers rfl) (K .converters rfl) (K .regions rfl) (K .channels rfl) (K .mains rfl) (K .streams rfl) (K .captures rfl) (K .gouge rfl) (K .gaps rfl) (K .links rfl) (K .lanes rfl) (K .segment rfl) (K .ring rfl) (K .headstock rfl) (K .snapshots rfl) h e
  | partsTimeout => exact keep_execPartsTimeout (K .regs rfl) (K .outputs rfl) (K .faults rfl) (K .log rfl) (K .time rfl) (K .links rfl) (K .headstock rfl) h e
  | ident => exact keep_execIdent (K .regs rfl) (K .effect rfl) (K .outputs rfl) (K .held rfl) (K .faults rfl) (K .memory rfl) (K .log rfl) (K .tailstock rfl) (K .power rfl) (K .time rfl) (K .spindle rfl) (K .dieLinks rfl) (K .drivers rfl) (K .converters rfl) (K .regions rfl) (K .channels rfl) (K .mains rfl) (K .streams rfl) (K .captures rfl) (K .gouge rfl) (K .gaps rfl) (K .links rfl) (K .lanes rfl) (K .segment rfl) (K .ring rfl) (K .headstock rfl) (K .snapshots rfl) h e
  | read => exact keep_execRead (K .regs rfl) (K .effect rfl) (K .outputs rfl) (K .held rfl) (K .faults rfl) (K .memory rfl) (K .log rfl) (K .tailstock rfl) (K .power rfl) (K .time rfl) (K .spindle rfl) (K .dieLinks rfl) (K .drivers rfl) (K .converters rfl) (K .regions rfl) (K .channels rfl) (K .mains rfl) (K .streams rfl) (K .captures rfl) (K .gouge rfl) (K .gaps rfl) (K .links rfl) (K .lanes rfl) (K .segment rfl) (K .ring rfl) (K .headstock rfl) (K .snapshots rfl) h e
  | write => exact keep_execWrite (K .regs rfl) (K .effect rfl) (K .outputs rfl) (K .held rfl) (K .faults rfl) (K .memory rfl) (K .log rfl) (K .tailstock rfl) (K .power rfl) (K .time rfl) (K .spindle rfl) (K .dieLinks rfl) (K .drivers rfl) (K .converters rfl) (K .regions rfl) (K .channels rfl) (K .mains rfl) (K .streams rfl) (K .captures rfl) (K .gouge rfl) (K .gaps rfl) (K .links rfl) (K .lanes rfl) (K .segment rfl) (K .ring rfl) (K .headstock rfl) (K .snapshots rfl) h e
  | writeMask => exact keep_execWriteMask (K .regs rfl) (K .effect rfl) (K .outputs rfl) (K .held rfl) (K .faults rfl) (K .memory rfl) (K .log rfl) (K .tailstock rfl) (K .power rfl) (K .time rfl) (K .spindle rfl) (K .dieLinks rfl) (K .drivers rfl) (K .converters rfl) (K .regions rfl) (K .channels rfl) (K .mains rfl) (K .streams rfl) (K .captures rfl) (K .gouge rfl) (K .gaps rfl) (K .links rfl) (K .lanes rfl) (K .segment rfl) (K .ring rfl) (K .headstock rfl) (K .snapshots rfl) h e
  | readList => exact keep_execReadList (K .regs rfl) (K .effect rfl) (K .outputs rfl) (K .held rfl) (K .faults rfl) (K .memory rfl) (K .log rfl) (K .tailstock rfl) (K .power rfl) (K .time rfl) (K .spindle rfl) (K .dieLinks rfl) (K .drivers rfl) (K .converters rfl) (K .regions rfl) (K .channels rfl) (K .mains rfl) (K .streams rfl) (K .captures rfl) (K .gouge rfl) (K .gaps rfl) (K .links rfl) (K .lanes rfl) (K .segment rfl) (K .ring rfl) (K .headstock rfl) (K .snapshots rfl) h e
  | writeList => exact keep_execWriteList (K .regs rfl) (K .effect rfl) (K .outputs rfl) (K .held rfl) (K .faults rfl) (K .memory rfl) (K .log rfl) (K .tailstock rfl) (K .power rfl) (K .time rfl) (K .spindle rfl) (K .dieLinks rfl) (K .drivers rfl) (K .converters rfl) (K .regions rfl) (K .channels rfl) (K .mains rfl) (K .streams rfl) (K .captures rfl) (K .gouge rfl) (K .gaps rfl) (K .links rfl) (K .lanes rfl) (K .segment rfl) (K .ring rfl) (K .headstock rfl) (K .snapshots rfl) h e
  | readWord => exact keep_execReadWord (K .regs rfl) (K .effect rfl) (K .outputs rfl) (K .held rfl) (K .faults rfl) (K .memory rfl) (K .log rfl) (K .tailstock rfl) (K .power rfl) (K .time rfl) (K .spindle rfl) (K .dieLinks rfl) (K .drivers rfl) (K .converters rfl) (K .regions rfl) (K .channels rfl) (K .mains rfl) (K .streams rfl) (K .captures rfl) (K .gouge rfl) (K .gaps rfl) (K .links rfl) (K .lanes rfl) (K .segment rfl) (K .ring rfl) (K .headstock rfl) (K .snapshots rfl) h e
  | snapshot => exact keep_execSnapshot (K .regs rfl) (K .effect rfl) (K .outputs rfl) (K .held rfl) (K .faults rfl) (K .memory rfl) (K .log rfl) (K .tailstock rfl) (K .power rfl) (K .time rfl) (K .spindle rfl) (K .dieLinks rfl) (K .drivers rfl) (K .converters rfl) (K .regions rfl) (K .channels rfl) (K .mains rfl) (K .streams rfl) (K .captures rfl) (K .gouge rfl) (K .gaps rfl) (K .links rfl) (K .lanes rfl) (K .segment rfl) (K .ring rfl) (K .headstock rfl) (K .snapshots rfl) h e
  | capture => exact keep_execCapture (K .regs rfl) (K .effect rfl) (K .outputs rfl) (K .held rfl) (K .faults rfl) (K .memory rfl) (K .log rfl) (K .tailstock rfl) (K .power rfl) (K .time rfl) (K .spindle rfl) (K .dieLinks rfl) (K .drivers rfl) (K .converters rfl) (K .regions rfl) (K .channels rfl) (K .mains rfl) (K .streams rfl) (K .captures rfl) (K .gouge rfl) (K .gaps rfl) (K .links rfl) (K .lanes rfl) (K .segment rfl) (K .ring rfl) (K .headstock rfl) (K .snapshots rfl) h e
  | ringInfo => exact keep_execRingInfo (K .regs rfl) (K .effect rfl) (K .outputs rfl) (K .held rfl) (K .faults rfl) (K .memory rfl) (K .log rfl) (K .tailstock rfl) (K .power rfl) (K .time rfl) (K .spindle rfl) (K .dieLinks rfl) (K .drivers rfl) (K .converters rfl) (K .regions rfl) (K .channels rfl) (K .mains rfl) (K .streams rfl) (K .captures rfl) (K .gouge rfl) (K .gaps rfl) (K .links rfl) (K .lanes rfl) (K .segment rfl) (K .ring rfl) (K .headstock rfl) (K .snapshots rfl) h e
  | setHubid => exact keep_execSetHubid (K .regs rfl) (K .effect rfl) (K .outputs rfl) (K .held rfl) (K .faults rfl) (K .memory rfl) (K .log rfl) (K .tailstock rfl) (K .power rfl) (K .time rfl) (K .spindle rfl) (K .dieLinks rfl) (K .drivers rfl) (K .converters rfl) (K .regions rfl) (K .channels rfl) (K .mains rfl) (K .streams rfl) (K .captures rfl) (K .gouge rfl) (K .gaps rfl) (K .links rfl) (K .lanes rfl) (K .segment rfl) (K .ring rfl) (K .headstock rfl) (K .snapshots rfl) h e
  | powerLevel => exact keep_execPowerLevel (K .regs rfl) (K .effect rfl) (K .outputs rfl) (K .held rfl) (K .faults rfl) (K .memory rfl) (K .log rfl) (K .tailstock rfl) (K .power rfl) (K .time rfl) (K .spindle rfl) (K .dieLinks rfl) (K .drivers rfl) (K .converters rfl) (K .regions rfl) (K .channels rfl) (K .mains rfl) (K .streams rfl) (K .captures rfl) (K .gouge rfl) (K .gaps rfl) (K .links rfl) (K .lanes rfl) (K .segment rfl) (K .ring rfl) (K .headstock rfl) (K .snapshots rfl) h e
  | powerMode => exact keep_execPowerMode (K .regs rfl) (K .effect rfl) (K .outputs rfl) (K .held rfl) (K .faults rfl) (K .memory rfl) (K .log rfl) (K .tailstock rfl) (K .power rfl) (K .time rfl) (K .spindle rfl) (K .dieLinks rfl) (K .drivers rfl) (K .converters rfl) (K .regions rfl) (K .channels rfl) (K .mains rfl) (K .streams rfl) (K .captures rfl) (K .gouge rfl) (K .gaps rfl) (K .links rfl) (K .lanes rfl) (K .segment rfl) (K .ring rfl) (K .headstock rfl) (K .snapshots rfl) h e
  | reset => exact keep_execReset (K .regs rfl) (K .effect rfl) (K .outputs rfl) (K .held rfl) (K .faults rfl) (K .memory rfl) (K .log rfl) (K .tailstock rfl) (K .power rfl) (K .time rfl) (K .spindle rfl) (K .dieLinks rfl) (K .drivers rfl) (K .converters rfl) (K .regions rfl) (K .channels rfl) (K .mains rfl) (K .streams rfl) (K .captures rfl) (K .gouge rfl) (K .gaps rfl) (K .links rfl) (K .lanes rfl) (K .segment rfl) (K .ring rfl) (K .headstock rfl) (K .snapshots rfl) h e
  | commandResetExpiry => exact keep_execCommandResetExpiry (K .power rfl) (K .time rfl) (KX rfl) h e
  | safeParam => exact keep_execSafeParam (K .regs rfl) (K .effect rfl) (K .outputs rfl) (K .held rfl) (K .faults rfl) (K .memory rfl) (K .log rfl) (K .tailstock rfl) (K .power rfl) (K .time rfl) (K .spindle rfl) (K .dieLinks rfl) (K .drivers rfl) (K .converters rfl) (K .regions rfl) (K .channels rfl) (K .mains rfl) (K .streams rfl) (K .captures rfl) (K .gouge rfl) (K .gaps rfl) (K .links rfl) (K .lanes rfl) (K .segment rfl) (K .ring rfl) (K .headstock rfl) (K .snapshots rfl) h e
  | safeTlg => exact keep_execSafeTlg (K .regs rfl) (K .effect rfl) (K .outputs rfl) (K .held rfl) (K .faults rfl) (K .memory rfl) (K .log rfl) (K .tailstock rfl) (K .power rfl) (K .time rfl) (K .spindle rfl) (K .dieLinks rfl) (K .drivers rfl) (K .converters rfl) (K .regions rfl) (K .channels rfl) (K .mains rfl) (K .streams rfl) (K .captures rfl) (K .gouge rfl) (K .gaps rfl) (K .links rfl) (K .lanes rfl) (K .segment rfl) (K .ring rfl) (K .headstock rfl) (K .snapshots rfl) h e
  | vc2CellRx => exact keep_execVc2CellRx (K .regs rfl) (K .effect rfl) (K .outputs rfl) (K .held rfl) (K .faults rfl) (K .memory rfl) (K .log rfl) (K .tailstock rfl) (K .power rfl) (K .time rfl) (K .spindle rfl) (K .dieLinks rfl) (K .drivers rfl) (K .converters rfl) (K .regions rfl) (K .channels rfl) (K .mains rfl) (K .streams rfl) (K .captures rfl) (K .gouge rfl) (K .gaps rfl) (K .links rfl) (K .lanes rfl) (K .segment rfl) (K .ring rfl) (K .headstock rfl) (K .snapshots rfl) h e
  | vc2ReassemblyTimeout => exact keep_execVc2ReassemblyTimeout (K .time rfl) (K .headstock rfl) h e
  | forwardTimeout => exact keep_execForwardTimeout (K .regs rfl) (K .outputs rfl) (K .faults rfl) (K .log rfl) (K .time rfl) (K .links rfl) (K .headstock rfl) h e
  | regRead => exact keep_execRegRead (K .regs rfl) (K .outputs rfl) (K .held rfl) (K .faults rfl) (K .log rfl) (K .dieLinks rfl) (K .captures rfl) (K .gouge rfl) h e
  | regWrite => exact keep_execRegWrite (K .regs rfl) (K .effect rfl) (K .outputs rfl) (K .held rfl) (K .faults rfl) (K .memory rfl) (K .log rfl) (K .tailstock rfl) (K .power rfl) (K .time rfl) (K .spindle rfl) (K .dieLinks rfl) (K .drivers rfl) (K .converters rfl) (K .regions rfl) (K .channels rfl) (K .mains rfl) (K .streams rfl) (K .captures rfl) (K .gouge rfl) (K .gaps rfl) (K .links rfl) (K .lanes rfl) (K .segment rfl) (K .ring rfl) (K .headstock rfl) (K .snapshots rfl) h e
  | cmdSend => exact keep_execCmdSend (K .regs rfl) (K .effect rfl) (K .outputs rfl) (K .held rfl) (K .faults rfl) (K .memory rfl) (K .log rfl) (K .tailstock rfl) (K .power rfl) (K .time rfl) (K .spindle rfl) (K .dieLinks rfl) (K .drivers rfl) (K .converters rfl) (K .regions rfl) (K .channels rfl) (K .mains rfl) (K .streams rfl) (K .captures rfl) (K .gouge rfl) (K .gaps rfl) (K .links rfl) (K .lanes rfl) (K .segment rfl) (K .ring rfl) (K .headstock rfl) (K .snapshots rfl) h e
  | cmdRecv => exact keep_execCmdRecv (K .outputs rfl) (K .links rfl) (K .headstock rfl) h e
  | spiBadFrame => exact keep_execSpiBadFrame (K .outputs rfl) h e
  | spiFrameAbort => exact keep_execSpiFrameAbort  h e
  | cmdHubidWrite => exact keep_execCmdHubidWrite (K .regs rfl) (K .outputs rfl) (K .links rfl) (K .ring rfl) h e
  | faultEvent => exact keep_execFaultEvent (K .regs rfl) (K .faults rfl) (K .log rfl) (K .converters rfl) (K .regions rfl) (K .channels rfl) (K .gouge rfl) h e
  | fltForceWrite => exact keep_execFltForceWrite (K .regs rfl) (K .faults rfl) (K .log rfl) (K .converters rfl) (K .regions rfl) (K .channels rfl) (K .gouge rfl) h e
  | fltStickyClear => exact keep_execFltStickyClear (K .regs rfl) h e
  | fltListClear => exact keep_execFltListClear (K .regs rfl) h e
  | fltCtrlClrAll => exact keep_execFltCtrlClrAll (K .regs rfl) h e
  | fltFirstValidClear => exact keep_execFltFirstValidClear (K .regs rfl) h e
  | fltLogRidxWrite => exact keep_execFltLogRidxWrite (K .regs rfl) h e
  | eccError => exact keep_execEccError (K .regs rfl) (K .outputs rfl) (K .faults rfl) (K .memory rfl) (K .log rfl) (K .converters rfl) (K .regions rfl) (K .channels rfl) (K .streams rfl) (K .gouge rfl) (K .headstock rfl) h e
  | stageHoldTimeout => exact keep_execStageHoldTimeout (K .regs rfl) (K .faults rfl) (K .log rfl) (K .converters rfl) (K .regions rfl) (K .channels rfl) (K .gouge rfl) h e
  | firmwareWatchdog => exact keep_execFirmwareWatchdog (K .regs rfl) (K .faults rfl) (K .log rfl) (K .converters rfl) (K .regions rfl) (K .channels rfl) (K .gouge rfl) h e
  | aliveToggle => exact keep_execAliveToggle (K .outputs rfl) (K .faults rfl) (K .time rfl) h e
  | selftestDone => exact keep_execSelftestDone (K .regs rfl) (K .faults rfl) (K .log rfl) (K .converters rfl) (K .regions rfl) (K .channels rfl) (K .gouge rfl) h e
  | selftestRequeue => exact keep_execSelftestRequeue (K .regs rfl) (K .faults rfl) h e
  | safetyCycle => exact keep_execSafetyCycle (K .regs rfl) (K .outputs rfl) (K .faults rfl) (K .log rfl) (K .tailstock rfl) (K .time rfl) (K .dieLinks rfl) (K .links rfl) (K .headstock rfl) h e
  | crossChannelWord => exact keep_execCrossChannelWord (K .regs rfl) (K .outputs rfl) (K .faults rfl) (K .log rfl) (K .tailstock rfl) (K .dieLinks rfl) (K .links rfl) (K .headstock rfl) h e
  | telegramWatchdog => exact keep_execTelegramWatchdog (K .regs rfl) (K .faults rfl) (K .log rfl) (K .tailstock rfl) h e
  | cycleTimeout => exact keep_execCycleTimeout (K .regs rfl) (K .faults rfl) (K .log rfl) (K .tailstock rfl) (K .time rfl) h e
  | cycleFaultClear => exact keep_execCycleFaultClear (K .tailstock rfl) h e
  | inputFilterChange => exact keep_execInputFilterChange (K .tailstock rfl) h e
  | discrepancyTimeout => exact keep_execDiscrepancyTimeout (K .regs rfl) (K .faults rfl) (K .log rfl) (K .tailstock rfl) h e
  | testPulseStart => exact keep_execTestPulseStart (K .outputs rfl) (K .tailstock rfl) (K .time rfl) h e
  | testPulseEnd => exact keep_execTestPulseEnd (K .outputs rfl) (K .tailstock rfl) (K .time rfl) h e
  | encoderEdge => exact keep_execEncoderEdge (K .regs rfl) (K .faults rfl) (K .log rfl) (K .tailstock rfl) h e
  | ss1TimeLimit => exact keep_execSs1TimeLimit (K .regs rfl) (K .faults rfl) (K .log rfl) (K .tailstock rfl) h e
  | sbcRelease => exact keep_execSbcRelease (K .tailstock rfl) h e
  | outputOffTest => exact keep_execOutputOffTest (K .regs rfl) (K .outputs rfl) (K .faults rfl) (K .log rfl) (K .tailstock rfl) h e
  | safeRstEdge => exact keep_execSafeRstEdge (K .regs rfl) (K .faults rfl) (K .log rfl) (K .tailstock rfl) h e
  | safeRstHeld => exact keep_execSafeRstHeld (K .regs rfl) (K .faults rfl) (K .log rfl) (K .tailstock rfl) h e
  | paramCrcCheck => exact keep_execParamCrcCheck (K .regs rfl) (K .faults rfl) (K .log rfl) (K .tailstock rfl) h e
  | powerOnReset => exact keep_execPowerOnReset (K .regs rfl) (K .faults rfl) (K .log rfl) (K .power rfl) (K .time rfl) (KX rfl) (hz ⟨_, rfl⟩) h e
  | supplyPowerFail => exact keep_execSupplyPowerFail (K .power rfl) (KX rfl) h e
  | resetPin => exact keep_execResetPin (K .power rfl) (KX rfl) h e
  | brownOut => exact keep_execBrownOut (KX rfl) h e
  | resetRelease => exact keep_execResetRelease (K .regs rfl) (K .faults rfl) (K .log rfl) (K .power rfl) (K .time rfl) h e
  | headstockStartDone => exact keep_execHeadstockStartDone (K .regs rfl) (K .faults rfl) (K .log rfl) (K .converters rfl) (K .regions rfl) (K .channels rfl) (K .gouge rfl) h e
  | supplyWarning => exact keep_execSupplyWarning (K .regs rfl) (K .faults rfl) (K .log rfl) (K .power rfl) (K .converters rfl) (K .regions rfl) (K .channels rfl) (K .gouge rfl) (KX rfl) h e
  | supplyWarningClear => exact keep_execSupplyWarningClear (K .regs rfl) (K .faults rfl) (K .log rfl) h e
  | vddcOutOfRegulation => exact keep_execVddcOutOfRegulation (K .regs rfl) (K .faults rfl) (K .log rfl) (K .power rfl) (K .converters rfl) (K .regions rfl) (K .channels rfl) (K .gouge rfl) (KX rfl) h e
  | temperatureWarning => exact keep_execTemperatureWarning (K .regs rfl) (K .faults rfl) (K .log rfl) (K .converters rfl) (K .regions rfl) (K .channels rfl) (K .gouge rfl) h e
  | xt32Stopped => exact keep_execXt32Stopped (K .regs rfl) (K .faults rfl) (K .log rfl) (K .power rfl) (K .converters rfl) (K .regions rfl) (K .channels rfl) (K .gouge rfl) h e
  | pwrReqLevel => exact keep_execPwrReqLevel (K .regs rfl) (K .faults rfl) (K .log rfl) (K .power rfl) (K .time rfl) h e
  | pwrReqMode => exact keep_execPwrReqMode (K .regs rfl) (K .faults rfl) (K .log rfl) (K .power rfl) (K .time rfl) h e
  | powerChangeDone => exact keep_execPowerChangeDone (K .regs rfl) (K .faults rfl) (K .log rfl) (K .power rfl) (K .time rfl) (KX rfl) h e
  | powerChangeTimeout => exact keep_execPowerChangeTimeout (K .regs rfl) (K .faults rfl) (K .log rfl) (K .power rfl) (K .time rfl) (K .converters rfl) (K .regions rfl) (K .channels rfl) (K .gouge rfl) h e
  | watchWake => exact keep_execWatchWake (K .power rfl) (KX rfl) h e
  | wakePin => exact keep_execWakePin (K .power rfl) (KX rfl) h e
  | alarmWake => exact keep_execAlarmWake (K .power rfl) (K .time rfl) (KX rfl) h e
  | pcsLinkChange => exact keep_execPcsLinkChange (K .regs rfl) (K .outputs rfl) (K .faults rfl) (K .log rfl) (K .spindle rfl) (K .gaps rfl) (K .links rfl) (K .ring rfl) h e
  | datagramPassedEchoMonitor => exact keep_execDatagramPassedEchoMonitor (K .regs rfl) (K .outputs rfl) (K .faults rfl) (K .memory rfl) (K .log rfl) (K .streams rfl) (K .gouge rfl) (K .gaps rfl) (K .links rfl) (K .ring rfl) h e
  | spareAvailable => exact keep_execSpareAvailable (K .power rfl) (K .time rfl) h e

end Sys2Proof.Machine
end

