-- ==== Sys2Proof/Laws/Good.lean ====
section
/-! SUPPORT. The updates that commands are made of keep a good state good. -/
namespace Sys2Proof.Machine

/-- An update of one table that leaves that table canonical, the others and the capacities alone keeps a good state good. -/
theorem State.Good.put {s t : State} (k : Table) (h : s.Good) (hk : s.canonAt k = true → t.canonAt k = true)
    (hr : ∀ j, j ≠ k → t.canonAt j = s.canonAt j) (hc : s.Caps → t.Caps) : t.Good :=
  ⟨fun j => if e : j = k then e ▸ hk (h.1 k) else (hr j e).trans (h.1 j), hc h.2⟩

/-- An update of no table keeps a good state good as far as it keeps the capacities. -/
theorem State.Good.same {s t : State} (h : s.Good) (hr : ∀ j, t.canonAt j = s.canonAt j) (hc : s.Caps → t.Caps) : t.Good :=
  ⟨fun j => (hr j).trans (h.1 j), hc h.2⟩

theorem good_setReg (s : State) (a : Nat) (w : Word) (h : s.Good) : (s.setReg a w).Good :=
  h.put .registers (by unfold State.canonAt; exact tabWf_tabPut _ _)
    (fun j hj => by cases j <;> first | rfl | exact absurd rfl hj) id
theorem good_setByte (s : State) (a : Nat) (b : Byte) (h : s.Good) : (s.setByte a b).Good :=
  h.put .memory (by unfold State.canonAt memWf; exact tabWf_tabPut _ _)
    (fun j hj => by cases j <;> first | rfl | exact absurd rfl hj) id

theorem goodRegs : KeepRegs State.Good where
  setReg := good_setReg
theorem goodAct : KeepAct State.Good where
  setAct s a w h := h.put .effect (by unfold State.canonAt; exact tabWf_tabPut _ _)
    (fun j hj => by cases j <;> first | rfl | exact absurd rfl hj) id
  act _ _ hx h := h.put .effect hx
    (fun j hj => by cases j <;> first | rfl | exact absurd rfl hj) id
theorem goodHeld : KeepHeld State.Good where
  held _ _ _ h := h.put .heldWords (by unfold State.canonAt; exact tabWf_tabPut _ _)
    (fun j hj => by cases j <;> first | rfl | exact absurd rfl hj) id
  latch _ _ hx h := h.put .latchedWords (fun _ => hx)
    (fun j hj => by cases j <;> first | rfl | exact absurd rfl hj) id
  latchPut _ _ _ h := h.put .latchedWords (by unfold State.canonAt; exact tabWf_tabPut _ _)
    (fun j hj => by cases j <;> first | rfl | exact absurd rfl hj) id
theorem goodMem : KeepMem State.Good where
  setByte := good_setByte
theorem goodLog : KeepLog State.Good where
  setByte s a b _ _ h := good_setByte s a b h
theorem goodDlk : KeepDlk State.Good where
  setDl _ _ _ h := h.put .dieLinks (by unfold State.canonAt; exact tabWf_tabPut _ _)
    (fun j hj => by cases j <;> first | rfl | exact absurd rfl hj) id
theorem goodClu : KeepClu State.Good where
  setCl _ _ _ h := h.put .drivers (by unfold State.canonAt; exact tabWf_tabPut _ _)
    (fun j hj => by cases j <;> first | rfl | exact absurd rfl hj) id
theorem goodConv : KeepConv State.Good where
  setCv _ _ _ h := h.put .converters (by unfold State.canonAt; exact tabWf_tabPut _ _)
    (fun j hj => by cases j <;> first | rfl | exact absurd rfl hj) id
theorem goodRgn : KeepRgn State.Good where
  setRg _ _ _ h := h.put .regions (by unfold State.canonAt; exact tabWf_tabPut _ _)
    (fun j hj => by cases j <;> first | rfl | exact absurd rfl hj) id
theorem goodChan : KeepChan State.Good where
  setCh _ _ _ h := h.put .channels (by unfold State.canonAt; exact tabWf_tabPut _ _)
    (fun j hj => by cases j <;> first | rfl | exact absurd rfl hj) id
theorem goodStr : KeepStr State.Good where
  setStr _ _ _ h := h.put .streams (by unfold State.canonAt; exact tabWf_tabPut _ _)
    (fun j hj => by cases j <;> first | rfl | exact absurd rfl hj) id
theorem goodCap : KeepCap State.Good where
  setCp _ _ _ h := h.put .captures (by unfold State.canonAt; exact tabWf_tabPut _ _)
    (fun j hj => by cases j <;> first | rfl | exact absurd rfl hj) id
theorem goodLnk : KeepLnk State.Good where
  setLk _ _ _ h := h.put .links (by unfold State.canonAt; exact tabWf_tabPut _ _)
    (fun j hj => by cases j <;> first | rfl | exact absurd rfl hj) id
theorem goodLane : KeepLane State.Good where
  setLn _ _ _ h := h.put .lanes (by unfold State.canonAt; exact tabWf_tabPut _ _)
    (fun j hj => by cases j <;> first | rfl | exact absurd rfl hj) id
theorem goodTls : KeepTls State.Good where
  tls _ _ hx h := h.same (fun j => by cases j <;> rfl) (fun hc => ⟨hc.1, hx hc.2.1, hc.2.2⟩)
theorem goodHs : KeepHs State.Good where
  hs _ _ hx h := h.same (fun j => by cases j <;> rfl) (fun hc => ⟨hc.1, hc.2.1, hx hc.2.2⟩)
theorem goodSnap : KeepSnap State.Good where
  snap _ _ hx h := h.same (fun j => by cases j <;> rfl) (fun hc => ⟨hx hc.1, hc.2⟩)
theorem goodOut : KeepOut State.Good where
  bus _ _ h := h.same (fun j => by cases j <;> rfl) id
  out _ _ h := h.same (fun j => by cases j <;> rfl) id
  free _ _ h := h.same (fun j => by cases j <;> rfl) id
theorem goodFlt : KeepFlt State.Good where
  flt _ _ h := h.same (fun j => by cases j <;> rfl) id
  stopReq _ _ h := h.same (fun j => by cases j <;> rfl) id
theorem goodPwr : KeepPwr State.Good where
  pwr _ _ h := h.same (fun j => by cases j <;> rfl) id
theorem goodSpn : KeepSpn State.Good where
  spn _ _ h := h.same (fun j => by cases j <;> rfl) id
theorem goodMains : KeepMains State.Good where
  mains _ _ h := h.same (fun j => by cases j <;> rfl) id
theorem goodGge : KeepGge State.Good where
  gge _ _ h := h.same (fun j => by cases j <;> rfl) id
theorem goodGaps : KeepGaps State.Good where
  gapStore _ _ h := h.same (fun j => by cases j <;> rfl) id
  seenTrig _ _ h := h.same (fun j => by cases j <;> rfl) id
theorem goodSeg : KeepSeg State.Good where
  seg _ _ h := h.same (fun j => by cases j <;> rfl) id
theorem goodRing : KeepRing State.Good where
  ring _ _ h := h.same (fun j => by cases j <;> rfl) id
theorem goodClock : KeepTime State.Good where
  lt _ _ h := h.same (fun j => by cases j <;> rfl) id
  always _ _ _ h := h.same (fun j => by cases j <;> rfl) id

/-- A hub whose tables are empty and whose queues are those of reset is good. -/
theorem good_reset_with (pd : List Instr) (al fr : Nat) (o : List Out) (b : Bus) (sp : SpnState) (p : PwrState) :
    State.Good { State.reset with pending := pd, always := al, free := fr, out := o, bus := b, spn := sp, pwr := p } :=
  ⟨fun k => by cases k <;> rfl, show State.reset.Caps by unfold State.Caps; decide +kernel⟩

/-- A full reset leaves a good state, whatever it found (R442). -/
theorem good_fullReset (s : State) (c : Nat) (b : Bool) : (s.fullReset c b).Good :=
  good_setReg _ _ _ (good_reset_with _ _ _ _ _ _ _)

theorem goodReset : KeepReset State.Good where
  fullReset s c b _ := good_fullReset s c b
theorem goodPart : ∀ p, KeepPart State.Good p
  | .regs => goodRegs
  | .effect => goodAct
  | .outputs => goodOut
  | .held => goodHeld
  | .faults => goodFlt
  | .memory => goodMem
  | .log => goodLog
  | .tailstock => goodTls
  | .power => goodPwr
  | .time => goodClock
  | .spindle => goodSpn
  | .dieLinks => goodDlk
  | .drivers => goodClu
  | .converters => goodConv
  | .regions => goodRgn
  | .channels => goodChan
  | .mains => goodMains
  | .streams => goodStr
  | .captures => goodCap
  | .gouge => goodGge
  | .gaps => goodGaps
  | .links => goodLnk
  | .lanes => goodLane
  | .segment => goodSeg
  | .ring => goodRing
  | .headstock => goodHs
  | .snapshots => goodSnap

end Sys2Proof.Machine
end

