-- ==== Sys2Proof/Laws/State.lean ====
section
/-! SUPPORT. One lemma for each field and each update of State, and what a read gives after a write. -/
namespace Sys2Proof.Machine
variable (s : State)

/-! `setReg` writes regs alone. -/
@[simp] theorem setReg_pending (a : Nat) (w : Word) : (s.setReg a w).pending = s.pending := rfl
@[simp] theorem setReg_lt (a : Nat) (w : Word) : (s.setReg a w).lt = s.lt := rfl
@[simp] theorem setReg_always (a : Nat) (w : Word) : (s.setReg a w).always = s.always := rfl
@[simp] theorem setReg_free (a : Nat) (w : Word) : (s.setReg a w).free = s.free := rfl
@[simp] theorem setReg_act (a : Nat) (w : Word) : (s.setReg a w).act = s.act := rfl
@[simp] theorem setReg_held (a : Nat) (w : Word) : (s.setReg a w).held = s.held := rfl
@[simp] theorem setReg_latch (a : Nat) (w : Word) : (s.setReg a w).latch = s.latch := rfl
@[simp] theorem setReg_mem (a : Nat) (w : Word) : (s.setReg a w).mem = s.mem := rfl
@[simp] theorem setReg_out (a : Nat) (w : Word) : (s.setReg a w).out = s.out := rfl
@[simp] theorem setReg_bus (a : Nat) (w : Word) : (s.setReg a w).bus = s.bus := rfl
@[simp] theorem setReg_snap (a : Nat) (w : Word) : (s.setReg a w).snap = s.snap := rfl
@[simp] theorem setReg_dlk (a : Nat) (w : Word) : (s.setReg a w).dlk = s.dlk := rfl
@[simp] theorem setReg_flt (a : Nat) (w : Word) : (s.setReg a w).flt = s.flt := rfl
@[simp] theorem setReg_spn (a : Nat) (w : Word) : (s.setReg a w).spn = s.spn := rfl
@[simp] theorem setReg_clu (a : Nat) (w : Word) : (s.setReg a w).clu = s.clu := rfl
@[simp] theorem setReg_conv (a : Nat) (w : Word) : (s.setReg a w).conv = s.conv := rfl
@[simp] theorem setReg_rgn (a : Nat) (w : Word) : (s.setReg a w).rgn = s.rgn := rfl
@[simp] theorem setReg_mains (a : Nat) (w : Word) : (s.setReg a w).mains = s.mains := rfl
@[simp] theorem setReg_chan (a : Nat) (w : Word) : (s.setReg a w).chan = s.chan := rfl
@[simp] theorem setReg_str (a : Nat) (w : Word) : (s.setReg a w).str = s.str := rfl
@[simp] theorem setReg_gapStore (a : Nat) (w : Word) : (s.setReg a w).gapStore = s.gapStore := rfl
@[simp] theorem setReg_gge (a : Nat) (w : Word) : (s.setReg a w).gge = s.gge := rfl
@[simp] theorem setReg_cap (a : Nat) (w : Word) : (s.setReg a w).cap = s.cap := rfl
@[simp] theorem setReg_lnk (a : Nat) (w : Word) : (s.setReg a w).lnk = s.lnk := rfl
@[simp] theorem setReg_seg (a : Nat) (w : Word) : (s.setReg a w).seg = s.seg := rfl
@[simp] theorem setReg_seenTrig (a : Nat) (w : Word) : (s.setReg a w).seenTrig = s.seenTrig := rfl
@[simp] theorem setReg_stopReq (a : Nat) (w : Word) : (s.setReg a w).stopReq = s.stopReq := rfl
@[simp] theorem setReg_lane (a : Nat) (w : Word) : (s.setReg a w).lane = s.lane := rfl
@[simp] theorem setReg_ring (a : Nat) (w : Word) : (s.setReg a w).ring = s.ring := rfl
@[simp] theorem setReg_tls (a : Nat) (w : Word) : (s.setReg a w).tls = s.tls := rfl
@[simp] theorem setReg_hs (a : Nat) (w : Word) : (s.setReg a w).hs = s.hs := rfl
@[simp] theorem setReg_pwr (a : Nat) (w : Word) : (s.setReg a w).pwr = s.pwr := rfl

/-! `setFld` writes regs alone. -/
@[simp] theorem setFld_pending (a : Nat) (f : Fld) (v : Nat) : (s.setFld a f v).pending = s.pending := rfl
@[simp] theorem setFld_lt (a : Nat) (f : Fld) (v : Nat) : (s.setFld a f v).lt = s.lt := rfl
@[simp] theorem setFld_always (a : Nat) (f : Fld) (v : Nat) : (s.setFld a f v).always = s.always := rfl
@[simp] theorem setFld_free (a : Nat) (f : Fld) (v : Nat) : (s.setFld a f v).free = s.free := rfl
@[simp] theorem setFld_act (a : Nat) (f : Fld) (v : Nat) : (s.setFld a f v).act = s.act := rfl
@[simp] theorem setFld_held (a : Nat) (f : Fld) (v : Nat) : (s.setFld a f v).held = s.held := rfl
@[simp] theorem setFld_latch (a : Nat) (f : Fld) (v : Nat) : (s.setFld a f v).latch = s.latch := rfl
@[simp] theorem setFld_mem (a : Nat) (f : Fld) (v : Nat) : (s.setFld a f v).mem = s.mem := rfl
@[simp] theorem setFld_out (a : Nat) (f : Fld) (v : Nat) : (s.setFld a f v).out = s.out := rfl
@[simp] theorem setFld_bus (a : Nat) (f : Fld) (v : Nat) : (s.setFld a f v).bus = s.bus := rfl
@[simp] theorem setFld_snap (a : Nat) (f : Fld) (v : Nat) : (s.setFld a f v).snap = s.snap := rfl
@[simp] theorem setFld_dlk (a : Nat) (f : Fld) (v : Nat) : (s.setFld a f v).dlk = s.dlk := rfl
@[simp] theorem setFld_flt (a : Nat) (f : Fld) (v : Nat) : (s.setFld a f v).flt = s.flt := rfl
@[simp] theorem setFld_spn (a : Nat) (f : Fld) (v : Nat) : (s.setFld a f v).spn = s.spn := rfl
@[simp] theorem setFld_clu (a : Nat) (f : Fld) (v : Nat) : (s.setFld a f v).clu = s.clu := rfl
@[simp] theorem setFld_conv (a : Nat) (f : Fld) (v : Nat) : (s.setFld a f v).conv = s.conv := rfl
@[simp] theorem setFld_rgn (a : Nat) (f : Fld) (v : Nat) : (s.setFld a f v).rgn = s.rgn := rfl
@[simp] theorem setFld_mains (a : Nat) (f : Fld) (v : Nat) : (s.setFld a f v).mains = s.mains := rfl
@[simp] theorem setFld_chan (a : Nat) (f : Fld) (v : Nat) : (s.setFld a f v).chan = s.chan := rfl
@[simp] theorem setFld_str (a : Nat) (f : Fld) (v : Nat) : (s.setFld a f v).str = s.str := rfl
@[simp] theorem setFld_gapStore (a : Nat) (f : Fld) (v : Nat) : (s.setFld a f v).gapStore = s.gapStore := rfl
@[simp] theorem setFld_gge (a : Nat) (f : Fld) (v : Nat) : (s.setFld a f v).gge = s.gge := rfl
@[simp] theorem setFld_cap (a : Nat) (f : Fld) (v : Nat) : (s.setFld a f v).cap = s.cap := rfl
@[simp] theorem setFld_lnk (a : Nat) (f : Fld) (v : Nat) : (s.setFld a f v).lnk = s.lnk := rfl
@[simp] theorem setFld_seg (a : Nat) (f : Fld) (v : Nat) : (s.setFld a f v).seg = s.seg := rfl
@[simp] theorem setFld_seenTrig (a : Nat) (f : Fld) (v : Nat) : (s.setFld a f v).seenTrig = s.seenTrig := rfl
@[simp] theorem setFld_stopReq (a : Nat) (f : Fld) (v : Nat) : (s.setFld a f v).stopReq = s.stopReq := rfl
@[simp] theorem setFld_lane (a : Nat) (f : Fld) (v : Nat) : (s.setFld a f v).lane = s.lane := rfl
@[simp] theorem setFld_ring (a : Nat) (f : Fld) (v : Nat) : (s.setFld a f v).ring = s.ring := rfl
@[simp] theorem setFld_tls (a : Nat) (f : Fld) (v : Nat) : (s.setFld a f v).tls = s.tls := rfl
@[simp] theorem setFld_hs (a : Nat) (f : Fld) (v : Nat) : (s.setFld a f v).hs = s.hs := rfl
@[simp] theorem setFld_pwr (a : Nat) (f : Fld) (v : Nat) : (s.setFld a f v).pwr = s.pwr := rfl

/-! `setFlag` writes regs alone. -/
@[simp] theorem setFlag_pending (a : Nat) (f : Fld) (b : Bool) : (s.setFlag a f b).pending = s.pending := rfl
@[simp] theorem setFlag_lt (a : Nat) (f : Fld) (b : Bool) : (s.setFlag a f b).lt = s.lt := rfl
@[simp] theorem setFlag_always (a : Nat) (f : Fld) (b : Bool) : (s.setFlag a f b).always = s.always := rfl
@[simp] theorem setFlag_free (a : Nat) (f : Fld) (b : Bool) : (s.setFlag a f b).free = s.free := rfl
@[simp] theorem setFlag_act (a : Nat) (f : Fld) (b : Bool) : (s.setFlag a f b).act = s.act := rfl
@[simp] theorem setFlag_held (a : Nat) (f : Fld) (b : Bool) : (s.setFlag a f b).held = s.held := rfl
@[simp] theorem setFlag_latch (a : Nat) (f : Fld) (b : Bool) : (s.setFlag a f b).latch = s.latch := rfl
@[simp] theorem setFlag_mem (a : Nat) (f : Fld) (b : Bool) : (s.setFlag a f b).mem = s.mem := rfl
@[simp] theorem setFlag_out (a : Nat) (f : Fld) (b : Bool) : (s.setFlag a f b).out = s.out := rfl
@[simp] theorem setFlag_bus (a : Nat) (f : Fld) (b : Bool) : (s.setFlag a f b).bus = s.bus := rfl
@[simp] theorem setFlag_snap (a : Nat) (f : Fld) (b : Bool) : (s.setFlag a f b).snap = s.snap := rfl
@[simp] theorem setFlag_dlk (a : Nat) (f : Fld) (b : Bool) : (s.setFlag a f b).dlk = s.dlk := rfl
@[simp] theorem setFlag_flt (a : Nat) (f : Fld) (b : Bool) : (s.setFlag a f b).flt = s.flt := rfl
@[simp] theorem setFlag_spn (a : Nat) (f : Fld) (b : Bool) : (s.setFlag a f b).spn = s.spn := rfl
@[simp] theorem setFlag_clu (a : Nat) (f : Fld) (b : Bool) : (s.setFlag a f b).clu = s.clu := rfl
@[simp] theorem setFlag_conv (a : Nat) (f : Fld) (b : Bool) : (s.setFlag a f b).conv = s.conv := rfl
@[simp] theorem setFlag_rgn (a : Nat) (f : Fld) (b : Bool) : (s.setFlag a f b).rgn = s.rgn := rfl
@[simp] theorem setFlag_mains (a : Nat) (f : Fld) (b : Bool) : (s.setFlag a f b).mains = s.mains := rfl
@[simp] theorem setFlag_chan (a : Nat) (f : Fld) (b : Bool) : (s.setFlag a f b).chan = s.chan := rfl
@[simp] theorem setFlag_str (a : Nat) (f : Fld) (b : Bool) : (s.setFlag a f b).str = s.str := rfl
@[simp] theorem setFlag_gapStore (a : Nat) (f : Fld) (b : Bool) : (s.setFlag a f b).gapStore = s.gapStore := rfl
@[simp] theorem setFlag_gge (a : Nat) (f : Fld) (b : Bool) : (s.setFlag a f b).gge = s.gge := rfl
@[simp] theorem setFlag_cap (a : Nat) (f : Fld) (b : Bool) : (s.setFlag a f b).cap = s.cap := rfl
@[simp] theorem setFlag_lnk (a : Nat) (f : Fld) (b : Bool) : (s.setFlag a f b).lnk = s.lnk := rfl
@[simp] theorem setFlag_seg (a : Nat) (f : Fld) (b : Bool) : (s.setFlag a f b).seg = s.seg := rfl
@[simp] theorem setFlag_seenTrig (a : Nat) (f : Fld) (b : Bool) : (s.setFlag a f b).seenTrig = s.seenTrig := rfl
@[simp] theorem setFlag_stopReq (a : Nat) (f : Fld) (b : Bool) : (s.setFlag a f b).stopReq = s.stopReq := rfl
@[simp] theorem setFlag_lane (a : Nat) (f : Fld) (b : Bool) : (s.setFlag a f b).lane = s.lane := rfl
@[simp] theorem setFlag_ring (a : Nat) (f : Fld) (b : Bool) : (s.setFlag a f b).ring = s.ring := rfl
@[simp] theorem setFlag_tls (a : Nat) (f : Fld) (b : Bool) : (s.setFlag a f b).tls = s.tls := rfl
@[simp] theorem setFlag_hs (a : Nat) (f : Fld) (b : Bool) : (s.setFlag a f b).hs = s.hs := rfl
@[simp] theorem setFlag_pwr (a : Nat) (f : Fld) (b : Bool) : (s.setFlag a f b).pwr = s.pwr := rfl

/-! `bumpBy` writes regs alone. -/
@[simp] theorem bumpBy_pending (a : Nat) (f : Fld) (n : Nat) : (s.bumpBy a f n).pending = s.pending := rfl
@[simp] theorem bumpBy_lt (a : Nat) (f : Fld) (n : Nat) : (s.bumpBy a f n).lt = s.lt := rfl
@[simp] theorem bumpBy_always (a : Nat) (f : Fld) (n : Nat) : (s.bumpBy a f n).always = s.always := rfl
@[simp] theorem bumpBy_free (a : Nat) (f : Fld) (n : Nat) : (s.bumpBy a f n).free = s.free := rfl
@[simp] theorem bumpBy_act (a : Nat) (f : Fld) (n : Nat) : (s.bumpBy a f n).act = s.act := rfl
@[simp] theorem bumpBy_held (a : Nat) (f : Fld) (n : Nat) : (s.bumpBy a f n).held = s.held := rfl
@[simp] theorem bumpBy_latch (a : Nat) (f : Fld) (n : Nat) : (s.bumpBy a f n).latch = s.latch := rfl
@[simp] theorem bumpBy_mem (a : Nat) (f : Fld) (n : Nat) : (s.bumpBy a f n).mem = s.mem := rfl
@[simp] theorem bumpBy_out (a : Nat) (f : Fld) (n : Nat) : (s.bumpBy a f n).out = s.out := rfl
@[simp] theorem bumpBy_bus (a : Nat) (f : Fld) (n : Nat) : (s.bumpBy a f n).bus = s.bus := rfl
@[simp] theorem bumpBy_snap (a : Nat) (f : Fld) (n : Nat) : (s.bumpBy a f n).snap = s.snap := rfl
@[simp] theorem bumpBy_dlk (a : Nat) (f : Fld) (n : Nat) : (s.bumpBy a f n).dlk = s.dlk := rfl
@[simp] theorem bumpBy_flt (a : Nat) (f : Fld) (n : Nat) : (s.bumpBy a f n).flt = s.flt := rfl
@[simp] theorem bumpBy_spn (a : Nat) (f : Fld) (n : Nat) : (s.bumpBy a f n).spn = s.spn := rfl
@[simp] theorem bumpBy_clu (a : Nat) (f : Fld) (n : Nat) : (s.bumpBy a f n).clu = s.clu := rfl
@[simp] theorem bumpBy_conv (a : Nat) (f : Fld) (n : Nat) : (s.bumpBy a f n).conv = s.conv := rfl
@[simp] theorem bumpBy_rgn (a : Nat) (f : Fld) (n : Nat) : (s.bumpBy a f n).rgn = s.rgn := rfl
@[simp] theorem bumpBy_mains (a : Nat) (f : Fld) (n : Nat) : (s.bumpBy a f n).mains = s.mains := rfl
@[simp] theorem bumpBy_chan (a : Nat) (f : Fld) (n : Nat) : (s.bumpBy a f n).chan = s.chan := rfl
@[simp] theorem bumpBy_str (a : Nat) (f : Fld) (n : Nat) : (s.bumpBy a f n).str = s.str := rfl
@[simp] theorem bumpBy_gapStore (a : Nat) (f : Fld) (n : Nat) : (s.bumpBy a f n).gapStore = s.gapStore := rfl
@[simp] theorem bumpBy_gge (a : Nat) (f : Fld) (n : Nat) : (s.bumpBy a f n).gge = s.gge := rfl
@[simp] theorem bumpBy_cap (a : Nat) (f : Fld) (n : Nat) : (s.bumpBy a f n).cap = s.cap := rfl
@[simp] theorem bumpBy_lnk (a : Nat) (f : Fld) (n : Nat) : (s.bumpBy a f n).lnk = s.lnk := rfl
@[simp] theorem bumpBy_seg (a : Nat) (f : Fld) (n : Nat) : (s.bumpBy a f n).seg = s.seg := rfl
@[simp] theorem bumpBy_seenTrig (a : Nat) (f : Fld) (n : Nat) : (s.bumpBy a f n).seenTrig = s.seenTrig := rfl
@[simp] theorem bumpBy_stopReq (a : Nat) (f : Fld) (n : Nat) : (s.bumpBy a f n).stopReq = s.stopReq := rfl
@[simp] theorem bumpBy_lane (a : Nat) (f : Fld) (n : Nat) : (s.bumpBy a f n).lane = s.lane := rfl
@[simp] theorem bumpBy_ring (a : Nat) (f : Fld) (n : Nat) : (s.bumpBy a f n).ring = s.ring := rfl
@[simp] theorem bumpBy_tls (a : Nat) (f : Fld) (n : Nat) : (s.bumpBy a f n).tls = s.tls := rfl
@[simp] theorem bumpBy_hs (a : Nat) (f : Fld) (n : Nat) : (s.bumpBy a f n).hs = s.hs := rfl
@[simp] theorem bumpBy_pwr (a : Nat) (f : Fld) (n : Nat) : (s.bumpBy a f n).pwr = s.pwr := rfl

/-! `bump` writes regs alone. -/
@[simp] theorem bump_pending (a : Nat) (f : Fld) : (s.bump a f).pending = s.pending := rfl
@[simp] theorem bump_lt (a : Nat) (f : Fld) : (s.bump a f).lt = s.lt := rfl
@[simp] theorem bump_always (a : Nat) (f : Fld) : (s.bump a f).always = s.always := rfl
@[simp] theorem bump_free (a : Nat) (f : Fld) : (s.bump a f).free = s.free := rfl
@[simp] theorem bump_act (a : Nat) (f : Fld) : (s.bump a f).act = s.act := rfl
@[simp] theorem bump_held (a : Nat) (f : Fld) : (s.bump a f).held = s.held := rfl
@[simp] theorem bump_latch (a : Nat) (f : Fld) : (s.bump a f).latch = s.latch := rfl
@[simp] theorem bump_mem (a : Nat) (f : Fld) : (s.bump a f).mem = s.mem := rfl
@[simp] theorem bump_out (a : Nat) (f : Fld) : (s.bump a f).out = s.out := rfl
@[simp] theorem bump_bus (a : Nat) (f : Fld) : (s.bump a f).bus = s.bus := rfl
@[simp] theorem bump_snap (a : Nat) (f : Fld) : (s.bump a f).snap = s.snap := rfl
@[simp] theorem bump_dlk (a : Nat) (f : Fld) : (s.bump a f).dlk = s.dlk := rfl
@[simp] theorem bump_flt (a : Nat) (f : Fld) : (s.bump a f).flt = s.flt := rfl
@[simp] theorem bump_spn (a : Nat) (f : Fld) : (s.bump a f).spn = s.spn := rfl
@[simp] theorem bump_clu (a : Nat) (f : Fld) : (s.bump a f).clu = s.clu := rfl
@[simp] theorem bump_conv (a : Nat) (f : Fld) : (s.bump a f).conv = s.conv := rfl
@[simp] theorem bump_rgn (a : Nat) (f : Fld) : (s.bump a f).rgn = s.rgn := rfl
@[simp] theorem bump_mains (a : Nat) (f : Fld) : (s.bump a f).mains = s.mains := rfl
@[simp] theorem bump_chan (a : Nat) (f : Fld) : (s.bump a f).chan = s.chan := rfl
@[simp] theorem bump_str (a : Nat) (f : Fld) : (s.bump a f).str = s.str := rfl
@[simp] theorem bump_gapStore (a : Nat) (f : Fld) : (s.bump a f).gapStore = s.gapStore := rfl
@[simp] theorem bump_gge (a : Nat) (f : Fld) : (s.bump a f).gge = s.gge := rfl
@[simp] theorem bump_cap (a : Nat) (f : Fld) : (s.bump a f).cap = s.cap := rfl
@[simp] theorem bump_lnk (a : Nat) (f : Fld) : (s.bump a f).lnk = s.lnk := rfl
@[simp] theorem bump_seg (a : Nat) (f : Fld) : (s.bump a f).seg = s.seg := rfl
@[simp] theorem bump_seenTrig (a : Nat) (f : Fld) : (s.bump a f).seenTrig = s.seenTrig := rfl
@[simp] theorem bump_stopReq (a : Nat) (f : Fld) : (s.bump a f).stopReq = s.stopReq := rfl
@[simp] theorem bump_lane (a : Nat) (f : Fld) : (s.bump a f).lane = s.lane := rfl
@[simp] theorem bump_ring (a : Nat) (f : Fld) : (s.bump a f).ring = s.ring := rfl
@[simp] theorem bump_tls (a : Nat) (f : Fld) : (s.bump a f).tls = s.tls := rfl
@[simp] theorem bump_hs (a : Nat) (f : Fld) : (s.bump a f).hs = s.hs := rfl
@[simp] theorem bump_pwr (a : Nat) (f : Fld) : (s.bump a f).pwr = s.pwr := rfl

/-! `setAct` writes act alone. -/
@[simp] theorem setAct_pending (a : Nat) (w : Word) : (s.setAct a w).pending = s.pending := rfl
@[simp] theorem setAct_lt (a : Nat) (w : Word) : (s.setAct a w).lt = s.lt := rfl
@[simp] theorem setAct_always (a : Nat) (w : Word) : (s.setAct a w).always = s.always := rfl
@[simp] theorem setAct_free (a : Nat) (w : Word) : (s.setAct a w).free = s.free := rfl
@[simp] theorem setAct_regs (a : Nat) (w : Word) : (s.setAct a w).regs = s.regs := rfl
@[simp] theorem setAct_held (a : Nat) (w : Word) : (s.setAct a w).held = s.held := rfl
@[simp] theorem setAct_latch (a : Nat) (w : Word) : (s.setAct a w).latch = s.latch := rfl
@[simp] theorem setAct_mem (a : Nat) (w : Word) : (s.setAct a w).mem = s.mem := rfl
@[simp] theorem setAct_out (a : Nat) (w : Word) : (s.setAct a w).out = s.out := rfl
@[simp] theorem setAct_bus (a : Nat) (w : Word) : (s.setAct a w).bus = s.bus := rfl
@[simp] theorem setAct_snap (a : Nat) (w : Word) : (s.setAct a w).snap = s.snap := rfl
@[simp] theorem setAct_dlk (a : Nat) (w : Word) : (s.setAct a w).dlk = s.dlk := rfl
@[simp] theorem setAct_flt (a : Nat) (w : Word) : (s.setAct a w).flt = s.flt := rfl
@[simp] theorem setAct_spn (a : Nat) (w : Word) : (s.setAct a w).spn = s.spn := rfl
@[simp] theorem setAct_clu (a : Nat) (w : Word) : (s.setAct a w).clu = s.clu := rfl
@[simp] theorem setAct_conv (a : Nat) (w : Word) : (s.setAct a w).conv = s.conv := rfl
@[simp] theorem setAct_rgn (a : Nat) (w : Word) : (s.setAct a w).rgn = s.rgn := rfl
@[simp] theorem setAct_mains (a : Nat) (w : Word) : (s.setAct a w).mains = s.mains := rfl
@[simp] theorem setAct_chan (a : Nat) (w : Word) : (s.setAct a w).chan = s.chan := rfl
@[simp] theorem setAct_str (a : Nat) (w : Word) : (s.setAct a w).str = s.str := rfl
@[simp] theorem setAct_gapStore (a : Nat) (w : Word) : (s.setAct a w).gapStore = s.gapStore := rfl
@[simp] theorem setAct_gge (a : Nat) (w : Word) : (s.setAct a w).gge = s.gge := rfl
@[simp] theorem setAct_cap (a : Nat) (w : Word) : (s.setAct a w).cap = s.cap := rfl
@[simp] theorem setAct_lnk (a : Nat) (w : Word) : (s.setAct a w).lnk = s.lnk := rfl
@[simp] theorem setAct_seg (a : Nat) (w : Word) : (s.setAct a w).seg = s.seg := rfl
@[simp] theorem setAct_seenTrig (a : Nat) (w : Word) : (s.setAct a w).seenTrig = s.seenTrig := rfl
@[simp] theorem setAct_stopReq (a : Nat) (w : Word) : (s.setAct a w).stopReq = s.stopReq := rfl
@[simp] theorem setAct_lane (a : Nat) (w : Word) : (s.setAct a w).lane = s.lane := rfl
@[simp] theorem setAct_ring (a : Nat) (w : Word) : (s.setAct a w).ring = s.ring := rfl
@[simp] theorem setAct_tls (a : Nat) (w : Word) : (s.setAct a w).tls = s.tls := rfl
@[simp] theorem setAct_hs (a : Nat) (w : Word) : (s.setAct a w).hs = s.hs := rfl
@[simp] theorem setAct_pwr (a : Nat) (w : Word) : (s.setAct a w).pwr = s.pwr := rfl

/-! `setActFld` writes act alone. -/
@[simp] theorem setActFld_pending (a : Nat) (f : Fld) (v : Nat) : (s.setActFld a f v).pending = s.pending := rfl
@[simp] theorem setActFld_lt (a : Nat) (f : Fld) (v : Nat) : (s.setActFld a f v).lt = s.lt := rfl
@[simp] theorem setActFld_always (a : Nat) (f : Fld) (v : Nat) : (s.setActFld a f v).always = s.always := rfl
@[simp] theorem setActFld_free (a : Nat) (f : Fld) (v : Nat) : (s.setActFld a f v).free = s.free := rfl
@[simp] theorem setActFld_regs (a : Nat) (f : Fld) (v : Nat) : (s.setActFld a f v).regs = s.regs := rfl
@[simp] theorem setActFld_held (a : Nat) (f : Fld) (v : Nat) : (s.setActFld a f v).held = s.held := rfl
@[simp] theorem setActFld_latch (a : Nat) (f : Fld) (v : Nat) : (s.setActFld a f v).latch = s.latch := rfl
@[simp] theorem setActFld_mem (a : Nat) (f : Fld) (v : Nat) : (s.setActFld a f v).mem = s.mem := rfl
@[simp] theorem setActFld_out (a : Nat) (f : Fld) (v : Nat) : (s.setActFld a f v).out = s.out := rfl
@[simp] theorem setActFld_bus (a : Nat) (f : Fld) (v : Nat) : (s.setActFld a f v).bus = s.bus := rfl
@[simp] theorem setActFld_snap (a : Nat) (f : Fld) (v : Nat) : (s.setActFld a f v).snap = s.snap := rfl
@[simp] theorem setActFld_dlk (a : Nat) (f : Fld) (v : Nat) : (s.setActFld a f v).dlk = s.dlk := rfl
@[simp] theorem setActFld_flt (a : Nat) (f : Fld) (v : Nat) : (s.setActFld a f v).flt = s.flt := rfl
@[simp] theorem setActFld_spn (a : Nat) (f : Fld) (v : Nat) : (s.setActFld a f v).spn = s.spn := rfl
@[simp] theorem setActFld_clu (a : Nat) (f : Fld) (v : Nat) : (s.setActFld a f v).clu = s.clu := rfl
@[simp] theorem setActFld_conv (a : Nat) (f : Fld) (v : Nat) : (s.setActFld a f v).conv = s.conv := rfl
@[simp] theorem setActFld_rgn (a : Nat) (f : Fld) (v : Nat) : (s.setActFld a f v).rgn = s.rgn := rfl
@[simp] theorem setActFld_mains (a : Nat) (f : Fld) (v : Nat) : (s.setActFld a f v).mains = s.mains := rfl
@[simp] theorem setActFld_chan (a : Nat) (f : Fld) (v : Nat) : (s.setActFld a f v).chan = s.chan := rfl
@[simp] theorem setActFld_str (a : Nat) (f : Fld) (v : Nat) : (s.setActFld a f v).str = s.str := rfl
@[simp] theorem setActFld_gapStore (a : Nat) (f : Fld) (v : Nat) : (s.setActFld a f v).gapStore = s.gapStore := rfl
@[simp] theorem setActFld_gge (a : Nat) (f : Fld) (v : Nat) : (s.setActFld a f v).gge = s.gge := rfl
@[simp] theorem setActFld_cap (a : Nat) (f : Fld) (v : Nat) : (s.setActFld a f v).cap = s.cap := rfl
@[simp] theorem setActFld_lnk (a : Nat) (f : Fld) (v : Nat) : (s.setActFld a f v).lnk = s.lnk := rfl
@[simp] theorem setActFld_seg (a : Nat) (f : Fld) (v : Nat) : (s.setActFld a f v).seg = s.seg := rfl
@[simp] theorem setActFld_seenTrig (a : Nat) (f : Fld) (v : Nat) : (s.setActFld a f v).seenTrig = s.seenTrig := rfl
@[simp] theorem setActFld_stopReq (a : Nat) (f : Fld) (v : Nat) : (s.setActFld a f v).stopReq = s.stopReq := rfl
@[simp] theorem setActFld_lane (a : Nat) (f : Fld) (v : Nat) : (s.setActFld a f v).lane = s.lane := rfl
@[simp] theorem setActFld_ring (a : Nat) (f : Fld) (v : Nat) : (s.setActFld a f v).ring = s.ring := rfl
@[simp] theorem setActFld_tls (a : Nat) (f : Fld) (v : Nat) : (s.setActFld a f v).tls = s.tls := rfl
@[simp] theorem setActFld_hs (a : Nat) (f : Fld) (v : Nat) : (s.setActFld a f v).hs = s.hs := rfl
@[simp] theorem setActFld_pwr (a : Nat) (f : Fld) (v : Nat) : (s.setActFld a f v).pwr = s.pwr := rfl

/-! `setByte` writes mem alone. -/
@[simp] theorem setByte_pending (a : Nat) (b : Byte) : (s.setByte a b).pending = s.pending := rfl
@[simp] theorem setByte_lt (a : Nat) (b : Byte) : (s.setByte a b).lt = s.lt := rfl
@[simp] theorem setByte_always (a : Nat) (b : Byte) : (s.setByte a b).always = s.always := rfl
@[simp] theorem setByte_free (a : Nat) (b : Byte) : (s.setByte a b).free = s.free := rfl
@[simp] theorem setByte_regs (a : Nat) (b : Byte) : (s.setByte a b).regs = s.regs := rfl
@[simp] theorem setByte_act (a : Nat) (b : Byte) : (s.setByte a b).act = s.act := rfl
@[simp] theorem setByte_held (a : Nat) (b : Byte) : (s.setByte a b).held = s.held := rfl
@[simp] theorem setByte_latch (a : Nat) (b : Byte) : (s.setByte a b).latch = s.latch := rfl
@[simp] theorem setByte_out (a : Nat) (b : Byte) : (s.setByte a b).out = s.out := rfl
@[simp] theorem setByte_bus (a : Nat) (b : Byte) : (s.setByte a b).bus = s.bus := rfl
@[simp] theorem setByte_snap (a : Nat) (b : Byte) : (s.setByte a b).snap = s.snap := rfl
@[simp] theorem setByte_dlk (a : Nat) (b : Byte) : (s.setByte a b).dlk = s.dlk := rfl
@[simp] theorem setByte_flt (a : Nat) (b : Byte) : (s.setByte a b).flt = s.flt := rfl
@[simp] theorem setByte_spn (a : Nat) (b : Byte) : (s.setByte a b).spn = s.spn := rfl
@[simp] theorem setByte_clu (a : Nat) (b : Byte) : (s.setByte a b).clu = s.clu := rfl
@[simp] theorem setByte_conv (a : Nat) (b : Byte) : (s.setByte a b).conv = s.conv := rfl
@[simp] theorem setByte_rgn (a : Nat) (b : Byte) : (s.setByte a b).rgn = s.rgn := rfl
@[simp] theorem setByte_mains (a : Nat) (b : Byte) : (s.setByte a b).mains = s.mains := rfl
@[simp] theorem setByte_chan (a : Nat) (b : Byte) : (s.setByte a b).chan = s.chan := rfl
@[simp] theorem setByte_str (a : Nat) (b : Byte) : (s.setByte a b).str = s.str := rfl
@[simp] theorem setByte_gapStore (a : Nat) (b : Byte) : (s.setByte a b).gapStore = s.gapStore := rfl
@[simp] theorem setByte_gge (a : Nat) (b : Byte) : (s.setByte a b).gge = s.gge := rfl
@[simp] theorem setByte_cap (a : Nat) (b : Byte) : (s.setByte a b).cap = s.cap := rfl
@[simp] theorem setByte_lnk (a : Nat) (b : Byte) : (s.setByte a b).lnk = s.lnk := rfl
@[simp] theorem setByte_seg (a : Nat) (b : Byte) : (s.setByte a b).seg = s.seg := rfl
@[simp] theorem setByte_seenTrig (a : Nat) (b : Byte) : (s.setByte a b).seenTrig = s.seenTrig := rfl
@[simp] theorem setByte_stopReq (a : Nat) (b : Byte) : (s.setByte a b).stopReq = s.stopReq := rfl
@[simp] theorem setByte_lane (a : Nat) (b : Byte) : (s.setByte a b).lane = s.lane := rfl
@[simp] theorem setByte_ring (a : Nat) (b : Byte) : (s.setByte a b).ring = s.ring := rfl
@[simp] theorem setByte_tls (a : Nat) (b : Byte) : (s.setByte a b).tls = s.tls := rfl
@[simp] theorem setByte_hs (a : Nat) (b : Byte) : (s.setByte a b).hs = s.hs := rfl
@[simp] theorem setByte_pwr (a : Nat) (b : Byte) : (s.setByte a b).pwr = s.pwr := rfl

/-! `emit` writes out alone. -/
@[simp] theorem emit_pending (o : Out) : (s.emit o).pending = s.pending := rfl
@[simp] theorem emit_lt (o : Out) : (s.emit o).lt = s.lt := rfl
@[simp] theorem emit_always (o : Out) : (s.emit o).always = s.always := rfl
@[simp] theorem emit_free (o : Out) : (s.emit o).free = s.free := rfl
@[simp] theorem emit_regs (o : Out) : (s.emit o).regs = s.regs := rfl
@[simp] theorem emit_act (o : Out) : (s.emit o).act = s.act := rfl
@[simp] theorem emit_held (o : Out) : (s.emit o).held = s.held := rfl
@[simp] theorem emit_latch (o : Out) : (s.emit o).latch = s.latch := rfl
@[simp] theorem emit_mem (o : Out) : (s.emit o).mem = s.mem := rfl
@[simp] theorem emit_bus (o : Out) : (s.emit o).bus = s.bus := rfl
@[simp] theorem emit_snap (o : Out) : (s.emit o).snap = s.snap := rfl
@[simp] theorem emit_dlk (o : Out) : (s.emit o).dlk = s.dlk := rfl
@[simp] theorem emit_flt (o : Out) : (s.emit o).flt = s.flt := rfl
@[simp] theorem emit_spn (o : Out) : (s.emit o).spn = s.spn := rfl
@[simp] theorem emit_clu (o : Out) : (s.emit o).clu = s.clu := rfl
@[simp] theorem emit_conv (o : Out) : (s.emit o).conv = s.conv := rfl
@[simp] theorem emit_rgn (o : Out) : (s.emit o).rgn = s.rgn := rfl
@[simp] theorem emit_mains (o : Out) : (s.emit o).mains = s.mains := rfl
@[simp] theorem emit_chan (o : Out) : (s.emit o).chan = s.chan := rfl
@[simp] theorem emit_str (o : Out) : (s.emit o).str = s.str := rfl
@[simp] theorem emit_gapStore (o : Out) : (s.emit o).gapStore = s.gapStore := rfl
@[simp] theorem emit_gge (o : Out) : (s.emit o).gge = s.gge := rfl
@[simp] theorem emit_cap (o : Out) : (s.emit o).cap = s.cap := rfl
@[simp] theorem emit_lnk (o : Out) : (s.emit o).lnk = s.lnk := rfl
@[simp] theorem emit_seg (o : Out) : (s.emit o).seg = s.seg := rfl
@[simp] theorem emit_seenTrig (o : Out) : (s.emit o).seenTrig = s.seenTrig := rfl
@[simp] theorem emit_stopReq (o : Out) : (s.emit o).stopReq = s.stopReq := rfl
@[simp] theorem emit_lane (o : Out) : (s.emit o).lane = s.lane := rfl
@[simp] theorem emit_ring (o : Out) : (s.emit o).ring = s.ring := rfl
@[simp] theorem emit_tls (o : Out) : (s.emit o).tls = s.tls := rfl
@[simp] theorem emit_hs (o : Out) : (s.emit o).hs = s.hs := rfl
@[simp] theorem emit_pwr (o : Out) : (s.emit o).pwr = s.pwr := rfl

/-! `answer` writes bus alone. -/
@[simp] theorem answer_pending (v st : Nat) : (s.answer v st).pending = s.pending := rfl
@[simp] theorem answer_lt (v st : Nat) : (s.answer v st).lt = s.lt := rfl
@[simp] theorem answer_always (v st : Nat) : (s.answer v st).always = s.always := rfl
@[simp] theorem answer_free (v st : Nat) : (s.answer v st).free = s.free := rfl
@[simp] theorem answer_regs (v st : Nat) : (s.answer v st).regs = s.regs := rfl
@[simp] theorem answer_act (v st : Nat) : (s.answer v st).act = s.act := rfl
@[simp] theorem answer_held (v st : Nat) : (s.answer v st).held = s.held := rfl
@[simp] theorem answer_latch (v st : Nat) : (s.answer v st).latch = s.latch := rfl
@[simp] theorem answer_mem (v st : Nat) : (s.answer v st).mem = s.mem := rfl
@[simp] theorem answer_out (v st : Nat) : (s.answer v st).out = s.out := rfl
@[simp] theorem answer_snap (v st : Nat) : (s.answer v st).snap = s.snap := rfl
@[simp] theorem answer_dlk (v st : Nat) : (s.answer v st).dlk = s.dlk := rfl
@[simp] theorem answer_flt (v st : Nat) : (s.answer v st).flt = s.flt := rfl
@[simp] theorem answer_spn (v st : Nat) : (s.answer v st).spn = s.spn := rfl
@[simp] theorem answer_clu (v st : Nat) : (s.answer v st).clu = s.clu := rfl
@[simp] theorem answer_conv (v st : Nat) : (s.answer v st).conv = s.conv := rfl
@[simp] theorem answer_rgn (v st : Nat) : (s.answer v st).rgn = s.rgn := rfl
@[simp] theorem answer_mains (v st : Nat) : (s.answer v st).mains = s.mains := rfl
@[simp] theorem answer_chan (v st : Nat) : (s.answer v st).chan = s.chan := rfl
@[simp] theorem answer_str (v st : Nat) : (s.answer v st).str = s.str := rfl
@[simp] theorem answer_gapStore (v st : Nat) : (s.answer v st).gapStore = s.gapStore := rfl
@[simp] theorem answer_gge (v st : Nat) : (s.answer v st).gge = s.gge := rfl
@[simp] theorem answer_cap (v st : Nat) : (s.answer v st).cap = s.cap := rfl
@[simp] theorem answer_lnk (v st : Nat) : (s.answer v st).lnk = s.lnk := rfl
@[simp] theorem answer_seg (v st : Nat) : (s.answer v st).seg = s.seg := rfl
@[simp] theorem answer_seenTrig (v st : Nat) : (s.answer v st).seenTrig = s.seenTrig := rfl
@[simp] theorem answer_stopReq (v st : Nat) : (s.answer v st).stopReq = s.stopReq := rfl
@[simp] theorem answer_lane (v st : Nat) : (s.answer v st).lane = s.lane := rfl
@[simp] theorem answer_ring (v st : Nat) : (s.answer v st).ring = s.ring := rfl
@[simp] theorem answer_tls (v st : Nat) : (s.answer v st).tls = s.tls := rfl
@[simp] theorem answer_hs (v st : Nat) : (s.answer v st).hs = s.hs := rfl
@[simp] theorem answer_pwr (v st : Nat) : (s.answer v st).pwr = s.pwr := rfl

/-! `pass` writes lt and always alone. -/
@[simp] theorem pass_pending (u : Nat) : (s.pass u).pending = s.pending := rfl
@[simp] theorem pass_free (u : Nat) : (s.pass u).free = s.free := rfl
@[simp] theorem pass_regs (u : Nat) : (s.pass u).regs = s.regs := rfl
@[simp] theorem pass_act (u : Nat) : (s.pass u).act = s.act := rfl
@[simp] theorem pass_held (u : Nat) : (s.pass u).held = s.held := rfl
@[simp] theorem pass_latch (u : Nat) : (s.pass u).latch = s.latch := rfl
@[simp] theorem pass_mem (u : Nat) : (s.pass u).mem = s.mem := rfl
@[simp] theorem pass_out (u : Nat) : (s.pass u).out = s.out := rfl
@[simp] theorem pass_bus (u : Nat) : (s.pass u).bus = s.bus := rfl
@[simp] theorem pass_snap (u : Nat) : (s.pass u).snap = s.snap := rfl
@[simp] theorem pass_dlk (u : Nat) : (s.pass u).dlk = s.dlk := rfl
@[simp] theorem pass_flt (u : Nat) : (s.pass u).flt = s.flt := rfl
@[simp] theorem pass_spn (u : Nat) : (s.pass u).spn = s.spn := rfl
@[simp] theorem pass_clu (u : Nat) : (s.pass u).clu = s.clu := rfl
@[simp] theorem pass_conv (u : Nat) : (s.pass u).conv = s.conv := rfl
@[simp] theorem pass_rgn (u : Nat) : (s.pass u).rgn = s.rgn := rfl
@[simp] theorem pass_mains (u : Nat) : (s.pass u).mains = s.mains := rfl
@[simp] theorem pass_chan (u : Nat) : (s.pass u).chan = s.chan := rfl
@[simp] theorem pass_str (u : Nat) : (s.pass u).str = s.str := rfl
@[simp] theorem pass_gapStore (u : Nat) : (s.pass u).gapStore = s.gapStore := rfl
@[simp] theorem pass_gge (u : Nat) : (s.pass u).gge = s.gge := rfl
@[simp] theorem pass_cap (u : Nat) : (s.pass u).cap = s.cap := rfl
@[simp] theorem pass_lnk (u : Nat) : (s.pass u).lnk = s.lnk := rfl
@[simp] theorem pass_seg (u : Nat) : (s.pass u).seg = s.seg := rfl
@[simp] theorem pass_seenTrig (u : Nat) : (s.pass u).seenTrig = s.seenTrig := rfl
@[simp] theorem pass_stopReq (u : Nat) : (s.pass u).stopReq = s.stopReq := rfl
@[simp] theorem pass_lane (u : Nat) : (s.pass u).lane = s.lane := rfl
@[simp] theorem pass_ring (u : Nat) : (s.pass u).ring = s.ring := rfl
@[simp] theorem pass_tls (u : Nat) : (s.pass u).tls = s.tls := rfl
@[simp] theorem pass_hs (u : Nat) : (s.pass u).hs = s.hs := rfl
@[simp] theorem pass_pwr (u : Nat) : (s.pass u).pwr = s.pwr := rfl

/-! `setDl` writes dlk alone. -/
@[simp] theorem setDl_pending (d : Nat) (x : DieLink) : (s.setDl d x).pending = s.pending := rfl
@[simp] theorem setDl_lt (d : Nat) (x : DieLink) : (s.setDl d x).lt = s.lt := rfl
@[simp] theorem setDl_always (d : Nat) (x : DieLink) : (s.setDl d x).always = s.always := rfl
@[simp] theorem setDl_free (d : Nat) (x : DieLink) : (s.setDl d x).free = s.free := rfl
@[simp] theorem setDl_regs (d : Nat) (x : DieLink) : (s.setDl d x).regs = s.regs := rfl
@[simp] theorem setDl_act (d : Nat) (x : DieLink) : (s.setDl d x).act = s.act := rfl
@[simp] theorem setDl_held (d : Nat) (x : DieLink) : (s.setDl d x).held = s.held := rfl
@[simp] theorem setDl_latch (d : Nat) (x : DieLink) : (s.setDl d x).latch = s.latch := rfl
@[simp] theorem setDl_mem (d : Nat) (x : DieLink) : (s.setDl d x).mem = s.mem := rfl
@[simp] theorem setDl_out (d : Nat) (x : DieLink) : (s.setDl d x).out = s.out := rfl
@[simp] theorem setDl_bus (d : Nat) (x : DieLink) : (s.setDl d x).bus = s.bus := rfl
@[simp] theorem setDl_snap (d : Nat) (x : DieLink) : (s.setDl d x).snap = s.snap := rfl
@[simp] theorem setDl_flt (d : Nat) (x : DieLink) : (s.setDl d x).flt = s.flt := rfl
@[simp] theorem setDl_spn (d : Nat) (x : DieLink) : (s.setDl d x).spn = s.spn := rfl
@[simp] theorem setDl_clu (d : Nat) (x : DieLink) : (s.setDl d x).clu = s.clu := rfl
@[simp] theorem setDl_conv (d : Nat) (x : DieLink) : (s.setDl d x).conv = s.conv := rfl
@[simp] theorem setDl_rgn (d : Nat) (x : DieLink) : (s.setDl d x).rgn = s.rgn := rfl
@[simp] theorem setDl_mains (d : Nat) (x : DieLink) : (s.setDl d x).mains = s.mains := rfl
@[simp] theorem setDl_chan (d : Nat) (x : DieLink) : (s.setDl d x).chan = s.chan := rfl
@[simp] theorem setDl_str (d : Nat) (x : DieLink) : (s.setDl d x).str = s.str := rfl
@[simp] theorem setDl_gapStore (d : Nat) (x : DieLink) : (s.setDl d x).gapStore = s.gapStore := rfl
@[simp] theorem setDl_gge (d : Nat) (x : DieLink) : (s.setDl d x).gge = s.gge := rfl
@[simp] theorem setDl_cap (d : Nat) (x : DieLink) : (s.setDl d x).cap = s.cap := rfl
@[simp] theorem setDl_lnk (d : Nat) (x : DieLink) : (s.setDl d x).lnk = s.lnk := rfl
@[simp] theorem setDl_seg (d : Nat) (x : DieLink) : (s.setDl d x).seg = s.seg := rfl
@[simp] theorem setDl_seenTrig (d : Nat) (x : DieLink) : (s.setDl d x).seenTrig = s.seenTrig := rfl
@[simp] theorem setDl_stopReq (d : Nat) (x : DieLink) : (s.setDl d x).stopReq = s.stopReq := rfl
@[simp] theorem setDl_lane (d : Nat) (x : DieLink) : (s.setDl d x).lane = s.lane := rfl
@[simp] theorem setDl_ring (d : Nat) (x : DieLink) : (s.setDl d x).ring = s.ring := rfl
@[simp] theorem setDl_tls (d : Nat) (x : DieLink) : (s.setDl d x).tls = s.tls := rfl
@[simp] theorem setDl_hs (d : Nat) (x : DieLink) : (s.setDl d x).hs = s.hs := rfl
@[simp] theorem setDl_pwr (d : Nat) (x : DieLink) : (s.setDl d x).pwr = s.pwr := rfl

/-! `setTrk` writes spn alone. -/
@[simp] theorem setTrk_pending (d : Nat) (x : Tracker) : (s.setTrk d x).pending = s.pending := rfl
@[simp] theorem setTrk_lt (d : Nat) (x : Tracker) : (s.setTrk d x).lt = s.lt := rfl
@[simp] theorem setTrk_always (d : Nat) (x : Tracker) : (s.setTrk d x).always = s.always := rfl
@[simp] theorem setTrk_free (d : Nat) (x : Tracker) : (s.setTrk d x).free = s.free := rfl
@[simp] theorem setTrk_regs (d : Nat) (x : Tracker) : (s.setTrk d x).regs = s.regs := rfl
@[simp] theorem setTrk_act (d : Nat) (x : Tracker) : (s.setTrk d x).act = s.act := rfl
@[simp] theorem setTrk_held (d : Nat) (x : Tracker) : (s.setTrk d x).held = s.held := rfl
@[simp] theorem setTrk_latch (d : Nat) (x : Tracker) : (s.setTrk d x).latch = s.latch := rfl
@[simp] theorem setTrk_mem (d : Nat) (x : Tracker) : (s.setTrk d x).mem = s.mem := rfl
@[simp] theorem setTrk_out (d : Nat) (x : Tracker) : (s.setTrk d x).out = s.out := rfl
@[simp] theorem setTrk_bus (d : Nat) (x : Tracker) : (s.setTrk d x).bus = s.bus := rfl
@[simp] theorem setTrk_snap (d : Nat) (x : Tracker) : (s.setTrk d x).snap = s.snap := rfl
@[simp] theorem setTrk_dlk (d : Nat) (x : Tracker) : (s.setTrk d x).dlk = s.dlk := rfl
@[simp] theorem setTrk_flt (d : Nat) (x : Tracker) : (s.setTrk d x).flt = s.flt := rfl
@[simp] theorem setTrk_clu (d : Nat) (x : Tracker) : (s.setTrk d x).clu = s.clu := rfl
@[simp] theorem setTrk_conv (d : Nat) (x : Tracker) : (s.setTrk d x).conv = s.conv := rfl
@[simp] theorem setTrk_rgn (d : Nat) (x : Tracker) : (s.setTrk d x).rgn = s.rgn := rfl
@[simp] theorem setTrk_mains (d : Nat) (x : Tracker) : (s.setTrk d x).mains = s.mains := rfl
@[simp] theorem setTrk_chan (d : Nat) (x : Tracker) : (s.setTrk d x).chan = s.chan := rfl
@[simp] theorem setTrk_str (d : Nat) (x : Tracker) : (s.setTrk d x).str = s.str := rfl
@[simp] theorem setTrk_gapStore (d : Nat) (x : Tracker) : (s.setTrk d x).gapStore = s.gapStore := rfl
@[simp] theorem setTrk_gge (d : Nat) (x : Tracker) : (s.setTrk d x).gge = s.gge := rfl
@[simp] theorem setTrk_cap (d : Nat) (x : Tracker) : (s.setTrk d x).cap = s.cap := rfl
@[simp] theorem setTrk_lnk (d : Nat) (x : Tracker) : (s.setTrk d x).lnk = s.lnk := rfl
@[simp] theorem setTrk_seg (d : Nat) (x : Tracker) : (s.setTrk d x).seg = s.seg := rfl
@[simp] theorem setTrk_seenTrig (d : Nat) (x : Tracker) : (s.setTrk d x).seenTrig = s.seenTrig := rfl
@[simp] theorem setTrk_stopReq (d : Nat) (x : Tracker) : (s.setTrk d x).stopReq = s.stopReq := rfl
@[simp] theorem setTrk_lane (d : Nat) (x : Tracker) : (s.setTrk d x).lane = s.lane := rfl
@[simp] theorem setTrk_ring (d : Nat) (x : Tracker) : (s.setTrk d x).ring = s.ring := rfl
@[simp] theorem setTrk_tls (d : Nat) (x : Tracker) : (s.setTrk d x).tls = s.tls := rfl
@[simp] theorem setTrk_hs (d : Nat) (x : Tracker) : (s.setTrk d x).hs = s.hs := rfl
@[simp] theorem setTrk_pwr (d : Nat) (x : Tracker) : (s.setTrk d x).pwr = s.pwr := rfl

/-! `setCl` writes clu alone. -/
@[simp] theorem setCl_pending (d : Nat) (x : CluState) : (s.setCl d x).pending = s.pending := rfl
@[simp] theorem setCl_lt (d : Nat) (x : CluState) : (s.setCl d x).lt = s.lt := rfl
@[simp] theorem setCl_always (d : Nat) (x : CluState) : (s.setCl d x).always = s.always := rfl
@[simp] theorem setCl_free (d : Nat) (x : CluState) : (s.setCl d x).free = s.free := rfl
@[simp] theorem setCl_regs (d : Nat) (x : CluState) : (s.setCl d x).regs = s.regs := rfl
@[simp] theorem setCl_act (d : Nat) (x : CluState) : (s.setCl d x).act = s.act := rfl
@[simp] theorem setCl_held (d : Nat) (x : CluState) : (s.setCl d x).held = s.held := rfl
@[simp] theorem setCl_latch (d : Nat) (x : CluState) : (s.setCl d x).latch = s.latch := rfl
@[simp] theorem setCl_mem (d : Nat) (x : CluState) : (s.setCl d x).mem = s.mem := rfl
@[simp] theorem setCl_out (d : Nat) (x : CluState) : (s.setCl d x).out = s.out := rfl
@[simp] theorem setCl_bus (d : Nat) (x : CluState) : (s.setCl d x).bus = s.bus := rfl
@[simp] theorem setCl_snap (d : Nat) (x : CluState) : (s.setCl d x).snap = s.snap := rfl
@[simp] theorem setCl_dlk (d : Nat) (x : CluState) : (s.setCl d x).dlk = s.dlk := rfl
@[simp] theorem setCl_flt (d : Nat) (x : CluState) : (s.setCl d x).flt = s.flt := rfl
@[simp] theorem setCl_spn (d : Nat) (x : CluState) : (s.setCl d x).spn = s.spn := rfl
@[simp] theorem setCl_conv (d : Nat) (x : CluState) : (s.setCl d x).conv = s.conv := rfl
@[simp] theorem setCl_rgn (d : Nat) (x : CluState) : (s.setCl d x).rgn = s.rgn := rfl
@[simp] theorem setCl_mains (d : Nat) (x : CluState) : (s.setCl d x).mains = s.mains := rfl
@[simp] theorem setCl_chan (d : Nat) (x : CluState) : (s.setCl d x).chan = s.chan := rfl
@[simp] theorem setCl_str (d : Nat) (x : CluState) : (s.setCl d x).str = s.str := rfl
@[simp] theorem setCl_gapStore (d : Nat) (x : CluState) : (s.setCl d x).gapStore = s.gapStore := rfl
@[simp] theorem setCl_gge (d : Nat) (x : CluState) : (s.setCl d x).gge = s.gge := rfl
@[simp] theorem setCl_cap (d : Nat) (x : CluState) : (s.setCl d x).cap = s.cap := rfl
@[simp] theorem setCl_lnk (d : Nat) (x : CluState) : (s.setCl d x).lnk = s.lnk := rfl
@[simp] theorem setCl_seg (d : Nat) (x : CluState) : (s.setCl d x).seg = s.seg := rfl
@[simp] theorem setCl_seenTrig (d : Nat) (x : CluState) : (s.setCl d x).seenTrig = s.seenTrig := rfl
@[simp] theorem setCl_stopReq (d : Nat) (x : CluState) : (s.setCl d x).stopReq = s.stopReq := rfl
@[simp] theorem setCl_lane (d : Nat) (x : CluState) : (s.setCl d x).lane = s.lane := rfl
@[simp] theorem setCl_ring (d : Nat) (x : CluState) : (s.setCl d x).ring = s.ring := rfl
@[simp] theorem setCl_tls (d : Nat) (x : CluState) : (s.setCl d x).tls = s.tls := rfl
@[simp] theorem setCl_hs (d : Nat) (x : CluState) : (s.setCl d x).hs = s.hs := rfl
@[simp] theorem setCl_pwr (d : Nat) (x : CluState) : (s.setCl d x).pwr = s.pwr := rfl

/-! `setCv` writes conv alone. -/
@[simp] theorem setCv_pending (d : Nat) (x : ConvState) : (s.setCv d x).pending = s.pending := rfl
@[simp] theorem setCv_lt (d : Nat) (x : ConvState) : (s.setCv d x).lt = s.lt := rfl
@[simp] theorem setCv_always (d : Nat) (x : ConvState) : (s.setCv d x).always = s.always := rfl
@[simp] theorem setCv_free (d : Nat) (x : ConvState) : (s.setCv d x).free = s.free := rfl
@[simp] theorem setCv_regs (d : Nat) (x : ConvState) : (s.setCv d x).regs = s.regs := rfl
@[simp] theorem setCv_act (d : Nat) (x : ConvState) : (s.setCv d x).act = s.act := rfl
@[simp] theorem setCv_held (d : Nat) (x : ConvState) : (s.setCv d x).held = s.held := rfl
@[simp] theorem setCv_latch (d : Nat) (x : ConvState) : (s.setCv d x).latch = s.latch := rfl
@[simp] theorem setCv_mem (d : Nat) (x : ConvState) : (s.setCv d x).mem = s.mem := rfl
@[simp] theorem setCv_out (d : Nat) (x : ConvState) : (s.setCv d x).out = s.out := rfl
@[simp] theorem setCv_bus (d : Nat) (x : ConvState) : (s.setCv d x).bus = s.bus := rfl
@[simp] theorem setCv_snap (d : Nat) (x : ConvState) : (s.setCv d x).snap = s.snap := rfl
@[simp] theorem setCv_dlk (d : Nat) (x : ConvState) : (s.setCv d x).dlk = s.dlk := rfl
@[simp] theorem setCv_flt (d : Nat) (x : ConvState) : (s.setCv d x).flt = s.flt := rfl
@[simp] theorem setCv_spn (d : Nat) (x : ConvState) : (s.setCv d x).spn = s.spn := rfl
@[simp] theorem setCv_clu (d : Nat) (x : ConvState) : (s.setCv d x).clu = s.clu := rfl
@[simp] theorem setCv_rgn (d : Nat) (x : ConvState) : (s.setCv d x).rgn = s.rgn := rfl
@[simp] theorem setCv_mains (d : Nat) (x : ConvState) : (s.setCv d x).mains = s.mains := rfl
@[simp] theorem setCv_chan (d : Nat) (x : ConvState) : (s.setCv d x).chan = s.chan := rfl
@[simp] theorem setCv_str (d : Nat) (x : ConvState) : (s.setCv d x).str = s.str := rfl
@[simp] theorem setCv_gapStore (d : Nat) (x : ConvState) : (s.setCv d x).gapStore = s.gapStore := rfl
@[simp] theorem setCv_gge (d : Nat) (x : ConvState) : (s.setCv d x).gge = s.gge := rfl
@[simp] theorem setCv_cap (d : Nat) (x : ConvState) : (s.setCv d x).cap = s.cap := rfl
@[simp] theorem setCv_lnk (d : Nat) (x : ConvState) : (s.setCv d x).lnk = s.lnk := rfl
@[simp] theorem setCv_seg (d : Nat) (x : ConvState) : (s.setCv d x).seg = s.seg := rfl
@[simp] theorem setCv_seenTrig (d : Nat) (x : ConvState) : (s.setCv d x).seenTrig = s.seenTrig := rfl
@[simp] theorem setCv_stopReq (d : Nat) (x : ConvState) : (s.setCv d x).stopReq = s.stopReq := rfl
@[simp] theorem setCv_lane (d : Nat) (x : ConvState) : (s.setCv d x).lane = s.lane := rfl
@[simp] theorem setCv_ring (d : Nat) (x : ConvState) : (s.setCv d x).ring = s.ring := rfl
@[simp] theorem setCv_tls (d : Nat) (x : ConvState) : (s.setCv d x).tls = s.tls := rfl
@[simp] theorem setCv_hs (d : Nat) (x : ConvState) : (s.setCv d x).hs = s.hs := rfl
@[simp] theorem setCv_pwr (d : Nat) (x : ConvState) : (s.setCv d x).pwr = s.pwr := rfl

/-! `setRg` writes rgn alone. -/
@[simp] theorem setRg_pending (d : Nat) (x : RegionState) : (s.setRg d x).pending = s.pending := rfl
@[simp] theorem setRg_lt (d : Nat) (x : RegionState) : (s.setRg d x).lt = s.lt := rfl
@[simp] theorem setRg_always (d : Nat) (x : RegionState) : (s.setRg d x).always = s.always := rfl
@[simp] theorem setRg_free (d : Nat) (x : RegionState) : (s.setRg d x).free = s.free := rfl
@[simp] theorem setRg_regs (d : Nat) (x : RegionState) : (s.setRg d x).regs = s.regs := rfl
@[simp] theorem setRg_act (d : Nat) (x : RegionState) : (s.setRg d x).act = s.act := rfl
@[simp] theorem setRg_held (d : Nat) (x : RegionState) : (s.setRg d x).held = s.held := rfl
@[simp] theorem setRg_latch (d : Nat) (x : RegionState) : (s.setRg d x).latch = s.latch := rfl
@[simp] theorem setRg_mem (d : Nat) (x : RegionState) : (s.setRg d x).mem = s.mem := rfl
@[simp] theorem setRg_out (d : Nat) (x : RegionState) : (s.setRg d x).out = s.out := rfl
@[simp] theorem setRg_bus (d : Nat) (x : RegionState) : (s.setRg d x).bus = s.bus := rfl
@[simp] theorem setRg_snap (d : Nat) (x : RegionState) : (s.setRg d x).snap = s.snap := rfl
@[simp] theorem setRg_dlk (d : Nat) (x : RegionState) : (s.setRg d x).dlk = s.dlk := rfl
@[simp] theorem setRg_flt (d : Nat) (x : RegionState) : (s.setRg d x).flt = s.flt := rfl
@[simp] theorem setRg_spn (d : Nat) (x : RegionState) : (s.setRg d x).spn = s.spn := rfl
@[simp] theorem setRg_clu (d : Nat) (x : RegionState) : (s.setRg d x).clu = s.clu := rfl
@[simp] theorem setRg_conv (d : Nat) (x : RegionState) : (s.setRg d x).conv = s.conv := rfl
@[simp] theorem setRg_mains (d : Nat) (x : RegionState) : (s.setRg d x).mains = s.mains := rfl
@[simp] theorem setRg_chan (d : Nat) (x : RegionState) : (s.setRg d x).chan = s.chan := rfl
@[simp] theorem setRg_str (d : Nat) (x : RegionState) : (s.setRg d x).str = s.str := rfl
@[simp] theorem setRg_gapStore (d : Nat) (x : RegionState) : (s.setRg d x).gapStore = s.gapStore := rfl
@[simp] theorem setRg_gge (d : Nat) (x : RegionState) : (s.setRg d x).gge = s.gge := rfl
@[simp] theorem setRg_cap (d : Nat) (x : RegionState) : (s.setRg d x).cap = s.cap := rfl
@[simp] theorem setRg_lnk (d : Nat) (x : RegionState) : (s.setRg d x).lnk = s.lnk := rfl
@[simp] theorem setRg_seg (d : Nat) (x : RegionState) : (s.setRg d x).seg = s.seg := rfl
@[simp] theorem setRg_seenTrig (d : Nat) (x : RegionState) : (s.setRg d x).seenTrig = s.seenTrig := rfl
@[simp] theorem setRg_stopReq (d : Nat) (x : RegionState) : (s.setRg d x).stopReq = s.stopReq := rfl
@[simp] theorem setRg_lane (d : Nat) (x : RegionState) : (s.setRg d x).lane = s.lane := rfl
@[simp] theorem setRg_ring (d : Nat) (x : RegionState) : (s.setRg d x).ring = s.ring := rfl
@[simp] theorem setRg_tls (d : Nat) (x : RegionState) : (s.setRg d x).tls = s.tls := rfl
@[simp] theorem setRg_hs (d : Nat) (x : RegionState) : (s.setRg d x).hs = s.hs := rfl
@[simp] theorem setRg_pwr (d : Nat) (x : RegionState) : (s.setRg d x).pwr = s.pwr := rfl

/-! `setCh` writes chan alone. -/
@[simp] theorem setCh_pending (d : Nat) (x : ChanState) : (s.setCh d x).pending = s.pending := rfl
@[simp] theorem setCh_lt (d : Nat) (x : ChanState) : (s.setCh d x).lt = s.lt := rfl
@[simp] theorem setCh_always (d : Nat) (x : ChanState) : (s.setCh d x).always = s.always := rfl
@[simp] theorem setCh_free (d : Nat) (x : ChanState) : (s.setCh d x).free = s.free := rfl
@[simp] theorem setCh_regs (d : Nat) (x : ChanState) : (s.setCh d x).regs = s.regs := rfl
@[simp] theorem setCh_act (d : Nat) (x : ChanState) : (s.setCh d x).act = s.act := rfl
@[simp] theorem setCh_held (d : Nat) (x : ChanState) : (s.setCh d x).held = s.held := rfl
@[simp] theorem setCh_latch (d : Nat) (x : ChanState) : (s.setCh d x).latch = s.latch := rfl
@[simp] theorem setCh_mem (d : Nat) (x : ChanState) : (s.setCh d x).mem = s.mem := rfl
@[simp] theorem setCh_out (d : Nat) (x : ChanState) : (s.setCh d x).out = s.out := rfl
@[simp] theorem setCh_bus (d : Nat) (x : ChanState) : (s.setCh d x).bus = s.bus := rfl
@[simp] theorem setCh_snap (d : Nat) (x : ChanState) : (s.setCh d x).snap = s.snap := rfl
@[simp] theorem setCh_dlk (d : Nat) (x : ChanState) : (s.setCh d x).dlk = s.dlk := rfl
@[simp] theorem setCh_flt (d : Nat) (x : ChanState) : (s.setCh d x).flt = s.flt := rfl
@[simp] theorem setCh_spn (d : Nat) (x : ChanState) : (s.setCh d x).spn = s.spn := rfl
@[simp] theorem setCh_clu (d : Nat) (x : ChanState) : (s.setCh d x).clu = s.clu := rfl
@[simp] theorem setCh_conv (d : Nat) (x : ChanState) : (s.setCh d x).conv = s.conv := rfl
@[simp] theorem setCh_rgn (d : Nat) (x : ChanState) : (s.setCh d x).rgn = s.rgn := rfl
@[simp] theorem setCh_mains (d : Nat) (x : ChanState) : (s.setCh d x).mains = s.mains := rfl
@[simp] theorem setCh_str (d : Nat) (x : ChanState) : (s.setCh d x).str = s.str := rfl
@[simp] theorem setCh_gapStore (d : Nat) (x : ChanState) : (s.setCh d x).gapStore = s.gapStore := rfl
@[simp] theorem setCh_gge (d : Nat) (x : ChanState) : (s.setCh d x).gge = s.gge := rfl
@[simp] theorem setCh_cap (d : Nat) (x : ChanState) : (s.setCh d x).cap = s.cap := rfl
@[simp] theorem setCh_lnk (d : Nat) (x : ChanState) : (s.setCh d x).lnk = s.lnk := rfl
@[simp] theorem setCh_seg (d : Nat) (x : ChanState) : (s.setCh d x).seg = s.seg := rfl
@[simp] theorem setCh_seenTrig (d : Nat) (x : ChanState) : (s.setCh d x).seenTrig = s.seenTrig := rfl
@[simp] theorem setCh_stopReq (d : Nat) (x : ChanState) : (s.setCh d x).stopReq = s.stopReq := rfl
@[simp] theorem setCh_lane (d : Nat) (x : ChanState) : (s.setCh d x).lane = s.lane := rfl
@[simp] theorem setCh_ring (d : Nat) (x : ChanState) : (s.setCh d x).ring = s.ring := rfl
@[simp] theorem setCh_tls (d : Nat) (x : ChanState) : (s.setCh d x).tls = s.tls := rfl
@[simp] theorem setCh_hs (d : Nat) (x : ChanState) : (s.setCh d x).hs = s.hs := rfl
@[simp] theorem setCh_pwr (d : Nat) (x : ChanState) : (s.setCh d x).pwr = s.pwr := rfl

/-! `setStr` writes str alone. -/
@[simp] theorem setStr_pending (d : Nat) (x : StrState) : (s.setStr d x).pending = s.pending := rfl
@[simp] theorem setStr_lt (d : Nat) (x : StrState) : (s.setStr d x).lt = s.lt := rfl
@[simp] theorem setStr_always (d : Nat) (x : StrState) : (s.setStr d x).always = s.always := rfl
@[simp] theorem setStr_free (d : Nat) (x : StrState) : (s.setStr d x).free = s.free := rfl
@[simp] theorem setStr_regs (d : Nat) (x : StrState) : (s.setStr d x).regs = s.regs := rfl
@[simp] theorem setStr_act (d : Nat) (x : StrState) : (s.setStr d x).act = s.act := rfl
@[simp] theorem setStr_held (d : Nat) (x : StrState) : (s.setStr d x).held = s.held := rfl
@[simp] theorem setStr_latch (d : Nat) (x : StrState) : (s.setStr d x).latch = s.latch := rfl
@[simp] theorem setStr_mem (d : Nat) (x : StrState) : (s.setStr d x).mem = s.mem := rfl
@[simp] theorem setStr_out (d : Nat) (x : StrState) : (s.setStr d x).out = s.out := rfl
@[simp] theorem setStr_bus (d : Nat) (x : StrState) : (s.setStr d x).bus = s.bus := rfl
@[simp] theorem setStr_snap (d : Nat) (x : StrState) : (s.setStr d x).snap = s.snap := rfl
@[simp] theorem setStr_dlk (d : Nat) (x : StrState) : (s.setStr d x).dlk = s.dlk := rfl
@[simp] theorem setStr_flt (d : Nat) (x : StrState) : (s.setStr d x).flt = s.flt := rfl
@[simp] theorem setStr_spn (d : Nat) (x : StrState) : (s.setStr d x).spn = s.spn := rfl
@[simp] theorem setStr_clu (d : Nat) (x : StrState) : (s.setStr d x).clu = s.clu := rfl
@[simp] theorem setStr_conv (d : Nat) (x : StrState) : (s.setStr d x).conv = s.conv := rfl
@[simp] theorem setStr_rgn (d : Nat) (x : StrState) : (s.setStr d x).rgn = s.rgn := rfl
@[simp] theorem setStr_mains (d : Nat) (x : StrState) : (s.setStr d x).mains = s.mains := rfl
@[simp] theorem setStr_chan (d : Nat) (x : StrState) : (s.setStr d x).chan = s.chan := rfl
@[simp] theorem setStr_gapStore (d : Nat) (x : StrState) : (s.setStr d x).gapStore = s.gapStore := rfl
@[simp] theorem setStr_gge (d : Nat) (x : StrState) : (s.setStr d x).gge = s.gge := rfl
@[simp] theorem setStr_cap (d : Nat) (x : StrState) : (s.setStr d x).cap = s.cap := rfl
@[simp] theorem setStr_lnk (d : Nat) (x : StrState) : (s.setStr d x).lnk = s.lnk := rfl
@[simp] theorem setStr_seg (d : Nat) (x : StrState) : (s.setStr d x).seg = s.seg := rfl
@[simp] theorem setStr_seenTrig (d : Nat) (x : StrState) : (s.setStr d x).seenTrig = s.seenTrig := rfl
@[simp] theorem setStr_stopReq (d : Nat) (x : StrState) : (s.setStr d x).stopReq = s.stopReq := rfl
@[simp] theorem setStr_lane (d : Nat) (x : StrState) : (s.setStr d x).lane = s.lane := rfl
@[simp] theorem setStr_ring (d : Nat) (x : StrState) : (s.setStr d x).ring = s.ring := rfl
@[simp] theorem setStr_tls (d : Nat) (x : StrState) : (s.setStr d x).tls = s.tls := rfl
@[simp] theorem setStr_hs (d : Nat) (x : StrState) : (s.setStr d x).hs = s.hs := rfl
@[simp] theorem setStr_pwr (d : Nat) (x : StrState) : (s.setStr d x).pwr = s.pwr := rfl

/-! `setLk` writes lnk alone. -/
@[simp] theorem setLk_pending (d : Nat) (x : LinkState) : (s.setLk d x).pending = s.pending := rfl
@[simp] theorem setLk_lt (d : Nat) (x : LinkState) : (s.setLk d x).lt = s.lt := rfl
@[simp] theorem setLk_always (d : Nat) (x : LinkState) : (s.setLk d x).always = s.always := rfl
@[simp] theorem setLk_free (d : Nat) (x : LinkState) : (s.setLk d x).free = s.free := rfl
@[simp] theorem setLk_regs (d : Nat) (x : LinkState) : (s.setLk d x).regs = s.regs := rfl
@[simp] theorem setLk_act (d : Nat) (x : LinkState) : (s.setLk d x).act = s.act := rfl
@[simp] theorem setLk_held (d : Nat) (x : LinkState) : (s.setLk d x).held = s.held := rfl
@[simp] theorem setLk_latch (d : Nat) (x : LinkState) : (s.setLk d x).latch = s.latch := rfl
@[simp] theorem setLk_mem (d : Nat) (x : LinkState) : (s.setLk d x).mem = s.mem := rfl
@[simp] theorem setLk_out (d : Nat) (x : LinkState) : (s.setLk d x).out = s.out := rfl
@[simp] theorem setLk_bus (d : Nat) (x : LinkState) : (s.setLk d x).bus = s.bus := rfl
@[simp] theorem setLk_snap (d : Nat) (x : LinkState) : (s.setLk d x).snap = s.snap := rfl
@[simp] theorem setLk_dlk (d : Nat) (x : LinkState) : (s.setLk d x).dlk = s.dlk := rfl
@[simp] theorem setLk_flt (d : Nat) (x : LinkState) : (s.setLk d x).flt = s.flt := rfl
@[simp] theorem setLk_spn (d : Nat) (x : LinkState) : (s.setLk d x).spn = s.spn := rfl
@[simp] theorem setLk_clu (d : Nat) (x : LinkState) : (s.setLk d x).clu = s.clu := rfl
@[simp] theorem setLk_conv (d : Nat) (x : LinkState) : (s.setLk d x).conv = s.conv := rfl
@[simp] theorem setLk_rgn (d : Nat) (x : LinkState) : (s.setLk d x).rgn = s.rgn := rfl
@[simp] theorem setLk_mains (d : Nat) (x : LinkState) : (s.setLk d x).mains = s.mains := rfl
@[simp] theorem setLk_chan (d : Nat) (x : LinkState) : (s.setLk d x).chan = s.chan := rfl
@[simp] theorem setLk_str (d : Nat) (x : LinkState) : (s.setLk d x).str = s.str := rfl
@[simp] theorem setLk_gapStore (d : Nat) (x : LinkState) : (s.setLk d x).gapStore = s.gapStore := rfl
@[simp] theorem setLk_gge (d : Nat) (x : LinkState) : (s.setLk d x).gge = s.gge := rfl
@[simp] theorem setLk_cap (d : Nat) (x : LinkState) : (s.setLk d x).cap = s.cap := rfl
@[simp] theorem setLk_seg (d : Nat) (x : LinkState) : (s.setLk d x).seg = s.seg := rfl
@[simp] theorem setLk_seenTrig (d : Nat) (x : LinkState) : (s.setLk d x).seenTrig = s.seenTrig := rfl
@[simp] theorem setLk_stopReq (d : Nat) (x : LinkState) : (s.setLk d x).stopReq = s.stopReq := rfl
@[simp] theorem setLk_lane (d : Nat) (x : LinkState) : (s.setLk d x).lane = s.lane := rfl
@[simp] theorem setLk_ring (d : Nat) (x : LinkState) : (s.setLk d x).ring = s.ring := rfl
@[simp] theorem setLk_tls (d : Nat) (x : LinkState) : (s.setLk d x).tls = s.tls := rfl
@[simp] theorem setLk_hs (d : Nat) (x : LinkState) : (s.setLk d x).hs = s.hs := rfl
@[simp] theorem setLk_pwr (d : Nat) (x : LinkState) : (s.setLk d x).pwr = s.pwr := rfl

/-! `setCp` writes cap alone. -/
@[simp] theorem setCp_pending (d : Nat) (x : CapState) : (s.setCp d x).pending = s.pending := rfl
@[simp] theorem setCp_lt (d : Nat) (x : CapState) : (s.setCp d x).lt = s.lt := rfl
@[simp] theorem setCp_always (d : Nat) (x : CapState) : (s.setCp d x).always = s.always := rfl
@[simp] theorem setCp_free (d : Nat) (x : CapState) : (s.setCp d x).free = s.free := rfl
@[simp] theorem setCp_regs (d : Nat) (x : CapState) : (s.setCp d x).regs = s.regs := rfl
@[simp] theorem setCp_act (d : Nat) (x : CapState) : (s.setCp d x).act = s.act := rfl
@[simp] theorem setCp_held (d : Nat) (x : CapState) : (s.setCp d x).held = s.held := rfl
@[simp] theorem setCp_latch (d : Nat) (x : CapState) : (s.setCp d x).latch = s.latch := rfl
@[simp] theorem setCp_mem (d : Nat) (x : CapState) : (s.setCp d x).mem = s.mem := rfl
@[simp] theorem setCp_out (d : Nat) (x : CapState) : (s.setCp d x).out = s.out := rfl
@[simp] theorem setCp_bus (d : Nat) (x : CapState) : (s.setCp d x).bus = s.bus := rfl
@[simp] theorem setCp_snap (d : Nat) (x : CapState) : (s.setCp d x).snap = s.snap := rfl
@[simp] theorem setCp_dlk (d : Nat) (x : CapState) : (s.setCp d x).dlk = s.dlk := rfl
@[simp] theorem setCp_flt (d : Nat) (x : CapState) : (s.setCp d x).flt = s.flt := rfl
@[simp] theorem setCp_spn (d : Nat) (x : CapState) : (s.setCp d x).spn = s.spn := rfl
@[simp] theorem setCp_clu (d : Nat) (x : CapState) : (s.setCp d x).clu = s.clu := rfl
@[simp] theorem setCp_conv (d : Nat) (x : CapState) : (s.setCp d x).conv = s.conv := rfl
@[simp] theorem setCp_rgn (d : Nat) (x : CapState) : (s.setCp d x).rgn = s.rgn := rfl
@[simp] theorem setCp_mains (d : Nat) (x : CapState) : (s.setCp d x).mains = s.mains := rfl
@[simp] theorem setCp_chan (d : Nat) (x : CapState) : (s.setCp d x).chan = s.chan := rfl
@[simp] theorem setCp_str (d : Nat) (x : CapState) : (s.setCp d x).str = s.str := rfl
@[simp] theorem setCp_gapStore (d : Nat) (x : CapState) : (s.setCp d x).gapStore = s.gapStore := rfl
@[simp] theorem setCp_gge (d : Nat) (x : CapState) : (s.setCp d x).gge = s.gge := rfl
@[simp] theorem setCp_lnk (d : Nat) (x : CapState) : (s.setCp d x).lnk = s.lnk := rfl
@[simp] theorem setCp_seg (d : Nat) (x : CapState) : (s.setCp d x).seg = s.seg := rfl
@[simp] theorem setCp_seenTrig (d : Nat) (x : CapState) : (s.setCp d x).seenTrig = s.seenTrig := rfl
@[simp] theorem setCp_stopReq (d : Nat) (x : CapState) : (s.setCp d x).stopReq = s.stopReq := rfl
@[simp] theorem setCp_lane (d : Nat) (x : CapState) : (s.setCp d x).lane = s.lane := rfl
@[simp] theorem setCp_ring (d : Nat) (x : CapState) : (s.setCp d x).ring = s.ring := rfl
@[simp] theorem setCp_tls (d : Nat) (x : CapState) : (s.setCp d x).tls = s.tls := rfl
@[simp] theorem setCp_hs (d : Nat) (x : CapState) : (s.setCp d x).hs = s.hs := rfl
@[simp] theorem setCp_pwr (d : Nat) (x : CapState) : (s.setCp d x).pwr = s.pwr := rfl

/-! `setLn` writes lane alone. -/
@[simp] theorem setLn_pending (d : Nat) (x : LaneState) : (s.setLn d x).pending = s.pending := rfl
@[simp] theorem setLn_lt (d : Nat) (x : LaneState) : (s.setLn d x).lt = s.lt := rfl
@[simp] theorem setLn_always (d : Nat) (x : LaneState) : (s.setLn d x).always = s.always := rfl
@[simp] theorem setLn_free (d : Nat) (x : LaneState) : (s.setLn d x).free = s.free := rfl
@[simp] theorem setLn_regs (d : Nat) (x : LaneState) : (s.setLn d x).regs = s.regs := rfl
@[simp] theorem setLn_act (d : Nat) (x : LaneState) : (s.setLn d x).act = s.act := rfl
@[simp] theorem setLn_held (d : Nat) (x : LaneState) : (s.setLn d x).held = s.held := rfl
@[simp] theorem setLn_latch (d : Nat) (x : LaneState) : (s.setLn d x).latch = s.latch := rfl
@[simp] theorem setLn_mem (d : Nat) (x : LaneState) : (s.setLn d x).mem = s.mem := rfl
@[simp] theorem setLn_out (d : Nat) (x : LaneState) : (s.setLn d x).out = s.out := rfl
@[simp] theorem setLn_bus (d : Nat) (x : LaneState) : (s.setLn d x).bus = s.bus := rfl
@[simp] theorem setLn_snap (d : Nat) (x : LaneState) : (s.setLn d x).snap = s.snap := rfl
@[simp] theorem setLn_dlk (d : Nat) (x : LaneState) : (s.setLn d x).dlk = s.dlk := rfl
@[simp] theorem setLn_flt (d : Nat) (x : LaneState) : (s.setLn d x).flt = s.flt := rfl
@[simp] theorem setLn_spn (d : Nat) (x : LaneState) : (s.setLn d x).spn = s.spn := rfl
@[simp] theorem setLn_clu (d : Nat) (x : LaneState) : (s.setLn d x).clu = s.clu := rfl
@[simp] theorem setLn_conv (d : Nat) (x : LaneState) : (s.setLn d x).conv = s.conv := rfl
@[simp] theorem setLn_rgn (d : Nat) (x : LaneState) : (s.setLn d x).rgn = s.rgn := rfl
@[simp] theorem setLn_mains (d : Nat) (x : LaneState) : (s.setLn d x).mains = s.mains := rfl
@[simp] theorem setLn_chan (d : Nat) (x : LaneState) : (s.setLn d x).chan = s.chan := rfl
@[simp] theorem setLn_str (d : Nat) (x : LaneState) : (s.setLn d x).str = s.str := rfl
@[simp] theorem setLn_gapStore (d : Nat) (x : LaneState) : (s.setLn d x).gapStore = s.gapStore := rfl
@[simp] theorem setLn_gge (d : Nat) (x : LaneState) : (s.setLn d x).gge = s.gge := rfl
@[simp] theorem setLn_cap (d : Nat) (x : LaneState) : (s.setLn d x).cap = s.cap := rfl
@[simp] theorem setLn_lnk (d : Nat) (x : LaneState) : (s.setLn d x).lnk = s.lnk := rfl
@[simp] theorem setLn_seg (d : Nat) (x : LaneState) : (s.setLn d x).seg = s.seg := rfl
@[simp] theorem setLn_seenTrig (d : Nat) (x : LaneState) : (s.setLn d x).seenTrig = s.seenTrig := rfl
@[simp] theorem setLn_stopReq (d : Nat) (x : LaneState) : (s.setLn d x).stopReq = s.stopReq := rfl
@[simp] theorem setLn_ring (d : Nat) (x : LaneState) : (s.setLn d x).ring = s.ring := rfl
@[simp] theorem setLn_tls (d : Nat) (x : LaneState) : (s.setLn d x).tls = s.tls := rfl
@[simp] theorem setLn_hs (d : Nat) (x : LaneState) : (s.setLn d x).hs = s.hs := rfl
@[simp] theorem setLn_pwr (d : Nat) (x : LaneState) : (s.setLn d x).pwr = s.pwr := rfl

/-! `setTls` writes tls alone. -/
@[simp] theorem setTls_pending (x : TlsState) : (s.setTls x).pending = s.pending := rfl
@[simp] theorem setTls_lt (x : TlsState) : (s.setTls x).lt = s.lt := rfl
@[simp] theorem setTls_always (x : TlsState) : (s.setTls x).always = s.always := rfl
@[simp] theorem setTls_free (x : TlsState) : (s.setTls x).free = s.free := rfl
@[simp] theorem setTls_regs (x : TlsState) : (s.setTls x).regs = s.regs := rfl
@[simp] theorem setTls_act (x : TlsState) : (s.setTls x).act = s.act := rfl
@[simp] theorem setTls_held (x : TlsState) : (s.setTls x).held = s.held := rfl
@[simp] theorem setTls_latch (x : TlsState) : (s.setTls x).latch = s.latch := rfl
@[simp] theorem setTls_mem (x : TlsState) : (s.setTls x).mem = s.mem := rfl
@[simp] theorem setTls_out (x : TlsState) : (s.setTls x).out = s.out := rfl
@[simp] theorem setTls_bus (x : TlsState) : (s.setTls x).bus = s.bus := rfl
@[simp] theorem setTls_snap (x : TlsState) : (s.setTls x).snap = s.snap := rfl
@[simp] theorem setTls_dlk (x : TlsState) : (s.setTls x).dlk = s.dlk := rfl
@[simp] theorem setTls_flt (x : TlsState) : (s.setTls x).flt = s.flt := rfl
@[simp] theorem setTls_spn (x : TlsState) : (s.setTls x).spn = s.spn := rfl
@[simp] theorem setTls_clu (x : TlsState) : (s.setTls x).clu = s.clu := rfl
@[simp] theorem setTls_conv (x : TlsState) : (s.setTls x).conv = s.conv := rfl
@[simp] theorem setTls_rgn (x : TlsState) : (s.setTls x).rgn = s.rgn := rfl
@[simp] theorem setTls_mains (x : TlsState) : (s.setTls x).mains = s.mains := rfl
@[simp] theorem setTls_chan (x : TlsState) : (s.setTls x).chan = s.chan := rfl
@[simp] theorem setTls_str (x : TlsState) : (s.setTls x).str = s.str := rfl
@[simp] theorem setTls_gapStore (x : TlsState) : (s.setTls x).gapStore = s.gapStore := rfl
@[simp] theorem setTls_gge (x : TlsState) : (s.setTls x).gge = s.gge := rfl
@[simp] theorem setTls_cap (x : TlsState) : (s.setTls x).cap = s.cap := rfl
@[simp] theorem setTls_lnk (x : TlsState) : (s.setTls x).lnk = s.lnk := rfl
@[simp] theorem setTls_seg (x : TlsState) : (s.setTls x).seg = s.seg := rfl
@[simp] theorem setTls_seenTrig (x : TlsState) : (s.setTls x).seenTrig = s.seenTrig := rfl
@[simp] theorem setTls_stopReq (x : TlsState) : (s.setTls x).stopReq = s.stopReq := rfl
@[simp] theorem setTls_lane (x : TlsState) : (s.setTls x).lane = s.lane := rfl
@[simp] theorem setTls_ring (x : TlsState) : (s.setTls x).ring = s.ring := rfl
@[simp] theorem setTls_hs (x : TlsState) : (s.setTls x).hs = s.hs := rfl
@[simp] theorem setTls_pwr (x : TlsState) : (s.setTls x).pwr = s.pwr := rfl

/-! `setHs` writes hs alone. -/
@[simp] theorem setHs_pending (x : HsState) : (s.setHs x).pending = s.pending := rfl
@[simp] theorem setHs_lt (x : HsState) : (s.setHs x).lt = s.lt := rfl
@[simp] theorem setHs_always (x : HsState) : (s.setHs x).always = s.always := rfl
@[simp] theorem setHs_free (x : HsState) : (s.setHs x).free = s.free := rfl
@[simp] theorem setHs_regs (x : HsState) : (s.setHs x).regs = s.regs := rfl
@[simp] theorem setHs_act (x : HsState) : (s.setHs x).act = s.act := rfl
@[simp] theorem setHs_held (x : HsState) : (s.setHs x).held = s.held := rfl
@[simp] theorem setHs_latch (x : HsState) : (s.setHs x).latch = s.latch := rfl
@[simp] theorem setHs_mem (x : HsState) : (s.setHs x).mem = s.mem := rfl
@[simp] theorem setHs_out (x : HsState) : (s.setHs x).out = s.out := rfl
@[simp] theorem setHs_bus (x : HsState) : (s.setHs x).bus = s.bus := rfl
@[simp] theorem setHs_snap (x : HsState) : (s.setHs x).snap = s.snap := rfl
@[simp] theorem setHs_dlk (x : HsState) : (s.setHs x).dlk = s.dlk := rfl
@[simp] theorem setHs_flt (x : HsState) : (s.setHs x).flt = s.flt := rfl
@[simp] theorem setHs_spn (x : HsState) : (s.setHs x).spn = s.spn := rfl
@[simp] theorem setHs_clu (x : HsState) : (s.setHs x).clu = s.clu := rfl
@[simp] theorem setHs_conv (x : HsState) : (s.setHs x).conv = s.conv := rfl
@[simp] theorem setHs_rgn (x : HsState) : (s.setHs x).rgn = s.rgn := rfl
@[simp] theorem setHs_mains (x : HsState) : (s.setHs x).mains = s.mains := rfl
@[simp] theorem setHs_chan (x : HsState) : (s.setHs x).chan = s.chan := rfl
@[simp] theorem setHs_str (x : HsState) : (s.setHs x).str = s.str := rfl
@[simp] theorem setHs_gapStore (x : HsState) : (s.setHs x).gapStore = s.gapStore := rfl
@[simp] theorem setHs_gge (x : HsState) : (s.setHs x).gge = s.gge := rfl
@[simp] theorem setHs_cap (x : HsState) : (s.setHs x).cap = s.cap := rfl
@[simp] theorem setHs_lnk (x : HsState) : (s.setHs x).lnk = s.lnk := rfl
@[simp] theorem setHs_seg (x : HsState) : (s.setHs x).seg = s.seg := rfl
@[simp] theorem setHs_seenTrig (x : HsState) : (s.setHs x).seenTrig = s.seenTrig := rfl
@[simp] theorem setHs_stopReq (x : HsState) : (s.setHs x).stopReq = s.stopReq := rfl
@[simp] theorem setHs_lane (x : HsState) : (s.setHs x).lane = s.lane := rfl
@[simp] theorem setHs_ring (x : HsState) : (s.setHs x).ring = s.ring := rfl
@[simp] theorem setHs_tls (x : HsState) : (s.setHs x).tls = s.tls := rfl
@[simp] theorem setHs_pwr (x : HsState) : (s.setHs x).pwr = s.pwr := rfl

/-! What a write leaves in its own field. -/
@[simp] theorem emit_out (o : Out) : (s.emit o).out = s.out ++ [o] := rfl
@[simp] theorem answer_bus (v st : Nat) : (s.answer v st).bus = ⟨v, st, []⟩ := rfl
@[simp] theorem setTls_tls (x : TlsState) : (s.setTls x).tls = x := rfl
@[simp] theorem setHs_hs (x : HsState) : (s.setHs x).hs = x := rfl

/-! Reads after writes. -/
@[simp] theorem reg_setReg_self (a : Nat) (x : Word) : (s.setReg a x).reg a = x := tabGet_tabPut_self _ _ _ _
theorem reg_setReg_ne {a b : Nat} (x : Word) (h : b ≠ a) : (s.setReg a x).reg b = s.reg b := tabGet_tabPut_ne _ _ _ h
@[simp] theorem actReg_setAct_self (a : Nat) (x : Word) : (s.setAct a x).actReg a = x := tabGet_tabPut_self _ _ _ _
theorem actReg_setAct_ne {a b : Nat} (x : Word) (h : b ≠ a) : (s.setAct a x).actReg b = s.actReg b := tabGet_tabPut_ne _ _ _ h
@[simp] theorem byte_setByte_self (a : Nat) (x : Byte) : (s.setByte a x).byte a = x := tabGet_tabPut_self _ _ _ _
theorem byte_setByte_ne {a b : Nat} (x : Byte) (h : b ≠ a) : (s.setByte a x).byte b = s.byte b := tabGet_tabPut_ne _ _ _ h
@[simp] theorem dl_setDl_self (a : Nat) (x : DieLink) : (s.setDl a x).dl a = x := tabGet_tabPut_self _ _ _ _
theorem dl_setDl_ne {a b : Nat} (x : DieLink) (h : b ≠ a) : (s.setDl a x).dl b = s.dl b := tabGet_tabPut_ne _ _ _ h
@[simp] theorem trk_setTrk_self (a : Nat) (x : Tracker) : (s.setTrk a x).trk a = x := tabGet_tabPut_self _ _ _ _
theorem trk_setTrk_ne {a b : Nat} (x : Tracker) (h : b ≠ a) : (s.setTrk a x).trk b = s.trk b := tabGet_tabPut_ne _ _ _ h
@[simp] theorem cl_setCl_self (a : Nat) (x : CluState) : (s.setCl a x).cl a = x := tabGet_tabPut_self _ _ _ _
theorem cl_setCl_ne {a b : Nat} (x : CluState) (h : b ≠ a) : (s.setCl a x).cl b = s.cl b := tabGet_tabPut_ne _ _ _ h
@[simp] theorem cv_setCv_self (a : Nat) (x : ConvState) : (s.setCv a x).cv a = x := tabGet_tabPut_self _ _ _ _
theorem cv_setCv_ne {a b : Nat} (x : ConvState) (h : b ≠ a) : (s.setCv a x).cv b = s.cv b := tabGet_tabPut_ne _ _ _ h
@[simp] theorem rg_setRg_self (a : Nat) (x : RegionState) : (s.setRg a x).rg a = x := tabGet_tabPut_self _ _ _ _
theorem rg_setRg_ne {a b : Nat} (x : RegionState) (h : b ≠ a) : (s.setRg a x).rg b = s.rg b := tabGet_tabPut_ne _ _ _ h
@[simp] theorem ch_setCh_self (a : Nat) (x : ChanState) : (s.setCh a x).ch a = x := tabGet_tabPut_self _ _ _ _
theorem ch_setCh_ne {a b : Nat} (x : ChanState) (h : b ≠ a) : (s.setCh a x).ch b = s.ch b := tabGet_tabPut_ne _ _ _ h
@[simp] theorem st_setStr_self (a : Nat) (x : StrState) : (s.setStr a x).st a = x := tabGet_tabPut_self _ _ _ _
theorem st_setStr_ne {a b : Nat} (x : StrState) (h : b ≠ a) : (s.setStr a x).st b = s.st b := tabGet_tabPut_ne _ _ _ h
@[simp] theorem lk_setLk_self (a : Nat) (x : LinkState) : (s.setLk a x).lk a = x := tabGet_tabPut_self _ _ _ _
theorem lk_setLk_ne {a b : Nat} (x : LinkState) (h : b ≠ a) : (s.setLk a x).lk b = s.lk b := tabGet_tabPut_ne _ _ _ h
@[simp] theorem cp_setCp_self (a : Nat) (x : CapState) : (s.setCp a x).cp a = x := tabGet_tabPut_self _ _ _ _
theorem cp_setCp_ne {a b : Nat} (x : CapState) (h : b ≠ a) : (s.setCp a x).cp b = s.cp b := tabGet_tabPut_ne _ _ _ h
@[simp] theorem ln_setLn_self (a : Nat) (x : LaneState) : (s.setLn a x).ln a = x := tabGet_tabPut_self _ _ _ _
theorem ln_setLn_ne {a b : Nat} (x : LaneState) (h : b ≠ a) : (s.setLn a x).ln b = s.ln b := tabGet_tabPut_ne _ _ _ h

/-! Registers and their fields. -/
theorem reg_of_regs {s t : State} (h : t.regs = s.regs) (a : Nat) : t.reg a = s.reg a := by unfold State.reg; rw [h]
theorem fld_of_regs {s t : State} (h : t.regs = s.regs) (a : Nat) (f : Fld) : t.fld a f = s.fld a f := by
  unfold State.fld; rw [reg_of_regs h]
theorem fld_setReg_ne {a b : Nat} (w : Word) (f : Fld) (h : b ≠ a) : (s.setReg a w).fld b f = s.fld b f := by
  unfold State.fld; rw [reg_setReg_ne s w h]
theorem fld_setFld_ne {a b : Nat} (f g : Fld) (v : Nat) (h : b ≠ a) : (s.setFld a f v).fld b g = s.fld b g :=
  fld_setReg_ne s _ g h
/-- The word a field write leaves. -/
theorem reg_setFld_toNat (a : Nat) (f : Fld) (v : Nat) (hl : f.lo ≤ f.hi) (h : f.hi < 32) :
    ((s.setFld a f v).reg a).toNat = putBits (s.reg a).toNat f.hi f.lo v := by
  unfold State.setFld
  rw [reg_setReg_self, BitVec.toNat_ofNat, Nat.mod_eq_of_lt (putBits_lt (s.reg a).isLt hl h v)]
/-- A field reads what was written into it. -/
theorem fld_setFld_self (a : Nat) (f : Fld) (v : Nat) (hl : f.lo ≤ f.hi) (h : f.hi < 32) :
    (s.setFld a f v).fld a f = v % 2 ^ (f.hi - f.lo + 1) := by
  unfold State.fld
  rw [reg_setFld_toNat s a f v hl h, bitsOf_putBits_self]
/-- A field write leaves the fields above and below it alone. -/
theorem fld_setFld_disjoint (a : Nat) (f g : Fld) (v : Nat) (hl : f.lo ≤ f.hi) (h : f.hi < 32) (hg : g.lo ≤ g.hi)
    (hd : f.hi < g.lo ∨ g.hi < f.lo) : (s.setFld a f v).fld a g = s.fld a g := by
  unfold State.fld
  rw [reg_setFld_toNat s a f v hl h]
  rcases hd with hd | hd
  · exact bitsOf_putBits_above hl hd _ _ _
  · exact bitsOf_putBits_below hg hd _ _ _
/-- A one-bit field reads the flag written into it. -/
theorem flag_setFlag_self (a : Nat) (f : Fld) (b : Bool) (hl : f.lo = f.hi) (h : f.hi < 32) : (s.setFlag a f b).flag a f = b := by
  unfold State.flag State.setFlag
  rw [fld_setFld_self s a f _ (by omega) h, hl]
  cases b <;> simp [b2n]

/-! Time, and what a meaning does while the hub is asleep. -/
theorem act_awake {t : State} (h : s.awake = true) : s.act! t = .next t := by unfold State.act!; rw [if_pos h]
theorem act_asleep {t : State} (h : s.awake = false) : s.act! t = .next s := by
  unfold State.act!; rw [if_neg (by rw [h]; exact Bool.false_ne_true)]
/-- A byte outside the bytes written reads as before. -/
theorem byte_setBytes_ne {s : State} (a : Nat) (l : List Byte) {b : Nat} (h : b < a ∨ a + l.length ≤ b) :
    (s.setBytes a l).byte b = s.byte b := by
  induction l generalizing s a with
  | nil => rfl
  | cons x t ih =>
    rw [List.length_cons] at h
    show ((s.setByte a x).setBytes (a + 1) t).byte b = s.byte b
    rw [ih (a + 1) (by omega), byte_setByte_ne s x (by omega)]

end Sys2Proof.Machine
end

