-- ==== Sys2Proof/Tests/Slice0.lean ====
section
/-! SUPPORT. The model's own tests. The spec's worked examples are their expected results; each ill-formed operand is refused; each
clause of a statement with hypotheses has states and operands that meet them. -/
namespace Sys2Proof.Tests
open Sys2Proof.Machine

-- The hypotheses of a clause may hold by long evaluation of a state's tables.
set_option maxRecDepth 100000
set_option Elab.async false

/-- Die links up. -/
def diesUp (s : State) : State := s.forEach (List.range 4) (fun s d => s.setFlag (R.DLK_STAT d) F.DLK_STAT_UP true)
/-- Headstock has started. -/
def headstockUp (s : State) : State := { s with flt.started := true }

/-- A window a channel awaits from a converter. -/
def awaited (k n : Nat) (d : Bool) : Expect :=
  ⟨k, n, 0, 4, 0, 1000, 3000, d, false, 0, false, false, false, 0, false, false, false, false, 0, 1, 0, false, false⟩
/-- A channel of a converting region. -/
def converting (g : Nat) (s : State) : State := (diesUp s).setRgState g rgConverting
/-- A channel in event mode. -/
def eventChan (n : Nat) (s : State) : State :=
  (converting (rgnOf n) s).setAct (R.CH_EVT_CTRL n) (BitVec.ofNat 32 (2 ^ F.CH_EVT_CTRL_MODE.lo))
/-- A slot that has closed. -/
def closedSlot (event held : Bool) (q : Nat) : SlotReady := ⟨0, 1, 0, 0, [], some ⟨5, q, true⟩, false, held, false, false, event⟩
/-- A packet. -/
def onePacket : Pkt := ⟨0, 0, 1, List.replicate 64 0, 0, 1, 0, 0, false, false, false, false⟩
/-- The image of a descriptor packet. -/
def descImage : List Byte := 0 :: 3 :: List.replicate 62 0
/-- The sequencer of region 0 is due at entry 0. -/
def sequencerAt (op tgt arg rep dly : Nat) (r : RegionState) : State :=
  ((((((converting 0 State.reset).setRg 0 { r with started := true }).setFld (R.RGN_SEQ_ENT_HI 0 0) F.RGN_SEQ_ENT_HI_OP op).setFld
    (R.RGN_SEQ_ENT_HI 0 0) F.RGN_SEQ_ENT_HI_TGT tgt).setFld (R.RGN_SEQ_ENT_HI 0 0) F.RGN_SEQ_ENT_HI_ARG arg).setFld
    (R.RGN_SEQ_ENT 0 0) F.RGN_SEQ_ENT_REP rep).setFld (R.RGN_SEQ_ENT 0 0) F.RGN_SEQ_ENT_DLY dly
/-- The hub holds the active exit, at port 0, and tracker 0 follows a source on it. -/
def exitHub (st : Nat) (src : Nat) (t : Tracker) : State :=
  ((((State.reset.setFlag R.CHP_RING F.CHP_RING_ACTHERE true).setFlag (R.TRK_CFG 0) F.TRK_CFG_EN true).setFld (R.TRK_CFG 0)
    F.TRK_CFG_SRC src).setTkState 0 st).setTrk 0 t
/-- A PTP frame at port 0. -/
def ptpFrame : RxPort := ⟨0, ⟨0x011B19000000, none, 64, false, true, 0, false⟩⟩
/-- A PTP message. -/
def ptpMsg (two : Bool) : PtpMsg := ⟨ptpFrame, 0, 7, 3, two, ⟨1, 0, 0⟩, 5, 0⟩
/-- A hub beside the one with the active exit, which lies behind link 0. -/
def besideExit : State := { State.reset.setFld R.CHP_ACT F.CHP_ACT_ACTID 0 with seg := [⟨0, 0, 1, 0, 0, 0⟩] }
/-- A mirror image with nothing in its lists, whose MCRC checks. -/
def mirrorImage : List Byte :=
  let b : List Byte := 3 :: List.replicate 27 0
  b ++ beBytes 4 (crc32c (b ++ beBytes 4 0 ++ List.replicate 128 0)) ++ List.replicate 128 0
/-- The header of a good cell of eight bytes on virtual channel 3. -/
def cellHeader : Nat :=
  let h := 0xC3 * 2 ^ 56 + 3 * 2 ^ 53 + 1 * 2 ^ 47
  h + crc32c (bytesAt (beBytes 8 h) 0 4 ++ List.replicate 8 7)
/-- A command request over the SPI. -/
def cmdReq (more : Bool) (params : List Byte) : CmdReq := ⟨.spi, 2, true, more, 3, 5, 9, 77, params, 0⟩
/-- What the hub knows of a request with an opcode. -/
def ctxOf (op : Nat) : ReqCtx := ⟨5, 1, 0, 0, 0, false, op, 3, true, 5, 9, 77⟩
/-- Headstock has started, and the hub has an ID. -/
def readyHub : State := (headstockUp State.reset).setReg R.CMD_HUBID 5
/-- Tailstock is ACTIVE with a set of ones. -/
def activeTls : State := { State.reset with tls := { TlsState.init with g := gActive, set := List.replicate 300 1 } }
/-- The header of a request datagram with a bad length and a good CRC, and an opcode with bit 7. -/
def highOpcode : List Byte := reqDgram (cmdReq false []) 0x81
/-- The CRC of a word of a die link. -/
def crcOf (seq typ p : Nat) : Fin 256 := Fin.ofNat 256 (dieCrc seq typ p)
/-- Measurements at both references of the same size. -/
def refsAt (v : Int) : RefPair := ⟨v, -v⟩
/-- A pass of a calibration whose searches end in range and whose verification leaves nothing. -/
def calPassOf : CalPass :=
  ⟨-1 :: List.replicate 11 0, refsAt 1717986918 :: List.replicate 11 (refsAt 1717986919), 0, refsAt 1717986918⟩
/-- The measurements of a FULL calibration that passes at once. -/
def calMeasOf : CalMeas := ⟨refsAt 1717986918 :: List.replicate 9 (refsAt 1717986919), [calPassOf]⟩
/-- A calibration runs on converter 0, covered by a spare. -/
def calibrating : State := State.reset.setRg 0 { RegionState.init with running := [newRun ⟨.cal, 0, 3, 255, false⟩ 0 (some 0) .cover 0] }
/-- Channel 0 awaits a window. -/
def awaiting (d : Bool) : State := (converting 0 State.reset).setCh 0 { ChanState.init with expects := [awaited 0 0 d] }
/-- Region 0 runs in a state and its first window of four packets is open. -/
def windowRuns (st : Nat) : State := ((diesUp State.reset).setRgState 0 st).setRg 0 { RegionState.init with npk := 4, next := 4 * pktU }
/-- The instant at which it closes. -/
def atWindowEdge (st : Nat) : State :=
  ((windowRuns st).moveTo ((windowRuns st).rg 0).next).settleTests.forEach (chansOf 0) (fun u n => if (u.ch n).waiting = [] then u else u.expire n)
/-- That window has closed in the channels and clusters. -/
def windowClosed (st : Nat) : State :=
  (((atWindowEdge st).forEach (chansOf 0) (fun u n => u.closeChan n ((windowRuns st).rg 0).edge ((windowRuns st).rg 0).next ((windowRuns st).rg 0).npk
    ((windowRuns st).reg (R.RGN_WSEQ 0)).toNat [])).gather 0 ((atWindowEdge st).closeEvents 0 [])).forEach (clusOf 0) (fun u c => u.cluEdge c)
/-- The next window is open. -/
def nextWindow : State :=
  (windowClosed rgConverting).openWindow 0 ((windowRuns rgConverting).rg 0).next ((((windowRuns rgConverting).reg (R.RGN_WSEQ 0)).toNat + 1) % 2 ^ 32)
/-- What waited for its edge acts. -/
def windowActed : State :=
  (((nextWindow.feApplyAll 0 true ((nextWindow.rg 0).waiting.filter (fun x => decide (x.2.2 + 2000 * nsU ≤ ((windowRuns rgConverting).rg 0).next)))).hltApply
    0).forEach (chansOf 0) (fun s' n => if s'.evtMode n then s'.evtEdge n ((windowRuns rgConverting).rg 0).next else s')).forEach (chansOf 0)
    (fun s' n => s'.slotEdge n ((windowRuns rgConverting).rg 0).next (s'.rg 0).npk ((((windowRuns rgConverting).reg (R.RGN_WSEQ 0)).toNat + 1) % 2 ^ 32))
/-- A packet of context 0 that Gouge has written as a stored block. -/
def storedJob : GgeJob :=
  ⟨0, onePacket, GgeImage.init, encodeBlock ⟨2, 1, 1, 0, 0, 0, false⟩ 0 GgeImage.init (decide (onePacket.ptype = 1)) true onePacket.pseq onePacket.payload,
    true, false, false, 4⟩
/-- The transmitter of a lane is active. -/
def laneSends (i : Nat) (s : State) : State :=
  (s.setFld (R.LNE_STAT i) F.LNE_STAT_PSCUR 0).setFlag (R.LNE_GRP (grpOf i)) F.LNE_GRP_PLL_LOCK true
/-- A Chainpo link is up on one lane. -/
def linkSends (k : Nat) (s : State) : State := laneSends (2 + 4 * k) (s.setFlag (R.CHP_STAT k) F.CHP_STAT_UP true)
/-- A packet of context 511 waits at the active exit, whose destination is resolved. -/
def sendHub : State :=
  { ((((((((laneSends 0 (State.reset.setStr 511 { StrState.init with pkts := [onePacket], wp := 1 })).setFlag R.CHP_RING F.CHP_RING_ACTHERE true).setFlag
    (R.DST_PORT 0) F.DST_PORT_V true).setReg (R.NET_IP4 0) 0xC0A80002).setReg (R.DST_ADDR 0 3) 0xC0A80001).setX 0 xActive).setFlag
    (R.NET_STAT 0) F.NET_STAT_LINK true).setFlag (R.LNE_STAT 0) F.LNE_STAT_LOS false).setFld R.CHP_ACT F.CHP_ACT_APORT 0 with
    ring.arp := [(0xC0A80001, 7, 0)] }
/-- The same with REFCLK lost. -/
def calibratingCold : State := { calibrating with spn.refclk := false }
/-- Both channels have the four axes alike. -/
def axesAlike (d : SafeDrive) (c : Nat) : State := { activeTls with tls.axes := List.replicate 4 { SafeAxis.init with a := d, b := d }, tls.cyc := c }
/-- An axis in SS1 above standstill within its ramp, at its time limit. -/
def ramping : State := axesAlike { SafeDrive.init with st := axSs1, v0 := 40000000, hist := [5000, 0] } 1028
/-- Four axes with STO energised, at a safety cycle. -/
def energised (c : Nat) : State := axesAlike { SafeDrive.init with sto := true } c
/-- A port is the active exit and has the MAC address 7. -/
def activePort (p : Nat) (s : State) : State := ((s.setX p xActive).setReg (R.NET_MAC p) 7).setReg (R.NET_MAC_HI p) 0
/-- A frame at port 1 for its MAC address. -/
def rxAt (dest : BitVec 48) (v6 : Bool) : RxPort := ⟨1, ⟨dest, none, 64, v6, false, 319, false⟩⟩
/-- A stream context with a page of FIFO, a row format and one member. -/
def openStream (x : StrState) : State :=
  (((((State.reset.setFld (R.STR_FIFO 511) F.STR_FIFO_SIZE 1).setFld (R.STR_CFG 511) F.STR_CFG_MAXP 8).setFld (R.STR_MEMB 511) F.STR_MEMB_NCH 1).setFld
    (R.STR_STAT 511) F.STR_STAT_STATE 1)).setStr 511 x
/-- The FIFO of that context is full. -/
def fullStream (x : StrState) : State := openStream { x with wp := 128, sp := 128, wr := 128 + x.wr }
/-- A gap of one item. -/
def oneGap : GapInfo := ⟨1, 5, 5, 0, 1⟩
/-- Axes that wait for a reset edge and that nothing stops. -/
def axesFree : State :=
  { axesAlike { SafeDrive.init with st := axStopped } 5 with
    tls.inputs := List.replicate 16 { SafeInput.init with fa := true, fb := true }, tls.conn := cnRunning, tls.axRun := 15, tls.axSto := 0, tls.sistB := 65535 }
/-- A power request waits behind a change to Run. -/
def powerWaits (kind value : Nat) (s : State) : State := { s with pwr.change := some ⟨2, 0, 0, 0, false⟩, pwr.waiting := some (kind, value, 0) }
/-- Axes in SS1 without a ramp. -/
def ss1NoRamp : State :=
  (axesAlike { SafeDrive.init with st := axSs1 } 1028).setTls
    { (axesAlike { SafeDrive.init with st := axSs1 } 1028).tls with set := (List.replicate 300 1).set (144 + 24 * 3 + 1) 0 }
/-- Axes that run while a telegram demands STO of them. -/
def stoDemanded : State := { axesAlike { SafeDrive.init with st := axRun } 5 with tls.conn := cnRunning, tls.axSto := 15 }
/-- Axes that run with a set of twos. -/
def setOfTwos : State := { axesAlike { SafeDrive.init with st := axRun } 5 with tls.set := List.replicate 300 2 }
/-- SAFE_RST has fallen in both channels. -/
def rstFallen (a b c : Nat) : State :=
  { activeTls with tls.chA := { SafeChan.init with fall := some a }, tls.chB := { SafeChan.init with fall := some b }, tls.cyc := c }
/-- The word of a register in the state an outcome answers. -/
def regOf (o : Res) (a : Nat) : Option Word :=
  match o with
  | .next t => some (t.reg a)
  | _ => none

/-- Section 4.2's example: COUNT 209,715, RESID 9,011 and 2,048,000 packets give 274,877,907. -/
theorem test_wide_value : wideRaw 209715 9011 2048000 = 274877907 := by decide +kernel
/-- Section 0.5's example: 0x0123_4580 with SUBST and CALDUE as a Compact word. -/
theorem test_compact_word : compactWord 0x01234580 6 = 0x01234606 := by decide
/-- Section 0.3's example: a short-time compare across a wrap of the seconds field. -/
theorem test_short_time_difference : stDiff (3 * 2 ^ 30) (262140 * 2 ^ 30 + 500000000) = 6500000000 := by decide
/-- Section 0.4's example: channel 201 lies in cluster 25, region 4 and on FE2; its spare is converter 233. -/
theorem test_channel_201 : cluOf 201 = 25 ∧ rgnOf 201 = 4 ∧ dieOf 4 = 2 ∧ chanOf 226 = 201 ∧ spareOf 25 = 233 := by decide
/-- Section 2.1's example: packet edge 12,345 of a second. -/
theorem test_packet_edge : ltNs (12345 * pktU) = 602783 ∧ ltFrac (12345 * pktU) = 13312 := by decide
/-- Section 1.7's example: a SNAP edge at 999,999,000 ns latches in the next second. -/
theorem test_snapshot_instant : ltSec (mkLt 1700000000 999999000 0 + 2000 * nsU) = 1700000001
    ∧ ltNs (mkLt 1700000000 999999000 0 + 2000 * nsU) = 1000 := by decide
/-- Section 11.2's example: the transmit default of Gen3, at 0x0004_0084 for CU0. -/
theorem test_transmit_default : R.LNE_TXEQ 2 = 0x40084
    ∧ regOf (exec (.lneTxeqWrite 2 0x000B3004) State.reset) (R.LNE_TXEQ 2) = some 0x000B3004 := by decide +kernel
/-- Section 11.3's example: EYE_H 22 and EYE_V 58 mV give EQF 147. -/
theorem test_eye_figure : eqf 22 58 = 147 := by decide
/-- Section 17's example: a broadcast that would change K of a converting channel is refused, and nothing changes. -/
theorem test_broadcast_refused :
    regOf (exec (.aliasWrite 0x01F00180 0x00050498) (State.reset.setRgState 3 rgConverting)) R.GLB_ACCERR = some 0x01000002
    ∧ regOf (exec (.aliasWrite 0x01F00180 0x00050498) (State.reset.setRgState 3 rgConverting)) R.GLB_ACCADR = some 0x01F00180 := by
  decide +kernel
/-- Table 13.5: an IDENT of another version is answered with BADVER. -/
theorem test_bad_version : ((readyHub.runCmd (ctxOf 1) 3 .spi []).2.map (fun r => r.1)) = some 1 := by decide +kernel
/-- R402: 250 us after reset the first safety cycle is counted. -/
theorem test_idle_cycle : step State.reset = .next (State.reset.pass nsU) := rfl
/-- R420: the first bad parameter set of a running Tailstock locks it out. -/
theorem test_lockout : (match exec (.paramCrcCheck false) activeTls with
    | .next t => decide (t.tls.g = gLockout)
    | _ => false) = true := by decide +kernel
/-- R414: a hub that has not been given a parameter set energises nothing. -/
theorem test_reset_outputs : (List.range 4).all (fun x => [true, false].all (fun c => !(State.reset.drive c x).sto && !(State.reset.drive c x).sbc)) = true := by decide
/-- R439: a command does nothing to a hub in Hush. -/
theorem test_asleep : exec (.registerWrite R.CMD_HUBID 7) { State.reset with pwr := { PwrState.init with inHush := true, hush := true } }
    = .next { State.reset with pwr := { PwrState.init with inHush := true, hush := true } } := by rfl
/-- The opcode table gives no row any bits (log 7). -/
theorem test_no_word_is_a_command : decodeTableWord 16 0xFFFF = none ∧ State.reset.withFetchWord 16 0xFFFF = State.reset := by decide

/-- R5: a nanosecond field of a second, or a fraction above 16 bits, is no LT. -/
theorem test_wf_time : (Instr.snapshotBroadcastRx 0 ⟨0, 0, 0, ⟨0, 1000000000, 0⟩⟩).wf = false
    ∧ (Instr.timeStatusNoticeRx 0 ⟨0, 0, 0, ⟨0, 0, 65536⟩⟩).wf = false ∧ (Instr.ringTriggerRx 0 ⟨0, 0, 0, ⟨2 ^ 64, 0, 0⟩⟩).wf = false
    ∧ (Instr.ringTriggerRx 0 ⟨0, 0, 0, ⟨2 ^ 64 - 1, 999999999, 65535⟩⟩).wf = true := by decide
/-- Addresses have 32 bits. -/
theorem test_wf_address : (Instr.registerWrite (2 ^ 32) 0).wf = false ∧ (Instr.dieLinkReadResponse 0 (2 ^ 32) ⟨0, 0⟩).wf = false
    ∧ (Instr.registerWrite (2 ^ 32 - 1) 0).wf = true := by decide
/-- A calibration measures 10 steps of QTRIM or none, 12 of OFS and of GAIN in each of at most 7 passes, all Wide results (R143, R145). -/
theorem test_wf_calibration : (Instr.calibrationDone 0 ⟨List.replicate 9 (refsAt 0), []⟩).wf = false
    ∧ (Instr.calibrationDone 0 ⟨[], List.replicate 8 calPassOf⟩).wf = false
    ∧ (Instr.calibrationDone 0 ⟨[], [{ calPassOf with ofs := List.replicate 11 0 }]⟩).wf = false
    ∧ (Instr.calibrationDone 0 ⟨[], [{ calPassOf with gain := List.replicate 13 (refsAt 0) }]⟩).wf = false
    ∧ (Instr.calibrationDone 0 ⟨[], [{ calPassOf with zero := 2 ^ 31 }]⟩).wf = false
    ∧ (Instr.calibrationDone 0 ⟨List.replicate 10 (refsAt (2 ^ 31)), []⟩).wf = false
    ∧ (Instr.calibrationDone 0 calMeasOf).wf = true := by decide +kernel
/-- A window edge reports each converter of its region at most once. -/
theorem test_wf_observations : (Instr.windowEdge 0 [⟨54, 0, 0, false, false, false⟩]).wf = false
    ∧ (Instr.windowEdge 0 [⟨0, 0, 0, false, false, false⟩, ⟨0, 0, 0, false, false, false⟩]).wf = false
    ∧ (Instr.windowEdge 1 [⟨54, 0, 0, false, false, false⟩]).wf = true := by decide
/-- PTP: a port identity of 80 bits, a correction of 64, an interval of 8. -/
theorem test_wf_ptp : (Instr.syncRx ⟨ptpFrame, 0, 2 ^ 80, 0, false, ⟨0, 0, 0⟩, 0, 0⟩ 0 0).wf = false
    ∧ (Instr.followUpRx ⟨ptpFrame, 0, 0, 0, false, ⟨0, 0, 0⟩, 2 ^ 63, 0⟩ 0).wf = false
    ∧ (Instr.announceRx ⟨ptpFrame, 0, 0, [], 128⟩).wf = false ∧ (Instr.announceRx ⟨ptpFrame, 0, 0, [], -127⟩).wf = true := by decide
/-- A payload fits its cell, and carries the header its channel needs. -/
theorem test_wf_cells : (Instr.cellRx 0 0 (List.replicate 257 0)).wf = false ∧ (Instr.streamCellRx 0 (List.replicate 7 0)).wf = false
    ∧ (Instr.vc2CellRx 0 (List.replicate 27 0)).wf = false ∧ (Instr.mirrorRx 0 (List.replicate 159 0)).wf = false
    ∧ (Instr.vc2CellRx 0 (List.replicate 28 0)).wf = true := by decide +kernel
/-- POWER names the kind of its row; the SPI row of bad frames is for other first bytes. -/
theorem test_wf_rows : (Instr.powerLevel (cmdReq false [2, 0, 0, 0])).wf = false ∧ (Instr.powerMode (cmdReq false [1, 0, 0, 0])).wf = false
    ∧ (Instr.powerLevel (cmdReq false [1, 0, 0, 0])).wf = true ∧ (Instr.spiBadFrame 4).wf = false ∧ (Instr.spiBadFrame 5).wf = true := by
  decide
/-- A datagram's parameters fit PLEN. -/
theorem test_wf_datagram : (Instr.read (cmdReq false (List.replicate 65536 0))).wf = false
    ∧ (Instr.cmdSend (List.replicate 65536 0)).wf = false := by decide +kernel
/-- A frame's command fits the longest UDP datagram, and a frame is longer than what it carries. -/
theorem test_wf_frame :
    (Instr.frameRx 0 ⟨⟨7, none, 65600, false, false, 319, false⟩, 5, 0, .command 0 0 (List.replicate 65508 0)⟩).wf = false
    ∧ (Instr.frameRx 0 ⟨⟨7, none, 64, false, false, 319, false⟩, 5, 0, .command 0 0 (List.replicate 64 0)⟩).wf = false
    ∧ (Instr.icmpEchoRequest ⟨ptpFrame, List.replicate 64 0⟩ false 0 0 0 0).wf = false
    ∧ (Instr.icmpEchoRequest ⟨ptpFrame, List.replicate 63 0⟩ false 0 0 0 0).wf = true := by decide +kernel
/-- The hypotheses of `Obligations.StepTakesFront` can be met, clause by clause. -/
theorem witness_step_takes_front :
    ∃ (s : State) (c : Instr) (rest : List Instr), (s.pending = c :: rest) :=
  ⟨({ State.reset with pending := [.snapshotStrobe] }), (.snapshotStrobe : Instr), ([] : List Instr),
    by decide +kernel⟩

/-- The hypotheses of `Obligations.IdleStepPassesOneCycle` can be met, clause by clause. -/
theorem witness_idle_step_passes_one_cycle :
    ∃ (s : State), (s.pending = []) :=
  ⟨State.reset, by decide +kernel⟩

/-- The hypotheses of `Obligations.EveryCommandCompletes` can be met, clause by clause. -/
theorem witness_every_command_completes :
    (∃ (c : Instr), (∀ sup mv, c ≠ .supplyWarning sup mv)) ∧
    (∃ (sup : _) (mv : Fin 65536), (mv.val * 1000 < supNominal sup * 920 ∨ supNominal sup * 950 ≤ mv.val * 1000)) :=
  ⟨⟨(.brownOut : Instr), by intro _ _ h; cases h⟩,
   ⟨(.core), (950 : Fin 65536), by decide⟩⟩

/-- The hypotheses of `Obligations.StepKeepsGood` can be met, clause by clause. -/
theorem witness_step_keeps_good :
    ∃ (s : State) (t : State), (s.Good) ∧ (step s = .next t) :=
  ⟨State.reset, (State.reset.pass nsU : State), ⟨⟨fun k => by cases k <;> rfl, by unfold State.Caps; decide +kernel⟩,
    rfl⟩⟩

/-- The hypotheses of `Obligations.StepKeepsSafeOutputs` can be met, clause by clause. -/
theorem witness_step_keeps_safe_outputs :
    ∃ (s : State) (t : State), (s.SafeOutputs) ∧ (step s = .next t) :=
  ⟨State.reset, (State.reset.pass nsU : State), ⟨by unfold State.SafeOutputs; decide +kernel, rfl⟩⟩

/-- The hypotheses of `Obligations.FrameOfEveryCommand` can be met, clause by clause. -/
theorem witness_frame_of_every_command :
    (∃ (c : Instr) (s : State) (t : State), (exec c s = .next t)) ∧
    (∃ (c : Instr) (s : State) (t : State) (p : Part), (exec c s = .next t) ∧ (c.changes.contains p = false)) :=
  ⟨⟨(.snapshotTransferDone : Instr), State.reset, (State.reset : State), by rfl⟩,
   ⟨(.ringTriggerRx 0 ⟨0, 15, 0, ⟨0, 0, 0⟩⟩ : Instr), State.reset, (State.reset : State), (.tailstock : Part), ⟨rfl,
     by decide +kernel⟩⟩⟩

/-- The hypotheses of `Obligations.RegistersWritten` can be met, clause by clause. -/
theorem witness_registers_written :
    ∃ (c : Instr) (s : State) (t : State) (l : List Nat) (a : _), (c.writes = some l) ∧ (exec c s = .next t) ∧ (a ∉ l) :=
  ⟨(.snapshotTransferDone : Instr), (State.reset), (State.reset : State), ([R.SNAP_STAT, R.SNAP_SEQ] : List Nat), (0),
    ⟨rfl, rfl, by decide⟩⟩

/-- The hypotheses of `Obligations.AlwaysOnCountNeverGoesBack` can be met, clause by clause. -/
theorem witness_always_on_count_never_goes_back :
    (∃ (c : Instr) (s : State) (t : State), (∀ hid, c ≠ .powerOnReset hid) ∧ (exec c s = .next t)) ∧
    (∃ (s : State) (t : State), (s.pending = []) ∧ (step s = .next t)) :=
  ⟨⟨(.snapshotTransferDone : Instr), State.reset, (State.reset : State), ⟨(fun _ h => by cases h), rfl⟩⟩,
   ⟨State.reset, (State.reset.pass nsU : State), ⟨rfl, rfl⟩⟩⟩

/-- The hypotheses of `Obligations.AsleepHubIgnoresCommands` can be met, clause by clause. -/
theorem witness_asleep_hub_ignores_commands :
    ∃ (c : Instr) (s : State), (s.awake = false) ∧ (c.mayReset = false) ∧ (∀ hid, c ≠ .resetRelease hid) ∧ (c ≠
      .xt32Stopped) :=
  ⟨(.spnLtsRead : Instr), ({ State.reset with pwr.inReset := true }), ⟨by decide +kernel, by decide +kernel, (fun _ h
    => by cases h), by decide +kernel⟩⟩

/-- The hypotheses of `Obligations.FaultEventRows` can be met, clause by clause. -/
theorem witness_fault_event_rows :
    (∃ (s : State), (s.awake = true)) ∧
    (∃ (s : State), (s.awake = true)) ∧
    (∃ (s : State), (s.awake = true)) ∧
    (∃ (s : State), (s.awake = true)) ∧
    (∃ (s : State), (s.awake = true)) ∧
    (∃ (s : State), (s.awake = true)) ∧
    (∃ (s : State) (part : Fin 6) (addr : Word) (detail : BitVec 48) (d : Nat), (s.awake = true) ∧ (part.val ≤ 1) ∧ (d
      = (s.dataDetail part.val addr.toNat).getD detail.toNat) ∧ (inPool addr.toNat = true)) ∧
    (∃ (s : State) (part : Fin 6) (addr : Word) (detail : BitVec 48) (d : Nat), (s.awake = true) ∧ (part.val ≤ 1) ∧ (d
      = (s.dataDetail part.val addr.toNat).getD detail.toNat) ∧ (inPool addr.toNat = false)) ∧
    (∃ (s : State) (addr : Word) (c : Nat) (o : Nat), (s.awake = true) ∧ (imageAt addr.toNat = some (c, o))) ∧
    (∃ (s : State) (addr : Word), (s.awake = true) ∧ (imageAt addr.toNat = none)) ∧
    (∃ (s : State) (addr : Word) (detail : BitVec 48) (d : _) (u : _), (s.awake = true) ∧ (d = (s.dataDetail 2
      addr.toNat).getD detail.toNat) ∧ (u = (s.historyBad (bitsOf d 40 32) addr.toNat).memEvent 97 2 d addr.toNat) ∧
      (u.flt.running.any (fun t => decide (t.target = TestTarget.gouge)) = false)) ∧
    (∃ (s : State) (addr : Word) (detail : BitVec 48) (d : _) (u : _), (s.awake = true) ∧ (d = (s.dataDetail 2
      addr.toNat).getD detail.toNat) ∧ (u = (s.historyBad (bitsOf d 40 32) addr.toNat).memEvent 97 2 d addr.toNat) ∧
      (u.flt.running.any (fun t => decide (t.target = TestTarget.gouge)) = true)) ∧
    (∃ (s : State), (s.awake = true)) :=
  ⟨⟨State.reset, by decide +kernel⟩,
   ⟨State.reset, by decide +kernel⟩,
   ⟨State.reset, by decide +kernel⟩,
   ⟨State.reset, by decide +kernel⟩,
   ⟨State.reset, by decide +kernel⟩,
   ⟨State.reset, by decide +kernel⟩,
   ⟨State.reset, (0 : Fin 6), (0x05000000 : Word), (5 : BitVec 48), ((State.reset.dataDetail (0 : Fin 6).val
     (0x05000000 : Word).toNat).getD (5 : BitVec 48).toNat), by decide +kernel⟩,
   ⟨State.reset, (0 : Fin 6), (0x02000000 : Word), (5 : BitVec 48), ((State.reset.dataDetail (0 : Fin 6).val
     (0x02000000 : Word).toNat).getD (5 : BitVec 48).toNat), by decide +kernel⟩,
   ⟨State.reset, (0x05800004 : Word), ((Option.get (imageAt (0x05800004 : Word).toNat) (by decide +kernel)).1),
     ((Option.get (imageAt (0x05800004 : Word).toNat) (by decide +kernel)).2), by decide +kernel⟩,
   ⟨State.reset, (0x02000004 : Word), by decide +kernel⟩,
   ⟨State.reset, (0 : Word), (0 : BitVec 48), ((State.reset.dataDetail 2 (0 : Word).toNat).getD (0 : BitVec
     48).toNat), ((State.reset.historyBad (bitsOf ((State.reset.dataDetail 2 (0 : Word).toNat).getD (0 : BitVec
     48).toNat) 40 32) (0 : Word).toNat).memEvent 97 2 ((State.reset.dataDetail 2 (0 : Word).toNat).getD (0 : BitVec
     48).toNat) (0 : Word).toNat), by decide +kernel⟩,
   ⟨({ State.reset with flt.running := some ⟨114, .gouge, 0, true⟩ }), (0x05000000 : Word), (0 : BitVec 48),
     ((({ State.reset with flt.running := some ⟨114, .gouge, 0, true⟩ }).dataDetail 2 (0x05000000 : Word).toNat).getD
     (0 : BitVec 48).toNat), ((({ State.reset with flt.running := some ⟨114, .gouge, 0, true⟩ }).historyBad (bitsOf
     ((({ State.reset with flt.running := some ⟨114, .gouge, 0, true⟩ }).dataDetail 2 (0x05000000 : Word).toNat).getD
     (0 : BitVec 48).toNat) 40 32) (0x05000000 : Word).toNat).memEvent 97 2
     ((({ State.reset with flt.running := some ⟨114, .gouge, 0, true⟩ }).dataDetail 2 (0x05000000 : Word).toNat).getD
     (0 : BitVec 48).toNat) (0x05000000 : Word).toNat), by decide +kernel⟩,
   ⟨State.reset, by decide +kernel⟩⟩

/-- The hypotheses of `Obligations.FaultClearRows` can be met, clause by clause. -/
theorem witness_fault_clear_rows :
    (∃ (s : State) (v : Word), (s.awake = true) ∧ (v.toNat.testBit 31 = true)) ∧
    (∃ (s : State), (s.awake = true)) ∧
    (∃ (s : State) (v : Word), (s.awake = true) ∧ (v.toNat.testBit 0 = false)) ∧
    (∃ (s : State) (v : Word), (s.awake = true) ∧ (v.toNat.testBit 0 = true)) ∧
    (∃ (s : State), (s.awake = true)) ∧
    (∃ (s : State) (w : Fin 8) (v : Word) (n : Nat), (s.awake = true) ∧ (n / 32 = w.val) ∧ (sourceDefined n = true) ∧
      (v.toNat.testBit (n % 32) = true)) ∧
    (∃ (s : State), (s.awake = true)) :=
  ⟨⟨State.reset, (0x80000000 : Word), by decide +kernel⟩,
   ⟨State.reset, by decide +kernel⟩,
   ⟨State.reset, (0 : Word), by decide +kernel⟩,
   ⟨State.reset, (1 : Word), by decide +kernel⟩,
   ⟨State.reset, by decide +kernel⟩,
   ⟨State.reset, (1 : Fin 8), (1 : Word), (32 : Nat), by decide +kernel⟩,
   ⟨State.reset, by decide +kernel⟩⟩

/-- The hypotheses of `Obligations.FaultTestRows` can be met, clause by clause. -/
theorem witness_fault_test_rows :
    (∃ (s : State), (s.awake = true) ∧ (s.spn.refclk = true) ∧ (s.flag R.FLT_ALIVE F.FLT_ALIVE_HOLD = false)) ∧
    (∃ (s : State), (s.awake = true) ∧ (s.flag R.FLT_ALIVE F.FLT_ALIVE_HOLD = true) ∧ (s.flt.alivePin = true)) ∧
    (∃ (s : State), (s.awake = true) ∧ (s.flag R.FLT_ALIVE F.FLT_ALIVE_HOLD = true) ∧ (s.flt.alivePin = false)) ∧
    (∃ (s : State), (s.awake = true) ∧ (s.flt.running = none)) ∧
    (∃ (s : State) (x : _), (s.awake = true) ∧ (s.flt.running = some x)) ∧
    (∃ (s : State) (x : _) (rest : _), (s.awake = true) ∧ (s.flt.notRun = x :: rest)) :=
  ⟨⟨(State.reset.setFlag R.FLT_ALIVE F.FLT_ALIVE_HOLD false), by decide +kernel⟩,
   ⟨({ State.reset.setFlag R.FLT_ALIVE F.FLT_ALIVE_HOLD true with flt.alivePin := true }), by decide +kernel⟩,
   ⟨State.reset, by decide +kernel⟩,
   ⟨State.reset, by decide +kernel⟩,
   ⟨({ State.reset with flt.running := some ⟨64, .conv 3, 3, false⟩ }), (Option.get
     (({ State.reset with flt.running := some ⟨64, .conv 3, 3, false⟩ }).flt.running) (by decide +kernel)),
     by decide +kernel⟩,
   ⟨({ State.reset with flt.notRun := [⟨64, .conv 3, 3, true⟩] }), (List.head
     (({ State.reset with flt.notRun := [⟨64, .conv 3, 3, true⟩] }).flt.notRun) (by decide +kernel)), (List.tail
     (({ State.reset with flt.notRun := [⟨64, .conv 3, 3, true⟩] }).flt.notRun)), by decide +kernel⟩⟩

/-- The hypotheses of `Obligations.EventIsRecorded` can be met, clause by clause. -/
theorem witness_event_is_recorded :
    (∃ (src : Nat), (sourceDefined src = true)) ∧
    (∃ (src : Nat), (sourceDefined src = false)) ∧
    (∃ (s : State) (src : Nat), (sourceDefined src = true) ∧ (s.srcEn src = true) ∧ (s.srcClass src = 3)) ∧
    (∃ (s : State) (src : Nat) (inst : Nat), (src < 256) ∧ (inst < 1024) ∧ (s.srcEn src = true) ∧ (1 ≤ s.srcClass src)
      ∧ (s.flag R.FLT_FIRST F.FLT_FIRST_VALID = false)) ∧
    (∃ (s : State) (src : Nat) (inst : Nat), (src < 256) ∧ (inst < 1024) ∧ (s.srcEn src = true) ∧ (1 ≤ s.srcClass src)
      ∧ (s.flag R.FLT_FIRST F.FLT_FIRST_VALID = true)) ∧
    (∃ (s : State) (src : Nat) (inst : Nat) (v : Word), (src < 256) ∧ (inst < 1024) ∧ (s.awake = true) ∧
      (v.toNat.testBit 31 = true)) ∧
    (∃ (s : State) (src : Nat) (inst : Nat), (src < 256) ∧ (inst < 1024) ∧ (s.srcEn src = false)) :=
  ⟨⟨(0 : Nat), by decide +kernel⟩,
   ⟨(14 : Nat), by decide +kernel⟩,
   ⟨((State.reset.setSrcBit R.FLT_EN 224 true).setFld (R.FLT_REACT 14) (F.FLT_REACT_REACT 0) 3), (224 : Nat),
     by decide +kernel⟩,
   ⟨((State.reset.setSrcBit R.FLT_EN 64 true).setFld (R.FLT_REACT 4) (F.FLT_REACT_REACT 0) 1), (64 : Nat), (1023 :
     Nat), by decide +kernel⟩,
   ⟨(((State.reset.setSrcBit R.FLT_EN 64 true).setFld (R.FLT_REACT 4) (F.FLT_REACT_REACT 0) 1).setFlag R.FLT_FIRST
     F.FLT_FIRST_VALID true), (64 : Nat), (1023 : Nat), by decide +kernel⟩,
   ⟨State.reset, (0 : Nat), (0 : Nat), (0x80000000 : Word), by decide +kernel⟩,
   ⟨(State.reset.setSrcBit R.FLT_EN 64 false), (64 : Nat), (0 : Nat), by decide +kernel⟩⟩

/-- The hypotheses of `Obligations.AccessRows` can be met, clause by clause. -/
theorem witness_access_rows :
    (∃ (s : State) (a : Nat) (v : Word) (c : _), (s.awake = true) ∧ (c ∈ [Instr.registerWrite a v, .aliasWrite a v,
      .gougeImageWrite a v, .pairLowerWrite a v, .pairUpperWrite a v]) ∧ (addrOk a = false)) ∧
    (∃ (s : State) (a : Nat) (v : Word) (c : _) (off : _) (rw : _), (s.awake = true) ∧ (c ∈ [Instr.registerWrite a v,
      .aliasWrite a v, .gougeImageWrite a v, .pairLowerWrite a v, .pairUpperWrite a v]) ∧ (s.checkWrites .spi [(a, v)]
      = (0x05, off, rw))) ∧
    (∃ (s : State) (a : Nat) (v : Word) (c : _) (off : _) (rw : _) (gs : _) (bs : _) (u : _), (s.awake = true) ∧ (c ∈
      [Instr.registerWrite a v, .aliasWrite a v, .gougeImageWrite a v, .pairLowerWrite a v, .pairUpperWrite a v]) ∧
      (s.checkWrites .spi [(a, v)] = (0x06, off, rw)) ∧ (gs = s.startsOf (s.trial (a, v)) (s.touched [(a, v)])) ∧ (bs
      = s.armsOf (s.touched [(a, v)])) ∧ (u = (if rw = true then (s.setFlag R.PRC_STAT F.PRC_STAT_REFUSED true).event
      109 instHub 0 else s)) ∧ (s.demandBad (s.trial (a, v)) gs bs = false)) ∧
    (∃ (s : State) (a : Nat) (v : Word) (c : _) (off : _) (rw : _) (gs : _) (bs : _) (u : _), (s.awake = true) ∧ (c ∈
      [Instr.registerWrite a v, .aliasWrite a v, .gougeImageWrite a v, .pairLowerWrite a v, .pairUpperWrite a v]) ∧
      (s.checkWrites .spi [(a, v)] = (0x06, off, rw)) ∧ (gs = s.startsOf (s.trial (a, v)) (s.touched [(a, v)])) ∧ (bs
      = s.armsOf (s.touched [(a, v)])) ∧ (u = (if rw = true then (s.setFlag R.PRC_STAT F.PRC_STAT_REFUSED true).event
      109 instHub 0 else s)) ∧ (s.demandBad (s.trial (a, v)) gs bs = true)) ∧
    (∃ (s : State) (a : Nat) (v : Word) (c : _) (off : _) (rw : _), (s.awake = true) ∧ (c ∈ [Instr.registerWrite a v,
      .aliasWrite a v, .gougeImageWrite a v, .pairLowerWrite a v, .pairUpperWrite a v]) ∧ (s.checkWrites .spi [(a, v)]
      = (0x0F, off, rw))) ∧
    (∃ (s : State) (a : Nat) (v : Word) (c : _) (off : _) (rw : _), (s.awake = true) ∧ (c ∈ [Instr.registerWrite a v,
      .aliasWrite a v, .gougeImageWrite a v, .pairLowerWrite a v, .pairUpperWrite a v]) ∧ (s.checkWrites .spi [(a, v)]
      = (0, off, rw))) ∧
    (∃ (s : State) (v : Word), (s.awake = true) ∧ (s.hubidBad (R.CMD_HUBID, v) = true)) ∧
    (∃ (s : State) (v : Word), (s.awake = true) ∧ (s.hubidBad (R.CMD_HUBID, v) = false) ∧ (bitsOf v.toNat
      F.CMD_HUBID_SITE.hi F.CMD_HUBID_SITE.lo = s.fld R.CMD_HUBID F.CMD_HUBID_SITE)) ∧
    (∃ (s : State) (v : Word), (s.awake = true) ∧ (s.isExit = false) ∧ (s.hubidBad (R.CMD_HUBID, v) = false)) ∧
    (∃ (s : State) (v : Word) (off : _) (rw : _), (s.awake = true) ∧ (s.checkWrites .spi [(R.SPN_SET, v)] = (0, off,
      rw))) ∧
    (∃ (s : State) (v : Word) (w : Word) (off : _) (rw : _), (s.awake = true) ∧ (s.checkWrites .spi [(R.SPN_SET_HI,
      w)] = (0, off, rw)) ∧ (s.heldAt R.SPN_SET = some v)) ∧
    (∃ (s : State), (s.awake = true) ∧ (s.latched R.PWR_ACNT = none)) ∧
    (∃ (s : State) (a : _), (s.awake = true) ∧ (addrOk a = true) ∧ (inPage a = true)) ∧
    (∃ (s : State) (a : _), (s.awake = true) ∧ (addrOk a = true) ∧ (inPage a = true) ∧ (s.snap.taken = false)) ∧
    (∃ (s : State) (a : _), (s.awake = true) ∧ (addrOk a = false)) :=
  ⟨⟨State.reset, (0x08000000 : Nat), (0 : Word), (Instr.registerWrite (0x08000000 : Nat) (0 : Word)),
     by decide +kernel⟩,
   ⟨(State.reset.setFld (R.RGN_STAT 0) F.RGN_STAT_STATE 2), (R.RGN_WIN 0 : Nat), (4096 : Word), (Instr.registerWrite
     (R.RGN_WIN 0 : Nat) (4096 : Word)), (((State.reset.setFld (R.RGN_STAT 0) F.RGN_STAT_STATE 2).checkWrites .spi
     [((R.RGN_WIN 0 : Nat), (4096 : Word))]).2.1), (((State.reset.setFld (R.RGN_STAT 0) F.RGN_STAT_STATE
     2).checkWrites .spi [((R.RGN_WIN 0 : Nat), (4096 : Word))]).2.2), by decide +kernel⟩,
   ⟨({ State.reset.setRgState 0 rgConverting with pwr.doze := true }), (R.CH_EVT_CTRL 0 : Nat), (0 : Word),
     (Instr.registerWrite (R.CH_EVT_CTRL 0 : Nat) (0 : Word)),
     ((({ State.reset.setRgState 0 rgConverting with pwr.doze := true }).checkWrites .spi [((R.CH_EVT_CTRL 0 : Nat),
     (0 : Word))]).2.1), ((({ State.reset.setRgState 0 rgConverting with pwr.doze := true }).checkWrites .spi
     [((R.CH_EVT_CTRL 0 : Nat), (0 : Word))]).2.2),
     (({ State.reset.setRgState 0 rgConverting with pwr.doze := true }).startsOf
     (({ State.reset.setRgState 0 rgConverting with pwr.doze := true }).trial ((R.CH_EVT_CTRL 0 : Nat), (0 : Word)))
     (({ State.reset.setRgState 0 rgConverting with pwr.doze := true }).touched [((R.CH_EVT_CTRL 0 : Nat), (0 :
     Word))])), (({ State.reset.setRgState 0 rgConverting with pwr.doze := true }).armsOf
     (({ State.reset.setRgState 0 rgConverting with pwr.doze := true }).touched [((R.CH_EVT_CTRL 0 : Nat), (0 :
     Word))])), ((if ((({ State.reset.setRgState 0 rgConverting with pwr.doze := true }).checkWrites .spi
     [((R.CH_EVT_CTRL 0 : Nat), (0 : Word))]).2.2) = true then
     (({ State.reset.setRgState 0 rgConverting with pwr.doze := true }).setFlag R.PRC_STAT F.PRC_STAT_REFUSED
     true).event 109 instHub 0 else ({ State.reset.setRgState 0 rgConverting with pwr.doze := true }))),
     by decide +kernel⟩,
   ⟨(diesUp (State.reset.setReg R.PRC_CAP 0)), (R.RGN_CTRL 0 : Nat), (1 : Word), (Instr.registerWrite (R.RGN_CTRL 0 :
     Nat) (1 : Word)), (((diesUp (State.reset.setReg R.PRC_CAP 0)).checkWrites .spi [((R.RGN_CTRL 0 : Nat), (1 :
     Word))]).2.1), (((diesUp (State.reset.setReg R.PRC_CAP 0)).checkWrites .spi [((R.RGN_CTRL 0 : Nat), (1 :
     Word))]).2.2), ((diesUp (State.reset.setReg R.PRC_CAP 0)).startsOf ((diesUp (State.reset.setReg R.PRC_CAP
     0)).trial ((R.RGN_CTRL 0 : Nat), (1 : Word))) ((diesUp (State.reset.setReg R.PRC_CAP 0)).touched [((R.RGN_CTRL 0
     : Nat), (1 : Word))])), ((diesUp (State.reset.setReg R.PRC_CAP 0)).armsOf ((diesUp (State.reset.setReg R.PRC_CAP
     0)).touched [((R.RGN_CTRL 0 : Nat), (1 : Word))])), ((if (((diesUp (State.reset.setReg R.PRC_CAP 0)).checkWrites
     .spi [((R.RGN_CTRL 0 : Nat), (1 : Word))]).2.2) = true then ((diesUp (State.reset.setReg R.PRC_CAP 0)).setFlag
     R.PRC_STAT F.PRC_STAT_REFUSED true).event 109 instHub 0 else (diesUp (State.reset.setReg R.PRC_CAP 0)))),
     by decide +kernel⟩,
   ⟨(State.reset.setFld R.CMD_HUBID F.CMD_HUBID_HID 15), (R.CMD_HUBID : Nat), (0xFFF0 : Word), (Instr.registerWrite
     (R.CMD_HUBID : Nat) (0xFFF0 : Word)), (((State.reset.setFld R.CMD_HUBID F.CMD_HUBID_HID 15).checkWrites .spi
     [((R.CMD_HUBID : Nat), (0xFFF0 : Word))]).2.1), (((State.reset.setFld R.CMD_HUBID F.CMD_HUBID_HID 15).checkWrites
     .spi [((R.CMD_HUBID : Nat), (0xFFF0 : Word))]).2.2), by decide +kernel⟩,
   ⟨State.reset, (R.FLT_CTRL : Nat), (2 : Word), (Instr.registerWrite (R.FLT_CTRL : Nat) (2 : Word)),
     ((State.reset.checkWrites .spi [((R.FLT_CTRL : Nat), (2 : Word))]).2.1), ((State.reset.checkWrites .spi
     [((R.FLT_CTRL : Nat), (2 : Word))]).2.2), by decide +kernel⟩,
   ⟨(State.reset.setFld R.CMD_HUBID F.CMD_HUBID_HID 15), (0xFFF0 : Word), by decide +kernel⟩,
   ⟨State.reset, (0 : Word), by decide +kernel⟩,
   ⟨State.reset, (0xFF0 : Word), by decide +kernel⟩,
   ⟨State.reset, (5 : Word), ((State.reset.checkWrites .spi [(R.SPN_SET, (5 : Word))]).2.1), ((State.reset.checkWrites
     .spi [(R.SPN_SET, (5 : Word))]).2.2), by decide +kernel⟩,
   ⟨(State.reset.setHeld R.SPN_SET (some 5)), (Option.get ((State.reset.setHeld R.SPN_SET (some 5)).heldAt R.SPN_SET)
     (by decide +kernel)), (0 : Word), (((State.reset.setHeld R.SPN_SET (some 5)).checkWrites .spi [(R.SPN_SET_HI, (0
     : Word))]).2.1), (((State.reset.setHeld R.SPN_SET (some 5)).checkWrites .spi [(R.SPN_SET_HI, (0 : Word))]).2.2),
     by decide +kernel⟩,
   ⟨State.reset, by decide +kernel⟩,
   ⟨State.reset, (0x0002F004), by decide +kernel⟩,
   ⟨State.reset, (0x0002FFFC), by decide +kernel⟩,
   ⟨State.reset, (2), by decide +kernel⟩⟩

/-- The hypotheses of `Obligations.SnapshotRows` can be met, clause by clause. -/
theorem witness_snapshot_rows :
    (∃ (s : State), (s.awake = true) ∧ (s.spn.refclk = true) ∧ (s.flag R.SNAP_CTRL F.SNAP_CTRL_PIN_EN = true) ∧
      (s.flag R.SNAP_CTRL F.SNAP_CTRL_FWD = false) ∧ (s.snap.sched = []) ∧ (s.snap.running = none)) ∧
    (∃ (s : State) (v : Word), (s.awake = true) ∧ (v.toNat.testBit 0 = true) ∧ (v.toNat.testBit F.SNAP_CTRL_FWD.lo =
      false) ∧ (s.snap.sched = []) ∧ (s.snap.running = none)) ∧
    (∃ (s : State) (k : Fin 2) (m : Vc1Msg) (u : _), (s.awake = true) ∧ (s.takeVc1 k.val 0x11 m = (u, true)) ∧ (u.flag
      R.SNAP_CTRL F.SNAP_CTRL_RING_EN = true) ∧ (u.lt ≤ ltOp m.time) ∧ (u.snap.sched = []) ∧ (u.snap.running = none)) ∧
    (∃ (s : State) (r : _) (rest : _), (s.awake = true) ∧ (s.snap.sched = r :: rest) ∧ (s.spn.refclk = true) ∧
      (s.snap.running = none)) ∧
    (∃ (s : State) (r : _), (s.awake = true) ∧ (s.snap.running = some r)) ∧
    (∃ (s : State) (r : _), (s.awake = true) ∧ (s.snap.sched = [r])) ∧
    (∃ (s : State) (r : _), (s.awake = true) ∧ (s.snap.sched = []) ∧ (s.snap.running = some r)) ∧
    (∃ (s : State) (r : _) (time : _), (s.awake = true) ∧ (s.snap.sched = []) ∧ (s.snap.running = some r) ∧ (time ≠
      r.time) ∧ (near r.time time = true)) :=
  ⟨⟨(State.reset.setFlag R.SNAP_CTRL F.SNAP_CTRL_PIN_EN true), by decide +kernel⟩,
   ⟨State.reset, (1 : Word), by decide +kernel⟩,
   ⟨(State.reset.setFlag R.SNAP_CTRL F.SNAP_CTRL_RING_EN true), (0 : Fin 2), (⟨0, 0, 7, ⟨0, 5, 0⟩⟩ : Vc1Msg),
     (((State.reset.setFlag R.SNAP_CTRL F.SNAP_CTRL_RING_EN true).takeVc1 (0 : Fin 2).val 0x11 (⟨0, 0, 7, ⟨0, 5, 0⟩⟩ :
     Vc1Msg)).1), by decide +kernel⟩,
   ⟨({ State.reset with snap.sched := [⟨5, 1, false⟩] }), (List.head
     (({ State.reset with snap.sched := [⟨5, 1, false⟩] }).snap.sched) (by decide +kernel)), (List.tail
     (({ State.reset with snap.sched := [⟨5, 1, false⟩] }).snap.sched)), by decide +kernel⟩,
   ⟨({ State.reset with snap.running := some ⟨5, 1, false⟩ }), (Option.get
     (({ State.reset with snap.running := some ⟨5, 1, false⟩ }).snap.running) (by decide +kernel)), by decide +kernel⟩,
   ⟨({ State.reset with snap.sched := [⟨5, 1, false⟩] }), (List.head
     (({ State.reset with snap.sched := [⟨5, 1, false⟩] }).snap.sched) (by decide +kernel)), by decide +kernel⟩,
   ⟨({ State.reset with snap.running := some ⟨5, 1, false⟩ }), (Option.get
     (({ State.reset with snap.running := some ⟨5, 1, false⟩ }).snap.running) (by decide +kernel)), by decide +kernel⟩,
   ⟨({ State.reset with snap.running := some ⟨5, 1, false⟩ }), (Option.get
     (({ State.reset with snap.running := some ⟨5, 1, false⟩ }).snap.running) (by decide +kernel)), (6),
     by decide +kernel⟩⟩

/-- The hypotheses of `Obligations.ResetRows` can be met, clause by clause. -/
theorem witness_reset_rows :
    (∃ (s : State), (s.pwr.inReset = false)) ∧
    (∃ (s : State), (s.pwr.inReset = true)) ∧
    (∃ (s : State), (s.pwr.inReset = false ∨ s.pwr.resetN = true) ∧ (s.pwr.suppliesBad = [.vaon])) ∧
    (∃ (s : State), (s.pwr.inReset = true) ∧ (s.pwr.suppliesBad = [])) ∧
    (∃ (s : State), (s.pwr.suppliesBad ≠ [])) :=
  ⟨⟨State.reset, by decide +kernel⟩,
   ⟨({ State.reset with pwr.inReset := true }), by decide +kernel⟩,
   ⟨({ State.reset with pwr.inReset := true, pwr.resetN := true, pwr.suppliesBad := [.vaon] }), by decide +kernel⟩,
   ⟨({ State.reset with pwr.inReset := true }), by decide +kernel⟩,
   ⟨({ State.reset with pwr.inReset := true, pwr.suppliesBad := [.io] }), by decide +kernel⟩⟩

/-- The hypotheses of `Obligations.WakeRows` can be met, clause by clause. -/
theorem witness_wake_rows :
    (∃ (s : State) (g : Fin 8) (uv : Word), (s.pwr.hush = true) ∧ (s.pwr.wakeCause = 0) ∧ (s.wakeBit (24 + g.val) =
      true) ∧ (1000 * s.watchThr g.val < uv.toNat)) ∧
    (∃ (s : State), (s.pwr.hush = true) ∧ (s.pwr.wakeCause = 0) ∧ (s.wakeBit 8 = true)) ∧
    (∃ (s : State), (s.pwr.hush = true) ∧ (s.pwr.wakeCause = 0) ∧ (s.wakeBit 9 = true) ∧ (s.pwr.xt32 = false)) :=
  ⟨⟨({ State.reset with pwr.hush := true, pwr.bank1 := [0, 2 ^ 31] }), (7 : Fin 8), (1001 : Word), by decide +kernel⟩,
   ⟨({ State.reset with pwr.hush := true, pwr.bank1 := [0, 256] }), by decide +kernel⟩,
   ⟨({ State.reset with pwr.hush := true, pwr.bank1 := [0, 512] }), by decide +kernel⟩⟩

/-- The hypotheses of `Obligations.SupplyRows` can be met, clause by clause. -/
theorem witness_supply_rows :
    (∃ (s : State) (sup : _) (mv : Fin 65536), (s.awake = true) ∧ (mv.val * 1000 < supNominal sup * 920)) ∧
    (∃ (s : State) (sup : _) (mv : Fin 65536), (s.awake = true) ∧ (supNominal sup * 965 ≤ mv.val * 1000)) ∧
    (∃ (s : State) (sup : _) (mv : Fin 65536), (s.awake = true) ∧ (supNominal sup * 950 ≤ mv.val * 1000) ∧ (mv.val *
      1000 < supNominal sup * 965) ∧ (s.supBad (supBit sup) = false) ∧ ((supSource sup).2.2.any (fun b => s.supBad b)
      = false)) ∧
    (∃ (s : State) (sup : _) (mv : Fin 65536), (s.awake = true) ∧ (supNominal sup * 920 ≤ mv.val * 1000) ∧ (mv.val *
      1000 < supNominal sup * 950)) ∧
    (∃ (s : State) (sup : _), (s.awake = true) ∧ (s.supBad (supBit sup) = true) ∧ ((supSource sup).2.2.any (fun b =>
      (s.setSup (supBit sup) false).supBad b) = false)) ∧
    (∃ (s : State) (mv : Fin 65536), (s.awake = true) ∧ (mv.val < 570)) ∧
    (∃ (s : State) (mv : Fin 65536), (s.awake = true) ∧ (570 ≤ mv.val)) ∧
    (∃ (s : State) (d : Fin 5), (s.awake = true) ∧ (d.val < 4)) ∧
    (∃ (s : State), (s.awake = true)) :=
  ⟨⟨State.reset, (.core), (919 : Fin 65536), by decide +kernel⟩,
   ⟨State.reset, (.core), (965 : Fin 65536), by decide +kernel⟩,
   ⟨State.reset, (.core), (950 : Fin 65536), by decide +kernel⟩,
   ⟨State.reset, (.core), (949 : Fin 65536), by decide +kernel⟩,
   ⟨(State.reset.setSup 0 true), (.core), by decide +kernel⟩,
   ⟨State.reset, (569 : Fin 65536), by decide +kernel⟩,
   ⟨State.reset, (570 : Fin 65536), by decide +kernel⟩,
   ⟨State.reset, (3 : Fin 5), by decide +kernel⟩,
   ⟨State.reset, by decide +kernel⟩⟩

/-- The hypotheses of `Obligations.PowerRequestRows` can be met, clause by clause. -/
theorem witness_power_request_rows :
    (∃ (s : State) (v : Word) (k : _) (c : _), (s.awake = true) ∧ (bitsOf v.toNat 9 8 = k) ∧ (k = 1 ∨ (k = 2 ∧ bitsOf
      v.toNat 1 0 ≤ 2)) ∧ (c ∈ [Instr.pwrReqLevel v, .pwrReqMode v]) ∧ (s.pwr.change.isSome = true)) ∧
    (∃ (s : State) (v : Word) (k : _) (c : _), (s.awake = true) ∧ (bitsOf v.toNat 9 8 = k) ∧ (k = 1 ∨ (k = 2 ∧ bitsOf
      v.toNat 1 0 ≤ 2)) ∧ (c ∈ [Instr.pwrReqLevel v, .pwrReqMode v]) ∧ (s.pwr.change = none) ∧ ((s.writeFlds R.PWR_REQ
      pwrReqFlds v).powerIs k (bitsOf v.toNat 1 0) = true)) ∧
    (∃ (s : State) (v : Word) (k : _) (c : _) (cause : _), (s.awake = true) ∧ (bitsOf v.toNat 9 8 = k) ∧ (k = 1 ∨ (k =
      2 ∧ bitsOf v.toNat 1 0 ≤ 2)) ∧ (c ∈ [Instr.pwrReqLevel v, .pwrReqMode v]) ∧ (s.pwr.change = none) ∧
      ((s.writeFlds R.PWR_REQ pwrReqFlds v).powerIs k (bitsOf v.toNat 1 0) = false) ∧ ((s.writeFlds R.PWR_REQ
      pwrReqFlds v).powerCause k (bitsOf v.toNat 1 0) = some cause)) ∧
    (∃ (s : State) (v : Word) (k : _) (c : _), (s.awake = true) ∧ (bitsOf v.toNat 9 8 = k) ∧ (k = 1 ∨ (k = 2 ∧ bitsOf
      v.toNat 1 0 ≤ 2)) ∧ (c ∈ [Instr.pwrReqLevel v, .pwrReqMode v]) ∧ (s.pwr.change = none) ∧ ((s.writeFlds R.PWR_REQ
      pwrReqFlds v).powerIs k (bitsOf v.toNat 1 0) = false) ∧ ((s.writeFlds R.PWR_REQ pwrReqFlds v).powerCause k
      (bitsOf v.toNat 1 0) = none)) :=
  ⟨⟨({ State.reset with pwr.change := some ⟨1, 2, 2, 0, false⟩ }), (0x101 : Word), (bitsOf (0x101 : Word).toNat 9 8),
     (Instr.pwrReqLevel (0x101 : Word)), by decide +kernel⟩,
   ⟨State.reset, (0x100 : Word), (bitsOf (0x100 : Word).toNat 9 8), (Instr.pwrReqLevel (0x100 : Word)),
     by decide +kernel⟩,
   ⟨({ State.reset with pwr.doze := true }), (0x101 : Word), (bitsOf (0x101 : Word).toNat 9 8), (Instr.pwrReqLevel
     (0x101 : Word)), (Option.get ((({ State.reset with pwr.doze := true }).writeFlds R.PWR_REQ pwrReqFlds (0x101 :
     Word)).powerCause (bitsOf (0x101 : Word).toNat 9 8) (bitsOf (0x101 : Word).toNat 1 0)) (by decide +kernel)),
     by decide +kernel⟩,
   ⟨State.reset, (0x101 : Word), (bitsOf (0x101 : Word).toNat 9 8), (Instr.pwrReqLevel (0x101 : Word)),
     by decide +kernel⟩⟩

/-- The hypotheses of `Obligations.PowerChangeRows` can be met, clause by clause. -/
theorem witness_power_change_rows :
    (∃ (s : State) (c : _), (s.awake = true) ∧ (s.pwr.change = some c) ∧ (c.kind = 1) ∧ (s.pwr.waiting = none)) ∧
    (∃ (s : State) (c : PwrChange), (s.awake = true) ∧ (s.pwr.change = some c) ∧ (c.kind = 2) ∧ (c.value = 1) ∧
      (s.pwr.waiting = none)) ∧
    (∃ (s : State) (c : PwrChange), (s.awake = true) ∧ (s.pwr.change = some c) ∧ (c.kind = 2) ∧ (c.value = 0) ∧
      (s.pwr.waiting = none)) ∧
    (∃ (s : State) (c : PwrChange) (kind : Nat) (value : Nat) (entry : Nat) (u : State) (v : State), (s.awake = true)
      ∧ (s.pwr.change = some c) ∧ (¬(c.kind = 2 ∧ c.value = 2)) ∧ (s.pwr.waiting = some (kind, value, entry)) ∧ (u =
      s.powerReached c) ∧ (v = ((({ u with pwr := { u.pwr with waiting := none } }).setFlag R.PWR_STAT
      F.PWR_STAT_PENDV false).setFlag R.PWR_STAT F.PWR_STAT_PKIND false).setFld R.PWR_STAT F.PWR_STAT_PVAL 0) ∧
      (v.powerIs kind value = true)) ∧
    (∃ (s : State) (c : PwrChange) (kind : Nat) (value : Nat) (entry : Nat) (u : State) (v : State) (cause : Nat),
      (s.awake = true) ∧ (s.pwr.change = some c) ∧ (¬(c.kind = 2 ∧ c.value = 2)) ∧ (s.pwr.waiting = some (kind, value,
      entry)) ∧ (u = s.powerReached c) ∧ (v = ((({ u with pwr := { u.pwr with waiting := none } }).setFlag R.PWR_STAT
      F.PWR_STAT_PENDV false).setFlag R.PWR_STAT F.PWR_STAT_PKIND false).setFld R.PWR_STAT F.PWR_STAT_PVAL 0) ∧
      (v.powerIs kind value = false) ∧ (v.powerCause kind value = some cause)) ∧
    (∃ (s : State) (c : PwrChange) (kind : Nat) (value : Nat) (entry : Nat) (u : State) (v : State), (s.awake = true)
      ∧ (s.pwr.change = some c) ∧ (¬(c.kind = 2 ∧ c.value = 2)) ∧ (s.pwr.waiting = some (kind, value, entry)) ∧ (u =
      s.powerReached c) ∧ (v = ((({ u with pwr := { u.pwr with waiting := none } }).setFlag R.PWR_STAT
      F.PWR_STAT_PENDV false).setFlag R.PWR_STAT F.PWR_STAT_PKIND false).setFld R.PWR_STAT F.PWR_STAT_PVAL 0) ∧
      (v.powerIs kind value = false) ∧ (v.powerCause kind value = none)) ∧
    (∃ (s : State) (c : _), (s.awake = true) ∧ (s.pwr.change = some c) ∧ (c.kind = 2) ∧ (c.value = 2) ∧
      (s.pwr.wakeCause = 0)) ∧
    (∃ (s : State) (c : _), (s.awake = true) ∧ (s.pwr.change = some c) ∧ (c.late = false)) ∧
    (∃ (s : State) (c : Fin 48) (p : _), (s.awake = true) ∧ (s.pwr.powering.find? (fun p => decide (p.1 = c.val)) =
      some p)) ∧
    (∃ (s : State), (s.awake = true) ∧ (s.flt.started = true)) ∧
    (∃ (s : State), (s.awake = true) ∧ (s.flt.started = false) ∧ (s.pwr.cause ≠ 8) ∧ (s.fld R.PWR_WREC
      F.PWR_WREC_WRSTAT = 0)) :=
  ⟨⟨({ State.reset with pwr.change := some ⟨1, 3, 2, 0, false⟩ }), (Option.get
     (({ State.reset with pwr.change := some ⟨1, 3, 2, 0, false⟩ }).pwr.change) (by decide +kernel)),
     by decide +kernel⟩,
   ⟨({ State.reset with pwr.change := some ⟨2, 1, 0, 0, false⟩ }), (⟨2, 1, 0, 0, false⟩ : PwrChange),
     by decide +kernel⟩,
   ⟨({ State.reset with pwr.change := some ⟨2, 0, 0, 0, false⟩ }), (⟨2, 0, 0, 0, false⟩ : PwrChange),
     by decide +kernel⟩,
   ⟨(powerWaits 2 0 State.reset), (⟨2, 0, 0, 0, false⟩ : PwrChange), (2 : Nat), (0 : Nat), (0 : Nat), ((powerWaits 2 0
     State.reset).powerReached (⟨2, 0, 0, 0, false⟩ : PwrChange)), (((({ ((powerWaits 2 0 State.reset).powerReached
     (⟨2, 0, 0, 0, false⟩ : PwrChange)) with pwr :=
     { ((powerWaits 2 0 State.reset).powerReached (⟨2, 0, 0, 0, false⟩ : PwrChange)).pwr with waiting := none }
     }).setFlag R.PWR_STAT F.PWR_STAT_PENDV false).setFlag R.PWR_STAT F.PWR_STAT_PKIND false).setFld R.PWR_STAT
     F.PWR_STAT_PVAL 0), by decide +kernel⟩,
   ⟨(powerWaits 2 2 ((diesUp State.reset).setRgState 7 rgConverting)), (⟨2, 0, 0, 0, false⟩ : PwrChange), (2 : Nat),
     (2 : Nat), (0 : Nat), ((powerWaits 2 2 ((diesUp State.reset).setRgState 7 rgConverting)).powerReached (⟨2, 0, 0,
     0, false⟩ : PwrChange)), (((({ ((powerWaits 2 2 ((diesUp State.reset).setRgState 7 rgConverting)).powerReached
     (⟨2, 0, 0, 0, false⟩ : PwrChange)) with pwr := { ((powerWaits 2 2 ((diesUp State.reset).setRgState 7
     rgConverting)).powerReached (⟨2, 0, 0, 0, false⟩ : PwrChange)).pwr with waiting := none } }).setFlag R.PWR_STAT
     F.PWR_STAT_PENDV false).setFlag R.PWR_STAT F.PWR_STAT_PKIND false).setFld R.PWR_STAT F.PWR_STAT_PVAL 0),
     (Option.get ((((({ ((powerWaits 2 2 ((diesUp State.reset).setRgState 7 rgConverting)).powerReached (⟨2, 0, 0, 0,
     false⟩ : PwrChange)) with pwr := { ((powerWaits 2 2 ((diesUp State.reset).setRgState 7
     rgConverting)).powerReached (⟨2, 0, 0, 0, false⟩ : PwrChange)).pwr with waiting := none } }).setFlag R.PWR_STAT
     F.PWR_STAT_PENDV false).setFlag R.PWR_STAT F.PWR_STAT_PKIND false).setFld R.PWR_STAT F.PWR_STAT_PVAL
     0).powerCause (2 : Nat) (2 : Nat)) (by decide +kernel)), by decide +kernel⟩,
   ⟨(powerWaits 2 1 State.reset), (⟨2, 0, 0, 0, false⟩ : PwrChange), (2 : Nat), (1 : Nat), (0 : Nat), ((powerWaits 2 1
     State.reset).powerReached (⟨2, 0, 0, 0, false⟩ : PwrChange)), (((({ ((powerWaits 2 1 State.reset).powerReached
     (⟨2, 0, 0, 0, false⟩ : PwrChange)) with pwr :=
     { ((powerWaits 2 1 State.reset).powerReached (⟨2, 0, 0, 0, false⟩ : PwrChange)).pwr with waiting := none }
     }).setFlag R.PWR_STAT F.PWR_STAT_PENDV false).setFlag R.PWR_STAT F.PWR_STAT_PKIND false).setFld R.PWR_STAT
     F.PWR_STAT_PVAL 0), by decide +kernel⟩,
   ⟨({ State.reset with pwr.change := some ⟨2, 2, 2, 0, false⟩ }), (Option.get
     (({ State.reset with pwr.change := some ⟨2, 2, 2, 0, false⟩ }).pwr.change) (by decide +kernel)),
     by decide +kernel⟩,
   ⟨({ State.reset with pwr.change := some ⟨2, 2, 2, 0, false⟩ }), (Option.get
     (({ State.reset with pwr.change := some ⟨2, 2, 2, 0, false⟩ }).pwr.change) (by decide +kernel)),
     by decide +kernel⟩,
   ⟨({ State.reset with pwr.powering := [(47, 5)] }), (47 : Fin 48), ((47, 5)), by decide +kernel⟩,
   ⟨(headstockUp State.reset), by decide +kernel⟩,
   ⟨State.reset, by decide +kernel⟩⟩

/-- The hypotheses of `Obligations.DieLinkWordRows` can be met, clause by clause. -/
theorem witness_die_link_word_rows :
    (∃ (s : State) (d : Fin 4) (crc : Fin 256) (p : BitVec 64), (s.awake = true) ∧ (s.dieUp d.val = true) ∧ (s.dieGood
      d.val 0x3F p.toNat crc.val = true)) ∧
    (∃ (s : State) (d : Fin 4) (typ : Fin 256) (crc : Fin 256) (p : BitVec 64), (s.awake = true) ∧ (s.dieUp d.val =
      true) ∧ (s.dieGood d.val typ.val p.toNat crc.val = true) ∧ (typ.val ≠ 0x3F)) ∧
    (∃ (s : State) (d : Fin 4) (typ : Fin 256) (crc : Fin 256) (p : BitVec 64), (s.awake = true) ∧ (s.dieUp d.val =
      true) ∧ (s.dieGood d.val typ.val p.toNat crc.val = false) ∧ (s.dieBehind d.val typ.val p.toNat crc.val = false)
      ∧ ((s.dl d.val).fails < 7)) ∧
    (∃ (s : State) (d : Fin 4) (typ : Fin 256) (crc : Fin 256) (p : BitVec 64), (s.awake = true) ∧ (s.dieUp d.val =
      true) ∧ (s.dieGood d.val typ.val p.toNat crc.val = false) ∧ (s.dieBehind d.val typ.val p.toNat crc.val = false)
      ∧ (7 ≤ (s.dl d.val).fails)) ∧
    (∃ (s : State) (d : Fin 4) (typ : Fin 256) (crc : Fin 256) (p : BitVec 64), (s.awake = true) ∧ (s.dieUp d.val =
      true) ∧ (s.dieGood d.val typ.val p.toNat crc.val = false) ∧ (s.dieBehind d.val typ.val p.toNat crc.val = true)) ∧
    (∃ (s : State) (d : Fin 4) (seq : Fin 256) (crc : Fin 256) (n : _), (s.awake = true) ∧ (s.dieUp d.val = true) ∧
      (s.dieGood d.val 0x22 seq.val crc.val = true) ∧ (n = (if (s.dl d.val).nakSeq = seq.val then (s.dl
      d.val).attempts + 1 else 1)) ∧ (n < 8)) ∧
    (∃ (s : State) (d : Fin 4) (seq : Fin 256) (crc : Fin 256) (n : _), (s.awake = true) ∧ (s.dieUp d.val = true) ∧
      (s.dieGood d.val 0x22 seq.val crc.val = true) ∧ (n = (if (s.dl d.val).nakSeq = seq.val then (s.dl
      d.val).attempts + 1 else 1)) ∧ (8 ≤ n)) ∧
    (∃ (s : State) (d : Fin 4) (seq : Fin 256) (crc : Fin 256), (s.awake = true) ∧ (s.dieUp d.val = true) ∧ (s.dieGood
      d.val 0x21 seq.val crc.val = true)) ∧
    (∃ (s : State) (d : Fin 4), (s.awake = true) ∧ (s.flag (R.DLK_STAT d.val) F.DLK_STAT_UP = false)) ∧
    (∃ (s : State), (s.awake = true) ∧ (s.spn.refclk = true)) ∧
    (∃ (s : State) (d : _) (typ : _), (s.awake = true) ∧ (s.dieUp d = true) ∧ (typ ≠ 0x21) ∧ (typ ≠ 0x22) ∧ (typ ≠
      0x3F)) :=
  ⟨⟨((diesUp State.reset).setDl 0 { DieLink.init with discarding := true, fails := 3 }), (0 : Fin 4), (crcOf 0 0x3F 0
     : Fin 256), (0 : BitVec 64), by decide +kernel⟩,
   ⟨(diesUp State.reset), (0 : Fin 4), (0x01 : Fin 256), (crcOf 0 1 0 : Fin 256), (0 : BitVec 64), by decide +kernel⟩,
   ⟨((diesUp State.reset).setDl 0 { DieLink.init with fails := 6 }), (0 : Fin 4), (0x01 : Fin 256), (crcOf 0 1 0 + 1 :
     Fin 256), (0 : BitVec 64), by decide +kernel⟩,
   ⟨((diesUp State.reset).setDl 0 { DieLink.init with fails := 7 }), (0 : Fin 4), (0x01 : Fin 256), (crcOf 0 1 0 + 1 :
     Fin 256), (0 : BitVec 64), by decide +kernel⟩,
   ⟨((diesUp State.reset).setDl 0 { DieLink.init with discarding := true }), (0 : Fin 4), (0x01 : Fin 256), (crcOf 1 1
     0 : Fin 256), (0 : BitVec 64), by decide +kernel⟩,
   ⟨((diesUp State.reset).setDl 0 { DieLink.init with nakSeq := 0, attempts := 6, txSeq := 1, replay := [(16, 1)] }),
     (0 : Fin 4), (0 : Fin 256), (crcOf 0 0x22 0 : Fin 256), ((if (((diesUp State.reset).setDl 0
     { DieLink.init with nakSeq := 0, attempts := 6, txSeq := 1, replay := [(16, 1)] }).dl (0 : Fin 4).val).nakSeq =
     (0 : Fin 256).val then (((diesUp State.reset).setDl 0
     { DieLink.init with nakSeq := 0, attempts := 6, txSeq := 1, replay := [(16, 1)] }).dl (0 : Fin 4).val).attempts +
     1 else 1)), by decide +kernel⟩,
   ⟨((diesUp State.reset).setDl 0 { DieLink.init with nakSeq := 0, attempts := 7 }), (0 : Fin 4), (0 : Fin 256),
     (crcOf 0 0x22 0 : Fin 256), ((if (((diesUp State.reset).setDl 0
     { DieLink.init with nakSeq := 0, attempts := 7 }).dl (0 : Fin 4).val).nakSeq = (0 : Fin 256).val then (((diesUp
     State.reset).setDl 0 { DieLink.init with nakSeq := 0, attempts := 7 }).dl (0 : Fin 4).val).attempts + 1 else 1)),
     by decide +kernel⟩,
   ⟨((diesUp State.reset).setDl 0 { DieLink.init with txSeq := 1, replay := [(16, 1)] }), (0 : Fin 4), (0 : Fin 256),
     (crcOf 0 0x21 0 : Fin 256), by decide +kernel⟩,
   ⟨State.reset, (0 : Fin 4), by decide +kernel⟩,
   ⟨State.reset, by decide +kernel⟩,
   ⟨(diesUp State.reset), (3), (0x30), by decide +kernel⟩⟩

/-- The hypotheses of `Obligations.DieLinkStateRows` can be met, clause by clause. -/
theorem witness_die_link_state_rows :
    (∃ (s : State) (d : Fin 4) (u : State), (s.awake = true) ∧ (s.flag (R.DLK_STAT d.val) F.DLK_STAT_UP = true) ∧ (u =
      ((s.dieFreeze d.val).setFlag (R.DLK_STAT d.val) F.DLK_STAT_UP false).bump (R.DLK_STAT d.val)
      F.DLK_STAT_DOWNCNT)) ∧
    (∃ (s : State) (d : Fin 4) (u : State), (s.awake = true) ∧ (s.flag (R.DLK_STAT d.val) F.DLK_STAT_UP = true) ∧ (u =
      ((s.dieFreeze d.val).setFlag (R.DLK_STAT d.val) F.DLK_STAT_UP false).bump (R.DLK_STAT d.val) F.DLK_STAT_DOWNCNT)
      ∧ (s.spn.refclk = true)) ∧
    (∃ (s : State) (d : Fin 4) (u : State), (s.awake = true) ∧ (s.flag (R.DLK_STAT d.val) F.DLK_STAT_UP = true) ∧ (u =
      ((s.dieFreeze d.val).setFlag (R.DLK_STAT d.val) F.DLK_STAT_UP false).bump (R.DLK_STAT d.val) F.DLK_STAT_DOWNCNT)
      ∧ (s.spn.refclk = false)) ∧
    (∃ (s : State) (d : Fin 4) (u : State) (g : Nat), (s.awake = true) ∧ (s.flag (R.DLK_STAT d.val) F.DLK_STAT_UP =
      true) ∧ (u = ((s.dieFreeze d.val).setFlag (R.DLK_STAT d.val) F.DLK_STAT_UP false).bump (R.DLK_STAT d.val)
      F.DLK_STAT_DOWNCNT) ∧ (g < 2) ∧ ((s.rg (2 * d.val)).lag = []) ∧ ((s.rg (2 * d.val + 1)).lag = [])) ∧
    (∃ (s : State) (d : Fin 4) (u : State) (a : Nat), (s.awake = true) ∧ (s.flag (R.DLK_STAT d.val) F.DLK_STAT_UP =
      true) ∧ (u = ((s.dieFreeze d.val).setFlag (R.DLK_STAT d.val) F.DLK_STAT_UP false).bump (R.DLK_STAT d.val)
      F.DLK_STAT_DOWNCNT) ∧ (feAddr d.val a = true) ∧ ((s.dieDerived d.val ++ (s.rg (2 * d.val)).lag ++ (s.rg (2 *
      d.val + 1)).lag).all (fun p => decide (p.1 ≠ a)) = true)) ∧
    (∃ (s : State) (d : Fin 4), (s.awake = true) ∧ (s.spn.refclk = true) ∧ (s.flag (R.DLK_STAT d.val) F.DLK_STAT_UP =
      false)) ∧
    (∃ (s : State) (d : Fin 4) (u : State), (s.awake = true) ∧ (s.spn.refclk = true) ∧ (s.flag (R.DLK_STAT d.val)
      F.DLK_STAT_UP = false) ∧ (u = (((s.setFlag (R.DLK_STAT d.val) F.DLK_STAT_UP true).setDl d.val { s.dl d.val with
      everUp := true, txSeq := 0, rxSeq := 1, discarding := false, fails := 0, attempts := 0, replay := [], acked :=
      0, queued := [], toFe := [], shadow := [] }).setFlag (R.DLK_STAT d.val) F.DLK_STAT_RESTART true).dieRestart
      d.val)) ∧
    (∃ (s : State) (d : Fin 4) (a : _) (v : Word) (crc : Fin 256), (s.awake = true) ∧ (s.dieUp d.val = true) ∧
      (s.dieGood d.val 0x04 (a * 2 ^ 32 + v.toNat) crc.val = true) ∧ (a ∈ (s.dl d.val).reads)) ∧
    (∃ (s : State) (d : Fin 4) (p : BitVec 64) (crc : Fin 256) (g : _) (u : _), (s.awake = true) ∧ (s.dieUp d.val =
      true) ∧ (s.dieGood d.val 0x02 p.toNat crc.val = true) ∧ (g = 2 * d.val + bitsOf p.toNat 59 59) ∧ (u = (s.dieTake
      d.val 0x02).shownNow g (eventRegs g (bitsOf p.toNat 55 48))) ∧ ((u.rg g).events.find? (fun e => decide (e.1 =
      p.toNat)) = none)) ∧
    (∃ (s : State) (d : Fin 4) (p : BitVec 64) (crc : Fin 256) (g : _) (u : _) (e : _), (s.awake = true) ∧ (s.dieUp
      d.val = true) ∧ (s.dieGood d.val 0x02 p.toNat crc.val = true) ∧ (g = 2 * d.val + bitsOf p.toNat 59 59) ∧ (u =
      (s.dieTake d.val 0x02).shownNow g (eventRegs g (bitsOf p.toNat 55 48))) ∧ ((u.rg g).events.find? (fun e =>
      decide (e.1 = p.toNat)) = some e)) ∧
    (∃ (s : State) (d : Fin 4) (p : BitVec 64) (crc : Fin 256), (s.awake = true) ∧ (s.dieUp d.val = true) ∧ (s.dieGood
      d.val 0x03 p.toNat crc.val = true)) ∧
    (∃ (s : State) (d : Fin 4) (typ : Nat) (p : BitVec 64) (crc : Fin 256) (c : Instr), (s.awake = true) ∧ ((typ =
      0x02 ∧ c = .sequencerEventWord d ⟨p, crc⟩) ∨ (typ = 0x03 ∧ c = .faultReportWord d ⟨p, crc⟩)) ∧ (s.dieUp d.val =
      true) ∧ (s.dieGood d.val typ p.toNat crc.val = false)) ∧
    (∃ (s : State) (d : Fin 4) (typ : Nat) (p : BitVec 64) (crc : Fin 256) (c : Instr), (s.awake = true) ∧ ((typ =
      0x02 ∧ c = .sequencerEventWord d ⟨p, crc⟩) ∨ (typ = 0x03 ∧ c = .faultReportWord d ⟨p, crc⟩)) ∧ (s.dieUp d.val =
      false)) :=
  ⟨⟨(diesUp State.reset), (0 : Fin 4), ((((diesUp State.reset).dieFreeze (0 : Fin 4).val).setFlag (R.DLK_STAT (0 : Fin
     4).val) F.DLK_STAT_UP false).bump (R.DLK_STAT (0 : Fin 4).val) F.DLK_STAT_DOWNCNT), by decide +kernel⟩,
   ⟨(diesUp State.reset), (0 : Fin 4), ((((diesUp State.reset).dieFreeze (0 : Fin 4).val).setFlag (R.DLK_STAT (0 : Fin
     4).val) F.DLK_STAT_UP false).bump (R.DLK_STAT (0 : Fin 4).val) F.DLK_STAT_DOWNCNT), by decide +kernel⟩,
   ⟨({ diesUp State.reset with spn.refclk := false }), (3 : Fin 4),
     (((({ diesUp State.reset with spn.refclk := false }).dieFreeze (3 : Fin 4).val).setFlag (R.DLK_STAT (3 : Fin
     4).val) F.DLK_STAT_UP false).bump (R.DLK_STAT (3 : Fin 4).val) F.DLK_STAT_DOWNCNT), by decide +kernel⟩,
   ⟨(diesUp State.reset), (3 : Fin 4), ((((diesUp State.reset).dieFreeze (3 : Fin 4).val).setFlag (R.DLK_STAT (3 : Fin
     4).val) F.DLK_STAT_UP false).bump (R.DLK_STAT (3 : Fin 4).val) F.DLK_STAT_DOWNCNT), (1 : Nat), by decide +kernel⟩,
   ⟨(diesUp State.reset), (0 : Fin 4), ((((diesUp State.reset).dieFreeze (0 : Fin 4).val).setFlag (R.DLK_STAT (0 : Fin
     4).val) F.DLK_STAT_UP false).bump (R.DLK_STAT (0 : Fin 4).val) F.DLK_STAT_DOWNCNT), (R.RGN_WIN 0 : Nat),
     by decide +kernel⟩,
   ⟨State.reset, (0 : Fin 4), by decide +kernel⟩,
   ⟨State.reset, (3 : Fin 4), (((((State.reset.setFlag (R.DLK_STAT 3) F.DLK_STAT_UP true).setDl 3 { State.reset.dl 3
     with everUp := true, txSeq := 0, rxSeq := 1, discarding := false, attempts := 0, replay := [], acked := 0, queued
     := [] }).setFlag (R.DLK_STAT 3) F.DLK_STAT_RESTART true).dieRestart 3) : State), ⟨by decide +kernel,
     by decide +kernel, by decide +kernel, rfl⟩⟩,
   ⟨((diesUp State.reset).setDl 1 { DieLink.init with reads := [0x01400004] }), (1 : Fin 4), (0x01400004), (7 : Word),
     (crcOf 0 4 (0x01400004 * 2 ^ 32 + 7) : Fin 256), by decide +kernel⟩,
   ⟨(diesUp State.reset), (3 : Fin 4), (2 ^ 59 : BitVec 64), (crcOf 0 2 (2 ^ 59) : Fin 256), (2 * (3 : Fin 4).val +
     bitsOf (2 ^ 59 : BitVec 64).toNat 59 59), (((diesUp State.reset).dieTake (3 : Fin 4).val 0x02).shownNow (2 * (3 :
     Fin 4).val + bitsOf (2 ^ 59 : BitVec 64).toNat 59 59) (eventRegs (2 * (3 : Fin 4).val + bitsOf (2 ^ 59 : BitVec
     64).toNat 59 59) (bitsOf (2 ^ 59 : BitVec 64).toNat 55 48))), by decide +kernel⟩,
   ⟨((diesUp State.reset).setRg 1 { RegionState.init with events := [(2 ^ 59, 7)] }), (0 : Fin 4), (2 ^ 59 : BitVec
     64), (crcOf 0 2 (2 ^ 59) : Fin 256), (2 * (0 : Fin 4).val + bitsOf (2 ^ 59 : BitVec 64).toNat 59 59), ((((diesUp
     State.reset).setRg 1 { RegionState.init with events := [(2 ^ 59, 7)] }).dieTake (0 : Fin 4).val 0x02).shownNow (2
     * (0 : Fin 4).val + bitsOf (2 ^ 59 : BitVec 64).toNat 59 59) (eventRegs (2 * (0 : Fin 4).val + bitsOf (2 ^ 59 :
     BitVec 64).toNat 59 59) (bitsOf (2 ^ 59 : BitVec 64).toNat 55 48))), ((2 ^ 59, 7)), by decide +kernel⟩,
   ⟨(diesUp State.reset), (0 : Fin 4), (0 : BitVec 64), (crcOf 0 3 0 : Fin 256), by decide +kernel⟩,
   ⟨(diesUp State.reset), (0 : Fin 4), (3 : Nat), (0 : BitVec 64), (crcOf 0 3 0 + 1 : Fin 256), (.faultReportWord 0
     ⟨0, crcOf 0 3 0 + 1⟩ : Instr), by decide +kernel⟩,
   ⟨State.reset, (0 : Fin 4), (3 : Nat), (0 : BitVec 64), (0 : Fin 256), (.faultReportWord 0 ⟨0, 0⟩ : Instr),
     by decide +kernel⟩⟩

/-- The hypotheses of `Obligations.RegionRows` can be met, clause by clause. -/
theorem witness_region_rows :
    (∃ (s : State) (g : Fin 8) (v : Word) (d : Nat) (c : _), (s.awake = true) ∧ (d = dieOf g.val) ∧ (s.spn.refclk =
      true) ∧ (c ∈ [Instr.rgnCtrlStart g v, .rgnCtrlStop g v])) ∧
    (∃ (s : State) (g : Fin 8) (v : Word) (d : Nat) (c : _), (s.awake = true) ∧ (d = dieOf g.val) ∧ (s.spn.refclk =
      false) ∧ (c ∈ [Instr.rgnCtrlStart g v, .rgnCtrlStop g v])) ∧
    (∃ (s : State) (g : Fin 8) (d : Nat), (s.awake = true) ∧ (d = dieOf g.val) ∧ (s.spn.refclk = false) ∧ (s.rgMains
      g.val = false) ∧ (lenOk (s.rgLen g.val) = true) ∧ (s.flag (R.RGN_CTRL g.val) F.RGN_CTRL_WHEN = false)) ∧
    (∃ (s : State) (g : Fin 8) (v : Word) (d : Nat) (w : State) (u : State), (s.awake = true) ∧ (d = dieOf g.val) ∧
      (s.dieUp d = true) ∧ ((s.dl d).toFe = []) ∧ (w = s.writeFe (R.RGN_CTRL g.val) rgnCtrlFlds v) ∧ (u = (w.setDl d
      { w.dl d with toFe := [] }).setRg g.val { w.rg g.val with afterStep := false }) ∧ (v.toNat.testBit 1 = false) ∧
      (v.toNat.testBit 0 = true) ∧ (s.rgState g.val = rgStopped) ∧ (s.spn.stepUntil ≤ s.lt) ∧ (u.rgnStartCause g.val =
      none)) ∧
    (∃ (s : State) (g : Fin 8) (v : Word) (d : Nat) (w : State) (u : State) (cause : _), (s.awake = true) ∧ (d = dieOf
      g.val) ∧ (s.dieUp d = true) ∧ ((s.dl d).toFe = []) ∧ (w = s.writeFe (R.RGN_CTRL g.val) rgnCtrlFlds v) ∧ (u =
      (w.setDl d { w.dl d with toFe := [] }).setRg g.val { w.rg g.val with afterStep := false }) ∧ (v.toNat.testBit 1
      = false) ∧ (v.toNat.testBit 0 = true) ∧ (s.rgState g.val = rgStopped) ∧ (s.spn.stepUntil ≤ s.lt) ∧
      (u.rgnStartCause g.val = some cause)) ∧
    (∃ (s : State) (g : Fin 8) (v : Word) (d : Nat) (w : State) (u : State), (s.awake = true) ∧ (d = dieOf g.val) ∧
      (s.dieUp d = true) ∧ ((s.dl d).toFe = []) ∧ (w = s.writeFe (R.RGN_CTRL g.val) rgnCtrlFlds v) ∧ (u = (w.setDl d
      { w.dl d with toFe := [] }).setRg g.val { w.rg g.val with afterStep := false }) ∧ (v.toNat.testBit 1 = false) ∧
      (v.toNat.testBit 0 = true) ∧ (s.rgState g.val = rgStopped) ∧ (s.lt < s.spn.stepUntil)) ∧
    (∃ (s : State) (g : Fin 8) (v : Word) (d : Nat) (w : State) (u : State), (s.awake = true) ∧ (d = dieOf g.val) ∧
      (s.dieUp d = true) ∧ ((s.dl d).toFe = []) ∧ (w = s.writeFe (R.RGN_CTRL g.val) rgnCtrlFlds v) ∧ (u = (w.setDl d
      { w.dl d with toFe := [] }).setRg g.val { w.rg g.val with afterStep := false }) ∧ (v.toNat.testBit 1 = true) ∧
      (s.rgState g.val = rgConverting)) ∧
    (∃ (s : State) (g : Fin 8) (v : Word) (d : Nat) (w : State) (u : State), (s.awake = true) ∧ (d = dieOf g.val) ∧
      (s.dieUp d = true) ∧ ((s.dl d).toFe = []) ∧ (w = s.writeFe (R.RGN_CTRL g.val) rgnCtrlFlds v) ∧ (u = (w.setDl d
      { w.dl d with toFe := [] }).setRg g.val { w.rg g.val with afterStep := false }) ∧ (v.toNat.testBit 1 = true) ∧
      (s.rgState g.val = rgPending)) ∧
    (∃ (s : State) (g : Fin 8) (d : Nat), (s.awake = true) ∧ (d = dieOf g.val) ∧ ((s.rg g.val).afterStep = true) ∧
      (s.rgState g.val = rgStopped)) ∧
    (∃ (s : State) (g : Fin 8) (d : Nat) (at0 : _), (s.awake = true) ∧ (d = dieOf g.val) ∧ (s.rgState g.val =
      rgPending) ∧ ((s.rg g.val).restart = false) ∧ (s.spn.refclk = true) ∧ (s.startPoint g.val (max (s.rg
      g.val).earliest s.lt) = some at0)) :=
  ⟨⟨State.reset, (0 : Fin 8), (0 : Word), (dieOf (0 : Fin 8).val), (Instr.rgnCtrlStart (0 : Fin 8) (0 : Word)),
     by decide +kernel⟩,
   ⟨({ State.reset with spn.refclk := false }), (0 : Fin 8), (0 : Word), (dieOf (0 : Fin 8).val), (Instr.rgnCtrlStart
     (0 : Fin 8) (0 : Word)), by decide +kernel⟩,
   ⟨({ State.reset with spn.refclk := false }), (0 : Fin 8), (dieOf (0 : Fin 8).val), by decide +kernel⟩,
   ⟨(diesUp State.reset), (0 : Fin 8), (1 : Word), (dieOf (0 : Fin 8).val), ((diesUp State.reset).writeFe (R.RGN_CTRL
     (0 : Fin 8).val) rgnCtrlFlds (1 : Word)), ((((diesUp State.reset).writeFe (R.RGN_CTRL (0 : Fin 8).val)
     rgnCtrlFlds (1 : Word)).setDl (dieOf (0 : Fin 8).val) { ((diesUp State.reset).writeFe (R.RGN_CTRL (0 : Fin
     8).val) rgnCtrlFlds (1 : Word)).dl (dieOf (0 : Fin 8).val) with toFe := [] }).setRg (0 : Fin 8).val { ((diesUp
     State.reset).writeFe (R.RGN_CTRL (0 : Fin 8).val) rgnCtrlFlds (1 : Word)).rg (0 : Fin 8).val with afterStep :=
     false }), by decide +kernel⟩,
   ⟨((diesUp State.reset).setFld (R.RGN_WIN 7) F.RGN_WIN_LEN 1023), (7 : Fin 8), (1 : Word), (dieOf (7 : Fin 8).val),
     (((diesUp State.reset).setFld (R.RGN_WIN 7) F.RGN_WIN_LEN 1023).writeFe (R.RGN_CTRL (7 : Fin 8).val) rgnCtrlFlds
     (1 : Word)), (((((diesUp State.reset).setFld (R.RGN_WIN 7) F.RGN_WIN_LEN 1023).writeFe (R.RGN_CTRL (7 : Fin
     8).val) rgnCtrlFlds (1 : Word)).setDl (dieOf (7 : Fin 8).val) { (((diesUp State.reset).setFld (R.RGN_WIN 7)
     F.RGN_WIN_LEN 1023).writeFe (R.RGN_CTRL (7 : Fin 8).val) rgnCtrlFlds (1 : Word)).dl (dieOf (7 : Fin 8).val) with
     toFe := [] }).setRg (7 : Fin 8).val { (((diesUp State.reset).setFld (R.RGN_WIN 7) F.RGN_WIN_LEN 1023).writeFe
     (R.RGN_CTRL (7 : Fin 8).val) rgnCtrlFlds (1 : Word)).rg (7 : Fin 8).val with afterStep := false }), (Option.get
     ((((((diesUp State.reset).setFld (R.RGN_WIN 7) F.RGN_WIN_LEN 1023).writeFe (R.RGN_CTRL (7 : Fin 8).val)
     rgnCtrlFlds (1 : Word)).setDl (dieOf (7 : Fin 8).val) { (((diesUp State.reset).setFld (R.RGN_WIN 7) F.RGN_WIN_LEN
     1023).writeFe (R.RGN_CTRL (7 : Fin 8).val) rgnCtrlFlds (1 : Word)).dl (dieOf (7 : Fin 8).val) with toFe := []
     }).setRg (7 : Fin 8).val { (((diesUp State.reset).setFld (R.RGN_WIN 7) F.RGN_WIN_LEN 1023).writeFe (R.RGN_CTRL (7
     : Fin 8).val) rgnCtrlFlds (1 : Word)).rg (7 : Fin 8).val with afterStep := false }).rgnStartCause (7 : Fin
     8).val) (by decide +kernel)), by decide +kernel⟩,
   ⟨({ diesUp State.reset with spn.stepUntil := 5 }), (0 : Fin 8), (1 : Word), (dieOf (0 : Fin 8).val),
     (({ diesUp State.reset with spn.stepUntil := 5 }).writeFe (R.RGN_CTRL (0 : Fin 8).val) rgnCtrlFlds (1 : Word)),
     (((({ diesUp State.reset with spn.stepUntil := 5 }).writeFe (R.RGN_CTRL (0 : Fin 8).val) rgnCtrlFlds (1 :
     Word)).setDl (dieOf (0 : Fin 8).val) { (({ diesUp State.reset with spn.stepUntil := 5 }).writeFe (R.RGN_CTRL (0 :
     Fin 8).val) rgnCtrlFlds (1 : Word)).dl (dieOf (0 : Fin 8).val) with toFe := [] }).setRg (0 : Fin 8).val {
     (({ diesUp State.reset with spn.stepUntil := 5 }).writeFe (R.RGN_CTRL (0 : Fin 8).val) rgnCtrlFlds (1 : Word)).rg
     (0 : Fin 8).val with afterStep := false }), by decide +kernel⟩,
   ⟨((diesUp State.reset).setRgState 3 rgConverting), (3 : Fin 8), (3 : Word), (dieOf (3 : Fin 8).val), (((diesUp
     State.reset).setRgState 3 rgConverting).writeFe (R.RGN_CTRL (3 : Fin 8).val) rgnCtrlFlds (3 : Word)), (((((diesUp
     State.reset).setRgState 3 rgConverting).writeFe (R.RGN_CTRL (3 : Fin 8).val) rgnCtrlFlds (3 : Word)).setDl (dieOf
     (3 : Fin 8).val) { (((diesUp State.reset).setRgState 3 rgConverting).writeFe (R.RGN_CTRL (3 : Fin 8).val)
     rgnCtrlFlds (3 : Word)).dl (dieOf (3 : Fin 8).val) with toFe := [] }).setRg (3 : Fin 8).val { (((diesUp
     State.reset).setRgState 3 rgConverting).writeFe (R.RGN_CTRL (3 : Fin 8).val) rgnCtrlFlds (3 : Word)).rg (3 : Fin
     8).val with afterStep := false }), by decide +kernel⟩,
   ⟨((diesUp State.reset).setRgState 3 rgPending), (3 : Fin 8), (3 : Word), (dieOf (3 : Fin 8).val), (((diesUp
     State.reset).setRgState 3 rgPending).writeFe (R.RGN_CTRL (3 : Fin 8).val) rgnCtrlFlds (3 : Word)), (((((diesUp
     State.reset).setRgState 3 rgPending).writeFe (R.RGN_CTRL (3 : Fin 8).val) rgnCtrlFlds (3 : Word)).setDl (dieOf (3
     : Fin 8).val) { (((diesUp State.reset).setRgState 3 rgPending).writeFe (R.RGN_CTRL (3 : Fin 8).val) rgnCtrlFlds
     (3 : Word)).dl (dieOf (3 : Fin 8).val) with toFe := [] }).setRg (3 : Fin 8).val { (((diesUp
     State.reset).setRgState 3 rgPending).writeFe (R.RGN_CTRL (3 : Fin 8).val) rgnCtrlFlds (3 : Word)).rg (3 : Fin
     8).val with afterStep := false }), by decide +kernel⟩,
   ⟨((diesUp State.reset).setRg 0 { RegionState.init with afterStep := true }), (0 : Fin 8), (dieOf (0 : Fin 8).val),
     by decide +kernel⟩,
   ⟨((diesUp State.reset).setRgState 0 rgPending), (0 : Fin 8), (dieOf (0 : Fin 8).val), (Option.get (((diesUp
     State.reset).setRgState 0 rgPending).startPoint (0 : Fin 8).val (max (((diesUp State.reset).setRgState 0
     rgPending).rg (0 : Fin 8).val).earliest ((diesUp State.reset).setRgState 0 rgPending).lt)) (by decide +kernel)),
     by decide +kernel⟩⟩

/-- The hypotheses of `Obligations.FeAndMainsRows` can be met, clause by clause. -/
theorem witness_fe_and_mains_rows :
    (∃ (s : State) (d : Fin 4) (w : _) (rest : _), (s.awake = true) ∧ ((s.dl d.val).toFe = w :: rest) ∧ (s.dieUp d.val
      = true)) ∧
    (∃ (s : State) (d : Fin 4) (a : _) (v : _) (rest : _), (s.awake = true) ∧ ((s.dl d.val).toFe = (a, v) :: rest) ∧
      (s.dieUp d.val = true) ∧ (a ≠ R.RGN_CTRL (regionOfAddr a)) ∧ (a ≠ R.RGN_SEQ_CTRL (regionOfAddr a)) ∧ (a <
      0x01800000) ∧ (feWaits a = false)) ∧
    (∃ (s : State) (d : Fin 4) (a : Nat) (v : Word) (rest : List (Nat × Word)), (s.awake = true) ∧ ((s.dl d.val).toFe
      = (a, v) :: rest) ∧ (s.dieUp d.val = true) ∧ (a ≠ R.RGN_CTRL (regionOfAddr a)) ∧ (a ≠ R.RGN_SEQ_CTRL
      (regionOfAddr a)) ∧ (a < 0x01800000) ∧ (feWaits a = true) ∧ (s.rgState (regionOfAddr a) ≠ rgStopped)) ∧
    (∃ (s : State) (c : Fin 48), (s.awake = true) ∧ (s.clrWaits c.val = false)) ∧
    (∃ (s : State) (c : Fin 48), (s.awake = true) ∧ (s.clrWaits c.val = true)) ∧
    (∃ (s : State) (c : Fin 48) (i : Nat), (s.awake = true) ∧ (s.clrWaits c.val = true) ∧ (i < 32) ∧ (i ≠ 5)) ∧
    (∃ (s : State) (c : Fin 48) (v : Word) (w : Word), (s.awake = true) ∧ (w = s.feWord (R.CLU_EXC_CTRL c.val) v) ∧
      (s.dieUp (c.val / 12) = true)) ∧
    (∃ (s : State) (c : Fin 48), (s.awake = true) ∧ (s.dieUp (c.val / 12) = false) ∧ ((s.dl (c.val /
      12)).queued.length < 64)) ∧
    (∃ (s : State) (c : Fin 48), (s.awake = true) ∧ (s.dieUp (c.val / 12) = false) ∧ (64 ≤ (s.dl (c.val /
      12)).queued.length)) ∧
    (∃ (s : State), (s.awake = true) ∧ (s.spn.refclk = true) ∧ (s.mains.last = none)) ∧
    (∃ (s : State) (ph : Phase) (l : _), (s.awake = true) ∧ (s.spn.refclk = true) ∧ (s.mains.last = some l) ∧ (secU ≤
      65 * (stampOf s.lt ph.val - l)) ∧ (45 * (stampOf s.lt ph.val - l) ≤ secU) ∧ (s.mains.accepted < 8)) ∧
    (∃ (s : State) (ph : Phase) (l : _), (s.awake = true) ∧ (s.spn.refclk = true) ∧ (s.mains.last = some l) ∧ (65 *
      (stampOf s.lt ph.val - l) < secU)) ∧
    (∃ (s : State) (l : _), (s.awake = true) ∧ (s.mains.acceptedAt = some l) ∧ (s.mains.hold = false) ∧
      (s.mains.period.isSome = true) ∧ (s.spn.refclk = true)) ∧
    (∃ (s : State), (s.awake = true) ∧ (s.mains.hold = true) ∧ (8 ≤ s.mains.holdRun)) :=
  ⟨⟨((diesUp State.reset).setDl 0 { DieLink.init with toFe := [(R.CH_AIN 0, 5)] }), (0 : Fin 4), (List.head ((((diesUp
     State.reset).setDl 0 { DieLink.init with toFe := [(R.CH_AIN 0, 5)] }).dl (0 : Fin 4).val).toFe)
     (by decide +kernel)), (List.tail ((((diesUp State.reset).setDl 0
     { DieLink.init with toFe := [(R.CH_AIN 0, 5)] }).dl (0 : Fin 4).val).toFe)), by decide +kernel⟩,
   ⟨((diesUp State.reset).setDl 0 { DieLink.init with toFe := [(R.RGN_CAL_CFG 0, 5)] }), (0 : Fin 4), (R.RGN_CAL_CFG
     0), (5), (List.tail ((((diesUp State.reset).setDl 0 { DieLink.init with toFe := [(R.RGN_CAL_CFG 0, 5)] }).dl (0 :
     Fin 4).val).toFe)), by decide +kernel⟩,
   ⟨(((diesUp State.reset).setDl 0 { DieLink.init with toFe := [(R.CLU_EXC_CTRL 0, 1)] }).setRgState 0 rgConverting),
     (0 : Fin 4), (R.CLU_EXC_CTRL 0 : Nat), (1 : Word), ([] : List (Nat × Word)), by decide +kernel⟩,
   ⟨State.reset, (0 : Fin 48), by decide +kernel⟩,
   ⟨(State.reset.setRg 7 { RegionState.init with waiting := [(R.CLU_EXC_CTRL 47, 32, 0)] }), (47 : Fin 48),
     by decide +kernel⟩,
   ⟨(State.reset.setRg 7 { RegionState.init with waiting := [(R.CLU_EXC_CTRL 47, 32, 0)] }), (47 : Fin 48), (31 :
     Nat), by decide +kernel⟩,
   ⟨(diesUp State.reset), (47 : Fin 48), (0 : Word), ((diesUp State.reset).feWord (R.CLU_EXC_CTRL (47 : Fin 48).val)
     (0 : Word)), by decide +kernel⟩,
   ⟨State.reset, (0 : Fin 48), by decide +kernel⟩,
   ⟨(State.reset.setDl 0 { DieLink.init with queued := List.replicate 64 (0, 0) }), (0 : Fin 48), by decide +kernel⟩,
   ⟨State.reset, by decide +kernel⟩,
   ⟨({ State.reset with lt := 20000000 * nsU, mains.last := some 0 }), (0 : Phase), (Option.get
     (({ State.reset with lt := 20000000 * nsU, mains.last := some 0 }).mains.last) (by decide +kernel)),
     by decide +kernel⟩,
   ⟨({ State.reset with mains.last := some 0 }), (0 : Phase), (Option.get
     (({ State.reset with mains.last := some 0 }).mains.last) (by decide +kernel)), by decide +kernel⟩,
   ⟨({ State.reset with mains.acceptedAt := some 0, mains.period := some 1 }), (Option.get
     (({ State.reset with mains.acceptedAt := some 0, mains.period := some 1 }).mains.acceptedAt)
     (by decide +kernel)), by decide +kernel⟩,
   ⟨({ State.reset with mains.hold := true, mains.holdRun := 8 }), by decide +kernel⟩⟩

/-- The hypotheses of `Obligations.ExcitationRows` can be met, clause by clause. -/
theorem witness_excitation_rows :
    (∃ (s : State) (p : _) (on : _), (s.awake = true) ∧ (s.flt.lines.contains (refSource p) = on)) ∧
    (∃ (s : State) (p : _), (s.awake = true) ∧ (s.flt.lines.contains (refSource p) = false)) ∧
    (∃ (s : State) (p : _), (s.awake = true) ∧ (s.flt.lines.contains (refSource p) = true)) ∧
    (∃ (s : State) (c : Fin 48), (s.awake = true) ∧ (s.actFlag (R.CLU_EXC_CTRL c.val) F.CLU_EXC_CTRL_SENSE = false)) ∧
    (∃ (s : State) (c : Fin 48), (s.awake = true) ∧ (s.excOn c.val = true) ∧ (s.flag (R.CLU_EXC_STAT c.val)
      F.CLU_EXC_STAT_ILIM = false)) ∧
    (∃ (s : State) (c : Fin 48), (s.awake = true) ∧ (s.excOn c.val = true)) ∧
    (∃ (s : State) (g : Fin 8) (c : _), (s.awake = true) ∧ (c ∈ clusOf g.val) ∧ (s.actFlag (R.CLU_EXC_CTRL c)
      F.CLU_EXC_CTRL_EN = true)) ∧
    (∃ (s : State) (c : Fin 48), (s.awake = true) ∧ (s.excOn c.val = true) ∧ (s.flt.lines.contains (32, c.val) =
      false)) ∧
    (∃ (s : State) (c : Fin 48), (s.awake = true) ∧ (s.excOn c.val = true)) ∧
    (∃ (s : State), (s.awake = true)) ∧
    (∃ (s : State) (c : Fin 48), (s.awake = true) ∧ (s.excOn c.val = true) ∧ (s.flag (R.CLU_EXC_STAT c.val)
      F.CLU_EXC_STAT_ILIM = true) ∧ (s.flt.lines.contains (32, c.val) = true) ∧ (s.actFld (R.CLU_EXC_CTRL c.val)
      F.CLU_EXC_CTRL_ILIM_T ≠ 0)) ∧
    (∃ (s : State) (c : Nat), (s.awake = true) ∧ (c < 48)) ∧
    (∃ (s : State) (c : Fin 48), (s.awake = true) ∧ (s.actFld (R.CLU_EXC_CTRL c.val) F.CLU_EXC_CTRL_ILIM_T = 0)) ∧
    (∃ (s : State) (c : Fin 48), (s.awake = true) ∧ (s.runs (c.val / 6) = true) ∧ (s.actFld (R.CLU_EXC_CTRL c.val)
      F.CLU_EXC_CTRL_ALT_PER ≠ 0) ∧ (s.actFld (R.CLU_EXC_CTRL c.val) F.CLU_EXC_CTRL_ALT_PER ≤ (s.cl
      c.val).bound.altCount) ∧ ((s.cl c.val).bound.written = false) ∧ ((s.cl c.val).bound.auto = false) ∧ ((s.cl
      c.val).bound.on = false ∨ s.actFlag (R.CLU_EXC_CTRL c.val) F.CLU_EXC_CTRL_EN = true)) ∧
    (∃ (s : State) (c : Fin 48), (s.awake = true) ∧ ((s.cl c.val).bound.on = true) ∧ (s.actFlag (R.CLU_EXC_CTRL c.val)
      F.CLU_EXC_CTRL_EN = false)) ∧
    (∃ (s : State), (s.awake = true)) ∧
    (∃ (s : State) (c : Fin 48), (s.awake = true) ∧ ((s.cl c.val).settleHeld = false) ∧ ((s.cl c.val).settleLeft = 0)) ∧
    (∃ (s : State), (s.awake = true)) :=
  ⟨⟨State.reset, (.die 3), (false), by decide +kernel⟩,
   ⟨State.reset, (.region 7), by decide +kernel⟩,
   ⟨({ State.reset with flt.lines := [refSource (.region 0)] }), (.region 0), by decide +kernel⟩,
   ⟨State.reset, (47 : Fin 48), by decide +kernel⟩,
   ⟨(State.reset.setFlag (R.CLU_EXC_STAT 47) F.CLU_EXC_STAT_ON true), (47 : Fin 48), by decide +kernel⟩,
   ⟨(State.reset.setFlag (R.CLU_EXC_STAT 47) F.CLU_EXC_STAT_ON true), (47 : Fin 48), by decide +kernel⟩,
   ⟨(State.reset.setAct (R.CLU_EXC_CTRL 47) (BitVec.ofNat 32 (2 ^ F.CLU_EXC_CTRL_EN.lo))), (7 : Fin 8), (47),
     by decide +kernel⟩,
   ⟨(State.reset.setFlag (R.CLU_EXC_STAT 47) F.CLU_EXC_STAT_ON true), (47 : Fin 48), by decide +kernel⟩,
   ⟨(((diesUp State.reset).setFlag (R.CLU_EXC_STAT 47) F.CLU_EXC_STAT_ON true)), (47 : Fin 48), by decide +kernel⟩,
   ⟨State.reset, by decide +kernel⟩,
   ⟨({ (State.reset.setFlag (R.CLU_EXC_STAT 47) F.CLU_EXC_STAT_ON true).setFlag (R.CLU_EXC_STAT 47)
     F.CLU_EXC_STAT_ILIM true |>.setAct (R.CLU_EXC_CTRL 47) (BitVec.ofNat 32 (2 ^ F.CLU_EXC_CTRL_ILIM_T.lo)) with
     flt.lines := [(32, 47)] }), (47 : Fin 48), by decide +kernel⟩,
   ⟨State.reset, (0 : Nat), by decide +kernel⟩,
   ⟨(State.reset.setAct (R.CLU_EXC_CTRL 0) 0), (0 : Fin 48), by decide +kernel⟩,
   ⟨(((State.reset.setRgState 7 rgConverting).setAct (R.CLU_EXC_CTRL 47) (BitVec.ofNat 32 (2 ^
     F.CLU_EXC_CTRL_ALT_PER.lo))).setCl 47 { CluState.init with bound := { CluState.init.bound with altCount := 1 }
     }), (47 : Fin 48), by decide +kernel⟩,
   ⟨((State.reset.setCl 47 { CluState.init with bound.on := true })), (47 : Fin 48), by decide +kernel⟩,
   ⟨State.reset, by decide +kernel⟩,
   ⟨State.reset, (0 : Fin 48), by decide +kernel⟩,
   ⟨State.reset, by decide +kernel⟩⟩

/-- The hypotheses of `Obligations.SteadyRequestRows` can be met, clause by clause. -/
theorem witness_steady_request_rows :
    (∃ (s : State) (n : Fin 384) (v : Word) (o : _), (s.awake = true) ∧ (v.toNat.testBit 1 = true) ∧ (v.toNat.testBit
      2 = false) ∧ (v.toNat.testBit 4 = false) ∧ (o = (⟨.cal, n.val, 3, 0xFF, v.toNat.testBit 3⟩ : SteadyOp)) ∧ ((s.rg
      (rgnOf n.val)).queue.any (fun q => q.merges o) = false) ∧ ((s.rg (rgnOf n.val)).queue.length < 16)) ∧
    (∃ (s : State) (n : Fin 384) (v : Word) (o : _), (s.awake = true) ∧ (v.toNat.testBit 1 = false) ∧ (v.toNat.testBit
      2 = true) ∧ (v.toNat.testBit 4 = false) ∧ (o = (⟨.imp, n.val, 3, 0xFF, false⟩ : SteadyOp)) ∧ ((s.rg (rgnOf
      n.val)).queue.any (fun q => q.merges o) = false) ∧ ((s.rg (rgnOf n.val)).queue.length < 16)) ∧
    (∃ (s : State) (n : Fin 384) (v : Word) (o : _), (s.awake = true) ∧ (v.toNat.testBit 1 = false) ∧ (v.toNat.testBit
      2 = false) ∧ (v.toNat.testBit 4 = true) ∧ ((s.ch n.val).baseSpare.isSome = true) ∧ (s.retesting false n.val =
      false) ∧ (o = (⟨.retest, n.val, 2, 0xFF, true⟩ : SteadyOp)) ∧ ((s.rg (rgnOf n.val)).queue.any (fun q => q.merges
      o) = false) ∧ ((s.rg (rgnOf n.val)).queue.length < 16)) ∧
    (∃ (s : State) (n : Fin 384) (v : Word) (o : _) (u : _), (s.awake = true) ∧ (v.toNat.testBit 1 = false) ∧
      (v.toNat.testBit 2 = true) ∧ (v.toNat.testBit 4 = false) ∧ (o = (⟨.imp, n.val, 3, 0xFF, false⟩ : SteadyOp)) ∧
      ((s.rg (rgnOf n.val)).queue.any (fun q => q.merges o) = false) ∧ (16 ≤ (s.rg (rgnOf n.val)).queue.length) ∧ (u =
      s.writeFlds (R.CH_STEADY_CTRL n.val) steadyCtrlFlds v)) ∧
    (∃ (s : State) (n : Fin 384) (v : Word) (o : SteadyOp) (u : State), (s.awake = true) ∧ (v.toNat.testBit 1 = false)
      ∧ (v.toNat.testBit 2 = true) ∧ (v.toNat.testBit 4 = false) ∧ (o = (⟨.imp, n.val, 3, 0xFF, false⟩ : SteadyOp)) ∧
      ((s.rg (rgnOf n.val)).queue.any (fun q => q.merges o) = false) ∧ (16 ≤ (s.rg (rgnOf n.val)).queue.length) ∧ (u =
      s.writeFlds (R.CH_STEADY_CTRL n.val) steadyCtrlFlds v) ∧ ((s.rg (rgnOf n.val)).faults = none)) ∧
    (∃ (s : State) (n : Fin 384) (v : Word) (o : SteadyOp) (u : State) (l : List (Nat × Nat)), (s.awake = true) ∧
      (v.toNat.testBit 1 = false) ∧ (v.toNat.testBit 2 = true) ∧ (v.toNat.testBit 4 = false) ∧ (o = (⟨.imp, n.val, 3,
      0xFF, false⟩ : SteadyOp)) ∧ ((s.rg (rgnOf n.val)).queue.any (fun q => q.merges o) = false) ∧ (16 ≤ (s.rg (rgnOf
      n.val)).queue.length) ∧ (u = s.writeFlds (R.CH_STEADY_CTRL n.val) steadyCtrlFlds v) ∧ ((s.rg (rgnOf
      n.val)).faults = some l)) ∧
    (∃ (s : State) (c : Fin 48) (v : Word) (o : _), (s.awake = true) ∧ (v.toNat.testBit 0 = true) ∧ (v.toNat.testBit 1
      = false) ∧ (s.dieUp (dieOf (c.val / 6)) = true) ∧ ((s.dl (dieOf (c.val / 6))).toFe = []) ∧ (o = (⟨.sprCal,
      c.val, 3, 0xFF, true⟩ : SteadyOp)) ∧ ((s.rg (c.val / 6)).queue.any (fun q => q.merges o) = false) ∧ ((s.rg
      (c.val / 6)).queue.length < 16)) ∧
    (∃ (s : State) (c : Fin 48) (v : Word) (o : _), (s.awake = true) ∧ (v.toNat.testBit 0 = false) ∧ (v.toNat.testBit
      1 = true) ∧ (s.dieUp (dieOf (c.val / 6)) = true) ∧ ((s.dl (dieOf (c.val / 6))).toFe = []) ∧ (s.retesting true
      c.val = false) ∧ (s.sprState c.val = spFailed) ∧ (o = (⟨.sprRetest, c.val, 2, 0xFF, true⟩ : SteadyOp)) ∧ ((s.rg
      (c.val / 6)).queue.any (fun q => q.merges o) = false) ∧ ((s.rg (c.val / 6)).queue.length < 16)) ∧
    (∃ (s : State) (n : Fin 384) (v : Word), (s.awake = true) ∧ (v.toNat.testBit 31 = true) ∧ (1 ≤ s.fld
      (R.CH_IMP_STAT n.val) F.CH_IMP_STAT_RES) ∧ (s.fld (R.CH_IMP_STAT n.val) F.CH_IMP_STAT_RES ≤ 4)) ∧
    (∃ (s : State) (a : SteadyOp), (s.awake = true) ∧ (a.kind = .subst ∨ a.kind = .retest ∨ a.kind = .sprRetest)) :=
  ⟨⟨State.reset, (383 : Fin 384), (2 : Word), ((⟨.cal, (383 : Fin 384).val, 3, 0xFF, (2 : Word).toNat.testBit 3⟩ :
     SteadyOp)), by decide +kernel⟩,
   ⟨State.reset, (383 : Fin 384), (4 : Word), ((⟨.imp, (383 : Fin 384).val, 3, 0xFF, false⟩ : SteadyOp)),
     by decide +kernel⟩,
   ⟨(State.reset.setCh 383 { ChanState.init with baseSpare := some 47 }), (383 : Fin 384), (16 : Word), ((⟨.retest,
     (383 : Fin 384).val, 2, 0xFF, true⟩ : SteadyOp)), by decide +kernel⟩,
   ⟨(State.reset.setRg 0 { RegionState.init with queue := List.replicate 16 ⟨.cal, 5, 3, 255, false⟩ }), (0 : Fin
     384), (4 : Word), ((⟨.imp, (0 : Fin 384).val, 3, 0xFF, false⟩ : SteadyOp)), ((State.reset.setRg 0
     { RegionState.init with queue := List.replicate 16 ⟨.cal, 5, 3, 255, false⟩ }).writeFlds (R.CH_STEADY_CTRL (0 :
     Fin 384).val) steadyCtrlFlds (4 : Word)), by decide +kernel⟩,
   ⟨(State.reset.setRg 7
     { RegionState.init with queue := (List.range 16).map (fun n => ⟨.cal, n + 340, 0, 0, false⟩) }), (383 : Fin 384),
     (4 : Word), ((⟨.imp, (383 : Fin 384).val, 3, 0xFF, false⟩ : SteadyOp)), ((State.reset.setRg 7
     { RegionState.init with queue := (List.range 16).map (fun n => ⟨.cal, n + 340, 0, 0, false⟩) }).writeFlds
     (R.CH_STEADY_CTRL (383 : Fin 384).val) steadyCtrlFlds (4 : Word)), by decide +kernel⟩,
   ⟨(State.reset.setRg 7
     { RegionState.init with queue := (List.range 16).map (fun n => ⟨.cal, n + 340, 0, 0, false⟩), faults := some [] }),
     (383 : Fin 384), (4 : Word), ((⟨.imp, (383 : Fin 384).val, 3, 0xFF, false⟩ : SteadyOp)), ((State.reset.setRg 7
     { RegionState.init with queue := (List.range 16).map (fun n => ⟨.cal, n + 340, 0, 0, false⟩), faults := some [] }).writeFlds
     (R.CH_STEADY_CTRL (383 : Fin 384).val) steadyCtrlFlds (4 : Word)), ([] : List (Nat × Nat)), by decide +kernel⟩,
   ⟨(diesUp State.reset), (47 : Fin 48), (1 : Word), ((⟨.sprCal, (47 : Fin 48).val, 3, 0xFF, true⟩ : SteadyOp)),
     by decide +kernel⟩,
   ⟨((diesUp State.reset).setFld (R.SPR_STAT 47) F.SPR_STAT_STATE spFailed), (47 : Fin 48), (2 : Word), ((⟨.sprRetest,
     (47 : Fin 48).val, 2, 0xFF, true⟩ : SteadyOp)), by decide +kernel⟩,
   ⟨(State.reset.setFld (R.CH_IMP_STAT 0) F.CH_IMP_STAT_RES 4), (0 : Fin 384), (0x80000000 : Word), by decide +kernel⟩,
   ⟨State.reset, (⟨.retest, 0, 3, 255, false⟩ : SteadyOp), by decide +kernel⟩⟩

/-- The hypotheses of `Obligations.SteadyOutcomeRows` can be met, clause by clause. -/
theorem witness_steady_outcome_rows :
    (∃ (s : State) (k : Fin 432) (m : CalMeas) (r : _), (s.awake = true) ∧ (s.calOn k.val = some r) ∧ (s.calEnd k.val
      r m = none)) ∧
    (∃ (s : State) (k : Fin 432) (m : CalMeas) (r : _) (e : _), (s.awake = true) ∧ (s.calOn k.val = some r) ∧
      (s.calEnd k.val r m = some e) ∧ (s.spn.refclk = false ∨ s.calDue k.val r < r.calAt + e.packets * pktU)) ∧
    (∃ (s : State) (k : Fin 432) (m : CalMeas) (r : _) (e : _), (s.awake = true) ∧ (s.calOn k.val = some r) ∧
      (s.calEnd k.val r m = some e) ∧ (s.spn.refclk = true) ∧ (r.calAt + e.packets * pktU ≤ s.calDue k.val r)) ∧
    (∃ (s : State) (k : Fin 432) (m : CalMeas) (r : _) (e : _), (s.awake = true) ∧ (s.calOn k.val = some r) ∧
      (s.calEnd k.val r m = some e) ∧ (s.spn.refclk = true) ∧ (r.calAt + e.packets * pktU ≤ s.calDue k.val r) ∧ (e.res
      = calPass)) ∧
    (∃ (s : State) (k : Fin 432) (m : CalMeas) (r : _) (e : _), (s.awake = true) ∧ (s.calOn k.val = some r) ∧
      (s.calEnd k.val r m = some e) ∧ (s.spn.refclk = true) ∧ (r.calAt + e.packets * pktU ≤ s.calDue k.val r) ∧ (e.res
      = calPass)) ∧
    (∃ (s : State) (k : Fin 432) (m : CalMeas) (r : _) (e : _), (s.awake = true) ∧ (s.calOn k.val = some r) ∧
      (s.calEnd k.val r m = some e) ∧ (s.spn.refclk = true) ∧ (r.calAt + e.packets * pktU ≤ s.calDue k.val r) ∧ (e.res
      = calPass) ∧ (isSpare k.val = false) ∧ (r.op.kind.ofSpare = false)) ∧
    (∃ (s : State) (w : _) (x : _), (s.awake = true) ∧ (x < 2 ^ w)) ∧
    (∃ (s : State) (x : _), (s.awake = true) ∧ (x < 4096)) ∧
    (∃ (s : State) (k : Fin 432) (r : _), (s.awake = true) ∧ (s.calOn k.val = some r) ∧ (r.tries = 0) ∧ (s.spn.refclk
      = true)) ∧
    (∃ (s : State) (k : Fin 432) (ref : _) (u : _), (s.awake = true) ∧ (u = (((s.raise 80 k.val)).settleTests)) ∧
      (isSpare k.val = false) ∧ ((u.ch (chanOf k.val)).baseSpare = none) ∧ ((u.cv k.val).stopped = false) ∧ (ref =
      false)) ∧
    (∃ (s : State), (s.awake = true)) ∧
    (∃ (s : State) (n : Fin 384), (s.awake = true) ∧ (s.fld (R.RGN_STEADY_AUTO (rgnOf n.val))
      F.RGN_STEADY_AUTO_CAL_PER ≠ 0)) ∧
    (∃ (s : State) (n : Fin 384) (m : ImpMeas) (r : _), (s.awake = true) ∧ (s.impOn n.val = some r) ∧ (s.impCode n.val
      m = (1, 0)) ∧ (s.spn.refclk = true)) ∧
    (∃ (s : State) (n : Fin 384) (m : ImpMeas) (r : _), (s.awake = true) ∧ (s.impOn n.val = some r) ∧ (m.ovr = true ∨
      m.toneFail = true ∨ impBeyond m = true) ∧ (s.spn.refclk = true)) ∧
    (∃ (s : State) (g : Fin 8) (per : _) (e : _) (i : _), (s.awake = true) ∧ (per = s.fld (R.RGN_STEADY_AUTO g.val)
      F.RGN_STEADY_AUTO_IMP_PER) ∧ (e = s.rotCount g.val (List.range 48)) ∧ (s.rgState g.val = rgConverting) ∧ (per ≠
      0) ∧ (e ≠ 0) ∧ (s.rotNext g.val 48 (s.rg g.val).autoImpPos false = some i)) ∧
    (∃ (s : State) (g : Fin 8) (per : _) (e : _) (i : _), (s.awake = true) ∧ (per = s.fld (R.RGN_STEADY_AUTO g.val)
      F.RGN_STEADY_AUTO_CAL_PER) ∧ (e = s.rotCount g.val (List.range 54)) ∧ (s.rgState g.val = rgConverting) ∧ (per ≠
      0) ∧ (e ≠ 0) ∧ (s.rotNext g.val 54 (s.rg g.val).autoCalPos true = some i)) :=
  ⟨⟨(calibrating), (0 : Fin 432), (⟨[], []⟩ : CalMeas), (Option.get ((calibrating).calOn (0 : Fin 432).val)
     (by decide +kernel)), by decide +kernel⟩,
   ⟨(calibratingCold), (0 : Fin 432), (calMeasOf : CalMeas), (Option.get ((calibratingCold).calOn (0 : Fin 432).val)
     (by decide +kernel)), (Option.get ((calibratingCold).calEnd (0 : Fin 432).val (Option.get
     ((calibratingCold).calOn (0 : Fin 432).val) (by decide +kernel)) (calMeasOf : CalMeas)) (by decide +kernel)),
     by decide +kernel⟩,
   ⟨(calibrating), (0 : Fin 432), (calMeasOf : CalMeas), (Option.get ((calibrating).calOn (0 : Fin 432).val)
     (by decide +kernel)), (Option.get ((calibrating).calEnd (0 : Fin 432).val (Option.get ((calibrating).calOn (0 :
     Fin 432).val) (by decide +kernel)) (calMeasOf : CalMeas)) (by decide +kernel)), by decide +kernel⟩,
   ⟨(calibrating), (0 : Fin 432), (calMeasOf : CalMeas), (Option.get ((calibrating).calOn (0 : Fin 432).val)
     (by decide +kernel)), (Option.get ((calibrating).calEnd (0 : Fin 432).val (Option.get ((calibrating).calOn (0 :
     Fin 432).val) (by decide +kernel)) (calMeasOf : CalMeas)) (by decide +kernel)), by decide +kernel⟩,
   ⟨(calibrating), (0 : Fin 432), (calMeasOf : CalMeas), (Option.get ((calibrating).calOn (0 : Fin 432).val)
     (by decide +kernel)), (Option.get ((calibrating).calEnd (0 : Fin 432).val (Option.get ((calibrating).calOn (0 :
     Fin 432).val) (by decide +kernel)) (calMeasOf : CalMeas)) (by decide +kernel)), by decide +kernel⟩,
   ⟨(calibrating), (0 : Fin 432), (calMeasOf : CalMeas), (Option.get ((calibrating).calOn (0 : Fin 432).val)
     (by decide +kernel)), (Option.get ((calibrating).calEnd (0 : Fin 432).val (Option.get ((calibrating).calOn (0 :
     Fin 432).val) (by decide +kernel)) (calMeasOf : CalMeas)) (by decide +kernel)), by decide +kernel⟩,
   ⟨State.reset, (0), (0), by decide +kernel⟩,
   ⟨State.reset, (0), by decide +kernel⟩,
   ⟨(calibrating), (0 : Fin 432), (Option.get ((calibrating).calOn (0 : Fin 432).val) (by decide +kernel)),
     by decide +kernel⟩,
   ⟨State.reset, (0 : Fin 432), (false), ((((State.reset.raise 80 (0 : Fin 432).val)).settleTests)),
     by decide +kernel⟩,
   ⟨State.reset, by decide +kernel⟩,
   ⟨State.reset, (0 : Fin 384), by decide +kernel⟩,
   ⟨(State.reset.setRg 0 { RegionState.init with running := [newRun ⟨.imp, 0, 3, 255, false⟩ 0 (some 0) .cover 0] }),
     (0 : Fin 384), (⟨false, false, 5000000, 0⟩ : ImpMeas), (Option.get ((State.reset.setRg 0
     { RegionState.init with running := [newRun ⟨.imp, 0, 3, 255, false⟩ 0 (some 0) .cover 0] }).impOn (0 : Fin
     384).val) (by decide +kernel)), by decide +kernel⟩,
   ⟨(State.reset.setRg 0 { RegionState.init with running := [newRun ⟨.imp, 0, 3, 255, false⟩ 0 (some 0) .cover 0] }),
     (0 : Fin 384), (⟨true, false, 5000000, 0⟩ : ImpMeas), (Option.get ((State.reset.setRg 0
     { RegionState.init with running := [newRun ⟨.imp, 0, 3, 255, false⟩ 0 (some 0) .cover 0] }).impOn (0 : Fin
     384).val) (by decide +kernel)), by decide +kernel⟩,
   ⟨(((converting 0 State.reset).setFld (R.RGN_STEADY_AUTO 0) F.RGN_STEADY_AUTO_IMP_PER 10).setReg (R.RGN_SEQ_MASK 0)
     0xFFFFFFFF), (0 : Fin 8), ((((converting 0 State.reset).setFld (R.RGN_STEADY_AUTO 0) F.RGN_STEADY_AUTO_IMP_PER
     10).setReg (R.RGN_SEQ_MASK 0) 0xFFFFFFFF).fld (R.RGN_STEADY_AUTO (0 : Fin 8).val) F.RGN_STEADY_AUTO_IMP_PER),
     ((((converting 0 State.reset).setFld (R.RGN_STEADY_AUTO 0) F.RGN_STEADY_AUTO_IMP_PER 10).setReg (R.RGN_SEQ_MASK
     0) 0xFFFFFFFF).rotCount (0 : Fin 8).val (List.range 48)), (Option.get ((((converting 0 State.reset).setFld
     (R.RGN_STEADY_AUTO 0) F.RGN_STEADY_AUTO_IMP_PER 10).setReg (R.RGN_SEQ_MASK 0) 0xFFFFFFFF).rotNext (0 : Fin 8).val
     48 ((((converting 0 State.reset).setFld (R.RGN_STEADY_AUTO 0) F.RGN_STEADY_AUTO_IMP_PER 10).setReg
     (R.RGN_SEQ_MASK 0) 0xFFFFFFFF).rg (0 : Fin 8).val).autoImpPos false) (by decide +kernel)), by decide +kernel⟩,
   ⟨(((converting 0 State.reset).setFld (R.RGN_STEADY_AUTO 0) F.RGN_STEADY_AUTO_CAL_PER 10).setReg (R.RGN_SEQ_MASK 0)
     0xFFFFFFFF), (0 : Fin 8), ((((converting 0 State.reset).setFld (R.RGN_STEADY_AUTO 0) F.RGN_STEADY_AUTO_CAL_PER
     10).setReg (R.RGN_SEQ_MASK 0) 0xFFFFFFFF).fld (R.RGN_STEADY_AUTO (0 : Fin 8).val) F.RGN_STEADY_AUTO_CAL_PER),
     ((((converting 0 State.reset).setFld (R.RGN_STEADY_AUTO 0) F.RGN_STEADY_AUTO_CAL_PER 10).setReg (R.RGN_SEQ_MASK
     0) 0xFFFFFFFF).rotCount (0 : Fin 8).val (List.range 54)), (Option.get ((((converting 0 State.reset).setFld
     (R.RGN_STEADY_AUTO 0) F.RGN_STEADY_AUTO_CAL_PER 10).setReg (R.RGN_SEQ_MASK 0) 0xFFFFFFFF).rotNext (0 : Fin 8).val
     54 ((((converting 0 State.reset).setFld (R.RGN_STEADY_AUTO 0) F.RGN_STEADY_AUTO_CAL_PER 10).setReg
     (R.RGN_SEQ_MASK 0) 0xFFFFFFFF).rg (0 : Fin 8).val).autoCalPos true) (by decide +kernel)), by decide +kernel⟩⟩

/-- The hypotheses of `Obligations.WindowRows` can be met, clause by clause. -/
theorem witness_window_rows :
    (∃ (s : State) (d : Fin 4) (p : BitVec 64) (crc : Fin 256) (k : _) (n : _) (u : State) (v : State) (w : State) (e
      : _) (count : _) (intb : _), (s.awake = true) ∧ (k = 108 * d.val + bitsOf p.toNat 63 57) ∧ (u = s.settleTests) ∧
      (u.dieUp d.val = true) ∧ (u.dieGood d.val 0x01 p.toNat crc.val = true) ∧ (v = u.dieTake d.val 0x01) ∧ (bitsOf
      p.toNat 63 57 ≤ 107) ∧ (v.awaits k = some n) ∧ (w = v.expire n) ∧ ((w.ch n).expects.find? (fun e => decide
      (e.conv = k)) = some e) ∧ (count = signed 23 (bitsOf p.toNat 47 25)) ∧ (intb = p.toNat.testBit 52) ∧ (bitsOf
      p.toNat 56 53 = e.wseq % 16) ∧ (intb = e.wseq.testBit 0) ∧ ((w.cv k).lastIntb ≠ some intb) ∧ (e.npk <
      count.natAbs ∨ p.toNat.testBit 49 ≠ e.evt)) ∧
    (∃ (s : State) (d : Fin 4) (p : BitVec 64) (crc : Fin 256) (k : Nat) (n : Nat) (u : State) (v : State) (w : State)
      (e : Expect) (count : Int) (intb : Bool), (s.awake = true) ∧ (k = 108 * d.val + bitsOf p.toNat 63 57) ∧ (u =
      s.settleTests) ∧ (u.dieUp d.val = true) ∧ (u.dieGood d.val 0x01 p.toNat crc.val = true) ∧ (v = u.dieTake d.val
      0x01) ∧ (bitsOf p.toNat 63 57 ≤ 107) ∧ (v.awaits k = some n) ∧ (w = v.expire n) ∧ ((w.ch n).expects.find? (fun e
      => decide (e.conv = k)) = some e) ∧ (count = signed 23 (bitsOf p.toNat 47 25)) ∧ (intb = p.toNat.testBit 52) ∧
      (bitsOf p.toNat 56 53 ≠ e.wseq % 16 ∨ intb ≠ e.wseq.testBit 0 ∨ (w.cv k).lastIntb = some intb)) ∧
    (∃ (s : State) (d : Fin 4) (p : BitVec 64) (crc : Fin 256) (k : _) (n : _) (u : State) (v : State) (w : State) (e
      : _) (count : _) (intb : _), (s.awake = true) ∧ (k = 108 * d.val + bitsOf p.toNat 63 57) ∧ (u = s.settleTests) ∧
      (u.dieUp d.val = true) ∧ (u.dieGood d.val 0x01 p.toNat crc.val = true) ∧ (v = u.dieTake d.val 0x01) ∧ (bitsOf
      p.toNat 63 57 ≤ 107) ∧ (v.awaits k = some n) ∧ (w = v.expire n) ∧ ((w.ch n).expects.find? (fun e => decide
      (e.conv = k)) = some e) ∧ (count = signed 23 (bitsOf p.toNat 47 25)) ∧ (intb = p.toNat.testBit 52) ∧
      (count.natAbs ≤ e.npk) ∧ (p.toNat.testBit 49 = e.evt) ∧ (bitsOf p.toNat 56 53 = e.wseq % 16) ∧ (intb =
      e.wseq.testBit 0) ∧ ((w.cv k).lastIntb ≠ some intb) ∧ (e.delivers = false)) ∧
    (∃ (s : State) (d : Fin 4) (p : BitVec 64) (crc : Fin 256) (k : _) (n : _) (u : State) (v : State) (w : State) (e
      : _) (count : _) (intb : _), (s.awake = true) ∧ (k = 108 * d.val + bitsOf p.toNat 63 57) ∧ (u = s.settleTests) ∧
      (u.dieUp d.val = true) ∧ (u.dieGood d.val 0x01 p.toNat crc.val = true) ∧ (v = u.dieTake d.val 0x01) ∧ (bitsOf
      p.toNat 63 57 ≤ 107) ∧ (v.awaits k = some n) ∧ (w = v.expire n) ∧ ((w.ch n).expects.find? (fun e => decide
      (e.conv = k)) = some e) ∧ (count = signed 23 (bitsOf p.toNat 47 25)) ∧ (intb = p.toNat.testBit 52) ∧
      (count.natAbs ≤ e.npk) ∧ (p.toNat.testBit 49 = e.evt) ∧ (bitsOf p.toNat 56 53 = e.wseq % 16) ∧ (intb =
      e.wseq.testBit 0) ∧ ((w.cv k).lastIntb ≠ some intb) ∧ (e.delivers = true)) ∧
    (∃ (s : State) (d : Fin 4) (p : BitVec 64) (crc : Fin 256) (k : _) (u : State) (v : State), (s.awake = true) ∧ (k
      = 108 * d.val + bitsOf p.toNat 63 57) ∧ (u = s.settleTests) ∧ (u.dieUp d.val = true) ∧ (v = u.dieTake d.val
      0x01) ∧ (u.dieGood d.val 0x01 p.toNat crc.val = false)) ∧
    (∃ (s : State) (d : Fin 4) (p : BitVec 64) (crc : Fin 256) (k : _) (u : State) (v : State), (s.awake = true) ∧ (k
      = 108 * d.val + bitsOf p.toNat 63 57) ∧ (u = s.settleTests) ∧ (u.dieUp d.val = true) ∧ (v = u.dieTake d.val
      0x01) ∧ (u.dieGood d.val 0x01 p.toNat crc.val = true) ∧ (bitsOf p.toNat 63 57 ≤ 107) ∧ (v.awaits k = none)) ∧
    (∃ (s : State) (n : Fin 384) (e : _) (rest : _), (s.awake = true) ∧ ((s.ch n.val).expects = e :: rest) ∧
      (e.delivers = true)) ∧
    (∃ (s : State) (n : Fin 384), (s.awake = true) ∧ (s.flag (R.CH_HLT_STAT n.val) F.CH_HLT_STAT_OPEN = true) ∧ ((s.ch
      n.val).clearAt.isSome = true)) ∧
    (∃ (s : State) (g : Fin 8) (obs : List ConvObs) (seen : List ConvObs) (x : State) (u : State), (s.awake = true) ∧
      (s.runs g.val = true) ∧ (s.spn.refclk = true) ∧ (seen = obs.filter (fun (o : ConvObs) => decide (o.count.natAbs
      ≤ (s.rg g.val).npk))) ∧ (x = ((s.moveTo (s.rg g.val).next).settleTests).forEach (chansOf g.val) (fun u n => if
      (u.ch n).waiting = [] then u else u.expire n)) ∧ (u = ((x.forEach (chansOf g.val) (fun u n => u.closeChan n
      (s.rg g.val).edge (s.rg g.val).next (s.rg g.val).npk (s.reg (R.RGN_WSEQ g.val)).toNat seen)).gather g.val
      (x.closeEvents g.val seen)).forEach (clusOf g.val) (fun u c => u.cluEdge c)) ∧ (u.rgState g.val = rgStopPending)
      ∧ ((u.rg g.val).stopAfter ≤ (s.rg g.val).next)) ∧
    (∃ (s : State) (g : Fin 8) (obs : List ConvObs) (seen : List ConvObs) (x : State) (u : State) (v : State) (w :
      State), (s.awake = true) ∧ (s.runs g.val = true) ∧ (s.spn.refclk = true) ∧ (seen = obs.filter (fun (o : ConvObs)
      => decide (o.count.natAbs ≤ (s.rg g.val).npk))) ∧ (x = ((s.moveTo (s.rg g.val).next).settleTests).forEach
      (chansOf g.val) (fun u n => if (u.ch n).waiting = [] then u else u.expire n)) ∧ (u = ((x.forEach (chansOf g.val)
      (fun u n => u.closeChan n (s.rg g.val).edge (s.rg g.val).next (s.rg g.val).npk (s.reg (R.RGN_WSEQ g.val)).toNat
      seen)).gather g.val (x.closeEvents g.val seen)).forEach (clusOf g.val) (fun u c => u.cluEdge c)) ∧ (¬(u.rgState
      g.val = rgStopPending ∧ (u.rg g.val).stopAfter ≤ (s.rg g.val).next)) ∧ (v = u.openWindow g.val (s.rg g.val).next
      (((s.reg (R.RGN_WSEQ g.val)).toNat + 1) % 2 ^ 32)) ∧ (w = (((v.feApplyAll g.val true ((v.rg
      g.val).waiting.filter (fun x => decide (x.2.2 + 2000 * nsU ≤ (s.rg g.val).next)))).hltApply g.val).forEach
      (chansOf g.val) (fun s' n => if s'.evtMode n then s'.evtEdge n (s.rg g.val).next else s')).forEach (chansOf
      g.val) (fun s' n => s'.slotEdge n (s.rg g.val).next (s'.rg g.val).npk (((s.reg (R.RGN_WSEQ g.val)).toNat + 1) %
      2 ^ 32)))) :=
  ⟨⟨(awaiting true), (0 : Fin 4), (5 * 2 ^ 25 : BitVec 64), (crcOf 0 1 (5 * 2 ^ 25) : Fin 256), (0), (0), ((awaiting
     true).settleTests : State), ((awaiting true).settleTests.dieTake 0 1 : State), (((awaiting
     true).settleTests.dieTake 0 1).expire 0 : State), (awaited 0 0 true), (signed 23 (bitsOf (5 * 2 ^ 25 : BitVec
     64).toNat 47 25)), ((5 * 2 ^ 25 : BitVec 64).toNat.testBit 52),
     by and_intros <;> first | with_reducible rfl | decide +kernel | rfl⟩,
   ⟨(awaiting true), (0 : Fin 4), (2 ^ 53 : BitVec 64), (crcOf 0 1 (2 ^ 53) : Fin 256), (0 : Nat), (0 : Nat),
     ((awaiting true).settleTests : State), ((awaiting true).settleTests.dieTake 0 1 : State), (((awaiting
     true).settleTests.dieTake 0 1).expire 0 : State), (awaited 0 0 true : Expect), (0 : Int), (false : Bool),
     by and_intros <;> first | with_reducible rfl | decide +kernel | rfl⟩,
   ⟨(awaiting false), (0 : Fin 4), (0 : BitVec 64), (crcOf 0 1 (0) : Fin 256), (0), (0), ((awaiting false).settleTests
     : State), ((awaiting false).settleTests.dieTake 0 1 : State), (((awaiting false).settleTests.dieTake 0 1).expire
     0 : State), (awaited 0 0 false), (signed 23 (bitsOf (0 : BitVec 64).toNat 47 25)), ((0 : BitVec 64).toNat.testBit
     52), by and_intros <;> first | with_reducible rfl | decide +kernel | rfl⟩,
   ⟨(awaiting true), (0 : Fin 4), (0 : BitVec 64), (crcOf 0 1 (0) : Fin 256), (0), (0), ((awaiting true).settleTests :
     State), ((awaiting true).settleTests.dieTake 0 1 : State), (((awaiting true).settleTests.dieTake 0 1).expire 0 :
     State), (awaited 0 0 true), (signed 23 (bitsOf (0 : BitVec 64).toNat 47 25)), ((0 : BitVec 64).toNat.testBit 52),
     by and_intros <;> first | with_reducible rfl | decide +kernel | rfl⟩,
   ⟨(awaiting true), (0 : Fin 4), (0 : BitVec 64), (crcOf 0 1 0 + 1 : Fin 256), (108 * (0 : Fin 4).val + bitsOf (0 :
     BitVec 64).toNat 63 57), ((awaiting true).settleTests : State), ((awaiting true).settleTests.dieTake 0 1 :
     State), by and_intros <;> first | with_reducible rfl | decide +kernel | rfl⟩,
   ⟨(diesUp State.reset), (0 : Fin 4), (0 : BitVec 64), (crcOf 0 1 0 : Fin 256), (108 * (0 : Fin 4).val + bitsOf (0 :
     BitVec 64).toNat 63 57), ((diesUp State.reset).settleTests : State), ((diesUp State.reset).settleTests.dieTake 0
     1 : State), by and_intros <;> first | with_reducible rfl | decide +kernel | rfl⟩,
   ⟨((converting 0 State.reset).setCh 0 { ChanState.init with expects := [awaited 0 0 true] }), (0 : Fin 384),
     (List.head ((((converting 0 State.reset).setCh 0 { ChanState.init with expects := [awaited 0 0 true] }).ch (0 :
     Fin 384).val).expects) (by decide +kernel)), (List.tail ((((converting 0 State.reset).setCh 0
     { ChanState.init with expects := [awaited 0 0 true] }).ch (0 : Fin 384).val).expects)), by decide +kernel⟩,
   ⟨((State.reset.setFlag (R.CH_HLT_STAT 0) F.CH_HLT_STAT_OPEN true).setCh 0
     { ChanState.init with clearAt := some 5 }), (0 : Fin 384), by decide +kernel⟩,
   ⟨(windowRuns rgStopPending), (0 : Fin 8), ([] : List ConvObs), ([] : List ConvObs), (atWindowEdge rgStopPending :
     State), (windowClosed rgStopPending : State),
     by and_intros <;> first | with_reducible rfl | decide +kernel | rfl⟩,
   ⟨(windowRuns rgConverting), (0 : Fin 8), ([] : List ConvObs), ([] : List ConvObs), (atWindowEdge rgConverting :
     State), (windowClosed rgConverting : State), (nextWindow : State), (windowActed : State),
     by and_intros <;> first | with_reducible rfl | decide +kernel | rfl⟩⟩

/-- The hypotheses of `Obligations.ComparatorRows` can be met, clause by clause. -/
theorem witness_comparator_rows :
    (∃ (s : State) (n : Fin 384), (s.awake = true) ∧ (s.cmpActs n.val = true) ∧ (s.evtArmed n.val = true)) ∧
    (∃ (s : State) (n : Fin 384), (s.awake = true) ∧ (s.evtBurst n.val = true) ∧ ((s.ch n.val).burstLeft = 0)) ∧
    (∃ (s : State) (n : Fin 384), (s.awake = true) ∧ (s.evtHold n.val = true) ∧ ((s.ch n.val).holdLeft = 0)) ∧
    (∃ (s : State) (n : Fin 384), (s.awake = true) ∧ (s.cmpActs n.val = true) ∧ (s.evtArmed n.val = false)) ∧
    (∃ (s : State) (n : Fin 384) (x : _), (s.awake = true) ∧ (s.cmpActs n.val = true) ∧ ((s.ch n.val).stuckLeft = 1) ∧
      ((s.ch n.val).stuckSaid = false) ∧ ((s.ch n.val).outSince = some x) ∧ ((s.ch n.val).crossLt = x)) ∧
    (∃ (s : State) (n : Fin 384), (s.awake = true) ∧ (s.cmpActs n.val = true)) ∧
    (∃ (s : State) (n : Fin 384), (s.awake = true) ∧ (s.cmpActs n.val = true)) :=
  ⟨⟨((eventChan 383 State.reset).setFlag (R.CH_EVT_STAT 383) F.CH_EVT_STAT_ARMED true), (383 : Fin 384),
     by decide +kernel⟩,
   ⟨((eventChan 383 State.reset).setFlag (R.CH_EVT_STAT 383) F.CH_EVT_STAT_BURST true), (383 : Fin 384),
     by decide +kernel⟩,
   ⟨((eventChan 383 State.reset).setFlag (R.CH_EVT_STAT 383) F.CH_EVT_STAT_HOLD true), (383 : Fin 384),
     by decide +kernel⟩,
   ⟨((eventChan 383 State.reset)), (383 : Fin 384), by decide +kernel⟩,
   ⟨((eventChan 383 State.reset).setCh 383 { ChanState.init with stuckLeft := 1, outSince := some 7, crossLt := 7 }),
     (383 : Fin 384), (Option.get ((((eventChan 383 State.reset).setCh 383
     { ChanState.init with stuckLeft := 1, outSince := some 7, crossLt := 7 }).ch (383 : Fin 384).val).outSince)
     (by decide +kernel)), by decide +kernel⟩,
   ⟨((eventChan 383 State.reset)), (383 : Fin 384), by decide +kernel⟩,
   ⟨(eventChan 0 State.reset), (0 : Fin 384), by decide +kernel⟩⟩

/-- The hypotheses of `Obligations.ChainRows` can be met, clause by clause. -/
theorem witness_chain_rows :
    (∃ (s : State) (n : Fin 384), (s.awake = true) ∧ ((s.ch n.val).chain.ready = [])) ∧
    (∃ (s : State) (n : Fin 384) (r : _) (rest : _) (b : BoxOut), (s.awake = true) ∧ ((s.ch n.val).chain.ready = r ::
      rest) ∧ (r.event = true) ∧ (r.box = some b) ∧ (r.sat = false) ∧ (r.held = false) ∧ (r.fillInv = false) ∧
      (isInvalid b.flags = false) ∧ (s.lt ≤ r.closeLt + 100000 * nsU)) ∧
    (∃ (s : State) (n : Fin 384) (r : _) (rest : _) (b : BoxOut), (s.awake = true) ∧ ((s.ch n.val).chain.ready = r ::
      rest) ∧ (r.event = true) ∧ (r.box = some b) ∧ (r.sat = false) ∧ (r.held = false) ∧ (r.fillInv = false) ∧
      (isInvalid b.flags = true) ∧ (s.lt ≤ r.closeLt + 100000 * nsU)) ∧
    (∃ (s : State) (n : Fin 384) (r : _) (rest : _) (b : BoxOut) (w : _) (sc : _) (q : _), (s.awake = true) ∧ ((s.ch
      n.val).chain.ready = r :: rest) ∧ (r.event = false) ∧ (r.clears = false) ∧ (r.box = some b) ∧ (r.sat = false) ∧
      (r.held = true) ∧ (s.chFir n.val = false) ∧ (s.chNbq n.val = 0) ∧ ((s.ch n.val).chain.lastOut = some (w, sc, q))
      ∧ (s.lt ≤ r.closeLt + 100000 * nsU)) ∧
    (∃ (s : State) (n : Fin 384), (s.awake = true) ∧ ((s.ch n.val).chain.refill = true) ∧ ((s.ch n.val).chain.fillMet
      = true)) ∧
    (∃ (s : State) (n : Fin 384), (s.awake = true) ∧ ((s.ch n.val).chain.refill = false) ∧ ((s.ch n.val).chain.fillMet
      = true)) ∧
    (∃ (s : State) (n : Fin 384) (d : _) (rest : _), (s.awake = true) ∧ (s.chainQuiet n.val = false) ∧ ((s.ch
      n.val).chain.statDone = d :: rest)) ∧
    (∃ (s : State) (n : Fin 384) (w : Fin 4) (dst : _) (name : _) (wide : _) (q : _) (rest : _), (s.awake = true) ∧
      ((s.ch n.val).chain.swPend = (w.val, dst, name, wide, q) :: rest) ∧ (s.actFlag (R.CH_SW_CFG n.val)
      (F.CH_SW_CFG_EVEN w.val) = false)) ∧
    (∃ (s : State), (s.awake = true)) ∧
    (∃ (s : State) (n : Fin 384), (s.awake = true) ∧ (s.waitsBit n.val (R.CH_BQ_CTRL n.val) 8 = false) ∧ (s.waitsBit
      n.val (R.CH_BQ_CTRL n.val) 9 = false) ∧ (s.chainQuiet n.val = true) ∧ (s.rgState (rgnOf n.val) = rgStopped) ∧
      ((s.ch n.val).chain.ready = [])) ∧
    (∃ (s : State) (n : Fin 384), (s.awake = true) ∧ (s.waitsBit n.val (R.CH_BQ_CTRL n.val) 8 = false) ∧ (s.waitsBit
      n.val (R.CH_BQ_CTRL n.val) 9 = false) ∧ (s.chainQuiet n.val = true → s.rgState (rgnOf n.val) ≠ rgStopped)) ∧
    (∃ (s : State) (n : Nat) (x : Int), ((s.actReg (R.CH_COR_GAIN n)).toInt = 2 ^ 30) ∧ (s.actReg (R.CH_COR_OFS n) =
      0) ∧ (-(2 ^ 31) < x) ∧ (x < 2 ^ 31)) ∧
    (∃ (s : State) (k : Nat), ((s.reg (R.PRC_FIRC k 0)).toInt = 2 ^ 30)) ∧
    (∃ (c : Nat → Int) (x : Int), (c 0 = 2 ^ 28) ∧ (c 1 = 0) ∧ (c 2 = 0) ∧ (c 3 = 0) ∧ (c 4 = 0) ∧ (-iMax ≤ x) ∧ (x ≤
      iMax)) ∧
    (∃ (v : Nat), (v < 2 ^ 66)) :=
  ⟨⟨State.reset, (0 : Fin 384), by decide +kernel⟩,
   ⟨(State.reset.setCh 0 { ChanState.init with chain := { ChainState.init with ready := [closedSlot true false 0] }
     }), (0 : Fin 384), (List.head (((State.reset.setCh 0 { ChanState.init with chain :=
     { ChainState.init with ready := [closedSlot true false 0] } }).ch (0 : Fin 384).val).chain.ready)
     (by decide +kernel)), (List.tail (((State.reset.setCh 0 { ChanState.init with chain :=
     { ChainState.init with ready := [closedSlot true false 0] } }).ch (0 : Fin 384).val).chain.ready)), (Option.get
     ((List.head (((State.reset.setCh 0 { ChanState.init with chain :=
     { ChainState.init with ready := [closedSlot true false 0] } }).ch (0 : Fin 384).val).chain.ready)
     (by decide +kernel)).box) (by decide +kernel)), by decide +kernel⟩,
   ⟨(State.reset.setCh 0 { ChanState.init with chain :=
     { ChainState.init with ready := [closedSlot true false qInvalid] } }), (0 : Fin 384), (List.head
     (((State.reset.setCh 0 { ChanState.init with chain :=
     { ChainState.init with ready := [closedSlot true false qInvalid] } }).ch (0 : Fin 384).val).chain.ready)
     (by decide +kernel)), (List.tail (((State.reset.setCh 0 { ChanState.init with chain :=
     { ChainState.init with ready := [closedSlot true false qInvalid] } }).ch (0 : Fin 384).val).chain.ready)),
     (Option.get ((List.head (((State.reset.setCh 0 { ChanState.init with chain :=
     { ChainState.init with ready := [closedSlot true false qInvalid] } }).ch (0 : Fin 384).val).chain.ready)
     (by decide +kernel)).box) (by decide +kernel)), by decide +kernel⟩,
   ⟨((State.reset.setCh 0 { ChanState.init with chain :=
     { ChainState.init with ready := [closedSlot false true 0], lastOut := some (5, 6, 7) } }).setAct (R.CH_PRC_CTRL
     0) 0), (0 : Fin 384), (List.head ((((State.reset.setCh 0 { ChanState.init with chain :=
     { ChainState.init with ready := [closedSlot false true 0], lastOut := some (5, 6, 7) } }).setAct (R.CH_PRC_CTRL
     0) 0).ch (0 : Fin 384).val).chain.ready) (by decide +kernel)), (List.tail ((((State.reset.setCh 0 {
     ChanState.init with chain :=
     { ChainState.init with ready := [closedSlot false true 0], lastOut := some (5, 6, 7) } }).setAct (R.CH_PRC_CTRL
     0) 0).ch (0 : Fin 384).val).chain.ready)), (Option.get ((List.head ((((State.reset.setCh 0 { ChanState.init with
     chain := { ChainState.init with ready := [closedSlot false true 0], lastOut := some (5, 6, 7) } }).setAct
     (R.CH_PRC_CTRL 0) 0).ch (0 : Fin 384).val).chain.ready) (by decide +kernel)).box) (by decide +kernel)),
     ((Option.get ((((State.reset.setCh 0 { ChanState.init with chain :=
     { ChainState.init with ready := [closedSlot false true 0], lastOut := some (5, 6, 7) } }).setAct (R.CH_PRC_CTRL
     0) 0).ch (0 : Fin 384).val).chain.lastOut) (by decide +kernel)).1), ((Option.get ((((State.reset.setCh 0 {
     ChanState.init with chain :=
     { ChainState.init with ready := [closedSlot false true 0], lastOut := some (5, 6, 7) } }).setAct (R.CH_PRC_CTRL
     0) 0).ch (0 : Fin 384).val).chain.lastOut) (by decide +kernel)).2.1), ((Option.get ((((State.reset.setCh 0 {
     ChanState.init with chain :=
     { ChainState.init with ready := [closedSlot false true 0], lastOut := some (5, 6, 7) } }).setAct (R.CH_PRC_CTRL
     0) 0).ch (0 : Fin 384).val).chain.lastOut) (by decide +kernel)).2.2), by decide +kernel⟩,
   ⟨(State.reset.setCh 0 { ChanState.init with chain := { ChainState.init with refill := true, fillMet := true } }),
     (0 : Fin 384), by decide +kernel⟩,
   ⟨(State.reset.setCh 0 { ChanState.init with chain := { ChainState.init with fillMet := true } }), (0 : Fin 384),
     by decide +kernel⟩,
   ⟨((converting 0 (State.reset.setCh 0 { ChanState.init with chain :=
     { ChainState.init with statDone := [⟨StatBlock.init, false, false⟩] } }))), (0 : Fin 384), (List.head
     ((((converting 0 (State.reset.setCh 0 { ChanState.init with chain :=
     { ChainState.init with statDone := [⟨StatBlock.init, false, false⟩] } }))).ch (0 : Fin 384).val).chain.statDone)
     (by decide +kernel)), (List.tail ((((converting 0 (State.reset.setCh 0 { ChanState.init with chain :=
     { ChainState.init with statDone := [⟨StatBlock.init, false, false⟩] } }))).ch (0 : Fin
     384).val).chain.statDone)), by decide +kernel⟩,
   ⟨(State.reset.setCh 0 { ChanState.init with chain := { ChainState.init with swPend := [(3, true, 9, 5, 0)] } }), (0
     : Fin 384), (3 : Fin 4), (true), (9), (5), (0), ([]), by decide +kernel⟩,
   ⟨State.reset, by decide +kernel⟩,
   ⟨State.reset, (0 : Fin 384), by decide +kernel⟩,
   ⟨(State.reset.setRgState 0 rgPending), (0 : Fin 384), by decide +kernel⟩,
   ⟨State.reset, (0 : Nat), (0 : Int), by decide +kernel⟩,
   ⟨State.reset, (0 : Nat), by decide +kernel⟩,
   ⟨(fun i => if i = 0 then 2 ^ 28 else 0 : Nat → Int), (0 : Int), by decide +kernel⟩,
   ⟨(0 : Nat), by decide +kernel⟩⟩

/-- The hypotheses of `Obligations.CaptureRows` can be met, clause by clause. -/
theorem witness_capture_rows :
    (∃ (s : State) (b : Fin 16) (v : Word), (s.awake = true) ∧ ((s.cp b.val).armAt = none) ∧ ((s.cp b.val).disarmAt =
      none) ∧ (v.toNat % 16 = 1)) ∧
    (∃ (s : State) (b : Fin 16) (v : Word), (s.awake = true) ∧ ((s.cp b.val).armAt = none) ∧ ((s.cp b.val).disarmAt =
      none) ∧ (v.toNat % 16 = 2)) ∧
    (∃ (s : State) (b : Fin 16) (v : Word), (s.awake = true) ∧ ((s.cp b.val).armAt = none) ∧ ((s.cp b.val).disarmAt =
      none) ∧ (v.toNat % 16 = 4)) ∧
    (∃ (s : State) (b : Fin 16) (v : Word), (s.awake = true) ∧ ((s.cp b.val).armAt = none) ∧ ((s.cp b.val).disarmAt =
      none) ∧ (v.toNat % 16 = 8)) ∧
    (∃ (s : State) (b : Fin 16), (s.awake = true) ∧ ((s.cp b.val).armAt = none) ∧ ((s.cp b.val).disarmAt = none)) ∧
    (∃ (s : State) (b : Fin 16), (s.awake = true) ∧ ((s.cp b.val).armAt = none) ∧ ((s.cp b.val).disarmAt = none) ∧
      (s.capRowReady b.val = true) ∧ (s.capFormed b.val (s.capNext b.val) = true)) ∧
    (∃ (s : State) (b : Fin 16), (s.awake = true) ∧ ((s.cp b.val).armAt = none) ∧ ((s.cp b.val).disarmAt = none) ∧
      (s.capRowReady b.val = true) ∧ (s.capFormed b.val (s.capNext b.val) = false) ∧ (s.capState b.val = capArmed)) ∧
    (∃ (s : State) (b : Fin 16) (r : _), (s.awake = true) ∧ ((s.cp b.val).armAt = none) ∧ ((s.cp b.val).disarmAt =
      none) ∧ ((s.cp b.val).fin = some r) ∧ (s.capState b.val = capPost) ∧ (s.flag (R.CAP_CFG b.val) F.CAP_CFG_AUTO =
      false) ∧ (s.flag (R.CAP_CFG b.val) F.CAP_CFG_STRC = false) ∧ (s.flag (R.CAP_CFG b.val) F.CAP_CFG_HOSTC = true)) ∧
    (∃ (s : State) (b : Fin 16) (q : _), (s.awake = true) ∧ ((s.cp b.val).armAt = none) ∧ ((s.cp b.val).disarmAt =
      none) ∧ (s.capState b.val = capHold) ∧ ((s.cp b.val).holdLeft = 0) ∧ ((s.cp b.val).fin = none) ∧ (s.freeSlot
      b.val = some q)) ∧
    (∃ (s : State) (b : Fin 16), (s.awake = true) ∧ ((s.cp b.val).armAt = none) ∧ ((s.cp b.val).disarmAt = none)) ∧
    (∃ (s : State) (b : Fin 16), (s.capState b.val ≠ capIdle) ∧ (s.capState b.val ≠ capDone)) ∧
    (∃ (s : State) (b : Fin 16), (s.capState b.val = capIdle ∨ s.capState b.val = capDone) ∧ ((s.cp b.val).armAt =
      none) ∧ (s.armCause b.val = none)) ∧
    (∃ (s : State) (b : Fin 16) (c : _), (s.capState b.val = capIdle ∨ s.capState b.val = capDone) ∧ ((s.cp
      b.val).armAt = none) ∧ (s.armCause b.val = some c)) ∧
    (∃ (s : State) (b : Fin 16), (s.capState b.val ≠ capIdle) ∧ ((s.cp b.val).disarmAt = none)) ∧
    (∃ (s : State) (b : Fin 16) (w : Nat), (s.capState b.val ≠ capIdle) ∧ ((s.cp b.val).disarmAt = some w)) ∧
    (∃ (s : State) (b : Fin 16) (w : Nat), (s.capState b.val = capDone) ∧ ((s.cp b.val).armAt = some w) ∧ (s.armCause
      b.val = none)) ∧
    (∃ (s : State) (b : Fin 16), (∀ d ∈ (s.cp b.val).done, d.host = false)) ∧
    (∃ (s : State) (b : Fin 16) (t : _), ((s.cp b.val).disarmAt = none) ∧ ((s.cp b.val).armAt = some t) ∧ (s.lt < t)) ∧
    (∃ (s : State) (b : Fin 16) (t : _), ((s.cp b.val).disarmAt = none) ∧ ((s.cp b.val).armAt = some t) ∧ (t ≤ s.lt)) ∧
    (∃ (s : State) (b : Fin 16) (t : _), ((s.cp b.val).disarmAt = none) ∧ ((s.cp b.val).armAt = some t) ∧ (t ≤ s.lt)) ∧
    (∃ (s : State) (b : Fin 16) (t : _), ((s.cp b.val).disarmAt = none) ∧ ((s.cp b.val).armAt = some t) ∧ (t ≤ s.lt)) ∧
    (∃ (s : State) (b : Fin 16) (t : _), ((s.cp b.val).disarmAt = none) ∧ ((s.cp b.val).armAt = some t) ∧ (t ≤ s.lt)) ∧
    (∃ (s : State) (b : Fin 16) (t : _), ((s.cp b.val).disarmAt = none) ∧ ((s.cp b.val).armAt = some t) ∧ (t ≤ s.lt)) ∧
    (∃ (s : State) (b : Fin 16) (t : _) (q : _), ((s.cp b.val).disarmAt = none) ∧ ((s.cp b.val).armAt = some t) ∧ (t ≤
      s.lt) ∧ (s.freeSlot b.val = some q)) ∧
    (∃ (s : State) (b : Fin 16) (t : _), ((s.cp b.val).disarmAt = none) ∧ ((s.cp b.val).armAt = some t) ∧ (t ≤ s.lt) ∧
      (s.freeSlot b.val = none)) ∧
    (∃ (s : State) (b : Fin 16) (t : _), ((s.cp b.val).armAt = none) ∧ ((s.cp b.val).disarmAt = some t) ∧ (s.lt < t)) ∧
    (∃ (s : State) (b : Fin 16) (t : _), ((s.cp b.val).armAt = none) ∧ ((s.cp b.val).disarmAt = some t) ∧ (t ≤ s.lt)) ∧
    (∃ (s : State) (b : Fin 16) (t : _), ((s.cp b.val).armAt = none) ∧ ((s.cp b.val).disarmAt = some t) ∧ (t ≤ s.lt)) ∧
    (∃ (s : State) (b : Fin 16) (t : _), ((s.cp b.val).armAt = none) ∧ ((s.cp b.val).disarmAt = some t) ∧ (t ≤ s.lt)) ∧
    (∃ (s : State) (b : Fin 16) (t : _), ((s.cp b.val).armAt = none) ∧ ((s.cp b.val).disarmAt = some t) ∧ (t ≤ s.lt)) ∧
    (∃ (s : State) (b : Fin 16) (t : _) (r : _), ((s.cp b.val).armAt = none) ∧ ((s.cp b.val).disarmAt = some t) ∧ (t ≤
      s.lt) ∧ ((s.cp b.val).cur = some r)) ∧
    (∃ (s : State) (m : Vc1Msg), (s.awake = true) ∧ (15 ≤ m.hops.val)) ∧
    (∃ (s : State) (k : Fin 2) (m : Vc1Msg) (u : State), (s.awake = true) ∧ (s.takeVc1 k.val 0x10 m = (u, true)) ∧
      ((u.fld R.CAP_RING F.CAP_RING_RXEN).testBit (m.byte0.val % 8) = true)) ∧
    (∃ (s : State) (k : Fin 2) (m : Vc1Msg) (u : State), (s.awake = true) ∧ (s.takeVc1 k.val 0x10 m = (u, false))) ∧
    (∃ (s : State) (m : Vc1Msg), (s.awake = true) ∧ (m.hops.val < 15)) :=
  ⟨⟨State.reset, (15 : Fin 16), (1 : Word), by decide +kernel⟩,
   ⟨State.reset, (15 : Fin 16), (2 : Word), by decide +kernel⟩,
   ⟨State.reset, (15 : Fin 16), (4 : Word), by decide +kernel⟩,
   ⟨State.reset, (15 : Fin 16), (8 : Word), by decide +kernel⟩,
   ⟨State.reset, (0 : Fin 16), by decide +kernel⟩,
   ⟨((((converting 0 State.reset).setReg (R.CAP_CHL 15 0) (BitVec.ofNat 32 (2 ^ F.CAP_CHL_VALID.lo))).setRg 0
     { RegionState.init with runs := [(0, none)], edge := 2 ^ 90 }).setCapState 15 capArmed), (15 : Fin 16),
     by decide +kernel⟩,
   ⟨(((State.reset.setReg (R.CAP_CHL 15 0) (BitVec.ofNat 32 (2 ^ F.CAP_CHL_VALID.lo)))).setCapState 15 capArmed), (15
     : Fin 16), by decide +kernel⟩,
   ⟨((((diesUp State.reset).setCapState 15 capPost).setFlag (R.CAP_CFG 15) F.CAP_CFG_HOSTC true).setCp 15
     { CapState.init with fin := some ⟨0, 1, 1, 0, 0, 0, 0, 0, [], [], 0⟩ }), (15 : Fin 16), (Option.get ((((((diesUp
     State.reset).setCapState 15 capPost).setFlag (R.CAP_CFG 15) F.CAP_CFG_HOSTC true).setCp 15
     { CapState.init with fin := some ⟨0, 1, 1, 0, 0, 0, 0, 0, [], [], 0⟩ }).cp (15 : Fin 16).val).fin)
     (by decide +kernel)), by decide +kernel⟩,
   ⟨((State.reset.setCapState 15 capHold).setFld (R.CAP_PRE 15) F.CAP_PRE_PRE 0 |>.setReg (R.CAP_BUF 15) 0xFFFFFFFF),
     (15 : Fin 16), (Option.get (((State.reset.setCapState 15 capHold).setFld (R.CAP_PRE 15) F.CAP_PRE_PRE 0 |>.setReg
     (R.CAP_BUF 15) 0xFFFFFFFF).freeSlot (15 : Fin 16).val) (by decide +kernel)), by decide +kernel⟩,
   ⟨State.reset, (0 : Fin 16), by decide +kernel⟩,
   ⟨(State.reset.setCapState 0 capArmed), (0 : Fin 16), by decide +kernel⟩,
   ⟨(((((State.reset.setReg (R.CAP_CFG 15) 0x90000000).setReg (R.CAP_BUF 15) 0x01000000).setReg (R.CAP_SLOT 15)
     0x00000004).setReg (R.CAP_CHL 15 0) 0x80000000).setReg (R.CAP_CND 15 0) 0x80B00000), (15 : Fin 16),
     by decide +kernel⟩,
   ⟨State.reset, (0 : Fin 16), (Option.get (State.reset.armCause (0 : Fin 16).val) (by decide +kernel)),
     by decide +kernel⟩,
   ⟨(State.reset.setCapState 0 capArmed), (0 : Fin 16), by decide +kernel⟩,
   ⟨((State.reset.setCapState 15 capArmed).setCp 15 { CapState.init with disarmAt := some 5 }), (15 : Fin 16), (5 :
     Nat), by decide +kernel⟩,
   ⟨((((((((State.reset.setReg (R.CAP_CFG 15) 0x90000000).setReg (R.CAP_BUF 15) 0x01000000).setReg (R.CAP_SLOT 15)
     0x00000004).setReg (R.CAP_CHL 15 0) 0x80000000).setReg (R.CAP_CND 15 0) 0x80B00000).setCapState 15 capDone).setCp
     15 { CapState.init with armAt := some 5 })), (15 : Fin 16), (5 : Nat), by decide +kernel⟩,
   ⟨State.reset, (0 : Fin 16), by decide +kernel⟩,
   ⟨(State.reset.setCp 15 { CapState.init with armAt := some 9 }), (15 : Fin 16), (Option.get (((State.reset.setCp 15
     { CapState.init with armAt := some 9 }).cp (15 : Fin 16).val).armAt) (by decide +kernel)), by decide +kernel⟩,
   ⟨(State.reset.setCp 15 { CapState.init with armAt := some 0 }), (15 : Fin 16), (Option.get (((State.reset.setCp 15
     { CapState.init with armAt := some 0 }).cp (15 : Fin 16).val).armAt) (by decide +kernel)), by decide +kernel⟩,
   ⟨(State.reset.setCp 15 { CapState.init with armAt := some 0 }), (15 : Fin 16), (Option.get (((State.reset.setCp 15
     { CapState.init with armAt := some 0 }).cp (15 : Fin 16).val).armAt) (by decide +kernel)), by decide +kernel⟩,
   ⟨(State.reset.setCp 15 { CapState.init with armAt := some 0 }), (15 : Fin 16), (Option.get (((State.reset.setCp 15
     { CapState.init with armAt := some 0 }).cp (15 : Fin 16).val).armAt) (by decide +kernel)), by decide +kernel⟩,
   ⟨(State.reset.setCp 15 { CapState.init with armAt := some 0 }), (15 : Fin 16), (Option.get (((State.reset.setCp 15
     { CapState.init with armAt := some 0 }).cp (15 : Fin 16).val).armAt) (by decide +kernel)), by decide +kernel⟩,
   ⟨(State.reset.setCp 15 { CapState.init with armAt := some 0 }), (15 : Fin 16), (Option.get (((State.reset.setCp 15
     { CapState.init with armAt := some 0 }).cp (15 : Fin 16).val).armAt) (by decide +kernel)), by decide +kernel⟩,
   ⟨((State.reset.setReg (R.CAP_BUF 15) 0x01000000).setCp 15 { CapState.init with armAt := some 0 }), (15 : Fin 16),
     (Option.get ((((State.reset.setReg (R.CAP_BUF 15) 0x01000000).setCp 15 { CapState.init with armAt := some 0 }).cp
     (15 : Fin 16).val).armAt) (by decide +kernel)), (Option.get (((State.reset.setReg (R.CAP_BUF 15)
     0x01000000).setCp 15 { CapState.init with armAt := some 0 }).freeSlot (15 : Fin 16).val) (by decide +kernel)),
     by decide +kernel⟩,
   ⟨((State.reset.setReg (R.CAP_BUF 15) 0).setCp 15 { CapState.init with armAt := some 0, done := [⟨0, 1, true⟩] }),
     (15 : Fin 16), (Option.get ((((State.reset.setReg (R.CAP_BUF 15) 0).setCp 15
     { CapState.init with armAt := some 0, done := [⟨0, 1, true⟩] }).cp (15 : Fin 16).val).armAt)
     (by decide +kernel)), by decide +kernel⟩,
   ⟨((State.reset.setCapState 15 capArmed).setCp 15 { CapState.init with disarmAt := some 9 }), (15 : Fin 16),
     (Option.get ((((State.reset.setCapState 15 capArmed).setCp 15 { CapState.init with disarmAt := some 9 }).cp (15 :
     Fin 16).val).disarmAt) (by decide +kernel)), by decide +kernel⟩,
   ⟨((State.reset.setCapState 15 capArmed).setCp 15 { CapState.init with disarmAt := some 0 }), (15 : Fin 16),
     (Option.get ((((State.reset.setCapState 15 capArmed).setCp 15 { CapState.init with disarmAt := some 0 }).cp (15 :
     Fin 16).val).disarmAt) (by decide +kernel)), by decide +kernel⟩,
   ⟨((State.reset.setCapState 15 capArmed).setCp 15 { CapState.init with disarmAt := some 0 }), (15 : Fin 16),
     (Option.get ((((State.reset.setCapState 15 capArmed).setCp 15 { CapState.init with disarmAt := some 0 }).cp (15 :
     Fin 16).val).disarmAt) (by decide +kernel)), by decide +kernel⟩,
   ⟨((State.reset.setCapState 15 capArmed).setCp 15 { CapState.init with disarmAt := some 0 }), (15 : Fin 16),
     (Option.get ((((State.reset.setCapState 15 capArmed).setCp 15 { CapState.init with disarmAt := some 0 }).cp (15 :
     Fin 16).val).disarmAt) (by decide +kernel)), by decide +kernel⟩,
   ⟨((State.reset.setCapState 15 capArmed).setCp 15 { CapState.init with disarmAt := some 0 }), (15 : Fin 16),
     (Option.get ((((State.reset.setCapState 15 capArmed).setCp 15 { CapState.init with disarmAt := some 0 }).cp (15 :
     Fin 16).val).disarmAt) (by decide +kernel)), by decide +kernel⟩,
   ⟨((State.reset.setCapState 15 capPost).setCp 15
     { CapState.init with disarmAt := some 0, cur := some ⟨0, 1, 1, 0, 0, 0, 0, 0, [], [], 0⟩ }), (15 : Fin 16),
     (Option.get ((((State.reset.setCapState 15 capPost).setCp 15
     { CapState.init with disarmAt := some 0, cur := some ⟨0, 1, 1, 0, 0, 0, 0, 0, [], [], 0⟩ }).cp (15 : Fin
     16).val).disarmAt) (by decide +kernel)), (Option.get ((((State.reset.setCapState 15 capPost).setCp 15
     { CapState.init with disarmAt := some 0, cur := some ⟨0, 1, 1, 0, 0, 0, 0, 0, [], [], 0⟩ }).cp (15 : Fin
     16).val).cur) (by decide +kernel)), by decide +kernel⟩,
   ⟨State.reset, (⟨3, 15, 5, ⟨4, 0, 0⟩⟩ : Vc1Msg), by decide +kernel⟩,
   ⟨(State.reset.setFld R.CAP_RING F.CAP_RING_RXEN 0xFF), (0 : Fin 2), (⟨3, 3, 5, ⟨4, 0, 0⟩⟩ : Vc1Msg),
     (((State.reset.setFld R.CAP_RING F.CAP_RING_RXEN 0xFF).takeVc1 0 0x10 ⟨3, 3, 5, ⟨4, 0, 0⟩⟩).1 : State),
     ⟨by decide +kernel, rfl, by decide +kernel⟩⟩,
   ⟨({ State.reset with seenTrig := [(0x10, 5, 3, ltOp ⟨4, 0, 0⟩)] }), (0 : Fin 2), (⟨3, 3, 5, ⟨4, 0, 0⟩⟩ : Vc1Msg),
     ((({ State.reset with seenTrig := [(0x10, 5, 3, ltOp ⟨4, 0, 0⟩)] }).takeVc1 (0 : Fin 2).val 0x10 (⟨3, 3, 5, ⟨4,
     0, 0⟩⟩ : Vc1Msg)).1), by decide +kernel⟩,
   ⟨State.reset, (⟨3, 14, 5, ⟨4, 0, 0⟩⟩ : Vc1Msg), by decide +kernel⟩⟩

/-- The hypotheses of `Obligations.GougeRows` can be met, clause by clause. -/
theorem witness_gouge_rows :
    (∃ (s : State), (s.awake = true) ∧ (s.ggeSync = s) ∧ (s.gge.job = none) ∧ (∀ c, s.nextPkt c = none)) ∧
    (∃ (s : State) (c : _) (p : _), (s.awake = true) ∧ (s.ggeSync = s) ∧ (s.gge.job = none) ∧ (((List.range 512).map
      (fun i => (s.gge.last + 1 + i) % 512)).find? (fun c => decide (s.strState c ≠ 0) && s.ggeOn c && (s.nextPkt
      c).isSome) = some c) ∧ (s.nextPkt c = some p) ∧ (p.ptype ≠ 3)) ∧
    (∃ (s : State) (c : _) (p : _), (s.awake = true) ∧ (s.ggeSync = s) ∧ (s.gge.job = none) ∧ (((List.range 512).map
      (fun i => (s.gge.last + 1 + i) % 512)).find? (fun c => decide (s.strState c ≠ 0) && s.ggeOn c && (s.nextPkt
      c).isSome) = some c) ∧ (s.nextPkt c = some p) ∧ (p.ptype = 3)) ∧
    (∃ (s : State), (s.awake = true) ∧ (s.ggeSync = s) ∧ (s.gge.job = none)) ∧
    (∃ (s : State), (s.awake = true) ∧ (s.ggeSync = s) ∧ (s.flag R.GGE_STAT F.GGE_STAT_STALL = true)) ∧
    (∃ (s : State) (j : _), (s.awake = true) ∧ (s.ggeSync = s) ∧ (s.gge.job = some j) ∧ (s.flag R.GGE_STAT
      F.GGE_STAT_STALL = false) ∧ ((s.gg j.ctx).memBad = false) ∧ (verifyBlock (s.gg j.ctx).cfg (s.gg j.ctx).ver
      (decide (j.pkt.ptype = 1)) j.pkt.pseq j.pkt.payload j.blk = true)) ∧
    (∃ (s : State) (j : _) (m : _), (s.awake = true) ∧ (s.ggeSync = s) ∧ (s.gge.job = some j) ∧ (s.flag R.GGE_STAT
      F.GGE_STAT_STALL = false) ∧ (m = true ∨ (s.gg j.ctx).memBad = true ∨ verifyBlock (s.gg j.ctx).cfg (s.gg
      j.ctx).ver (decide (j.pkt.ptype = 1)) j.pkt.pseq j.pkt.payload j.blk = false)) ∧
    (∃ (s : State), (s.awake = true) ∧ (s.ggeSync = s) ∧ (s.gge.job = none ∨ s.flag R.GGE_STAT F.GGE_STAT_STALL =
      false)) ∧
    (∃ (s : State) (j : _), (s.awake = true) ∧ (s.ggeSync = s) ∧ (s.gge.job = some j) ∧ (s.flag R.GGE_STAT
      F.GGE_STAT_STALL = true) ∧ (j.raw = false)) ∧
    (∃ (s : State) (v : Word) (w : State), (s.awake = true) ∧ (s.ggeSync = s) ∧ (w = s.writeFlds R.GGE_CTRL
      ggeCtrlFlds v) ∧ (v.toNat.testBit 0 = true) ∧ (s.ggeTesting = false)) ∧
    (∃ (s : State) (x : _), (s.awake = true) ∧ (s.ggeSync = s) ∧ (s.flt.running = some x) ∧ (x.target =
      TestTarget.gouge) ∧ (s.flt.ended = []) ∧ (s.flt.queue = []) ∧ (s.flt.waiting = [])) ∧
    (∃ (s : State), (s.awake = true) ∧ (s.ggeSync = s) ∧ (s.flt.running = none)) :=
  ⟨⟨State.reset, ⟨by decide +kernel, by decide +kernel, by decide +kernel, fun c => rfl⟩⟩,
   ⟨((State.reset.setStr 511 { StrState.init with pkts := [onePacket], wp := 1 } |>.setFld (R.STR_STAT 511)
     F.STR_STAT_STATE 2 |>.setFlag (R.STR_CFG 511) F.STR_CFG_GGE true)), (511), (onePacket), by decide +kernel⟩,
   ⟨((State.reset.setStr 511 { StrState.init with pkts := [{ onePacket with bytes := descImage }], wp := 1 } |>.setFld
     (R.STR_STAT 511) F.STR_STAT_STATE 2 |>.setFlag (R.STR_CFG 511) F.STR_CFG_GGE true)), (511),
     ({ onePacket with bytes := descImage }), by decide +kernel⟩,
   ⟨State.reset, by decide +kernel⟩,
   ⟨(State.reset.setFlag R.GGE_STAT F.GGE_STAT_STALL true), by decide +kernel⟩,
   ⟨({ State.reset with gge.job := some storedJob }), (Option.get
     (({ State.reset with gge.job := some storedJob }).gge.job) (by decide +kernel)), by decide +kernel⟩,
   ⟨({ State.reset with gge.job := some storedJob }), (Option.get
     (({ State.reset with gge.job := some storedJob }).gge.job) (by decide +kernel)), (true), by decide +kernel⟩,
   ⟨({ State.reset with gge.job := some storedJob }), by decide +kernel⟩,
   ⟨({ State.reset.setFlag R.GGE_STAT F.GGE_STAT_STALL true with gge.job := some storedJob }), (Option.get
     (({ State.reset.setFlag R.GGE_STAT F.GGE_STAT_STALL true with gge.job := some storedJob }).gge.job)
     (by decide +kernel)), by decide +kernel⟩,
   ⟨State.reset, (1 : Word), (State.reset.writeFlds R.GGE_CTRL ggeCtrlFlds (1 : Word)), by decide +kernel⟩,
   ⟨({ State.reset with flt.running := some ⟨0, .gouge, 0, false⟩ }.setFld R.GGE_STAT F.GGE_STAT_STATE 1), (Option.get
     (({ State.reset with flt.running := some ⟨0, .gouge, 0, false⟩ }.setFld R.GGE_STAT F.GGE_STAT_STATE
     1).flt.running) (by decide +kernel)), by decide +kernel⟩,
   ⟨State.reset, by decide +kernel⟩⟩

/-- The hypotheses of `Obligations.SequencerRows` can be met, clause by clause. -/
theorem witness_sequencer_rows :
    (∃ (s : State) (g : Fin 8) (u : State) (i : _), (s.awake = true) ∧ (s.seqDue g.val = true) ∧ (s.seqValid g.val
      (s.seqPc g.val) = true) ∧ ((s.rg g.val).execs < 16) ∧ (u = s.setRg g.val
      { s.rg g.val with execs := (s.rg g.val).execs + 1 }) ∧ (i = s.seqPc g.val) ∧ (s.seqOp g.val i = 0)) ∧
    (∃ (s : State) (g : Fin 8) (u : State) (i : _), (s.awake = true) ∧ (s.seqDue g.val = true) ∧ (s.seqValid g.val
      (s.seqPc g.val) = true) ∧ ((s.rg g.val).execs < 16) ∧ (u = s.setRg g.val
      { s.rg g.val with execs := (s.rg g.val).execs + 1 }) ∧ (i = s.seqPc g.val) ∧ (s.seqOp g.val i = 1) ∧ (s.seqRep
      g.val i ≤ (s.rg g.val).reps + 1)) ∧
    (∃ (s : State) (g : Fin 8) (u : State) (i : _), (s.awake = true) ∧ (s.seqDue g.val = true) ∧ (s.seqValid g.val
      (s.seqPc g.val) = true) ∧ ((s.rg g.val).execs < 16) ∧ (u = s.setRg g.val
      { s.rg g.val with execs := (s.rg g.val).execs + 1 }) ∧ (i = s.seqPc g.val) ∧ (s.seqOp g.val i = 1) ∧ ((s.rg
      g.val).reps + 1 < s.seqRep g.val i)) ∧
    (∃ (s : State) (g : Fin 8) (u : State) (i : _), (s.awake = true) ∧ (s.seqDue g.val = true) ∧ (s.seqValid g.val
      (s.seqPc g.val) = true) ∧ ((s.rg g.val).execs < 16) ∧ (u = s.setRg g.val
      { s.rg g.val with execs := (s.rg g.val).execs + 1 }) ∧ (i = s.seqPc g.val) ∧ (s.seqOp g.val i = 2) ∧ ((s.fld
      (R.RGN_SEQ_CMPL g.val) F.RGN_SEQ_CMPL_CMPL).testBit (s.seqTgt g.val i) = true) ∧ (tabGet (fun _ => 0) (s.rg
      g.val).cmplAt (s.seqTgt g.val i) + 2000 * nsU ≤ (s.rg g.val).edge)) ∧
    (∃ (s : State) (g : Fin 8) (u : State) (i : _), (s.awake = true) ∧ (s.seqDue g.val = true) ∧ (s.seqValid g.val
      (s.seqPc g.val) = true) ∧ ((s.rg g.val).execs < 16) ∧ (u = s.setRg g.val
      { s.rg g.val with execs := (s.rg g.val).execs + 1 }) ∧ (i = s.seqPc g.val) ∧ (s.seqOp g.val i = 2) ∧ ((s.fld
      (R.RGN_SEQ_CMPL g.val) F.RGN_SEQ_CMPL_CMPL).testBit (s.seqTgt g.val i) = false ∨ (s.rg g.val).edge < tabGet (fun
      _ => 0) (s.rg g.val).cmplAt (s.seqTgt g.val i) + 2000 * nsU)) ∧
    (∃ (s : State) (g : Fin 8) (u : State) (i : _), (s.awake = true) ∧ (s.seqDue g.val = true) ∧ (s.seqValid g.val
      (s.seqPc g.val) = true) ∧ ((s.rg g.val).execs < 16) ∧ (u = s.setRg g.val
      { s.rg g.val with execs := (s.rg g.val).execs + 1 }) ∧ (i = s.seqPc g.val) ∧ (s.seqOp g.val i = 3) ∧ (s.seqTgt
      g.val i < 48)) ∧
    (∃ (s : State) (g : Fin 8) (u : State) (i : _), (s.awake = true) ∧ (s.seqDue g.val = true) ∧ (s.seqValid g.val
      (s.seqPc g.val) = true) ∧ ((s.rg g.val).execs < 16) ∧ (u = s.setRg g.val
      { s.rg g.val with execs := (s.rg g.val).execs + 1 }) ∧ (i = s.seqPc g.val) ∧ (s.seqOp g.val i = 3) ∧ (48 ≤
      s.seqTgt g.val i)) ∧
    (∃ (s : State) (g : Fin 8) (u : State) (i : _), (s.awake = true) ∧ (s.seqDue g.val = true) ∧ (s.seqValid g.val
      (s.seqPc g.val) = true) ∧ ((s.rg g.val).execs < 16) ∧ (u = s.setRg g.val
      { s.rg g.val with execs := (s.rg g.val).execs + 1 }) ∧ (i = s.seqPc g.val) ∧ (s.seqOp g.val i = 4)) ∧
    (∃ (s : State) (g : Fin 8) (u : State) (i : _), (s.awake = true) ∧ (s.seqDue g.val = true) ∧ (s.seqValid g.val
      (s.seqPc g.val) = true) ∧ ((s.rg g.val).execs < 16) ∧ (u = s.setRg g.val
      { s.rg g.val with execs := (s.rg g.val).execs + 1 }) ∧ (i = s.seqPc g.val) ∧ (s.seqOp g.val i = 5)) ∧
    (∃ (s : State) (g : Fin 8) (u : State) (i : _) (c : _) (p : _), (s.awake = true) ∧ (s.seqDue g.val = true) ∧
      (s.seqValid g.val (s.seqPc g.val) = true) ∧ ((s.rg g.val).execs < 16) ∧ (u = s.setRg g.val
      { s.rg g.val with execs := (s.rg g.val).execs + 1 }) ∧ (i = s.seqPc g.val) ∧ (c ∈ [(6, Instr.calNext g,
      OpKind.cal, true), (7, .impNext g, .imp, false), (8, .calimpNext g, .calimp, false)]) ∧ (s.seqOp g.val i = c.1)
      ∧ (s.rotNext g.val (s.rotLen g.val) (s.fld (R.RGN_SEQ_ROT g.val) F.RGN_SEQ_ROT_POS) c.2.2.2 = some p)) ∧
    (∃ (s : State) (g : Fin 8) (u : State) (i : _) (c : _), (s.awake = true) ∧ (s.seqDue g.val = true) ∧ (s.seqValid
      g.val (s.seqPc g.val) = true) ∧ ((s.rg g.val).execs < 16) ∧ (u = s.setRg g.val
      { s.rg g.val with execs := (s.rg g.val).execs + 1 }) ∧ (i = s.seqPc g.val) ∧ (c ∈ [(6, Instr.calNext g,
      OpKind.cal, true), (7, .impNext g, .imp, false), (8, .calimpNext g, .calimp, false)]) ∧ (s.seqOp g.val i = c.1)
      ∧ (s.rotNext g.val (s.rotLen g.val) (s.fld (R.RGN_SEQ_ROT g.val) F.RGN_SEQ_ROT_POS) c.2.2.2 = none)) ∧
    (∃ (s : State) (g : Fin 8) (u : State) (i : _), (s.awake = true) ∧ (s.seqDue g.val = true) ∧ (s.seqValid g.val
      (s.seqPc g.val) = true) ∧ ((s.rg g.val).execs < 16) ∧ (u = s.setRg g.val
      { s.rg g.val with execs := (s.rg g.val).execs + 1 }) ∧ (i = s.seqPc g.val) ∧ (s.seqOp g.val i = 9)) ∧
    (∃ (s : State) (g : Fin 8) (u : State) (i : _), (s.awake = true) ∧ (s.seqDue g.val = true) ∧ (s.seqValid g.val
      (s.seqPc g.val) = true) ∧ ((s.rg g.val).execs < 16) ∧ (u = s.setRg g.val
      { s.rg g.val with execs := (s.rg g.val).execs + 1 }) ∧ (i = s.seqPc g.val) ∧ (s.seqOp g.val i = 10)) ∧
    (∃ (s : State) (g : Fin 8) (u : State) (i : _), (s.awake = true) ∧ (s.seqDue g.val = true) ∧ (s.seqValid g.val
      (s.seqPc g.val) = true) ∧ ((s.rg g.val).execs < 16) ∧ (u = s.setRg g.val
      { s.rg g.val with execs := (s.rg g.val).execs + 1 }) ∧ (i = s.seqPc g.val) ∧ (s.seqOp g.val i = 11)) ∧
    (∃ (s : State) (g : Fin 8) (u : State) (i : _), (s.awake = true) ∧ (s.seqDue g.val = true) ∧ (s.seqValid g.val
      (s.seqPc g.val) = true) ∧ ((s.rg g.val).execs < 16) ∧ (u = s.setRg g.val
      { s.rg g.val with execs := (s.rg g.val).execs + 1 }) ∧ (i = s.seqPc g.val) ∧ (s.seqOp g.val i = 12) ∧ (s.seqRep
      g.val i = 0)) ∧
    (∃ (s : State) (g : Fin 8) (u : State) (i : _), (s.awake = true) ∧ (s.seqDue g.val = true) ∧ (s.seqValid g.val
      (s.seqPc g.val) = true) ∧ ((s.rg g.val).execs < 16) ∧ (u = s.setRg g.val
      { s.rg g.val with execs := (s.rg g.val).execs + 1 }) ∧ (i = s.seqPc g.val) ∧ (s.seqOp g.val i = 12) ∧ (s.seqRep
      g.val i ≠ 0) ∧ (tabGet (fun _ => 0) (s.rg g.val).loops i = 0)) ∧
    (∃ (s : State) (g : Fin 8) (u : State) (i : _) (k : _), (s.awake = true) ∧ (s.seqDue g.val = true) ∧ (s.seqValid
      g.val (s.seqPc g.val) = true) ∧ ((s.rg g.val).execs < 16) ∧ (u = s.setRg g.val
      { s.rg g.val with execs := (s.rg g.val).execs + 1 }) ∧ (i = s.seqPc g.val) ∧ (s.seqOp g.val i = 12) ∧ (s.seqRep
      g.val i ≠ 0) ∧ (tabGet (fun _ => 0) (s.rg g.val).loops i = k + 2)) ∧
    (∃ (s : State) (g : Fin 8) (u : State) (i : _), (s.awake = true) ∧ (s.seqDue g.val = true) ∧ (s.seqValid g.val
      (s.seqPc g.val) = true) ∧ ((s.rg g.val).execs < 16) ∧ (u = s.setRg g.val
      { s.rg g.val with execs := (s.rg g.val).execs + 1 }) ∧ (i = s.seqPc g.val) ∧ (s.seqOp g.val i = 12) ∧ (s.seqRep
      g.val i ≠ 0) ∧ (tabGet (fun _ => 0) (s.rg g.val).loops i = 1)) ∧
    (∃ (s : State) (g : Fin 8) (u : State) (i : _), (s.awake = true) ∧ (s.seqDue g.val = true) ∧ (s.seqValid g.val
      (s.seqPc g.val) = true) ∧ ((s.rg g.val).execs < 16) ∧ (u = s.setRg g.val
      { s.rg g.val with execs := (s.rg g.val).execs + 1 }) ∧ (i = s.seqPc g.val) ∧ (s.seqOp g.val i = 13) ∧ ((s.rg
      g.val).queue = []) ∧ ((s.rg g.val).running = []) ∧ ((s.rg g.val).idleAt + 2000 * nsU ≤ (s.rg g.val).edge)) ∧
    (∃ (s : State) (g : Fin 8) (u : State) (i : _), (s.awake = true) ∧ (s.seqDue g.val = true) ∧ (s.seqValid g.val
      (s.seqPc g.val) = true) ∧ ((s.rg g.val).execs < 16) ∧ (u = s.setRg g.val
      { s.rg g.val with execs := (s.rg g.val).execs + 1 }) ∧ (i = s.seqPc g.val) ∧ (s.seqOp g.val i = 13) ∧ ((s.rg
      g.val).queue ≠ [] ∨ (s.rg g.val).running ≠ [] ∨ (s.rg g.val).edge < (s.rg g.val).idleAt + 2000 * nsU)) ∧
    (∃ (s : State) (g : Fin 8), (s.awake = true) ∧ (s.seqDue g.val = true) ∧ (s.seqValid g.val (s.seqPc g.val) =
      false)) ∧
    (∃ (s : State) (g : Fin 8), (s.awake = true) ∧ (s.runs g.val = true) ∧ ((s.rg g.val).delaying = true) ∧ ((s.rg
      g.val).delay = 0)) ∧
    (∃ (s : State) (g : Fin 8), (s.awake = true) ∧ (s.seqDue g.val = true) ∧ (s.seqValid g.val (s.seqPc g.val) = true)
      ∧ (s.seqOp g.val (s.seqPc g.val) = 1) ∧ ((s.rg g.val).execs = 16)) ∧
    (∃ (s : State) (g : Fin 8) (v : Word), (s.awake = true) ∧ (s.dieUp (dieOf g.val) = true) ∧ ((s.dl (dieOf
      g.val)).toFe = []) ∧ (v.toNat.testBit 0 = true) ∧ (s.actFlag (R.RGN_SEQ_CTRL g.val) F.RGN_SEQ_CTRL_RUN = false)) ∧
    (∃ (s : State) (g : Fin 8) (v : Word), (s.awake = true) ∧ (s.dieUp (dieOf g.val) = true) ∧ ((s.dl (dieOf
      g.val)).toFe = []) ∧ (v.toNat.testBit 0 = false) ∧ (s.actFlag (R.RGN_SEQ_CTRL g.val) F.RGN_SEQ_CTRL_RUN = true)) ∧
    (∃ (s : State) (g : Fin 8) (v : Word) (c : _), (s.awake = true) ∧ (s.dieUp (dieOf g.val) = false) ∧ ((s.dl (dieOf
      g.val)).queued.length < 64) ∧ (c ∈ [Instr.rgnSeqRunSet g v, .rgnSeqRunClear g v])) :=
  ⟨⟨(sequencerAt 0 0 0 0 0 RegionState.init), (0 : Fin 8), ((sequencerAt 0 0 0 0 0 RegionState.init).setRg (0 : Fin
     8).val { (sequencerAt 0 0 0 0 0 RegionState.init).rg (0 : Fin 8).val with execs := ((sequencerAt 0 0 0 0 0
     RegionState.init).rg (0 : Fin 8).val).execs + 1 }), ((sequencerAt 0 0 0 0 0 RegionState.init).seqPc (0 : Fin
     8).val), by and_intros <;> first | with_reducible rfl | decide +kernel | rfl⟩,
   ⟨(sequencerAt 1 0 0 1 5 RegionState.init), (0 : Fin 8), ((sequencerAt 1 0 0 1 5 RegionState.init).setRg (0 : Fin
     8).val { (sequencerAt 1 0 0 1 5 RegionState.init).rg (0 : Fin 8).val with execs := ((sequencerAt 1 0 0 1 5
     RegionState.init).rg (0 : Fin 8).val).execs + 1 }), ((sequencerAt 1 0 0 1 5 RegionState.init).seqPc (0 : Fin
     8).val), by and_intros <;> first | with_reducible rfl | decide +kernel | rfl⟩,
   ⟨(sequencerAt 1 0 0 9 0 RegionState.init), (0 : Fin 8), ((sequencerAt 1 0 0 9 0 RegionState.init).setRg (0 : Fin
     8).val { (sequencerAt 1 0 0 9 0 RegionState.init).rg (0 : Fin 8).val with execs := ((sequencerAt 1 0 0 9 0
     RegionState.init).rg (0 : Fin 8).val).execs + 1 }), ((sequencerAt 1 0 0 9 0 RegionState.init).seqPc (0 : Fin
     8).val), by and_intros <;> first | with_reducible rfl | decide +kernel | rfl⟩,
   ⟨((sequencerAt 2 15 0 0 0 RegionState.init).setFld (R.RGN_SEQ_CMPL 0) F.RGN_SEQ_CMPL_CMPL 0x8000 |>.setRg 0
     { RegionState.init with started := true, edge := 2000 * nsU }), (0 : Fin 8), (((sequencerAt 2 15 0 0 0
     RegionState.init).setFld (R.RGN_SEQ_CMPL 0) F.RGN_SEQ_CMPL_CMPL 0x8000 |>.setRg 0
     { RegionState.init with started := true, edge := 2000 * nsU }).setRg (0 : Fin 8).val { ((sequencerAt 2 15 0 0 0
     RegionState.init).setFld (R.RGN_SEQ_CMPL 0) F.RGN_SEQ_CMPL_CMPL 0x8000 |>.setRg 0
     { RegionState.init with started := true, edge := 2000 * nsU }).rg (0 : Fin 8).val with execs := (((sequencerAt 2
     15 0 0 0 RegionState.init).setFld (R.RGN_SEQ_CMPL 0) F.RGN_SEQ_CMPL_CMPL 0x8000 |>.setRg 0
     { RegionState.init with started := true, edge := 2000 * nsU }).rg (0 : Fin 8).val).execs + 1 }), (((sequencerAt 2
     15 0 0 0 RegionState.init).setFld (R.RGN_SEQ_CMPL 0) F.RGN_SEQ_CMPL_CMPL 0x8000 |>.setRg 0
     { RegionState.init with started := true, edge := 2000 * nsU }).seqPc (0 : Fin 8).val),
     by and_intros <;> first | with_reducible rfl | decide +kernel | rfl⟩,
   ⟨(sequencerAt 2 15 0 0 0 RegionState.init), (0 : Fin 8), ((sequencerAt 2 15 0 0 0 RegionState.init).setRg (0 : Fin
     8).val { (sequencerAt 2 15 0 0 0 RegionState.init).rg (0 : Fin 8).val with execs := ((sequencerAt 2 15 0 0 0
     RegionState.init).rg (0 : Fin 8).val).execs + 1 }), ((sequencerAt 2 15 0 0 0 RegionState.init).seqPc (0 : Fin
     8).val), by and_intros <;> first | with_reducible rfl | decide +kernel | rfl⟩,
   ⟨(sequencerAt 3 47 0 0 0 RegionState.init), (0 : Fin 8), ((sequencerAt 3 47 0 0 0 RegionState.init).setRg (0 : Fin
     8).val { (sequencerAt 3 47 0 0 0 RegionState.init).rg (0 : Fin 8).val with execs := ((sequencerAt 3 47 0 0 0
     RegionState.init).rg (0 : Fin 8).val).execs + 1 }), ((sequencerAt 3 47 0 0 0 RegionState.init).seqPc (0 : Fin
     8).val), by and_intros <;> first | with_reducible rfl | decide +kernel | rfl⟩,
   ⟨(sequencerAt 3 53 0 0 0 RegionState.init), (0 : Fin 8), ((sequencerAt 3 53 0 0 0 RegionState.init).setRg (0 : Fin
     8).val { (sequencerAt 3 53 0 0 0 RegionState.init).rg (0 : Fin 8).val with execs := ((sequencerAt 3 53 0 0 0
     RegionState.init).rg (0 : Fin 8).val).execs + 1 }), ((sequencerAt 3 53 0 0 0 RegionState.init).seqPc (0 : Fin
     8).val), by and_intros <;> first | with_reducible rfl | decide +kernel | rfl⟩,
   ⟨(sequencerAt 4 47 0 0 0 RegionState.init), (0 : Fin 8), ((sequencerAt 4 47 0 0 0 RegionState.init).setRg (0 : Fin
     8).val { (sequencerAt 4 47 0 0 0 RegionState.init).rg (0 : Fin 8).val with execs := ((sequencerAt 4 47 0 0 0
     RegionState.init).rg (0 : Fin 8).val).execs + 1 }), ((sequencerAt 4 47 0 0 0 RegionState.init).seqPc (0 : Fin
     8).val), by and_intros <;> first | with_reducible rfl | decide +kernel | rfl⟩,
   ⟨(sequencerAt 5 47 0 0 0 RegionState.init), (0 : Fin 8), ((sequencerAt 5 47 0 0 0 RegionState.init).setRg (0 : Fin
     8).val { (sequencerAt 5 47 0 0 0 RegionState.init).rg (0 : Fin 8).val with execs := ((sequencerAt 5 47 0 0 0
     RegionState.init).rg (0 : Fin 8).val).execs + 1 }), ((sequencerAt 5 47 0 0 0 RegionState.init).seqPc (0 : Fin
     8).val), by and_intros <;> first | with_reducible rfl | decide +kernel | rfl⟩,
   ⟨((sequencerAt 6 0 0 0 0 RegionState.init).setReg (R.RGN_SEQ_MASK 0) 0xFFFFFFFF), (0 : Fin 8), (((sequencerAt 6 0 0
     0 0 RegionState.init).setReg (R.RGN_SEQ_MASK 0) 0xFFFFFFFF).setRg (0 : Fin 8).val { ((sequencerAt 6 0 0 0 0
     RegionState.init).setReg (R.RGN_SEQ_MASK 0) 0xFFFFFFFF).rg (0 : Fin 8).val with execs := (((sequencerAt 6 0 0 0 0
     RegionState.init).setReg (R.RGN_SEQ_MASK 0) 0xFFFFFFFF).rg (0 : Fin 8).val).execs + 1 }), (((sequencerAt 6 0 0 0
     0 RegionState.init).setReg (R.RGN_SEQ_MASK 0) 0xFFFFFFFF).seqPc (0 : Fin 8).val), ((6, Instr.calNext 0,
     OpKind.cal, true)), (0), ⟨by decide +kernel, by decide +kernel, by decide +kernel, by decide +kernel, rfl, rfl,
     by simp, by decide +kernel, by decide +kernel⟩⟩,
   ⟨((sequencerAt 6 0 0 0 0 RegionState.init).setReg (R.RGN_SEQ_MASK 0) 0 |>.setReg (R.RGN_SEQ_MASK_HI 0) 0), (0 : Fin
     8), (((sequencerAt 6 0 0 0 0 RegionState.init).setReg (R.RGN_SEQ_MASK 0) 0 |>.setReg (R.RGN_SEQ_MASK_HI 0)
     0).setRg (0 : Fin 8).val { ((sequencerAt 6 0 0 0 0 RegionState.init).setReg (R.RGN_SEQ_MASK 0) 0 |>.setReg
     (R.RGN_SEQ_MASK_HI 0) 0).rg (0 : Fin 8).val with execs := (((sequencerAt 6 0 0 0 0 RegionState.init).setReg
     (R.RGN_SEQ_MASK 0) 0 |>.setReg (R.RGN_SEQ_MASK_HI 0) 0).rg (0 : Fin 8).val).execs + 1 }), (((sequencerAt 6 0 0 0
     0 RegionState.init).setReg (R.RGN_SEQ_MASK 0) 0 |>.setReg (R.RGN_SEQ_MASK_HI 0) 0).seqPc (0 : Fin 8).val), ((6,
     Instr.calNext 0, OpKind.cal, true)), ⟨by decide +kernel, by decide +kernel, by decide +kernel, by decide +kernel,
     rfl, rfl, by simp, by decide +kernel, by decide +kernel⟩⟩,
   ⟨(sequencerAt 9 5 511 0 0 RegionState.init), (0 : Fin 8), ((sequencerAt 9 5 511 0 0 RegionState.init).setRg (0 :
     Fin 8).val { (sequencerAt 9 5 511 0 0 RegionState.init).rg (0 : Fin 8).val with execs := ((sequencerAt 9 5 511 0
     0 RegionState.init).rg (0 : Fin 8).val).execs + 1 }), ((sequencerAt 9 5 511 0 0 RegionState.init).seqPc (0 : Fin
     8).val), by and_intros <;> first | with_reducible rfl | decide +kernel | rfl⟩,
   ⟨(sequencerAt 10 255 2 0 0 RegionState.init), (0 : Fin 8), ((sequencerAt 10 255 2 0 0 RegionState.init).setRg (0 :
     Fin 8).val { (sequencerAt 10 255 2 0 0 RegionState.init).rg (0 : Fin 8).val with execs := ((sequencerAt 10 255 2
     0 0 RegionState.init).rg (0 : Fin 8).val).execs + 1 }), ((sequencerAt 10 255 2 0 0 RegionState.init).seqPc (0 :
     Fin 8).val), by and_intros <;> first | with_reducible rfl | decide +kernel | rfl⟩,
   ⟨(sequencerAt 11 0 9 0 0 RegionState.init), (0 : Fin 8), ((sequencerAt 11 0 9 0 0 RegionState.init).setRg (0 : Fin
     8).val { (sequencerAt 11 0 9 0 0 RegionState.init).rg (0 : Fin 8).val with execs := ((sequencerAt 11 0 9 0 0
     RegionState.init).rg (0 : Fin 8).val).execs + 1 }), ((sequencerAt 11 0 9 0 0 RegionState.init).seqPc (0 : Fin
     8).val), by and_intros <;> first | with_reducible rfl | decide +kernel | rfl⟩,
   ⟨(sequencerAt 12 0 200 0 0 RegionState.init), (0 : Fin 8), ((sequencerAt 12 0 200 0 0 RegionState.init).setRg (0 :
     Fin 8).val { (sequencerAt 12 0 200 0 0 RegionState.init).rg (0 : Fin 8).val with execs := ((sequencerAt 12 0 200
     0 0 RegionState.init).rg (0 : Fin 8).val).execs + 1 }), ((sequencerAt 12 0 200 0 0 RegionState.init).seqPc (0 :
     Fin 8).val), by and_intros <;> first | with_reducible rfl | decide +kernel | rfl⟩,
   ⟨(sequencerAt 12 0 200 3 0 RegionState.init), (0 : Fin 8), ((sequencerAt 12 0 200 3 0 RegionState.init).setRg (0 :
     Fin 8).val { (sequencerAt 12 0 200 3 0 RegionState.init).rg (0 : Fin 8).val with execs := ((sequencerAt 12 0 200
     3 0 RegionState.init).rg (0 : Fin 8).val).execs + 1 }), ((sequencerAt 12 0 200 3 0 RegionState.init).seqPc (0 :
     Fin 8).val), by and_intros <;> first | with_reducible rfl | decide +kernel | rfl⟩,
   ⟨(sequencerAt 12 0 200 3 0 { RegionState.init with loops := [(0, 5)] }), (0 : Fin 8), ((sequencerAt 12 0 200 3 0
     { RegionState.init with loops := [(0, 5)] }).setRg (0 : Fin 8).val { (sequencerAt 12 0 200 3 0
     { RegionState.init with loops := [(0, 5)] }).rg (0 : Fin 8).val with execs := ((sequencerAt 12 0 200 3 0
     { RegionState.init with loops := [(0, 5)] }).rg (0 : Fin 8).val).execs + 1 }), ((sequencerAt 12 0 200 3 0
     { RegionState.init with loops := [(0, 5)] }).seqPc (0 : Fin 8).val), (3),
     by and_intros <;> first | with_reducible rfl | decide +kernel | rfl⟩,
   ⟨(sequencerAt 12 0 200 3 0 { RegionState.init with loops := [(0, 1)] }), (0 : Fin 8), ((sequencerAt 12 0 200 3 0
     { RegionState.init with loops := [(0, 1)] }).setRg (0 : Fin 8).val { (sequencerAt 12 0 200 3 0
     { RegionState.init with loops := [(0, 1)] }).rg (0 : Fin 8).val with execs := ((sequencerAt 12 0 200 3 0
     { RegionState.init with loops := [(0, 1)] }).rg (0 : Fin 8).val).execs + 1 }), ((sequencerAt 12 0 200 3 0
     { RegionState.init with loops := [(0, 1)] }).seqPc (0 : Fin 8).val),
     by and_intros <;> first | with_reducible rfl | decide +kernel | rfl⟩,
   ⟨(sequencerAt 13 0 0 0 0 { RegionState.init with edge := 2000 * nsU }), (0 : Fin 8), ((sequencerAt 13 0 0 0 0
     { RegionState.init with edge := 2000 * nsU }).setRg (0 : Fin 8).val { (sequencerAt 13 0 0 0 0
     { RegionState.init with edge := 2000 * nsU }).rg (0 : Fin 8).val with execs := ((sequencerAt 13 0 0 0 0
     { RegionState.init with edge := 2000 * nsU }).rg (0 : Fin 8).val).execs + 1 }), ((sequencerAt 13 0 0 0 0
     { RegionState.init with edge := 2000 * nsU }).seqPc (0 : Fin 8).val),
     by and_intros <;> first | with_reducible rfl | decide +kernel | rfl⟩,
   ⟨(sequencerAt 13 0 0 0 0 { RegionState.init with queue := [⟨.cal, 0, 3, 255, false⟩] }), (0 : Fin 8), ((sequencerAt
     13 0 0 0 0 { RegionState.init with queue := [⟨.cal, 0, 3, 255, false⟩] }).setRg (0 : Fin 8).val { (sequencerAt 13
     0 0 0 0 { RegionState.init with queue := [⟨.cal, 0, 3, 255, false⟩] }).rg (0 : Fin 8).val with execs :=
     ((sequencerAt 13 0 0 0 0 { RegionState.init with queue := [⟨.cal, 0, 3, 255, false⟩] }).rg (0 : Fin 8).val).execs
     + 1 }), ((sequencerAt 13 0 0 0 0 { RegionState.init with queue := [⟨.cal, 0, 3, 255, false⟩] }).seqPc (0 : Fin
     8).val), by and_intros <;> first | with_reducible rfl | decide +kernel | rfl⟩,
   ⟨(sequencerAt 15 0 0 0 0 RegionState.init), (0 : Fin 8), by decide +kernel⟩,
   ⟨((converting 0 State.reset).setRg 0 { RegionState.init with delaying := true }), (0 : Fin 8), by decide +kernel⟩,
   ⟨(sequencerAt 1 0 0 0 0 { RegionState.init with execs := 16 }), (0 : Fin 8), by decide +kernel⟩,
   ⟨(diesUp State.reset), (0 : Fin 8), (1 : Word), by decide +kernel⟩,
   ⟨((diesUp State.reset).setAct (R.RGN_SEQ_CTRL 0) (BitVec.ofNat 32 (2 ^ F.RGN_SEQ_CTRL_RUN.lo))), (0 : Fin 8), (0 :
     Word), by decide +kernel⟩,
   ⟨State.reset, (0 : Fin 8), (0 : Word), (Instr.rgnSeqRunSet (0 : Fin 8) (0 : Word)), by decide +kernel⟩⟩

/-- The hypotheses of `Obligations.RotationOrder` can be met, clause by clause. -/
theorem witness_rotation_order :
    (∃ (i : _), (i < 48)) ∧
    (∃ (i : _), (i < 48)) ∧
    (∃ (i : _), (i < 6)) :=
  ⟨⟨(0), by decide +kernel⟩,
   ⟨(0), by decide +kernel⟩,
   ⟨(0), by decide +kernel⟩⟩

/-- The hypotheses of `Obligations.PtpRows` can be met, clause by clause. -/
theorem witness_ptp_rows :
    (∃ (s : State) (m : PtpMsg) (ph : Phase) (frq : BitVec 32) (f : Bool) (c : Instr), (s.awake = true) ∧
      (s.spn.refclk = true) ∧ (c ∈ [Instr.syncRx m ph frq, .followUpRx m frq, .delayRespRx m frq, .pdelayReqRx m ⟨ph,
      ph⟩, .pdelayRespRx m f ph]) ∧ (s.rxLive m.rx.port.val m.rx.head = false)) ∧
    (∃ (s : State) (m : PtpMsg) (ph : Phase) (frq : BitVec 32) (f : Bool) (c : Instr), (s.awake = true) ∧
      (s.spn.refclk = true) ∧ (c ∈ [Instr.syncRx m ph frq, .followUpRx m frq, .delayRespRx m frq, .pdelayReqRx m ⟨ph,
      ph⟩, .pdelayRespRx m f ph]) ∧ (s.rxLive m.rx.port.val m.rx.head = true) ∧ (s.frameOk m.rx.port.val m.rx.head
      .ptp = false)) ∧
    (∃ (s : State) (m : PtpMsg) (t : Nat), (s.awake = true) ∧ (s.spn.refclk = true) ∧ (s.rxLive m.rx.port.val
      m.rx.head = true) ∧ (s.frameOk m.rx.port.val m.rx.head .ptp = true) ∧ (s.ptpTracker m.domain.val = some t) ∧
      (syncInterval m.interval = false)) ∧
    (∃ (s : State) (m : PtpMsg) (t : Nat), (s.awake = true) ∧ (s.spn.refclk = true) ∧ (s.rxLive m.rx.port.val
      m.rx.head = true) ∧ (s.frameOk m.rx.port.val m.rx.head .ptp = true) ∧ (s.ptpTracker m.domain.val = some t) ∧
      (syncInterval m.interval = true) ∧ (s.refreshTrackers = s) ∧ ((s.trk t).bestSource = some m.source) ∧ (m.twoStep
      = true) ∧ (s.tkState t ≠ tkNoSource)) ∧
    (∃ (s : State) (m : PtpMsg) (t : Nat) (md : Int), (s.awake = true) ∧ (s.spn.refclk = true) ∧ (s.rxLive
      m.rx.port.val m.rx.head = true) ∧ (s.frameOk m.rx.port.val m.rx.head .ptp = true) ∧ (s.ptpTracker m.domain.val =
      some t) ∧ (syncInterval m.interval = true) ∧ (s.refreshTrackers = s) ∧ ((s.trk t).bestSource = some m.source) ∧
      (m.twoStep = false) ∧ (s.tkState t ≠ tkNoSource) ∧ ((s.trk t).meanDelay = some md)) ∧
    (∃ (s : State) (m : PtpMsg) (t : Nat), (s.awake = true) ∧ (s.spn.refclk = true) ∧ (s.rxLive m.rx.port.val
      m.rx.head = true) ∧ (s.frameOk m.rx.port.val m.rx.head .ptp = true) ∧ (s.ptpTracker m.domain.val = some t) ∧
      ((s.trk t).bestSource = some m.source) ∧ ((s.trk t).syncSeq = m.seqId.val) ∧ ((s.trk t).syncT1 = none) ∧ ((s.trk
      t).meanDelay = none)) ∧
    (∃ (s : State) (m : PtpMsg) (t : Nat) (t3 : Nat) (t1 : Nat), (s.awake = true) ∧ (s.spn.refclk = true) ∧ (s.rxLive
      m.rx.port.val m.rx.head = true) ∧ (s.frameOk m.rx.port.val m.rx.head .ptp = true) ∧ (s.ptpTracker m.domain.val =
      some t) ∧ ((s.trk t).reqT3 = some t3) ∧ ((s.trk t).syncT1 = some t1) ∧ ((s.trk t).reqSeq = m.seqId.val) ∧
      ((s.trk t).bestSource = some m.source) ∧ ((s.trk t).syncDone = true)) ∧
    (∃ (s : State) (m : AnnounceMsg), (s.awake = true) ∧ (s.spn.refclk = true) ∧ (s.rxLive m.rx.port.val m.rx.head =
      false)) ∧
    (∃ (s : State) (m : AnnounceMsg), (s.awake = true) ∧ (s.spn.refclk = true) ∧ (s.rxLive m.rx.port.val m.rx.head =
      true) ∧ (s.frameOk m.rx.port.val m.rx.head .ptp = false)) ∧
    (∃ (s : State) (m : AnnounceMsg) (t : Nat), (s.awake = true) ∧ (s.spn.refclk = true) ∧ (s.rxLive m.rx.port.val
      m.rx.head = true) ∧ (s.frameOk m.rx.port.val m.rx.head .ptp = true) ∧ (s.refreshTrackers = s) ∧ (s.ptpTracker
      m.domain.val = some t) ∧ ((s.trk t).bestSource = some m.source)) ∧
    (∃ (s : State) (m : AnnounceMsg) (t : Nat), (s.awake = true) ∧ (s.spn.refclk = true) ∧ (s.rxLive m.rx.port.val
      m.rx.head = true) ∧ (s.frameOk m.rx.port.val m.rx.head .ptp = true) ∧ (s.refreshTrackers = s) ∧ (s.ptpTracker
      m.domain.val = some t) ∧ ((s.trk t).bestSource = none ∨ ((s.trk t).bestSource ≠ some m.source ∧ betterSet
      m.dataset (s.trk t).bestSet = true))) ∧
    (∃ (s : State) (m : AnnounceMsg), (s.awake = true) ∧ (s.spn.refclk = true) ∧ (s.rxLive m.rx.port.val m.rx.head =
      true) ∧ (s.frameOk m.rx.port.val m.rx.head .ptp = true) ∧ (s.refreshTrackers = s) ∧ (s.ptpTracker m.domain.val =
      none)) ∧
    (∃ (s : State) (t : Fin 2) (b : _), (s.awake = true) ∧ (s.spn.refclk = true) ∧ ((s.trk t.val).bestSource = some b)
      ∧ (s.fld (R.TRK_CFG t.val) F.TRK_CFG_SRC ≠ 1)) ∧
    (∃ (s : State) (t : Fin 2), (s.awake = true) ∧ (s.spn.refclk = true) ∧ (tkNoSource < s.tkState t.val) ∧ (s.fld
      (R.TRK_CFG t.val) F.TRK_CFG_SRC ≠ 1)) ∧
    (∃ (s : State) (t : Fin 2) (st : _), (s.awake = true) ∧ (s.spn.refclk = true) ∧ (s.ptpOn 0 = true) ∧ (s.ptpOn 1 =
      true) ∧ (s.announceEnd (1 - t.val) ≤ s.lt ∨ s.syncEnd (1 - t.val) ≤ s.lt) ∧ (s.spn.steering = some st) ∧ (st <
      2)) ∧
    (∃ (s : State) (t : Fin 2), (s.awake = true) ∧ (s.spn.refclk = true) ∧ (s.ptpOn t.val = true) ∧ (s.lt <
      s.announceEnd (1 - t.val)) ∧ (s.lt < s.syncEnd (1 - t.val))) ∧
    (∃ (s : State), (s.awake = true) ∧ (s.spn.refclk = true) ∧ (tkNoSource < s.tkState 2)) ∧
    (∃ (s : State) (p : _) (tr : _) (h : _) (t : Fin 2) (x : _), (s.awake = true) ∧ (s.spn.refclk = true) ∧
      (s.exitPort = some p) ∧ (tr = s.fld (R.NET_CTRL p) F.NET_CTRL_PTP_TR % 3) ∧ (h = s.frameHead p (if tr = 2 then 0
      else 46)) ∧ (s.tkUsed t.val = true) ∧ (s.fld (R.TRK_CFG t.val) F.TRK_CFG_SRC = 0) ∧ (s.ptpP2p = false) ∧ (x =
      max s.lt (((s.trk t.val).reqAt.map (fun l => l + pow2Sec (s.trk t.val).reqInterval)).getD s.lt))) ∧
    (∃ (s : State) (p : _) (tr : _) (h : _) (x : _), (s.awake = true) ∧ (s.spn.refclk = true) ∧ (s.exitPort = some p)
      ∧ (tr = s.fld (R.NET_CTRL p) F.NET_CTRL_PTP_TR % 3) ∧ (h = s.frameHead p (if tr = 2 then 0 else 46)) ∧ (s.ptpP2p
      = true) ∧ (x = max s.lt (((s.trk 0).pdAt.map (fun l => l + pow2Sec (signed 8 (s.fld (R.NET_PTP_CFG p)
      F.NET_PTP_CFG_LOG_PDLY)))).getD s.lt))) ∧
    (∃ (s : State) (p : Nat) (tr : Nat) (h : FrameHead) (m : PtpMsg) (ph : Phase) (phT : Phase) (t2 : Nat) (t3 : Nat),
      (s.awake = true) ∧ (s.spn.refclk = true) ∧ (s.exitPort = some p) ∧ (tr = s.fld (R.NET_CTRL p) F.NET_CTRL_PTP_TR
      % 3) ∧ (h = s.frameHead p (if tr = 2 then 0 else 46)) ∧ (s.rxLive m.rx.port.val m.rx.head = true) ∧ (s.frameOk
      m.rx.port.val m.rx.head .ptp = true) ∧ (s.ptpP2p = true) ∧ (t2 = stampOf s.lt ph.val) ∧ (t3 = stampOf ((s.lt /
      nsU + 1) * nsU) phT.val)) ∧
    (∃ (s : State) (p : Nat) (tr : Nat) (h : FrameHead) (m : PtpMsg) (t1 : Nat), (s.awake = true) ∧ (s.spn.refclk =
      true) ∧ (s.exitPort = some p) ∧ (tr = s.fld (R.NET_CTRL p) F.NET_CTRL_PTP_TR % 3) ∧ (h = s.frameHead p (if tr =
      2 then 0 else 46)) ∧ (s.rxLive m.rx.port.val m.rx.head = true) ∧ (s.frameOk m.rx.port.val m.rx.head .ptp = true)
      ∧ (s.ptpP2p = true) ∧ ((s.trk 0).pdT1 = some t1) ∧ ((s.trk 0).pdSeq = m.seqId.val) ∧ (m.twoStep = false)) ∧
    (∃ (s : State) (p : Nat) (tr : Nat) (h : FrameHead) (m : PtpMsg) (t1 : Nat), (s.awake = true) ∧ (s.spn.refclk =
      true) ∧ (s.exitPort = some p) ∧ (tr = s.fld (R.NET_CTRL p) F.NET_CTRL_PTP_TR % 3) ∧ (h = s.frameHead p (if tr =
      2 then 0 else 46)) ∧ (s.rxLive m.rx.port.val m.rx.head = true) ∧ (s.frameOk m.rx.port.val m.rx.head .ptp = true)
      ∧ (s.ptpP2p = true) ∧ ((s.trk 0).pdT1 = some t1) ∧ ((s.trk 0).pdSeq = m.seqId.val)) :=
  ⟨⟨State.reset, ({ ptpMsg true with rx := ⟨0, { ptpFrame.head with inv := true }⟩ } : PtpMsg), (0 : Phase), (0 :
     BitVec 32), (false : Bool), (.syncRx { ptpMsg true with rx := ⟨0, { ptpFrame.head with inv := true }⟩ } 0 0 :
     Instr), ⟨by decide +kernel, by decide +kernel, .head _, by decide +kernel⟩⟩,
   ⟨(State.reset.setX 0 xStandby), (ptpMsg true : PtpMsg), (0 : Phase), (0 : BitVec 32), (false : Bool), (.syncRx
     (ptpMsg true) 0 0 : Instr), by and_intros <;> first | exact .head _ | with_reducible rfl | decide +kernel | rfl⟩,
   ⟨((activePort 0 (exitHub tkReady 0 { Tracker.init with bestSource := some 7 })).setFld (R.NET_CTRL 0)
     F.NET_CTRL_PTP_TR 2), ({ ptpMsg true with interval := 2 } : PtpMsg), (0 : Nat), by decide +kernel⟩,
   ⟨((activePort 0 (exitHub tkReady 0 { Tracker.init with bestSource := some 7 })).setFld (R.NET_CTRL 0)
     F.NET_CTRL_PTP_TR 2), (ptpMsg true : PtpMsg), (0 : Nat), by decide +kernel⟩,
   ⟨((activePort 0 (exitHub tkReady 0 { Tracker.init with bestSource := some 7, meanDelay := some 9 })).setFld
     (R.NET_CTRL 0) F.NET_CTRL_PTP_TR 2), (ptpMsg false : PtpMsg), (0 : Nat), (9 : Int), by decide +kernel⟩,
   ⟨((activePort 0 (exitHub tkReady 0 { Tracker.init with bestSource := some 7, syncSeq := 3 })).setFld (R.NET_CTRL 0)
     F.NET_CTRL_PTP_TR 2), (ptpMsg false : PtpMsg), (0 : Nat), by decide +kernel⟩,
   ⟨((activePort 0 (exitHub tkReady 0
     { Tracker.init with bestSource := some 7, syncSeq := 3, reqT3 := some 1, syncT1 := some 2, reqSeq := 3, syncDone := true })).setFld
     (R.NET_CTRL 0) F.NET_CTRL_PTP_TR 2), (ptpMsg false : PtpMsg), (0 : Nat), (1 : Nat), (2 : Nat), by decide +kernel⟩,
   ⟨State.reset, (⟨⟨0, { ptpFrame.head with inv := true }⟩, 0, 7, [1], 0⟩ : AnnounceMsg), by decide +kernel⟩,
   ⟨(State.reset.setX 0 xStandby), (⟨ptpFrame, 0, 7, [1], 0⟩ : AnnounceMsg), by decide +kernel⟩,
   ⟨((activePort 0 (exitHub tkReady 0 { Tracker.init with bestSource := some 7 })).setFld (R.NET_CTRL 0)
     F.NET_CTRL_PTP_TR 2), (⟨ptpFrame, 0, 7, [1], 0⟩ : AnnounceMsg), (0 : Nat), by decide +kernel⟩,
   ⟨((activePort 0 (exitHub tkReady 0 { Tracker.init with bestSource := some 8, bestSet := [2] })).setFld (R.NET_CTRL
     0) F.NET_CTRL_PTP_TR 2), (⟨ptpFrame, 0, 7, [1], 0⟩ : AnnounceMsg), (0 : Nat), by decide +kernel⟩,
   ⟨((activePort 0 (exitHub tkReady 0 { Tracker.init with bestSource := some 8, bestSet := [2] })).setFld (R.NET_CTRL
     0) F.NET_CTRL_PTP_TR 2), (⟨ptpFrame, 1, 7, [1], 0⟩ : AnnounceMsg), by decide +kernel⟩,
   ⟨(exitHub tkReady 0 { Tracker.init with bestSource := some 8 }), (0 : Fin 2), (Option.get (((exitHub tkReady 0
     { Tracker.init with bestSource := some 8 }).trk (0 : Fin 2).val).bestSource) (by decide +kernel)),
     by decide +kernel⟩,
   ⟨(exitHub tkReady 0 Tracker.init), (0 : Fin 2), by decide +kernel⟩,
   ⟨({ ((State.reset.setTkState 0 tkReady).setTkState 1 tkReady) with spn.steering := some 1, lt := 1000 * secU }), (0
     : Fin 2), (Option.get
     (({ ((State.reset.setTkState 0 tkReady).setTkState 1 tkReady) with spn.steering := some 1, lt := 1000 * secU }).spn.steering)
     (by decide +kernel)), by decide +kernel⟩,
   ⟨(((State.reset.setTkState 0 tkReady).setTkState 1 tkReady).setTrk 1
     { Tracker.init with announceLt := 5 * secU, lastSync := 5 * secU }), (0 : Fin 2), by decide +kernel⟩,
   ⟨(State.reset.setTkState 2 tkReady), by decide +kernel⟩,
   ⟨(exitHub tkReady 0 Tracker.init), (Option.get ((exitHub tkReady 0 Tracker.init).exitPort) (by decide +kernel)),
     ((exitHub tkReady 0 Tracker.init).fld (R.NET_CTRL (Option.get ((exitHub tkReady 0 Tracker.init).exitPort)
     (by decide +kernel))) F.NET_CTRL_PTP_TR % 3), ((exitHub tkReady 0 Tracker.init).frameHead (Option.get ((exitHub
     tkReady 0 Tracker.init).exitPort) (by decide +kernel)) (if ((exitHub tkReady 0 Tracker.init).fld (R.NET_CTRL
     (Option.get ((exitHub tkReady 0 Tracker.init).exitPort) (by decide +kernel))) F.NET_CTRL_PTP_TR % 3) = 2 then 0
     else 46)), (0 : Fin 2), (max (exitHub tkReady 0 Tracker.init).lt ((((exitHub tkReady 0 Tracker.init).trk (0 : Fin
     2).val).reqAt.map (fun l => l + pow2Sec ((exitHub tkReady 0 Tracker.init).trk (0 : Fin 2).val).reqInterval)).getD
     (exitHub tkReady 0 Tracker.init).lt)), by decide +kernel⟩,
   ⟨((exitHub tkReady 0 Tracker.init).setFlag (R.NET_CTRL 0) F.NET_CTRL_PTP_P2P true), (Option.get (((exitHub tkReady
     0 Tracker.init).setFlag (R.NET_CTRL 0) F.NET_CTRL_PTP_P2P true).exitPort) (by decide +kernel)), (((exitHub
     tkReady 0 Tracker.init).setFlag (R.NET_CTRL 0) F.NET_CTRL_PTP_P2P true).fld (R.NET_CTRL (Option.get (((exitHub
     tkReady 0 Tracker.init).setFlag (R.NET_CTRL 0) F.NET_CTRL_PTP_P2P true).exitPort) (by decide +kernel)))
     F.NET_CTRL_PTP_TR % 3), (((exitHub tkReady 0 Tracker.init).setFlag (R.NET_CTRL 0) F.NET_CTRL_PTP_P2P
     true).frameHead (Option.get (((exitHub tkReady 0 Tracker.init).setFlag (R.NET_CTRL 0) F.NET_CTRL_PTP_P2P
     true).exitPort) (by decide +kernel)) (if (((exitHub tkReady 0 Tracker.init).setFlag (R.NET_CTRL 0)
     F.NET_CTRL_PTP_P2P true).fld (R.NET_CTRL (Option.get (((exitHub tkReady 0 Tracker.init).setFlag (R.NET_CTRL 0)
     F.NET_CTRL_PTP_P2P true).exitPort) (by decide +kernel))) F.NET_CTRL_PTP_TR % 3) = 2 then 0 else 46)), (max
     ((exitHub tkReady 0 Tracker.init).setFlag (R.NET_CTRL 0) F.NET_CTRL_PTP_P2P true).lt (((((exitHub tkReady 0
     Tracker.init).setFlag (R.NET_CTRL 0) F.NET_CTRL_PTP_P2P true).trk 0).pdAt.map (fun l => l + pow2Sec (signed 8
     (((exitHub tkReady 0 Tracker.init).setFlag (R.NET_CTRL 0) F.NET_CTRL_PTP_P2P true).fld (R.NET_PTP_CFG (Option.get
     (((exitHub tkReady 0 Tracker.init).setFlag (R.NET_CTRL 0) F.NET_CTRL_PTP_P2P true).exitPort)
     (by decide +kernel))) F.NET_PTP_CFG_LOG_PDLY)))).getD ((exitHub tkReady 0 Tracker.init).setFlag (R.NET_CTRL 0)
     F.NET_CTRL_PTP_P2P true).lt)), by decide +kernel⟩,
   ⟨(((activePort 0 (exitHub tkReady 0 Tracker.init)).setFld (R.NET_CTRL 0) F.NET_CTRL_PTP_TR 2).setFlag (R.NET_CTRL
     0) F.NET_CTRL_PTP_P2P true), (0 : Nat), ((((activePort 0 (exitHub tkReady 0 Tracker.init)).setFld (R.NET_CTRL 0)
     F.NET_CTRL_PTP_TR 2).setFlag (R.NET_CTRL 0) F.NET_CTRL_PTP_P2P true).fld (R.NET_CTRL (0 : Nat)) F.NET_CTRL_PTP_TR
     % 3), ((((activePort 0 (exitHub tkReady 0 Tracker.init)).setFld (R.NET_CTRL 0) F.NET_CTRL_PTP_TR 2).setFlag
     (R.NET_CTRL 0) F.NET_CTRL_PTP_P2P true).frameHead (0 : Nat) (if ((((activePort 0 (exitHub tkReady 0
     Tracker.init)).setFld (R.NET_CTRL 0) F.NET_CTRL_PTP_TR 2).setFlag (R.NET_CTRL 0) F.NET_CTRL_PTP_P2P true).fld
     (R.NET_CTRL (0 : Nat)) F.NET_CTRL_PTP_TR % 3) = 2 then 0 else 46)), (ptpMsg false : PtpMsg), (0 : Phase), (0 :
     Phase), (stampOf (((activePort 0 (exitHub tkReady 0 Tracker.init)).setFld (R.NET_CTRL 0) F.NET_CTRL_PTP_TR
     2).setFlag (R.NET_CTRL 0) F.NET_CTRL_PTP_P2P true).lt (0 : Phase).val), (stampOf (((((activePort 0 (exitHub
     tkReady 0 Tracker.init)).setFld (R.NET_CTRL 0) F.NET_CTRL_PTP_TR 2).setFlag (R.NET_CTRL 0) F.NET_CTRL_PTP_P2P
     true).lt / nsU + 1) * nsU) (0 : Phase).val), by decide +kernel⟩,
   ⟨(((activePort 0 (exitHub tkReady 0 { Tracker.init with pdT1 := some 5, pdSeq := 3 })).setFld (R.NET_CTRL 0)
     F.NET_CTRL_PTP_TR 2).setFlag (R.NET_CTRL 0) F.NET_CTRL_PTP_P2P true), (0 : Nat), ((((activePort 0 (exitHub
     tkReady 0 { Tracker.init with pdT1 := some 5, pdSeq := 3 })).setFld (R.NET_CTRL 0) F.NET_CTRL_PTP_TR 2).setFlag
     (R.NET_CTRL 0) F.NET_CTRL_PTP_P2P true).fld (R.NET_CTRL (0 : Nat)) F.NET_CTRL_PTP_TR % 3), ((((activePort 0
     (exitHub tkReady 0 { Tracker.init with pdT1 := some 5, pdSeq := 3 })).setFld (R.NET_CTRL 0) F.NET_CTRL_PTP_TR
     2).setFlag (R.NET_CTRL 0) F.NET_CTRL_PTP_P2P true).frameHead (0 : Nat) (if ((((activePort 0 (exitHub tkReady 0
     { Tracker.init with pdT1 := some 5, pdSeq := 3 })).setFld (R.NET_CTRL 0) F.NET_CTRL_PTP_TR 2).setFlag (R.NET_CTRL
     0) F.NET_CTRL_PTP_P2P true).fld (R.NET_CTRL (0 : Nat)) F.NET_CTRL_PTP_TR % 3) = 2 then 0 else 46)), (ptpMsg false
     : PtpMsg), (5 : Nat), by decide +kernel⟩,
   ⟨(((activePort 0 (exitHub tkReady 0 { Tracker.init with pdT1 := some 5, pdSeq := 3 })).setFld (R.NET_CTRL 0)
     F.NET_CTRL_PTP_TR 2).setFlag (R.NET_CTRL 0) F.NET_CTRL_PTP_P2P true), (0 : Nat), ((((activePort 0 (exitHub
     tkReady 0 { Tracker.init with pdT1 := some 5, pdSeq := 3 })).setFld (R.NET_CTRL 0) F.NET_CTRL_PTP_TR 2).setFlag
     (R.NET_CTRL 0) F.NET_CTRL_PTP_P2P true).fld (R.NET_CTRL (0 : Nat)) F.NET_CTRL_PTP_TR % 3), ((((activePort 0
     (exitHub tkReady 0 { Tracker.init with pdT1 := some 5, pdSeq := 3 })).setFld (R.NET_CTRL 0) F.NET_CTRL_PTP_TR
     2).setFlag (R.NET_CTRL 0) F.NET_CTRL_PTP_P2P true).frameHead (0 : Nat) (if ((((activePort 0 (exitHub tkReady 0
     { Tracker.init with pdT1 := some 5, pdSeq := 3 })).setFld (R.NET_CTRL 0) F.NET_CTRL_PTP_TR 2).setFlag (R.NET_CTRL
     0) F.NET_CTRL_PTP_P2P true).fld (R.NET_CTRL (0 : Nat)) F.NET_CTRL_PTP_TR % 3) = 2 then 0 else 46)), (ptpMsg true
     : PtpMsg), (5 : Nat), by decide +kernel⟩⟩

/-- The hypotheses of `Obligations.TrackerRows` can be met, clause by clause. -/
theorem witness_tracker_rows :
    (∃ (s : State) (t : Fin 3), (s.awake = true) ∧ (s.spn.refclk = true) ∧ (s.tkState t.val ≠ tkQualifying)) ∧
    (∃ (s : State), (s.awake = true) ∧ (s.spn.refclk = true) ∧ (s.tkState 2 = tkQualifying) ∧ ((s.trk 2).restored =
      true) ∧ (16 ≤ (s.trk 2).measCount)) ∧
    (∃ (s : State) (t : Fin 3), (s.awake = true) ∧ (s.spn.refclk = true) ∧ (s.tkState t.val = tkQualifying) ∧ ((s.trk
      t.val).restored = true) ∧ ((s.trk t.val).measCount < 16)) ∧
    (∃ (s : State) (t : Fin 3) (u : State), (s.awake = true) ∧ (s.spn.refclk = true) ∧ (s.tkState t.val =
      tkQualifying) ∧ ((s.trk t.val).restored = false) ∧ (u = s.moveTo (s.qualDue t.val))) ∧
    (∃ (s : State) (t : _), (s.awake = true) ∧ (s.spn.refclk = true) ∧ (t < 2) ∧ (s.spn.steering = none) ∧
      (s.trackMode = true) ∧ (s.tkState (s.fld R.SPN_SW F.SPN_SW_PREF) = tkReady)) ∧
    (∃ (s : State) (t : Fin 3), (s.awake = true) ∧ (s.spn.refclk = true) ∧ (s.tkState t.val = tkAcquire) ∧ (16 ≤
      (s.trk t.val).inRun)) ∧
    (∃ (s : State) (t : Fin 3), (s.awake = true) ∧ (s.spn.refclk = true) ∧ (s.tkState t.val = tkLocked) ∧ (16 ≤ (s.trk
      t.val).outRun)) ∧
    (∃ (s : State), (s.awake = true) ∧ (s.spn.refclk = true) ∧ (16 ≤ s.spn.disCount) ∧ (s.spn.over138 = false)) ∧
    (∃ (s : State), (s.awake = true) ∧ (s.spn.refclk = true) ∧ (s.spn.over138 = true)) ∧
    (∃ (s : State) (t : _), (s.awake = true) ∧ (s.spn.refclk = true) ∧ (s.spn.holdSince = some t) ∧ (s.spn.ownTq = 2)) ∧
    (∃ (s : State) (v : Word), (s.awake = true) ∧ (s.spn.refclk = true) ∧ (v.toNat.testBit 1 = false)) ∧
    (∃ (s : State) (v : Word), (s.awake = true) ∧ (s.spn.refclk = true) ∧ (v.toNat.testBit 1 = true) ∧ (s.spn.steering
      = none)) ∧
    (∃ (s : State) (v : Word) (t : _), (s.awake = true) ∧ (s.spn.refclk = true) ∧ (v.toNat.testBit 1 = true) ∧
      (s.spn.steering = some t) ∧ (t < 2) ∧ ((s.writeFlds R.SPN_SW spnSwFlds v).switchOk (1 - t) = true)) ∧
    (∃ (s : State) (v : Word) (t : _), (s.awake = true) ∧ (s.spn.refclk = true) ∧ (v.toNat.testBit 1 = true) ∧
      (s.spn.steering = some t) ∧ (2 ≤ t ∨ (s.writeFlds R.SPN_SW spnSwFlds v).switchOk (1 - t) = false)) ∧
    (∃ (s : State) (t : _) (o : _), (s.awake = true) ∧ (s.spn.refclk = true) ∧ (s.spn.steering = some t) ∧ (tkReady <
      s.tkState t) ∧ (t < 3) ∧ (o < 3) ∧ (o ≠ t)) ∧
    (∃ (s : State), (s.awake = true) ∧ (s.spn.refclk = true) ∧ (s.flag R.SPN_SW F.SPN_SW_REVERT = true) ∧
      (s.spn.steering = some (1 - s.fld R.SPN_SW F.SPN_SW_PREF)) ∧ (s.tkState (s.fld R.SPN_SW F.SPN_SW_PREF) =
      tkReady)) ∧
    (∃ (s : State) (t : _), (s.awake = true) ∧ (s.refreshTrackers = s) ∧ (s.ppsTracker = some t) ∧ (s.spn.refclk =
      true) ∧ (s.spn.ppsLast = none) ∧ (s.tkState t < tkReady)) ∧
    (∃ (s : State) (t : _) (ph : Phase), (s.awake = true) ∧ (s.refreshTrackers = s) ∧ (s.ppsTracker = some t) ∧
      (s.spn.refclk = true) ∧ (s.spn.ppsLast = none) ∧ (tkReady ≤ s.tkState t) ∧ (nsU * 1000 * s.fld R.SPN_PPS
      F.SPN_PPS_WIN < absI ((stampOf s.lt ph.val : Int) - ((stampOf s.lt ph.val + secU / 2) / secU * secU : Nat)))) ∧
    (∃ (s : State) (t : _) (p : _), (s.awake = true) ∧ (s.ppsTracker = some t) ∧ (s.spn.refclk = true) ∧
      (s.spn.ppsLast = some p) ∧ (tkNoSource < s.tkState t)) ∧
    (∃ (s : State) (t : Nat), (s.awake = true) ∧ (s.ppsTracker = some t) ∧ (s.spn.refclk = true) ∧ (s.spn.ppsLast =
      none) ∧ (tkNoSource < s.tkState t)) ∧
    (∃ (s : State), (s.awake = true) ∧ (s.flag R.SPN_PPS F.SPN_PPS_OUT_EN = true) ∧ (s.spn.refclk = true) ∧ (s.flag
      R.SPN_PPS F.SPN_PPS_QUAL = false)) ∧
    (∃ (s : State), (s.awake = true) ∧ (s.flag R.SPN_PPS F.SPN_PPS_OUT_EN = true) ∧ (s.spn.refclk = true) ∧ (s.flag
      R.SPN_PPS F.SPN_PPS_QUAL = true) ∧ (s.fld R.SPN_STAT F.SPN_STAT_TQ = 3 ∨ s.fld R.SPN_STAT F.SPN_STAT_TQ = 4)) ∧
    (∃ (s : State), (s.awake = true) ∧ (s.spn.ppsHigh = true) ∧ (s.ppsAllowed = false)) ∧
    (∃ (s : State), (s.awake = true) ∧ (s.spn.ppsHigh = true) ∧ (s.spn.refclk = true)) :=
  ⟨⟨State.reset, (0 : Fin 3), by decide +kernel⟩,
   ⟨((State.reset.setTkState 2 tkQualifying).setTrk 2 { Tracker.init with restored := true, measCount := 16 }),
     by decide +kernel⟩,
   ⟨((State.reset.setTkState 2 tkQualifying).setTrk 2 { Tracker.init with restored := true, measCount := 15 }), (2 :
     Fin 3), by decide +kernel⟩,
   ⟨(State.reset.setTkState 0 tkQualifying), (0 : Fin 3), ((State.reset.setTkState 0 tkQualifying).moveTo
     ((State.reset.setTkState 0 tkQualifying).qualDue (0 : Fin 3).val)), by decide +kernel⟩,
   ⟨((State.reset.setFld R.SPN_CTRL F.SPN_CTRL_MODE 1).setTkState 0 tkReady), (1), by decide +kernel⟩,
   ⟨(exitHub tkAcquire 0 { Tracker.init with inRun := 16 }), (0 : Fin 3), by decide +kernel⟩,
   ⟨(exitHub tkLocked 0 { Tracker.init with outRun := 16 }), (0 : Fin 3), by decide +kernel⟩,
   ⟨({ State.reset with spn.disCount := 16 }), by decide +kernel⟩,
   ⟨({ State.reset with spn.over138 := true }), by decide +kernel⟩,
   ⟨({ State.reset with spn.holdSince := some 3, spn.ownTq := 2 }), (Option.get
     (({ State.reset with spn.holdSince := some 3, spn.ownTq := 2 }).spn.holdSince) (by decide +kernel)),
     by decide +kernel⟩,
   ⟨State.reset, (0 : Word), by decide +kernel⟩,
   ⟨State.reset, (2 : Word), by decide +kernel⟩,
   ⟨((({ State.reset with spn.steering := some 1 }).setTkState 0 tkReady).setTrk 0
     { Tracker.init with lastMeas := some 0 }), (2 : Word), (Option.get
     (((({ State.reset with spn.steering := some 1 }).setTkState 0 tkReady).setTrk 0
     { Tracker.init with lastMeas := some 0 }).spn.steering) (by decide +kernel)), by decide +kernel⟩,
   ⟨({ State.reset with spn.steering := some 2 }), (2 : Word), (2), by decide +kernel⟩,
   ⟨({ State.reset.setTkState 1 tkLocked with spn.steering := some 1 }), (1), (0), by decide +kernel⟩,
   ⟨((({ State.reset with spn.steering := some 1 }).setTkState 0 tkReady).setFlag R.SPN_SW F.SPN_SW_REVERT true),
     by decide +kernel⟩,
   ⟨(exitHub tkNoSource 1 Tracker.init), (0), by decide +kernel⟩,
   ⟨({ exitHub tkReady 1 Tracker.init with lt := 400000000 * nsU }), (0), (0 : Phase), by decide +kernel⟩,
   ⟨({ exitHub tkReady 1 Tracker.init with spn.ppsLast := some 7 }), (0), (Option.get
     (({ exitHub tkReady 1 Tracker.init with spn.ppsLast := some 7 }).spn.ppsLast) (by decide +kernel)),
     by decide +kernel⟩,
   ⟨((exitHub tkReady 1 Tracker.init)), (0 : Nat), by decide +kernel⟩,
   ⟨((State.reset.setFlag R.SPN_PPS F.SPN_PPS_OUT_EN true).setFlag R.SPN_PPS F.SPN_PPS_QUAL false), by decide +kernel⟩,
   ⟨((((State.reset.setFlag R.SPN_PPS F.SPN_PPS_OUT_EN true).setFlag R.SPN_PPS F.SPN_PPS_QUAL true).setFld R.SPN_STAT
     F.SPN_STAT_TQ 4)), by decide +kernel⟩,
   ⟨({ (((State.reset.setFlag R.SPN_PPS F.SPN_PPS_OUT_EN true).setFlag R.SPN_PPS F.SPN_PPS_QUAL true).setFld
     R.SPN_STAT F.SPN_STAT_TQ 4) with spn.ppsHigh := true }), by decide +kernel⟩,
   ⟨({ State.reset with spn.ppsHigh := true }), by decide +kernel⟩⟩

/-- The hypotheses of `Obligations.LocalTimeRows` can be met, clause by clause. -/
theorem witness_local_time_rows :
    (∃ (s : State) (v : Word) (w : _) (u : _), (s.awake = true) ∧ (w = s.writeFlds R.SPN_CTRL spnCtrlFlds v) ∧ (u =
      w.modeSet s.trackMode) ∧ (s.trackMode = (bitsOf v.toNat F.SPN_CTRL_MODE.hi F.SPN_CTRL_MODE.lo == 1))) ∧
    (∃ (s : State) (v : Word) (w : State) (u : State) (t : Nat), (s.awake = true) ∧ (w = s.writeFlds R.SPN_CTRL
      spnCtrlFlds v) ∧ (u = w.modeSet s.trackMode) ∧ (s.trackMode = true) ∧ (bitsOf v.toNat F.SPN_CTRL_MODE.hi
      F.SPN_CTRL_MODE.lo ≠ 1) ∧ (s.spn.steering = some t) ∧ (t < 3)) ∧
    (∃ (s : State) (v : Word) (w : State) (u : State), (s.awake = true) ∧ (w = s.writeFlds R.SPN_CTRL spnCtrlFlds v) ∧
      (u = w.modeSet s.trackMode) ∧ (s.trackMode = false) ∧ (bitsOf v.toNat F.SPN_CTRL_MODE.hi F.SPN_CTRL_MODE.lo = 1)
      ∧ (s.spn.steering = none) ∧ (s.tkState 2 = tkReady)) ∧
    (∃ (s : State) (v : Word) (w : State) (u : State), (s.awake = true) ∧ (w = s.writeFlds R.SPN_CTRL spnCtrlFlds v) ∧
      (u = w.modeSet s.trackMode) ∧ (s.trackMode = false) ∧ (bitsOf v.toNat F.SPN_CTRL_MODE.hi F.SPN_CTRL_MODE.lo = 1)
      ∧ (s.spn.steering = none) ∧ (s.tkState 2 ≠ tkReady) ∧ (s.tkState (s.fld R.SPN_SW F.SPN_SW_PREF) = tkReady)) ∧
    (∃ (s : State) (v : Word) (w : _) (u : _), (s.awake = true) ∧ (w = s.writeFlds R.SPN_CTRL spnCtrlFlds v) ∧ (u =
      w.modeSet s.trackMode) ∧ (v.toNat.testBit 3 = true) ∧ (s.spn.refclk = false ∨ (s.spn.stepUntil ≤ s.lt ∧
      (s.anyActive = true ∨ 999999999 < (s.reg R.SPN_SETN).toNat)))) ∧
    (∃ (s : State) (v : Word) (w : _) (u : _), (s.awake = true) ∧ (w = s.writeFlds R.SPN_CTRL spnCtrlFlds v) ∧ (u =
      w.modeSet s.trackMode) ∧ (v.toNat.testBit 3 = true) ∧ (s.spn.stepUntil ≤ s.lt) ∧ (s.anyActive = false) ∧
      (s.spn.refclk = true) ∧ ((s.reg R.SPN_SETN).toNat ≤ 999999999)) ∧
    (∃ (s : State) (v : Word) (w : _) (u : _), (s.awake = true) ∧ (w = s.writeFlds R.SPN_CTRL spnCtrlFlds v) ∧ (u =
      w.modeSet s.trackMode) ∧ (v.toNat.testBit 3 = false ∨ (s.spn.refclk = true ∧ s.lt < s.spn.stepUntil))) ∧
    (∃ (s : State), (s.awake = true)) ∧
    (∃ (s : State) (a : _) (w : Word), (s.awake = true) ∧ (a = R.SPN_LTS_HI ∨ a = R.SPN_LTN ∨ a = R.SPN_LTF) ∧
      (s.latched a = some w)) ∧
    (∃ (s : State) (new : Nat), (new ≤ s.lt)) ∧
    (∃ (s : State) (new : Nat) (m : Fin 16) (k : Nat), (s.lt < new) ∧ (s.cmpArmed m.val = true) ∧ (k = passedTargets
      (s.cmpU m.val).target (s.cmpPer m.val) new) ∧ (0 < k)) ∧
    (∃ (s : State) (new : Nat) (m : Fin 16) (k : Nat), (s.lt < new) ∧ (s.cmpArmed m.val = true) ∧ (k = passedTargets
      (s.cmpU m.val).target (s.cmpPer m.val) new) ∧ (0 < k)) ∧
    (∃ (s : State) (new : Nat) (m : Fin 16) (k : Nat), (s.lt < new) ∧ (s.cmpArmed m.val = true) ∧ (k = passedTargets
      (s.cmpU m.val).target (s.cmpPer m.val) new) ∧ (0 < k)) ∧
    (∃ (s : State) (new : Nat) (m : Fin 16) (k : Nat), (s.lt < new) ∧ (s.cmpArmed m.val = true) ∧ (k = passedTargets
      (s.cmpU m.val).target (s.cmpPer m.val) new) ∧ (0 < k) ∧ (s.cmpPer m.val = 0)) ∧
    (∃ (s : State) (new : Nat) (m : Fin 16) (k : Nat), (s.lt < new) ∧ (s.cmpArmed m.val = true) ∧ (k = passedTargets
      (s.cmpU m.val).target (s.cmpPer m.val) new) ∧ (0 < k) ∧ (s.cmpPer m.val ≠ 0)) :=
  ⟨⟨({ State.reset with spn.stepUntil := 5 }), (8 : Word), (({ State.reset with spn.stepUntil := 5 }).writeFlds
     R.SPN_CTRL spnCtrlFlds (8 : Word)), ((({ State.reset with spn.stepUntil := 5 }).writeFlds R.SPN_CTRL spnCtrlFlds
     (8 : Word)).modeSet ({ State.reset with spn.stepUntil := 5 }).trackMode), by decide +kernel⟩,
   ⟨({ State.reset.setFld R.SPN_CTRL F.SPN_CTRL_MODE 1 with spn.steering := some 1 }), (0 : Word),
     (({ State.reset.setFld R.SPN_CTRL F.SPN_CTRL_MODE 1 with spn.steering := some 1 }).writeFlds R.SPN_CTRL
     spnCtrlFlds (0 : Word)),
     ((({ State.reset.setFld R.SPN_CTRL F.SPN_CTRL_MODE 1 with spn.steering := some 1 }).writeFlds R.SPN_CTRL
     spnCtrlFlds (0 : Word)).modeSet
     ({ State.reset.setFld R.SPN_CTRL F.SPN_CTRL_MODE 1 with spn.steering := some 1 }).trackMode), (1 : Nat),
     by decide +kernel⟩,
   ⟨(State.reset.setTkState 2 tkReady), (1 : Word), ((State.reset.setTkState 2 tkReady).writeFlds R.SPN_CTRL
     spnCtrlFlds (1 : Word)), (((State.reset.setTkState 2 tkReady).writeFlds R.SPN_CTRL spnCtrlFlds (1 :
     Word)).modeSet (State.reset.setTkState 2 tkReady).trackMode), by decide +kernel⟩,
   ⟨(State.reset.setTkState 0 tkReady), (1 : Word), ((State.reset.setTkState 0 tkReady).writeFlds R.SPN_CTRL
     spnCtrlFlds (1 : Word)), (((State.reset.setTkState 0 tkReady).writeFlds R.SPN_CTRL spnCtrlFlds (1 :
     Word)).modeSet (State.reset.setTkState 0 tkReady).trackMode), by decide +kernel⟩,
   ⟨(State.reset.setRgState 0 rgConverting), (8 : Word), ((State.reset.setRgState 0 rgConverting).writeFlds R.SPN_CTRL
     spnCtrlFlds (8 : Word)), (((State.reset.setRgState 0 rgConverting).writeFlds R.SPN_CTRL spnCtrlFlds (8 :
     Word)).modeSet (State.reset.setRgState 0 rgConverting).trackMode), by decide +kernel⟩,
   ⟨State.reset, (8 : Word), (State.reset.writeFlds R.SPN_CTRL spnCtrlFlds (8 : Word)), ((State.reset.writeFlds
     R.SPN_CTRL spnCtrlFlds (8 : Word)).modeSet State.reset.trackMode), by decide +kernel⟩,
   ⟨State.reset, (0 : Word), (State.reset.writeFlds R.SPN_CTRL spnCtrlFlds (0 : Word)), ((State.reset.writeFlds
     R.SPN_CTRL spnCtrlFlds (0 : Word)).modeSet State.reset.trackMode), by decide +kernel⟩,
   ⟨State.reset, by decide +kernel⟩,
   ⟨({ State.reset with latch := [(R.SPN_LTN, some 7)] }), (R.SPN_LTN), (7 : Word), by decide +kernel⟩,
   ⟨State.reset, (0 : Nat), by decide +kernel⟩,
   ⟨((State.reset.setFlag (R.CMP_CTRL 15) F.CMP_CTRL_ARMED true).setCmpU 15 5), (9 : Nat), (15 : Fin 16), (1 : Nat),
     by decide +kernel⟩,
   ⟨((State.reset.setFlag (R.CMP_CTRL 15) F.CMP_CTRL_ARMED true).setCmpU 15 5), (9 : Nat), (15 : Fin 16), (1 : Nat),
     by decide +kernel⟩,
   ⟨((State.reset.setFlag (R.CMP_CTRL 15) F.CMP_CTRL_ARMED true).setCmpU 15 5), (9 : Nat), (15 : Fin 16), (1 : Nat),
     by decide +kernel⟩,
   ⟨((State.reset.setFlag (R.CMP_CTRL 15) F.CMP_CTRL_ARMED true).setCmpU 15 5), (9 : Nat), (15 : Fin 16), (1 : Nat),
     by decide +kernel⟩,
   ⟨((State.reset.setFlag (R.CMP_CTRL 15) F.CMP_CTRL_ARMED true).setReg (R.CMP_PER 15) 1), (9 : Nat), (15 : Fin 16),
     (1 : Nat), by decide +kernel⟩⟩

/-- The hypotheses of `Obligations.CompareRows` can be met, clause by clause. -/
theorem witness_compare_rows :
    (∃ (s : State) (m : Fin 16), (s.awake = true) ∧ (999999999 < ((s.heldAt (R.CMP_T m.val)).getD (s.reg (R.CMP_T
      m.val))).toNat % 2 ^ 30)) ∧
    (∃ (s : State) (m : Fin 16) (v : Word) (st : Nat) (k : Nat) (g : Int), (s.awake = true) ∧ (st = ((s.heldAt
      (R.CMP_T m.val)).getD (s.reg (R.CMP_T m.val))).toNat + ((s.writeFlds (R.CMP_T_HI m.val) [F.CMP_T_HI_T_HI] v).reg
      (R.CMP_T_HI m.val)).toNat * 2 ^ 32) ∧ (stValid st = true) ∧ (g = stToLt s.lt st) ∧ (k = passedTargets g
      (s.cmpPer m.val) ((s.lt : Int) + 500 * nsU - 1))) ∧
    (∃ (s : State) (m : Fin 16), (s.awake = true) ∧ (s.cmpArmed m.val = true) ∧ (s.spn.refclk = true) ∧ (s.cmpPer
      m.val = 0)) ∧
    (∃ (s : State) (m : Fin 16), (s.awake = true) ∧ (s.cmpArmed m.val = true) ∧ (s.spn.refclk = true) ∧ (s.cmpPer
      m.val ≠ 0)) ∧
    (∃ (s : State) (v : Word), (s.awake = true) ∧ (v.toNat.testBit 0 = true)) ∧
    (∃ (s : State) (p : _), (s.awake = true) ∧ (s.spn.pulses = [p])) :=
  ⟨⟨(State.reset.setReg (R.CMP_T 0) 0x3FFFFFFF), (0 : Fin 16), by decide +kernel⟩,
   ⟨State.reset, (0 : Fin 16), (0 : Word), (((State.reset.heldAt (R.CMP_T (0 : Fin 16).val)).getD (State.reset.reg
     (R.CMP_T (0 : Fin 16).val))).toNat + ((State.reset.writeFlds (R.CMP_T_HI (0 : Fin 16).val) [F.CMP_T_HI_T_HI] (0 :
     Word)).reg (R.CMP_T_HI (0 : Fin 16).val)).toNat * 2 ^ 32), (passedTargets (stToLt State.reset.lt
     (((State.reset.heldAt (R.CMP_T (0 : Fin 16).val)).getD (State.reset.reg (R.CMP_T (0 : Fin 16).val))).toNat +
     ((State.reset.writeFlds (R.CMP_T_HI (0 : Fin 16).val) [F.CMP_T_HI_T_HI] (0 : Word)).reg (R.CMP_T_HI (0 : Fin
     16).val)).toNat * 2 ^ 32)) (State.reset.cmpPer (0 : Fin 16).val) ((State.reset.lt : Int) + 500 * nsU - 1)),
     (stToLt State.reset.lt (((State.reset.heldAt (R.CMP_T (0 : Fin 16).val)).getD (State.reset.reg (R.CMP_T (0 : Fin
     16).val))).toNat + ((State.reset.writeFlds (R.CMP_T_HI (0 : Fin 16).val) [F.CMP_T_HI_T_HI] (0 : Word)).reg
     (R.CMP_T_HI (0 : Fin 16).val)).toNat * 2 ^ 32)), by decide +kernel⟩,
   ⟨(State.reset.setFlag (R.CMP_CTRL 0) F.CMP_CTRL_ARMED true), (0 : Fin 16), by decide +kernel⟩,
   ⟨((State.reset.setFlag (R.CMP_CTRL 0) F.CMP_CTRL_ARMED true).setReg (R.CMP_PER 0) 1), (0 : Fin 16),
     by decide +kernel⟩,
   ⟨State.reset, (1 : Word), by decide +kernel⟩,
   ⟨({ State.reset with spn.pulses := [9] }), (List.head (({ State.reset with spn.pulses := [9] }).spn.pulses)
     (by decide +kernel)), by decide +kernel⟩⟩

/-- The hypotheses of `Obligations.TimeExchangeRows` can be met, clause by clause. -/
theorem witness_time_exchange_rows :
    (∃ (s : State) (at0 : _), (s.awake = true) ∧ (at0 = (s.lt / (1000000 * nsU) + 1) * (1000000 * nsU)) ∧
      (s.spn.refclk = true)) ∧
    (∃ (s : State) (k : Fin 2) (ph : Phase) (t2 : _) (t3 : _), (s.awake = true) ∧ (t2 = stampOf s.lt ph.val) ∧ (t3 =
      stripeAt (s.fld (R.CHP_STAT k.val) F.CHP_STAT_GEN) ((s.lt / nsU + 1) * nsU)) ∧ (s.refreshTrackers = s) ∧
      (s.upLink = some k.val) ∧ (s.spn.refclk = true) ∧ (s.spn.xchg.t1 = none)) ∧
    (∃ (s : State) (k : Fin 2), (s.awake = true) ∧ (s.spn.refclk = true) ∧ (s.upLink ≠ some k.val)) ∧
    (∃ (s : State) (k : Fin 2) (xseq : Fin 16) (stamp : BitVec 40) (t1 : _) (f1 : _), (s.awake = true) ∧ (s.spn.refclk
      = true) ∧ (s.upLink = some k.val) ∧ (s.spn.xchg.t1 = some t1) ∧ (s.spn.xchg.fullT1 = some f1) ∧ (s.spn.xchg.xseq
      = xseq.val) ∧ (extendStamp f1 stamp.toNat - f1 ≤ 8000000 * (nsU : Int))) ∧
    (∃ (s : State) (k : Fin 2), (s.awake = true) ∧ (s.spn.refclk = true) ∧ (s.upLink = some k.val) ∧ (s.spn.xchg.t1 =
      none)) ∧
    (∃ (s : State) (k : Fin 2) (xseq : Fin 16), (s.awake = true) ∧ (s.spn.refclk = true) ∧ (s.upLink = some k.val) ∧
      (s.isExit = false) ∧ (s.spn.xchg.xseq ≠ xseq.val) ∧ (s.spn.xchg.t1 = none) ∧ (s.spn.voided < 3)) ∧
    (∃ (s : State) (k : Fin 2) (xseq : Fin 16), (s.awake = true) ∧ (s.spn.refclk = true) ∧ (s.upLink = some k.val) ∧
      (s.isExit = false) ∧ (s.spn.xchg.xseq = xseq.val)) ∧
    (∃ (s : State) (k : Fin 2) (m : Vc1Msg) (v : State), (s.awake = true) ∧ (s.takeVc1 k.val 0x12 m = (v, true)) ∧
      (v.isExit = false)) :=
  ⟨⟨State.reset, ((State.reset.lt / (1000000 * nsU) + 1) * (1000000 * nsU)), by decide +kernel⟩,
   ⟨(besideExit.setTkState 2 tkNoSource), (0 : Fin 2), (0 : Phase), (stampOf (besideExit.setTkState 2 tkNoSource).lt
     (0 : Phase).val), (stripeAt ((besideExit.setTkState 2 tkNoSource).fld (R.CHP_STAT (0 : Fin 2).val)
     F.CHP_STAT_GEN) (((besideExit.setTkState 2 tkNoSource).lt / nsU + 1) * nsU)), by decide +kernel⟩,
   ⟨State.reset, (0 : Fin 2), by decide +kernel⟩,
   ⟨({ besideExit with spn.xchg := ⟨0, some 0, some 0, 3, 4⟩ }), (0 : Fin 2), (0 : Fin 16), (0 : BitVec 40),
     (Option.get (({ besideExit with spn.xchg := ⟨0, some 0, some 0, 3, 4⟩ }).spn.xchg.t1) (by decide +kernel)),
     (Option.get (({ besideExit with spn.xchg := ⟨0, some 0, some 0, 3, 4⟩ }).spn.xchg.fullT1) (by decide +kernel)),
     by decide +kernel⟩,
   ⟨(besideExit), (0 : Fin 2), by decide +kernel⟩,
   ⟨(besideExit), (0 : Fin 2), (7 : Fin 16), by decide +kernel⟩,
   ⟨({ besideExit with spn.xchg := ⟨0, none, none, 0, 0⟩ }), (0 : Fin 2), (0 : Fin 16), by decide +kernel⟩,
   ⟨State.reset, (0 : Fin 2), (⟨3, 3, 5, ⟨4, 0, 0⟩⟩ : Vc1Msg), ((State.reset.takeVc1 (0 : Fin 2).val 0x12 (⟨3, 3, 5,
     ⟨4, 0, 0⟩⟩ : Vc1Msg)).1), by decide +kernel⟩⟩

/-- The hypotheses of `Obligations.RefclkRows` can be met, clause by clause. -/
theorem witness_refclk_rows :
    (∃ (s : State), (s.awake = true) ∧ (s.spn.refclk = true)) ∧
    (∃ (s : State), (s.awake = true) ∧ (s.spn.refclk = false)) ∧
    (∃ (s : State) (g : _), (s.awake = true) ∧ (g < 8) ∧ (s.rgState g = rgConverting)) ∧
    (∃ (s : State) (g : _), (s.awake = true) ∧ (g < 8) ∧ (s.rgState g = rgStopPending)) ∧
    (∃ (s : State) (g : _), (s.awake = true) ∧ (g < 8) ∧ (s.rgState g = rgPending)) ∧
    (∃ (s : State) (g : _), (s.awake = true) ∧ (g < 8) ∧ (s.rgState g = rgStopped)) ∧
    (∃ (s : State), (s.awake = true) ∧ (s.spn.refclk = false) ∧ (s.isExit = false)) ∧
    (∃ (s : State), (s.awake = true) ∧ (s.spn.refclk = true)) ∧
    (∃ (s : State) (g : Fin 8), (s.awake = true) ∧ (s.rgState g.val ≠ rgPending)) ∧
    (∃ (s : State) (g : Fin 8) (t : _) (u : State), (s.awake = true) ∧ (s.rgState g.val = rgPending) ∧ ((s.rg
      g.val).restart = true) ∧ (s.spn.refclk = true) ∧ (s.startPoint g.val (max s.lt (s.spn.relockLt + 100000000 *
      nsU)) = some t) ∧ (u = s.moveTo t)) :=
  ⟨⟨State.reset, by decide +kernel⟩,
   ⟨({ State.reset with spn.refclk := false }), by decide +kernel⟩,
   ⟨(State.reset.setRgState 7 rgConverting), (7), by decide +kernel⟩,
   ⟨(State.reset.setRgState 7 rgStopPending), (7), by decide +kernel⟩,
   ⟨(State.reset.setRgState 7 rgPending), (7), by decide +kernel⟩,
   ⟨State.reset, (7), by decide +kernel⟩,
   ⟨({ State.reset with spn.refclk := false }), by decide +kernel⟩,
   ⟨State.reset, by decide +kernel⟩,
   ⟨State.reset, (0 : Fin 8), by decide +kernel⟩,
   ⟨((State.reset.setRgState 0 rgPending).setRg 0 { RegionState.init with restart := true }), (0 : Fin 8), (Option.get
     (((State.reset.setRgState 0 rgPending).setRg 0 { RegionState.init with restart := true }).startPoint (0 : Fin
     8).val (max ((State.reset.setRgState 0 rgPending).setRg 0 { RegionState.init with restart := true }).lt
     (((State.reset.setRgState 0 rgPending).setRg 0 { RegionState.init with restart := true }).spn.relockLt +
     100000000 * nsU))) (by decide +kernel)), (((State.reset.setRgState 0 rgPending).setRg 0
     { RegionState.init with restart := true }).moveTo (Option.get (((State.reset.setRgState 0 rgPending).setRg 0
     { RegionState.init with restart := true }).startPoint (0 : Fin 8).val (max ((State.reset.setRgState 0
     rgPending).setRg 0 { RegionState.init with restart := true }).lt (((State.reset.setRgState 0 rgPending).setRg 0
     { RegionState.init with restart := true }).spn.relockLt + 100000000 * nsU))) (by decide +kernel))),
     by decide +kernel⟩⟩

/-- The hypotheses of `Obligations.StreamRows` can be met, clause by clause. -/
theorem witness_stream_rows :
    (∃ (s : State) (c : Fin 512) (v : Word), (s.awake = true) ∧ (v.toNat % 8 = 1) ∧ (s.strState c.val = 0) ∧
      (s.ggeTesting = false) ∧ (s.flt.ended = []) ∧ (s.ggeOn c.val = false) ∧ ((s.writeFlds (R.STR_CTRL c.val)
      [F.STR_CTRL_ABORT, F.STR_CTRL_STOP, F.STR_CTRL_START] v).startCause c.val false = none) ∧ (s.strRecords c.val =
      true)) ∧
    (∃ (s : State) (c : Fin 512) (v : Word) (k : Nat), (s.awake = true) ∧ (v.toNat % 8 = 1) ∧ (s.ggeTesting = false) ∧
      (s.flt.ended = []) ∧ (s.ggeOn c.val = false) ∧ ((s.writeFlds (R.STR_CTRL c.val) [F.STR_CTRL_ABORT,
      F.STR_CTRL_STOP, F.STR_CTRL_START] v).startCause c.val false = some k)) ∧
    (∃ (s : State) (v : Word), (s.awake = true) ∧ (v.toNat / 2 % 4 = 1)) ∧
    (∃ (s : State) (v : Word), (s.awake = true) ∧ (v.toNat.testBit 2 = true)) ∧
    (∃ (s : State) (c : Fin 512) (name : _) (close : _), (s.awake = true) ∧ (s.strState c.val = 1) ∧ (s.strRecords
      c.val = false) ∧ (s.strNext c.val = some (name, close)) ∧ (s.rowReady (s.strMembers c.val) close = true)) ∧
    (∃ (s : State) (c : Fin 512) (p : _) (rest : _), (s.awake = true) ∧ ((s.st c.val).spill = p :: rest) ∧ (p.count +
      ((s.st c.val).wp - (s.st c.val).rp) ≤ s.rowSpace c.val ∨ (s.st c.val).wp = (s.st c.val).rp ∧ p.count ≤
      s.strUnits c.val)) ∧
    (∃ (s : State) (c : Fin 512) (o : _), (s.awake = true) ∧ ((s.st c.val).cur = some o)) ∧
    (∃ (s : State) (c : Fin 512) (x : _), (s.awake = true) ∧ ((s.st c.val).descAt = some x) ∧ (s.strState c.val = 1) ∧
      ((s.st c.val).gap ≠ none)) ∧
    (∃ (s : State) (c : Fin 512) (x : _), (s.awake = true) ∧ ((s.st c.val).descAt = some x) ∧ (s.strState c.val = 1) ∧
      ((s.st c.val).gap = none) ∧ ((s.st c.val).gapWaits = []) ∧ (s.descUnits c.val ≤ s.freeUnits c.val)) ∧
    (∃ (s : State) (c : Fin 512) (stored : _), (s.awake = true) ∧ (s.sendItem c.val stored = none)) ∧
    (∃ (s : State) (c : Fin 512) (stored : Bool) (q : Nat) (bs : List Byte) (p : Nat), (s.awake = true) ∧ (s.sendItem
      c.val stored = some (q, bs)) ∧ (s.exitPort = some p) ∧ (s.senderFree ⟨s.hubId, c.val, s.fld (R.STR_SEND c.val)
      F.STR_SEND_DST, q, bs, s.lt⟩ = true)) ∧
    (∃ (s : State) (c : Fin 512) (stored : Bool) (q : Nat) (bs : List Byte) (k : _), (s.awake = true) ∧ (s.sendItem
      c.val stored = some (q, bs)) ∧ (s.exitPort = none) ∧ (s.upLink = some k) ∧ (s.senderFree ⟨s.hubId, c.val, s.fld
      (R.STR_SEND c.val) F.STR_SEND_DST, q, bs, s.lt⟩ = true)) ∧
    (∃ (s : State) (c : Fin 512), (s.awake = true) ∧ (s.ggeOn c.val = false)) ∧
    (∃ (s : State) (c : Fin 512), (s.awake = true) ∧ (s.ggeOn c.val = false)) ∧
    (∃ (s : State) (c : Fin 512) (name : Nat) (close : Nat), (s.awake = true) ∧ (s.strState c.val = 1) ∧ (s.strRecords
      c.val = false) ∧ (s.strNext c.val = some (name, close)) ∧ (s.rowReady (s.strMembers c.val) close = true) ∧
      ((s.st c.val).lossAt = none)) ∧
    (∃ (s : State) (c : Fin 512) (lt : Nat) (it : Item) (a : State), (a = (s.setIcnt c.val (s.strIcnt c.val +
      1)).appendWaits c.val) ∧ ((a.st c.val).gap = none) ∧ ((a.st c.val).descWaits = false) ∧ ((a.st c.val).gapWaits ≠
      [] ∨ a.freeUnits c.val < a.itemUnits c.val lt it)) ∧
    (∃ (s : State) (c : Fin 512) (it : Item) (g : GapInfo) (a : State), (a = (s.setIcnt c.val (s.strIcnt c.val +
      1)).appendWaits c.val) ∧ ((a.st c.val).gap = some g) ∧ ((a.st c.val).gapWaits ≠ [] ∨ 32 * a.freeUnits c.val <
      a.strPages c.val * 4096 / 8 ∨ a.freeUnits c.val < a.freshUnits c.val it + 4)) ∧
    (∃ (s : State) (c : Fin 512) (it : Item) (g : GapInfo) (a : State), (a = (s.setIcnt c.val (s.strIcnt c.val +
      1)).appendWaits c.val) ∧ ((a.st c.val).gap = some g) ∧ ((a.st c.val).gapWaits = []) ∧ (a.strPages c.val * 4096 /
      8 ≤ 32 * a.freeUnits c.val) ∧ (a.freshUnits c.val it + 4 ≤ a.freeUnits c.val)) ∧
    (∃ (s : State) (c : Fin 512) (bs : List Byte) (o : OpenPkt) (rows : List Byte) (lt : Nat), ((s.st c.val).cur =
      some o) ∧ (s.rowContinues c.val lt = true) ∧ (rows = (if s.strTimed c.val then beBytes 8 (lt - o.name) else [])
      ++ bs)) ∧
    (∃ (s : State) (c : Fin 512) (lt : _), (s.rowContinues c.val lt = false)) ∧
    (∃ (s : State) (c : Fin 512) (deep : Bool) (p : SpillPage), (s.fifoRoom c.val deep = 0) ∧ ((s.st
      c.val).spill.getLast? = some p) ∧ (p.count < 128) ∧ (p.first + p.count = (s.st c.val).wr) ∧ (∀ q ∈ (s.st
      c.val).spill, q.first + q.count ≤ (s.st c.val).wr)) ∧
    (∃ (s : State) (c : Fin 512) (deep : Bool) (p : SpillPage) (q : Nat) (r : List Nat), (s.fifoRoom c.val deep = 0) ∧
      ((s.st c.val).spill.getLast? = some p) ∧ (128 ≤ p.count) ∧ (s.spillFree = q :: r) ∧ (∀ x ∈ (s.st c.val).spill,
      x.first + x.count ≤ (s.st c.val).wr)) ∧
    (∃ (s : State) (c : Fin 512) (deep : Bool) (q : Nat) (r : List Nat), (s.fifoRoom c.val deep = 0) ∧ ((s.st
      c.val).spill = []) ∧ (s.spillFree = q :: r)) ∧
    (∃ (s : State) (c : Nat), ((s.st c).stopWaits = none) ∧ ((s.st c).gapWaits = [])) ∧
    (∃ (s : State) (c : Nat) (q : Nat) (p : _), ((s.st c).stopWaits = none) ∧ ((s.st c).gapWaits = []) ∧ (((s.st
      c).pkts.take (pktsUpTo (s.st c).pkts q)).getLast? = some p)) :=
  ⟨⟨((((((State.reset.setFlag (R.STR_CFG 511) F.STR_CFG_KIND true).setFld (R.STR_FIFO 511) F.STR_FIFO_SIZE 8).setFlag
     (R.DST_PORT 0) F.DST_PORT_V true).setReg (R.NET_IP4 0) 5).setReg (R.STR_RBUD 511) 1)), (511 : Fin 512), (1 :
     Word), by decide +kernel⟩,
   ⟨State.reset, (511 : Fin 512), (1 : Word), (Option.get ((State.reset.writeFlds (R.STR_CTRL (511 : Fin 512).val)
     [F.STR_CTRL_ABORT, F.STR_CTRL_STOP, F.STR_CTRL_START] (1 : Word)).startCause (511 : Fin 512).val false)
     (by decide +kernel)), by decide +kernel⟩,
   ⟨State.reset, (2 : Word), by decide +kernel⟩,
   ⟨State.reset, (4 : Word), by decide +kernel⟩,
   ⟨((((converting 0 State.reset).setRg 0 { RegionState.init with runs := [(0, none)], edge := 2 ^ 90 }).setFld
     (R.STR_MEMB 511) F.STR_MEMB_NCH 1).setFld (R.STR_STAT 511) F.STR_STAT_STATE 1), (511 : Fin 512), ((Option.get
     (((((converting 0 State.reset).setRg 0 { RegionState.init with runs := [(0, none)], edge := 2 ^ 90 }).setFld
     (R.STR_MEMB 511) F.STR_MEMB_NCH 1).setFld (R.STR_STAT 511) F.STR_STAT_STATE 1).strNext (511 : Fin 512).val)
     (by decide +kernel)).1), ((Option.get (((((converting 0 State.reset).setRg 0
     { RegionState.init with runs := [(0, none)], edge := 2 ^ 90 }).setFld (R.STR_MEMB 511) F.STR_MEMB_NCH 1).setFld
     (R.STR_STAT 511) F.STR_STAT_STATE 1).strNext (511 : Fin 512).val) (by decide +kernel)).2), by decide +kernel⟩,
   ⟨((State.reset.setStr 511 { StrState.init with spill := [⟨0, 0, 1⟩] }).setFld (R.STR_FIFO 511) F.STR_FIFO_SIZE 1),
     (511 : Fin 512), (List.head ((((State.reset.setStr 511 { StrState.init with spill := [⟨0, 0, 1⟩] }).setFld
     (R.STR_FIFO 511) F.STR_FIFO_SIZE 1).st (511 : Fin 512).val).spill) (by decide +kernel)), (List.tail
     ((((State.reset.setStr 511 { StrState.init with spill := [⟨0, 0, 1⟩] }).setFld (R.STR_FIFO 511) F.STR_FIFO_SIZE
     1).st (511 : Fin 512).val).spill)), by decide +kernel⟩,
   ⟨((State.reset.setStr 511 { StrState.init with cur := some ⟨0, 0, [], 0, 0, 0, 0, 0, 0, false⟩ })), (511 : Fin
     512), (Option.get ((((State.reset.setStr 511
     { StrState.init with cur := some ⟨0, 0, [], 0, 0, 0, 0, 0, 0, false⟩ })).st (511 : Fin 512).val).cur)
     (by decide +kernel)), by decide +kernel⟩,
   ⟨((State.reset.setStr 511 { StrState.init with descAt := some 7, gap := some ⟨1, 0, 0, 0, 1⟩ }).setFld (R.STR_STAT
     511) F.STR_STAT_STATE 1), (511 : Fin 512), (Option.get ((((State.reset.setStr 511
     { StrState.init with descAt := some 7, gap := some ⟨1, 0, 0, 0, 1⟩ }).setFld (R.STR_STAT 511) F.STR_STAT_STATE
     1).st (511 : Fin 512).val).descAt) (by decide +kernel)), by decide +kernel⟩,
   ⟨(((State.reset.setStr 511 { StrState.init with descAt := some 7 }).setFld (R.STR_STAT 511) F.STR_STAT_STATE
     1).setFld (R.STR_FIFO 511) F.STR_FIFO_SIZE 2), (511 : Fin 512), (Option.get (((((State.reset.setStr 511
     { StrState.init with descAt := some 7 }).setFld (R.STR_STAT 511) F.STR_STAT_STATE 1).setFld (R.STR_FIFO 511)
     F.STR_FIFO_SIZE 2).st (511 : Fin 512).val).descAt) (by decide +kernel)), by decide +kernel⟩,
   ⟨State.reset, (0 : Fin 512), (false), by decide +kernel⟩,
   ⟨(sendHub), (511 : Fin 512), (false : Bool), ((Option.get ((sendHub).sendItem (511 : Fin 512).val (false : Bool))
     (by decide +kernel)).1), ((Option.get ((sendHub).sendItem (511 : Fin 512).val (false : Bool))
     (by decide +kernel)).2), (Option.get ((sendHub).exitPort) (by decide +kernel)), by decide +kernel⟩,
   ⟨(linkSends 0 (besideExit.setStr 511 { StrState.init with pkts := [onePacket], wp := 1 })), (511 : Fin 512), (false
     : Bool), ((Option.get ((linkSends 0 (besideExit.setStr 511
     { StrState.init with pkts := [onePacket], wp := 1 })).sendItem (511 : Fin 512).val (false : Bool))
     (by decide +kernel)).1), ((Option.get ((linkSends 0 (besideExit.setStr 511
     { StrState.init with pkts := [onePacket], wp := 1 })).sendItem (511 : Fin 512).val (false : Bool))
     (by decide +kernel)).2), (0), by decide +kernel⟩,
   ⟨State.reset, (0 : Fin 512), by decide +kernel⟩,
   ⟨State.reset, (0 : Fin 512), by decide +kernel⟩,
   ⟨((((converting 0 State.reset).setRg 0 { RegionState.init with runs := [(0, none)], edge := 2 ^ 90 }).setFld
     (R.STR_MEMB 511) F.STR_MEMB_NCH 1).setFld (R.STR_STAT 511) F.STR_STAT_STATE 1), (511 : Fin 512), (0 : Nat),
     ((Option.get (((((converting 0 State.reset).setRg 0
     { RegionState.init with runs := [(0, none)], edge := 2 ^ 90 }).setFld (R.STR_MEMB 511) F.STR_MEMB_NCH 1).setFld
     (R.STR_STAT 511) F.STR_STAT_STATE 1).strNext (511 : Fin 512).val) (by decide +kernel)).2), by decide +kernel⟩,
   ⟨(fullStream StrState.init), (511 : Fin 512), (0 : Nat), (.row [] : Item), ((fullStream StrState.init).setIcnt 511
     1 |>.appendWaits 511 : State), ⟨rfl, by decide +kernel, by decide +kernel, by decide +kernel⟩⟩,
   ⟨(fullStream { StrState.init with gap := some oneGap }), (511 : Fin 512), (.row [] : Item), (oneGap : GapInfo),
     (((fullStream { StrState.init with gap := some oneGap }).setIcnt (511 : Fin 512).val ((fullStream
     { StrState.init with gap := some oneGap }).strIcnt (511 : Fin 512).val + 1)).appendWaits (511 : Fin 512).val),
     by decide +kernel⟩,
   ⟨(openStream { StrState.init with gap := some oneGap }), (511 : Fin 512), (.row [] : Item), (oneGap : GapInfo),
     (((openStream { StrState.init with gap := some oneGap }).setIcnt (511 : Fin 512).val ((openStream
     { StrState.init with gap := some oneGap }).strIcnt (511 : Fin 512).val + 1)).appendWaits (511 : Fin 512).val),
     by decide +kernel⟩,
   ⟨(openStream { StrState.init with cur := some ⟨1, 0, [], 7, 1, 0, 1, 7, 0, false⟩ }), (511 : Fin 512), ([1] : List
     Byte), (⟨1, 0, [], 7, 1, 0, 1, 7, 0, false⟩ : OpenPkt), ((if (openStream
     { StrState.init with cur := some ⟨1, 0, [], 7, 1, 0, 1, 7, 0, false⟩ }).strTimed (511 : Fin 512).val then beBytes
     8 ((7 + (openStream StrState.init).strRow 511 * pktU : Nat) - (⟨1, 0, [], 7, 1, 0, 1, 7, 0, false⟩ :
     OpenPkt).name) else []) ++ ([1] : List Byte)), (7 + (openStream StrState.init).strRow 511 * pktU : Nat),
     by decide +kernel⟩,
   ⟨State.reset, (0 : Fin 512), (0), by decide +kernel⟩,
   ⟨(fullStream { StrState.init with wr := 127, spill := [⟨9, 128, 127⟩] }), (511 : Fin 512), (false : Bool), (⟨9,
     128, 127⟩ : SpillPage), by decide +kernel⟩,
   ⟨(fullStream { StrState.init with wr := 128, spill := [⟨9, 128, 128⟩] }), (511 : Fin 512), (false : Bool), (⟨9,
     128, 128⟩ : SpillPage), (List.head ((fullStream
     { StrState.init with wr := 128, spill := [⟨9, 128, 128⟩] }).spillFree) (by decide +kernel)), (List.tail
     ((fullStream { StrState.init with wr := 128, spill := [⟨9, 128, 128⟩] }).spillFree)), by decide +kernel⟩,
   ⟨(fullStream { StrState.init with spill := [] }), (511 : Fin 512), (false : Bool), (List.head ((fullStream
     { StrState.init with spill := [] }).spillFree) (by decide +kernel)), (List.tail ((fullStream
     { StrState.init with spill := [] }).spillFree)), by decide +kernel⟩,
   ⟨State.reset, (0 : Nat), by decide +kernel⟩,
   ⟨(State.reset.setStr 0 { StrState.init with pkts := [{ onePacket with sent := true }] }), (0 : Nat), (0 : Nat),
     (Option.get ((((State.reset.setStr 0 { StrState.init with pkts := [{ onePacket with sent := true }] }).st (0 :
     Nat)).pkts.take (pktsUpTo ((State.reset.setStr 0 { StrState.init with pkts := [{ onePacket with sent := true }]
     }).st (0 : Nat)).pkts (0 : Nat))).getLast?) (by decide +kernel)), by decide +kernel⟩⟩

/-- The hypotheses of `Obligations.NetworkRows` can be met, clause by clause. -/
theorem witness_network_rows :
    (∃ (s : State) (p : RxPort) (svc : Service) (c : Instr), (s.awake = true) ∧ ((svc = .arp ∧ ((∃ a b m, c =
      .arpRequestRx p a b m) ∨ (∃ a m, c = .arpReplyRx p a m))) ∨ (svc = .ndp ∧ ((∃ a b, c = .neighbourSolicitationRx
      p a b) ∨ (∃ a m, c = .neighbourAdvertisementRx p a m))) ∨ (svc = .echo ∧ ∃ data v a b x y, c = .icmpEchoRequest
      ⟨p, data⟩ v a b x y)) ∧ (s.rxLive p.port.val p.head = false)) ∧
    (∃ (s : State) (p : RxPort) (svc : Service) (c : Instr), (s.awake = true) ∧ ((svc = .arp ∧ ((∃ a b m, c =
      .arpRequestRx p a b m) ∨ (∃ a m, c = .arpReplyRx p a m))) ∨ (svc = .ndp ∧ ((∃ a b, c = .neighbourSolicitationRx
      p a b) ∨ (∃ a m, c = .neighbourAdvertisementRx p a m))) ∨ (svc = .echo ∧ ∃ data v a b x y, c = .icmpEchoRequest
      ⟨p, data⟩ v a b x y)) ∧ (s.rxLive p.port.val p.head = true) ∧ (s.frameOk p.port.val p.head svc = false)) ∧
    (∃ (s : State) (p : RxPort) (i : Nat) (target : BitVec 32), (s.awake = true) ∧ (i = p.port.val) ∧ (s.rxLive i
      p.head = true) ∧ (s.frameOk i p.head .arp = true) ∧ (target.toNat ≠ 0 ∧ target.toNat = s.ip4 i)) ∧
    (∃ (s : State) (p : RxPort) (i : Nat) (target : BitVec 32), (s.awake = true) ∧ (i = p.port.val) ∧ (s.rxLive i
      p.head = true) ∧ (s.frameOk i p.head .arp = true) ∧ (target.toNat ≠ s.ip4 i)) ∧
    (∃ (s : State) (p : RxPort) (i : Nat) (ip : BitVec 32) (mac : BitVec 48), (s.awake = true) ∧ (i = p.port.val) ∧
      (s.rxLive i p.head = true) ∧ (s.frameOk i p.head .arp = true) ∧ (ip.toNat ≠ 0) ∧ (ip.toNat = s.ip4 i) ∧
      (mac.toNat = s.portMac i)) ∧
    (∃ (s : State) (p : RxPort) (i : Nat) (ip : BitVec 32) (mac : BitVec 48), (s.awake = true) ∧ (i = p.port.val) ∧
      (s.rxLive i p.head = true) ∧ (s.frameOk i p.head .arp = true) ∧ (ip.toNat ≠ 0) ∧ (ip.toNat = s.ip4 i) ∧
      (mac.toNat ≠ s.portMac i)) ∧
    (∃ (s : State) (p : RxPort) (i : Nat) (ip : BitVec 32), (s.awake = true) ∧ (i = p.port.val) ∧ (s.rxLive i p.head =
      true) ∧ (s.frameOk i p.head .arp = true) ∧ (ip.toNat ≠ s.ip4 i)) ∧
    (∃ (s : State) (p : RxPort) (i : Nat) (target : BitVec 128), (s.awake = true) ∧ (i = p.port.val) ∧ (s.rxLive i
      p.head = true) ∧ (s.frameOk i p.head .ndp = true) ∧ (s.ownIp i true target.toNat = true)) ∧
    (∃ (s : State) (p : RxPort) (i : Nat) (target : BitVec 128), (s.awake = true) ∧ (i = p.port.val) ∧ (s.rxLive i
      p.head = true) ∧ (s.frameOk i p.head .ndp = true) ∧ (s.ownIp i true target.toNat = false)) ∧
    (∃ (s : State) (p : RxPort) (i : Nat) (ip : BitVec 128) (mac : BitVec 48), (s.awake = true) ∧ (i = p.port.val) ∧
      (s.rxLive i p.head = true) ∧ (s.frameOk i p.head .ndp = true) ∧ (s.ownIp i true ip.toNat = true) ∧ (mac.toNat =
      s.portMac i)) ∧
    (∃ (s : State) (p : RxPort) (i : Nat) (ip : BitVec 128) (mac : BitVec 48), (s.awake = true) ∧ (i = p.port.val) ∧
      (s.rxLive i p.head = true) ∧ (s.frameOk i p.head .ndp = true) ∧ (s.ownIp i true ip.toNat = true) ∧ (mac.toNat ≠
      s.portMac i)) ∧
    (∃ (s : State) (p : RxPort) (i : Nat) (ip : BitVec 128), (s.awake = true) ∧ (i = p.port.val) ∧ (s.rxLive i p.head
      = true) ∧ (s.frameOk i p.head .ndp = true) ∧ (s.ownIp i true ip.toNat = false)) ∧
    (∃ (s : State) (p : RxPort) (i : Nat) (v6 : Bool) (dest : BitVec 128), (s.awake = true) ∧ (i = p.port.val) ∧
      (s.rxLive i p.head = true) ∧ (s.frameOk i p.head .echo = true) ∧ (s.ownIp i v6 dest.toNat = true)) ∧
    (∃ (s : State) (p : RxPort) (i : Nat) (v6 : Bool) (dest : BitVec 128), (s.awake = true) ∧ (i = p.port.val) ∧
      (s.rxLive i p.head = true) ∧ (s.frameOk i p.head .echo = true) ∧ (s.ownIp i v6 dest.toNat = false)) ∧
    (∃ (s : State) (i : _), (s.awake = true) ∧ (i < 2)) ∧
    (∃ (s : State) (d : _), (s.awake = true) ∧ (s.ring.unresolved.contains d = false)) ∧
    (∃ (s : State), (s.awake = true) ∧ (s.exitPort = none)) ∧
    (∃ (s : State) (x : _), (s.awake = true) ∧ (s.exitPort = some x) ∧ (s.ring.unresolved ≠ [])) ∧
    (∃ (s : State) (e : _) (rest : _), (s.awake = true) ∧ (s.ring.held = e :: rest) ∧ (∀ x ∈ e :: rest, x.since =
      e.since) ∧ (s.spn.refclk = true)) ∧
    (∃ (s : State) (origin : Fin 65536) (c : Fin 512) (q : BitVec 32), (s.awake = true) ∧ (s.ring.air = [(origin.val,
      c.val, q.toNat)])) ∧
    (∃ (s : State), (s.awake = true) ∧ (s.ring.air = [])) ∧
    (∃ (s : State) (i : Fin 10) (u : State), (s.awake = true) ∧ (u = ((s.setFlag (R.LNE_STAT i.val) F.LNE_STAT_LOS
      false).laneQuiet i.val).losCount i.val none)) :=
  ⟨⟨(activePort 1 State.reset), ({ rxAt 7 false with head.inv := true } : RxPort), (.arp : Service), (.arpRequestRx
     { rxAt 7 false with head.inv := true } 0 0 0 : Instr), ⟨by decide +kernel, .inl ⟨rfl, .inl ⟨0, 0, 0, rfl⟩⟩,
     by decide +kernel⟩⟩,
   ⟨(activePort 1 State.reset), (rxAt 8 false : RxPort), (.ndp : Service), (.neighbourSolicitationRx (rxAt 8 false) 0
     0 : Instr), ⟨by decide +kernel, .inr (.inl ⟨rfl, .inl ⟨0, 0, rfl⟩⟩), by decide +kernel, by decide +kernel⟩⟩,
   ⟨((activePort 1 State.reset).setReg (R.NET_IP4 1) 5), (rxAt 7 false : RxPort), (1 : Nat), (5 : BitVec 32),
     by decide +kernel⟩,
   ⟨((activePort 1 State.reset).setReg (R.NET_IP4 1) 5), (rxAt 7 false : RxPort), (1 : Nat), (6 : BitVec 32),
     by decide +kernel⟩,
   ⟨((activePort 1 State.reset).setReg (R.NET_IP4 1) 5), (rxAt 7 false : RxPort), (1 : Nat), (5 : BitVec 32), (7 :
     BitVec 48), by decide +kernel⟩,
   ⟨((activePort 1 State.reset).setReg (R.NET_IP4 1) 5), (rxAt 7 false : RxPort), (1 : Nat), (5 : BitVec 32), (8 :
     BitVec 48), by decide +kernel⟩,
   ⟨((activePort 1 State.reset).setReg (R.NET_IP4 1) 5), (rxAt 7 false : RxPort), (1 : Nat), (6 : BitVec 32),
     by decide +kernel⟩,
   ⟨((activePort 1 State.reset).setReg (R.NET_IP6 1 3) 5), (rxAt 7 true : RxPort), (1 : Nat), (5 : BitVec 128),
     by decide +kernel⟩,
   ⟨((activePort 1 State.reset).setReg (R.NET_IP6 1 3) 5), (rxAt 7 true : RxPort), (1 : Nat), (6 : BitVec 128),
     by decide +kernel⟩,
   ⟨((activePort 1 State.reset).setReg (R.NET_IP6 1 3) 5), (rxAt 7 true : RxPort), (1 : Nat), (5 : BitVec 128), (7 :
     BitVec 48), by decide +kernel⟩,
   ⟨((activePort 1 State.reset).setReg (R.NET_IP6 1 3) 5), (rxAt 7 true : RxPort), (1 : Nat), (5 : BitVec 128), (8 :
     BitVec 48), by decide +kernel⟩,
   ⟨((activePort 1 State.reset).setReg (R.NET_IP6 1 3) 5), (rxAt 7 true : RxPort), (1 : Nat), (6 : BitVec 128),
     by decide +kernel⟩,
   ⟨((activePort 1 State.reset).setReg (R.NET_IP4 1) 5), (rxAt 7 false : RxPort), (1 : Nat), (false : Bool), (5 :
     BitVec 128), by decide +kernel⟩,
   ⟨((activePort 1 State.reset).setReg (R.NET_IP4 1) 5), (rxAt 7 false : RxPort), (1 : Nat), (false : Bool), (6 :
     BitVec 128), by decide +kernel⟩,
   ⟨State.reset, (0), by decide +kernel⟩,
   ⟨State.reset, (0), by decide +kernel⟩,
   ⟨State.reset, by decide +kernel⟩,
   ⟨({ exitHub tkReady 0 Tracker.init with ring.unresolved := [3] }), (Option.get
     (({ exitHub tkReady 0 Tracker.init with ring.unresolved := [3] }).exitPort) (by decide +kernel)),
     by decide +kernel⟩,
   ⟨({ State.reset with ring.held := [⟨1, 2, 3, 4, [], 5⟩] }), (List.head
     (({ State.reset with ring.held := [⟨1, 2, 3, 4, [], 5⟩] }).ring.held) (by decide +kernel)), (List.tail
     (({ State.reset with ring.held := [⟨1, 2, 3, 4, [], 5⟩] }).ring.held)), by decide +kernel⟩,
   ⟨({ State.reset with ring.air := [(9, 511, 4)] }), (9 : Fin 65536), (511 : Fin 512), (4 : BitVec 32),
     by decide +kernel⟩,
   ⟨State.reset, by decide +kernel⟩,
   ⟨State.reset, (9 : Fin 10), (((State.reset.setFlag (R.LNE_STAT (9 : Fin 10).val) F.LNE_STAT_LOS false).laneQuiet (9
     : Fin 10).val).losCount (9 : Fin 10).val none), by decide +kernel⟩⟩

/-- The hypotheses of `Obligations.LaneRows` can be met, clause by clause. -/
theorem witness_lane_rows :
    (∃ (s : State) (i : Fin 10) (req : Fin 4) (r : Nat), (s.awake = true) ∧ (r = (if s.ctlOn i.val then psCode req.val
      else 2)) ∧ (s.flag (R.LNE_CTRL i.val) F.LNE_CTRL_OWN = false) ∧ (s.spn.refclk = true) ∧ (s.tmode i.val = 0) ∧
      (s.psTrans i.val = false) ∧ (s.psCur i.val ≠ r)) ∧
    (∃ (s : State) (i : Fin 10) (req : Fin 4) (r : _), (s.awake = true) ∧ (r = (if s.ctlOn i.val then psCode req.val
      else 2)) ∧ (s.flag (R.LNE_CTRL i.val) F.LNE_CTRL_OWN = true)) ∧
    (∃ (s : State) (i : Fin 10) (req : Fin 4) (r : _), (s.awake = true) ∧ (r = (if s.ctlOn i.val then psCode req.val
      else 2)) ∧ (s.flag (R.LNE_CTRL i.val) F.LNE_CTRL_OWN = false) ∧ (s.spn.refclk = true) ∧ (s.psTrans i.val = true
      ∨ s.tmode i.val ≠ 0)) ∧
    (∃ (s : State) (i : Fin 10) (req : Fin 4) (r : Nat), (s.awake = true) ∧ (r = (if s.ctlOn i.val then psCode req.val
      else 2)) ∧ (s.flag (R.LNE_CTRL i.val) F.LNE_CTRL_OWN = false) ∧ (s.spn.refclk = false)) ∧
    (∃ (s : State) (i : Fin 10) (onTime : Prop) (tg : Nat) (pend : Bool), (s.awake = true) ∧ (s.psTrans i.val = true)
      ∧ (s.spn.refclk = true) ∧ ((s.ln i.val).target ≤ 2) ∧ ((s.ln i.val).target = 2 ∨ s.flag (R.LNE_GRP (grpOf
      i.val)) F.LNE_GRP_PLL_LOCK = true) ∧ (onTime ↔ (s.ln i.val).late = true ∨ s.lt ≤ (s.ln i.val).since + psBound
      (s.psCur i.val) (s.ln i.val).target) ∧ (tg = (s.ln i.val).target) ∧ (pend = s.flag (R.LNE_STAT i.val)
      F.LNE_STAT_PENDV)) ∧
    (∃ (s : State) (i : Fin 10), (s.awake = true) ∧ (s.psTrans i.val = true) ∧ (s.spn.refclk = true) ∧ ((s.ln
      i.val).late = false)) ∧
    (∃ (s : State) (i : Fin 10), (s.awake = true) ∧ (s.flag (R.LNE_STAT i.val) F.LNE_STAT_LOS = false) ∧ (s.inL0 i.val
      = true)) ∧
    (∃ (s : State) (i : Fin 10), (s.awake = true) ∧ (s.inL0 i.val = true) ∧ (s.flag (R.LNE_STAT i.val)
      F.LNE_STAT_CDR_LOCK = true)) ∧
    (∃ (s : State) (i : Fin 10), (s.awake = true) ∧ (s.inL0 i.val = true)) ∧
    (∃ (s : State) (i : Fin 10) (h : Fin 65) (v : Fin 256), (s.awake = true) ∧ (s.inL0 i.val = true) ∧ (s.flag
      (R.LNE_RXEQ i.val) F.LNE_RXEQ_CTLE_AUTO = false) ∧ (s.flag (R.LNE_RXEQ i.val) F.LNE_RXEQ_DFE_AUTO = false) ∧
      (eqf h.val v.val < s.fld (R.LNE_EQCFG i.val) F.LNE_EQCFG_EQTHR)) ∧
    (∃ (s : State) (i : Fin 10), (s.awake = true) ∧ (3 ≤ (s.ln i.val).eqRun) ∧ (s.inL0 i.val = true) ∧ (s.flag
      (R.LNE_STAT i.val) F.LNE_STAT_EQLOW = false)) ∧
    (∃ (s : State) (q : Fin 4), (s.awake = true) ∧ (s.spn.refclk = true) ∧ (s.flag (R.LNE_GRP q.val)
      F.LNE_GRP_PLL_LOCK = true)) ∧
    (∃ (s : State) (q : Fin 4), (s.awake = true) ∧ (s.spn.refclk = true) ∧ (s.pllWanted q.val = true) ∧ (s.flag
      (R.LNE_GRP q.val) F.LNE_GRP_PLL_LOCK = false)) ∧
    (∃ (s : State) (v : Word), (s.awake = true) ∧ (txValid (bitsOf v.toNat 20 16) (bitsOf v.toNat 13 8) (bitsOf
      v.toNat 3 0) = true)) ∧
    (∃ (s : State) (v : Word), (s.awake = true) ∧ (txValid (bitsOf v.toNat 20 16) (bitsOf v.toNat 13 8) (bitsOf
      v.toNat 3 0) = false)) ∧
    (∃ (s : State) (q : Fin 4) (v : Word), (s.awake = true) ∧ (s.grpIdle q.val = true) ∧ (bitsOf v.toNat 3 0 ≠ s.fld
      (R.LNE_GRP q.val) F.LNE_GRP_RATE) ∧ (rateOf q.val (bitsOf v.toNat 3 0) = true) ∧ (s.rateDemand q.val v = false)) ∧
    (∃ (s : State) (q : Fin 4) (v : Word), (s.awake = true) ∧ (s.grpIdle q.val = true) ∧ (bitsOf v.toNat 3 0 ≠ s.fld
      (R.LNE_GRP q.val) F.LNE_GRP_RATE) ∧ (rateOf q.val (bitsOf v.toNat 3 0) = false)) :=
  ⟨⟨(State.reset.setFlag (R.CHP_CTRL 1) F.CHP_CTRL_EN true), (9 : Fin 10), (0 : Fin 4), ((if (State.reset.setFlag
     (R.CHP_CTRL 1) F.CHP_CTRL_EN true).ctlOn (9 : Fin 10).val then psCode (0 : Fin 4).val else 2)),
     by decide +kernel⟩,
   ⟨(State.reset.setFlag (R.LNE_CTRL 9) F.LNE_CTRL_OWN true), (9 : Fin 10), (0 : Fin 4), ((if (State.reset.setFlag
     (R.LNE_CTRL 9) F.LNE_CTRL_OWN true).ctlOn (9 : Fin 10).val then psCode (0 : Fin 4).val else 2)),
     by decide +kernel⟩,
   ⟨(State.reset.setFlag (R.LNE_STAT 0) F.LNE_STAT_TRANS true), (0 : Fin 10), (0 : Fin 4), ((if (State.reset.setFlag
     (R.LNE_STAT 0) F.LNE_STAT_TRANS true).ctlOn (0 : Fin 10).val then psCode (0 : Fin 4).val else 2)),
     by decide +kernel⟩,
   ⟨({ State.reset with spn.refclk := false }), (9 : Fin 10), (0 : Fin 4), ((if
     ({ State.reset with spn.refclk := false }).ctlOn (9 : Fin 10).val then psCode (0 : Fin 4).val else 2)),
     by decide +kernel⟩,
   ⟨((State.reset.setFlag (R.LNE_STAT 9) F.LNE_STAT_TRANS true).setLn 9 { LaneState.init with target := 2 }), (9 : Fin
     10), (True : Prop), (2 : Nat), (false : Bool),
     by and_intros <;> first | with_reducible rfl | decide +kernel | rfl⟩,
   ⟨(State.reset.setFlag (R.LNE_STAT 0) F.LNE_STAT_TRANS true), (0 : Fin 10), by decide +kernel⟩,
   ⟨((State.reset.setFld (R.LNE_STAT 9) F.LNE_STAT_PSCUR 0).setFlag (R.LNE_STAT 9) F.LNE_STAT_LOS false), (9 : Fin
     10), by decide +kernel⟩,
   ⟨((State.reset.setFld (R.LNE_STAT 9) F.LNE_STAT_PSCUR 0).setFlag (R.LNE_STAT 9) F.LNE_STAT_CDR_LOCK true), (9 : Fin
     10), by decide +kernel⟩,
   ⟨(State.reset.setFld (R.LNE_STAT 9) F.LNE_STAT_PSCUR 0), (9 : Fin 10), by decide +kernel⟩,
   ⟨(((State.reset.setFld (R.LNE_STAT 9) F.LNE_STAT_PSCUR 0).setFlag (R.LNE_RXEQ 9) F.LNE_RXEQ_CTLE_AUTO
     false).setFlag (R.LNE_RXEQ 9) F.LNE_RXEQ_DFE_AUTO false), (9 : Fin 10), (0 : Fin 65), (0 : Fin 256),
     by decide +kernel⟩,
   ⟨((State.reset.setFld (R.LNE_STAT 9) F.LNE_STAT_PSCUR 0).setLn 9 { LaneState.init with eqRun := 3 }), (9 : Fin 10),
     by decide +kernel⟩,
   ⟨(State.reset.setFlag (R.LNE_GRP 3) F.LNE_GRP_PLL_LOCK true), (3 : Fin 4), by decide +kernel⟩,
   ⟨(State.reset.setFld (R.LNE_STAT 9) F.LNE_STAT_PSCUR 0), (3 : Fin 4), by decide +kernel⟩,
   ⟨State.reset, (0x000B3004 : Word), by decide +kernel⟩,
   ⟨State.reset, (0 : Word), by decide +kernel⟩,
   ⟨State.reset, (3 : Fin 4), (6 : Word), by decide +kernel⟩,
   ⟨State.reset, (3 : Fin 4), (3 : Word), by decide +kernel⟩⟩

/-- The hypotheses of `Obligations.LaneTestRows` can be met, clause by clause. -/
theorem witness_lane_test_rows :
    (∃ (s : State) (i : Fin 10) (via : Via) (v : Word), (s.awake = true) ∧ (s.viaLane via i.val = true) ∧ (bitsOf
      v.toNat F.LNE_CTRL_TMODE.hi F.LNE_CTRL_TMODE.lo ≠ 0)) ∧
    (∃ (s : State), (s.awake = true)) ∧
    (∃ (s : State) (i : Fin 10) (v : Word), (s.awake = true) ∧ (bitsOf v.toNat F.LNE_CTRL_TMODE.hi F.LNE_CTRL_TMODE.lo
      = s.fld (R.LNE_CTRL i.val) F.LNE_CTRL_TMODE) ∧ (s.flag (R.LNE_CTRL i.val) F.LNE_CTRL_OWN = false) ∧
      (v.toNat.testBit F.LNE_CTRL_OWN.lo = false) ∧ (s.tmode i.val = 0)) ∧
    (∃ (s : State) (i : Fin 10) (v : Word), (s.awake = true) ∧ (v.toNat.testBit 3 = true) ∧ (s.tmode i.val = 2) ∧
      (s.prbsOn i.val = true) ∧ (s.prbsLocked i.val = true) ∧ (s.flag (R.LNE_CTRL i.val) F.LNE_CTRL_OWN = false) ∧ (∀
      f ∈ lneCtrlFlds, f ≠ F.LNE_CTRL_ERRINJ → bitsOf v.toNat f.hi f.lo = s.fld (R.LNE_CTRL i.val) f) ∧ ((s.ln
      i.val).chk = (s.ln i.val).src) ∧ ((s.ln i.val).pol = s.prbsPol i.val)) ∧
    (∃ (s : State) (i : Fin 10), (s.awake = true) ∧ (s.prbsOn i.val = true) ∧ (s.tmode i.val = 1)) ∧
    (∃ (s : State) (i : Fin 10), (s.awake = true) ∧ (s.prbsOn i.val = true) ∧ (s.tmode i.val = 2) ∧ (s.prbsLocked
      i.val = false)) ∧
    (∃ (s : State) (i : Fin 10), (s.awake = true) ∧ (s.prbsOn i.val = false)) ∧
    (∃ (s : State) (i : Fin 10), (s.awake = true) ∧ (s.prbsOn i.val = true) ∧ (s.prbsLocked i.val = true)) ∧
    (∃ (s : State) (i : Fin 10) (k : Nat) (n : Nat), (s.awake = true) ∧ (n ≤ k) ∧ (s.tmode i.val = 2 ∨ (s.ln
      i.val).srcSeq = s.prbsSeq i.val) ∧ ((s.ln i.val).chk = (s.ln i.val).src)) :=
  ⟨⟨State.reset, (0 : Fin 10), (.port 0 : Via), (0x700 : Word), by decide +kernel⟩,
   ⟨State.reset, by decide +kernel⟩,
   ⟨(State.reset.setFld (R.LNE_STAT 9) F.LNE_STAT_PSCUR 0), (9 : Fin 10), (8 : Word), by decide +kernel⟩,
   ⟨((((State.reset.setFld (R.LNE_STAT 9) F.LNE_STAT_PSCUR 0).setFld (R.LNE_CTRL 9) F.LNE_CTRL_TMODE 2).setFlag
     (R.LNE_STAT 9) F.LNE_STAT_PRBS_LOCK true)), (9 : Fin 10), (BitVec.ofNat 32 (8 + ((((State.reset.setFld
     (R.LNE_STAT 9) F.LNE_STAT_PSCUR 0).setFld (R.LNE_CTRL 9) F.LNE_CTRL_TMODE 2).setFlag (R.LNE_STAT 9)
     F.LNE_STAT_PRBS_LOCK true).reg (R.LNE_CTRL 9)).toNat) : Word), by decide +kernel⟩,
   ⟨(((State.reset.setFld (R.LNE_STAT 9) F.LNE_STAT_PSCUR 0).setFld (R.LNE_CTRL 9) F.LNE_CTRL_TMODE 1)), (9 : Fin 10),
     by decide +kernel⟩,
   ⟨(((State.reset.setFld (R.LNE_STAT 9) F.LNE_STAT_PSCUR 0).setFld (R.LNE_CTRL 9) F.LNE_CTRL_TMODE 2)), (9 : Fin 10),
     by decide +kernel⟩,
   ⟨State.reset, (0 : Fin 10), by decide +kernel⟩,
   ⟨((((State.reset.setFld (R.LNE_STAT 9) F.LNE_STAT_PSCUR 0).setFld (R.LNE_CTRL 9) F.LNE_CTRL_TMODE 2).setFlag
     (R.LNE_STAT 9) F.LNE_STAT_PRBS_LOCK true)), (9 : Fin 10), by decide +kernel⟩,
   ⟨(((State.reset.setFld (R.LNE_STAT 9) F.LNE_STAT_PSCUR 0).setFld (R.LNE_CTRL 9) F.LNE_CTRL_TMODE 2)), (9 : Fin 10),
     (1024 : Nat), (32 : Nat), by decide +kernel⟩⟩

/-- The hypotheses of `Obligations.SegmentRows` can be met, clause by clause. -/
theorem witness_segment_rows :
    (∃ (s : State), (s.awake = true)) ∧
    (∃ (s : State) (hops : Fin 256), (s.awake = true) ∧ (15 ≤ hops.val)) ∧
    (∃ (s : State) (k : Fin 2) (hops : Fin 256) (origin : Fin 65536) (links : Fin 4) (xst : Fin 256) (t : LtOp) (h :
      SegHub), (s.awake = true) ∧ (hops.val < 15) ∧ (s.linkFlag k.val = true) ∧ (h = ⟨origin.val, k.val, hops.val + 1,
      links.val, xst.val, ltOp t⟩)) ∧
    (∃ (s : State), (s.awake = true) ∧ (s.ring.settled = true)) ∧
    (∃ (s : State), (s.awake = true) ∧ (s.ring.settled = false)) ∧
    (∃ (s : State) (p : Fin 2), (s.awake = true) ∧ (s.candidate p.val = true) ∧ (s.flag (R.NET_STAT p.val)
      F.NET_STAT_LINK = true)) ∧
    (∃ (s : State) (p : Nat), (s.awake = true) ∧ (s.exitPort = some p)) ∧
    (∃ (s : State) (bs : List Byte) (c : List Byte) (cs : List (List Byte)), (s.awake = true) ∧ (pieces256 bs.length
      bs = c :: cs)) ∧
    (∃ (s : State) (bs : List Byte) (c : List Byte) (cs : List (List Byte)), (s.awake = true) ∧ (pieces256 bs.length
      bs = c :: cs)) ∧
    (∃ (s : State) (bs : List Byte) (c : List Byte) (cs : List (List Byte)) (d : List Byte), (s.awake = true) ∧
      (pieces256 bs.length bs = c :: cs) ∧ (d ∈ cs)) ∧
    (∃ (s : State) (b : List Byte), (s.awake = true) ∧ (mirOk b = false)) ∧
    (∃ (s : State) (b : List Byte) (t : _), (s.awake = true) ∧ (mirOk b = true) ∧ (ltAt b 8 = some t) ∧ (s.isExit =
      false) ∧ (s.ring.mirror = none) ∧ (s.ring.switching = none) ∧ (∀ j < 2, s.linkUp j = false)) ∧
    (∃ (s : State) (b : List Byte) (t : Nat) (o : Mirror), (s.awake = true) ∧ (mirOk b = true) ∧ (ltAt b 8 = some t) ∧
      (s.ring.mirror = some o) ∧ (s.mirrorValid = true) ∧ (signed 32 (natAt b 4 4 + 2 ^ 32 - o.gen) ≤ 0)) ∧
    (∃ (s : State) (b : List Byte) (t : Nat) (p : Nat), (s.awake = true) ∧ (mirOk b = true) ∧ (ltAt b 8 = some t) ∧
      (s.isExit = false) ∧ (s.ring.mirror = none) ∧ (s.ring.switching = some (s.hubId, p))) ∧
    (∃ (s : State), (s.awake = true) ∧ (s.ring.mirror = none)) ∧
    (∃ (s : State) (m : _), (s.awake = true) ∧ (s.ring.mirror = some m)) :=
  ⟨⟨State.reset, by decide +kernel⟩,
   ⟨State.reset, (15 : Fin 256), by decide +kernel⟩,
   ⟨(State.reset.setFlag (R.CHP_STAT 0) F.CHP_STAT_UP true), (0 : Fin 2), (14 : Fin 256), (0 : Fin 65536), (0 : Fin
     4), (0 : Fin 256), (⟨0, 0, 0⟩ : LtOp), (⟨(0 : Fin 65536).val, (0 : Fin 2).val, (14 : Fin 256).val + 1, (0 : Fin
     4).val, (0 : Fin 256).val, ltOp (⟨0, 0, 0⟩ : LtOp)⟩), by decide +kernel⟩,
   ⟨({ State.reset with ring.settled := true }), by decide +kernel⟩,
   ⟨State.reset, by decide +kernel⟩,
   ⟨((State.reset.setFlag (R.NET_CTRL 1) F.NET_CTRL_EXIT_EN true).setFlag (R.NET_STAT 1) F.NET_STAT_LINK true), (1 :
     Fin 2), by decide +kernel⟩,
   ⟨(exitHub tkReady 0 Tracker.init), (0 : Nat), by decide +kernel⟩,
   ⟨State.reset, (List.replicate 300 1 : List Byte), (List.replicate 256 1 : List Byte), ([3 :: List.replicate 44 1] :
     List (List Byte)), by decide +kernel⟩,
   ⟨State.reset, (List.replicate 300 1 : List Byte), (List.replicate 256 1 : List Byte), ([3 :: List.replicate 44 1] :
     List (List Byte)), by decide +kernel⟩,
   ⟨State.reset, (List.replicate 300 1 : List Byte), (List.replicate 256 1 : List Byte), ([3 :: List.replicate 44 1] :
     List (List Byte)), (3 :: List.replicate 44 1 : List Byte), by decide +kernel⟩,
   ⟨State.reset, ([] : List Byte), by decide +kernel⟩,
   ⟨State.reset, (mirrorImage : List Byte), (Option.get (ltAt (mirrorImage : List Byte) 8) (by decide +kernel)),
     by decide +kernel⟩,
   ⟨({ State.reset with ring.mirror := some ⟨1, 0, 3, 4, []⟩ }), (mirrorImage : List Byte), (0 : Nat), (⟨1, 0, 3, 4,
     []⟩ : Mirror), by decide +kernel⟩,
   ⟨({ (State.reset.setReg R.CMD_HUBID 5) with ring.switching := some (5, 1) }), (mirrorImage : List Byte), (0 : Nat),
     (1 : Nat), by decide +kernel⟩,
   ⟨State.reset, by decide +kernel⟩,
   ⟨({ State.reset with ring.mirror := some ⟨1, 0, 3, 4, []⟩ }), (Option.get
     (({ State.reset with ring.mirror := some ⟨1, 0, 3, 4, []⟩ }).ring.mirror) (by decide +kernel)),
     by decide +kernel⟩⟩

/-- The hypotheses of `Obligations.ExitRows` can be met, clause by clause. -/
theorem witness_exit_rows :
    (∃ (s : State) (a : _) (id : _) (p : _), (firstOf (s.portsWith xActive) = some (a, id, p)) ∧ (∀ q < 2, s.isActive
      q = true → id = s.hubId ∧ p = q)) ∧
    (∃ (s : State) (a : Nat) (id : Nat) (p : Nat) (q : Nat), (firstOf (s.portsWith xActive) = some (a, id, p)) ∧ (q <
      2) ∧ (s.isActive q = true) ∧ (s.isActive (1 - q) = false) ∧ (¬ (id = s.hubId ∧ p = q))) ∧
    (∃ (s : State) (a : _) (id : _) (p : _), (firstOf (s.portsWith xActive) = none) ∧ (firstOf ((s.portsWith
      xStandby).map (fun c => (0, c.2.1, c.2.2))) = some (a, id, p))) ∧
    (∃ (s : State), (firstOf (s.portsWith xActive) = none) ∧ (firstOf ((s.portsWith xStandby).map (fun c => (0, c.2.1,
      c.2.2))) = none)) ∧
    (∃ (l : List (Nat × Nat × Nat)) (x : Nat × Nat × Nat), (firstOf l = some x)) ∧
    (∃ (l : List (Nat × Nat × Nat)) (x : Nat × Nat × Nat) (y : Nat × Nat × Nat), (firstOf l = some x) ∧ (y ∈ l)) ∧
    (∃ (s : State) (hops : Fin 256), (s.awake = true) ∧ (15 ≤ hops.val)) ∧
    (∃ (s : State) (hops : Fin 256) (evt : Fin 256), (s.awake = true) ∧ (hops.val < 15) ∧ (evt.val = 1 ∨ evt.val = 3)) ∧
    (∃ (s : State) (hops : Fin 256) (evt : Fin 256), (s.awake = true) ∧ (hops.val < 15) ∧ (evt.val = 2) ∧ (s.exitPort
      = none) ∧ (∀ j < 2, s.linkUp j = false)) ∧
    (∃ (s : State) (hops : Fin 256) (evt : Fin 256), (s.awake = true) ∧ (hops.val < 15) ∧ (evt.val = 4) ∧ (s.exitPort
      = none) ∧ (∀ j < 2, s.linkUp j = false)) ∧
    (∃ (s : State) (hops : Fin 256) (evt : Fin 256) (q : Nat) (x : Nat × Nat), (s.awake = true) ∧ (hops.val < 15) ∧
      (evt.val = 2) ∧ (s.exitPort = some q) ∧ (s.ring.switching = some x)) ∧
    (∃ (s : State) (q : Nat) (p : Nat), (s.awake = true) ∧ (s.exitPort = some q) ∧ (p ≠ q)) ∧
    (∃ (s : State) (p : Fin 2) (x : _), (s.awake = true) ∧ (s.ring.stopAt = some x) ∧ (s.isActive p.val = false)) ∧
    (∃ (s : State) (v : Word), (s.awake = true) ∧ (v.toNat.testBit 1 = true) ∧ (s.flag R.CHP_RING F.CHP_RING_SWITCH =
      false) ∧ (s.portsWith xStandby = [])) ∧
    (∃ (s : State) (v : Word) (id : Nat) (p : Nat), (s.awake = true) ∧ (v.toNat.testBit 1 = true) ∧ (s.flag R.CHP_RING
      F.CHP_RING_SWITCH = false) ∧ (id = s.fld R.CHP_SWT F.CHP_SWT_TGTID) ∧ (p = s.fld R.CHP_SWT F.CHP_SWT_TGTPORT) ∧
      (∃ a, (a, id, p) ∈ s.portsWith xStandby)) ∧
    (∃ (s : State) (p : Fin 2) (x : _), (s.awake = true) ∧ (s.flag (R.NET_STAT p.val) F.NET_STAT_LINK = true) ∧ ((s.pt
      p.val).echoes = []) ∧ ((s.pt p.val).losAt = some x)) ∧
    (∃ (s : State) (p : Fin 2), (s.awake = true) ∧ (s.flag (R.NET_STAT p.val) F.NET_STAT_LINK = false) ∧ ((s.pt
      p.val).echoes = []) ∧ ((s.pt p.val).losAt = none)) ∧
    (∃ (s : State) (p : Fin 2), (s.awake = true) ∧ (∀ x ∈ (s.pt p.val).echoes, s.lt ≤ x + 10000000 * nsU) ∧ (max
      (s.fld R.NET_GCFG F.NET_GCFG_ECHO_N) 1 ≤ (s.pt p.val).echoes.length)) ∧
    (∃ (s : State), (s.awake = true)) ∧
    (∃ (s : State) (p : Fin 2) (up : _), (s.awake = true) ∧ (s.flag (R.NET_STAT p.val) F.NET_STAT_LINK = up)) ∧
    (∃ (s : State) (p : Fin 2), (s.awake = true) ∧ (s.flag (R.NET_STAT p.val) F.NET_STAT_LINK = false) ∧ (s.tmode
      p.val = 0)) ∧
    (∃ (s : State) (p : Fin 2), (s.awake = true) ∧ (s.tmode p.val ≠ 0)) ∧
    (∃ (s : State) (p : Fin 2), (s.awake = true) ∧ (s.flag (R.NET_STAT p.val) F.NET_STAT_LINK = true)) ∧
    (∃ (s : State) (p : Fin 2) (v : Word), (s.awake = true) ∧ (s.isActive p.val = true) ∧ (s.netCtrlLock p.val v =
      true)) ∧
    (∃ (s : State) (p : Fin 2) (v : Word), (s.awake = true) ∧ (s.isActive p.val = false) ∧ (s.fecDemand p.val v =
      false) ∧ (s.flag (R.NET_CTRL p.val) F.NET_CTRL_EXIT_EN = true) ∧ (v.toNat.testBit F.NET_CTRL_EXIT_EN.lo =
      false)) ∧
    (∃ (s : State) (p : Fin 2) (v : Word), (s.awake = true) ∧ (s.isActive p.val = true) ∧ (s.netCtrlLock p.val v =
      false) ∧ (s.fecDemand p.val v = false) ∧ (s.flag (R.NET_CTRL p.val) F.NET_CTRL_EXIT_EN = true) ∧
      (v.toNat.testBit F.NET_CTRL_EXIT_EN.lo = false)) ∧
    (∃ (s : State) (v : Word), (s.awake = true) ∧ (v.toNat.testBit 1 = false ∨ s.flag R.CHP_RING F.CHP_RING_SWITCH =
      true)) :=
  ⟨⟨({ State.reset with seg := [⟨7, 0, 1, 0, 3, 9⟩] }), ((Option.get (firstOf
     (({ State.reset with seg := [⟨7, 0, 1, 0, 3, 9⟩] }).portsWith xActive)) (by decide +kernel)).1), ((Option.get
     (firstOf (({ State.reset with seg := [⟨7, 0, 1, 0, 3, 9⟩] }).portsWith xActive)) (by decide +kernel)).2.1),
     ((Option.get (firstOf (({ State.reset with seg := [⟨7, 0, 1, 0, 3, 9⟩] }).portsWith xActive))
     (by decide +kernel)).2.2), by decide +kernel⟩,
   ⟨({ (State.reset.setReg R.CMD_HUBID 5).setX 1 xActive with seg := [⟨0, 0, 1, 0, 3, 0⟩], ring.actLt := 9 }), (0 :
     Nat), (0 : Nat), (0 : Nat), (1 : Nat), by decide +kernel⟩,
   ⟨(State.reset.setX 1 xStandby), ((Option.get (firstOf (((State.reset.setX 1 xStandby).portsWith xStandby).map (fun
     c => (0, c.2.1, c.2.2)))) (by decide +kernel)).1), ((Option.get (firstOf (((State.reset.setX 1
     xStandby).portsWith xStandby).map (fun c => (0, c.2.1, c.2.2)))) (by decide +kernel)).2.1), ((Option.get (firstOf
     (((State.reset.setX 1 xStandby).portsWith xStandby).map (fun c => (0, c.2.1, c.2.2)))) (by decide +kernel)).2.2),
     by decide +kernel⟩,
   ⟨State.reset, by decide +kernel⟩,
   ⟨([(3, 0, 0), (2, 0, 0)] : List (Nat × Nat × Nat)), ((2, 0, 0) : Nat × Nat × Nat), by decide +kernel⟩,
   ⟨([(3, 0, 0), (2, 0, 0)] : List (Nat × Nat × Nat)), ((2, 0, 0) : Nat × Nat × Nat), ((3, 0, 0) : Nat × Nat × Nat),
     by decide +kernel⟩,
   ⟨State.reset, (15 : Fin 256), by decide +kernel⟩,
   ⟨State.reset, (14 : Fin 256), (3 : Fin 256), by decide +kernel⟩,
   ⟨State.reset, (14 : Fin 256), (2 : Fin 256), by decide +kernel⟩,
   ⟨State.reset, (14 : Fin 256), (4 : Fin 256), by decide +kernel⟩,
   ⟨({ exitHub tkReady 0 Tracker.init with ring.switching := some (1, 0) }), (14 : Fin 256), (2 : Fin 256), (0 : Nat),
     ((1, 0) : Nat × Nat), by decide +kernel⟩,
   ⟨(exitHub tkReady 0 Tracker.init), (0 : Nat), (1 : Nat), by decide +kernel⟩,
   ⟨({ State.reset with ring.stopAt := some 4 }), (0 : Fin 2), (Option.get
     (({ State.reset with ring.stopAt := some 4 }).ring.stopAt) (by decide +kernel)), by decide +kernel⟩,
   ⟨State.reset, (2 : Word), by decide +kernel⟩,
   ⟨((State.reset.setX 0 xStandby).setFld R.CHP_SWT F.CHP_SWT_TGTID 0), (2 : Word), (((State.reset.setX 0
     xStandby).setFld R.CHP_SWT F.CHP_SWT_TGTID 0).fld R.CHP_SWT F.CHP_SWT_TGTID), (((State.reset.setX 0
     xStandby).setFld R.CHP_SWT F.CHP_SWT_TGTID 0).fld R.CHP_SWT F.CHP_SWT_TGTPORT), ⟨by decide +kernel,
     by decide +kernel, by decide +kernel, rfl, rfl, 0, by decide +kernel⟩⟩,
   ⟨((State.reset.setFlag (R.NET_STAT 1) F.NET_STAT_LINK true).setPt 1 ⟨0, 0, some 3, []⟩), (1 : Fin 2), (Option.get
     ((((State.reset.setFlag (R.NET_STAT 1) F.NET_STAT_LINK true).setPt 1 ⟨0, 0, some 3, []⟩).pt (1 : Fin
     2).val).losAt) (by decide +kernel)), by decide +kernel⟩,
   ⟨(State.reset.setPt 1 ⟨0, 0, none, []⟩), (1 : Fin 2), by decide +kernel⟩,
   ⟨(State.reset.setPt 1 { PortState.init with echoes := [1, 2, 3, 4, 5, 6, 7, 8] }), (1 : Fin 2), by decide +kernel⟩,
   ⟨State.reset, by decide +kernel⟩,
   ⟨State.reset, (0 : Fin 2), (false), by decide +kernel⟩,
   ⟨State.reset, (0 : Fin 2), by decide +kernel⟩,
   ⟨(State.reset.setFld (R.LNE_CTRL 1) F.LNE_CTRL_TMODE 1), (1 : Fin 2), by decide +kernel⟩,
   ⟨(State.reset.setFlag (R.NET_STAT 1) F.NET_STAT_LINK true), (1 : Fin 2), by decide +kernel⟩,
   ⟨(State.reset.setX 1 xActive), (1 : Fin 2), (0x00000FFF : Word), by decide +kernel⟩,
   ⟨(State.reset.setFlag (R.NET_CTRL 1) F.NET_CTRL_EXIT_EN true), (1 : Fin 2), (0 : Word), by decide +kernel⟩,
   ⟨((State.reset.setX 1 xActive).setFlag (R.NET_CTRL 1) F.NET_CTRL_EXIT_EN true), (1 : Fin 2), (0 : Word),
     by decide +kernel⟩,
   ⟨(State.reset.setFlag R.CHP_RING F.CHP_RING_SWITCH true), (2 : Word), by decide +kernel⟩⟩

/-- The hypotheses of `Obligations.ChainpoRows` can be met, clause by clause. -/
theorem witness_chainpo_rows :
    (∃ (s : State) (k : Fin 2), (s.awake = true) ∧ (s.linkFlag k.val = false)) ∧
    (∃ (s : State) (k : Fin 2), (s.awake = true) ∧ (s.linkFlag k.val = true)) ∧
    (∃ (s : State) (k : Fin 2) (block : BitVec 64), (s.awake = true) ∧ ((s.ctlCheck k.val block.toNat 0x2D).2 =
      false)) ∧
    (∃ (s : State) (k : Fin 2) (block : BitVec 64), (s.awake = true) ∧ (s.ctlCheck k.val block.toNat 0x2D = (s, true))
      ∧ (s.linkFlag k.val = false)) ∧
    (∃ (s : State) (k : Fin 2) (block : BitVec 64), (s.awake = true) ∧ (s.ctlCheck k.val block.toNat 0x2D = (s, true))
      ∧ (s.linkFlag k.val = true)) ∧
    (∃ (s : State) (k : Fin 2) (block : BitVec 64), (s.awake = true) ∧ (s.ctlCheck k.val block.toNat 0x4B = (s, true))
      ∧ (bitsOf block.toNat 55 48 < 4) ∧ ((s.lk k.val).aligned = [])) ∧
    (∃ (s : State) (k : Fin 2), (s.awake = true) ∧ (s.flag (R.CHP_CTRL k.val) F.CHP_CTRL_EN = true) ∧ (s.linkFlag
      k.val = false) ∧ (s.spn.refclk = true) ∧ ((s.lk k.val).training = false)) ∧
    (∃ (s : State) (k : Fin 2), (s.awake = true) ∧ (s.flag (R.CHP_CTRL k.val) F.CHP_CTRL_EN = false)) ∧
    (∃ (s : State) (k : Fin 2), (s.awake = true) ∧ (s.flag (R.CHP_CTRL k.val) F.CHP_CTRL_EN = true) ∧ (s.linkFlag
      k.val = false) ∧ (s.spn.refclk = true)) ∧
    (∃ (s : State) (k : Fin 2) (w : Nat) (t0 : Nat), (s.awake = true) ∧ ((s.lk k.val).training = true) ∧ (s.spn.refclk
      = true) ∧ ((s.lk k.val).trainFrom = some t0) ∧ (s.fld (R.LNE_GRP (2 + k.val)) F.LNE_GRP_RATE = 3 + s.trainGen
      k.val) ∧ (s.trainWidth k.val = some w)) ∧
    (∃ (s : State) (k : Fin 2) (v : Word), (s.awake = true) ∧ (s.flag (R.CHP_CTRL k.val) F.CHP_CTRL_EN = true) ∧
      (v.toNat.testBit F.CHP_CTRL_EN.lo = true) ∧ (v.toNat.testBit 1 = false ∨ s.flag (R.CHP_CTRL k.val)
      F.CHP_CTRL_RETRAIN = true)) ∧
    (∃ (s : State) (k : Fin 2) (v : Word), (s.awake = true) ∧ (v.toNat.testBit F.CHP_CTRL_EN.lo = true) ∧
      (v.toNat.testBit 1 = true) ∧ (s.flag (R.CHP_CTRL k.val) F.CHP_CTRL_RETRAIN = false)) ∧
    (∃ (s : State) (k : Fin 2) (v : Word), (s.awake = true) ∧ (s.flag (R.CHP_CTRL k.val) F.CHP_CTRL_EN = true) ∧
      (v.toNat.testBit F.CHP_CTRL_EN.lo = false)) ∧
    (∃ (s : State) (k : Fin 2), (s.awake = true) ∧ (s.linkTx k.val = false)) ∧
    (∃ (s : State) (k : Fin 2), (s.awake = true) ∧ (s.linkTx k.val = true)) ∧
    (∃ (s : State) (k : Fin 2) (w : Nat) (n : Nat), (s.awake = true) ∧ (w = s.linkW k.val) ∧ (n = (s.lk
      k.val).txBlocks) ∧ (n % (16384 * w) ≠ 0)) ∧
    (∃ (s : State) (k : Fin 2) (w : _) (n : _), (s.awake = true) ∧ (w = s.linkW k.val) ∧ (n = (s.lk k.val).txBlocks) ∧
      (n % (16384 * w) = 0)) ∧
    (∃ (s : State) (k : Fin 2) (block : BitVec 64), (s.awake = true) ∧ (s.ctlCheck k.val block.toNat 0x55 = (s, true))
      ∧ (s.linkUp k.val = true) ∧ (block.toNat.testBit 47 = false) ∧ ((s.lk k.val).waiting = [])) ∧
    (∃ (s : State) (k : Fin 2) (block : BitVec 64) (rb : _) (n : _), (s.awake = true) ∧ (s.ctlCheck k.val block.toNat
      0x55 = (s, true)) ∧ (s.linkUp k.val = true) ∧ (block.toNat.testBit 47 = true) ∧ (rb = afterAck (s.lk
      k.val).replay (bitsOf block.toNat 55 48)) ∧ (n = (if rb.length < (s.lk k.val).replay.length then 0 else (s.lk
      k.val).fails) + 1) ∧ (8 ≤ n)) ∧
    (∃ (s : State) (k : Fin 2) (block : BitVec 64) (rb : _) (n : _), (s.awake = true) ∧ (s.ctlCheck k.val block.toNat
      0x55 = (s, true)) ∧ (s.linkUp k.val = true) ∧ (block.toNat.testBit 47 = true) ∧ (rb = afterAck (s.lk
      k.val).replay (bitsOf block.toNat 55 48)) ∧ (n = (if rb.length < (s.lk k.val).replay.length then 0 else (s.lk
      k.val).fails) + 1) ∧ (n < 8)) ∧
    (∃ (s : State) (p : _), (s.awake = true) ∧ (s.exitPort = some p)) ∧
    (∃ (s : State), (s.awake = true) ∧ (s.exitPort = none)) :=
  ⟨⟨State.reset, (0 : Fin 2), by decide +kernel⟩,
   ⟨(State.reset.setFlag (R.CHP_STAT 1) F.CHP_STAT_UP true), (1 : Fin 2), by decide +kernel⟩,
   ⟨State.reset, (0 : Fin 2), (0 : BitVec 64), by decide +kernel⟩,
   ⟨State.reset, (0 : Fin 2), (BitVec.ofNat 64 (ctlBlock (0x2D * 2 ^ 48)) : BitVec 64), by decide +kernel⟩,
   ⟨(linkSends 1 State.reset), (1 : Fin 2), (BitVec.ofNat 64 (ctlBlock (0x2D * 2 ^ 48)) : BitVec 64),
     by decide +kernel⟩,
   ⟨State.reset, (0 : Fin 2), (BitVec.ofNat 64 (ctlBlock (0x4B * 2 ^ 48)) : BitVec 64), by decide +kernel⟩,
   ⟨State.reset, (0 : Fin 2), by decide +kernel⟩,
   ⟨(State.reset.setFlag (R.CHP_CTRL 0) F.CHP_CTRL_EN false), (0 : Fin 2), by decide +kernel⟩,
   ⟨State.reset, (0 : Fin 2), by decide +kernel⟩,
   ⟨((laneSends 2 ((State.reset.setLk 0
     { LinkState.init with training := true, heardGen := 1, heard := [0], trainFrom := some 3 }).setFld (R.LNE_GRP 2)
     F.LNE_GRP_RATE 4)).setFlag (R.LNE_STAT 2) F.LNE_STAT_CDR_LOCK true |>.setFlag (R.LNE_STAT 2) F.LNE_STAT_LOS
     false), (0 : Fin 2), (0 : Nat), (3 : Nat), by decide +kernel⟩,
   ⟨State.reset, (0 : Fin 2), (BitVec.ofNat 32 (2 ^ F.CHP_CTRL_EN.lo) : Word), by decide +kernel⟩,
   ⟨State.reset, (0 : Fin 2), (BitVec.ofNat 32 (2 ^ F.CHP_CTRL_EN.lo + 2) : Word), by decide +kernel⟩,
   ⟨State.reset, (0 : Fin 2), (0 : Word), by decide +kernel⟩,
   ⟨State.reset, (0 : Fin 2), by decide +kernel⟩,
   ⟨(linkSends 1 State.reset), (1 : Fin 2), by decide +kernel⟩,
   ⟨(State.reset.setLk 1 { LinkState.init with txBlocks := 5 }), (1 : Fin 2), ((State.reset.setLk 1
     { LinkState.init with txBlocks := 5 }).linkW (1 : Fin 2).val), (((State.reset.setLk 1
     { LinkState.init with txBlocks := 5 }).lk (1 : Fin 2).val).txBlocks), by decide +kernel⟩,
   ⟨State.reset, (0 : Fin 2), (State.reset.linkW (0 : Fin 2).val), ((State.reset.lk (0 : Fin 2).val).txBlocks),
     by decide +kernel⟩,
   ⟨(State.reset.setFlag (R.CHP_STAT 1) F.CHP_STAT_UP true), (1 : Fin 2), (BitVec.ofNat 64 (ctlBlock (0x55 * 2 ^ 48))
     : BitVec 64), by decide +kernel⟩,
   ⟨((linkSends 1 State.reset).setLk 1 { LinkState.init with fails := 7 }), (1 : Fin 2), (BitVec.ofNat 64 (ctlBlock
     (0x55 * 2 ^ 48 + 2 ^ 39)) : BitVec 64), (afterAck (((linkSends 1 State.reset).setLk 1
     { LinkState.init with fails := 7 }).lk (1 : Fin 2).val).replay (bitsOf (BitVec.ofNat 64 (ctlBlock (0x55 * 2 ^ 48
     + 2 ^ 39)) : BitVec 64).toNat 55 48)), ((if (afterAck (((linkSends 1 State.reset).setLk 1
     { LinkState.init with fails := 7 }).lk (1 : Fin 2).val).replay (bitsOf (BitVec.ofNat 64 (ctlBlock (0x55 * 2 ^ 48
     + 2 ^ 39)) : BitVec 64).toNat 55 48)).length < (((linkSends 1 State.reset).setLk 1
     { LinkState.init with fails := 7 }).lk (1 : Fin 2).val).replay.length then 0 else (((linkSends 1
     State.reset).setLk 1 { LinkState.init with fails := 7 }).lk (1 : Fin 2).val).fails) + 1), by decide +kernel⟩,
   ⟨(linkSends 1 State.reset), (1 : Fin 2), (BitVec.ofNat 64 (ctlBlock (0x55 * 2 ^ 48 + 2 ^ 39)) : BitVec 64),
     (afterAck ((linkSends 1 State.reset).lk (1 : Fin 2).val).replay (bitsOf (BitVec.ofNat 64 (ctlBlock (0x55 * 2 ^ 48
     + 2 ^ 39)) : BitVec 64).toNat 55 48)), ((if (afterAck ((linkSends 1 State.reset).lk (1 : Fin 2).val).replay
     (bitsOf (BitVec.ofNat 64 (ctlBlock (0x55 * 2 ^ 48 + 2 ^ 39)) : BitVec 64).toNat 55 48)).length < ((linkSends 1
     State.reset).lk (1 : Fin 2).val).replay.length then 0 else ((linkSends 1 State.reset).lk (1 : Fin 2).val).fails)
     + 1), by decide +kernel⟩,
   ⟨(exitHub tkReady 0 Tracker.init), (Option.get ((exitHub tkReady 0 Tracker.init).exitPort) (by decide +kernel)),
     by decide +kernel⟩,
   ⟨State.reset, by decide +kernel⟩⟩

/-- The hypotheses of `Obligations.ArrivalRows` can be met, clause by clause. -/
theorem witness_arrival_rows :
    (∃ (s : State) (p : Fin 2) (f : Frame), (s.awake = true) ∧ (s.rxLive p.val f.head = false)) ∧
    (∃ (s : State), (s.awake = true)) ∧
    (∃ (s : State) (p : Fin 2) (f : Frame), (s.awake = true) ∧ (s.rxLive p.val f.head = true) ∧ (s.frameOk p.val
      f.head f.service = false ∨ s.dgramOk p.val f = false)) ∧
    (∃ (s : State), (s.awake = true)) ∧
    (∃ (s : State), (s.awake = true)) ∧
    (∃ (s : State), (s.awake = true)) ∧
    (∃ (s : State) (p : Fin 2) (f : Frame) (addr : BitVec 128) (sport : Fin 65536) (payload : List Byte), (s.awake =
      true) ∧ (s.rxLive p.val f.head = true) ∧ (f.service = .command addr sport payload) ∧ (s.frameOk p.val f.head
      f.service = true) ∧ (s.dgramOk p.val f = true)) ∧
    (∃ (s : State) (p : Fin 2) (f : Frame), (s.awake = true) ∧ (s.rxLive p.val f.head = true) ∧ (s.frameOk p.val
      f.head f.service = true) ∧ (∀ addr sport payload, f.service ≠ .command addr sport payload)) ∧
    (∃ (s : State) (k : Fin 2) (header : BitVec 64) (payload : List Byte) (vc : _) (b : _) (t : _) (u : State),
      (s.awake = true) ∧ (s.cellCheck k.val header.toNat payload = (t, some (vc, b))) ∧ (u = t.deliverCell k vc b)) ∧
    (∃ (s : State) (k : Fin 2) (header : BitVec 64) (payload : List Byte) (t : _), (s.awake = true) ∧ (s.cellCheck
      k.val header.toNat payload = (t, none))) ∧
    (∃ (s : State) (k : Nat) (hdr : Nat) (bs : List Byte) (t : _) (vc : _) (b : _), (s.cellCheck k hdr bs = (t, some
      (vc, b)))) ∧
    (∃ (s : State) (k : Nat) (hdr : Nat) (bs : List Byte) (vc : Nat), (s.linkUp k = true) ∧ (s.deskewed k = true) ∧
      (bitsOf hdr 63 56 = 0xC3) ∧ (vc = bitsOf hdr 55 53) ∧ (vc < 6) ∧ (bitsOf hdr 52 47 ≤ 32) ∧ (bs.length = 8 *
      bitsOf hdr 52 47) ∧ (bitsOf hdr 31 0 = crc32c (bytesAt (beBytes 8 hdr) 0 4 ++ bs)) ∧ (bitsOf hdr 46 39 = (s.lk
      k).rxSeq)) ∧
    (∃ (s : State) (k : Nat) (hdr : Nat) (bs : List Byte) (t : _), (s.cellCheck k hdr bs = (t, none))) ∧
    (∃ (s : State) (k : Nat), (s.linkUp k = false)) :=
  ⟨⟨(activePort 1 State.reset), (1 : Fin 2), (⟨⟨7, none, 64, false, false, 319, true⟩, 5, 0, .unsupported⟩ : Frame),
     by decide +kernel⟩,
   ⟨State.reset, by decide +kernel⟩,
   ⟨(activePort 1 State.reset), (1 : Fin 2), (⟨⟨7, none, 64, false, false, 319, false⟩, 5, 0, .unsupported⟩ : Frame),
     by decide +kernel⟩,
   ⟨State.reset, by decide +kernel⟩,
   ⟨(State.reset), by decide +kernel⟩,
   ⟨State.reset, by decide +kernel⟩,
   ⟨(((activePort 1 State.reset).setReg (R.NET_IP4 1) 5).setFld R.NET_GCFG F.NET_GCFG_CMDPORT 5), (1 : Fin 2), (⟨⟨7,
     none, 64, false, false, 5, false⟩, 5, 0, .command 0 0 []⟩ : Frame), (0 : BitVec 128), (0 : Fin 65536), ([] : List
     Byte), by decide +kernel⟩,
   ⟨(activePort 1 State.reset), (1 : Fin 2), (⟨⟨7, none, 64, false, false, 319, false⟩, 5, 0, .arp⟩ : Frame),
     ⟨by decide +kernel, by decide +kernel, by decide +kernel, fun _ _ _ h => by cases h⟩⟩,
   ⟨(State.reset.setFlag (R.CHP_STAT 0) F.CHP_STAT_UP true), (0 : Fin 2), (BitVec.ofNat 64 cellHeader : BitVec 64),
     (List.replicate 8 7 : List Byte), ((Option.get (((State.reset.setFlag (R.CHP_STAT 0) F.CHP_STAT_UP
     true).cellCheck (0 : Fin 2).val (BitVec.ofNat 64 cellHeader : BitVec 64).toNat (List.replicate 8 7 : List
     Byte)).2) (by decide +kernel)).1), ((Option.get (((State.reset.setFlag (R.CHP_STAT 0) F.CHP_STAT_UP
     true).cellCheck (0 : Fin 2).val (BitVec.ofNat 64 cellHeader : BitVec 64).toNat (List.replicate 8 7 : List
     Byte)).2) (by decide +kernel)).2), (((State.reset.setFlag (R.CHP_STAT 0) F.CHP_STAT_UP true).cellCheck (0 : Fin
     2).val (BitVec.ofNat 64 cellHeader : BitVec 64).toNat (List.replicate 8 7 : List Byte)).1),
     ((((State.reset.setFlag (R.CHP_STAT 0) F.CHP_STAT_UP true).cellCheck (0 : Fin 2).val (BitVec.ofNat 64 cellHeader
     : BitVec 64).toNat (List.replicate 8 7 : List Byte)).1).deliverCell (0 : Fin 2) ((Option.get
     (((State.reset.setFlag (R.CHP_STAT 0) F.CHP_STAT_UP true).cellCheck (0 : Fin 2).val (BitVec.ofNat 64 cellHeader :
     BitVec 64).toNat (List.replicate 8 7 : List Byte)).2) (by decide +kernel)).1) ((Option.get (((State.reset.setFlag
     (R.CHP_STAT 0) F.CHP_STAT_UP true).cellCheck (0 : Fin 2).val (BitVec.ofNat 64 cellHeader : BitVec 64).toNat
     (List.replicate 8 7 : List Byte)).2) (by decide +kernel)).2)), by decide +kernel⟩,
   ⟨State.reset, (0 : Fin 2), (0 : BitVec 64), ([] : List Byte), ((State.reset.cellCheck (0 : Fin 2).val (0 : BitVec
     64).toNat ([] : List Byte)).1), by decide +kernel⟩,
   ⟨(State.reset.setFlag (R.CHP_STAT 0) F.CHP_STAT_UP true), (0 : Nat), (cellHeader : Nat), (List.replicate 8 7 : List
     Byte), (((State.reset.setFlag (R.CHP_STAT 0) F.CHP_STAT_UP true).cellCheck (0 : Nat) (cellHeader : Nat)
     (List.replicate 8 7 : List Byte)).1), ((Option.get (((State.reset.setFlag (R.CHP_STAT 0) F.CHP_STAT_UP
     true).cellCheck (0 : Nat) (cellHeader : Nat) (List.replicate 8 7 : List Byte)).2) (by decide +kernel)).1),
     ((Option.get (((State.reset.setFlag (R.CHP_STAT 0) F.CHP_STAT_UP true).cellCheck (0 : Nat) (cellHeader : Nat)
     (List.replicate 8 7 : List Byte)).2) (by decide +kernel)).2), by decide +kernel⟩,
   ⟨(State.reset.setFlag (R.CHP_STAT 0) F.CHP_STAT_UP true), (0 : Nat), (cellHeader : Nat), (List.replicate 8 7 : List
     Byte), (3 : Nat), by decide +kernel⟩,
   ⟨State.reset, (0 : Nat), (0 : Nat), ([] : List Byte), ((State.reset.cellCheck (0 : Nat) (0 : Nat) ([] : List
     Byte)).1), by decide +kernel⟩,
   ⟨State.reset, (0 : Nat), by decide +kernel⟩⟩

/-- The hypotheses of `Obligations.CommandAcceptance` can be met, clause by clause. -/
theorem witness_command_acceptance :
    (∃ (s : State) (r : CmdReq) (c : _), (s.awake = true) ∧ (s.hsReady = true) ∧ (r.more = false) ∧ (r.crcErr = 0) ∧
      (r.target.val = s.hubId) ∧ (s.hubId ≠ 0xFFFF) ∧ (s.idConflict = false) ∧ (r.params.length < 65536) ∧ (s.partOf
      (r.srcid.toNat, r.tag.val) = none) ∧ (s.hs.flight.length < 64) ∧ (s.hs.flight.contains (r.srcid.toNat,
      r.tag.val) = false) ∧ (s.duplicate r.srcid.toNat r.sseq.toNat = false) ∧ (c ∈ [(Instr.ident r, 0x01), (.read r,
      0x02), (.write r, 0x03), (.writeMask r, 0x04), (.readList r, 0x05), (.writeList r, 0x06), (.readWord r, 0x08),
      (.snapshot r, 0x10), (.capture r, 0x11), (.ringInfo r, 0x18), (.setHubid r, 0x19), (.powerLevel r, 0x20),
      (.powerMode r, 0x20), (.reset r, 0x21), (.safeParam r, 0x30), (.safeTlg r, 0x31)]) ∧ (r.entry = .spi) ∧
      (s.hs.spiq.length < 8)) ∧
    (∃ (s : State) (r : CmdReq) (c : _) (p : _) (addr : _) (sport : _), (s.awake = true) ∧ (s.hsReady = true) ∧
      (r.more = false) ∧ (r.crcErr = 0) ∧ (r.target.val = s.hubId) ∧ (s.hubId ≠ 0xFFFF) ∧ (s.idConflict = false) ∧
      (r.params.length < 65536) ∧ (s.partOf (r.srcid.toNat, r.tag.val) = none) ∧ (s.hs.flight.length < 64) ∧
      (s.hs.flight.contains (r.srcid.toNat, r.tag.val) = false) ∧ (s.duplicate r.srcid.toNat r.sseq.toNat = false) ∧
      (c ∈ [(Instr.ident r, 0x01), (.read r, 0x02), (.write r, 0x03), (.writeMask r, 0x04), (.readList r, 0x05),
      (.writeList r, 0x06), (.readWord r, 0x08), (.snapshot r, 0x10), (.capture r, 0x11), (.ringInfo r, 0x18),
      (.setHubid r, 0x19), (.powerLevel r, 0x20), (.powerMode r, 0x20), (.reset r, 0x21), (.safeParam r, 0x30),
      (.safeTlg r, 0x31)]) ∧ (r.entry = .net p addr sport) ∧ (s.isActive p.val = true) ∧ (s.tmode p.val = 0)) ∧
    (∃ (s : State) (id : Nat), (s.source id = none)) ∧
    (∃ (s : State) (id : Nat) (n : Nat) (x : _), (s.source id = some x) ∧ (signed 32 (n + 2 ^ 32 - x.high) ≤ -64)) ∧
    (∃ (s : State) (id : Nat) (n : Nat) (x : _), (s.source id = some x) ∧ (0 < signed 32 (n + 2 ^ 32 - x.high))) ∧
    (∃ (s : State) (id : Nat) (n : Nat) (x : _), (s.source id = some x) ∧ (-64 < signed 32 (n + 2 ^ 32 - x.high)) ∧
      (signed 32 (n + 2 ^ 32 - x.high) ≤ 0)) ∧
    (∃ (s : State) (id : Nat) (n : Nat), (n < 2 ^ 32) ∧ (s.duplicate id n = false) ∧ (∀ x, s.source id = some x →
      x.high < 2 ^ 32)) :=
  ⟨⟨(readyHub), (cmdReq false [] : CmdReq), ((Instr.ident (cmdReq false []), 0x01)),
     by and_intros <;> first | exact .head _ | with_reducible rfl | decide +kernel | rfl⟩,
   ⟨(readyHub.setX 1 xActive), ({ cmdReq false [] with entry := .net 1 0 4 } : CmdReq), ((Instr.ident
     { cmdReq false [] with entry := .net 1 0 4 }, 0x01)), (1), (0), (4),
     by and_intros <;> first | exact .head _ | with_reducible rfl | decide +kernel | rfl⟩,
   ⟨State.reset, (0 : Nat), by decide +kernel⟩,
   ⟨({ State.reset with hs.sources := [⟨7, 100, [100, 99]⟩] }), (7 : Nat), (36 : Nat), (Option.get
     (({ State.reset with hs.sources := [⟨7, 100, [100, 99]⟩] }).source (7 : Nat)) (by decide +kernel)),
     by decide +kernel⟩,
   ⟨({ State.reset with hs.sources := [⟨7, 100, [100, 99]⟩] }), (7 : Nat), (101 : Nat), (Option.get
     (({ State.reset with hs.sources := [⟨7, 100, [100, 99]⟩] }).source (7 : Nat)) (by decide +kernel)),
     by decide +kernel⟩,
   ⟨({ State.reset with hs.sources := [⟨7, 100, [100, 99]⟩] }), (7 : Nat), (99 : Nat), (Option.get
     (({ State.reset with hs.sources := [⟨7, 100, [100, 99]⟩] }).source (7 : Nat)) (by decide +kernel)),
     by decide +kernel⟩,
   ⟨State.reset, (0 : Nat), (0 : Nat), by decide +kernel⟩⟩

/-- The hypotheses of `Obligations.DatagramsDiscarded` can be met, clause by clause. -/
theorem witness_datagrams_discarded :
    (∃ (s : State) (b : List Byte), (s.hsReady = true) ∧ (dgramGood b = false)) ∧
    (∃ (s : State) (b : List Byte), (s.hsReady = true) ∧ (dgramGood b = true) ∧ (128 ≤ natAt b 1 1)) ∧
    (∃ (r : CmdReq) (op : Nat), (op < 256) ∧ (r.params.length < 65536)) :=
  ⟨⟨(readyHub), ([] : List Byte), by decide +kernel⟩,
   ⟨(readyHub), (highOpcode : List Byte), by decide +kernel⟩,
   ⟨(cmdReq true [1, 2] : CmdReq), (0 : Nat), by decide +kernel⟩⟩

/-- The hypotheses of `Obligations.CommandOpcodes` can be met, clause by clause. -/
theorem witness_command_opcodes :
    (∃ (ver : _), (ver ≠ 2)) ∧
    (∃ (q : ReqCtx), (q.op ∉ allOps)) ∧
    (∃ (q : ReqCtx) (p : List Byte), (q.op ∈ allOps) ∧ (paramsOk q.op p = false)) ∧
    (∃ (s : State) (q : ReqCtx) (p : List Byte), (q.op = 0x21) ∧ (paramsOk q.op p = true) ∧ (s.pathBlocked q = true)) ∧
    (∃ (q : ReqCtx) (p : List Byte), (q.op = 0x01) ∧ (p = [])) ∧
    (∃ (q : ReqCtx) (p : List Byte), (q.op = 0x18) ∧ (p = [])) ∧
    (∃ (q : ReqCtx) (p : List Byte) (l : List Nat), ((q.op = 0x02 ∧ l = strided (natAt p 0 4) (natAt p 4 2) (natAt p 6
      2)) ∨ (q.op = 0x05 ∧ l = (List.range (natAt p 0 2)).map (fun j => natAt p (4 + 4 * j) 4))) ∧ (paramsOk q.op p =
      true) ∧ (l.all addrOk = false)) ∧
    (∃ (s : State) (q : ReqCtx) (p : List Byte) (l : List Nat) (t : State) (ws : List Nat) (stale : Bool), ((q.op =
      0x02 ∧ l = strided (natAt p 0 4) (natAt p 4 2) (natAt p 6 2)) ∨ (q.op = 0x05 ∧ l = (List.range (natAt p 0
      2)).map (fun j => natAt p (4 + 4 * j) 4))) ∧ (paramsOk q.op p = true) ∧ (l.all addrOk = true) ∧ (s.readAll l =
      (t, ws, stale))) ∧
    (∃ (q : ReqCtx) (p : List Byte) (a : Nat) (m : Word) (v : Word), (q.op = 0x04) ∧ (paramsOk q.op p = true) ∧ (a =
      natAt p 0 4) ∧ (m = wordAt p 4) ∧ (v = wordAt p 8) ∧ (addrOk a = false)) ∧
    (∃ (s : State) (q : ReqCtx) (via : Via) (p : List Byte) (a : Nat) (m : Word) (v : Word) (t : State) (old : Nat)
      (stale : Bool) (w : Word), (q.op = 0x04) ∧ (paramsOk q.op p = true) ∧ (a = natAt p 0 4) ∧ (m = wordAt p 4) ∧ (v
      = wordAt p 8) ∧ (addrOk a = true) ∧ (s.readWord a = (t, old, stale)) ∧ (w = (BitVec.ofNat 32 old &&&    m) |||
      (v &&& m)) ∧ ((s.checkWrites via [(a, w)]).1 = 0) ∧ (s.pathBlocked q = false)) ∧
    (∃ (s : State) (q : ReqCtx) (via : Via) (p : List Byte) (a : Nat) (m : Word) (v : Word) (t : State) (old : Nat)
      (stale : Bool) (w : Word), (q.op = 0x04) ∧ (paramsOk q.op p = true) ∧ (a = natAt p 0 4) ∧ (m = wordAt p 4) ∧ (v
      = wordAt p 8) ∧ (addrOk a = true) ∧ (s.readWord a = (t, old, stale)) ∧ (w = (BitVec.ofNat 32 old &&&    m) |||
      (v &&& m)) ∧ ((s.checkWrites via [(a, w)]).1 = 0) ∧ (s.pathBlocked q = true)) ∧
    (∃ (s : State) (q : ReqCtx) (via : Via) (p : List Byte) (a : Nat) (m : Word) (v : Word) (t : State) (old : Nat)
      (stale : Bool) (w : Word), (q.op = 0x04) ∧ (paramsOk q.op p = true) ∧ (a = natAt p 0 4) ∧ (m = wordAt p 4) ∧ (v
      = wordAt p 8) ∧ (addrOk a = true) ∧ (s.readWord a = (t, old, stale)) ∧ (w = (BitVec.ofNat 32 old &&&    m) |||
      (v &&& m)) ∧ ((s.checkWrites via [(a, w)]).1 ≠ 0) ∧ (s.pathBlocked q = false)) ∧
    (∃ (q : ReqCtx) (p : List Byte), (q.op = 0x08) ∧ (paramsOk q.op p = true)) ∧
    (∃ (s : State) (n : Nat) (t : State) (w0 : Nat) (w1 : Nat) (w2 : Nat) (w3 : Nat) (w4 : Nat) (stale : Bool),
      (s.readAll [R.CH_OUT_W n, R.CH_OUT_Q n, R.CH_OUT_T n, R.CH_OUT_T_HI n, R.CH_OUT_S n] = (t, [w0, w1, w2, w3, w4],
      stale))) ∧
    (∃ (s : State) (q : ReqCtx) (p : List Byte) (asked : Nat) (late : Bool) (time : Nat) (uni : Bool) (fwd : Bool)
      (at0 : Nat) (t : State), (q.op = 0x10) ∧ (paramsOk q.op p = true) ∧ (s.pathBlocked q = false) ∧ (uni = decide
      (q.target ≠ 0xFFFF)) ∧ (fwd = (uni && s.flag R.SNAP_CTRL F.SNAP_CTRL_FWD)) ∧ (((natAt p 0 1).testBit 0 = false ∧
      late = false ∧ time = s.lt + 2000 * nsU) ∨ ((natAt p 0 1).testBit 0 = true ∧ ltAt p 4 = some asked ∧ late =
      decide (asked < s.lt + 2000 * nsU) ∧ time = max asked (s.lt + 2000 * nsU))) ∧ (at0 = (if fwd then max time (s.lt
      + 50000 * nsU) else time)) ∧ (s.snapRequest at0 4 late = (t, true))) ∧
    (∃ (s : State) (q : ReqCtx) (p : List Byte) (asked : Nat) (late : Bool) (time : Nat) (uni : Bool) (fwd : Bool)
      (at0 : Nat) (t : State), (q.op = 0x10) ∧ (paramsOk q.op p = true) ∧ (s.pathBlocked q = false) ∧ (uni = decide
      (q.target ≠ 0xFFFF)) ∧ (fwd = (uni && s.flag R.SNAP_CTRL F.SNAP_CTRL_FWD)) ∧ (((natAt p 0 1).testBit 0 = false ∧
      late = false ∧ time = s.lt + 2000 * nsU) ∨ ((natAt p 0 1).testBit 0 = true ∧ ltAt p 4 = some asked ∧ late =
      decide (asked < s.lt + 2000 * nsU) ∧ time = max asked (s.lt + 2000 * nsU))) ∧ (at0 = (if fwd then max time (s.lt
      + 50000 * nsU) else time)) ∧ (s.snapRequest at0 4 late = (t, false))) ∧
    (∃ (s : State) (q : ReqCtx) (p : List Byte), (q.op = 0x03 ∨ q.op = 0x06) ∧ (paramsOk q.op p = true) ∧
      (s.pathBlocked q = false)) ∧
    (∃ (s : State) (q : ReqCtx) (p : List Byte), (q.op = 0x11) ∧ (paramsOk q.op p = true) ∧ (s.pathBlocked q = false)) ∧
    (∃ (s : State) (q : ReqCtx) (p : List Byte), (q.op = 0x19) ∧ (paramsOk q.op p = true) ∧ (s.hubidFor p = false)) ∧
    (∃ (s : State) (q : ReqCtx) (p : List Byte) (v : Word), (q.op = 0x19) ∧ (paramsOk q.op p = true) ∧ (s.hubidFor p =
      true) ∧ (s.pathBlocked q = false) ∧ (v = BitVec.ofNat 32 (natAt p 8 2 / 16 * 16 + s.fld R.CMD_HUBID
      F.CMD_HUBID_HID)) ∧ (natAt p 8 2 / 16 = 0xFFF ∧ s.fld R.CMD_HUBID F.CMD_HUBID_HID = 0xF)) ∧
    (∃ (s : State) (q : ReqCtx) (p : List Byte) (v : Word), (q.op = 0x19) ∧ (paramsOk q.op p = true) ∧ (s.hubidFor p =
      true) ∧ (s.pathBlocked q = false) ∧ (v = BitVec.ofNat 32 (natAt p 8 2 / 16 * 16 + s.fld R.CMD_HUBID
      F.CMD_HUBID_HID)) ∧ (¬ (natAt p 8 2 / 16 = 0xFFF ∧ s.fld R.CMD_HUBID F.CMD_HUBID_HID = 0xF))) ∧
    (∃ (s : State) (q : ReqCtx) (p : List Byte), (q.op = 0x20) ∧ (paramsOk q.op p = true) ∧ (s.pathBlocked q = false)
      ∧ (natAt p 0 1 = 1) ∧ (natAt p 1 1 ≤ 3) ∧ (s.overLevel (natAt p 1 1) = false)) ∧
    (∃ (s : State) (q : ReqCtx) (p : List Byte), (q.op = 0x20) ∧ (paramsOk q.op p = true) ∧ (s.pathBlocked q = false)
      ∧ (natAt p 0 1 = 1) ∧ (s.overLevel (natAt p 1 1) = true ∨ 3 < natAt p 1 1)) ∧
    (∃ (s : State) (q : ReqCtx) (p : List Byte), (q.op = 0x20) ∧ (paramsOk q.op p = true) ∧ (s.pathBlocked q = false)
      ∧ (natAt p 0 1 = 2) ∧ (natAt p 1 1 ≤ 2)) ∧
    (∃ (s : State) (q : ReqCtx) (p : List Byte), (q.op = 0x20) ∧ (paramsOk q.op p = true) ∧ (s.pathBlocked q = false)
      ∧ (natAt p 0 1 ≠ 1) ∧ (natAt p 0 1 ≠ 2 ∨ 2 < natAt p 1 1)) ∧
    (∃ (s : State) (q : ReqCtx) (p : List Byte), (q.op = 0x21) ∧ (paramsOk q.op p = true) ∧ (s.pathBlocked q = false)
      ∧ (natAt p 0 2 = 0xB384) ∧ (natAt p 2 1 = 1) ∧ (s.pwr.cmdReset = none)) ∧
    (∃ (q : ReqCtx) (p : List Byte), (q.op = 0x31) ∧ (paramsOk q.op p = true)) ∧
    (∃ (s : State) (q : ReqCtx) (p : List Byte) (r : Nat), (q.op = 0x30) ∧ (s.pathBlocked q = false) ∧ (r = (s.toChanB
      1 p).setResult p)) ∧
    (∃ (s : State) (q : ReqCtx) (p : List Byte), (q.op = 0x21) ∧ (paramsOk q.op p = true) ∧ (s.pathBlocked q = false)
      ∧ (natAt p 0 2 ≠ 0xB384 ∨ natAt p 2 1 ≠ 1)) :=
  ⟨⟨(0), by decide +kernel⟩,
   ⟨(ctxOf 0x7F : ReqCtx), by decide +kernel⟩,
   ⟨(ctxOf 1 : ReqCtx), ([1] : List Byte), by decide +kernel⟩,
   ⟨(State.reset.setFlag R.CMD_CFG F.CMD_CFG_NETWR false), ({ ctxOf 0x21 with path := 0 } : ReqCtx), ([0,0,0,0] : List
     Byte), by decide +kernel⟩,
   ⟨(ctxOf 0x1 : ReqCtx), ([] : List Byte), by decide +kernel⟩,
   ⟨(ctxOf 0x18 : ReqCtx), ([] : List Byte), by decide +kernel⟩,
   ⟨(ctxOf 0x02 : ReqCtx), ([0,0,0,1,0,1,0,0] : List Byte), ([1] : List Nat), ⟨.inl ⟨by decide +kernel,
     by decide +kernel⟩, by decide +kernel, by decide +kernel⟩⟩,
   ⟨(State.reset), (ctxOf 0x05 : ReqCtx), ([0,1,0,0,0,0,0,0] : List Byte), ([0] : List Nat), ((State.reset.readAll
     [0]).1 : State), ((State.reset.readAll [0]).2.1 : List Nat), ((State.reset.readAll [0]).2.2 : Bool), ⟨.inr
     ⟨by decide +kernel, by decide +kernel⟩, by decide +kernel, by decide +kernel, rfl⟩⟩,
   ⟨(ctxOf 0x04 : ReqCtx), ([0,0,0,1,0,0,0,0,0,0,0,0] : List Byte), (natAt ([0,0,0,1,0,0,0,0,0,0,0,0] : List Byte) 0
     4), (wordAt ([0,0,0,1,0,0,0,0,0,0,0,0] : List Byte) 4), (wordAt ([0,0,0,1,0,0,0,0,0,0,0,0] : List Byte) 8),
     by decide +kernel⟩,
   ⟨(State.reset), (ctxOf 0x04 : ReqCtx), (.spi : Via), (beBytes 4 R.FLT_CTRL ++ [0xFF,0xFF,0xFF,0xFF,0,0,0,0] : List
     Byte), (R.FLT_CTRL : Nat), (wordAt (beBytes 4 R.FLT_CTRL ++ [0xFF,0xFF,0xFF,0xFF,0,0,0,0]) 4 : Word), (wordAt
     (beBytes 4 R.FLT_CTRL ++ [0xFF,0xFF,0xFF,0xFF,0,0,0,0]) 8 : Word), (((State.reset).readWord (R.FLT_CTRL)).1 :
     State), (((State.reset).readWord (R.FLT_CTRL)).2.1 : Nat), (((State.reset).readWord (R.FLT_CTRL)).2.2 : Bool),
     ((BitVec.ofNat 32 ((State.reset).readWord (R.FLT_CTRL)).2.1 &&&    wordAt (beBytes 4 R.FLT_CTRL ++
     [0xFF,0xFF,0xFF,0xFF,0,0,0,0]) 4) ||| (wordAt (beBytes 4 R.FLT_CTRL ++ [0xFF,0xFF,0xFF,0xFF,0,0,0,0]) 8 &&&
     wordAt (beBytes 4 R.FLT_CTRL ++ [0xFF,0xFF,0xFF,0xFF,0,0,0,0]) 4) : Word),
     by and_intros <;> first | with_reducible rfl | decide +kernel | rfl⟩,
   ⟨(State.reset.setFlag R.CMD_CFG F.CMD_CFG_NETWR false), ({ ctxOf 0x04 with path := 0 } : ReqCtx), (.spi : Via),
     (beBytes 4 R.FLT_CTRL ++ [0xFF,0xFF,0xFF,0xFF,0,0,0,0] : List Byte), (R.FLT_CTRL : Nat), (wordAt (beBytes 4
     R.FLT_CTRL ++ [0xFF,0xFF,0xFF,0xFF,0,0,0,0]) 4 : Word), (wordAt (beBytes 4 R.FLT_CTRL ++
     [0xFF,0xFF,0xFF,0xFF,0,0,0,0]) 8 : Word), (((State.reset.setFlag R.CMD_CFG F.CMD_CFG_NETWR false).readWord
     (R.FLT_CTRL)).1 : State), (((State.reset.setFlag R.CMD_CFG F.CMD_CFG_NETWR false).readWord (R.FLT_CTRL)).2.1 :
     Nat), (((State.reset.setFlag R.CMD_CFG F.CMD_CFG_NETWR false).readWord (R.FLT_CTRL)).2.2 : Bool), ((BitVec.ofNat
     32 ((State.reset.setFlag R.CMD_CFG F.CMD_CFG_NETWR false).readWord (R.FLT_CTRL)).2.1 &&&    wordAt (beBytes 4
     R.FLT_CTRL ++ [0xFF,0xFF,0xFF,0xFF,0,0,0,0]) 4) ||| (wordAt (beBytes 4 R.FLT_CTRL ++
     [0xFF,0xFF,0xFF,0xFF,0,0,0,0]) 8 &&& wordAt (beBytes 4 R.FLT_CTRL ++ [0xFF,0xFF,0xFF,0xFF,0,0,0,0]) 4) : Word),
     by and_intros <;> first | with_reducible rfl | decide +kernel | rfl⟩,
   ⟨(State.reset.setFld R.CMD_HUBID F.CMD_HUBID_HID 15), (ctxOf 0x04 : ReqCtx), (.spi : Via), (beBytes 4 R.CMD_HUBID
     ++ [0xFF,0xFF,0xFF,0xFF,0,0,0xFF,0xFF] : List Byte), (R.CMD_HUBID : Nat), (wordAt (beBytes 4 R.CMD_HUBID ++
     [0xFF,0xFF,0xFF,0xFF,0,0,0xFF,0xFF]) 4 : Word), (wordAt (beBytes 4 R.CMD_HUBID ++
     [0xFF,0xFF,0xFF,0xFF,0,0,0xFF,0xFF]) 8 : Word), (((State.reset.setFld R.CMD_HUBID F.CMD_HUBID_HID 15).readWord
     (R.CMD_HUBID)).1 : State), (((State.reset.setFld R.CMD_HUBID F.CMD_HUBID_HID 15).readWord (R.CMD_HUBID)).2.1 :
     Nat), (((State.reset.setFld R.CMD_HUBID F.CMD_HUBID_HID 15).readWord (R.CMD_HUBID)).2.2 : Bool), ((BitVec.ofNat
     32 ((State.reset.setFld R.CMD_HUBID F.CMD_HUBID_HID 15).readWord (R.CMD_HUBID)).2.1 &&&    wordAt (beBytes 4
     R.CMD_HUBID ++ [0xFF,0xFF,0xFF,0xFF,0,0,0xFF,0xFF]) 4) ||| (wordAt (beBytes 4 R.CMD_HUBID ++
     [0xFF,0xFF,0xFF,0xFF,0,0,0xFF,0xFF]) 8 &&& wordAt (beBytes 4 R.CMD_HUBID ++ [0xFF,0xFF,0xFF,0xFF,0,0,0xFF,0xFF])
     4) : Word), by and_intros <;> first | with_reducible rfl | decide +kernel | rfl⟩,
   ⟨(ctxOf 0x08 : ReqCtx), ([0,1,0,0,0,7,0,0] : List Byte), by decide +kernel⟩,
   ⟨(State.reset), (383 : Nat), ((State.reset.readAll [R.CH_OUT_W 383, R.CH_OUT_Q 383, R.CH_OUT_T 383, R.CH_OUT_T_HI
     383, R.CH_OUT_S 383]).1 : State), ((State.reset.readAll [R.CH_OUT_W 383, R.CH_OUT_Q 383, R.CH_OUT_T 383,
     R.CH_OUT_T_HI 383, R.CH_OUT_S 383]).2.1[0]! : Nat), ((State.reset.readAll [R.CH_OUT_W 383, R.CH_OUT_Q 383,
     R.CH_OUT_T 383, R.CH_OUT_T_HI 383, R.CH_OUT_S 383]).2.1[1]! : Nat), ((State.reset.readAll [R.CH_OUT_W 383,
     R.CH_OUT_Q 383, R.CH_OUT_T 383, R.CH_OUT_T_HI 383, R.CH_OUT_S 383]).2.1[2]! : Nat), ((State.reset.readAll
     [R.CH_OUT_W 383, R.CH_OUT_Q 383, R.CH_OUT_T 383, R.CH_OUT_T_HI 383, R.CH_OUT_S 383]).2.1[3]! : Nat),
     ((State.reset.readAll [R.CH_OUT_W 383, R.CH_OUT_Q 383, R.CH_OUT_T 383, R.CH_OUT_T_HI 383, R.CH_OUT_S
     383]).2.1[4]! : Nat), ((State.reset.readAll [R.CH_OUT_W 383, R.CH_OUT_Q 383, R.CH_OUT_T 383, R.CH_OUT_T_HI 383,
     R.CH_OUT_S 383]).2.2 : Bool), by rfl⟩,
   ⟨(State.reset.setFlag R.SNAP_CTRL F.SNAP_CTRL_FWD true), (ctxOf 0x10 : ReqCtx), (List.replicate 20 0 : List Byte),
     (0 : Nat), (false : Bool), (2000 * nsU : Nat), (true : Bool), (true : Bool), (50000 * nsU : Nat),
     (((State.reset.setFlag R.SNAP_CTRL F.SNAP_CTRL_FWD true).snapRequest (50000 * nsU) 4 false).1 : State),
     ⟨by decide +kernel, by decide +kernel, by decide +kernel, by decide +kernel, by decide +kernel, .inl
     ⟨by decide +kernel, rfl, by decide +kernel⟩, by decide +kernel, by decide +kernel⟩⟩,
   ⟨({ State.reset with snap.sched := [⟨2000 * nsU + nsU, 1, false⟩] }), (ctxOf 0x10 : ReqCtx), (List.replicate 20 0 :
     List Byte), (0 : Nat), (false : Bool), (2000 * nsU : Nat), (true : Bool), (false : Bool), (2000 * nsU : Nat),
     ((({ State.reset with snap.sched := [⟨2000 * nsU + nsU, 1, false⟩] }).snapRequest (2000 * nsU) 4 false).1 :
     State), ⟨by decide +kernel, by decide +kernel, by decide +kernel, by decide +kernel, by decide +kernel, .inl
     ⟨by decide +kernel, rfl, by decide +kernel⟩, by decide +kernel, by decide +kernel⟩⟩,
   ⟨State.reset, (ctxOf 0x3 : ReqCtx), ([0,0,0,4,0,1,0,0,1,2,3,4] : List Byte), by decide +kernel⟩,
   ⟨State.reset, (ctxOf 0x11 : ReqCtx), ([0x80,1,0,0] : List Byte), by decide +kernel⟩,
   ⟨State.reset, (ctxOf 0x19 : ReqCtx), ([2,0,0,0,0,0,0,0,0,0,0,0] : List Byte), by decide +kernel⟩,
   ⟨(State.reset.setFld R.CMD_HUBID F.CMD_HUBID_HID 15), (ctxOf 0x19 : ReqCtx), ([0, 0, 0, 0, 0, 0, 0, 0, 0xFF, 0xF0,
     0, 0] : List Byte), (BitVec.ofNat 32 (natAt ([0, 0, 0, 0, 0, 0, 0, 0, 0xFF, 0xF0, 0, 0] : List Byte) 8 2 / 16 *
     16 + (State.reset.setFld R.CMD_HUBID F.CMD_HUBID_HID 15).fld R.CMD_HUBID F.CMD_HUBID_HID)), by decide +kernel⟩,
   ⟨(State.reset.setFld R.CMD_HUBID F.CMD_HUBID_HID 14), (ctxOf 0x19 : ReqCtx), ([0, 0, 0, 0, 0, 0, 0, 0, 0xFF, 0xF0,
     0, 0] : List Byte), (BitVec.ofNat 32 (natAt ([0, 0, 0, 0, 0, 0, 0, 0, 0xFF, 0xF0, 0, 0] : List Byte) 8 2 / 16 *
     16 + (State.reset.setFld R.CMD_HUBID F.CMD_HUBID_HID 14).fld R.CMD_HUBID F.CMD_HUBID_HID)), by decide +kernel⟩,
   ⟨(State.reset), (ctxOf 0x20 : ReqCtx), ([1, 3, 0, 0] : List Byte), by decide +kernel⟩,
   ⟨(State.reset), (ctxOf 0x20 : ReqCtx), ([1, 4, 0, 0] : List Byte), by decide +kernel⟩,
   ⟨State.reset, (ctxOf 0x20 : ReqCtx), ([2,2,0,0] : List Byte), by decide +kernel⟩,
   ⟨(State.reset), (ctxOf 0x20 : ReqCtx), ([2, 3, 0, 0] : List Byte), by decide +kernel⟩,
   ⟨State.reset, (ctxOf 0x21 : ReqCtx), ([0xB3,0x84,1,0] : List Byte), by decide +kernel⟩,
   ⟨(ctxOf 0x31 : ReqCtx), ([] : List Byte), by decide +kernel⟩,
   ⟨(State.reset), (ctxOf 0x30 : ReqCtx), ([] : List Byte), (((State.reset).toChanB 1 ([] : List Byte)).setResult ([]
     : List Byte)), by decide +kernel⟩,
   ⟨(State.reset), (ctxOf 0x21 : ReqCtx), ([0xB3, 0x84, 2, 0] : List Byte), by decide +kernel⟩⟩

/-- The hypotheses of `Obligations.CommandPartRows` can be met, clause by clause. -/
theorem witness_command_part_rows :
    (∃ (s : State) (op : Fin 128) (r : CmdReq), (s.awake = true) ∧ (s.hsReady = true) ∧ (r.entry = .spi) ∧ (r.crcErr =
      0) ∧ (r.target.val = s.hubId) ∧ (s.hubId ≠ 0xFFFF) ∧ (s.idConflict = false) ∧ (r.params.length < 65536) ∧
      (s.hs.spiq.length < 8) ∧ (s.hs.parts = []) ∧ (s.hs.flight.length < 64) ∧ (s.hs.flight.contains (r.srcid.toNat,
      r.tag.val) = false) ∧ (s.duplicate r.srcid.toNat r.sseq.toNat = false) ∧ (op.val ∈ partOps)) ∧
    (∃ (s : State) (srcid : BitVec 32) (tag : Fin 64) (x : _), (s.awake = true) ∧ (s.partOf (srcid.toNat, tag.val) =
      some x)) ∧
    (∃ (s : State), (s.awake = true) ∧ (s.hs.parts = [])) ∧
    (∃ (s : State) (t : _), (s.awake = true) ∧ (s.pwr.cmdReset = some t)) ∧
    (∃ (s : State) (b : List Byte), (s.awake = true) ∧ (b.length < 28)) ∧
    (∃ (s : State) (b : List Byte), (s.awake = true) ∧ (28 ≤ b.length) ∧ (s.hs.vc2 = []) ∧ ((natAt b 4 1).testBit 7 =
      true) ∧ ((natAt b 4 1).testBit 6 = true)) ∧
    (∃ (s : State) (b : List Byte), (s.awake = true) ∧ (28 ≤ b.length) ∧ (s.hs.vc2 = []) ∧ ((natAt b 4 1).testBit 7 =
      true) ∧ ((natAt b 4 1).testBit 6 = false)) ∧
    (∃ (s : State) (entry : Fin 65536) (xid : Fin 65536) (x : _), (s.awake = true) ∧ (s.hs.vc2 = [x]) ∧ (x.entry =
      entry.val) ∧ (x.xid = xid.val) ∧ (s.spn.refclk = true)) ∧
    (∃ (s : State) (xid : Fin 65536) (q : ReqCtx) (due : Nat), (s.awake = true) ∧ (s.hs.fwd.find? (fun f => decide
      (f.1.xid = xid.val)) = some (q, due))) :=
  ⟨⟨(readyHub), (3 : Fin 128), (cmdReq true [1, 2] : CmdReq), by decide +kernel⟩,
   ⟨({ State.reset with hs.parts := [⟨ctxOf 3, 2, 10, [], .spi, 0⟩] }), (77 : BitVec 32), (3 : Fin 64), (Option.get
     (({ State.reset with hs.parts := [⟨ctxOf 3, 2, 10, [], .spi, 0⟩] }).partOf ((77 : BitVec 32).toNat, (3 : Fin
     64).val)) (by decide +kernel)), by decide +kernel⟩,
   ⟨State.reset, by decide +kernel⟩,
   ⟨({ State.reset with pwr.cmdReset := some 5 }), (Option.get
     (({ State.reset with pwr.cmdReset := some 5 }).pwr.cmdReset) (by decide +kernel)), by decide +kernel⟩,
   ⟨State.reset, ([1] : List Byte), by decide +kernel⟩,
   ⟨State.reset, (List.replicate 30 0xC0 : List Byte), by decide +kernel⟩,
   ⟨State.reset, (List.replicate 30 0x80 : List Byte), by decide +kernel⟩,
   ⟨({ State.reset with hs.vc2 := [⟨7, 8, 0, [], [], 0⟩] }), (7 : Fin 65536), (8 : Fin 65536), (List.head
     (({ State.reset with hs.vc2 := [⟨7, 8, 0, [], [], 0⟩] }).hs.vc2) (by decide +kernel)), by decide +kernel⟩,
   ⟨({ State.reset with hs.fwd := [({ ctxOf 1 with xid := 8 }, 9)] }), (8 : Fin 65536), ({ ctxOf 1 with xid := 8 } :
     ReqCtx), (9 : Nat), by decide +kernel⟩⟩

/-- The hypotheses of `Obligations.SpiFrameRows` can be met, clause by clause. -/
theorem witness_spi_frame_rows :
    (∃ (s : State) (c : Instr), (s.awake = true) ∧ ((∃ a n st e, c = .regRead a n st e) ∨ (∃ a n st ws e, c =
      .regWrite a n st ws e) ∨ (∃ b, c = .cmdSend b) ∨ (∃ n, c = .cmdRecv n) ∨ (∃ b, c = .spiBadFrame b)) ∧ (s.hsReady
      = false)) ∧
    (∃ (s : State) (e : BitVec 32), (s.awake = true) ∧ (s.hsReady = true) ∧ (e ≠ 0)) ∧
    (∃ (s : State) (n : Fin 65536), (s.awake = true) ∧ (s.hsReady = true) ∧ (n.val = 0 ∨ 256 < n.val)) ∧
    (∃ (s : State) (a : Word) (n : Fin 65536) (stride : Fin 65536), (s.awake = true) ∧ (s.hsReady = true) ∧ (1 ≤
      n.val) ∧ (n.val ≤ 256) ∧ ((strided a.toNat n.val stride.val).all addrOk = false)) ∧
    (∃ (s : State) (a : Word) (n : Fin 65536) (stride : Fin 65536) (t : _) (ws : _) (stale : _) (r : _), (s.awake =
      true) ∧ (s.hsReady = true) ∧ (1 ≤ n.val) ∧ (n.val ≤ 256) ∧ ((strided a.toNat n.val stride.val).all addrOk =
      true) ∧ (s.readAll (strided a.toNat n.val stride.val) = (t, ws, stale)) ∧ (r = beBytes 1 (if stale then 0x8C
      else 0x80))) ∧
    (∃ (s : State) (a : Word) (n : Fin 65536) (stride : Fin 65536) (words : List Word) (l : List (Nat × Word)),
      (s.awake = true) ∧ (s.hsReady = true) ∧ ((stride.val < 32768 ∧ words.length = n.val ∧ l = (List.range n.val).map
      (fun j => (a.toNat + strideOf stride.val * j, (words[j]?).getD 0))) ∨ (32768 ≤ stride.val ∧ words.length = 1 ∧ l
      = (List.range n.val).map (fun j => (a.toNat + strideOf stride.val * j, (words[0]?).getD 0)))) ∧ (1 ≤ n.val) ∧
      (n.val ≤ 256)) ∧
    (∃ (s : State) (a : Word) (n : Fin 65536) (stride : Fin 65536) (words : List Word) (l : List (Nat × Word)),
      (s.awake = true) ∧ (s.hsReady = true) ∧ ((stride.val < 32768 ∧ words.length = n.val ∧ l = (List.range n.val).map
      (fun j => (a.toNat + strideOf stride.val * j, (words[j]?).getD 0))) ∨ (32768 ≤ stride.val ∧ words.length = 1 ∧ l
      = (List.range n.val).map (fun j => (a.toNat + strideOf stride.val * j, (words[0]?).getD 0)))) ∧ (n.val = 0 ∨ 256
      < n.val)) ∧
    (∃ (s : State) (a : Word) (n : Fin 65536) (stride : Fin 65536) (words : List Word) (l : List (Nat × Word)) (e :
      BitVec 32), (s.awake = true) ∧ (s.hsReady = true) ∧ ((stride.val < 32768 ∧ words.length = n.val ∧ l =
      (List.range n.val).map (fun j => (a.toNat + strideOf stride.val * j, (words[j]?).getD 0))) ∨ (32768 ≤ stride.val
      ∧ words.length = 1 ∧ l = (List.range n.val).map (fun j => (a.toNat + strideOf stride.val * j, (words[0]?).getD
      0)))) ∧ (e ≠ 0)) ∧
    (∃ (s : State) (b : List Byte), (s.awake = true) ∧ (s.hsReady = true) ∧ (dgramGood b = false)) ∧
    (∃ (s : State) (b : List Byte), (s.awake = true) ∧ (s.hsReady = true) ∧ (dgramGood b = true) ∧ (128 ≤ natAt b 1
      1)) ∧
    (∃ (s : State) (b : List Byte) (q : ReqCtx), (s.awake = true) ∧ (s.hsReady = true) ∧ (dgramGood b = true) ∧ (natAt
      b 1 1 < 128) ∧ (q = reqCtx s.hubId 1 s.hs.xid 0 0 false b) ∧ (8 ≤ s.hs.spiq.length)) ∧
    (∃ (s : State) (b : List Byte) (q : ReqCtx), (s.awake = true) ∧ (s.hsReady = true) ∧ (dgramGood b = true) ∧ (natAt
      b 1 1 < 128) ∧ (q = reqCtx s.hubId 1 s.hs.xid 0 0 false b) ∧ (s.hs.spiq.length < 8) ∧ (q.target ≠ 0xFFFF) ∧
      (q.target = s.hubId) ∧ (s.idConflict = false) ∧ (reqMore b = false) ∧ (s.partOf q.key = none) ∧
      (s.hs.flight.length < 64) ∧ (s.hs.flight.contains q.key = false) ∧ (s.duplicate q.srcid q.sseq = false)) ∧
    (∃ (s : State) (b : List Byte) (q : ReqCtx) (h : SegHub), (s.awake = true) ∧ (s.hsReady = true) ∧ (dgramGood b =
      true) ∧ (natAt b 1 1 < 128) ∧ (q = reqCtx s.hubId 1 s.hs.xid 0 0 false b) ∧ (s.hs.spiq.length < 8) ∧ (q.target ≠
      0xFFFF) ∧ (q.target ≠ s.hubId) ∧ (s.seg.find? (fun x => decide (x.id = q.target)) = some h) ∧ (s.hs.fwd.length <
      128)) ∧
    (∃ (s : State) (b : List Byte) (q : ReqCtx), (s.awake = true) ∧ (s.hsReady = true) ∧ (dgramGood b = true) ∧ (natAt
      b 1 1 < 128) ∧ (q = reqCtx s.hubId 1 s.hs.xid 0 0 false b) ∧ (s.hs.spiq.length < 8) ∧ (q.target ≠ 0xFFFF) ∧
      (q.target ≠ s.hubId) ∧ (s.seg.find? (fun x => decide (x.id = q.target)) = none)) ∧
    (∃ (s : State) (r : List Byte) (rest : List (List Byte)) (n : Nat), (s.awake = true) ∧ (s.hsReady = true) ∧
      (s.hs.spiq = r :: rest) ∧ (3 + r.length ≤ n)) ∧
    (∃ (s : State) (r : _) (rest : _) (n : Nat), (s.awake = true) ∧ (s.hsReady = true) ∧ (s.hs.spiq = r :: rest) ∧ (n
      < 3 + r.length)) ∧
    (∃ (s : State), (s.awake = true) ∧ (s.hsReady = true) ∧ (s.hs.spiq = []) ∧ (s.hs.spiw = []) ∧ (s.hs.ringw = [])) ∧
    (∃ (s : State) (b : Fin 256), (s.awake = true) ∧ (s.hsReady = true) ∧ (b.val ∉ [1, 2, 3, 4])) ∧
    (∃ (s : State), (s.awake = true)) :=
  ⟨⟨State.reset, (.spiBadFrame 5 : Instr), ⟨by decide +kernel, .inr (.inr (.inr (.inr ⟨5, rfl⟩))), by decide +kernel⟩⟩,
   ⟨(readyHub), (1 : BitVec 32), by decide +kernel⟩,
   ⟨(readyHub), (257 : Fin 65536), by decide +kernel⟩,
   ⟨(readyHub), (0xFFFFFFFC : Word), (2 : Fin 65536), (4 : Fin 65536), by decide +kernel⟩,
   ⟨(readyHub), (0 : Word), (256 : Fin 65536), (4 : Fin 65536), (((readyHub).readAll (strided (0 : Word).toNat (256 :
     Fin 65536).val (4 : Fin 65536).val)).1), (((readyHub).readAll (strided (0 : Word).toNat (256 : Fin 65536).val (4
     : Fin 65536).val)).2.1), (((readyHub).readAll (strided (0 : Word).toNat (256 : Fin 65536).val (4 : Fin
     65536).val)).2.2), (beBytes 1 (if (((readyHub).readAll (strided (0 : Word).toNat (256 : Fin 65536).val (4 : Fin
     65536).val)).2.2) then 0x8C else 0x80)), by decide +kernel⟩,
   ⟨(readyHub), (0 : Word), (256 : Fin 65536), (0x8004 : Fin 65536), ([7] : List Word), ((List.range 256).map (fun j
     => (strideOf 0x8004 * j, 7)) : List (Nat × Word)), ⟨by decide +kernel, by decide +kernel, .inr
     ⟨by decide +kernel, by decide +kernel, by decide +kernel⟩, by decide +kernel, by decide +kernel⟩⟩,
   ⟨(readyHub), (0 : Word), (257 : Fin 65536), (0x8004 : Fin 65536), ([7] : List Word), ((List.range 257).map (fun j
     => (strideOf 0x8004 * j, 7)) : List (Nat × Word)), ⟨by decide +kernel, by decide +kernel, .inr
     ⟨by decide +kernel, by decide +kernel, by decide +kernel⟩, by decide +kernel⟩⟩,
   ⟨(readyHub), (0 : Word), (1 : Fin 65536), (4 : Fin 65536), ([7] : List Word), ([(0, 7)] : List (Nat × Word)), (1 :
     BitVec 32), ⟨by decide +kernel, by decide +kernel, .inl ⟨by decide +kernel, by decide +kernel,
     by decide +kernel⟩, by decide +kernel⟩⟩,
   ⟨(readyHub), ([] : List Byte), by decide +kernel⟩,
   ⟨(readyHub), (highOpcode : List Byte), by decide +kernel⟩,
   ⟨({ readyHub with hs.spiq := List.replicate 8 [] }), (reqDgram (cmdReq false []) 0x01 : List Byte), (reqCtx
     ({ readyHub with hs.spiq := List.replicate 8 [] }).hubId 1
     ({ readyHub with hs.spiq := List.replicate 8 [] }).hs.xid 0 0 false (reqDgram (cmdReq false []) 0x01 : List
     Byte)), by decide +kernel⟩,
   ⟨(readyHub), (reqDgram (cmdReq false []) 0x01 : List Byte), (reqCtx (readyHub).hubId 1 (readyHub).hs.xid 0 0 false
     (reqDgram (cmdReq false []) 0x01 : List Byte)), by decide +kernel⟩,
   ⟨({ readyHub with seg := [⟨7, 0, 1, 0, 0, 0⟩] }), (reqDgram { cmdReq false [] with target := 7 } 0x01 : List Byte),
     (reqCtx ({ readyHub with seg := [⟨7, 0, 1, 0, 0, 0⟩] }).hubId 1
     ({ readyHub with seg := [⟨7, 0, 1, 0, 0, 0⟩] }).hs.xid 0 0 false (reqDgram { cmdReq false [] with target := 7 }
     0x01 : List Byte)), (⟨7, 0, 1, 0, 0, 0⟩ : SegHub), by decide +kernel⟩,
   ⟨(readyHub), (reqDgram { cmdReq false [] with target := 7 } 0x01 : List Byte), (reqCtx (readyHub).hubId 1
     (readyHub).hs.xid 0 0 false (reqDgram { cmdReq false [] with target := 7 } 0x01 : List Byte)), by decide +kernel⟩,
   ⟨({ readyHub with hs.spiq := [[1, 2]] }), (List.head (({ readyHub with hs.spiq := [[1, 2]] }).hs.spiq)
     (by decide +kernel)), (List.tail (({ readyHub with hs.spiq := [[1, 2]] }).hs.spiq)), (5 : Nat),
     by decide +kernel⟩,
   ⟨({ readyHub with hs.spiq := [[1, 2]] }), (List.head (({ readyHub with hs.spiq := [[1, 2]] }).hs.spiq)
     (by decide +kernel)), (List.tail (({ readyHub with hs.spiq := [[1, 2]] }).hs.spiq)), (4 : Nat),
     by decide +kernel⟩,
   ⟨(readyHub), by decide +kernel⟩,
   ⟨(readyHub), (5 : Fin 256), by decide +kernel⟩,
   ⟨State.reset, by decide +kernel⟩⟩

/-- The hypotheses of `Obligations.TailstockRows` can be met, clause by clause. -/
theorem witness_tailstock_rows :
    (∃ (s : State) (c : Bool) (j : Fin 16), (s.awake = true) ∧ (s.tls.inputs.length = 16) ∧ (s.tls.axes.length = 4) ∧
      (s.inUsed j.val = true) ∧ (s.inPar j.val 2 1 ≤ (if c then (s.inp j.val).cb else (s.inp j.val).ca))) ∧
    (∃ (s : State) (c : Bool) (j : Fin 16), (s.awake = true) ∧ (s.tls.inputs.length = 16) ∧ (s.tls.axes.length = 4) ∧
      (s.inUsed j.val = true) ∧ ((if c then (s.inp j.val).cb else (s.inp j.val).ca) < s.inPar j.val 2 1)) ∧
    (∃ (s : State) (j : Fin 16), (s.awake = true) ∧ (s.tls.inputs.length = 16) ∧ (s.tls.axes.length = 4) ∧ (s.inUsed
      j.val = false)) ∧
    (∃ (s : State) (j : Fin 16), (s.awake = true) ∧ (s.tls.inputs.length = 16) ∧ (s.tls.axes.length = 4) ∧ (s.inUsed
      j.val = true) ∧ (msCycles (s.inPar j.val 6 2) ≤ (s.inp j.val).disc) ∧ ((s.inp j.val).fault = false)) ∧
    (∃ (s : State) (t : _), (s.awake = true) ∧ (s.tls.inputs.length = 16) ∧ (s.tls.axes.length = 4) ∧ (s.tls.tpLow =
      none) ∧ (s.tpAt s.tls.cyc = some t) ∧ (s.tls.g = gActive)) ∧
    (∃ (s : State) (t : _), (s.awake = true) ∧ (s.tls.inputs.length = 16) ∧ (s.tls.axes.length = 4) ∧ (s.tls.tpLow =
      some t) ∧ (s.tpAt s.tls.cyc ≠ some t)) ∧
    (∃ (s : State) (t : _), (s.awake = true) ∧ (s.tls.inputs.length = 16) ∧ (s.tls.axes.length = 4) ∧ (s.tls.tpLow =
      some t) ∧ (s.tpAt s.tls.cyc = some t)) ∧
    (∃ (s : State) (x : Fin 4) (tracks : Fin 4) (d : _), (s.awake = true) ∧ (s.tls.inputs.length = 16) ∧
      (s.tls.axes.length = 4) ∧ (quadStep (s.axis x.val).tracks tracks.val = some d)) ∧
    (∃ (s : State) (x : Fin 4) (tracks : Fin 4) (fast : Bool), (s.awake = true) ∧ (s.tls.inputs.length = 16) ∧
      (s.tls.axes.length = 4) ∧ (quadStep (s.axis x.val).tracks tracks.val = none ∨ fast = true)) ∧
    (∃ (s : State), (s.awake = true) ∧ (s.tls.inputs.length = 16) ∧ (s.tls.axes.length = 4)) ∧
    (∃ (s : State) (x : Fin 4) (c : Bool) (d : SafeDrive) (v : Rat) (still : Rat) (t : Rat), (s.awake = true) ∧
      (s.tls.inputs.length = 16) ∧ (s.tls.axes.length = 4) ∧ (d = s.drive c x.val) ∧ (v = absQ (s.axSpeed c x.val)) ∧
      (still = ((s.axPar x.val 4 4 : Nat) : Rat)) ∧ (t = ((s.cycSince d.ss1From : Nat) : Rat) / 4000) ∧ (d.st ≠
      axSs1)) ∧
    (∃ (s : State) (x : Fin 4) (c : Bool) (d : SafeDrive) (v : Rat) (still : Rat) (t : Rat), (s.awake = true) ∧
      (s.tls.inputs.length = 16) ∧ (s.tls.axes.length = 4) ∧ (d = s.drive c x.val) ∧ (v = absQ (s.axSpeed c x.val)) ∧
      (still = ((s.axPar x.val 4 4 : Nat) : Rat)) ∧ (t = ((s.cycSince d.ss1From : Nat) : Rat) / 4000) ∧ (d.st = axSs1)
      ∧ (s.axPar x.val 1 1 ≠ 1)) ∧
    (∃ (s : State) (x : Fin 4) (c : Bool) (d : SafeDrive) (v : Rat) (still : Rat) (t : Rat), (s.awake = true) ∧
      (s.tls.inputs.length = 16) ∧ (s.tls.axes.length = 4) ∧ (d = s.drive c x.val) ∧ (v = absQ (s.axSpeed c x.val)) ∧
      (still = ((s.axPar x.val 4 4 : Nat) : Rat)) ∧ (t = ((s.cycSince d.ss1From : Nat) : Rat) / 4000) ∧ (d.st = axSs1)
      ∧ (s.axPar x.val 1 1 = 1) ∧ (still < v) ∧ (d.v0 + (s.axPar x.val 12 4 : Nat) - (s.axPar x.val 8 4 : Nat) * t <
      v)) ∧
    (∃ (s : State) (x : Fin 4) (c : Bool) (d : SafeDrive) (v : Rat) (still : Rat) (t : Rat), (s.awake = true) ∧
      (s.tls.inputs.length = 16) ∧ (s.tls.axes.length = 4) ∧ (d = s.drive c x.val) ∧ (v = absQ (s.axSpeed c x.val)) ∧
      (still = ((s.axPar x.val 4 4 : Nat) : Rat)) ∧ (t = ((s.cycSince d.ss1From : Nat) : Rat) / 4000) ∧ (d.st = axSs1)
      ∧ (s.axPar x.val 1 1 = 1) ∧ (v ≤ still)) ∧
    (∃ (s : State) (x : Fin 4) (c : Bool) (d : SafeDrive) (v : Rat) (still : Rat) (t : Rat), (s.awake = true) ∧
      (s.tls.inputs.length = 16) ∧ (s.tls.axes.length = 4) ∧ (d = s.drive c x.val) ∧ (v = absQ (s.axSpeed c x.val)) ∧
      (still = ((s.axPar x.val 4 4 : Nat) : Rat)) ∧ (t = ((s.cycSince d.ss1From : Nat) : Rat) / 4000) ∧ (d.st = axSs1)
      ∧ (s.axPar x.val 1 1 = 1) ∧ (still < v) ∧ (v ≤ d.v0 + (s.axPar x.val 12 4 : Nat) - (s.axPar x.val 8 4 : Nat) *
      t)) ∧
    (∃ (s : State), (s.awake = true) ∧ (s.tls.inputs.length = 16) ∧ (s.tls.axes.length = 4)) ∧
    (∃ (s : State) (x : Fin 4) (c : Bool) (e : Nat × Nat), (s.awake = true) ∧ (s.tls.inputs.length = 16) ∧
      (s.tls.axes.length = 4) ∧ ((s.demands x.val).head? = some e) ∧ ((s.drive c x.val).st = axRun) ∧ (∃ f ∈ s.demands
      x.val, f.2 = fnSto)) ∧
    (∃ (s : State) (x : Fin 4) (c : Bool) (e : Nat × Nat), (s.awake = true) ∧ (s.tls.inputs.length = 16) ∧
      (s.tls.axes.length = 4) ∧ ((s.demands x.val).head? = some e) ∧ ((s.drive c x.val).st = axRun) ∧ (∀ f ∈ s.demands
      x.val, f.2 ≠ fnSto)) ∧
    (∃ (s : State) (x : Fin 4), (s.awake = true) ∧ (s.tls.inputs.length = 16) ∧ (s.tls.axes.length = 4) ∧ (s.axEnabled
      x.val = true)) ∧
    (∃ (s : State), (s.awake = true) ∧ (s.tls.inputs.length = 16) ∧ (s.tls.axes.length = 4)) ∧
    (∃ (s : State) (x : Fin 4) (chB : _) (sbc : _), (s.awake = true) ∧ (s.tls.inputs.length = 16) ∧ (s.tls.axes.length
      = 4) ∧ (s.tls.cyc % 4000 ≠ (500 * x.val + 250 * b2n sbc + 2000 * b2n chB) % 4000 ∨ (if sbc then (s.drive chB
      x.val).sbc else (s.drive chB x.val).sto) = false)) ∧
    (∃ (s : State) (x : Fin 4) (chB : _) (sbc : _) (u : State), (s.awake = true) ∧ (s.tls.inputs.length = 16) ∧
      (s.tls.axes.length = 4) ∧ (s.tls.cyc % 4000 = (500 * x.val + 250 * b2n sbc + 2000 * b2n chB) % 4000) ∧ ((if sbc
      then (s.drive chB x.val).sbc else (s.drive chB x.val).sto) = true) ∧ (u = (s.emit (.pin (pinOff x.val chB sbc) 0
      s.lt)).emit (.pin (pinOff x.val chB sbc) 1 (s.lt + 100000 * nsU)))) ∧
    (∃ (s : State), (s.awake = true) ∧ (s.tls.inputs.length = 16) ∧ (s.tls.axes.length = 4) ∧ (s.rstEdge = false)) ∧
    (∃ (s : State), (s.awake = true) ∧ (s.tls.inputs.length = 16) ∧ (s.tls.axes.length = 4) ∧ (s.rstEdge = true)) ∧
    (∃ (s : State) (a : Nat) (b : Nat), (s.awake = true) ∧ (s.tls.inputs.length = 16) ∧ (s.tls.axes.length = 4) ∧
      (s.tls.chA.fall = some a) ∧ (s.tls.chB.fall = some b)) ∧
    (∃ (s : State), (s.awake = true) ∧ (s.tls.inputs.length = 16) ∧ (s.tls.axes.length = 4) ∧ (s.tls.chA.fall = none ∨
      s.tls.chB.fall = none)) ∧
    (∃ (s : State), (s.awake = true) ∧ (s.tls.inputs.length = 16) ∧ (s.tls.axes.length = 4) ∧ (s.tls.g ≠ gActive ∨
      s.tls.setCyc = s.tls.cyc)) ∧
    (∃ (s : State) (e : State) (x : Nat), (s.awake = true) ∧ (s.tls.inputs.length = 16) ∧ (s.tls.axes.length = 4) ∧
      (s.tls.g = gActive) ∧ (s.tls.setCyc ≠ s.tls.cyc) ∧ (e = s.edgeClear) ∧ (x < 4) ∧ (e.axFree x = true)) ∧
    (∃ (s : State) (e : State) (x : Nat), (s.awake = true) ∧ (s.tls.inputs.length = 16) ∧ (s.tls.axes.length = 4) ∧
      (s.tls.g = gActive) ∧ (s.tls.setCyc ≠ s.tls.cyc) ∧ (e = s.edgeClear) ∧ (x < 4) ∧ (e.axFree x = false)) ∧
    (∃ (s : State) (e : State), (s.awake = true) ∧ (s.tls.inputs.length = 16) ∧ (s.tls.axes.length = 4) ∧ (s.tls.g =
      gActive) ∧ (s.tls.setCyc ≠ s.tls.cyc) ∧ (e = s.edgeClear) ∧ (∃ x < 4, e.axEnabled x = true ∧ e.demands x ≠ [])) ∧
    (∃ (s : State) (e : State), (s.awake = true) ∧ (s.tls.inputs.length = 16) ∧ (s.tls.axes.length = 4) ∧ (s.tls.g =
      gActive) ∧ (s.tls.setCyc ≠ s.tls.cyc) ∧ (e = s.edgeClear) ∧ (∀ x < 4, e.axEnabled x = true → e.demands x = [])) ∧
    (∃ (s : State), (s.awake = true) ∧ (s.tls.inputs.length = 16) ∧ (s.tls.axes.length = 4)) ∧
    (∃ (s : State), (s.awake = true) ∧ (s.tls.inputs.length = 16) ∧ (s.tls.axes.length = 4) ∧ (msCycles 2000 <
      s.tls.chA.high ∨ msCycles 2000 < s.tls.chB.high) ∧ (s.tls.held = false)) ∧
    (∃ (s : State), (s.awake = true) ∧ (s.tls.inputs.length = 16) ∧ (s.tls.axes.length = 4) ∧ (s.tls.g = gActive) ∧
      (s.tls.synced = true) ∧ (s.tls.conn = cnSync ∨ s.tls.conn = cnRunning) ∧ (msCycles s.tlgWd ≤ s.cycSince
      s.tls.accepted)) ∧
    (∃ (s : State) (t : _), (s.awake = true) ∧ (s.tls.inputs.length = 16) ∧ (s.tls.axes.length = 4) ∧ (s.tls.startTick
      = some t)) ∧
    (∃ (s : State), (s.awake = true) ∧ (s.tls.inputs.length = 16) ∧ (s.tls.axes.length = 4)) ∧
    (∃ (s : State), (s.awake = true) ∧ (s.tls.inputs.length = 16) ∧ (s.tls.axes.length = 4)) ∧
    (∃ (s : State), (s.awake = true) ∧ (s.tls.inputs.length = 16) ∧ (s.tls.axes.length = 4)) ∧
    (∃ (s : State), (s.awake = true) ∧ (s.tls.inputs.length = 16) ∧ (s.tls.axes.length = 4)) ∧
    (∃ (s : State) (x : Nat), (s.awake = true) ∧ (s.tls.inputs.length = 16) ∧ (s.tls.axes.length = 4) ∧ (x < 4) ∧
      (s.axEnabled x = true)) ∧
    (∃ (s : State), (s.awake = true) ∧ (s.tls.inputs.length = 16) ∧ (s.tls.axes.length = 4) ∧ (s.tls.timing = true) ∧
      (4000 ≤ s.tls.goodRun)) ∧
    (∃ (s : State), (s.awake = true) ∧ (s.tls.inputs.length = 16) ∧ (s.tls.axes.length = 4) ∧ (s.tls.goodRun < 4000)) ∧
    (∃ (s : State), (s.awake = true) ∧ (s.tls.inputs.length = 16) ∧ (s.tls.axes.length = 4)) ∧
    (∃ (s : State), (s.awake = true) ∧ (s.tls.inputs.length = 16) ∧ (s.tls.axes.length = 4) ∧ (s.tls.g = gActive)) :=
  ⟨⟨({ activeTls with tls.inputs := List.replicate 16 { SafeInput.init with cb := 1 } }), (true : Bool), (15 : Fin
     16), by decide +kernel⟩,
   ⟨({ activeTls with tls.inputs := List.replicate 16 { SafeInput.init with ca := 1 } }), (true : Bool), (15 : Fin
     16), by decide +kernel⟩,
   ⟨State.reset, (15 : Fin 16), by decide +kernel⟩,
   ⟨({ activeTls with tls.inputs := List.replicate 16 { SafeInput.init with disc := 1028 } }), (15 : Fin 16),
     by decide +kernel⟩,
   ⟨(activeTls), (Option.get ((activeTls).tpAt (activeTls).tls.cyc) (by decide +kernel)), by decide +kernel⟩,
   ⟨({ activeTls with tls.tpLow := some 3 }), (Option.get (({ activeTls with tls.tpLow := some 3 }).tls.tpLow)
     (by decide +kernel)), by decide +kernel⟩,
   ⟨({ activeTls with tls.tpLow := some 0 }), (Option.get (({ activeTls with tls.tpLow := some 0 }).tls.tpLow)
     (by decide +kernel)), by decide +kernel⟩,
   ⟨State.reset, (0 : Fin 4), (0 : Fin 4), (Option.get (quadStep (State.reset.axis (0 : Fin 4).val).tracks (0 : Fin
     4).val) (by decide +kernel)), by decide +kernel⟩,
   ⟨State.reset, (3 : Fin 4), (0 : Fin 4), (true : Bool), by decide +kernel⟩,
   ⟨(energised 1500), by decide +kernel⟩,
   ⟨(activeTls), (3 : Fin 4), (true : Bool), ((activeTls).drive (true : Bool) (3 : Fin 4).val), (absQ
     ((activeTls).axSpeed (true : Bool) (3 : Fin 4).val)), ((((activeTls).axPar (3 : Fin 4).val 4 4 : Nat) : Rat)),
     ((((activeTls).cycSince ((activeTls).drive (true : Bool) (3 : Fin 4).val).ss1From : Nat) : Rat) / 4000),
     by decide +kernel⟩,
   ⟨(ss1NoRamp), (3 : Fin 4), (true : Bool), ((ss1NoRamp).drive (true : Bool) (3 : Fin 4).val), (absQ
     ((ss1NoRamp).axSpeed (true : Bool) (3 : Fin 4).val)), ((((ss1NoRamp).axPar (3 : Fin 4).val 4 4 : Nat) : Rat)),
     ((((ss1NoRamp).cycSince ((ss1NoRamp).drive (true : Bool) (3 : Fin 4).val).ss1From : Nat) : Rat) / 4000),
     by decide +kernel⟩,
   ⟨(axesAlike { SafeDrive.init with st := axSs1, hist := [5000, 0] } 1028), (3 : Fin 4), (true : Bool), ((axesAlike
     { SafeDrive.init with st := axSs1, hist := [5000, 0] } 1028).drive (true : Bool) (3 : Fin 4).val), (absQ
     ((axesAlike { SafeDrive.init with st := axSs1, hist := [5000, 0] } 1028).axSpeed (true : Bool) (3 : Fin 4).val)),
     ((((axesAlike { SafeDrive.init with st := axSs1, hist := [5000, 0] } 1028).axPar (3 : Fin 4).val 4 4 : Nat) :
     Rat)), ((((axesAlike { SafeDrive.init with st := axSs1, hist := [5000, 0] } 1028).cycSince ((axesAlike
     { SafeDrive.init with st := axSs1, hist := [5000, 0] } 1028).drive (true : Bool) (3 : Fin 4).val).ss1From : Nat)
     : Rat) / 4000), by decide +kernel⟩,
   ⟨(axesAlike { SafeDrive.init with st := axSs1 } 1028), (3 : Fin 4), (false : Bool), ((axesAlike
     { SafeDrive.init with st := axSs1 } 1028).drive (false : Bool) (3 : Fin 4).val), (absQ ((axesAlike
     { SafeDrive.init with st := axSs1 } 1028).axSpeed (false : Bool) (3 : Fin 4).val)), ((((axesAlike
     { SafeDrive.init with st := axSs1 } 1028).axPar (3 : Fin 4).val 4 4 : Nat) : Rat)), ((((axesAlike
     { SafeDrive.init with st := axSs1 } 1028).cycSince ((axesAlike { SafeDrive.init with st := axSs1 } 1028).drive
     (false : Bool) (3 : Fin 4).val).ss1From : Nat) : Rat) / 4000), by decide +kernel⟩,
   ⟨(ramping), (3 : Fin 4), (true : Bool), ((ramping).drive (true : Bool) (3 : Fin 4).val), (absQ ((ramping).axSpeed
     (true : Bool) (3 : Fin 4).val)), ((((ramping).axPar (3 : Fin 4).val 4 4 : Nat) : Rat)), ((((ramping).cycSince
     ((ramping).drive (true : Bool) (3 : Fin 4).val).ss1From : Nat) : Rat) / 4000), by decide +kernel⟩,
   ⟨State.reset, by decide +kernel⟩,
   ⟨(stoDemanded), (3 : Fin 4), (true : Bool), (Option.get (((stoDemanded).demands (3 : Fin 4).val).head?)
     (by decide +kernel)), by decide +kernel⟩,
   ⟨(setOfTwos), (3 : Fin 4), (true : Bool), (Option.get (((setOfTwos).demands (3 : Fin 4).val).head?)
     (by decide +kernel)), by decide +kernel⟩,
   ⟨(activeTls), (3 : Fin 4), by decide +kernel⟩,
   ⟨State.reset, by decide +kernel⟩,
   ⟨(energised 1501), (3 : Fin 4), (false), (false), by decide +kernel⟩,
   ⟨(energised 1500), (3 : Fin 4), (false), (false), (((energised 1500).emit (.pin (pinOff (3 : Fin 4).val (false)
     (false)) 0 (energised 1500).lt)).emit (.pin (pinOff (3 : Fin 4).val (false) (false)) 1 ((energised 1500).lt +
     100000 * nsU))), by decide +kernel⟩,
   ⟨State.reset, by decide +kernel⟩,
   ⟨(rstFallen 5 7 7), by decide +kernel⟩,
   ⟨(rstFallen 5 8 0), (Option.get ((rstFallen 5 8 0).tls.chA.fall) (by decide +kernel)), (Option.get ((rstFallen 5 8
     0).tls.chB.fall) (by decide +kernel)), by decide +kernel⟩,
   ⟨State.reset, by decide +kernel⟩,
   ⟨({ activeTls with tls.cyc := 7, tls.setCyc := 7 }), by decide +kernel⟩,
   ⟨(axesFree), ((axesFree).edgeClear), (3 : Nat), by decide +kernel⟩,
   ⟨({ activeTls with tls.cyc := 7 }), (({ activeTls with tls.cyc := 7 }).edgeClear), (3 : Nat), by decide +kernel⟩,
   ⟨({ activeTls with tls.cyc := 7 }), (({ activeTls with tls.cyc := 7 }).edgeClear), by decide +kernel⟩,
   ⟨(axesFree), ((axesFree).edgeClear), by decide +kernel⟩,
   ⟨State.reset, by decide +kernel⟩,
   ⟨({ activeTls with tls.chB := { SafeChan.init with high := 8001 } }), by decide +kernel⟩,
   ⟨({ activeTls with tls.synced := true, tls.conn := cnRunning, tls.cyc := 1028 }), by decide +kernel⟩,
   ⟨({ activeTls with tls.startTick := some 5 }), (Option.get
     (({ activeTls with tls.startTick := some 5 }).tls.startTick) (by decide +kernel)), by decide +kernel⟩,
   ⟨State.reset, by decide +kernel⟩,
   ⟨State.reset, by decide +kernel⟩,
   ⟨State.reset, by decide +kernel⟩,
   ⟨State.reset, by decide +kernel⟩,
   ⟨(activeTls), (3 : Nat), by decide +kernel⟩,
   ⟨({ activeTls with tls.timing := true, tls.goodRun := 4000 }), by decide +kernel⟩,
   ⟨State.reset, by decide +kernel⟩,
   ⟨State.reset, by decide +kernel⟩,
   ⟨(activeTls), by decide +kernel⟩⟩

/-- The hypotheses of `Obligations.SafetyCycleRows` can be met, clause by clause. -/
theorem witness_safety_cycle_rows :
    (∃ (s : State), (s.awake = true) ∧ (s.spn.refclk = true)) ∧
    (∃ (s : State), (s.awake = true) ∧ (s.spn.refclk = false) ∧ (s.tls.answers = [])) ∧
    (∃ (s : State) (o : CycleObs) (u : State) (w : Nat), (s.awake = true) ∧ (s.spn.refclk = true) ∧ (u = s.cycleSample
      o) ∧ (w = u.cycleWord false o)) ∧
    (∃ (s : State), (s.awake = true) ∧ (s.dieUp 0 = false)) ∧
    (∃ (s : State) (w : BitVec 64) (crc : Fin 256), (s.awake = true) ∧ (s.dieUp 0 = true) ∧ (s.dieGood 0 0x30 w.toNat
      crc.val = false)) ∧
    (∃ (s : State) (w : BitVec 64) (crc : Fin 256), (s.awake = true) ∧ (s.dieUp 0 = true) ∧ (s.dieGood 0 0x30 w.toNat
      crc.val = true) ∧ (bitsOf w.toNat 63 62 = 0)) ∧
    (∃ (s : State) (w : BitVec 64) (crc : Fin 256) (r : _) (rest : _), (s.awake = true) ∧ (s.dieUp 0 = true) ∧
      (s.dieGood 0 0x30 w.toNat crc.val = true) ∧ (bitsOf w.toNat 63 62 = 1) ∧ (bitsOf w.toNat 61 60 = 2) ∧
      (s.tls.replies = r :: rest) ∧ (r.2.length ≠ 4) ∧ (bitsOf w.toNat 47 16 = crc32c r.2)) ∧
    (∃ (s : State) (w : BitVec 64) (crc : Fin 256) (r : _) (rest : _), (s.awake = true) ∧ (s.dieUp 0 = true) ∧
      (s.dieGood 0 0x30 w.toNat crc.val = true) ∧ (bitsOf w.toNat 63 62 = 1) ∧ (bitsOf w.toNat 61 60 = 2) ∧
      (s.tls.replies = r :: rest) ∧ (r.2.length ≠ 4) ∧ (bitsOf w.toNat 47 16 ≠ crc32c r.2)) ∧
    (∃ (s : State), (s.awake = true) ∧ (s.tls.axes.length = 4)) ∧
    (∃ (s : State) (c : Bool) (w : Nat) (differ : Bool), (s.awake = true) ∧ (differ = decide (¬ (bitsOf w 39 36 =
      (s.sch c).sto ∧ bitsOf w 35 32 = (s.sch c).sbc ∧ bitsOf w 31 28 = (s.sch c).ss1)))) ∧
    (∃ (s : State) (o : CycleObs) (u : State), (s.awake = true) ∧ (u = s.setTls
      { s.tls with seals := [o.sealA.val, o.sealB.val, o.sadrA.val, o.sadrB.val] }) ∧ (s.tls.g = gActive) ∧
      (o.sealA.val = s.tls.setCrc % 65536 ∧ o.sealB.val = s.tls.setCrc % 65536 ∧ o.sadrA.val = s.par 4 1 ∧ o.sadrB.val
      = s.par 4 1)) ∧
    (∃ (s : State) (o : CycleObs) (u : State), (s.awake = true) ∧ (u = s.setTls
      { s.tls with seals := [o.sealA.val, o.sealB.val, o.sadrA.val, o.sadrB.val] }) ∧ (s.tls.g = gActive) ∧ (¬
      (o.sealA.val = s.tls.setCrc % 65536 ∧ o.sealB.val = s.tls.setCrc % 65536 ∧ o.sadrA.val = s.par 4 1 ∧ o.sadrB.val
      = s.par 4 1))) ∧
    (∃ (s : State) (x : Nat), (s.awake = true) ∧ (∃ c, (s.drive c x).stoBad = 2) ∧ (∀ c, (s.drive c x).sbcBad ≠ 2)) ∧
    (∃ (s : State), (s.tls.axes.length = 4) ∧ (s.tls.g = gLockout)) ∧
    (∃ (s : State), (s.tls.axes.length = 4) ∧ (s.tls.g ≠ gLockout)) ∧
    (∃ (s : State), (s.tls.axes.length = 4) ∧ (s.tls.g ≠ gLockout)) ∧
    (∃ (s : State), (s.tls.axes.length = 4) ∧ (s.tls.g ≠ gLockout)) ∧
    (∃ (s : State), (s.tls.axes.length = 4) ∧ (s.tls.g ≠ gLockout)) ∧
    (∃ (s : State) (x : _), (s.tls.axes.length = 4) ∧ (s.tls.g ≠ gLockout) ∧ (x < 4)) ∧
    (∃ (s : State) (x : _), (s.tls.axes.length = 4) ∧ (x < 4) ∧ (s.tls.g ≠ gActive)) :=
  ⟨⟨State.reset, by decide +kernel⟩,
   ⟨({ State.reset with spn.refclk := false }), by decide +kernel⟩,
   ⟨State.reset, (⟨5, 5, 9, 9, 0, 0, false, false, 0, 0, 0, 0, 3072⟩ : CycleObs), (State.reset.cycleSample ⟨5, 5, 9,
     9, 0, 0, false, false, 0, 0, 0, 0, 3072⟩ : State), ((State.reset.cycleSample ⟨5, 5, 9, 9, 0, 0, false, false, 0,
     0, 0, 0, 3072⟩).cycleWord false ⟨5, 5, 9, 9, 0, 0, false, false, 0, 0, 0, 0, 3072⟩ : Nat), ⟨by decide +kernel,
     by decide +kernel, rfl, rfl⟩⟩,
   ⟨State.reset, by decide +kernel⟩,
   ⟨(diesUp State.reset), (0 : BitVec 64), (crcOf 0 0x30 0 + 1 : Fin 256), by decide +kernel⟩,
   ⟨(diesUp State.reset), (0 : BitVec 64), (crcOf 0 0x30 0 : Fin 256), by decide +kernel⟩,
   ⟨({ diesUp activeTls with tls.replies := [(ctxOf 0x31, List.replicate 12 1)] }), (BitVec.ofNat 64 (1 * 2 ^ 62 + 2 *
     2 ^ 60 + crc32c (List.replicate 12 1) * 2 ^ 16) : BitVec 64), (crcOf 0 0x30 (1 * 2 ^ 62 + 2 * 2 ^ 60 + crc32c
     (List.replicate 12 1) * 2 ^ 16) : Fin 256), (List.head
     (({ diesUp activeTls with tls.replies := [(ctxOf 0x31, List.replicate 12 1)] }).tls.replies)
     (by decide +kernel)), (List.tail
     (({ diesUp activeTls with tls.replies := [(ctxOf 0x31, List.replicate 12 1)] }).tls.replies)), by decide +kernel⟩,
   ⟨({ diesUp activeTls with tls.replies := [(ctxOf 0x31, List.replicate 12 1)] }), (BitVec.ofNat 64 (1 * 2 ^ 62 + 2 *
     2 ^ 60) : BitVec 64), (crcOf 0 0x30 (1 * 2 ^ 62 + 2 * 2 ^ 60) : Fin 256), (List.head
     (({ diesUp activeTls with tls.replies := [(ctxOf 0x31, List.replicate 12 1)] }).tls.replies)
     (by decide +kernel)), (List.tail
     (({ diesUp activeTls with tls.replies := [(ctxOf 0x31, List.replicate 12 1)] }).tls.replies)), by decide +kernel⟩,
   ⟨State.reset, by decide +kernel⟩,
   ⟨State.reset, (true : Bool), (0 : Nat), (decide (¬ (bitsOf (0 : Nat) 39 36 = (State.reset.sch (true : Bool)).sto ∧
     bitsOf (0 : Nat) 35 32 = (State.reset.sch (true : Bool)).sbc ∧ bitsOf (0 : Nat) 31 28 = (State.reset.sch (true :
     Bool)).ss1))), by decide +kernel⟩,
   ⟨((activeTls.setTls { activeTls.tls with setCrc := 0x10005 })), (⟨5, 5, 1, 1, 0, 0, false, false, 0, 0, 0, 0, 3072⟩
     : CycleObs), (((activeTls.setTls { activeTls.tls with setCrc := 0x10005 })).setTls { ((activeTls.setTls
     { activeTls.tls with setCrc := 0x10005 })).tls with seals := [(⟨5, 5, 1, 1, 0, 0, false, false, 0, 0, 0, 0, 3072⟩
     : CycleObs).sealA.val, (⟨5, 5, 1, 1, 0, 0, false, false, 0, 0, 0, 0, 3072⟩ : CycleObs).sealB.val, (⟨5, 5, 1, 1,
     0, 0, false, false, 0, 0, 0, 0, 3072⟩ : CycleObs).sadrA.val, (⟨5, 5, 1, 1, 0, 0, false, false, 0, 0, 0, 0, 3072⟩
     : CycleObs).sadrB.val] }), ⟨by decide +kernel, by decide +kernel, by decide +kernel, by decide +kernel⟩⟩,
   ⟨((activeTls.setTls { activeTls.tls with setCrc := 0x10005 })), (⟨5, 6, 1, 1, 0, 0, false, false, 0, 0, 0, 0, 3072⟩
     : CycleObs), (((activeTls.setTls { activeTls.tls with setCrc := 0x10005 })).setTls { ((activeTls.setTls
     { activeTls.tls with setCrc := 0x10005 })).tls with seals := [(⟨5, 6, 1, 1, 0, 0, false, false, 0, 0, 0, 0, 3072⟩
     : CycleObs).sealA.val, (⟨5, 6, 1, 1, 0, 0, false, false, 0, 0, 0, 0, 3072⟩ : CycleObs).sealB.val, (⟨5, 6, 1, 1,
     0, 0, false, false, 0, 0, 0, 0, 3072⟩ : CycleObs).sadrA.val, (⟨5, 6, 1, 1, 0, 0, false, false, 0, 0, 0, 0, 3072⟩
     : CycleObs).sadrB.val] }), by decide +kernel⟩,
   ⟨(axesAlike { SafeDrive.init with stoBad := 2 } 5), (3 : Nat), by decide +kernel⟩,
   ⟨({ activeTls with tls.g := gLockout }), by decide +kernel⟩,
   ⟨State.reset, by decide +kernel⟩,
   ⟨State.reset, by decide +kernel⟩,
   ⟨State.reset, by decide +kernel⟩,
   ⟨State.reset, by decide +kernel⟩,
   ⟨State.reset, (0), by decide +kernel⟩,
   ⟨State.reset, (0), by decide +kernel⟩⟩

/-- The hypotheses of `Obligations.FieldsAndBytes` can be met, clause by clause. -/
theorem witness_fields_and_bytes :
    (∃ (f : Fld) (old : Nat), (f.lo ≤ f.hi) ∧ (f.hi < 32) ∧ (old < 2 ^ 32) ∧ (f.acc = .rw ∨ f.acc = .rwl)) ∧
    (∃ (f : Fld) (old : Nat) (i : _), (f.lo ≤ f.hi) ∧ (f.hi < 32) ∧ (old < 2 ^ 32) ∧ (f.acc = .w1c) ∧ (f.lo ≤ i) ∧ (i
      ≤ f.hi)) ∧
    (∃ (f : Fld) (old : Nat), (f.lo ≤ f.hi) ∧ (f.hi < 32) ∧ (old < 2 ^ 32) ∧ (f.acc ≠ .rw) ∧ (f.acc ≠ .rwl) ∧ (f.acc ≠
      .w1c)) ∧
    (∃ (f : Fld) (old : Nat) (i : _), (f.lo ≤ f.hi) ∧ (f.hi < 32) ∧ (old < 2 ^ 32) ∧ (i < f.lo ∨ f.hi < i)) ∧
    (∃ (flds : List Fld), (∀ f ∈ flds, f.lo ≤ f.hi ∧ f.hi < 32)) ∧
    (∃ (a : Nat) (bs : List Byte) (b : _), (b < a ∨ a + bs.length ≤ b)) ∧
    (∃ (s : State), (memWf s.mem = true)) :=
  ⟨⟨(⟨31, 0, .rwl, 0⟩ : Fld), (0 : Nat), by decide +kernel⟩,
   ⟨(⟨31, 0, .w1c, 0⟩ : Fld), (0 : Nat), (0), by decide +kernel⟩,
   ⟨(⟨31, 0, .ro, 0⟩ : Fld), (0 : Nat), by decide +kernel⟩,
   ⟨(⟨30, 0, .rw, 0⟩ : Fld), (0 : Nat), (31), by decide +kernel⟩,
   ⟨([] : List Fld), by decide +kernel⟩,
   ⟨(0 : Nat), ([] : List Byte), (0), by decide +kernel⟩,
   ⟨State.reset, by decide +kernel⟩⟩

/-- The hypotheses of `Obligations.TimesOnTheWire` can be met, clause by clause. -/
theorem witness_times_on_the_wire :
    (∃ (t : _), (t < secU * 2 ^ 64)) ∧
    (∃ (bs : List Byte) (o : Nat), (999999999 < natAt bs (o + 8) 4)) ∧
    (∃ (sa : Nat) (na : Nat) (sb : Nat) (nb : Nat), (na < 1000000000) ∧ (nb < 1000000000) ∧ (sa < sb + 2 ^ 17) ∧ (sb <
      sa + 2 ^ 17)) :=
  ⟨⟨(0), by decide +kernel⟩,
   ⟨(List.replicate 14 255 : List Byte), (0 : Nat), by decide +kernel⟩,
   ⟨(0 : Nat), (0 : Nat), (0 : Nat), (0 : Nat), by decide +kernel⟩⟩

/-- The hypotheses of `Obligations.Numbers` can be met, clause by clause. -/
theorem witness_numbers :
    (∃ (v : _), (-2147483647 ≤ v) ∧ (v ≤ 2147483647)) ∧
    (∃ (b : Nat), (0 < b)) ∧
    (∃ (v : _) (q : _), (-2147483647 ≤ v) ∧ (v ≤ 2147483647) ∧ (q < 256)) ∧
    (∃ (v : _) (q : _), (-2147483647 ≤ v) ∧ (v ≤ 2147483647) ∧ (q < 256)) ∧
    (∃ (v : _) (q : _), (-2147483647 ≤ v) ∧ (v ≤ 2147483647) ∧ (q < 256) ∧ (isInvalid q = true)) ∧
    (∃ (v : _) (q : _), (-2147483647 ≤ v) ∧ (v ≤ 2147483647) ∧ (q < 256) ∧ (isInvalid q = false)) :=
  ⟨⟨(0), by decide +kernel⟩,
   ⟨(3 : Nat), by decide +kernel⟩,
   ⟨(0), (0), by decide +kernel⟩,
   ⟨(0), (0), by decide +kernel⟩,
   ⟨(0), (qInvalid), by decide +kernel⟩,
   ⟨(0), (0), by decide +kernel⟩⟩

/-- The hypotheses of `Obligations.MemoryFrames` can be met, clause by clause. -/
theorem witness_memory_frames :
    (∃ (s : State) (b : Nat) (c : Nat) (deep : Bool) (bs : List Byte) (t : State), (b < logBase ∨ logBase + 8192 ≤ b)
      ∧ (t = s.storeUnit c deep bs) ∧ (b < t.unitAddr c (s.st c).wr ∨ t.unitAddr c (s.st c).wr + 32 ≤ b)) ∧
    (∃ (s : State) (b : Nat) (c : Nat) (u : Nat), (b < logBase ∨ logBase + 8192 ≤ b) ∧ (b < s.unitAddr c u ∨
      s.unitAddr c u + 32 ≤ b)) ∧
    (∃ (s : State) (b : Nat) (c : Nat) (stop : Bool) (gapOnly : Bool) (o : OpenPkt) (t : State), (b < logBase ∨
      logBase + 8192 ≤ b) ∧ (t = s.closePkt c stop gapOnly) ∧ ((s.st c).cur = some o) ∧ (b < t.unitAddr c o.first ∨
      t.unitAddr c o.first + 32 ≤ b) ∧ (o.payload.length % 32 = 0 ∨ b < t.unitAddr c (s.st c).wr ∨ t.unitAddr c (s.st
      c).wr + 32 ≤ b)) ∧
    (∃ (s : State) (b : Nat) (c : Fin 512) (p : SpillPage) (rest : List SpillPage), (b < logBase ∨ logBase + 8192 ≤ b)
      ∧ (s.awake = true) ∧ ((s.st c.val).spill = p :: rest)) ∧
    (∃ (s : State) (b : Nat) (c : Fin 512), (b < logBase ∨ logBase + 8192 ≤ b) ∧ (s.awake = true) ∧ ((s.st
      c.val).spill = [])) ∧
    (∃ (s : State) (b : Nat) (c : Nat) (q : Nat) (pos : Nat) (r : CapRow) (a : Nat), (b < logBase ∨ logBase + 8192 ≤
      b) ∧ (a = s.capSlotAddr c q + s.capHead c + pos * s.capRowLen c) ∧ (b < a ∨ a + (rowImage (s.capFmt c)
      r.vals).length ≤ b)) ∧
    (∃ (s : State) (b : Nat) (c : Nat) (o : Nat), (b < logBase ∨ logBase + 8192 ≤ b) ∧ ((s.gg c).inMem = true) ∧ (b <
      imageBase c + o ∨ imageBase c + o + 4 ≤ b)) ∧
    (∃ (s : State) (b : Nat) (c : Nat) (o : Nat), (b < logBase ∨ logBase + 8192 ≤ b) ∧ ((s.gg c).inMem = false) ∧ (b <
      imageBase c ∨ imageBase c + max (o + 4) (s.anchorBytes c).length ≤ b)) ∧
    (∃ (b : Nat) (a : Nat), (b < logBase ∨ logBase + 8192 ≤ b) ∧ (b < a / 32 * 32 ∨ a / 32 * 32 + 32 ≤ b)) ∧
    (∃ (b : Nat), (b < logBase ∨ logBase + 8192 ≤ b)) :=
  ⟨⟨(openStream StrState.init), (0 : Nat), (511 : Nat), (false : Bool), ([1] : List Byte), ((openStream
     StrState.init).storeUnit (511 : Nat) (false : Bool) ([1] : List Byte)), by decide +kernel⟩,
   ⟨(openStream StrState.init), (0 : Nat), (511 : Nat), (0 : Nat), by decide +kernel⟩,
   ⟨(openStream { StrState.init with cur := some ⟨1, 0, [], 7, 1, 0, 1, 7, 0, false⟩ }), (0 : Nat), (511 : Nat),
     (false : Bool), (false : Bool), (⟨1, 0, [], 7, 1, 0, 1, 7, 0, false⟩ : OpenPkt), ((openStream
     { StrState.init with cur := some ⟨1, 0, [], 7, 1, 0, 1, 7, 0, false⟩ }).closePkt (511 : Nat) (false : Bool)
     (false : Bool)), by decide +kernel⟩,
   ⟨((State.reset.setStr 511 { StrState.init with spill := [⟨0, 0, 1⟩] }).setFld (R.STR_FIFO 511) F.STR_FIFO_SIZE 1),
     (0 : Nat), (511 : Fin 512), (List.head ((((State.reset.setStr 511
     { StrState.init with spill := [⟨0, 0, 1⟩] }).setFld (R.STR_FIFO 511) F.STR_FIFO_SIZE 1).st (511 : Fin
     512).val).spill) (by decide +kernel)), (List.tail ((((State.reset.setStr 511
     { StrState.init with spill := [⟨0, 0, 1⟩] }).setFld (R.STR_FIFO 511) F.STR_FIFO_SIZE 1).st (511 : Fin
     512).val).spill)), by decide +kernel⟩,
   ⟨State.reset, (0 : Nat), (0 : Fin 512), by decide +kernel⟩,
   ⟨State.reset, (0 : Nat), (0 : Nat), (0 : Nat), (0 : Nat), (⟨0, [(1, 0, 1)]⟩ : CapRow), (State.reset.capSlotAddr (0
     : Nat) (0 : Nat) + State.reset.capHead (0 : Nat) + (0 : Nat) * State.reset.capRowLen (0 : Nat)),
     by decide +kernel⟩,
   ⟨((State.reset.setGg 0 { GgeCtx.init with inMem := true })), (0 : Nat), (0 : Nat), (0 : Nat), by decide +kernel⟩,
   ⟨State.reset, (0 : Nat), (0 : Nat), (0 : Nat), by decide +kernel⟩,
   ⟨(0 : Nat), (0x5000000 : Nat), by decide +kernel⟩,
   ⟨(0 : Nat), by decide +kernel⟩⟩

end Sys2Proof.Tests
end

/-! Long times on the wire and differences of short times (R4, R5, R7, R8). -/
namespace Sys2Proof.Machine

/-! ### Big-endian bytes (R4) -/

/-- Reading on over the bytes of `v` appends its low `8 n` bits to what was read before. -/
theorem foldl_beBytes (n v a : Nat) :
    (beBytes n v).foldl (fun a b => a * 256 + b.toNat) a = a * 256 ^ n + v % 256 ^ n := by
  induction n generalizing a with
  | zero => simp [beBytes, Nat.mod_one]
  | succ n ih =>
    have hbyte : (BitVec.ofNat 8 (v / 256 ^ n)).toNat = v / 256 ^ n % 256 := BitVec.toNat_ofNat ..
    rw [beBytes, List.foldl_cons, ih, hbyte, Nat.mod_pow_succ, Nat.pow_succ, Nat.add_mul, Nat.mul_assoc,
      Nat.mul_comm 256, Nat.mul_comm (_ % 256), Nat.add_assoc, Nat.add_comm (_ % 256 ^ n)]

/-- Bytes of a number read back as the number, as far as they reach. -/
@[simp] theorem beNat_beBytes (n v : Nat) : beNat (beBytes n v) = v % 256 ^ n := by
  rw [beNat, foldl_beBytes, Nat.zero_mul, Nat.zero_add]

/-- Bytes asked for within a list are a piece of it. -/
theorem bytesAt_eq_take_drop {bs : List Byte} {o n : Nat} (h : o + n ≤ bs.length) :
    bytesAt bs o n = (bs.drop o).take n := by
  apply List.ext_getElem
  · simp [bytesAt]; omega
  · intro i hi _
    have hin : o + i < bs.length := by simp [bytesAt] at hi; omega
    simp [bytesAt, List.getElem?_eq_getElem hin]

/-- A number among other bytes is read where it stands. -/
theorem natAt_beBytes (pre post : List Byte) (n v : Nat) :
    natAt (pre ++ beBytes n v ++ post) pre.length n = v % 256 ^ n := by
  have hlen : pre.length + n ≤ (pre ++ beBytes n v ++ post).length := by simp [length_beBytes]
  have hpiece : bytesAt (pre ++ beBytes n v ++ post) pre.length n = beBytes n v := by
    rw [bytesAt_eq_take_drop hlen, List.append_assoc, List.drop_left,
      List.take_left' (length_beBytes n v)]
  rw [natAt, hpiece, beNat_beBytes]

/-! ### An LT and its three fields (R5) -/

theorem mkLt_fields (t : Nat) : mkLt (ltSec t) (ltNs t) (ltFrac t) = t := by
  simp only [mkLt, ltSec, ltNs, ltFrac, secU, nsU]
  omega

theorem ltNs_lt (t : Nat) : ltNs t < 1000000000 := by
  simp only [ltNs, secU, nsU]
  omega

theorem ltFrac_lt (t : Nat) : ltFrac t < 65536 := Nat.mod_lt _ (by decide)

@[simp] theorem ltSec_mkLt {ns frac : Nat} (hn : ns < 1000000000) (hf : frac < 65536) (sec : Nat) :
    ltSec (mkLt sec ns frac) = sec := by
  simp only [mkLt, ltSec, secU, nsU]
  omega

@[simp] theorem ltNs_mkLt {ns frac : Nat} (hn : ns < 1000000000) (hf : frac < 65536) (sec : Nat) :
    ltNs (mkLt sec ns frac) = ns := by
  simp only [mkLt, ltNs, secU, nsU]
  omega

@[simp] theorem ltFrac_mkLt {frac : Nat} (hf : frac < 65536) (sec ns : Nat) :
    ltFrac (mkLt sec ns frac) = frac := by
  simp only [mkLt, ltFrac, secU, nsU]
  omega

/-- A tick of 1 ns is one more in the nanosecond field, which may then call for a carry. -/
theorem mkLt_add_nsU (sec ns frac : Nat) : mkLt sec ns frac + nsU = mkLt sec (ns + 1) frac := by
  simp only [mkLt, nsU]
  omega

/-- A nanosecond field of 1,000,000,000 is the next second. -/
theorem mkLt_carry (sec frac : Nat) : mkLt sec 1000000000 frac = mkLt (sec + 1) 0 frac := by
  simp only [mkLt, secU, nsU]
  omega

/-- R5: the carry into the seconds happens in the step of the tick. -/
theorem lt_tick (t : Nat) :
    ltFrac (t + nsU) = ltFrac t ∧ ltNs (t + nsU) = (if ltNs t = 999999999 then 0 else ltNs t + 1)
      ∧ ltSec (t + nsU) = (if ltNs t = 999999999 then ltSec t + 1 else ltSec t) := by
  have hf := ltFrac_lt t
  have htick : t + nsU = mkLt (ltSec t) (ltNs t + 1) (ltFrac t) := by
    rw [← mkLt_add_nsU, mkLt_fields]
  by_cases hlast : ltNs t = 999999999
  · have hcarry : t + nsU = mkLt (ltSec t + 1) 0 (ltFrac t) := by rw [htick, hlast, mkLt_carry]
    simp [hcarry, hlast, hf]
  · have hn : ltNs t + 1 < 1000000000 := by have := ltNs_lt t; omega
    simp [htick, hlast, hn, hf]

/-! ### An LT on the wire (R5) -/

theorem length_ltBytes (t : Nat) : (ltBytes t).length = 14 := by simp [ltBytes, length_beBytes]

theorem natAt_ltBytes_sec (t : Nat) : natAt (ltBytes t) 0 8 = ltSec t % 256 ^ 8 := by
  simpa [ltBytes] using natAt_beBytes [] (beBytes 4 (ltNs t) ++ beBytes 2 (ltFrac t)) 8 (ltSec t)

theorem natAt_ltBytes_ns (t : Nat) : natAt (ltBytes t) 8 4 = ltNs t % 256 ^ 4 := by
  simpa [ltBytes, length_beBytes] using
    natAt_beBytes (beBytes 8 (ltSec t)) (beBytes 2 (ltFrac t)) 4 (ltNs t)

theorem natAt_ltBytes_frac (t : Nat) : natAt (ltBytes t) 12 2 = ltFrac t % 256 ^ 2 := by
  simpa [ltBytes, length_beBytes] using
    natAt_beBytes (beBytes 8 (ltSec t) ++ beBytes 4 (ltNs t)) [] 2 (ltFrac t)

/-- An LT whose seconds fit their eight bytes reads back. -/
theorem ltAt_ltBytes {t : Nat} (ht : t < secU * 2 ^ 64) : ltAt (ltBytes t) 0 = some t := by
  have hsec : natAt (ltBytes t) 0 8 = ltSec t := by
    rw [natAt_ltBytes_sec]
    exact Nat.mod_eq_of_lt (Nat.div_lt_of_lt_mul ht)
  have hns : natAt (ltBytes t) (0 + 8) 4 = ltNs t := by
    rw [natAt_ltBytes_ns]
    exact Nat.mod_eq_of_lt (by have := ltNs_lt t; omega)
  have hfrac : natAt (ltBytes t) (0 + 12) 2 = ltFrac t := by
    rw [natAt_ltBytes_frac]
    exact Nat.mod_eq_of_lt (ltFrac_lt t)
  have hvalid : ltNs t ≤ 999999999 := Nat.le_of_lt_succ (ltNs_lt t)
  rw [ltAt, hsec, hns, hfrac, if_pos hvalid, mkLt_fields]

/-- A nanosecond field above 999,999,999 names no instant. -/
theorem ltAt_eq_none {bs : List Byte} {o : Nat} (h : 999999999 < natAt bs (o + 8) 4) :
    ltAt bs o = none := if_neg (by omega)

/-! ### Two's complement and short times (R7, R8) -/

theorem natCast_two_pow (w : Nat) : ((2 ^ w : Nat) : Int) = 2 ^ w := Int.natCast_pow 2 w

theorem emod_two_pow_nonneg (w : Nat) (i : Int) : 0 ≤ i % 2 ^ w :=
  Int.emod_nonneg i (Int.ne_of_gt (Int.pow_pos (by decide)))

theorem emod_two_pow_lt (w : Nat) (i : Int) : i % 2 ^ w < 2 ^ w :=
  Int.emod_lt_of_pos i (Int.pow_pos (by decide))

theorem natCast_twos (w : Nat) (i : Int) : (twos w i : Int) = i % 2 ^ w :=
  Int.toNat_of_nonneg (emod_two_pow_nonneg w i)

theorem twos_lt (w : Nat) (i : Int) : twos w i < 2 ^ w := by
  have hlt : (twos w i : Int) < ((2 ^ w : Nat) : Int) := by
    rw [natCast_twos, natCast_two_pow]
    exact emod_two_pow_lt w i
  exact Int.ofNat_lt.mp hlt

/-- The reading of the low bits of an integer is its balanced remainder. -/
theorem signed_twos (w : Nat) (i : Int) : signed (w + 1) (twos (w + 1) i) = i.bmod (2 ^ (w + 1)) := by
  have hhalf : ((2 : Int) ^ (w + 1) + 1) / 2 = 2 ^ w := by
    rw [Int.pow_succ]
    omega
  have hsmall : twos (w + 1) i < 2 ^ (w + 1 - 1) ↔ i % 2 ^ (w + 1) < 2 ^ w := by
    rw [← natCast_twos, Nat.add_sub_cancel, ← Int.ofNat_lt, natCast_two_pow]
  rw [signed, Int.bmod_def, natCast_two_pow, hhalf, Nat.mod_eq_of_lt (twos_lt ..), natCast_twos, Int.emod_emod]
  simp only [hsmall]

theorem stOf_mkLt_sec {ns : Nat} (hn : ns < 1000000000) (sec : Nat) :
    ((stOf (mkLt sec ns 0) : Nat) : Int) / 2 ^ 30 = (sec : Int) % (2 ^ 18 : Nat) := by
  rw [stOf, ltSec_mkLt hn (by decide), ltNs_mkLt hn (by decide)]
  omega

theorem stOf_mkLt_ns {ns : Nat} (hn : ns < 1000000000) (sec : Nat) :
    ((stOf (mkLt sec ns 0) : Nat) : Int) % 2 ^ 30 = (ns : Int) := by
  rw [stOf, ltSec_mkLt hn (by decide), ltNs_mkLt hn (by decide)]
  omega

/-- R8: the seconds of two STs differ by the balanced remainder, so the wrap of 18 bits does not show. -/
theorem stDiff_stOf {sa na sb nb : Nat} (ha : na < 1000000000) (hb : nb < 1000000000)
    (hab : sa < sb + 2 ^ 17) (hba : sb < sa + 2 ^ 17) :
    stDiff (stOf (mkLt sa na 0)) (stOf (mkLt sb nb 0))
      = ((sa : Int) - sb) * 1000000000 + ((na : Int) - nb) := by
  have hwrap : ((sa : Int) % (2 ^ 18 : Nat) - (sb : Int) % (2 ^ 18 : Nat)).bmod (2 ^ 18)
      = (sa : Int) - sb := by
    rw [Int.emod_sub_bmod, Int.sub_emod_bmod]
    exact Int.bmod_eq_of_le (by omega) (by omega)
  rw [stDiff, stOf_mkLt_sec ha, stOf_mkLt_sec hb, stOf_mkLt_ns ha, stOf_mkLt_ns hb, signed_twos, hwrap]

/-! ### The obligation -/

/-- Settles O58: the three fields read back from their bytes, a tick carries between them, and 18 bits of seconds fix a
difference below 2^17. -/
theorem timesOnTheWire : Obligations.TimesOnTheWire :=
  ⟨fun t ht => ⟨length_ltBytes t, ltAt_ltBytes ht⟩,
   fun _ _ h => ltAt_eq_none h,
   fun t => ⟨(mkLt_fields t).symm, ltNs_lt t, ltFrac_lt t⟩,
   lt_tick,
   fun _ _ _ _ => stDiff_stOf⟩

end Sys2Proof.Machine

/-! Rounding, saturation and the Compact word (R13, R14, R105, R179). -/
namespace Sys2Proof.Machine

/-! ### Rounding (R105) -/

theorem divAway_of_nonneg {a : Int} (ha : 0 ≤ a) (b : Nat) : divAway a b = (2 * a + b) / (2 * b) :=
  if_neg (by omega)

theorem divAway_of_neg {a : Int} (ha : a < 0) (b : Nat) : divAway a b = -divAway (-a) b := by
  rw [divAway, if_pos ha, divAway_of_nonneg (Int.neg_nonneg_of_nonpos (Int.le_of_lt ha))]

/-- Halves go away from zero on both sides, so rounding is symmetric. -/
theorem divAway_neg (a : Int) {b : Nat} (hb : 0 < b) : divAway (-a) b = -divAway a b := by
  rcases Int.lt_trichotomy a 0 with ha | rfl | ha
  · rw [divAway_of_neg ha, Int.neg_neg]
  · have hzero : divAway 0 b = 0 := by
      rw [divAway_of_nonneg (Int.le_refl 0)]
      exact Int.ediv_eq_zero_of_lt (by omega) (by omega)
    rw [Int.neg_zero, hzero, Int.neg_zero]
  · rw [divAway_of_neg (by omega), Int.neg_neg]

/-- A rounded quotient of a nonnegative number is off by at most one half. -/
theorem divAway_near_of_nonneg {a : Int} (ha : 0 ≤ a) {b : Nat} (hb : 0 < b) :
    2 * (divAway a b * b - a).natAbs ≤ b := by
  have hdiv : 2 * b * divAway a b + (2 * a + b) % (2 * b) = 2 * a + b := by
    rw [divAway_of_nonneg ha, Int.mul_ediv_add_emod]
  have hlow : 0 ≤ (2 * a + b) % (2 * b : Int) := Int.emod_nonneg _ (by omega)
  have hhigh : (2 * a + b) % (2 * b : Int) < 2 * b := Int.emod_lt_of_pos _ (by omega)
  have hcomm : 2 * b * divAway a b = 2 * (divAway a b * b) := by
    rw [Int.mul_assoc, Int.mul_comm (b : Int)]
  omega

theorem divAway_near (a : Int) {b : Nat} (hb : 0 < b) : 2 * (divAway a b * b - a).natAbs ≤ b := by
  by_cases ha : 0 ≤ a
  · exact divAway_near_of_nonneg ha hb
  · have hmirror : divAway a b * b - a = -(divAway (-a) b * b - -a) := by
      rw [divAway_neg a hb, Int.neg_mul]
      omega
    rw [hmirror, Int.natAbs_neg]
    exact divAway_near_of_nonneg (by omega) hb

/-! ### Saturation (R13) -/

theorem clampI_eq_max_min {lo hi : Int} (h : lo ≤ hi) (i : Int) : clampI lo hi i = max lo (min hi i) := by
  unfold clampI
  split
  · omega
  · split <;> omega

theorem satWide_eq_max_min (v : Int) : satWide v = max (-2147483647) (min 2147483647 v) :=
  clampI_eq_max_min (by decide) v

theorem le_satWide (v : Int) : -2147483647 ≤ satWide v := by
  rw [satWide_eq_max_min]
  omega

theorem satWide_le (v : Int) : satWide v ≤ 2147483647 := by
  rw [satWide_eq_max_min]
  omega

theorem satWide_of_mem {v : Int} (hl : -2147483647 ≤ v) (hh : v ≤ 2147483647) : satWide v = v := by
  rw [satWide_eq_max_min]
  omega

/-- The lower limit of a Wide value lies above the INVALID pattern. -/
theorem ne_wideInvalid {v : Int} (h : -2147483647 ≤ v) : v ≠ wideInvalid := by
  unfold wideInvalid
  omega

/-! ### The Compact word (R14) -/

theorem signed_twos_of_mem {w : Nat} {i : Int} (hl : -2 ^ w ≤ i) (hh : i < 2 ^ w) :
    signed (w + 1) (twos (w + 1) i) = i := by
  have hdouble : ((2 ^ (w + 1) : Nat) : Int) = 2 ^ w * 2 := by rw [natCast_two_pow, Int.pow_succ]
  rw [signed_twos]
  exact Int.bmod_eq_of_le (by omega) (by omega)

theorem compact24_of_valid {v : Int} (hv : v ≠ wideInvalid) :
    compact24 v = twos 24 (max (-0x7FFFFF) (min 0x7FFFFF ((v + 0x80) / 2 ^ 8))) := by
  rw [compact24, if_neg hv, clampI_eq_max_min (by decide)]
  rfl

theorem compact24_lt (v : Int) : compact24 v < 2 ^ 24 := by
  unfold compact24
  split
  · decide
  · exact twos_lt ..

theorem signed_compact24 {v : Int} (hv : v ≠ wideInvalid) :
    signed 24 (compact24 v) = max (-0x7FFFFF) (min 0x7FFFFF ((v + 0x80) / 2 ^ 8)) := by
  rw [compact24_of_valid hv]
  exact signed_twos_of_mem (w := 23) (by omega) (by omega)

/-- The quality byte of a Compact word. -/
theorem compactWord_mod (v : Int) (q : Nat) : compactWord v q % 256 = q % 256 := by
  unfold compactWord
  omega

/-- The value bits of a Compact word. -/
theorem compactWord_div (v : Int) (q : Nat) :
    compactWord v q / 256 = if isInvalid q then 0x800000 else compact24 v := by
  unfold compactWord
  omega

theorem compactWord_lt (v : Int) (q : Nat) : compactWord v q < 2 ^ 32 := by
  have hvalue : compactWord v q / 256 < 2 ^ 24 := by
    rw [compactWord_div]
    split
    · decide
    · exact compact24_lt v
  omega

/-! ### The obligation -/

/-- Settles O59: saturation is a clamp whose lower limit is above the INVALID pattern, rounding is a division with
half the divisor added, and the two parts of a Compact word read back. -/
theorem numbers : Obligations.Numbers := by
  refine ⟨fun v => ⟨le_satWide v, satWide_le v, ne_wideInvalid (le_satWide v)⟩,
    fun v => satWide_of_mem,
    fun a b hb => ⟨divAway_near a hb, divAway_neg a hb⟩,
    fun v q hl _ hq => ⟨compactWord_lt v q, ?quality, ?invalid, ?valid⟩⟩
  case quality => rw [compactWord_mod, Nat.mod_eq_of_lt hq]
  case invalid => intro hinv; rw [compactWord_div, if_pos hinv]
  case valid =>
    intro hval
    rw [compactWord_div, if_neg (by simp [hval]), signed_compact24 (ne_wideInvalid hl)]

end Sys2Proof.Machine

/-! What the events of a compare unit leave alone of Spindle (R69, R71): raising a source, capture events,
ring triggers, snapshots. -/
namespace Sys2Proof.Machine

/-! ### One bit of a word -/

theorem testBit_eq_bitsOf (v k : Nat) : v.testBit k = decide (bitsOf v k k = 1) := by
  simp [bitsOf, Nat.testBit_eq_decide_div_mod_eq]

theorem testBit_putBits_one (v k j : Nat) : (putBits v k k 1).testBit j = (decide (j = k) || v.testBit j) := by
  rcases Nat.lt_trichotomy j k with h | rfl | h
  · rw [testBit_eq_bitsOf, bitsOf_putBits_below (Nat.le_refl j) h, ← testBit_eq_bitsOf]
    simp [Nat.ne_of_lt h]
  · rw [testBit_eq_bitsOf, bitsOf_putBits_self]
    simp
  · rw [testBit_eq_bitsOf, bitsOf_putBits_above (Nat.le_refl k) h, ← testBit_eq_bitsOf]
    simp [Nat.ne_of_gt h]

theorem sticky_injective {i j : Nat} (h : R.FLT_STICKY i = R.FLT_STICKY j) : i = j := by
  unfold R.FLT_STICKY at h
  omega

/-- A source made sticky leaves the others as they are. -/
theorem srcBit_setSrcBit_true (s : State) (src n : Nat) :
    (s.setSrcBit R.FLT_STICKY src true).srcBit R.FLT_STICKY n = (decide (n = src) || s.srcBit R.FLT_STICKY n) := by
  unfold State.srcBit State.setSrcBit
  by_cases h : n / 32 = src / 32
  · have hbit : n % 32 = src % 32 ↔ n = src := by omega
    have hlt := putBits_lt (s.reg (R.FLT_STICKY (src / 32))).isLt (Nat.le_refl (src % 32)) (Nat.mod_lt _ (by decide)) 1
    rw [h, reg_setReg_self, BitVec.toNat_ofNat, b2n, if_pos rfl, Nat.mod_eq_of_lt hlt, testBit_putBits_one]
    simp only [hbit]
  · have hne : n ≠ src := fun e => h (congrArg (· / 32) e)
    rw [reg_setReg_ne s _ (fun e => h (sticky_injective e))]
    simp [hne]

/-! ### Loops -/

/-- Every step of a loop keeps what each of its passes keeps, for the entries of its list. -/
theorem forEach_keeps {α : Type} {P : State → Prop} {f : State → α → State} {l : List α} {s : State} (h : P s)
    (hf : ∀ x ∈ l, ∀ s, P s → P (f s x)) : P (s.forEach l f) := by
  induction l generalizing s with
  | nil => exact h
  | cons x l ih => exact ih (hf x List.mem_cons_self s h) (fun y hy => hf y (List.mem_cons_of_mem _ hy))

/-- The pass of one entry, among those of the others before and after it. -/
theorem forEach_split {α : Type} {l : List α} (hl : l.Nodup) {x : α} (hx : x ∈ l) (s : State) (f : State → α → State) :
    ∃ l₁ l₂, (∀ y ∈ l₁, y ∈ l ∧ y ≠ x) ∧ (∀ y ∈ l₂, y ∈ l ∧ y ≠ x)
      ∧ s.forEach l f = (f (s.forEach l₁ f) x).forEach l₂ f := by
  obtain ⟨l₁, l₂, rfl⟩ := List.append_of_mem hx
  obtain ⟨-, htail, hapart⟩ := List.nodup_append.1 hl
  refine ⟨l₁, l₂, fun y hy => ⟨List.mem_append_left _ hy, hapart y hy x List.mem_cons_self⟩,
    fun y hy => ⟨List.mem_append_right _ (List.mem_cons_of_mem _ hy), fun e => (List.nodup_cons.1 htail).1 (e ▸ hy)⟩, ?_⟩
  rw [State.forEach, List.foldl_append, List.foldl_cons, State.forEach, State.forEach]

/-! ### Agreement about Spindle -/

/-- `t` agrees with `s` about Spindle's registers, its state and the time, but for the pulses of TRIG_OUT and the compare
units in `U`; and a source that is sticky in `s` is so in `t`. -/
structure SpindleFrame (U : Nat → Prop) (s t : State) : Prop where
  lt : t.lt = s.lt
  always : t.always = s.always
  held : t.held = s.held
  spn : ∃ c p, t.spn = { s.spn with cmps := c, pulses := p }
  unit : ∀ m, ¬U m → t.cmpU m = s.cmpU m
  reg : ∀ a, 0x10000 ≤ a → a < 0x20000 → (∀ m, U m → a ≠ R.CMP_CTRL m) → t.reg a = s.reg a
  sticky : ∀ n, n < 256 → s.srcBit R.FLT_STICKY n = true → t.srcBit R.FLT_STICKY n = true

/-- A register outside Spindle's block and the sticky bits. -/
abbrev FarReg (a : Nat) : Prop := (a < 0x10000 ∨ 0x20000 ≤ a) ∧ (a < 0x20120 ∨ 0x20140 ≤ a)

variable {U : Nat → Prop} {s₀ s t u : State}

namespace SpindleFrame

theorem refl (s : State) : SpindleFrame U s s :=
  ⟨rfl, rfl, rfl, ⟨_, _, rfl⟩, fun _ _ => rfl, fun _ _ _ _ => rfl, fun _ _ h => h⟩

theorem trans (h : SpindleFrame U s t) (g : SpindleFrame U t u) : SpindleFrame U s u where
  lt := g.lt.trans h.lt
  always := g.always.trans h.always
  held := g.held.trans h.held
  spn := by
    obtain ⟨c, p, hc⟩ := h.spn
    obtain ⟨c', p', hc'⟩ := g.spn
    exact ⟨c', p', by rw [hc', hc]⟩
  unit m hm := (g.unit m hm).trans (h.unit m hm)
  reg a h1 h2 h3 := (g.reg a h1 h2 h3).trans (h.reg a h1 h2 h3)
  sticky n hn hs := g.sticky n hn (h.sticky n hn hs)

theorem setReg {a : Nat} (h : SpindleFrame U s t) (ha : FarReg a) (w : Word) : SpindleFrame U s (t.setReg a w) := by
  obtain ⟨hspindle, hsticky⟩ := ha
  refine ⟨h.lt, h.always, h.held, h.spn, h.unit, fun b h1 h2 h3 => ?_, fun n hn hs => ?_⟩
  · rw [reg_setReg_ne t w (by omega), h.reg b h1 h2 h3]
  · have hne : R.FLT_STICKY (n / 32) ≠ a := by unfold R.FLT_STICKY; omega
    rw [State.srcBit, reg_setReg_ne t w hne]
    exact h.sticky n hn hs

theorem setFld {a : Nat} (h : SpindleFrame U s t) (ha : FarReg a) (f : Fld) (v : Nat) : SpindleFrame U s (t.setFld a f v) :=
  h.setReg ha _

theorem setSticky (h : SpindleFrame U s t) (src : Nat) : SpindleFrame U s (t.setSrcBit R.FLT_STICKY src true) := by
  refine ⟨h.lt, h.always, h.held, h.spn, h.unit, fun b h1 h2 h3 => ?_, fun n hn hs => ?_⟩
  · rw [State.setSrcBit, reg_setReg_ne t _ (by unfold R.FLT_STICKY; omega), h.reg b h1 h2 h3]
  · rw [srcBit_setSrcBit_true, h.sticky n hn hs, Bool.or_true]

theorem keepOut : KeepOut (SpindleFrame U s₀) where
  bus _ _ h := ⟨h.lt, h.always, h.held, h.spn, h.unit, h.reg, h.sticky⟩
  out _ _ h := ⟨h.lt, h.always, h.held, h.spn, h.unit, h.reg, h.sticky⟩
  free _ _ h := ⟨h.lt, h.always, h.held, h.spn, h.unit, h.reg, h.sticky⟩
theorem keepFlt : KeepFlt (SpindleFrame U s₀) where
  flt _ _ h := ⟨h.lt, h.always, h.held, h.spn, h.unit, h.reg, h.sticky⟩
  stopReq _ _ h := ⟨h.lt, h.always, h.held, h.spn, h.unit, h.reg, h.sticky⟩
theorem keepLog : KeepLog (SpindleFrame U s₀) where
  setByte _ _ _ _ _ h := ⟨h.lt, h.always, h.held, h.spn, h.unit, h.reg, h.sticky⟩
theorem keepRgn : KeepRgn (SpindleFrame U s₀) where
  setRg _ _ _ h := ⟨h.lt, h.always, h.held, h.spn, h.unit, h.reg, h.sticky⟩
theorem keepStr : KeepStr (SpindleFrame U s₀) where
  setStr _ _ _ h := ⟨h.lt, h.always, h.held, h.spn, h.unit, h.reg, h.sticky⟩
theorem keepCap : KeepCap (SpindleFrame U s₀) where
  setCp _ _ _ h := ⟨h.lt, h.always, h.held, h.spn, h.unit, h.reg, h.sticky⟩
theorem keepGaps : KeepGaps (SpindleFrame U s₀) where
  gapStore _ _ h := ⟨h.lt, h.always, h.held, h.spn, h.unit, h.reg, h.sticky⟩
  seenTrig _ _ h := ⟨h.lt, h.always, h.held, h.spn, h.unit, h.reg, h.sticky⟩
theorem keepLnk : KeepLnk (SpindleFrame U s₀) where
  setLk _ _ _ h := ⟨h.lt, h.always, h.held, h.spn, h.unit, h.reg, h.sticky⟩

/-! #### Raising a source that calls for no test -/

theorem farReg_fltList (src : Nat) {x : Nat} : FarReg (R.FLT_LIST src x) := by unfold R.FLT_LIST; omega
theorem farReg_fltCnt (n : Nat) : FarReg (R.FLT_CNT n) := by unfold R.FLT_CNT; omega
theorem farReg_capStat (b : Nat) : FarReg (R.CAP_STAT b) := by unfold R.CAP_STAT; omega
theorem farReg_rgnSeqCmpl (g : Nat) : FarReg (R.RGN_SEQ_CMPL g) := by unfold R.RGN_SEQ_CMPL; omega

theorem updAlive (h : SpindleFrame U s t) : SpindleFrame U s t.updAlive :=
  have far : FarReg R.FLT_ALIVE := by decide
  ((((h.setFld far _ _).setFld far _ _).setFld far _ _).setFld far _ _).setFld far _ _

theorem setListBit (h : SpindleFrame U s t) (src inst : Nat) (b : Bool) : SpindleFrame U s (t.setListBit src inst b) := by
  unfold State.setListBit
  split
  · exact h.setReg (farReg_fltList src) _
  · exact h

theorem writeLog (h : SpindleFrame U s t) (bytes : List Byte) (hl : bytes.length ≤ 32) :
    SpindleFrame U s (t.writeLog bytes) := by
  have far : FarReg R.FLT_LOG := by decide
  unfold State.writeLog
  extract_lets w r s1 s2 s3
  have hw : w < 256 := Nat.mod_lt _ (by decide)
  have h1 : SpindleFrame U s s1 := by
    unfold s1
    split
    · exact (h.setFld far _ _).setFld far _ _
    · exact h
  have h2 : SpindleFrame U s s2 := keep_logBytes keepLog (by omega) (by omega) h1
  exact keepFlt.flt _ _ (h2.setFld far _ _)

/-- After its sticky bit, a recorded event touches nothing of Spindle. -/
theorem record_sticky (s : State) (src inst detail : Nat) (real queued : Bool) :
    SpindleFrame U (s.setSrcBit R.FLT_STICKY src true) (s.record src inst detail real queued) := by
  unfold State.record
  extract_lets known forced cls s1 s2 latch s3
  have h2 : SpindleFrame U s1 s2 := by
    unfold s2
    split
    · exact refl s1
    · exact (refl s1).setListBit src inst true
  have h3 : SpindleFrame U s1 s3 := by
    unfold s3
    split
    · split
      · exact ((h2.setReg (by decide) _).setReg (by decide) _).setReg (by decide) _
      · exact (h2.setFld (by decide) _ _).setFld (by decide) _ _
    · exact h2
  split
  · split
    · exact h3.setFld (farReg_fltCnt _) _ _
    · exact h3.writeLog _ (Nat.le_of_eq (length_logEntry ..))
  · exact h2

/-- After its sticky bit, an event of a source that calls for no test touches nothing of Spindle. -/
theorem raiseD_sticky {src inst detail : Nat} (hd : sourceDefined src = true) (ht : s.testTargets src inst detail none = []) :
    SpindleFrame U (s.setSrcBit R.FLT_STICKY src true) (s.raiseD src inst detail) := by
  have hevent : s.raiseWith src inst detail true = ((s.record src inst detail true false).stopRequest src).updAlive := by
    unfold State.raiseWith State.raiseAt
    simp only [hd, ht, State.queueTests]
    cases s.flt.running <;> simp
  rw [State.raiseD, hevent]
  exact keep_markHigh keepFlt (updAlive (keep_stopRequest keepFlt (record_sticky ..)))

theorem raiseD (h : SpindleFrame U s₀ s) {src inst detail : Nat} (hd : sourceDefined src = true)
    (ht : s.testTargets src inst detail none = []) : SpindleFrame U s₀ (s.raiseD src inst detail) :=
  (h.setSticky src).trans (raiseD_sticky hd ht)

/-! #### Events for the capture buffers, ring triggers and snapshots -/

theorem setCapState (h : SpindleFrame U s t) (b v : Nat) : SpindleFrame U s (t.setCapState b v) :=
  h.setFld (farReg_capStat b) _ _

theorem capRearm (h : SpindleFrame U s t) (b : Nat) : SpindleFrame U s (t.capRearm b) := by
  unfold State.capRearm
  extract_lets x
  split <;> exact (keepCap.setCp _ _ _ h).setCapState b _

theorem capIdleNow (h : SpindleFrame U s t) (b : Nat) : SpindleFrame U s (t.capIdleNow b) :=
  (keepCap.setCp _ _ _ h).setCapState b _

theorem capDisarmNow (h : SpindleFrame U s t) (b : Nat) : SpindleFrame U s (t.capDisarmNow b) :=
  keepCap.setCp _ _ _ (h.capIdleNow b)

theorem capArmNow (h : SpindleFrame U s t) (b time : Nat) : SpindleFrame U s (t.capArmNow b time) :=
  (keepCap.setCp _ _ _ h).capRearm b

theorem capSync (h : SpindleFrame U s t) (b : Nat) : SpindleFrame U s (t.capSync b) := by
  unfold State.capSync
  extract_lets t1
  have h1 : SpindleFrame U s t1 := by
    unfold t1
    split
    · exact ite_keep (fun _ => h.capDisarmNow b) (fun _ => h)
    · exact h
  split
  · exact ite_keep (fun _ => h1.capArmNow b _) (fun _ => h1)
  · exact h1

theorem offerEvent (h : SpindleFrame U s t) (b : Nat) (e : CapEvent) : SpindleFrame U s (t.offerEvent b e) := by
  unfold State.offerEvent
  extract_lets x on t1
  have h1 : SpindleFrame U s t1 := keepCap.setCp _ _ _ h
  split
  · exact ite_keep (fun _ => (h1.setFld (farReg_capStat b) _ _).raiseD (by decide) rfl) (fun _ => h1)
  · exact h

theorem trigPulse (h : SpindleFrame U s t) (us : Nat) : SpindleFrame U s (t.trigPulse us) := by
  unfold State.trigPulse
  refine ite_keep (fun _ => h) (fun _ => keepOut.out _ _ ?_)
  obtain ⟨c, p, hspn⟩ := h.spn
  exact ⟨h.lt, h.always, h.held, ⟨c, _, by rw [hspn]⟩, h.unit, h.reg, h.sticky⟩

theorem ringEvent (h : SpindleFrame U s t) (line time origin : Nat) : SpindleFrame U s (t.ringEvent line time origin) := by
  unfold State.ringEvent
  exact keep_forEach (ite_keep (fun _ => h.trigPulse 1) (fun _ => h)) (fun _ b hs => (hs.capSync b).offerEvent b _)

theorem sendTrigger (h : SpindleFrame U s t) (line time : Nat) : SpindleFrame U s (t.sendTrigger line time) := by
  unfold State.sendTrigger
  extract_lets key t1 t2
  have h2 : SpindleFrame U s t2 := keep_sendVc1 keepOut keepGaps keepLnk (keepGaps.seenTrig _ _ h)
  split
  · exact h
  · exact ite_keep (fun _ => h2.ringEvent _ _ _) (fun _ => h2)

theorem forwardEvent (h : SpindleFrame U s t) (b : Nat) (e : CapEvent) : SpindleFrame U s (t.forwardEvent b e) := by
  unfold State.forwardEvent
  exact ite_keep (fun _ => h)
    (fun _ => keep_forEach h (fun _ _ hs => ite_keep (fun _ => hs.sendTrigger _ _) (fun _ => hs)))

theorem capEvent (h : SpindleFrame U s t) (typ param time : Nat) : SpindleFrame U s (t.capEvent typ param time) :=
  keep_forEach h (fun _ b hs => ((hs.capSync b).offerEvent b _).forwardEvent b _)

theorem snapRequest (h : SpindleFrame U s t) (time cause : Nat) (late : Bool) :
    SpindleFrame U s (t.snapRequest time cause late).1 := by
  have far : FarReg R.SNAP_STAT := by decide
  unfold State.snapRequest
  extract_lets t1
  have h1 : SpindleFrame U s t1 := by
    unfold t1
    exact ite_keep (fun _ => h.setFld far _ _) (fun _ => h)
  have hsnap : ∀ x, SpindleFrame U s { t1 with snap := x } := fun _ =>
    ⟨h1.lt, h1.always, h1.held, h1.spn, h1.unit, h1.reg, h1.sticky⟩
  split
  · exact hsnap _
  · split
    · exact (hsnap _).setFld far _ _
    · split
      · exact h1.setFld far _ _
      · exact hsnap _

theorem snapLocal (h : SpindleFrame U s t) (req time cause : Nat) (late fwd : Bool) :
    SpindleFrame U s (t.snapLocal req time cause late fwd) := by
  unfold State.snapLocal
  split
  · have hreq := h.snapRequest (max time (req + 50000 * nsU)) cause late
    dsimp only
    exact ite_keep (fun _ => keep_sendVc1 keepOut keepGaps keepLnk hreq) (fun _ => hreq)
  · exact h.snapRequest time cause late

theorem cmpActions (h : SpindleFrame U s t) (m time : Nat) : SpindleFrame U s (t.cmpActions m time) := by
  unfold State.cmpActions
  extract_lets a t1 t2 t3
  have h1 : SpindleFrame U s t1 := h.trigPulse _
  have h2 : SpindleFrame U s t2 := ite_keep (fun _ => h1.snapLocal ..) (fun _ => h1)
  have h3 : SpindleFrame U s t3 := ite_keep (fun _ => h2.capEvent ..) (fun _ => h2)
  refine ite_keep (fun _ => keep_forEach h3 (fun v g hv => ?_)) (fun _ => h3)
  exact (ite_keep (P := SpindleFrame U s) (fun _ => hv) (fun _ => keepRgn.setRg _ _ _ hv)).setFld (farReg_rgnSeqCmpl g) _ _

end SpindleFrame
end Sys2Proof.Machine

/-! The compare units: arming, late targets, firing (R9, R69 to R72). -/
namespace Sys2Proof.Machine

variable {U : Nat → Prop} {s₀ s t u : State}

/-! ### Fields and time -/

/-- A count field reads its sum, saturated. -/
theorem fld_bumpBy_self (s : State) (a : Nat) (f : Fld) (n : Nat) (hl : f.lo ≤ f.hi) (h : f.hi < 32) :
    (s.bumpBy a f n).fld a f = satInc (f.hi - f.lo + 1) (s.fld a f) n := by
  rw [State.bumpBy, fld_setFld_self s a f _ hl h, Nat.mod_eq_of_lt]
  have hpos : 0 < 2 ^ (f.hi - f.lo + 1) := Nat.two_pow_pos _
  unfold satInc
  omega

@[simp] theorem moveTo_regs (s : State) (n : Nat) : (s.moveTo n).regs = s.regs := by
  unfold State.moveTo
  split <;> simp
@[simp] theorem moveTo_spn (s : State) (n : Nat) : (s.moveTo n).spn = s.spn := by
  unfold State.moveTo
  split <;> simp
@[simp] theorem moveTo_out (s : State) (n : Nat) : (s.moveTo n).out = s.out := by
  unfold State.moveTo
  split <;> simp

/-- While the timing core runs, time reaches the instant of an event. -/
theorem moveTo_lt (n : Nat) (hawake : s.awake = true) (hclk : s.spn.refclk = true) : (s.moveTo n).lt = max s.lt n := by
  unfold State.moveTo
  split
  · simp only [State.pass, hawake, hclk, Bool.and_self, if_true]
    omega
  · omega

/-! ### A write of a register by its fields -/

theorem reg_noteIgnored_ne (a : Nat) {b : Nat} (herr : b ≠ R.GLB_ACCERR) (hadr : b ≠ R.GLB_ACCADR) :
    (s.noteIgnored a).reg b = s.reg b := by
  rw [State.noteIgnored, reg_setReg_ne _ _ hadr, State.bump, State.bumpBy, State.setFld, reg_setReg_ne _ _ herr,
    State.setFlag, State.setFld, reg_setReg_ne _ _ herr]

theorem reg_writeFlds_ne {a b : Nat} (flds : List Fld) (v : Word) (h : b ≠ a) (herr : b ≠ R.GLB_ACCERR)
    (hadr : b ≠ R.GLB_ACCADR) : (s.writeFlds a flds v).reg b = s.reg b := by
  unfold State.writeFlds
  dsimp only
  split
  · rw [reg_noteIgnored_ne a herr hadr, reg_setReg_ne _ _ h]
  · rw [reg_setReg_ne _ _ h]

theorem reg_writeFlds_self {a : Nat} (flds : List Fld) (v : Word) (herr : a ≠ R.GLB_ACCERR) (hadr : a ≠ R.GLB_ACCADR) :
    (s.writeFlds a flds v).reg a = BitVec.ofNat 32 (wordWrite flds (s.reg a).toNat v.toNat) := by
  unfold State.writeFlds
  dsimp only
  split
  · rw [reg_noteIgnored_ne a herr hadr, reg_setReg_self]
  · rw [reg_setReg_self]

@[simp] theorem writeFlds_spn (a : Nat) (flds : List Fld) (v : Word) : (s.writeFlds a flds v).spn = s.spn :=
  keep_writeFlds (P := fun t => t.spn = s.spn) ⟨fun _ _ _ h => h⟩ rfl
@[simp] theorem writeFlds_lt (a : Nat) (flds : List Fld) (v : Word) : (s.writeFlds a flds v).lt = s.lt :=
  keep_writeFlds (P := fun t => t.lt = s.lt) ⟨fun _ _ _ h => h⟩ rfl
@[simp] theorem writeFlds_held (a : Nat) (flds : List Fld) (v : Word) : (s.writeFlds a flds v).held = s.held :=
  keep_writeFlds (P := fun t => t.held = s.held) ⟨fun _ _ _ h => h⟩ rfl

/-! ### The state of a compare unit -/

@[simp] theorem cmpU_setCmpU_self (s : State) (m : Nat) (x : Int) : (s.setCmpU m x).cmpU m = ⟨x⟩ := tabGet_tabPut_self ..
theorem cmpU_setCmpU_ne (s : State) {m j : Nat} (x : Int) (h : j ≠ m) : (s.setCmpU m x).cmpU j = s.cmpU j :=
  tabGet_tabPut_ne _ _ _ h

theorem fld_setCmpU (s : State) (m a : Nat) (x : Int) (f : Fld) : (s.setCmpU m x).fld a f = s.fld a f := rfl
theorem cmpArmed_setCmpU (s : State) (m j : Nat) (x : Int) : (s.setCmpU m x).cmpArmed j = s.cmpArmed j := rfl
theorem pulses_setCmpU (s : State) (m : Nat) (x : Int) : (s.setCmpU m x).spn.pulses = s.spn.pulses := rfl

theorem cmpPer_of_reg {m : Nat} (h : t.reg (R.CMP_PER m) = s.reg (R.CMP_PER m)) : t.cmpPer m = s.cmpPer m := by
  unfold State.cmpPer
  rw [h]

namespace SpindleFrame

/-- A write to the control register of a unit that may change. -/
theorem setCtrl {m : Nat} (h : SpindleFrame U s t) (hU : U m) (hm : m < 16) (f : Fld) (v : Nat) :
    SpindleFrame U s (t.setFld (R.CMP_CTRL m) f v) := by
  refine ⟨h.lt, h.always, h.held, h.spn, h.unit, fun b h1 h2 h3 => ?_, fun n hn hs => ?_⟩
  · rw [State.setFld, reg_setReg_ne t _ (h3 m hU), h.reg b h1 h2 h3]
  · have hne : R.FLT_STICKY (n / 32) ≠ R.CMP_CTRL m := by unfold R.FLT_STICKY R.CMP_CTRL; omega
    rw [State.srcBit, State.setFld, reg_setReg_ne t _ hne]
    exact h.sticky n hn hs

theorem setCmpU {m : Nat} (h : SpindleFrame U s t) (hU : U m) (x : Int) : SpindleFrame U s (t.setCmpU m x) := by
  obtain ⟨c, p, hspn⟩ := h.spn
  refine ⟨h.lt, h.always, h.held, ?_, fun j hj => ?_, h.reg, h.sticky⟩
  · rw [State.setCmpU, hspn]
    exact ⟨_, _, rfl⟩
  · rw [cmpU_setCmpU_ne t x (fun e => hj (by rwa [e])), h.unit j hj]

/-- The control register of a unit outside `U`. -/
theorem ctrl {m : Nat} (h : SpindleFrame U s t) (hU : ¬U m) (hm : m < 16) : t.reg (R.CMP_CTRL m) = s.reg (R.CMP_CTRL m) :=
  h.reg _ (by unfold R.CMP_CTRL; omega) (by unfold R.CMP_CTRL; omega) (fun j hj e => by
    have : m = j := by unfold R.CMP_CTRL at e; omega
    exact hU (this ▸ hj))

/-- The registers of a unit's target and period are no unit's control register. -/
theorem target {m : Nat} (h : SpindleFrame U s t) (hm : m < 16) : t.reg (R.CMP_T m) = s.reg (R.CMP_T m) :=
  h.reg _ (by unfold R.CMP_T; omega) (by unfold R.CMP_T; omega) (fun j _ => by unfold R.CMP_T R.CMP_CTRL; omega)
theorem targetHi {m : Nat} (h : SpindleFrame U s t) (hm : m < 16) : t.reg (R.CMP_T_HI m) = s.reg (R.CMP_T_HI m) :=
  h.reg _ (by unfold R.CMP_T_HI; omega) (by unfold R.CMP_T_HI; omega) (fun j _ => by unfold R.CMP_T_HI R.CMP_CTRL; omega)
theorem cmpPer {m : Nat} (h : SpindleFrame U s t) (hm : m < 16) : t.cmpPer m = s.cmpPer m :=
  cmpPer_of_reg (h.reg _ (by unfold R.CMP_PER; omega) (by unfold R.CMP_PER; omega)
    (fun j _ => by unfold R.CMP_PER R.CMP_CTRL; omega))

end SpindleFrame

/-- Source 139 (R71) calls for no test. -/
theorem raise139_sticky (s : State) (m : Nat) : SpindleFrame U (s.setSrcBit R.FLT_STICKY 139 true) (s.raise 139 m) :=
  SpindleFrame.raiseD_sticky (by decide) rfl
theorem SpindleFrame.raise139 (h : SpindleFrame U s t) (m : Nat) : SpindleFrame U s (t.raise 139 m) :=
  h.raiseD (by decide) rfl
theorem srcBit_raise139 (s : State) (m : Nat) : (s.raise 139 m).srcBit R.FLT_STICKY 139 = true :=
  (raise139_sticky (U := fun _ => False) s m).sticky 139 (by decide) (by rw [srcBit_setSrcBit_true]; rfl)
theorem fld_raise139 (s : State) (m : Nat) {i : Nat} (hi : i < 16) (f : Fld) :
    (s.raise 139 m).fld (R.CMP_CTRL i) f = s.fld (R.CMP_CTRL i) f := by
  have h := ((SpindleFrame.refl (U := fun _ => False) s).raise139 m).ctrl id hi
  unfold State.fld
  rw [h]

/-- What a late compare unit shows: LATE, source 139 and its count of missed targets. -/
structure LateMark (t : State) (m missed : Nat) : Prop where
  late : t.flag (R.CMP_CTRL m) F.CMP_CTRL_LATE = true
  source : t.srcBit R.FLT_STICKY 139 = true
  missed : t.fld (R.CMP_CTRL m) F.CMP_CTRL_MISSED = missed

/-- A unit that has been late, and where it stands then: disarmed when one-shot, else armed for its next target. -/
structure LateCmp (t : State) (m missed per : Nat) (next : Int) : Prop extends LateMark t m missed where
  oneShot : per = 0 → t.cmpArmed m = false
  periodic : per ≠ 0 → t.cmpArmed m = true ∧ (t.cmpU m).target = next

/-! Fields of the control register, one write after another. -/

theorem flag_late_setLate (s : State) (m : Nat) :
    (s.setFlag (R.CMP_CTRL m) F.CMP_CTRL_LATE true).flag (R.CMP_CTRL m) F.CMP_CTRL_LATE = true :=
  flag_setFlag_self s _ _ true rfl (by decide)
theorem fld_missed_setLate (s : State) (m : Nat) :
    (s.setFlag (R.CMP_CTRL m) F.CMP_CTRL_LATE true).fld (R.CMP_CTRL m) F.CMP_CTRL_MISSED
      = s.fld (R.CMP_CTRL m) F.CMP_CTRL_MISSED :=
  fld_setFld_disjoint s _ _ _ _ (by decide) (by decide) (by decide) (by decide)
theorem flag_late_bumpMissed (s : State) (m n : Nat) :
    (s.bumpBy (R.CMP_CTRL m) F.CMP_CTRL_MISSED n).flag (R.CMP_CTRL m) F.CMP_CTRL_LATE
      = s.flag (R.CMP_CTRL m) F.CMP_CTRL_LATE := by
  rw [State.flag, State.bumpBy, fld_setFld_disjoint s _ _ _ _ (by decide) (by decide) (by decide) (by decide), State.flag]
theorem fld_missed_bumpMissed (s : State) (m n : Nat) :
    (s.bumpBy (R.CMP_CTRL m) F.CMP_CTRL_MISSED n).fld (R.CMP_CTRL m) F.CMP_CTRL_MISSED
      = satInc 8 (s.fld (R.CMP_CTRL m) F.CMP_CTRL_MISSED) n :=
  fld_bumpBy_self s _ _ n (by decide) (by decide)
/-- ARMED is the field at bit 1; those above it are left alone by a write of it. -/
theorem fld_setArmed (s : State) (m : Nat) (b : Bool) {f : Fld} (hlo : 1 < f.lo) (hhi : f.lo ≤ f.hi) :
    (s.setFlag (R.CMP_CTRL m) F.CMP_CTRL_ARMED b).fld (R.CMP_CTRL m) f = s.fld (R.CMP_CTRL m) f :=
  fld_setFld_disjoint s _ F.CMP_CTRL_ARMED f _ (by decide) (by decide) hhi (.inl hlo)
theorem cmpArmed_setFlag (s : State) (m : Nat) (b : Bool) :
    (s.setFlag (R.CMP_CTRL m) F.CMP_CTRL_ARMED b).cmpArmed m = b :=
  flag_setFlag_self s _ _ b rfl (by decide)

namespace LateMark
variable {m missed per : Nat} {next : Int}

theorem setArmed (h : LateMark t m missed) (hm : m < 16) (b : Bool) :
    LateMark (t.setFlag (R.CMP_CTRL m) F.CMP_CTRL_ARMED b) m missed := by
  refine ⟨?_, ((SpindleFrame.refl (U := (· = m)) t).setCtrl rfl hm _ _).sticky 139 (by decide) h.source, ?_⟩
  · rw [State.flag, fld_setArmed t m b (by decide) (by decide)]
    exact h.late
  · rw [fld_setArmed t m b (by decide) (by decide), h.missed]

/-- Source 139 is raised for a unit that shows LATE. -/
theorem raise (h : t.flag (R.CMP_CTRL m) F.CMP_CTRL_LATE = true) (hm : m < 16) :
    LateMark (t.raise 139 m) m (t.fld (R.CMP_CTRL m) F.CMP_CTRL_MISSED) :=
  ⟨by rwa [State.flag, fld_raise139 _ _ hm], srcBit_raise139 t m, fld_raise139 t m hm _⟩

theorem bumpMissed (h : LateMark t m missed) (hm : m < 16) (n : Nat) :
    LateMark (t.bumpBy (R.CMP_CTRL m) F.CMP_CTRL_MISSED n) m (satInc 8 missed n) :=
  ⟨by rw [flag_late_bumpMissed, h.late],
   ((SpindleFrame.refl (U := (· = m)) t).setCtrl rfl hm _ _).sticky 139 (by decide) h.source,
   by rw [fld_missed_bumpMissed, h.missed]⟩

theorem disarm (h : LateMark t m missed) (hm : m < 16) (hper : per = 0) :
    LateCmp (t.setFlag (R.CMP_CTRL m) F.CMP_CTRL_ARMED false) m missed per next :=
  ⟨h.setArmed hm false, fun _ => cmpArmed_setFlag t m false, fun hp => absurd hper hp⟩

theorem rearm (h : LateMark t m missed) (harmed : t.cmpArmed m = true) (hper : per ≠ 0) :
    LateCmp (t.setCmpU m next) m missed per next :=
  ⟨⟨h.late, h.source, h.missed⟩, fun hp => absurd hp hper,
   fun _ => ⟨harmed, congrArg CmpUnit.target (cmpU_setCmpU_self t m next)⟩⟩

end LateMark

theorem LateCmp.frame {m missed per : Nat} {next : Int} (h : LateCmp t m missed per next) (g : SpindleFrame U t u) (hU : ¬U m)
    (hm : m < 16) : LateCmp u m missed per next := by
  have hfld : ∀ f, u.fld (R.CMP_CTRL m) f = t.fld (R.CMP_CTRL m) f := fun f => by unfold State.fld; rw [g.ctrl hU hm]
  have harmed : u.cmpArmed m = t.cmpArmed m := by unfold State.cmpArmed State.flag; rw [hfld]
  refine ⟨⟨?_, g.sticky 139 (by decide) h.source, (hfld _).trans h.missed⟩, harmed.trans ∘ h.oneShot, fun hp => ?_⟩
  · rw [State.flag, hfld]
    exact h.late
  · rw [harmed, g.unit m hU]
    exact h.periodic hp

/-! ### Targets that have passed -/

theorem passedTargets_eq_zero {target lim : Int} (per : Nat) (h : lim < target) : passedTargets target per lim = 0 := if_pos h

/-- Behind the passed targets of a periodic unit lies the first one after the limit. -/
theorem lt_passedTargets {target lim : Int} {per : Nat} (hper : per ≠ 0) (hk : 0 < passedTargets target per lim) :
    lim < target + passedTargets target per lim * per := by
  unfold passedTargets at hk ⊢
  split at hk
  · exact absurd hk (Nat.lt_irrefl 0)
  · next hle =>
    have hpos : (0 : Int) < per := by omega
    have hquot : 0 ≤ (lim - target) / (per : Int) := Int.ediv_nonneg (by omega) (by omega)
    have hlast := Int.lt_ediv_add_one_mul_self (lim - target) hpos
    rw [if_neg hle, if_neg hper, Int.natCast_add, Int.toNat_of_nonneg hquot]
    change lim < target + ((lim - target) / per + 1) * per
    omega

/-! ### Arming -/

/-- The state in which a write of CMP_T_HI decides: both words of the target have taken effect (R9). -/
def State.cmpLoad (s : State) (m : Nat) (v : Word) : State :=
  (s.takeHeld (R.CMP_T m)).writeFlds (R.CMP_T_HI m) [F.CMP_T_HI_T_HI] v

@[simp] theorem takeHeld_lt (s : State) (a : Nat) : (s.takeHeld a).lt = s.lt := by unfold State.takeHeld; split <;> rfl
@[simp] theorem takeHeld_spn (s : State) (a : Nat) : (s.takeHeld a).spn = s.spn := by unfold State.takeHeld; split <;> rfl
theorem reg_takeHeld_self (s : State) (a : Nat) : (s.takeHeld a).reg a = (s.heldAt a).getD (s.reg a) := by
  unfold State.takeHeld
  split <;> next h => simp [h]
theorem reg_takeHeld_ne (s : State) {a b : Nat} (h : b ≠ a) : (s.takeHeld a).reg b = s.reg b := by
  unfold State.takeHeld
  split
  · exact reg_setReg_ne _ _ h
  · rfl
theorem heldAt_takeHeld (s : State) (a : Nat) : (s.takeHeld a).heldAt a = none := by
  unfold State.takeHeld
  split
  · exact tabGet_tabPut_self (fun _ => none) s.held a none
  · assumption

section
variable {m : Nat} (v : Word)

theorem cmpLoad_lt : (s.cmpLoad m v).lt = s.lt := by simp [State.cmpLoad]
theorem cmpLoad_spn : (s.cmpLoad m v).spn = s.spn := by simp [State.cmpLoad]
theorem heldAt_cmpLoad : (s.cmpLoad m v).heldAt (R.CMP_T m) = none := by
  rw [State.heldAt, State.cmpLoad, writeFlds_held]
  exact heldAt_takeHeld s _
theorem reg_cmpLoad_lo : (s.cmpLoad m v).reg (R.CMP_T m) = (s.heldAt (R.CMP_T m)).getD (s.reg (R.CMP_T m)) := by
  rw [State.cmpLoad, reg_writeFlds_ne _ v (by unfold R.CMP_T R.CMP_T_HI; omega) (by unfold R.CMP_T R.GLB_ACCERR; omega)
    (by unfold R.CMP_T R.GLB_ACCADR; omega), reg_takeHeld_self]
theorem reg_cmpLoad_hi : (s.cmpLoad m v).reg (R.CMP_T_HI m)
    = (s.writeFlds (R.CMP_T_HI m) [F.CMP_T_HI_T_HI] v).reg (R.CMP_T_HI m) := by
  have herr : R.CMP_T_HI m ≠ R.GLB_ACCERR := by unfold R.CMP_T_HI R.GLB_ACCERR; omega
  have hadr : R.CMP_T_HI m ≠ R.GLB_ACCADR := by unfold R.CMP_T_HI R.GLB_ACCADR; omega
  rw [State.cmpLoad, reg_writeFlds_self _ v herr hadr, reg_writeFlds_self _ v herr hadr,
    reg_takeHeld_ne s (by unfold R.CMP_T R.CMP_T_HI; omega)]
theorem reg_cmpLoad_ne {b : Nat} (hlo : b ≠ R.CMP_T m) (hhi : b ≠ R.CMP_T_HI m) (herr : b ≠ R.GLB_ACCERR)
    (hadr : b ≠ R.GLB_ACCADR) : (s.cmpLoad m v).reg b = s.reg b := by
  rw [State.cmpLoad, reg_writeFlds_ne _ v hhi herr hadr, reg_takeHeld_ne s hlo]
theorem reg_cmpLoad_ctrl : (s.cmpLoad m v).reg (R.CMP_CTRL m) = s.reg (R.CMP_CTRL m) := by
  apply reg_cmpLoad_ne <;> simp only [R.CMP_T, R.CMP_T_HI, R.CMP_CTRL, R.GLB_ACCERR, R.GLB_ACCADR] <;> omega
theorem cmpLoad_cmpPer : (s.cmpLoad m v).cmpPer m = s.cmpPer m := by
  refine cmpPer_of_reg ?_
  apply reg_cmpLoad_ne <;> simp only [R.CMP_T, R.CMP_T_HI, R.CMP_PER, R.GLB_ACCERR, R.GLB_ACCADR] <;> omega
theorem fld_cmpLoad_ctrl (f : Fld) : (s.cmpLoad m v).fld (R.CMP_CTRL m) f = s.fld (R.CMP_CTRL m) f := by
  unfold State.fld
  rw [reg_cmpLoad_ctrl]
theorem flag_cmpLoad_ctrl (f : Fld) : (s.cmpLoad m v).flag (R.CMP_CTRL m) f = s.flag (R.CMP_CTRL m) f := by
  unfold State.flag
  rw [fld_cmpLoad_ctrl]

end

/-- A late unit: LATE, source 139, `n` targets counted, then disarmed or armed for its next one. -/
def State.cmpLate (s : State) (m n : Nat) (next : Int) : State :=
  let t := ((s.setFlag (R.CMP_CTRL m) F.CMP_CTRL_LATE true).raise 139 m).bumpBy (R.CMP_CTRL m) F.CMP_CTRL_MISSED n
  if s.cmpPer m = 0 then t.setFlag (R.CMP_CTRL m) F.CMP_CTRL_ARMED false
  else (t.setFlag (R.CMP_CTRL m) F.CMP_CTRL_ARMED true).setCmpU m next

/-- What a unit whose target is in place does with it (R69, R70). -/
def State.cmpDecide (s : State) (m : Nat) : State :=
  let c := R.CMP_CTRL m
  let st := s.pair (R.CMP_T m) (R.CMP_T_HI m)
  let g := stToLt s.lt st
  let k := passedTargets g (s.cmpPer m) ((s.lt : Int) + 500 * nsU - 1)
  let fire := s.flag c F.CMP_CTRL_LATE_FIRE
  if !stValid st then (s.setFlag c F.CMP_CTRL_ARMED false).setFlag c F.CMP_CTRL_BADT true
  else if k = 0 ∨ (fire ∧ !s.spn.refclk) then (s.setFlag c F.CMP_CTRL_ARMED true).setCmpU m g
  else
    let t := s.cmpLate m (if fire then k - 1 else k) (g + k * s.cmpPer m)
    if fire then t.cmpActions m t.lt else t

theorem armCmp_eq (s : State) (m : Nat) (v : Word) : s.armCmp m v = (s.cmpLoad m v).cmpDecide m := rfl

theorem cmpLate_frame {m : Nat} (hm : m < 16) (n : Nat) (next : Int) : SpindleFrame (· = m) s (s.cmpLate m n next) := by
  unfold State.cmpLate
  extract_lets t
  have ht : SpindleFrame (· = m) s t :=
    (((SpindleFrame.refl (U := (· = m)) s).setCtrl rfl hm _ _).raise139 m).setCtrl rfl hm _ _
  split
  · exact ht.setCtrl rfl hm _ _
  · exact (ht.setCtrl rfl hm _ _).setCmpU rfl next

theorem lateCmp_cmpLate {m : Nat} (hm : m < 16) (n : Nat) (next : Int) :
    LateCmp (s.cmpLate m n next) m (satInc 8 (s.fld (R.CMP_CTRL m) F.CMP_CTRL_MISSED) n) (s.cmpPer m) next := by
  unfold State.cmpLate
  extract_lets t
  have hmark : LateMark t m (satInc 8 (s.fld (R.CMP_CTRL m) F.CMP_CTRL_MISSED) n) := by
    rw [← fld_missed_setLate]
    exact (LateMark.raise (flag_late_setLate s m) hm).bumpMissed hm n
  split
  · next hper => exact hmark.disarm hm hper
  · next hper => exact (hmark.setArmed hm true).rearm (cmpArmed_setFlag t m true) hper

/-- What a unit decides concerns that unit alone. -/
theorem cmpDecide_frame {m : Nat} (hm : m < 16) : SpindleFrame (· = m) s (s.cmpDecide m) := by
  have h : SpindleFrame (· = m) s s := SpindleFrame.refl s
  unfold State.cmpDecide
  extract_lets c st g k fire t
  have hlate : SpindleFrame (· = m) s t := cmpLate_frame hm _ _
  split
  · exact (h.setCtrl rfl hm _ _).setCtrl rfl hm _ _
  · split
    · exact (h.setCtrl rfl hm _ _).setCmpU rfl g
    · exact ite_keep (fun _ => hlate.cmpActions m _) (fun _ => hlate)

section
variable {m k : Nat} {g : Int}
  (hst : stValid (s.pair (R.CMP_T m) (R.CMP_T_HI m)) = true) (hg : g = stToLt s.lt (s.pair (R.CMP_T m) (R.CMP_T_HI m)))
  (hk : k = passedTargets g (s.cmpPer m) ((s.lt : Int) + 500 * nsU - 1))
include hst hg hk

/-- A target that is ahead, or late for a unit that cannot fire without REFCLK (log 100), arms the unit. -/
theorem cmpDecide_armed (h : k = 0 ∨ (s.flag (R.CMP_CTRL m) F.CMP_CTRL_LATE_FIRE = true ∧ s.spn.refclk = false)) :
    s.cmpDecide m = (s.setFlag (R.CMP_CTRL m) F.CMP_CTRL_ARMED true).setCmpU m g := by
  subst hg hk
  unfold State.cmpDecide
  dsimp only
  rw [if_neg (by simp [hst]), if_pos (by simpa using h)]

theorem cmpDecide_late (hm : m < 16) (h0 : 0 < k)
    (h : s.flag (R.CMP_CTRL m) F.CMP_CTRL_LATE_FIRE = false ∨ s.spn.refclk = true) :
    s.cmpDecide m = if s.flag (R.CMP_CTRL m) F.CMP_CTRL_LATE_FIRE
      then (s.cmpLate m (k - 1) (g + k * s.cmpPer m)).cmpActions m s.lt else s.cmpLate m k (g + k * s.cmpPer m) := by
  have hlt : ∀ n next, (s.cmpLate m n next).lt = s.lt := fun n next => (cmpLate_frame hm n next).lt
  have hfire : ¬(k = 0 ∨ (s.flag (R.CMP_CTRL m) F.CMP_CTRL_LATE_FIRE = true ∧ (!s.spn.refclk) = true)) := by
    rintro (rfl | ⟨hf, hr⟩)
    · exact absurd h0 (Nat.lt_irrefl 0)
    · rcases h with h | h
      · exact absurd (hf.symm.trans h) (by decide)
      · simp [h] at hr
  subst hg hk
  unfold State.cmpDecide
  dsimp only
  rw [if_neg (by simp [hst]), if_neg hfire]
  split
  · rw [hlt]
  · rfl

end

/-- Firing leaves a unit as it stands. -/
theorem cmpActions_frame (s : State) (m time : Nat) : SpindleFrame U s (s.cmpActions m time) :=
  (SpindleFrame.refl s).cmpActions m time

theorem armCmp_bad {m : Nat} (v : Word)
    (h : 999999999 < ((s.heldAt (R.CMP_T m)).getD (s.reg (R.CMP_T m))).toNat % 2 ^ 30) :
    s.armCmp m v = ((s.cmpLoad m v).setFlag (R.CMP_CTRL m) F.CMP_CTRL_ARMED false).setFlag (R.CMP_CTRL m) F.CMP_CTRL_BADT
      true := by
  have hst : stValid ((s.cmpLoad m v).pair (R.CMP_T m) (R.CMP_T_HI m)) = false := by
    rw [State.pair, reg_cmpLoad_lo, stValid, decide_eq_false_iff_not]
    omega
  rw [armCmp_eq, State.cmpDecide]
  exact if_pos (by rw [hst]; rfl)

section
variable {m st k : Nat} {g : Int} (hm : m < 16) (v : Word)
  (hst : st = ((s.heldAt (R.CMP_T m)).getD (s.reg (R.CMP_T m))).toNat
    + ((s.writeFlds (R.CMP_T_HI m) [F.CMP_T_HI_T_HI] v).reg (R.CMP_T_HI m)).toNat * 2 ^ 32)
include hst

theorem pair_cmpLoad : (s.cmpLoad m v).pair (R.CMP_T m) (R.CMP_T_HI m) = st := by
  rw [State.pair, reg_cmpLoad_lo, reg_cmpLoad_hi, hst]

include hm in
/-- Whatever the unit decides, its target is in place and no lower word is held. -/
theorem armCmp_target : (s.armCmp m v).pair (R.CMP_T m) (R.CMP_T_HI m) = st ∧ (s.armCmp m v).heldAt (R.CMP_T m) = none := by
  have h := cmpDecide_frame (s := s.cmpLoad m v) hm
  rw [armCmp_eq]
  constructor
  · rw [State.pair, h.target hm, h.targetHi hm, ← pair_cmpLoad v hst, State.pair]
  · rw [State.heldAt, h.held]
    exact heldAt_cmpLoad v

variable (hvalid : stValid st = true) (hg : g = stToLt s.lt st)
  (hk : k = passedTargets g (s.cmpPer m) ((s.lt : Int) + 500 * nsU - 1))
include hvalid hg hk

theorem armCmp_armed (h : k = 0 ∨ (s.flag (R.CMP_CTRL m) F.CMP_CTRL_LATE_FIRE = true ∧ s.spn.refclk = false)) :
    s.armCmp m v = ((s.cmpLoad m v).setFlag (R.CMP_CTRL m) F.CMP_CTRL_ARMED true).setCmpU m g := by
  have hpair := pair_cmpLoad v hst
  rw [armCmp_eq, cmpDecide_armed (k := k) (g := g)]
  · rw [hpair, hvalid]
  · rw [hpair, cmpLoad_lt, hg]
  · rw [cmpLoad_cmpPer, cmpLoad_lt, hk]
  · rwa [flag_cmpLoad_ctrl, cmpLoad_spn]

include hm in
theorem armCmp_late (h0 : 0 < k) (h : s.flag (R.CMP_CTRL m) F.CMP_CTRL_LATE_FIRE = false ∨ s.spn.refclk = true) :
    s.armCmp m v = if s.flag (R.CMP_CTRL m) F.CMP_CTRL_LATE_FIRE
      then ((s.cmpLoad m v).cmpLate m (k - 1) (g + k * s.cmpPer m)).cmpActions m s.lt
      else (s.cmpLoad m v).cmpLate m k (g + k * s.cmpPer m) := by
  have hpair := pair_cmpLoad v hst
  rw [armCmp_eq, cmpDecide_late (k := k) (g := g) (hm := hm) (h0 := h0), cmpLoad_lt, flag_cmpLoad_ctrl, cmpLoad_cmpPer]
  · rw [hpair, hvalid]
  · rw [hpair, cmpLoad_lt, hg]
  · rw [cmpLoad_cmpPer, cmpLoad_lt, hk]
  · rwa [flag_cmpLoad_ctrl, cmpLoad_spn]

end

/-- A late unit, seen from the state before its write of CMP_T_HI. -/
theorem lateCmp_cmpLoad {m : Nat} (hm : m < 16) (v : Word) (n : Nat) (next : Int) :
    LateCmp ((s.cmpLoad m v).cmpLate m n next) m (satInc 8 (s.fld (R.CMP_CTRL m) F.CMP_CTRL_MISSED) n) (s.cmpPer m) next := by
  rw [← fld_cmpLoad_ctrl v, ← cmpLoad_cmpPer v]
  exact lateCmp_cmpLate hm n next

theorem raise_spn (s : State) (src inst : Nat) : (s.raise src inst).spn = s.spn :=
  keep_raise (P := fun t => t.spn = s.spn) ⟨fun _ _ _ h => h⟩ ⟨fun _ _ h => h, fun _ _ h => h⟩
    ⟨fun _ _ _ _ _ h => h⟩ rfl

/-- Being late starts no pulse. -/
theorem pulses_cmpLate (m n : Nat) (v : Word) (next : Int) :
    ((s.cmpLoad m v).cmpLate m n next).spn.pulses = s.spn.pulses := by
  have hraise : (((s.cmpLoad m v).setFlag (R.CMP_CTRL m) F.CMP_CTRL_LATE true).raise 139 m).spn = s.spn := by
    rw [raise_spn, setFlag_spn, cmpLoad_spn]
  unfold State.cmpLate
  dsimp only
  split
  · rw [setFlag_spn, bumpBy_spn, hraise]
  · rw [pulses_setCmpU, setFlag_spn, bumpBy_spn, hraise]

/-! ### Firing and disarming -/

theorem execCmpFire_oneShot {m : Fin 16} (hawake : s.awake = true) (harmed : s.cmpArmed m.val = true) (hclk : s.spn.refclk = true)
    (hper : s.cmpPer m.val = 0) : exec (.cmpFire m) s = .next (((s.moveTo (s.cmpU m.val).target.toNat).setFlag
      (R.CMP_CTRL m.val) F.CMP_CTRL_ARMED false).cmpActions m.val (s.cmpU m.val).target.toNat) := by
  have hper' : ∀ n, (s.moveTo n).cmpPer m.val = 0 := fun n => (cmpPer_of_reg (reg_of_regs (moveTo_regs s n) _)).trans hper
  change execCmpFire m s = _
  rw [execCmpFire, act_awake s hawake, if_pos ⟨harmed, hclk⟩]
  dsimp only
  rw [if_pos (hper' _)]

theorem execCmpFire_periodic {m : Fin 16} (hawake : s.awake = true) (harmed : s.cmpArmed m.val = true)
    (hclk : s.spn.refclk = true) (hper : s.cmpPer m.val ≠ 0) :
    exec (.cmpFire m) s = .next (((s.moveTo (s.cmpU m.val).target.toNat).setCmpU m.val
      ((s.cmpU m.val).target + s.cmpPer m.val)).cmpActions m.val (s.cmpU m.val).target.toNat) := by
  have hper' : ∀ n, (s.moveTo n).cmpPer m.val = s.cmpPer m.val := fun n => cmpPer_of_reg (reg_of_regs (moveTo_regs s n) _)
  change execCmpFire m s = _
  rw [execCmpFire, act_awake s hawake, if_pos ⟨harmed, hclk⟩]
  dsimp only
  rw [hper', if_neg hper]

/-- The only pulse of TRIG_OUT ends. -/
theorem execTrigOutPulseEnd_last {p : Nat} (hawake : s.awake = true) (hp : s.spn.pulses = [p]) :
    exec .trigOutPulseEnd s = .next (({ s.moveTo p with spn := { (s.moveTo p).spn with pulses := [] } } : State).emit
      (.pin 1 0 (s.moveTo p).lt)) := by
  change execTrigOutPulseEnd s = _
  rw [execTrigOutPulseEnd, act_awake s hawake, hp]
  simp [hp]

/-! ### The obligation -/

/-- Settles O39: a write of CMP_T_HI decides in the state its two words leave, a late unit is marked before it fires, and
firing leaves every unit as it stands. -/
theorem compareRows : Obligations.CompareRows := by
  unfold Obligations.CompareRows
  intro s hawake m
  have hm := m.isLt
  refine ⟨fun v hbad => ?bad, fun v st k g hst hvalid hg hk => ?arm, fun harmed hclk hper => ?oneShot,
    fun harmed hclk hper => ?periodic, fun v hv => ?disarm, fun p hp => ?pulse⟩
  case bad =>
    refine ⟨_, act_awake s hawake, ?_⟩
    rw [armCmp_bad v hbad]
    simp (disch := decide) only [State.cmpArmed, State.flag, State.setFlag, fld_setFld_disjoint, fld_setFld_self,
      fld_cmpLoad_ctrl, and_true]
    exact ⟨rfl, rfl, rfl⟩
  case arm =>
    obtain ⟨hpair, hheld⟩ := armCmp_target hm v hst
    refine ⟨_, act_awake s hawake, hpair, hheld, fun hahead => ?ahead, fun h => ?armed, fun h0 h => ?late⟩
    case ahead => exact hk.trans (passedTargets_eq_zero _ (by omega))
    case armed =>
      rw [armCmp_armed v hst hvalid hg hk h, cmpArmed_setCmpU, cmpArmed_setFlag, cmpU_setCmpU_self, fld_setCmpU,
        fld_setArmed _ _ _ (by decide) (by decide), fld_cmpLoad_ctrl]
      exact ⟨rfl, rfl, rfl⟩
    case late =>
      have hperiodic : ∀ {u missed}, LateCmp u m.val missed (s.cmpPer m.val) (g + k * s.cmpPer m.val) →
          s.cmpPer m.val ≠ 0 → u.cmpArmed m.val = true ∧ (u.cmpU m.val).target = g + k * s.cmpPer m.val
            ∧ (s.lt : Int) + 500 * nsU ≤ (u.cmpU m.val).target := fun hl hper => by
        obtain ⟨harmed, htarget⟩ := hl.periodic hper
        have hnext := lt_passedTargets hper (hk ▸ h0)
        rw [← hk] at hnext
        exact ⟨harmed, htarget, by omega⟩
      rw [armCmp_late hm v hst hvalid hg hk h0 h]
      generalize s.flag (R.CMP_CTRL m.val) F.CMP_CTRL_LATE_FIRE = fire
      cases fire with
      | false =>
        have hl := lateCmp_cmpLoad (s := s) hm v k (g + k * s.cmpPer m.val)
        simp only [Bool.false_eq_true, if_false]
        exact ⟨hl.late, hl.source, hl.missed, hl.oneShot, hperiodic hl, False.elim, fun _ => pulses_cmpLate ..⟩
      | true =>
        have hl := (lateCmp_cmpLoad (s := s) hm v (k - 1) (g + k * s.cmpPer m.val)).frame
          (cmpActions_frame _ m.val s.lt) (U := fun _ => False) id hm
        simp only [if_true]
        exact ⟨hl.late, hl.source, hl.missed, hl.oneShot, hperiodic hl, fun _ => ⟨_, rfl, pulses_cmpLate ..⟩,
          fun hf => absurd hf (by decide)⟩
  case oneShot => exact ⟨_, execCmpFire_oneShot hawake harmed hclk hper, cmpArmed_setFlag _ _ false⟩
  case periodic =>
    exact ⟨_, execCmpFire_periodic hawake harmed hclk hper, congrArg CmpUnit.target (cmpU_setCmpU_self ..), moveTo_regs s _⟩
  case disarm =>
    refine ⟨_, act_awake s hawake, ?_⟩
    rw [State.writeCmpCtrl, if_pos hv]
    exact cmpArmed_setFlag _ _ false
  case pulse =>
    refine ⟨_, execTrigOutPulseEnd_last hawake hp, rfl, fun hclk => ?_⟩
    simp [moveTo_lt p hawake hclk]

end Sys2Proof.Machine

/-! Steps of LT (R60, R51, R71). -/
namespace Sys2Proof.Machine

variable {U : Nat → Prop} {s₀ s t u : State}

/-! ### A forward step over the targets of the compare units (R71) -/

/-- A unit whose targets a step has passed, before its actions: `k` is their number. -/
def State.passUnit (s : State) (m k : Nat) : State :=
  let t := ((s.setFlag (R.CMP_CTRL m) F.CMP_CTRL_LATE true).bumpBy (R.CMP_CTRL m) F.CMP_CTRL_MISSED (k - 1)).raise 139 m
  if t.cmpPer m = 0 then t.setFlag (R.CMP_CTRL m) F.CMP_CTRL_ARMED false
  else t.setCmpU m ((s.cmpU m).target + k * t.cmpPer m)

/-- What a forward step does to one unit. -/
def State.stepUnit (s : State) (m : Nat) : State :=
  let k := passedTargets (s.cmpU m).target (s.cmpPer m) s.lt
  if s.cmpArmed m ∧ 0 < k then (s.passUnit m k).cmpActions m (s.passUnit m k).lt else s

theorem cmpStep_eq (s : State) : s.cmpStep = s.forEach (List.range 16) State.stepUnit := rfl

theorem passUnit_frame (h : SpindleFrame U s₀ s) {m : Nat} (hU : U m) (hm : m < 16) (k : Nat) :
    SpindleFrame U s₀ (s.passUnit m k) := by
  unfold State.passUnit
  extract_lets t
  have ht : SpindleFrame U s₀ t := ((h.setCtrl hU hm _ _).setCtrl hU hm _ _).raise139 m
  split
  · exact ht.setCtrl hU hm _ _
  · exact ht.setCmpU hU _

theorem stepUnit_frame (h : SpindleFrame U s₀ s) {m : Nat} (hU : U m) (hm : m < 16) : SpindleFrame U s₀ (s.stepUnit m) := by
  unfold State.stepUnit
  extract_lets k
  exact ite_keep (fun _ => (passUnit_frame h hU hm k).cmpActions m _) (fun _ => h)

theorem lateCmp_passUnit {m : Nat} (hm : m < 16) (harmed : s.cmpArmed m = true) (k : Nat) :
    LateCmp (s.passUnit m k) m (satInc 8 (s.fld (R.CMP_CTRL m) F.CMP_CTRL_MISSED) (k - 1)) (s.cmpPer m)
      ((s.cmpU m).target + k * s.cmpPer m) := by
  unfold State.passUnit
  extract_lets t
  have ht : SpindleFrame (· = m) s t :=
    (((SpindleFrame.refl (U := (· = m)) s).setCtrl rfl hm _ _).setCtrl rfl hm _ _).raise139 m
  have hmark : LateMark t m (satInc 8 (s.fld (R.CMP_CTRL m) F.CMP_CTRL_MISSED) (k - 1)) := by
    rw [← fld_missed_setLate, ← fld_missed_bumpMissed]
    exact LateMark.raise (by rw [flag_late_bumpMissed, flag_late_setLate]) hm
  have harmed' : t.cmpArmed m = true := by
    simpa (disch := decide) only [t, State.cmpArmed, State.flag, State.bumpBy, State.setFlag, fld_setFld_disjoint,
      fld_raise139 _ _ hm] using harmed
  rw [ht.cmpPer hm]
  split
  · next hper => exact hmark.disarm hm hper
  · next hper => exact hmark.rearm harmed' hper

theorem lateCmp_stepUnit {m k : Nat} (hm : m < 16) (harmed : s.cmpArmed m = true)
    (hk : k = passedTargets (s.cmpU m).target (s.cmpPer m) s.lt) (h0 : 0 < k) :
    LateCmp (s.stepUnit m) m (satInc 8 (s.fld (R.CMP_CTRL m) F.CMP_CTRL_MISSED) (k - 1)) (s.cmpPer m)
      ((s.cmpU m).target + k * s.cmpPer m) := by
  subst hk
  rw [State.stepUnit, if_pos ⟨harmed, h0⟩]
  exact (lateCmp_passUnit hm harmed _).frame (cmpActions_frame _ m _) (U := fun _ => False) id hm

theorem cmpStep_frame (h : SpindleFrame (fun _ => True) s₀ s) : SpindleFrame (fun _ => True) s₀ s.cmpStep :=
  forEach_keeps h (fun _ hm _ hv => stepUnit_frame hv trivial (List.mem_range.1 hm))

theorem stepOthers_frame (s : State) {m : Nat} {l : List Nat} (hl : ∀ j ∈ l, j ∈ List.range 16 ∧ j ≠ m) :
    SpindleFrame (· ≠ m) s (s.forEach l State.stepUnit) :=
  forEach_keeps (SpindleFrame.refl s)
    (fun j hj _ hw => stepUnit_frame hw (hl j hj).2 (List.mem_range.1 (hl j hj).1))

/-- The units before and after `m` leave it alone, as did whatever led from `s` to `t`. -/
theorem lateCmp_cmpStep {m k : Nat} (hf : SpindleFrame (· ≠ m) s t) (hm : m < 16) (harmed : s.cmpArmed m = true)
    (hk : k = passedTargets (s.cmpU m).target (s.cmpPer m) s.lt) (h0 : 0 < k) :
    LateCmp t.cmpStep m (satInc 8 (s.fld (R.CMP_CTRL m) F.CMP_CTRL_MISSED) (k - 1)) (s.cmpPer m)
      ((s.cmpU m).target + k * s.cmpPer m) := by
  obtain ⟨l₁, l₂, h₁, h₂, hsplit⟩ := forEach_split List.nodup_range (List.mem_range.2 hm) t State.stepUnit
  have hpre : SpindleFrame (· ≠ m) s (t.forEach l₁ State.stepUnit) := hf.trans (stepOthers_frame t h₁)
  rw [cmpStep_eq, hsplit]
  generalize t.forEach l₁ State.stepUnit = w at hpre
  have hin : ¬(m ≠ m) := fun h => h rfl
  have hunit := hpre.unit m hin
  have hper := hpre.cmpPer hm
  have hfld : ∀ f, w.fld (R.CMP_CTRL m) f = s.fld (R.CMP_CTRL m) f := fun f => by
    rw [State.fld, hpre.ctrl hin hm]
    rfl
  have hlate := lateCmp_stepUnit (s := w) (k := k) hm (by rwa [State.cmpArmed, State.flag, hfld])
    (by rwa [hunit, hper, hpre.lt]) h0
  rw [hunit, hfld, hper] at hlate
  exact hlate.frame (stepOthers_frame _ h₂) hin hm

/-! ### The step itself (R60) -/

/-- What a step makes of the time and of Spindle. -/
def State.stepStart (s : State) (new : Nat) : State :=
  { s with lt := new, spn := { s.spn.shift ((new : Int) - s.lt) with stepUntil := new + 1000 * nsU, gridDue := true } }

/-- A step as far as the compare units. -/
def State.stepMoved (s : State) (new : Nat) : State :=
  let d := (new : Int) - s.lt
  let s := s.shiftTimers d
  let s := { s with lt := new, spn := { s.spn with stepUntil := new + 1000 * nsU, gridDue := true } }
  let s := s.forEach s.strActive (fun s c => s.setStr c { s.st c with nextRow := new })
  let s := s.forEach (List.range 16) (fun s b => s.setCp b { s.cp b with nextRow := new })
  s.raiseHub 140

theorem stepTo_backward {new : Nat} (h : new ≤ s.lt) : s.stepTo new = s.stepMoved new :=
  if_neg (by omega)
theorem stepTo_forward {new : Nat} (h : s.lt < new) : s.stepTo new = (s.stepMoved new).cmpStep :=
  if_pos (by omega)

theorem shiftTimers_frame (s : State) (d : Int) : SpindleFrame U { s with spn := s.spn.shift d } (s.shiftTimers d) := by
  unfold State.shiftTimers
  extract_lets x0 x1 s1 y1 s2 s3 s4 s5 s6 s7 s8 s9 s10
  have h4 : SpindleFrame U { s with spn := s.spn.shift d } s4 :=
    ⟨rfl, rfl, rfl, ⟨_, _, rfl⟩, fun _ _ => rfl, fun _ _ _ _ => rfl, fun _ _ h => h⟩
  clear_value s4
  have h5 : SpindleFrame U _ s5 := keep_forEach h4 (fun _ _ h => ⟨h.lt, h.always, h.held, h.spn, h.unit, h.reg, h.sticky⟩)
  have h6 : SpindleFrame U _ s6 := keep_forEach h5 (fun _ _ h => SpindleFrame.keepLnk.setLk _ _ _ h)
  have h7 : SpindleFrame U _ s7 := keep_forEach h6 (fun _ _ h => ⟨h.lt, h.always, h.held, h.spn, h.unit, h.reg, h.sticky⟩)
  have h8 : SpindleFrame U _ s8 := keep_forEach h7 (fun _ _ h => SpindleFrame.keepRgn.setRg _ _ _ h)
  have h9 : SpindleFrame U _ s9 := keep_forEach h8 (fun _ _ h => ⟨h.lt, h.always, h.held, h.spn, h.unit, h.reg, h.sticky⟩)
  have h10 : SpindleFrame U _ s10 := keep_forEach h9 (fun _ _ h => SpindleFrame.keepStr.setStr _ _ _ h)
  exact keep_forEach h10 (fun _ _ h => SpindleFrame.keepCap.setCp _ _ _ h)

/-- Source 140 (R60) calls for no test. -/
theorem SpindleFrame.raise140 (h : SpindleFrame U s t) : SpindleFrame U s (t.raiseHub 140) := h.raiseD (by decide) rfl

/-- The new LT, and what Spindle notes of the step. -/
theorem SpindleFrame.stepStart {w : State} {new : Nat}
    (h : SpindleFrame U { s with spn := s.spn.shift ((new : Int) - s.lt) } w) :
    SpindleFrame U (s.stepStart new)
      { w with lt := new, spn := { w.spn with stepUntil := new + 1000 * nsU, gridDue := true } } := by
  obtain ⟨c, p, hspn⟩ := h.spn
  exact ⟨rfl, h.always, h.held,
    ⟨c, p, congrArg (fun y : SpnState => { y with stepUntil := new + 1000 * nsU, gridDue := true }) hspn⟩,
    h.unit, h.reg, h.sticky⟩

theorem stepMoved_frame (s : State) (new : Nat) : SpindleFrame U (s.stepStart new) (s.stepMoved new) := by
  unfold State.stepMoved
  extract_lets d s1 x s2 s3 s4
  have h1 : SpindleFrame U { s with spn := s.spn.shift d } s1 := shiftTimers_frame s d
  clear_value s1
  have h2 : SpindleFrame U (s.stepStart new) s2 := h1.stepStart
  clear_value s2
  have h3 : SpindleFrame U (s.stepStart new) s3 := keep_forEach h2 (fun _ _ h => SpindleFrame.keepStr.setStr _ _ _ h)
  clear_value s3
  have h4 : SpindleFrame U (s.stepStart new) s4 := keep_forEach h3 (fun _ _ h => SpindleFrame.keepCap.setCp _ _ _ h)
  exact h4.raise140

theorem stepTo_frame (s : State) (new : Nat) : SpindleFrame (fun _ => True) (s.stepStart new) (s.stepTo new) := by
  rcases Nat.lt_or_ge s.lt new with h | h
  · rw [stepTo_forward h]
    exact cmpStep_frame (stepMoved_frame s new)
  · rw [stepTo_backward h]
    exact stepMoved_frame s new

end Sys2Proof.Machine

/-! SPN_CTRL: the mode of the servo, and the write of STEP (R58, R60); reading LT (R46). -/
namespace Sys2Proof.Machine

variable {s₀ s t u : State}

/-! ### Time quality: what showing it leaves alone -/

/-- `t` agrees with `s` but for the time quality, what follows from it on PPS_OUT, and the messages about it. -/
structure TqFrame (s t : State) : Prop where
  lt : t.lt = s.lt
  spn : ∃ q h, t.spn = { s.spn with ownTq := q, ppsHigh := h }
  reg : ∀ a, a ≠ R.SPN_STAT → t.reg a = s.reg a

namespace TqFrame

theorem refl (s : State) : TqFrame s s := ⟨rfl, ⟨_, _, rfl⟩, fun _ _ => rfl⟩

theorem setStat (h : TqFrame s t) (f : Fld) (v : Nat) : TqFrame s (t.setFld R.SPN_STAT f v) :=
  ⟨h.lt, h.spn, fun a ha => (reg_setReg_ne t _ ha).trans (h.reg a ha)⟩

theorem keepOut : KeepOut (TqFrame s₀) where
  bus _ _ h := ⟨h.lt, h.spn, h.reg⟩
  out _ _ h := ⟨h.lt, h.spn, h.reg⟩
  free _ _ h := ⟨h.lt, h.spn, h.reg⟩
theorem keepGaps : KeepGaps (TqFrame s₀) where
  gapStore _ _ h := ⟨h.lt, h.spn, h.reg⟩
  seenTrig _ _ h := ⟨h.lt, h.spn, h.reg⟩
theorem keepLnk : KeepLnk (TqFrame s₀) where
  setLk _ _ _ h := ⟨h.lt, h.spn, h.reg⟩

theorem ppsGate (h : TqFrame s t) : TqFrame s t.ppsGate := by
  unfold State.ppsGate
  refine ite_keep (fun _ => keepOut.out _ _ ?_) (fun _ => h)
  obtain ⟨q, p, hspn⟩ := h.spn
  exact ⟨h.lt, ⟨q, false, by rw [hspn]⟩, h.reg⟩

theorem updTqFrom (h : TqFrame s t) (old : Nat) : TqFrame s (t.updTqFrom old) := by
  unfold State.updTqFrom
  extract_lets t1 t2
  have h1 : TqFrame s t1 := ite_keep (fun _ => h.setStat _ _) (fun _ => (h.setStat _ _).setStat _ _)
  exact ite_keep (fun _ => keep_sendVc1 keepOut keepGaps keepLnk h1.ppsGate) (fun _ => h1.ppsGate)

theorem setOwnTqFrom (h : TqFrame s t) (old : Nat) : TqFrame s (t.setOwnTqFrom old) := by
  unfold State.setOwnTqFrom
  refine updTqFrom ?_ old
  obtain ⟨q, p, hspn⟩ := h.spn
  exact ⟨h.lt, ⟨_, p, by rw [hspn]⟩, h.reg⟩

section
variable (h : TqFrame s t)
include h

theorem steering : t.spn.steering = s.spn.steering := by
  obtain ⟨q, p, hspn⟩ := h.spn
  rw [hspn]
theorem fromFree : t.spn.fromFree = s.spn.fromFree := by
  obtain ⟨q, p, hspn⟩ := h.spn
  rw [hspn]
theorem refclk : t.spn.refclk = s.spn.refclk := by
  obtain ⟨q, p, hspn⟩ := h.spn
  rw [hspn]
theorem stepUntil : t.spn.stepUntil = s.spn.stepUntil := by
  obtain ⟨q, p, hspn⟩ := h.spn
  rw [hspn]
theorem trk (i : Nat) : t.trk i = s.trk i := by
  obtain ⟨q, p, hspn⟩ := h.spn
  rw [State.trk, hspn, State.trk]
theorem tkState (i : Nat) : t.tkState i = s.tkState i := by
  rw [State.tkState, State.fld, h.reg _ (by unfold R.TRK_STAT R.SPN_STAT; omega)]
  rfl

end

end TqFrame

theorem setOwnTqFrom_frame (s : State) (old : Nat) : TqFrame s (s.setOwnTqFrom old) := (TqFrame.refl s).setOwnTqFrom old
theorem setOwnTq_frame (s : State) : TqFrame s s.setOwnTq := setOwnTqFrom_frame s _

/-! ### The mode: what a write of it leaves alone -/

/-- A register that a write of SPN_CTRL may change, its step apart. -/
def ServoReg (a : Nat) : Prop :=
  a = R.GLB_ACCERR ∨ a = R.GLB_ACCADR ∨ a = R.SPN_CTRL ∨ a = R.SPN_STAT ∨ ∃ i, a = R.TRK_STAT i

theorem not_servoReg {a : Nat} (hlow : R.SPN_STAT < a) (htrk : ∀ i, a ≠ R.TRK_STAT i) : ¬ServoReg a := by
  unfold R.SPN_STAT at hlow
  rintro (rfl | rfl | rfl | rfl | ⟨i, rfl⟩)
  case inr.inr.inr.inr => exact htrk i rfl
  all_goals exact absurd hlow (by decide)

/-- `t` agrees with `s` about the time, REFCLK, the step in progress and the registers that the servo does not show itself in. -/
structure ServoFrame (s t : State) : Prop where
  lt : t.lt = s.lt
  refclk : t.spn.refclk = s.spn.refclk
  stepUntil : t.spn.stepUntil = s.spn.stepUntil
  reg : ∀ a, ¬ServoReg a → t.reg a = s.reg a

namespace ServoFrame

theorem refl (s : State) : ServoFrame s s := ⟨rfl, rfl, rfl, fun _ _ => rfl⟩

theorem setFld (h : ServoFrame s t) {a : Nat} (ha : ServoReg a) (f : Fld) (v : Nat) : ServoFrame s (t.setFld a f v) :=
  ⟨h.lt, h.refclk, h.stepUntil, fun b hb => (reg_setReg_ne t _ (fun e => hb (by rwa [e]))).trans (h.reg b hb)⟩

theorem setTkState (h : ServoFrame s t) (i v : Nat) : ServoFrame s (t.setTkState i v) :=
  h.setFld (.inr (.inr (.inr (.inr ⟨i, rfl⟩)))) _ _

theorem setSpn (h : ServoFrame s t) {x : SpnState} (hclk : x.refclk = t.spn.refclk) (hstep : x.stepUntil = t.spn.stepUntil) :
    ServoFrame s { t with spn := x } :=
  ⟨h.lt, hclk.trans h.refclk, hstep.trans h.stepUntil, h.reg⟩

theorem setOwnTqFrom (h : ServoFrame s t) (old : Nat) : ServoFrame s (t.setOwnTqFrom old) := by
  have g := setOwnTqFrom_frame t old
  exact ⟨g.lt.trans h.lt, g.refclk.trans h.refclk, g.stepUntil.trans h.stepUntil,
    fun a ha => (g.reg a (fun e => ha (.inr (.inr (.inr (.inl e)))))).trans (h.reg a ha)⟩

theorem demote (h : ServoFrame s t) (i : Nat) : ServoFrame s (t.demote i) := (h.setTkState i tkReady).setSpn rfl rfl

theorem startSteer (h : ServoFrame s t) (i : Nat) : ServoFrame s (t.startSteer i) := by
  unfold State.startSteer
  extract_lets old fresh f t1 t2 x t3
  have h2 : ServoFrame s t2 := ite_keep (fun _ => (h.setTkState i _).setFld (.inr (.inr (.inr (.inl rfl)))) _ _)
    (fun _ => h.setTkState i _)
  have h3 : ServoFrame s t3 := h2.setSpn rfl rfl
  exact h3.setOwnTqFrom old

theorem selectTracker (h : ServoFrame s t) (i : Nat) : ServoFrame s (t.selectTracker i) := by
  unfold State.selectTracker
  exact ite_keep (fun _ => h) (fun _ => ite_keep (fun _ => h.startSteer 2) (fun _ =>
    ite_keep (fun _ => h.startSteer _) (fun _ => h.startSteer i)))

theorem modeSet (h : ServoFrame s t) (was : Bool) : ServoFrame s (t.modeSet was) := by
  unfold State.modeSet
  split
  · extract_lets x t1
    have hfree : ServoFrame s { t with spn := { t.spn with steering := none } } := h.setSpn rfl rfl
    have h1 : ServoFrame s t1 := by
      unfold t1
      split
      · exact hfree.demote _
      · exact h
    have h2 : ServoFrame s { t1 with spn := { t1.spn with fromFree := true } } := h1.setSpn rfl rfl
    exact h2.setOwnTqFrom _
  · split
    · split
      · exact h.selectTracker _
      · exact h
    · exact h

theorem writeSpnCtrl (h : ServoFrame s t) (v : Word) : ServoFrame s (t.writeFlds R.SPN_CTRL spnCtrlFlds v) :=
  ⟨(writeFlds_lt ..).trans h.lt, (congrArg SpnState.refclk (writeFlds_spn ..)).trans h.refclk,
   (congrArg SpnState.stepUntil (writeFlds_spn ..)).trans h.stepUntil,
   fun a ha => (reg_writeFlds_ne _ v (fun e => ha (.inr (.inr (.inl e)))) (fun e => ha (.inl e))
    (fun e => ha (.inr (.inl e)))).trans (h.reg a ha)⟩

/-- What a STEP is decided by. -/
theorem anyActive (h : ServoFrame s t) : t.anyActive = s.anyActive := by
  have hstate : t.rgState = s.rgState := funext fun g => by
    have hg : ¬ServoReg (R.RGN_STAT g) :=
      not_servoReg (by unfold R.SPN_STAT R.RGN_STAT; omega) (fun i => by unfold R.RGN_STAT R.TRK_STAT; omega)
    rw [State.rgState, State.fld, h.reg _ hg]
    rfl
  rw [State.anyActive, hstate]
  rfl

theorem reg_low (h : ServoFrame s t) {a : Nat} (hl : R.SPN_LTS ≤ a) (hh : a < R.TRK_STAT 0) : t.reg a = s.reg a :=
  h.reg a (not_servoReg (Nat.lt_of_lt_of_le (by decide) hl) (fun i => by unfold R.TRK_STAT at hh ⊢; omega))

theorem spnTarget (h : ServoFrame s t) : t.spnTarget = s.spnTarget := by
  have hr : ∀ a, R.SPN_LTS ≤ a → a < R.TRK_STAT 0 → t.reg a = s.reg a := fun a => h.reg_low
  unfold State.spnTarget State.pair State.fld
  rw [hr R.SPN_SET (by decide) (by decide), hr R.SPN_SET_HI (by decide) (by decide), hr R.SPN_SETN (by decide) (by decide),
    hr R.SPN_SETF (by decide) (by decide)]

end ServoFrame

/-! ### The mode: what a write of it does -/

theorem trackMode_writeSpnCtrl (s : State) (v : Word) :
    (s.writeFlds R.SPN_CTRL spnCtrlFlds v).trackMode
      = (bitsOf v.toNat F.SPN_CTRL_MODE.hi F.SPN_CTRL_MODE.lo == 1) := by
  have hlo : putBits (s.reg R.SPN_CTRL).toNat 8 8 (bitsOf v.toNat 8 8) < 2 ^ 32 :=
    putBits_lt (s.reg R.SPN_CTRL).isLt (by decide) (by decide) _
  have hword : wordWrite spnCtrlFlds (s.reg R.SPN_CTRL).toNat v.toNat
      = putBits (putBits (s.reg R.SPN_CTRL).toNat 8 8 (bitsOf v.toNat 8 8)) 1 0 (bitsOf v.toNat 1 0) := rfl
  have hmode : bitsOf v.toNat 1 0 % 2 ^ (1 - 0 + 1) = bitsOf v.toNat 1 0 := Nat.mod_mod ..
  have hfld : (s.writeFlds R.SPN_CTRL spnCtrlFlds v).fld R.SPN_CTRL F.SPN_CTRL_MODE = bitsOf v.toNat 1 0 := by
    rw [State.fld, reg_writeFlds_self _ v (by decide) (by decide), hword, BitVec.toNat_ofNat,
      Nat.mod_eq_of_lt (putBits_lt hlo (by decide) (by decide) _)]
    exact (bitsOf_putBits_self ..).trans hmode
  rw [State.trackMode, hfld]
  rfl

theorem modeSet_same {was : Bool} (h : s.trackMode = was) : s.modeSet was = s := by
  unfold State.modeSet
  cases was <;> simp [h]

/-- The state at the end of TRACK mode, before the hub shows its time quality. -/
def State.leaveTrack (s : State) (i : Nat) : State :=
  let t := ({ s with spn := { s.spn with steering := none } } : State).demote i
  { t with spn := { t.spn with fromFree := true } }

theorem modeSet_leave {i : Nat} (hmode : s.trackMode = false) (hi : s.spn.steering = some i) :
    s.modeSet true = (s.leaveTrack i).setOwnTq := by
  unfold State.modeSet
  rw [if_pos (by simp [hmode])]
  simp only [hi]
  rfl

theorem tkState_leaveTrack (s : State) (i : Nat) : (s.leaveTrack i).tkState i = tkReady :=
  fld_setFld_self s (R.TRK_STAT i) F.TRK_STAT_STATE tkReady (by decide) (by decide)

theorem readySince_leaveTrack (s : State) (i : Nat) : ((s.leaveTrack i).trk i).readySince = s.lt :=
  congrArg Tracker.readySince (tabGet_tabPut_self ..)

/-- The READY tracker of TRACK mode begins to steer: the ring tracker, else the preferred one (R61). -/
theorem modeSet_enter {i : Nat} (hmode : s.trackMode = true) (hfree : s.spn.steering = none) (hready : s.tkState i = tkReady)
    (hi : i = 2 ∨ (s.tkState 2 ≠ tkReady ∧ i = s.fld R.SPN_SW F.SPN_SW_PREF)) : s.modeSet false = s.startSteer i := by
  have hpref : s.fld R.SPN_SW F.SPN_SW_PREF < 2 := Nat.mod_lt _ (by decide)
  have hmem : i ∈ [2, 0, 1] := by
    rcases hi with rfl | ⟨-, rfl⟩
    · simp
    · simp; omega
  have hfound : ([2, 0, 1].find? (fun t => decide (s.tkState t = tkReady))).isSome = true :=
    List.find?_isSome.2 ⟨i, hmem, decide_eq_true hready⟩
  obtain ⟨j, hj⟩ := Option.isSome_iff_exists.1 hfound
  have hjready : s.tkState j = tkReady := by simpa using List.find?_some hj
  have hselect : s.modeSet false = s.selectTracker j := by
    unfold State.modeSet
    rw [if_neg (by simp), if_pos (by simp [hmode]), hj]
  rw [hselect, State.selectTracker, if_neg (by simp [hmode, hfree])]
  rcases hi with rfl | ⟨h2, rfl⟩
  · have hj2 : j = 2 := by simpa [hready] using hj.symm
    rw [if_pos hj2]
  · have hj2 : j ≠ 2 := fun e => h2 (e ▸ hjready)
    rw [if_neg hj2, if_pos hready]

end Sys2Proof.Machine

/-! The rows of LT: STEP, the read of SPN_LTS, and the obligation (R46, R58, R60, R71). -/
namespace Sys2Proof.Machine

variable {s t u : State}

/-! ### The write of SPN_CTRL -/

/-- The state a write of SPN_CTRL leaves, its STEP apart. -/
def State.spnMode (s : State) (v : Word) : State := (s.writeFlds R.SPN_CTRL spnCtrlFlds v).modeSet s.trackMode

theorem spnMode_frame (s : State) (v : Word) : ServoFrame s (s.spnMode v) :=
  ((ServoFrame.refl s).writeSpnCtrl v).modeSet _

theorem tkState_writeSpnCtrl (s : State) (v : Word) (i : Nat) :
    (s.writeFlds R.SPN_CTRL spnCtrlFlds v).tkState i = s.tkState i := by
  rw [State.tkState, State.fld, reg_writeFlds_ne _ v (by unfold R.TRK_STAT R.SPN_CTRL; omega)
    (by unfold R.TRK_STAT R.GLB_ACCERR; omega) (by unfold R.TRK_STAT R.GLB_ACCADR; omega)]
  rfl

theorem fld_writeSpnCtrl_sw (s : State) (v : Word) (f : Fld) :
    (s.writeFlds R.SPN_CTRL spnCtrlFlds v).fld R.SPN_SW f = s.fld R.SPN_SW f := by
  rw [State.fld, reg_writeFlds_ne _ v (by decide) (by decide) (by decide)]
  rfl

/-- A write that keeps the mode does nothing to the servo. -/
theorem spnMode_same {v : Word} (h : s.trackMode = (bitsOf v.toNat F.SPN_CTRL_MODE.hi F.SPN_CTRL_MODE.lo == 1)) :
    s.spnMode v = s.writeFlds R.SPN_CTRL spnCtrlFlds v :=
  modeSet_same ((trackMode_writeSpnCtrl s v).trans h.symm)

/-- TRACK mode ends (R58, log 75). -/
theorem spnMode_leave {v : Word} {i : Nat} (htrack : s.trackMode = true)
    (hmode : bitsOf v.toNat F.SPN_CTRL_MODE.hi F.SPN_CTRL_MODE.lo ≠ 1) (hi : s.spn.steering = some i) :
    (s.spnMode v).spn.steering = none ∧ (s.spnMode v).spn.fromFree = true ∧ (s.spnMode v).tkState i = tkReady
      ∧ ((s.spnMode v).trk i).readySince = s.lt := by
  have hfree : (s.writeFlds R.SPN_CTRL spnCtrlFlds v).trackMode = false := by
    rw [trackMode_writeSpnCtrl]
    exact beq_eq_false_iff_ne.2 hmode
  have hsteer : (s.writeFlds R.SPN_CTRL spnCtrlFlds v).spn.steering = some i := by rw [writeFlds_spn, hi]
  rw [State.spnMode, htrack, modeSet_leave hfree hsteer]
  have h := setOwnTq_frame ((s.writeFlds R.SPN_CTRL spnCtrlFlds v).leaveTrack i)
  refine ⟨h.steering, h.fromFree, (h.tkState i).trans (tkState_leaveTrack ..), ?_⟩
  rw [h.trk, readySince_leaveTrack, writeFlds_lt]

/-- TRACK mode begins (R61). -/
theorem spnMode_enter {v : Word} {i : Nat} (hfree : s.trackMode = false)
    (hmode : bitsOf v.toNat F.SPN_CTRL_MODE.hi F.SPN_CTRL_MODE.lo = 1) (hsteer : s.spn.steering = none)
    (hready : s.tkState i = tkReady) (hi : i = 2 ∨ (s.tkState 2 ≠ tkReady ∧ i = s.fld R.SPN_SW F.SPN_SW_PREF)) :
    s.spnMode v = (s.writeFlds R.SPN_CTRL spnCtrlFlds v).startSteer i := by
  rw [State.spnMode, hfree]
  refine modeSet_enter ?_ ?_ ?_ ?_
  · rw [trackMode_writeSpnCtrl, hmode]
    rfl
  · rw [writeFlds_spn, hsteer]
  · rw [tkState_writeSpnCtrl, hready]
  · rwa [tkState_writeSpnCtrl, fld_writeSpnCtrl_sw]

/-- A write of SPN_CTRL, decided by the state before it. -/
theorem writeSpnCtrl_eq (s : State) (v : Word) :
    s.writeSpnCtrl v
      = if v.toNat.testBit 3 && (!s.spn.refclk || decide (s.spn.stepUntil ≤ s.lt)) then
          if s.anyActive = true ∨ 999999999 < (s.reg R.SPN_SETN).toNat ∨ (!s.spn.refclk) = true then
            (s.spnMode v).bump R.SPN_STAT F.SPN_STAT_STEPREF
          else (s.spnMode v).stepTo s.spnTarget
        else s.spnMode v := by
  have h := spnMode_frame s v
  rw [← h.refclk, ← h.stepUntil, ← h.lt, ← h.anyActive, ← h.spnTarget,
    ← h.reg_low (a := R.SPN_SETN) (by decide) (by decide)]
  rfl

/-- STEP is refused, done, or does nothing (R60). -/
theorem spnCtrl_step (hawake : s.awake = true) (v : Word) :
    (v.toNat.testBit 3 = true → s.spn.refclk = false ∨ (s.spn.stepUntil ≤ s.lt ∧ (s.anyActive = true
        ∨ 999999999 < (s.reg R.SPN_SETN).toNat)) →
      exec (.spnCtrlStep v) s = .next ((s.spnMode v).bump R.SPN_STAT F.SPN_STAT_STEPREF))
    ∧ (v.toNat.testBit 3 = true → s.spn.stepUntil ≤ s.lt → s.anyActive = false → s.spn.refclk = true →
      (s.reg R.SPN_SETN).toNat ≤ 999999999 → exec (.spnCtrlStep v) s = .next ((s.spnMode v).stepTo s.spnTarget))
    ∧ (v.toNat.testBit 3 = false ∨ (s.spn.refclk = true ∧ s.lt < s.spn.stepUntil) →
      exec (.spnCtrlStep v) s = .next (s.spnMode v)) := by
  have hexec : exec (.spnCtrlStep v) s = .next (s.writeSpnCtrl v) := act_awake s hawake
  rw [hexec, writeSpnCtrl_eq]
  refine ⟨fun hstep href => ?refused, fun hstep hfree hidle hclk hns => ?steps, fun hno => ?nothing⟩
  case refused =>
    rcases href with hclk | ⟨hfree, hbusy⟩
    · rw [if_pos (by simp [hstep, hclk]), if_pos (by simp [hclk])]
    · rw [if_pos (by simp [hstep, hfree]), if_pos (hbusy.imp_right .inl)]
  case steps =>
    have hdone : ¬(s.anyActive = true ∨ 999999999 < (s.reg R.SPN_SETN).toNat ∨ (!s.spn.refclk) = true) := by
      rw [hidle, hclk]
      rintro (h | h | h)
      · exact absurd h (by decide)
      · exact absurd h (Nat.not_lt.2 hns)
      · exact absurd h (by decide)
    rw [if_pos (by simp [hstep, hfree]), if_neg hdone]
  case nothing =>
    rw [if_neg]
    rcases hno with hno | ⟨hclk, hbusy⟩
    · simp [hno]
    · simp [hclk, hbusy]

/-! ### Reading LT (R46) -/

theorem readWord_reg {a : Nat} {d : RegDesc} {ix : List Nat} (hp : inPage a = false) (hw : inWindow a = false)
    (hi : imageAt a = none) (hl : lookupReg a = some (d, ix)) : s.readWord a = s.readReg a d ix := by
  simp [State.readWord, hp, hw, hi, hl]

/-- A read that finds a latched word answers it, where the register lies on HD and a read of it changes nothing. -/
theorem readReg_latched {a : Nat} {d : RegDesc} {ix : List Nat} {w : Word} (hfe : d.fe = false)
    (hsync : s.readSync d.reg ix = s) (hkeep : s.latches a d.reg = []) (hclear : s.readClears a d ix = s)
    (hw : s.latched a = some w) : s.readReg a d ix = (s, w.toNat, false) := by
  simp [State.readReg, hfe, hsync, hkeep, hclear, hw, State.forEach]

theorem readWord_ltWord {a : Nat} {w : Word} (ha : a = R.SPN_LTS_HI ∨ a = R.SPN_LTN ∨ a = R.SPN_LTF)
    (hw : s.latched a = some w) : s.readWord a = (s, w.toNat, false) := by
  rcases ha with rfl | rfl | rfl <;>
    exact (readWord_reg (by decide) (by decide) (by decide) rfl).trans (readReg_latched rfl rfl rfl rfl hw)

theorem execPairLowerRead_ltWord {a : Nat} {w : Word} (hawake : s.awake = true)
    (ha : a = R.SPN_LTS_HI ∨ a = R.SPN_LTN ∨ a = R.SPN_LTF) (hw : s.latched a = some w) :
    exec (.pairLowerRead a) s = .next (s.answer w.toNat 0) := by
  have hok : addrOk a = true := by rcases ha with rfl | rfl | rfl <;> decide
  change execPairLowerRead a s = _
  rw [execPairLowerRead, act_awake s hawake, if_pos hok, readWord_ltWord ha hw]
  rfl

/-- The state a read of SPN_LTS leaves. -/
def State.latchLt (s : State) : State :=
  ((s.latchWord R.SPN_LTS_HI (BitVec.ofNat 32 (ltSec s.lt / 2 ^ 32))).latchWord R.SPN_LTN
    (BitVec.ofNat 32 (ltNs s.lt))).latchWord R.SPN_LTF (BitVec.ofNat 32 (ltFrac s.lt))

theorem execSpnLtsRead_eq (hawake : s.awake = true) :
    exec .spnLtsRead s = .next (s.latchLt.answer (ltSec s.lt % 2 ^ 32) 0) :=
  act_awake s hawake

theorem latched_latchWord_self (s : State) (a : Nat) (w : Word) : (s.latchWord a w).latched a = some w :=
  tabGet_tabPut_self (fun _ => none) s.latch a (some w)
theorem latched_latchWord_ne (s : State) {a b : Nat} (w : Word) (h : b ≠ a) : (s.latchWord a w).latched b = s.latched b :=
  tabGet_tabPut_ne (fun _ => none) s.latch (some w) h
theorem latched_answer (s : State) (v st a : Nat) : (s.answer v st).latched a = s.latched a := rfl

theorem spnLtsRead_row (hawake : s.awake = true) :
    ∃ t, exec .spnLtsRead s = .next t ∧ t.bus = ⟨ltSec s.lt % 2 ^ 32, 0, []⟩
    ∧ t.latched R.SPN_LTS_HI = some (BitVec.ofNat 32 (ltSec s.lt / 2 ^ 32))
    ∧ t.latched R.SPN_LTN = some (BitVec.ofNat 32 (ltNs s.lt)) ∧ t.latched R.SPN_LTF = some (BitVec.ofNat 32 (ltFrac s.lt))
    ∧ t.regs = s.regs := by
  refine ⟨_, execSpnLtsRead_eq hawake, rfl, ?_, ?_, ?_, rfl⟩ <;> rw [latched_answer, State.latchLt]
  · rw [latched_latchWord_ne _ _ (by decide), latched_latchWord_ne _ _ (by decide), latched_latchWord_self]
  · rw [latched_latchWord_ne _ _ (by decide), latched_latchWord_self]
  · rw [latched_latchWord_self]

/-! ### After a step (R51, R60, R71) -/

/-- What a step leaves of the time and of Spindle. -/
theorem stepTo_time (s : State) (new : Nat) : (s.stepTo new).lt = new ∧ (s.stepTo new).always = s.always
    ∧ (s.stepTo new).spn.gridDue = true ∧ (s.stepTo new).spn.stepUntil = new + 1000 * nsU
    ∧ (s.stepTo new).spn.steering = s.spn.steering := by
  have h := stepTo_frame s new
  obtain ⟨c, p, hspn⟩ := h.spn
  refine ⟨h.lt, h.always, ?_, ?_, ?_⟩ <;> rw [hspn] <;> rfl

/-- A step back passes no target. -/
theorem stepTo_backward_units {new m : Nat} (h : new ≤ s.lt) (hm : m < 16) :
    (s.stepTo new).reg (R.CMP_CTRL m) = s.reg (R.CMP_CTRL m) ∧ (s.stepTo new).cmpU m = s.cmpU m := by
  have hf : SpindleFrame (fun _ => False) (s.stepStart new) (s.stepMoved new) := stepMoved_frame s new
  rw [stepTo_backward h]
  exact ⟨hf.ctrl id hm, hf.unit m id⟩

/-- A step forward over targets of an armed unit. -/
theorem lateCmp_stepTo {new m k : Nat} (h : s.lt < new) (hm : m < 16) (harmed : s.cmpArmed m = true)
    (hk : k = passedTargets (s.cmpU m).target (s.cmpPer m) new) (h0 : 0 < k) :
    LateCmp (s.stepTo new) m (satInc 8 (s.fld (R.CMP_CTRL m) F.CMP_CTRL_MISSED) (k - 1)) (s.cmpPer m)
      ((s.cmpU m).target + k * s.cmpPer m) := by
  rw [stepTo_forward h]
  exact lateCmp_cmpStep (s := s.stepStart new) (stepMoved_frame s new) hm harmed hk h0

/-! ### The obligation -/

/-- Settles O38: the mode leaves alone what decides a STEP, and a step is the new LT, then each compare unit by itself. -/
theorem localTimeRows : Obligations.LocalTimeRows := by
  refine ⟨fun s hawake => ⟨?write, spnLtsRead_row hawake, fun a w ha hlatched => ?latched⟩, fun s new => ?step⟩
  case write =>
    intro v w u hw hu
    obtain rfl : u = s.spnMode v := by rw [hu, hw, State.spnMode]
    subst hw
    exact ⟨spnMode_same, fun i htrack hmode hi _ => spnMode_leave htrack hmode hi,
      fun hfree hmode hsteer h2 => spnMode_enter hfree hmode hsteer h2 (.inl rfl),
      fun hfree hmode hsteer h2 hpref => spnMode_enter hfree hmode hsteer hpref (.inr ⟨h2, rfl⟩), spnCtrl_step hawake v⟩
  case latched => exact ⟨_, execPairLowerRead_ltWord hawake ha hlatched, rfl, rfl⟩
  case step =>
    obtain ⟨hlt, halways, hgrid, huntil, hsteer⟩ := stepTo_time s new
    refine ⟨hlt, halways, hgrid, huntil, hsteer, fun h m => stepTo_backward_units h m.isLt, fun m k h harmed hk h0 => ?_⟩
    have hlate := lateCmp_stepTo h m.isLt harmed hk h0
    exact ⟨hlate.late, hlate.source, hlate.missed, hlate.oneShot, hlate.periodic⟩

end Sys2Proof.Machine

/-! The rotation order of the NEXT operations (R134). -/
namespace Sys2Proof.Machine

/-! ### Channel positions -/

theorem rotChan_lt {i : Nat} (h : i < 48) : rotChan i < 48 := by
  unfold rotChan
  omega

/-- The cluster of a position's channel, of eight channels each: the positions go round the six clusters. -/
theorem rotChan_cluster {i : Nat} (h : i < 48) : rotChan i / 8 = i % 6 := by
  unfold rotChan
  omega

/-- The position after 47 is 0, again on another cluster: 48 is a multiple of 6. -/
theorem rotChan_cluster_succ_ne {i : Nat} (h : i < 48) : rotChan i / 8 ≠ rotChan ((i + 1) % 48) / 8 := by
  have hnext : (i + 1) % 48 % 6 = (i + 1) % 6 := Nat.mod_mod_of_dvd (i + 1) (by decide)
  rw [rotChan_cluster h, rotChan_cluster (Nat.mod_lt _ (by decide)), hnext]
  omega

/-! ### The operation at a position -/

theorem rotOp_channel (g : Nat) {i : Nat} (kind : OpKind) (prio idx : Nat) (h : i < 48) :
    rotOp g i kind prio idx = ⟨kind, 48 * g + rotChan i, prio, idx, false⟩ :=
  if_pos h

/-- At a spare's position the operation is the calibration of the spare, whatever was asked. -/
theorem rotOp_spare (g j : Nat) (kind : OpKind) (prio idx : Nat) :
    rotOp g (48 + j) kind prio idx = ⟨.sprCal, 6 * g + j, prio, idx, true⟩ := by
  rw [rotOp, if_neg (by omega), Nat.add_sub_cancel_left]

/-! ### The obligation -/

/-- Settles O35: consecutive positions differ in the cluster `i % 6`, and the spares' positions begin at 48. -/
theorem rotationOrder : Obligations.RotationOrder :=
  ⟨fun g _ kind prio idx h => rotOp_channel g kind prio idx h,
    fun _ h => ⟨rotChan_lt h, rotChan_cluster_succ_ne h⟩,
    fun g j kind prio idx _ => rotOp_spare g j kind prio idx,
    fun _ _ => rfl⟩

end Sys2Proof.Machine

/-! Pseudo-random sequences and their checker (R314). -/
namespace Sys2Proof.Machine

/-! ### The register of a sequence -/

theorem prbsShift_lt (p : Nat × Nat) (r : Nat) (b : Bool) : prbsShift p r b < 2 ^ p.1 := Nat.mod_lt _ (Nat.two_pow_pos _)

/-- A shift takes the new bit in at bit 0 and moves the others up. -/
theorem testBit_prbsShift (p : Nat × Nat) (r : Nat) (b : Bool) {j : Nat} (h : j < p.1) :
    (prbsShift p r b).testBit j = if j = 0 then b else r.testBit (j - 1) := by
  rw [prbsShift, Nat.testBit_mod_two_pow, decide_eq_true h, Bool.true_and]
  cases j with
  | zero => cases b <;> simp [b2n, Nat.testBit_zero, Nat.add_mod]
  | succ j =>
    have hhalf : (2 * r + b2n b) / 2 = r := by cases b <;> simp [b2n]; omega
    rw [Nat.testBit_succ, hhalf]
    rfl

theorem foldl_prbsShift_lt (p : Nat × Nat) (bs : List Bool) {r : Nat} (h : r < 2 ^ p.1) :
    bs.foldl (prbsShift p) r < 2 ^ p.1 := by
  induction bs generalizing r with
  | nil => exact h
  | cons b bs ih => exact ih (prbsShift_lt p r b)

/-- Two registers that take in the same bits, one of them each bit xor `inv`, agree on those bits up to `inv`. -/
theorem testBit_foldl_prbsShift (p : Nat × Nat) (inv : Bool) (bs : List Bool) {a r m : Nat}
    (h : ∀ j < m, j < p.1 → a.testBit j = (r.testBit j != inv)) {j : Nat} (hj : j < m + bs.length) (hp : j < p.1) :
    ((bs.map (· != inv)).foldl (prbsShift p) a).testBit j = ((bs.foldl (prbsShift p) r).testBit j != inv) := by
  induction bs generalizing a r m with
  | nil => exact h j hj hp
  | cons b bs ih =>
    refine ih (m := m + 1) (fun i hi hip => ?_) (by simp only [List.length_cons] at hj; omega)
    rw [testBit_prbsShift p _ _ hip, testBit_prbsShift p _ _ hip]
    split
    · rfl
    · exact h (i - 1) (by omega) (by omega)

/-- The polynomials of R314 have their taps inside the register. -/
theorem prbsPoly_taps (q : Nat) : 0 < (prbsPoly q).1 ∧ (prbsPoly q).2 ≤ (prbsPoly q).1 := by
  unfold prbsPoly
  split <;> decide

/-! ### Runs of a sequence -/

@[simp] theorem length_prbsRun (p : Nat × Nat) (k r : Nat) : (prbsRun p k r).1.length = k := by
  induction k generalizing r with
  | zero => rfl
  | succ k ih => exact congrArg (· + 1) (ih _)

/-- The register behind a run is the one its bits are shifted into. -/
theorem foldl_prbsRun (p : Nat × Nat) (k r : Nat) : (prbsRun p k r).1.foldl (prbsShift p) r = (prbsRun p k r).2 := by
  induction k generalizing r with
  | zero => rfl
  | succ k ih => exact ih _

theorem prbsRun_add (p : Nat × Nat) (m k r : Nat) :
    prbsRun p (m + k) r
      = ((prbsRun p m r).1 ++ (prbsRun p k (prbsRun p m r).2).1, (prbsRun p k (prbsRun p m r).2).2) := by
  induction m generalizing r with
  | zero => simp [prbsRun]
  | succ m ih =>
    rw [Nat.succ_add, prbsRun, ih]
    rfl

/-! ### The checker -/

@[simp] theorem flipFirst_zero (bs : List Bool) : flipFirst 0 bs = bs := by
  cases bs <;> rfl

/-- A checker in step with the sequence counts the inverted bits; if the rest of them come inverted, exactly the others. -/
theorem prbsCheck_run (p : Nat × Nat) (inv : Bool) {n k : Nat} (h : n ≤ k) (r : Nat) :
    prbsCheck p ((flipFirst n (prbsRun p k r).1).map (· != inv)) r = (if inv then k - n else n, (prbsRun p k r).2) := by
  induction k generalizing n r with
  | zero =>
    obtain rfl : n = 0 := Nat.le_zero.1 h
    cases inv <;> rfl
  | succ k ih =>
    cases n with
    | zero =>
      have htail := ih (Nat.zero_le k) (prbsShift p r (prbsNext p r))
      rw [flipFirst_zero] at htail ⊢
      simp only [prbsRun, List.map_cons, prbsCheck, htail]
      cases inv <;> simp [b2n]
    | succ n =>
      have htail := ih (Nat.le_of_succ_le_succ h) (prbsShift p r (prbsNext p r))
      simp only [prbsRun, flipFirst, List.map_cons, prbsCheck, htail]
      cases inv <;> simp [b2n]

/-! ### Seeding -/

theorem prbsNext_of_testBit {p : Nat × Nat} (h1 : 0 < p.1) (h2 : p.2 ≤ p.1) {a r : Nat} {inv : Bool}
    (h : ∀ j < p.1, a.testBit j = (r.testBit j != inv)) : prbsNext p a = prbsNext p r := by
  rw [prbsNext, h (p.1 - 1) (by omega), h (p.2 - 1) (by omega), prbsNext]
  cases inv <;> simp

/-- The checker seeds itself from a sequence and goes on in step with it; an inverted sequence seeds it too, but its first bit
after the seed is then wrong. -/
theorem prbsSeed_run {p : Nat × Nat} (h1 : 0 < p.1) (h2 : p.2 ≤ p.1) (inv : Bool) {r : Nat} (hr : r < 2 ^ p.1) :
    prbsSeed p ((prbsRun p (p.1 + 64) r).1.map (· != inv)) = if inv then none else some (prbsRun p (p.1 + 64) r).2 := by
  have hfirst : (prbsRun p p.1 r).1.length = p.1 := length_prbsRun ..
  have hseed : ∀ j < p.1, (((prbsRun p p.1 r).1.map (· != inv)).foldl (prbsShift p) 0).testBit j
      = ((prbsRun p p.1 r).2.testBit j != inv) := fun j hj => by
    rw [← foldl_prbsRun]
    exact testBit_foldl_prbsShift p inv _ (m := 0) (fun _ h => absurd h (Nat.not_lt_zero _)) (by omega) hj
  have hlt := foldl_prbsShift_lt p ((prbsRun p p.1 r).1.map (· != inv)) (Nat.two_pow_pos p.1)
  have hlt' := foldl_prbsShift_lt p (prbsRun p p.1 r).1 hr
  rw [foldl_prbsRun] at hlt'
  rw [prbsRun_add, prbsSeed, List.map_append, List.take_left' (by simp), List.drop_left' (by simp),
    List.take_of_length_le (by simp)]
  generalize ((prbsRun p p.1 r).1.map (· != inv)).foldl (prbsShift p) 0 = a at hseed hlt ⊢
  generalize (prbsRun p p.1 r).2 = b at hseed hlt' ⊢
  cases inv with
  | false =>
    obtain rfl : a = b := Nat.eq_of_testBit_eq fun j => by
      rcases Nat.lt_or_ge j p.1 with hj | hj
      · simpa using hseed j hj
      · rw [Nat.testBit_lt_two_pow (Nat.lt_of_lt_of_le hlt (Nat.pow_le_pow_right (by decide) hj)),
          Nat.testBit_lt_two_pow (Nat.lt_of_lt_of_le hlt' (Nat.pow_le_pow_right (by decide) hj))]
    have hcheck := prbsCheck_run p false (Nat.zero_le 64) a
    rw [flipFirst_zero] at hcheck
    rw [hcheck]
    rfl
  | true =>
    have hnext := prbsNext_of_testBit h1 h2 hseed
    obtain ⟨bs, hbs⟩ : ∃ bs, (prbsRun p 64 b).1 = prbsNext p b :: bs := ⟨_, rfl⟩
    simp [hbs, prbsCheck, hnext, b2n]

end Sys2Proof.Machine

/-! What an event of a source that calls for no test writes: the registers of the fault collector and the log (R383 to R390). -/
namespace Sys2Proof.Machine

variable {P : State → Prop} {s : State}

/-- A register of the fault collector. -/
abbrev FltReg (a : Nat) : Prop := 0x20000 ≤ a ∧ a < 0x28000

/-- Closed under writes of the registers of the fault collector. -/
structure KeepFltRegs (P : State → Prop) : Prop where
  setReg : ∀ s a w, FltReg a → P s → P (State.setReg s a w)

theorem sourceDefined_lt {src : Nat} (h : sourceDefined src = true) : src < 256 := by
  simp only [sourceDefined, Bool.or_eq_true, decide_eq_true_eq] at h
  omega

/-- The event of a source that calls for no test. -/
theorem raiseD_of_no_test {src inst detail : Nat} (hd : sourceDefined src = true)
    (ht : s.testTargets src inst detail none = []) :
    s.raiseD src inst detail = ((((s.record src inst detail true false).stopRequest src).updAlive).markHigh src) := by
  unfold State.raiseD State.raiseWith State.raiseAt
  simp only [hd, ht, State.queueTests]
  cases s.flt.running <;> simp

namespace KeepFltRegs
variable (K : KeepFltRegs P) (KF : KeepFlt P) (Kg : KeepLog P)
include K

theorem setFld {a : Nat} (ha : FltReg a) (f : Fld) (v : Nat) (h : P s) : P (s.setFld a f v) := K.setReg _ _ _ ha h

theorem setSticky {src : Nat} (hs : src < 256) (b : Bool) (h : P s) : P (s.setSrcBit R.FLT_STICKY src b) :=
  K.setReg _ _ _ (by unfold R.FLT_STICKY; omega) h

theorem updRaw {src : Nat} (hs : src < 256) (h : P s) : P (s.updRaw src) :=
  K.setReg _ _ _ (by unfold R.FLT_RAW; omega) h

theorem setListBit {src : Nat} (hs : src < 256) (inst : Nat) (b : Bool) (h : P s) : P (s.setListBit src inst b) := by
  unfold State.setListBit
  split
  · exact K.setReg _ _ _ (by unfold R.FLT_LIST; omega) h
  · exact h

theorem updAlive (h : P s) : P s.updAlive :=
  have hr : FltReg R.FLT_ALIVE := by decide
  K.setFld hr _ _ (K.setFld hr _ _ (K.setFld hr _ _ (K.setFld hr _ _ (K.setFld hr _ _ h))))

include KF Kg

theorem writeLog {bytes : List Byte} (hl : bytes.length ≤ 32) (h : P s) : P (s.writeLog bytes) := by
  have hr : FltReg R.FLT_LOG := by decide
  unfold State.writeLog
  extract_lets w r s1 s2 s3
  have hw : w < 256 := Nat.mod_lt _ (by decide)
  have h1 : P s1 := ite_keep (fun _ => K.setFld hr _ _ (K.setFld hr _ _ h)) (fun _ => h)
  have h2 : P s2 := keep_logBytes Kg (by omega) (by omega) h1
  exact KF.flt _ _ (K.setFld hr _ _ h2)

theorem record {src : Nat} (hs : src < 256) (inst detail : Nat) (real queued : Bool) (h : P s) :
    P (s.record src inst detail real queued) := by
  unfold State.record
  extract_lets known forced cls s1 s2 latch s3
  have h2 : P s2 := ite_keep (fun _ => K.setSticky hs _ h) (fun _ => K.setListBit hs _ _ (K.setSticky hs _ h))
  have hfirst : ∀ w t, P ((s2.setReg R.FLT_FIRST w).setSt R.FLT_FIRST_T R.FLT_FIRST_T_HI t) := fun _ _ =>
    K.setReg _ _ _ (by decide) (K.setReg _ _ _ (by decide) (K.setReg _ _ _ (by decide) h2))
  have hover : P ((s2.setFlag R.FLT_OVF F.FLT_OVF_OVF true).bump R.FLT_OVF F.FLT_OVF_OVFCNT) :=
    K.setFld (by decide) _ _ (K.setFld (by decide) _ _ h2)
  have h3 : P s3 := ite_keep (fun _ => ite_keep (fun _ => hfirst _ _) (fun _ => hover)) (fun _ => h2)
  refine ite_keep (fun _ => ite_keep (fun _ => ?count) (fun _ => ?log)) (fun _ => h2)
  case count => exact K.setFld (by unfold R.FLT_CNT; omega) _ _ h3
  case log => exact K.writeLog KF Kg (Nat.le_of_eq (length_logEntry ..)) h3

theorem raiseD {src inst detail : Nat} (hd : sourceDefined src = true) (ht : s.testTargets src inst detail none = [])
    (h : P s) : P (s.raiseD src inst detail) := by
  rw [raiseD_of_no_test hd ht]
  exact keep_markHigh KF (K.updAlive (keep_stopRequest KF (K.record KF Kg (sourceDefined_lt hd) _ _ _ _ h)))

theorem setLine {src inst : Nat} {on : Bool} (hd : sourceDefined src = true)
    (ht : ∀ s : State, s.testTargets src inst 0 none = []) (h : P s) : P (s.setLine src inst on) := by
  have hs := sourceDefined_lt hd
  unfold State.setLine State.setEpisode
  extract_lets was
  refine ite_keep (fun _ => ?rise) (fun _ => ite_keep (fun _ => ?fall) (fun _ => h))
  case rise => exact K.raiseD KF Kg hd (ht _) (K.updRaw hs (KF.flt _ _ h))
  case fall => exact K.updRaw hs (keep_markHigh KF (KF.flt _ _ h))

end KeepFltRegs
end Sys2Proof.Machine

/-! What leaves the control registers of the lanes alone: time sources, streams, ports and links (R54, R313, R330). -/
namespace Sys2Proof.Machine

variable {s₀ s : State}

/-- A register that is no lane's LNE_CTRL. -/
abbrev NoLaneCtrl (a : Nat) : Prop := a < 0x40000 ∨ 0x40280 ≤ a ∨ a % 0x40 ≠ 0

/-- LNE_CTRL of every lane holds the word it held in `s₀`. -/
def SameLaneCtrl (s₀ t : State) : Prop := ∀ i < 10, t.reg (R.LNE_CTRL i) = s₀.reg (R.LNE_CTRL i)

namespace SameLaneCtrl

theorem refl (s : State) : SameLaneCtrl s s := fun _ _ => rfl

theorem setReg {a : Nat} (ha : NoLaneCtrl a) (w : Word) (h : SameLaneCtrl s₀ s) : SameLaneCtrl s₀ (s.setReg a w) :=
  fun i hi => (reg_setReg_ne s w (by unfold R.LNE_CTRL; omega)).trans (h i hi)

theorem setFld {a : Nat} (ha : NoLaneCtrl a) (f : Fld) (v : Nat) (h : SameLaneCtrl s₀ s) : SameLaneCtrl s₀ (s.setFld a f v) :=
  h.setReg ha _

theorem keepFltRegs : KeepFltRegs (SameLaneCtrl s₀) := ⟨fun _ _ w ha h => h.setReg (by omega) w⟩
theorem keepOut : KeepOut (SameLaneCtrl s₀) := ⟨fun _ _ h => h, fun _ _ h => h, fun _ _ h => h⟩
theorem keepFlt : KeepFlt (SameLaneCtrl s₀) := ⟨fun _ _ h => h, fun _ _ h => h⟩
theorem keepLog : KeepLog (SameLaneCtrl s₀) := ⟨fun _ _ _ _ _ h => h⟩
theorem keepSpn : KeepSpn (SameLaneCtrl s₀) := ⟨fun _ _ h => h⟩
theorem keepStr : KeepStr (SameLaneCtrl s₀) := ⟨fun _ _ _ h => h⟩
theorem keepGge : KeepGge (SameLaneCtrl s₀) := ⟨fun _ _ h => h⟩
theorem keepGaps : KeepGaps (SameLaneCtrl s₀) := ⟨fun _ _ h => h, fun _ _ h => h⟩
theorem keepLnk : KeepLnk (SameLaneCtrl s₀) := ⟨fun _ _ _ h => h⟩
theorem keepLane : KeepLane (SameLaneCtrl s₀) := ⟨fun _ _ _ h => h⟩
theorem keepRing : KeepRing (SameLaneCtrl s₀) := ⟨fun _ _ h => h⟩

theorem raiseD {src inst detail : Nat} (hd : sourceDefined src = true) (ht : s.testTargets src inst detail none = [])
    (h : SameLaneCtrl s₀ s) : SameLaneCtrl s₀ (s.raiseD src inst detail) :=
  keepFltRegs.raiseD keepFlt keepLog hd ht h

theorem setLine {src inst : Nat} {on : Bool} (hd : sourceDefined src = true)
    (ht : ∀ s : State, s.testTargets src inst 0 none = []) (h : SameLaneCtrl s₀ s) : SameLaneCtrl s₀ (s.setLine src inst on) :=
  keepFltRegs.setLine keepFlt keepLog hd ht h

/-! #### Lane states -/

theorem setStat (i : Nat) (f : Fld) (v : Nat) (h : SameLaneCtrl s₀ s) : SameLaneCtrl s₀ (s.setFld (R.LNE_STAT i) f v) :=
  h.setFld (by unfold R.LNE_STAT; omega) f v

theorem leaveL0 (i : Nat) (h : SameLaneCtrl s₀ s) : SameLaneCtrl s₀ (s.leaveL0 i) := by
  have heye : SameLaneCtrl s₀ (s.setReg (R.LNE_EYE i) 0) := h.setReg (by unfold R.LNE_EYE; omega) _
  exact (keepLane.setLn _ _ _ (heye.setStat i _ _)).setLine (by decide) (fun _ => rfl)

theorem laneStart (i r : Nat) (h : SameLaneCtrl s₀ s) : SameLaneCtrl s₀ (s.laneStart i r) := by
  have hstart := (keepLane.setLn s i { s.ln i with target := r, since := s.lt, late := false } h).setStat i
    F.LNE_STAT_TRANS (b2n true)
  exact ite_keep (fun _ => hstart) (fun _ => hstart.leaveL0 i)

theorem laneSlot (i : Nat) (p : Option Nat) (h : SameLaneCtrl s₀ s) : SameLaneCtrl s₀ (s.laneSlot i p) :=
  (h.setStat i _ _).setStat i _ _

theorem laneAsk (i r : Nat) (h : SameLaneCtrl s₀ s) : SameLaneCtrl s₀ (s.laneAsk i r) := by
  have hasked := keepLane.setLn s i { s.ln i with asked := r } h
  exact ite_keep (fun _ => hasked) fun _ => ite_keep (fun _ => hasked.laneSlot i _) fun _ =>
    ite_keep (fun _ => hasked.laneSlot i _) fun _ => ite_keep (fun _ => hasked) fun _ => hasked.laneStart i r

/-! #### Time sources -/

theorem setTkState (i v : Nat) (h : SameLaneCtrl s₀ s) : SameLaneCtrl s₀ (s.setTkState i v) :=
  h.setFld (by unfold R.TRK_STAT; omega) _ _

theorem updTq (h : SameLaneCtrl s₀ s) : SameLaneCtrl s₀ s.updTq := fun i hi =>
  (((TqFrame.refl s).updTqFrom _).reg _ (by unfold R.LNE_CTRL R.SPN_STAT; omega)).trans (h i hi)

theorem startSteer (i : Nat) (h : SameLaneCtrl s₀ s) : SameLaneCtrl s₀ (s.startSteer i) := fun j hj =>
  (((ServoFrame.refl s).startSteer i).reg _ (not_servoReg (by unfold R.LNE_CTRL R.SPN_STAT; omega)
    (fun _ => by unfold R.LNE_CTRL R.TRK_STAT; omega))).trans (h j hj)

theorem demote (i : Nat) (h : SameLaneCtrl s₀ s) : SameLaneCtrl s₀ (s.demote i) := keepSpn.spn _ _ (h.setTkState i _)

theorem applyRate (ppb : Rat) (h : SameLaneCtrl s₀ s) : SameLaneCtrl s₀ (s.applyRate ppb) :=
  setLine (by decide) (fun _ => rfl) ((h.setReg (by decide) _).setReg (by decide) _)

theorem enterHoldover (h : SameLaneCtrl s₀ s) : SameLaneCtrl s₀ s.enterHoldover := by
  unfold State.enterHoldover
  extract_lets x s1 s2
  have h1 : SameLaneCtrl s₀ s1 := keepSpn.spn _ _ h
  have h2 : SameLaneCtrl s₀ s2 := ite_keep (fun _ => h1.applyRate _) (fun _ => h1)
  exact (h2.raiseD (by decide) rfl).updTq

theorem switchTo (o : Nat) (h : SameLaneCtrl s₀ s) : SameLaneCtrl s₀ (s.switchTo o) := by
  unfold State.switchTo
  extract_lets s1
  have h1 : SameLaneCtrl s₀ s1 := by
    unfold s1
    split
    · exact ite_keep (fun _ => h.demote _) (fun _ => h)
    · exact h
  exact (h1.startSteer o).raiseD (by decide) rfl

theorem dropSource (i : Nat) (h : SameLaneCtrl s₀ s) : SameLaneCtrl s₀ (s.dropSource i) :=
  keepSpn.spn _ _ ((h.setTkState i _).setFld (by unfold R.TRK_STAT; omega) _ _)

theorem loseSource (i : Nat) (h : SameLaneCtrl s₀ s) : SameLaneCtrl s₀ (s.loseSource i) := by
  unfold State.loseSource
  extract_lets steer s1 s2
  have h1 : SameLaneCtrl s₀ s1 := h.dropSource i
  have h2 : SameLaneCtrl s₀ s2 := ite_keep (fun _ => h1.raiseD (by decide) rfl) fun _ =>
    ite_keep (fun _ => h1.raiseD (by decide) rfl) fun _ => h1.raiseD (by decide) rfl
  exact ite_keep (fun _ => h) fun _ =>
    ite_keep (fun _ => ite_keep (fun _ => h2.switchTo _) fun _ => h2.enterHoldover) fun _ => h2

theorem loseAll (ts : List Nat) (h : SameLaneCtrl s₀ s) : SameLaneCtrl s₀ (s.loseAll ts) := by
  unfold State.loseAll
  extract_lets us i
  have hboth := ((h.dropSource 0).dropSource 1).raiseD (src := 128) (inst := instHub) (detail := 0) (by decide) rfl
  exact ite_keep (fun _ => (hboth.raiseD (by decide) rfl).enterHoldover) fun _ => keep_forEach h fun _ t hs => hs.loseSource t

/-! #### Streams -/

theorem putStr (c : Nat) (x : StrState) (h : SameLaneCtrl s₀ s) : SameLaneCtrl s₀ (s.putStr c x) := by
  have hwp : NoLaneCtrl (R.STR_WP c) := by unfold R.STR_WP; omega
  have hsp : NoLaneCtrl (R.STR_SP c) := by unfold R.STR_SP; omega
  have hrp : NoLaneCtrl (R.STR_RP c) := by unfold R.STR_RP; omega
  have hfstat : NoLaneCtrl (R.STR_FSTAT c) := by unfold R.STR_FSTAT; omega
  have hstat : NoLaneCtrl (R.STR_STAT c) := by unfold R.STR_STAT; omega
  unfold State.putStr
  extract_lets u ptr past rise s1 s2 s3 s4 pk s5 s6 s7 s8
  have h1 : SameLaneCtrl s₀ s1 := keepStr.setStr _ _ _ h
  have h4 : SameLaneCtrl s₀ s4 := ((h1.setFld hwp _ _).setFld hsp _ _).setFld hrp _ _
  have h8 : SameLaneCtrl s₀ s8 := (((h4.setFld hfstat _ _).setFld hfstat _ _).setFld hstat _ _).setFld hstat _ _
  exact ite_keep (fun _ => h8.raiseD (by decide) rfl) fun _ => h8

theorem rewind (h : SameLaneCtrl s₀ s) : SameLaneCtrl s₀ s.rewind :=
  keep_forEach (keepGaps.gapStore _ _ h) fun _ c hs => hs.putStr c _

theorem ggeDiscard (c : Nat) (h : SameLaneCtrl s₀ s) : SameLaneCtrl s₀ (s.ggeDiscard c) := by
  have hdrop : ∀ x, SameLaneCtrl s₀ { s with gge := x } := fun x => keepGge.gge s x h
  exact ite_keep (fun _ => hdrop _) fun _ => (hdrop _).setFld (by decide) _ _

theorem rewindAll (h : SameLaneCtrl s₀ s) : SameLaneCtrl s₀ s.rewindAll :=
  rewind (keep_forEach h fun _ c hs => keepStr.setStr _ _ _ (keep_setGg keepGge (hs.ggeDiscard c)))

theorem pathSync (h : SameLaneCtrl s₀ s) : SameLaneCtrl s₀ s.pathSync :=
  keepRing.ring _ _ (ite_keep (fun _ => h.rewindAll) fun _ => h)

/-! #### Ports and links -/

theorem segChanged (h : SameLaneCtrl s₀ s) : SameLaneCtrl s₀ s.segChanged := keep_segChanged keepOut keepLnk keepRing h

theorem setX (p v : Nat) (h : SameLaneCtrl s₀ s) : SameLaneCtrl s₀ (s.setX p v) :=
  h.setFld (by unfold R.NET_STAT; omega) _ _

theorem portsSync (h : SameLaneCtrl s₀ s) : SameLaneCtrl s₀ s.portsSync := by
  have hx := (h.setX 0 (s.xNow 0)).setX 1 (s.xNow 1)
  exact setLine (by decide) (fun _ => rfl) (ite_keep (fun _ => hx) fun _ => hx.segChanged)

theorem pcsLink (p : Nat) (up : Bool) (h : SameLaneCtrl s₀ s) : SameLaneCtrl s₀ (s.pcsLink p up) := by
  unfold State.pcsLink
  extract_lets s1 x s2 s3
  have h1 : SameLaneCtrl s₀ s1 := h.setFld (by unfold R.NET_STAT; omega) _ _
  have h2 : SameLaneCtrl s₀ s2 := keepRing.ring _ _ h1
  have h3 : SameLaneCtrl s₀ s3 := ite_keep (fun _ => h2.loseAll _) fun _ => h2
  exact ite_keep (fun _ => h) fun _ => h3.portsSync

theorem linkDrop (k : Nat) (h : SameLaneCtrl s₀ s) : SameLaneCtrl s₀ (s.linkDrop k) := by
  have hstat : NoLaneCtrl (R.CHP_STAT k) := by unfold R.CHP_STAT; omega
  unfold State.linkDrop
  extract_lets s1 was paths s2 s3 x s4 y s5 z s6 s7
  have h1 : SameLaneCtrl s₀ s1 := ite_keep (fun _ => h.loseSource 2) fun _ => h
  have h2 : SameLaneCtrl s₀ s2 := ((h1.setFld hstat _ _).setFld hstat _ _).setFld hstat _ _
  have h3 : SameLaneCtrl s₀ s3 := keep_forEach h2 fun _ _ hs => keep_freeBlocks keepOut keepLnk hs
  have h5 : SameLaneCtrl s₀ s5 := keepLnk.setLk _ _ _ (keepLnk.setLk _ _ _ h3)
  clear_value s5 was
  have h7 : SameLaneCtrl s₀ s7 := keepRing.ring _ _ h5
  clear_value s7
  exact ite_keep (fun _ => (keep_noteLoss keepRing h7).pathSync.segChanged.portsSync) fun _ => h

theorem linkDown (k : Nat) (h : SameLaneCtrl s₀ s) : SameLaneCtrl s₀ (s.linkDown k) := by
  have hcount := (h.linkDrop k).setFld (a := R.CHP_STAT k) (by unfold R.CHP_STAT; omega)
  exact ite_keep (fun _ => (hcount _ _).raiseD (by decide) rfl) fun _ => h

/-! #### Test modes -/

theorem laneTraffic (i : Nat) (h : SameLaneCtrl s₀ s) : SameLaneCtrl s₀ (s.laneTraffic i) :=
  ite_keep (fun _ => h.pcsLink i false) fun _ => ite_keep (fun _ => h.linkDown _) fun _ => h

theorem testOn (i : Nat) (h : SameLaneCtrl s₀ s) : SameLaneCtrl s₀ (s.testOn i) :=
  ite_keep (fun _ => h.laneTraffic i) fun _ => (h.laneTraffic i).laneStart i 0

theorem testOff (i : Nat) (h : SameLaneCtrl s₀ s) : SameLaneCtrl s₀ (s.testOff i) := by
  have hslot := h.laneSlot i none
  exact ite_keep (fun _ => hslot.laneSlot i _) fun _ => ite_keep (fun _ => hslot) fun _ => hslot.laneStart i _

theorem prbsTake (i k bad : Nat) (h : SameLaneCtrl s₀ s) : SameLaneCtrl s₀ (s.prbsTake i k bad).2 :=
  (keepLane.setLn _ _ _ h).setFld (by unfold R.LNE_PERR; omega) _ _

theorem injectErr (i : Nat) (h : SameLaneCtrl s₀ s) : SameLaneCtrl s₀ (s.injectErr i) := by
  unfold State.injectErr
  extract_lets s1
  have h1 : SameLaneCtrl s₀ s1 := ite_keep (fun _ => keep_emit keepOut h) fun _ => h
  exact ite_keep (fun _ => h1.prbsTake i 1 1) fun _ => h1

end SameLaneCtrl
end Sys2Proof.Machine

/-! LNE_CTRL: its write, error injection and the PRBS checker, and the obligation (R305, R313 to R315). -/
namespace Sys2Proof.Machine

variable {s t : State} {i : Nat} {v : Word}

/-! ### A word written by its fields -/

/-- Two fields of a word that share no bit. -/
abbrev FldApart (f g : Fld) : Prop := f.lo ≤ f.hi ∧ g.lo ≤ g.hi ∧ (f.hi < g.lo ∨ g.hi < f.lo)

theorem FldApart.symm {f g : Fld} (h : FldApart f g) : FldApart g f := ⟨h.2.1, h.1, h.2.2.symm⟩

theorem putBits_bitsOf_self (v hi lo : Nat) : putBits v hi lo (bitsOf v hi lo) = v := by
  have hmod : bitsOf v hi lo % 2 ^ (hi - lo + 1) = bitsOf v hi lo := Nat.mod_mod ..
  have hle : bitsOf v hi lo * 2 ^ lo ≤ v :=
    Nat.le_trans (Nat.mul_le_mul_right _ (Nat.mod_le _ _)) (Nat.div_mul_le_self v (2 ^ lo))
  rw [putBits, hmod, Nat.sub_add_cancel hle]

theorem bitsOf_mod_word (v : Nat) {hi lo : Nat} (hl : lo ≤ hi) (h : hi < 32) : bitsOf (v % 2 ^ 32) hi lo = bitsOf v hi lo := by
  unfold bitsOf
  rw [← Nat.mod_mul_right_div_self, ← Nat.mod_mul_right_div_self, ← Nat.pow_add,
    Nat.mod_mod_of_dvd _ (Nat.pow_dvd_pow 2 (by omega))]

theorem bitsOf_putBits_apart {f g : Fld} (h : FldApart g f) (old x : Nat) :
    bitsOf (putBits old g.hi g.lo x) f.hi f.lo = bitsOf old f.hi f.lo := by
  obtain ⟨hg, hf, hbelow | habove⟩ := h
  · exact bitsOf_putBits_above hg hbelow ..
  · exact bitsOf_putBits_below hf habove ..

theorem bitsOf_fieldWrite_apart {f g : Fld} (h : FldApart g f) (old v : Nat) :
    bitsOf (fieldWrite v old g) f.hi f.lo = bitsOf old f.hi f.lo := by
  unfold fieldWrite
  split
  case h_4 => rfl
  all_goals exact bitsOf_putBits_apart h ..

theorem bitsOf_wordWrite_apart {flds : List Fld} {f : Fld} (h : ∀ g ∈ flds, FldApart g f) (old v : Nat) :
    bitsOf (wordWrite flds old v) f.hi f.lo = bitsOf old f.hi f.lo := by
  induction flds generalizing old with
  | nil => rfl
  | cons g flds ih =>
    exact (ih (fun x hx => h x (List.mem_cons_of_mem _ hx)) _).trans (bitsOf_fieldWrite_apart (h g List.mem_cons_self) old v)

/-- A field that software writes reads what was written, among fields that share no bit (R17). -/
theorem bitsOf_wordWrite_rw {flds : List Fld} (hapart : flds.Pairwise FldApart) {f : Fld} (hf : f ∈ flds) (hrw : f.acc = .rw)
    (old v : Nat) : bitsOf (wordWrite flds old v) f.hi f.lo = bitsOf v f.hi f.lo := by
  induction flds generalizing old with
  | nil => exact absurd hf List.not_mem_nil
  | cons g flds ih =>
    obtain ⟨hg, hflds⟩ := List.pairwise_cons.1 hapart
    rcases List.mem_cons.1 hf with rfl | hmem
    · have hself : bitsOf (fieldWrite v old f) f.hi f.lo = bitsOf v f.hi f.lo := by
        rw [fieldWrite, hrw, bitsOf_putBits_self]
        exact Nat.mod_mod ..
      exact (bitsOf_wordWrite_apart (fun x hx => (hg x hx).symm) _ v).trans hself
    · exact ih hflds hmem _

/-- A write changes nothing that gives each writable field the value it has, the other fields being self-clearing. -/
theorem wordWrite_same {flds : List Fld} {old v : Nat}
    (h : ∀ f ∈ flds, f.acc = .sc ∨ (f.acc = .rw ∧ bitsOf v f.hi f.lo = bitsOf old f.hi f.lo)) : wordWrite flds old v = old := by
  induction flds with
  | nil => rfl
  | cons f flds ih =>
    have hf : fieldWrite v old f = old := by
      rcases h f List.mem_cons_self with hsc | ⟨hrw, hv⟩
      · rw [fieldWrite, hsc]
      · rw [fieldWrite, hrw, hv, putBits_bitsOf_self]
    rw [wordWrite, List.foldl_cons, hf]
    exact ih fun x hx => h x (List.mem_cons_of_mem _ hx)

/-! ### The write of LNE_CTRL -/

/-- The state with LNE_CTRL of lane `i` written, before the write acts. -/
def State.lneCtrlSet (s : State) (i : Nat) (v : Word) : State := s.writeFlds (R.LNE_CTRL i) lneCtrlFlds v

theorem reg_lneCtrlSet_self (s : State) (i : Nat) (v : Word) :
    (s.lneCtrlSet i v).reg (R.LNE_CTRL i)
      = BitVec.ofNat 32 (wordWrite lneCtrlFlds (s.reg (R.LNE_CTRL i)).toNat v.toNat) :=
  reg_writeFlds_self _ v (by unfold R.LNE_CTRL R.GLB_ACCERR; omega) (by unfold R.LNE_CTRL R.GLB_ACCADR; omega)

/-- The registers of the lanes other than the one written keep their words. -/
theorem reg_lneCtrlSet_ne (s : State) (v : Word) {a : Nat} (hne : a ≠ R.LNE_CTRL i) (ha : 0x40000 ≤ a) :
    (s.lneCtrlSet i v).reg a = s.reg a :=
  reg_writeFlds_ne _ v hne (by unfold R.GLB_ACCERR; omega) (by unfold R.GLB_ACCADR; omega)

theorem reg_lneCtrlSet_stat (s : State) (i : Nat) (v : Word) :
    (s.lneCtrlSet i v).reg (R.LNE_STAT i) = s.reg (R.LNE_STAT i) :=
  reg_lneCtrlSet_ne s v (by unfold R.LNE_STAT R.LNE_CTRL; omega) (by unfold R.LNE_STAT; omega)
theorem reg_lneCtrlSet_perr (s : State) (i : Nat) (v : Word) :
    (s.lneCtrlSet i v).reg (R.LNE_PERR i) = s.reg (R.LNE_PERR i) :=
  reg_lneCtrlSet_ne s v (by unfold R.LNE_PERR R.LNE_CTRL; omega) (by unfold R.LNE_PERR; omega)

@[simp] theorem lneCtrlSet_out (s : State) (i : Nat) (v : Word) : (s.lneCtrlSet i v).out = s.out :=
  keep_writeFlds (P := fun t => t.out = s.out) ⟨fun _ _ _ h => h⟩ rfl
@[simp] theorem lneCtrlSet_pwr (s : State) (i : Nat) (v : Word) : (s.lneCtrlSet i v).pwr = s.pwr :=
  keep_writeFlds (P := fun t => t.pwr = s.pwr) ⟨fun _ _ _ h => h⟩ rfl
@[simp] theorem lneCtrlSet_ln (s : State) (i : Nat) (v : Word) : (s.lneCtrlSet i v).ln i = s.ln i :=
  keep_writeFlds (P := fun t => t.ln i = s.ln i) ⟨fun _ _ _ h => h⟩ rfl
@[simp] theorem lneCtrlSet_spn (s : State) (i : Nat) (v : Word) : (s.lneCtrlSet i v).spn = s.spn := writeFlds_spn ..

/-- A field of LNE_CTRL that software writes. -/
theorem fld_lneCtrlSet {f : Fld} (hf : f ∈ lneCtrlFlds) (hrw : f.acc = .rw) (hl : f.lo ≤ f.hi) (h : f.hi < 32) :
    (s.lneCtrlSet i v).fld (R.LNE_CTRL i) f = bitsOf v.toNat f.hi f.lo := by
  rw [State.fld, reg_lneCtrlSet_self, BitVec.toNat_ofNat, bitsOf_mod_word _ hl h,
    bitsOf_wordWrite_rw (by decide) hf hrw]

/-- A write of the values that LNE_CTRL holds. -/
theorem reg_lneCtrlSet_same (h : ∀ f ∈ lneCtrlFlds, f ≠ F.LNE_CTRL_ERRINJ → bitsOf v.toNat f.hi f.lo = s.fld (R.LNE_CTRL i) f) :
    (s.lneCtrlSet i v).reg (R.LNE_CTRL i) = s.reg (R.LNE_CTRL i) := by
  have hacc : ∀ f ∈ lneCtrlFlds, f = F.LNE_CTRL_ERRINJ ∨ f.acc = .rw := by decide
  rw [reg_lneCtrlSet_self, wordWrite_same fun f hf => ?_, BitVec.ofNat_toNat, BitVec.setWidth_eq]
  by_cases he : f = F.LNE_CTRL_ERRINJ
  · exact .inl (by rw [he]; rfl)
  · exact .inr ⟨(hacc f hf).resolve_left he, h f hf he⟩

/-- What the transmitter and the checker of a lane read of LNE_CTRL. -/
theorem tmode_of_reg (h : t.reg (R.LNE_CTRL i) = s.reg (R.LNE_CTRL i)) : t.tmode i = s.tmode i := by
  unfold State.tmode State.fld
  rw [h]
theorem testSends_of_reg (h : t.reg (R.LNE_CTRL i) = s.reg (R.LNE_CTRL i)) : t.testSends i = s.testSends i := by
  rw [State.testSends, tmode_of_reg h]
  unfold State.testSends State.fld
  rw [h]
theorem prbsPol_of_reg (h : t.reg (R.LNE_CTRL i) = s.reg (R.LNE_CTRL i)) : t.prbsPol i = s.prbsPol i := by
  rw [State.prbsPol, tmode_of_reg h]
  unfold State.prbsPol State.txInv State.rxInv State.flag State.fld
  rw [h]
theorem inL0_of_reg (h : t.reg (R.LNE_STAT i) = s.reg (R.LNE_STAT i)) : t.inL0 i = s.inL0 i := by
  unfold State.inL0 State.psCur State.psTrans State.flag State.fld
  rw [h]
theorem prbsLocked_of_reg (h : t.reg (R.LNE_STAT i) = s.reg (R.LNE_STAT i)) : t.prbsLocked i = s.prbsLocked i := by
  unfold State.prbsLocked State.flag State.fld
  rw [h]

theorem txOn_lneCtrlSet (hi : i < 10) : (s.lneCtrlSet i v).txOn i = s.txOn i := by
  have hgrp : (s.lneCtrlSet i v).reg (R.LNE_GRP (grpOf i)) = s.reg (R.LNE_GRP (grpOf i)) :=
    reg_lneCtrlSet_ne s v (by unfold R.LNE_GRP R.LNE_CTRL; omega) (by unfold R.LNE_GRP; omega)
  unfold State.txOn State.awake State.flag State.fld
  rw [lneCtrlSet_pwr, inL0_of_reg (reg_lneCtrlSet_stat s i v), hgrp, lneCtrlSet_spn]

/-! ### What a write does -/

theorem writeLneCtrl_spi (s : State) (i : Nat) (v : Word) : s.writeLneCtrl i .spi v = s.applyLneCtrl i v :=
  if_neg (by simp [State.tmodeRefused, State.viaLane])

/-- What a write does after it leaves LNE_CTRL as written. -/
theorem applyLneCtrl_sameLaneCtrl (s : State) (i : Nat) (v : Word) : SameLaneCtrl (s.lneCtrlSet i v) (s.applyLneCtrl i v) := by
  unfold State.applyLneCtrl
  extract_lets a old was own s1 new s2 s3 s4 s5
  have h1 : SameLaneCtrl (s.lneCtrlSet i v) s1 := SameLaneCtrl.refl s1
  have h2 : SameLaneCtrl (s.lneCtrlSet i v) s2 := h1.setStat i _ _
  have h3 : SameLaneCtrl (s.lneCtrlSet i v) s3 := ite_keep (fun _ => h1) fun _ =>
    ite_keep (fun _ => h2.testOn i) fun _ => ite_keep (fun _ => h2.testOff i) fun _ => h2
  have h4 : SameLaneCtrl (s.lneCtrlSet i v) s4 :=
    ite_keep (fun _ => ite_keep (fun _ => h3) fun _ => h3.laneAsk i _) fun _ => ite_keep (fun _ => h3.laneAsk i _) fun _ => h3
  have h5 : SameLaneCtrl (s.lneCtrlSet i v) s5 := ite_keep (fun _ => keep_emit SameLaneCtrl.keepOut h4) fun _ => h4
  exact ite_keep (fun _ => h5.injectErr i) fun _ => h5

/-- A write that keeps the test mode and what is sent, the controller owning the lane, does nothing but ERRINJ. -/
theorem applyLneCtrl_steady (hmode : (s.lneCtrlSet i v).tmode i = s.tmode i) (hown : s.flag (R.LNE_CTRL i) F.LNE_CTRL_OWN = false)
    (hown' : (s.lneCtrlSet i v).flag (R.LNE_CTRL i) F.LNE_CTRL_OWN = false)
    (hsends : s.tmode i = 0 ∨ (s.lneCtrlSet i v).testSends i = s.testSends i) :
    s.applyLneCtrl i v = if v.toNat.testBit 3 then (s.lneCtrlSet i v).injectErr i else s.lneCtrlSet i v := by
  have hquiet : ¬((s.tmode i ≠ 0 ∨ s.tmode i ≠ 0) ∧ (s.lneCtrlSet i v).testSends i ≠ s.testSends i) := by
    rintro ⟨hon, hchanged⟩
    exact hsends.elim (hon.elim id id) hchanged
  unfold State.lneCtrlSet at *
  simp only [State.applyLneCtrl, hmode, hown, hown', hquiet, if_true, if_false, Bool.false_eq_true]

/-! ### The checker (R314) -/

/-- A checker in step with its sequence stays so, and counts what the line made wrong, or exactly the rest. -/
theorem prbsTake_in_step {k n : Nat} (h : n ≤ k) (hseq : s.tmode i = 2 ∨ (s.ln i).srcSeq = s.prbsSeq i)
    (hchk : (s.ln i).chk = (s.ln i).src) :
    (s.prbsTake i k n).1 = (if (s.ln i).pol = s.prbsPol i then n else k - n)
      ∧ ((s.prbsTake i k n).2.ln i).chk = ((s.prbsTake i k n).2.ln i).src := by
  have hsrc : (if s.tmode i = 2 then s.prbsSeq i else (s.ln i).srcSeq) = s.prbsSeq i := by
    split
    · rfl
    · next hmode => exact hseq.resolve_left hmode
  have hcheck := prbsCheck_run (prbsPoly (s.prbsSeq i)) (s.prbsPol i != (s.ln i).pol) h (s.ln i).src
  simp only [State.prbsTake, hsrc, hchk, hcheck]
  refine ⟨?count, ?step⟩
  case count => cases (s.ln i).pol <;> cases s.prbsPol i <;> rfl
  case step =>
    have hln := ln_setLn_self (s := s) i { s.ln i with
      src := (prbsRun (prbsPoly (s.prbsSeq i)) k (s.ln i).src).2, chk := (prbsRun (prbsPoly (s.prbsSeq i)) k (s.ln i).src).2 }
    exact (congrArg LaneState.chk hln).trans (congrArg LaneState.src hln).symm

theorem fld_prbsTake (s : State) (i k n : Nat) : (s.prbsTake i k n).2.fld (R.LNE_PERR i) F.LNE_PERR_ERR
    = satInc (F.LNE_PERR_ERR.hi - F.LNE_PERR_ERR.lo + 1) (s.fld (R.LNE_PERR i) F.LNE_PERR_ERR) (s.prbsTake i k n).1 :=
  fld_bumpBy_self _ _ _ _ (by decide) (by decide)

theorem reg_prbsTake_stat (s : State) (i k n : Nat) : (s.prbsTake i k n).2.reg (R.LNE_STAT i) = s.reg (R.LNE_STAT i) :=
  reg_setReg_ne (s.setLn i _) _ (by unfold R.LNE_STAT R.LNE_PERR; omega)

theorem prbsLocked_setLock (s : State) (i : Nat) (b : Bool) :
    (s.setFlag (R.LNE_STAT i) F.LNE_STAT_PRBS_LOCK b).prbsLocked i = b :=
  flag_setFlag_self s _ _ b rfl (by decide)

theorem prbsLock_partner (h : s.tmode i ≠ 2) : (s.prbsLock i).prbsLocked i = true := by
  have hmode : ¬s.fresh.2.tmode i = 2 := h
  simp only [State.prbsLock, if_neg hmode]
  exact prbsLocked_setLock ..

/-- In the loopback the checker seeds itself from the lane's own sequence, unless it comes inverted. -/
theorem prbsLock_loopback (h : s.tmode i = 2) (hun : s.prbsLocked i = false) :
    (s.prbsLock i).prbsLocked i = !s.prbsPol i := by
  obtain ⟨h1, h2⟩ := prbsPoly_taps (s.prbsSeq i)
  have hmode : s.fresh.2.tmode i = 2 := h
  have hpos : 0 < 2 ^ (prbsPoly (s.prbsSeq i)).1 - 1 := Nat.sub_pos_of_lt (Nat.one_lt_two_pow (by omega))
  have hphase : 1 + s.fresh.1 % (2 ^ (prbsPoly (s.prbsSeq i)).1 - 1) < 2 ^ (prbsPoly (s.prbsSeq i)).1 := by
    have := Nat.mod_lt s.fresh.1 hpos
    omega
  have hseed := prbsSeed_run h1 h2 (s.prbsPol i) hphase
  have hseq : s.fresh.2.prbsSeq i = s.prbsSeq i := rfl
  have hpol : s.fresh.2.prbsPol i = s.prbsPol i := rfl
  simp only [State.prbsLock, if_pos hmode, hpol, hseq, hseed]
  cases s.prbsPol i
  · exact prbsLocked_setLock ..
  · exact hun

/-! ### ERRINJ (R314) -/

theorem injectErr_out (h : s.tmode i = 0) : (s.injectErr i).out = s.out ++ (if s.txOn i then [.lane i 1 0] else []) := by
  unfold State.injectErr
  extract_lets s1
  have hmode : s1.tmode i = 0 := by
    unfold s1
    split <;> exact h
  rw [if_neg (by simp [hmode])]
  unfold s1
  split
  · rfl
  · simp

/-- In the loopback a locked checker in step with the lane's own sequence counts the injected error. -/
theorem fld_injectErr (hmode : s.tmode i = 2) (hon : s.prbsOn i = true) (hlock : s.prbsLocked i = true)
    (hchk : (s.ln i).chk = (s.ln i).src) (hpol : (s.ln i).pol = s.prbsPol i) :
    (s.injectErr i).fld (R.LNE_PERR i) F.LNE_PERR_ERR
      = satInc (F.LNE_PERR_ERR.hi - F.LNE_PERR_ERR.lo + 1) (s.fld (R.LNE_PERR i) F.LNE_PERR_ERR) 1 := by
  obtain ⟨o, ho⟩ : ∃ o, s.injectErr i = (({ s with out := o } : State).prbsTake i 1 1).2 := by
    have hcheck : (decide (s.tmode i = 2) && s.prbsOn i && s.prbsLocked i) = true := by simp [hmode, hon, hlock]
    unfold State.injectErr
    cases s.txOn i
    · exact ⟨s.out, if_pos hcheck⟩
    · exact ⟨_, if_pos hcheck⟩
  have hcount : (({ s with out := o } : State).prbsTake i 1 1).1 = 1 :=
    (prbsTake_in_step (s := { s with out := o }) (Nat.le_refl 1) (.inl hmode) hchk).1.trans (if_pos hpol)
  rw [ho, fld_prbsTake, hcount]
  rfl

/-! ### The rows -/

/-- ERRINJ on a lane that carries its traffic, its controller owning it before and after. -/
theorem errinj_no_test (hawake : s.awake = true) (i : Fin 10)
    (hkeep : bitsOf v.toNat F.LNE_CTRL_TMODE.hi F.LNE_CTRL_TMODE.lo = s.fld (R.LNE_CTRL i.val) F.LNE_CTRL_TMODE)
    (hown : s.flag (R.LNE_CTRL i.val) F.LNE_CTRL_OWN = false) (hv : v.toNat.testBit F.LNE_CTRL_OWN.lo = false)
    (hmode : s.tmode i.val = 0) : ∃ t, exec (.lneCtrlErrinj i v) s = .next t
      ∧ t.out = s.out ++ (if v.toNat.testBit 3 && s.txOn i.val then [.lane i.val 1 0] else []) := by
  have htmode : (s.lneCtrlSet i.val v).tmode i.val = s.tmode i.val := by
    rw [State.tmode, fld_lneCtrlSet (by decide) rfl (by decide) (by decide), hkeep, State.tmode]
  have hown' : (s.lneCtrlSet i.val v).flag (R.LNE_CTRL i.val) F.LNE_CTRL_OWN = false := by
    have hbit : v.toNat.testBit 15 = decide (bitsOf v.toNat 15 15 = 1) := testBit_eq_bitsOf ..
    have hlt : bitsOf v.toNat 15 15 < 2 := Nat.mod_lt _ (by decide)
    have hbit0 : bitsOf v.toNat 15 15 ≠ 1 := of_decide_eq_false (hbit.symm.trans hv)
    have hzero : bitsOf v.toNat 15 15 = 0 := by omega
    rw [State.flag, fld_lneCtrlSet (by decide) rfl (by decide) (by decide)]
    exact decide_eq_false (fun h => h hzero)
  refine ⟨_, act_awake s hawake, ?_⟩
  rw [writeLneCtrl_spi, applyLneCtrl_steady htmode hown hown' (.inl hmode)]
  cases v.toNat.testBit 3 with
  | false => simp
  | true => rw [if_pos rfl, injectErr_out (htmode.trans hmode), txOn_lneCtrlSet i.isLt, lneCtrlSet_out, Bool.true_and]

theorem errinj_loopback (hawake : s.awake = true) (i : Fin 10) (hinj : v.toNat.testBit 3 = true) (hmode : s.tmode i.val = 2)
    (hon : s.prbsOn i.val = true) (hlock : s.prbsLocked i.val = true) (hown : s.flag (R.LNE_CTRL i.val) F.LNE_CTRL_OWN = false)
    (hkeep : ∀ f ∈ lneCtrlFlds, f ≠ F.LNE_CTRL_ERRINJ → bitsOf v.toNat f.hi f.lo = s.fld (R.LNE_CTRL i.val) f)
    (hchk : (s.ln i.val).chk = (s.ln i.val).src) (hpol : (s.ln i.val).pol = s.prbsPol i.val) :
    ∃ t, exec (.lneCtrlErrinj i v) s = .next t ∧ t.fld (R.LNE_PERR i.val) F.LNE_PERR_ERR
      = satInc (F.LNE_PERR_ERR.hi - F.LNE_PERR_ERR.lo + 1) (s.fld (R.LNE_PERR i.val) F.LNE_PERR_ERR) 1 := by
  have hctrl := reg_lneCtrlSet_same hkeep
  have hstat := reg_lneCtrlSet_stat s i.val v
  have htmode := tmode_of_reg hctrl
  have hown' : (s.lneCtrlSet i.val v).flag (R.LNE_CTRL i.val) F.LNE_CTRL_OWN = false := by
    rw [← hown, State.flag, State.fld, hctrl]
    rfl
  have hon' : (s.lneCtrlSet i.val v).prbsOn i.val = true := by rw [← hon, State.prbsOn, htmode, inL0_of_reg hstat, State.prbsOn]
  refine ⟨_, act_awake s hawake, ?_⟩
  rw [writeLneCtrl_spi, applyLneCtrl_steady htmode hown hown' (.inr (testSends_of_reg hctrl)), if_pos hinj,
    fld_injectErr (htmode.trans hmode) hon' ((prbsLocked_of_reg hstat).trans hlock) (by rw [lneCtrlSet_ln, hchk])
      (by rw [lneCtrlSet_ln, prbsPol_of_reg hctrl, hpol]), State.fld, reg_lneCtrlSet_perr]
  rfl

/-- A write over the management SPI is taken, whatever follows from it. -/
theorem tmode_spi (hawake : s.awake = true) (i : Fin 10) (v : Word) : ∃ t, exec (.lneCtrlTmode i .spi v) s = .next t
    ∧ t.fld (R.LNE_CTRL i.val) F.LNE_CTRL_TMODE = bitsOf v.toNat F.LNE_CTRL_TMODE.hi F.LNE_CTRL_TMODE.lo := by
  refine ⟨_, act_awake s hawake, ?_⟩
  rw [writeLneCtrl_spi, State.fld, applyLneCtrl_sameLaneCtrl s i.val v i.val i.isLt]
  exact fld_lneCtrlSet (by decide) rfl (by decide) (by decide)

/-- A write of TMODE over the lane's own traffic is refused (R315). -/
theorem tmode_refused (hawake : s.awake = true) (i : Fin 10) {via : Via} (hvia : s.viaLane via i.val = true)
    (hv : bitsOf v.toNat F.LNE_CTRL_TMODE.hi F.LNE_CTRL_TMODE.lo ≠ 0) :
    exec (.lneCtrlTmode i via v) s = .next (s.setFlag (R.LNE_STAT i.val) F.LNE_STAT_TREF true) := by
  have href : s.tmodeRefused i.val via v = true := by
    rw [State.tmodeRefused, hvia, Bool.and_true]
    exact decide_eq_true hv
  have hwrite : s.writeLneCtrl i.val via v = s.setFlag (R.LNE_STAT i.val) F.LNE_STAT_TREF true := if_pos href
  rw [← hwrite]
  exact act_awake s hawake

theorem execPrbsLock_eq (hawake : s.awake = true) (i : Fin 10) :
    exec (.prbsLock i) s = .next (if s.prbsOn i.val && !s.prbsLocked i.val then s.prbsLock i.val else s) :=
  act_awake s hawake

theorem prbsLock_row (hawake : s.awake = true) (i : Fin 10) (hon : s.prbsOn i.val = true) (hmode : s.tmode i.val = 1) :
    ∃ t, exec (.prbsLock i) s = .next t ∧ t.prbsLocked i.val = true := by
  refine ⟨_, execPrbsLock_eq hawake i, ?_⟩
  rw [hon, Bool.true_and]
  cases hlock : s.prbsLocked i.val
  · exact prbsLock_partner (by omega)
  · exact hlock

theorem prbsLock_loopback_row (hawake : s.awake = true) (i : Fin 10) (hon : s.prbsOn i.val = true) (hmode : s.tmode i.val = 2)
    (hun : s.prbsLocked i.val = false) : ∃ t, exec (.prbsLock i) s = .next t ∧ t.prbsLocked i.val = !s.prbsPol i.val := by
  refine ⟨_, execPrbsLock_eq hawake i, ?_⟩
  rw [hon, hun]
  exact prbsLock_loopback hmode hun

/-- 1,024 bits: their errors are counted, and at 32 the lock is lost (R314). -/
theorem prbsReseed_row (hawake : s.awake = true) (i : Fin 10) (n : Fin 1025) (hon : s.prbsOn i.val = true)
    (hlock : s.prbsLocked i.val = true) : ∃ t, exec (.prbsReseed i n) s = .next t
      ∧ t.fld (R.LNE_PERR i.val) F.LNE_PERR_ERR = satInc (F.LNE_PERR_ERR.hi - F.LNE_PERR_ERR.lo + 1)
          (s.fld (R.LNE_PERR i.val) F.LNE_PERR_ERR) (s.prbsTake i.val 1024 n.val).1
      ∧ t.prbsLocked i.val = decide ((s.prbsTake i.val 1024 n.val).1 < 32) := by
  have hexec : exec (.prbsReseed i n) s = .next _ := (act_awake s hawake).trans (congrArg _ (if_pos (by simp [hon, hlock])))
  refine ⟨_, hexec, ?_⟩
  dsimp only
  split
  · next hmany =>
    have hperr : R.LNE_PERR i.val ≠ R.LNE_STAT i.val := by unfold R.LNE_PERR R.LNE_STAT; omega
    exact ⟨(fld_setFld_ne _ _ _ _ hperr).trans (fld_prbsTake ..), by
      rw [prbsLocked_setLock, decide_eq_false (Nat.not_lt.2 hmany)]⟩
  · next hfew =>
    refine ⟨fld_prbsTake .., ?_⟩
    rw [prbsLocked_of_reg (reg_prbsTake_stat ..), hlock, decide_eq_true (Nat.not_le.1 hfew)]

/-! ### The obligation -/

/-- Settles O45: what a write of LNE_CTRL sets off writes LNE_CTRL of no lane, and a checker in step with its sequence is right
about each bit or, where the sequence comes inverted, wrong about each. -/
theorem laneTestRows : Obligations.LaneTestRows := fun _ hawake i =>
  ⟨fun _ _ hvia hv => tmode_refused hawake i hvia hv,
    tmode_spi hawake i,
    fun _ hkeep hown hv hmode => errinj_no_test hawake i hkeep hown hv hmode,
    fun _ hinj hmode hon hlock hown hkeep hchk hpol => errinj_loopback hawake i hinj hmode hon hlock hown hkeep hchk hpol,
    prbsLock_row hawake i,
    prbsLock_loopback_row hawake i,
    fun hoff => (execPrbsLock_eq hawake i).trans (by rw [hoff]; rfl),
    prbsReseed_row hawake i,
    fun _ _ h hseq hchk => prbsTake_in_step h hseq hchk⟩

end Sys2Proof.Machine

/-! The network ports: arriving frames, address claims, unresolved destinations, held packets, and the obligation (R304, R320 to
R326, R334, R342, R384). -/
namespace Sys2Proof.Machine

variable {s t : State} {i : Nat}

/-! ### The gate of arriving frames (R305, R313, R320 to R322) -/

section
variable {p : RxPort} {svc : Service}

theorem rxGate_dead (t : State) (h : s.rxLive i p.head = false) : s.rxGate i p.head svc t = s := if_pos (by rw [h]; rfl)

theorem rxGate_live (t : State) (h : s.rxLive i p.head = true) : s.rxGate i p.head svc t
    = if s.frameOk i p.head svc then t else s.bump (R.NET_STAT i) F.NET_STAT_RXDROP := if_neg (by rw [h]; decide)

/-- A command that arrives through the gate, where the gate is shut. -/
theorem exec_rxGate_shut {c : Instr} (h : exec c s = .next (s.rxGate i p.head svc t)) :
    (s.rxLive i p.head = false → exec c s = .next s)
      ∧ (s.rxLive i p.head = true → s.frameOk i p.head svc = false →
        exec c s = .next (s.bump (R.NET_STAT i) F.NET_STAT_RXDROP)) := by
  refine ⟨fun hdead => ?_, fun hlive hbad => ?_⟩
  · rw [h, rxGate_dead t hdead]
  · rw [h, rxGate_live t hlive, hbad]
    rfl

/-- A command that arrives through the gate, accepted. -/
theorem exec_rxGate_open {c : Instr} (h : exec c s = .next (s.rxGate i p.head svc t)) (hlive : s.rxLive i p.head = true)
    (hok : s.frameOk i p.head svc = true) : exec c s = .next t := by
  rw [h, rxGate_live t hlive, if_pos hok]

/-- Only the active exit accepts a frame, so what answers it leaves while the lane carries data (R321). -/
theorem sendFrame_of_frameOk (hok : s.frameOk i p.head svc = true) (kind : Nat) (fields : List Nat) :
    s.sendFrame i kind fields = if s.txData i then s.emit (.frame i (s.frameHead i 0) kind fields) else s := by
  have hactive : s.isActive i = true := by
    simp only [State.frameOk, Bool.and_eq_true] at hok
    obtain ⟨⟨⟨⟨hactive, _⟩, _⟩, _⟩, _⟩ := hok
    exact hactive
  rw [State.sendFrame, State.portSends, hactive, Bool.true_and]

end

/-! ### Addresses of a port -/

theorem ownIp_ip4 (s : State) (i a : Nat) : s.ownIp i false a = true ↔ a ≠ 0 ∧ a = s.ip4 i := by simp [State.ownIp]

theorem ownIp_ip4_false {a : Nat} (h : a ≠ s.ip4 i) : s.ownIp i false a = false :=
  Bool.eq_false_iff.2 fun hown => h ((ownIp_ip4 s i a).1 hown).2

theorem quad_of_reg {a : Nat → Nat} (h : ∀ j < 4, t.reg (a j) = s.reg (a j)) : t.quad a = s.quad a := by
  have hquad : ∀ u : State, u.quad a
      = ((List.range 4).map (fun j => u.reg (a j))).foldl (fun v w => v * 2 ^ 32 + w.toNat) 0 := fun _ => List.foldl_map.symm
  have hwords : (List.range 4).map (fun j => t.reg (a j)) = (List.range 4).map (fun j => s.reg (a j)) :=
    List.map_congr_left fun j hj => h j (List.mem_range.1 hj)
  rw [hquad, hquad, hwords]

theorem portMac_of_reg (hlo : t.reg (R.NET_MAC i) = s.reg (R.NET_MAC i)) (hhi : t.reg (R.NET_MAC_HI i) = s.reg (R.NET_MAC_HI i)) :
    t.portMac i = s.portMac i := by
  unfold State.portMac
  rw [hlo, hhi]

/-- A conflict writes NET_STAT of its port and the fault collector, and no other register of the ports. -/
theorem reg_ipConflict {a : Nat} (hport : 0x50000 ≤ a) (hstat : a % 0x100 ≠ 4) : (s.ipConflict i).reg a = s.reg a :=
  have hne : a ≠ R.NET_STAT i := by unfold R.NET_STAT; omega
  have keep : KeepFltRegs (fun t : State => t.reg a = s.reg a) :=
    ⟨fun t b w hb h => (reg_setReg_ne t w (by omega)).trans h⟩
  keep.raiseD ⟨fun _ _ h => h, fun _ _ h => h⟩ ⟨fun _ _ _ _ _ h => h⟩ (by decide) rfl (reg_setReg_ne s _ hne)

/-- The port keeps its addresses (R326). -/
theorem ipConflict_addresses (s : State) (i q : Nat) : (s.ipConflict i).ip4 q = s.ip4 q
    ∧ (s.ipConflict i).ip6 q = s.ip6 q ∧ (s.ipConflict i).ip6Local q = s.ip6Local q := by
  have hip4 : (s.ipConflict i).reg (R.NET_IP4 q) = s.reg (R.NET_IP4 q) :=
    reg_ipConflict (by unfold R.NET_IP4; omega) (by unfold R.NET_IP4; omega)
  have hip6 : ∀ j < 4, (s.ipConflict i).reg (R.NET_IP6 q j) = s.reg (R.NET_IP6 q j) := fun _ _ =>
    reg_ipConflict (by unfold R.NET_IP6; omega) (by unfold R.NET_IP6; omega)
  have hmac : (s.ipConflict i).portMac q = s.portMac q :=
    portMac_of_reg (reg_ipConflict (by unfold R.NET_MAC; omega) (by unfold R.NET_MAC; omega))
      (reg_ipConflict (by unfold R.NET_MAC_HI; omega) (by unfold R.NET_MAC_HI; omega))
  refine ⟨congrArg BitVec.toNat hip4, quad_of_reg hip6, ?_⟩
  unfold State.ip6Local
  rw [hmac]

theorem ipConflict_row (s : State) (i : Nat) : ∃ u : State, s.ipConflict i = u.raise 201 i
    ∧ u.flag (R.NET_STAT i) F.NET_STAT_IPCONF = true
    ∧ (∀ q < 2, (s.ipConflict i).ip4 q = s.ip4 q ∧ (s.ipConflict i).ip6 q = s.ip6 q
      ∧ (s.ipConflict i).ip6Local q = s.ip6Local q) :=
  ⟨_, rfl, flag_setFlag_self s _ _ true rfl (by decide), fun q _ => ipConflict_addresses s i q⟩

/-! ### The caches (R323) -/

/-- The entry put into a cache is its last, which the limit of 32 spares. -/
theorem mem_cachePut (l : List (Nat × Nat × Nat)) (a mac now : Nat) : (a, mac, now) ∈ cachePut l a mac now := by
  unfold cachePut
  extract_lets r
  have hspared : r.length - 32 ≤ (l.filter (fun e => decide (e.1 ≠ a))).length := by
    rw [List.length_append, List.length_singleton]
    omega
  rw [List.drop_append_of_le_length hspared]
  exact List.mem_append_right _ List.mem_cons_self

theorem any_cachePut (l : List (Nat × Nat × Nat)) (a mac now : Nat) :
    (cachePut l a mac now).any (fun e => decide (e.1 = a)) = true :=
  List.any_eq_true.2 ⟨_, mem_cachePut l a mac now, decide_eq_true rfl⟩

/-! ### Requests, replies and echoes (R320, R323, R326) -/

/-- What asks for an address is answered where the port has it, and by nothing where it has not (R320). -/
theorem answer_row {c : Instr} {p : RxPort} {svc : Service} {own : Bool} {kind : Nat} {fields : List Nat}
    (hok : s.frameOk i p.head svc = true) (hexec : exec c s = .next (if own then s.sendFrame i kind fields else s)) :
    (own = true → exec c s
      = .next (if s.txData i then s.emit (.frame i (s.frameHead i 0) kind fields) else s))
    ∧ (own = false → exec c s = .next s) := by
  rw [hexec, ← sendFrame_of_frameOk hok]
  exact ⟨fun hown => by rw [if_pos hown], fun hother => by rw [hother]; rfl⟩

/-- A claim of an address of the port (R326), seen in what a reply or an advertisement does. -/
theorem claim_row {c : Instr} {own : Bool} {mac : Nat} (hexec : exec c s = .next (if own
      then (if mac = s.portMac i then s else s.ipConflict i) else t)) (hown : own = true) :
    (mac = s.portMac i → exec c s = .next s) ∧ (mac ≠ s.portMac i → exec c s = .next (s.ipConflict i)) := by
  rw [hexec, if_pos hown]
  exact ⟨fun hmine => by rw [if_pos hmine], fun hforeign => by rw [if_neg hforeign]⟩

section
variable (hawake : s.awake = true) {p : RxPort} (hlive : s.rxLive p.port.val p.head = true)
include hawake hlive

theorem execArpReplyRx_eq (hok : s.frameOk p.port.val p.head .arp = true) (ip : BitVec 32) (mac : BitVec 48) :
    exec (.arpReplyRx p ip mac) s = .next (if s.ownIp p.port.val false ip.toNat
      then (if mac.toNat = s.portMac p.port.val then s else s.ipConflict p.port.val)
      else ({ s with ring := { s.ring with arp := cachePut s.ring.arp ip.toNat mac.toNat s.lt } }).resolved p.port.val) :=
  exec_rxGate_open (act_awake s hawake) hlive hok

theorem execNeighbourAdvertisementRx_eq (hok : s.frameOk p.port.val p.head .ndp = true) (ip : BitVec 128) (mac : BitVec 48) :
    exec (.neighbourAdvertisementRx p ip mac) s = .next (if s.ownIp p.port.val true ip.toNat
      then (if mac.toNat = s.portMac p.port.val then s else s.ipConflict p.port.val)
      else ({ s with ring := { s.ring with nd := cachePut s.ring.nd ip.toNat mac.toNat s.lt } }).resolved p.port.val) :=
  exec_rxGate_open (act_awake s hawake) hlive hok

end

/-! ### Destinations, held packets and confirmations (R323, R334) -/

@[simp] theorem moveTo_ring (s : State) (n : Nat) : (s.moveTo n).ring = s.ring := by
  unfold State.moveTo
  split <;> simp

theorem lt_le_moveTo (s : State) (n : Nat) : s.lt ≤ (s.moveTo n).lt := by
  unfold State.moveTo State.pass
  split
  · dsimp only
    split <;> omega
  · exact Nat.le_refl _

theorem destResolveRetry_row (hawake : s.awake = true) {x : Nat} (hexit : s.exitPort = some x) (hun : s.ring.unresolved ≠ []) :
    ∃ u v : State, exec .destResolveRetry s = .next (v.forEach v.ring.unresolved (fun y d => y.solicit x d))
      ∧ v = u.resolved x ∧ s.lt ≤ u.lt ∧ u.ring.retryAt = u.lt + 100000000 * nsU := by
  have hexec : exec .destResolveRetry s = _ := act_awake s hawake
  rw [hexit] at hexec
  exact ⟨_, _, hexec.trans (congrArg _ (if_neg hun)), rfl, lt_le_moveTo s _, rfl⟩

/-- Packets held since one instant expire together. -/
theorem exitPacketExpiry_row (hawake : s.awake = true) {e : ExitPkt} {rest : List ExitPkt} (hheld : s.ring.held = e :: rest)
    (hsince : ∀ x ∈ e :: rest, x.since = e.since) (hclk : s.spn.refclk = true) :
    ∃ t, exec .exitPacketExpiry s = .next t ∧ t.ring.held = [] := by
  have hexec : exec .exitPacketExpiry s = _ := act_awake s hawake
  rw [hheld] at hexec
  refine ⟨_, hexec, ?_⟩
  change (s.moveTo (e.since + exitHold)).ring.held.filter _ = []
  rw [moveTo_ring, hheld, List.filter_eq_nil_iff]
  intro x hx
  rw [moveTo_lt _ hawake hclk, hsince x hx, decide_eq_true_eq]
  exact Nat.not_lt.2 (Nat.le_max_right _ _)

theorem datagramPassed_row (hawake : s.awake = true) (origin : Fin 65536) (c : Fin 512) (q : BitVec 32)
    (hair : s.ring.air = [(origin.val, c.val, q.toNat)]) : ∃ u : State,
    exec (.datagramPassedEchoMonitor origin c q) s = .next (u.confirmTo origin.val c.val q.toNat false) ∧ u.ring.air = [] := by
  have hmem : s.ring.air.contains (origin.val, c.val, q.toNat) = true := by rw [hair]; simp
  refine ⟨{ s with ring := { s.ring with air := s.ring.air.erase (origin.val, c.val, q.toNat) } },
    (act_awake s hawake).trans (congrArg _ (if_pos hmem)), ?_⟩
  rw [hair]
  simp

theorem datagramPassed_none (hawake : s.awake = true) (origin : Fin 65536) (c : Fin 512) (q : BitVec 32)
    (hair : s.ring.air = []) : exec (.datagramPassedEchoMonitor origin c q) s = .next s :=
  (act_awake s hawake).trans (congrArg _ (if_neg (by rw [hair]; simp)))

/-! ### The obligation -/

/-- Settles O43: every frame passes one gate, whose far side only the active exit opens; what a conflict writes besides NET_STAT
lies in the fault collector. -/
theorem networkRows : Obligations.NetworkRows := by
  unfold Obligations.NetworkRows
  intro s hawake
  refine ⟨?shut, ?accepted, fun i _ => ipConflict_row s i, ?unresolve, ?noExit,
    fun _ hexit hun => destResolveRetry_row hawake hexit hun,
    fun _ _ hheld hsince hclk => exitPacketExpiry_row hawake hheld hsince hclk,
    fun origin c q hair => datagramPassed_row hawake origin c q hair,
    fun origin c q hair => datagramPassed_none hawake origin c q hair, ?losClear⟩
  case shut =>
    rintro p svc c (⟨rfl, ⟨_, _, _, rfl⟩ | ⟨_, _, rfl⟩⟩ | ⟨rfl, ⟨_, _, rfl⟩ | ⟨_, _, rfl⟩⟩
      | ⟨rfl, _, _, _, _, _, _, rfl⟩)
    all_goals exact exec_rxGate_shut (act_awake s hawake)
  case accepted =>
    rintro p i rfl hlive
    refine ⟨fun hok => ⟨fun target sender mac => ?request, fun ip mac hne hip => ?arpClaim, fun ip mac hother => ?arpReply⟩,
      fun hok => ⟨fun target source => ?solicitation, fun ip mac hown => ?ndClaim, fun ip mac hother => ?ndReply⟩,
      fun hok _ v6 dest source ident seq => ?echo⟩
    case request =>
      obtain ⟨hanswer, hsilent⟩ := answer_row (c := .arpRequestRx p target sender mac) hok
        (exec_rxGate_open (act_awake s hawake) hlive hok)
      exact ⟨fun hown => hanswer ((ownIp_ip4 ..).2 hown), fun hother => hsilent (ownIp_ip4_false hother)⟩
    case solicitation => exact answer_row hok (exec_rxGate_open (act_awake s hawake) hlive hok)
    case echo => exact answer_row hok (exec_rxGate_open (act_awake s hawake) hlive hok)
    case arpClaim => exact claim_row (execArpReplyRx_eq hawake hlive hok ip mac) ((ownIp_ip4 ..).2 ⟨hne, hip⟩)
    case ndClaim => exact claim_row (execNeighbourAdvertisementRx_eq hawake hlive hok ip mac) hown
    case arpReply =>
      refine ⟨{ s with ring := { s.ring with arp := _ } }, (execArpReplyRx_eq hawake hlive hok ip mac).trans ?_, rfl,
        any_cachePut ..⟩
      rw [ownIp_ip4_false hother]
      rfl
    case ndReply =>
      refine ⟨{ s with ring := { s.ring with nd := _ } },
        (execNeighbourAdvertisementRx_eq hawake hlive hok ip mac).trans ?_, rfl, any_cachePut ..⟩
      rw [hother]
      rfl
  case unresolve => exact fun d p hnew => ⟨_, if_neg (by rw [hnew]; decide), rfl⟩
  case noExit =>
    intro hexit
    have hexec : exec .destResolveRetry s = _ := act_awake s hawake
    rwa [hexit] at hexec
  case losClear =>
    rintro i u rfl
    have hexec : exec (.laneLosClear i) s = _ := act_awake s hawake
    exact hexec.trans (congrArg _ (ite_congr (by rw [Bool.and_eq_true, decide_eq_true_eq]) (fun _ => rfl) (fun _ => rfl)))

end Sys2Proof.Machine

/-! CRC-32C of a datagram: its width, and what a transmission error does to it (R225, R355). -/
namespace Sys2Proof.Machine

/-! ### CRC-32C fits its four bytes (R225) -/

theorem crc32cBit_lt {c : Nat} (h : c < 2 ^ 32) : crc32cBit c < 2 ^ 32 := by
  have hhalf : c / 2 < 2 ^ 32 := Nat.lt_of_le_of_lt (Nat.div_le_self c 2) h
  unfold crc32cBit
  split
  · exact Nat.xor_lt_two_pow hhalf (by decide)
  · exact hhalf

theorem repeat_crc32cBit_lt (n : Nat) {c : Nat} (h : c < 2 ^ 32) : Nat.repeat crc32cBit n c < 2 ^ 32 := by
  induction n with
  | zero => exact h
  | succ n ih => exact crc32cBit_lt ih

theorem crc32cByte_lt {c : Nat} (h : c < 2 ^ 32) (b : Byte) : crc32cByte c b < 2 ^ 32 :=
  have hb : b.toNat < 2 ^ 32 := Nat.lt_trans b.isLt (by decide)
  repeat_crc32cBit_lt 8 (Nat.xor_lt_two_pow h hb)

theorem foldl_crc32cByte_lt (bs : List Byte) {c : Nat} (h : c < 2 ^ 32) : bs.foldl crc32cByte c < 2 ^ 32 := by
  induction bs generalizing c with
  | nil => exact h
  | cons b bs ih => exact ih (crc32cByte_lt h b)

theorem crc32c_lt (bs : List Byte) : crc32c bs < 2 ^ 32 :=
  Nat.xor_lt_two_pow (foldl_crc32cByte_lt bs (by decide)) (by decide)

/-- A transmission error leaves a value as it is only when it is none. -/
theorem xor_eq_left_iff {c e : Nat} : c ^^^ e = c ↔ e = 0 := by
  have hcancel : c ^^^ (c ^^^ e) = e := by rw [← Nat.xor_assoc, Nat.xor_self, Nat.zero_xor]
  refine ⟨fun h => ?_, fun h => by rw [h, Nat.xor_zero]⟩
  rw [← hcancel, h, Nat.xor_self]

/-! ### The CRC at the end of a datagram (R355) -/

/-- A datagram is good exactly when it is as long as it says and ends with the CRC of its body. -/
theorem dgramGood_append {body : List Byte} {v : Nat} (hv : v < 2 ^ 32) :
    dgramGood (body ++ beBytes 4 v) = true ↔ dgramSized (body ++ beBytes 4 v) = true ∧ v = crc32c body := by
  have hlen : (body ++ beBytes 4 v).length - 4 = body.length := by simp [length_beBytes]
  have hcrc : natAt (body ++ beBytes 4 v) body.length 4 = v := by
    rw [← List.append_nil (body ++ _), natAt_beBytes]
    exact Nat.mod_eq_of_lt hv
  rw [dgramGood, Bool.and_eq_true, decide_eq_true_eq, hlen, hcrc, List.take_left]

end Sys2Proof.Machine

/-! The request datagram a row's operands spell, field by field (Table 13.3). -/
namespace Sys2Proof.Machine

/-! ### Fields one after another -/

/-- The first field of a run of fields. -/
theorem natAt_first_field (n v : Nat) (rest : List Byte) : natAt (beBytes n v ++ rest) 0 n = v % 256 ^ n :=
  natAt_beBytes [] rest n v

/-- A later field is sought behind the first one. -/
theorem natAt_later_field {m o : Nat} (h : m ≤ o) (w n : Nat) (rest : List Byte) :
    natAt (beBytes m w ++ rest) o n = natAt rest (o - m) n := by
  have hskip : ∀ i, (beBytes m w ++ rest)[o + i]? = rest[o - m + i]? := fun i => by
    rw [List.getElem?_append_right (by rw [length_beBytes]; omega), length_beBytes]
    congr 1
    omega
  simp only [natAt, bytesAt, hskip]

/-! ### The datagram and its parts -/

theorem b2n_le_one (b : Bool) : b2n b ≤ 1 := by cases b <;> decide

theorem decide_b2n (b : Bool) : decide (b2n b = 1) = b := by cases b <;> rfl

/-- The third byte of a request: ACKREQ, MORE and TAG. -/
def reqFlags (r : CmdReq) : Nat := 128 * b2n r.ackreq + 64 * b2n r.more + r.tag.val

/-- The header of a request. -/
def reqHead (r : CmdReq) (op : Nat) : List Byte :=
  beBytes 1 r.ver.val ++ beBytes 1 op ++ beBytes 1 (reqFlags r) ++ beBytes 1 0 ++ beBytes 2 r.target.val
    ++ beBytes 2 r.params.length ++ beBytes 4 r.sseq.toNat ++ beBytes 4 r.srcid.toNat

/-- The CRC a request carries, with what a transmission error adds to it. -/
def reqCrc (r : CmdReq) (op : Nat) : Nat := crc32c (reqHead r op ++ r.params) ^^^ r.crcErr.toNat

variable (r : CmdReq) (op : Nat)

theorem reqDgram_eq : reqDgram r op = reqHead r op ++ r.params ++ beBytes 4 (reqCrc r op) := rfl

theorem length_reqHead : (reqHead r op).length = 16 := by simp [reqHead, length_beBytes]

theorem length_reqDgram : (reqDgram r op).length = 20 + r.params.length := by
  simp [reqDgram_eq, length_reqHead, length_beBytes]
  omega

theorem reqCrc_lt : reqCrc r op < 2 ^ 32 := Nat.xor_lt_two_pow (crc32c_lt _) r.crcErr.isLt

/-- What a number in the header of a request reads as. -/
theorem natAt_reqDgram (o n : Nat) : natAt (reqDgram r op) o n
    = natAt (beBytes 1 r.ver.val ++ (beBytes 1 op ++ (beBytes 1 (reqFlags r) ++ (beBytes 1 0 ++ (beBytes 2 r.target.val
      ++ (beBytes 2 r.params.length ++ (beBytes 4 r.sseq.toNat ++ (beBytes 4 r.srcid.toNat
      ++ (r.params ++ beBytes 4 (reqCrc r op)))))))))) o n := by
  simp only [reqDgram_eq, reqHead, List.append_assoc]

/-! ### The fields of the header -/

theorem reqFlags_lt : reqFlags r < 256 := by
  have htag := r.tag.isLt
  have hack := b2n_le_one r.ackreq
  have hmore := b2n_le_one r.more
  unfold reqFlags
  omega

theorem natAt_reqDgram_op (hop : op < 256) : natAt (reqDgram r op) 1 1 = op := by
  simpa [natAt_reqDgram, natAt_later_field, natAt_first_field] using hop

theorem natAt_reqDgram_flags : natAt (reqDgram r op) 2 1 = reqFlags r := by
  simpa [natAt_reqDgram, natAt_later_field, natAt_first_field] using reqFlags_lt r

theorem natAt_reqDgram_target : natAt (reqDgram r op) 4 2 = r.target.val := by
  simp [natAt_reqDgram, natAt_later_field, natAt_first_field]

theorem natAt_reqDgram_plen (hp : r.params.length < 65536) : natAt (reqDgram r op) 6 2 = r.params.length := by
  simpa [natAt_reqDgram, natAt_later_field, natAt_first_field] using hp

theorem natAt_reqDgram_sseq : natAt (reqDgram r op) 8 4 = r.sseq.toNat := by
  simpa [natAt_reqDgram, natAt_later_field, natAt_first_field] using r.sseq.isLt

theorem natAt_reqDgram_srcid : natAt (reqDgram r op) 12 4 = r.srcid.toNat := by
  simpa [natAt_reqDgram, natAt_later_field, natAt_first_field] using r.srcid.isLt

/-! ### ACKREQ, MORE and TAG share a byte -/

theorem reqFlags_tag : reqFlags r % 64 = r.tag.val := by
  have htag := r.tag.isLt
  unfold reqFlags
  omega

theorem reqFlags_ackreq : (reqFlags r).testBit 7 = r.ackreq := by
  have hbit : reqFlags r / 2 ^ 7 % 2 = b2n r.ackreq := by
    have htag := r.tag.isLt
    have hack := b2n_le_one r.ackreq
    have hmore := b2n_le_one r.more
    unfold reqFlags
    omega
  rw [Nat.testBit_eq_decide_div_mod_eq, hbit, decide_b2n]

theorem reqFlags_more : (reqFlags r).testBit 6 = r.more := by
  have hbit : reqFlags r / 2 ^ 6 % 2 = b2n r.more := by
    have htag := r.tag.isLt
    have hmore := b2n_le_one r.more
    unfold reqFlags
    omega
  rw [Nat.testBit_eq_decide_div_mod_eq, hbit, decide_b2n]

theorem reqMore_reqDgram : reqMore (reqDgram r op) = r.more := by
  rw [reqMore, natAt_reqDgram_flags, reqFlags_more]

/-! ### Parameters, length and CRC -/

theorem reqParams_reqDgram : reqParams (reqDgram r op) = r.params := by
  have hlen : (reqDgram r op).length - 20 = r.params.length := by rw [length_reqDgram, Nat.add_sub_cancel_left]
  rw [reqParams, hlen, reqDgram_eq, List.append_assoc, List.drop_left' (length_reqHead r op), List.take_left]

theorem dgramSized_reqDgram (hp : r.params.length < 65536) : dgramSized (reqDgram r op) = true := by
  simp [dgramSized, length_reqDgram, natAt_reqDgram_plen r op hp]

/-- The CRC of a request is good exactly when nothing was added to it on the way. -/
theorem dgramGood_reqDgram (hp : r.params.length < 65536) : dgramGood (reqDgram r op) = true ↔ r.crcErr = 0 := by
  have hsized := dgramSized_reqDgram r op hp
  rw [reqDgram_eq] at hsized ⊢
  calc dgramGood (reqHead r op ++ r.params ++ beBytes 4 (reqCrc r op)) = true
      ↔ reqCrc r op = crc32c (reqHead r op ++ r.params) := by
        rw [dgramGood_append (reqCrc_lt r op), and_iff_right hsized]
    _ ↔ r.crcErr.toNat = 0 := xor_eq_left_iff
    _ ↔ r.crcErr = 0 := (BitVec.toNat_eq (x := r.crcErr) (y := 0)).symm

end Sys2Proof.Machine

/-! Datagrams that the command port discards, and the obligation (R351, R355). -/
namespace Sys2Proof.Machine

variable {s : State} {p : Fin 2} {saddr sport : Nat} {b : List Byte}

/-! ### The command port -/

theorem recvUdp_bad (hready : s.hsReady = true) (hbad : dgramGood b = false) :
    s.recvUdp p saddr sport b = s.crcDiscard := by
  simp [State.recvUdp, hready, hbad]

theorem recvUdp_reply (hready : s.hsReady = true) (hgood : dgramGood b = true) (hop : 128 ≤ natAt b 1 1) :
    s.recvUdp p saddr sport b = s := by
  simp [State.recvUdp, hready, hgood, hop]

/-! ### A discarded datagram -/

/-- A source that calls for no test is sticky after its event (R385). -/
theorem srcBit_raiseD_self {src inst detail : Nat} (hd : sourceDefined src = true)
    (ht : s.testTargets src inst detail none = []) : (s.raiseD src inst detail).srcBit R.FLT_STICKY src = true := by
  have hframe := SpindleFrame.raiseD_sticky (U := fun _ => False) hd ht
  refine hframe.sticky src (sourceDefined_lt hd) ?_
  rw [srcBit_setSrcBit_true, decide_eq_true rfl, Bool.true_or]

/-- An event of a source that calls for no test writes no register but those of the fault collector. -/
theorem reg_raiseD_of_no_test {src inst detail a : Nat} (hd : sourceDefined src = true)
    (ht : s.testTargets src inst detail none = []) (ha : ¬FltReg a) : (s.raiseD src inst detail).reg a = s.reg a := by
  have hregs : KeepFltRegs (fun t => t.reg a = s.reg a) :=
    ⟨fun t b w hb h => (reg_setReg_ne t w (fun e : a = b => ha (e ▸ hb))).trans h⟩
  exact hregs.raiseD ⟨fun _ _ h => h, fun _ _ h => h⟩ ⟨fun _ _ _ _ _ h => h⟩ hd ht rfl

theorem raiseHub_out (s : State) (src : Nat) : (s.raiseHub src).out = s.out :=
  keep_raiseHub (P := fun t => t.out = s.out) ⟨fun _ _ _ h => h⟩ ⟨fun _ _ h => h, fun _ _ h => h⟩
    ⟨fun _ _ _ _ _ h => h⟩ rfl

theorem crcDiscard_out : s.crcDiscard.out = s.out := by
  rw [State.crcDiscard, raiseHub_out, bump_out]

theorem crcDiscard_crcerr : s.crcDiscard.fld R.CMD_STAT F.CMD_STAT_CRCERR
    = satInc (F.CMD_STAT_CRCERR.hi - F.CMD_STAT_CRCERR.lo + 1) (s.fld R.CMD_STAT F.CMD_STAT_CRCERR) 1 := by
  have hreg : s.crcDiscard.reg R.CMD_STAT = (s.bump R.CMD_STAT F.CMD_STAT_CRCERR).reg R.CMD_STAT :=
    reg_raiseD_of_no_test (by decide) rfl (by decide)
  rw [State.fld, hreg]
  exact fld_bumpBy_self s _ _ 1 (by decide) (by decide)

theorem crcDiscard_sticky : s.crcDiscard.srcBit R.FLT_STICKY 248 = true := srcBit_raiseD_self (by decide) rfl

/-! ### The obligation -/

/-- Settles O51: an event of source 248 calls for no test and writes the fault collector alone, and CRC-32C differs from itself
by no error but zero. -/
theorem datagramsDiscarded : Obligations.DatagramsDiscarded := by
  refine ⟨fun s p addr sport b hready => ⟨fun hbad => ?discarded, recvUdp_reply hready⟩,
    fun r op entry path xid saddr sport ring hop hp => ?header⟩
  case discarded => exact ⟨recvUdp_bad hready hbad, crcDiscard_out, crcDiscard_crcerr, crcDiscard_sticky⟩
  case header =>
    refine ⟨natAt_reqDgram_op r op hop, ?tag, ?ackreq, natAt_reqDgram_target r op, natAt_reqDgram_sseq r op,
      natAt_reqDgram_srcid r op, reqMore_reqDgram r op, reqParams_reqDgram r op, dgramSized_reqDgram r op hp,
      dgramGood_reqDgram r op hp⟩
    case tag => rw [reqCtx, natAt_reqDgram_flags, reqFlags_tag]
    case ackreq => rw [reqCtx, natAt_reqDgram_flags, reqFlags_ackreq]

end Sys2Proof.Machine

/-! What recording an event does: the marks of its source, the first-source latch and the fault log (R385 to R391). -/
namespace Sys2Proof.Machine

variable {s t : State} {a : Nat}

/-! ### Bytes and registers -/

/-- Bytes read back as they were written. -/
theorem bytes_setBytes (s : State) (a : Nat) (l : List Byte) : (s.setBytes a l).bytes a l.length = l := by
  induction l generalizing s a with
  | nil => rfl
  | cons x l ih =>
    have hfirst : (s.setBytes a (x :: l)).byte a = x :=
      (byte_setBytes_ne (s := s.setByte a x) (a + 1) l (Or.inl (Nat.lt_succ_self a))).trans (byte_setByte_self s a x)
    have hrest : (s.setBytes a (x :: l)).bytes (a + 1) l.length = l := ih _ _
    rw [State.bytes] at hrest ⊢
    rw [List.length_cons, List.range_succ_eq_map, List.map_cons, List.map_map, Nat.add_zero, hfirst]
    refine congrArg (x :: ·) ((List.map_congr_left fun i _ => ?_).trans hrest)
    rw [Function.comp_apply, Nat.succ_eq_add_one, Nat.add_right_comm, Nat.add_assoc]

theorem setBytes_regs (s : State) (a : Nat) (l : List Byte) : (s.setBytes a l).regs = s.regs :=
  keep_setBytes (P := fun t => t.regs = s.regs) ⟨fun _ _ _ h => h⟩ rfl

theorem byte_of_mem (h : t.mem = s.mem) (a : Nat) : t.byte a = s.byte a := by rw [State.byte, h, State.byte]

theorem reg_setFld_ne (s : State) {b : Nat} (f : Fld) (v : Nat) (h : b ≠ a) : (s.setFld a f v).reg b = s.reg b :=
  reg_setReg_ne s _ h

theorem flag_of_reg {f : Fld} (h : t.reg a = s.reg a) : t.flag a f = s.flag a f := by
  rw [State.flag, State.fld, h, State.flag, State.fld]

theorem pair_of_reg {lo hi : Nat} (hlo : t.reg lo = s.reg lo) (hhi : t.reg hi = s.reg hi) : t.pair lo hi = s.pair lo hi := by
  rw [State.pair, hlo, hhi, State.pair]

theorem decide_b2n_ne_zero (b : Bool) : decide (b2n b ≠ 0) = b := by cases b <;> rfl

/-! ### The fault log (Table 14.7, R390) -/

/-- The log with a free place: the oldest unread entry is given up when 255 are unread. -/
def State.logRoom (s : State) : State :=
  let w := s.fld R.FLT_LOG F.FLT_LOG_WIDX
  let r := s.fld R.FLT_LOG F.FLT_LOG_RIDX
  if (w + 256 - r) % 256 = 255 then (s.setFld R.FLT_LOG F.FLT_LOG_RIDX ((r + 1) % 256)).bump R.FLT_LOG F.FLT_LOG_LOST else s

/-- A log entry is made room for, stored at the write index, and counted. -/
theorem writeLog_eq (s : State) (bytes : List Byte) : s.writeLog bytes =
    { (s.logRoom.setBytes (logBase + 32 * s.fld R.FLT_LOG F.FLT_LOG_WIDX) bytes).setFld R.FLT_LOG F.FLT_LOG_WIDX
        ((s.fld R.FLT_LOG F.FLT_LOG_WIDX + 1) % 256) with
      flt.lseq := ((s.logRoom.setBytes (logBase + 32 * s.fld R.FLT_LOG F.FLT_LOG_WIDX) bytes).flt.lseq + 1) % 2 ^ 32 } := rfl

theorem logRoom_mem (s : State) : s.logRoom.mem = s.mem := by
  unfold State.logRoom
  dsimp only
  split <;> rfl

theorem reg_logRoom_ne (s : State) (h : a ≠ R.FLT_LOG) : s.logRoom.reg a = s.reg a := by
  unfold State.logRoom
  dsimp only
  split
  · exact (reg_setFld_ne _ _ _ h).trans (reg_setFld_ne s _ _ h)
  · rfl

theorem reg_writeLog_ne (s : State) (bytes : List Byte) (h : a ≠ R.FLT_LOG) : (s.writeLog bytes).reg a = s.reg a :=
  (reg_setFld_ne _ _ _ h).trans ((reg_of_regs (setBytes_regs ..) a).trans (reg_logRoom_ne s h))

theorem writeLog_widx (s : State) (bytes : List Byte) : (s.writeLog bytes).fld R.FLT_LOG F.FLT_LOG_WIDX
    = (s.fld R.FLT_LOG F.FLT_LOG_WIDX + 1) % 256 :=
  (fld_setFld_self _ R.FLT_LOG F.FLT_LOG_WIDX _ (by decide) (by decide)).trans (Nat.mod_mod _ 256)

theorem byte_writeLog (s : State) (bytes : List Byte) (a : Nat) : (s.writeLog bytes).byte a
    = (s.logRoom.setBytes (logBase + 32 * s.fld R.FLT_LOG F.FLT_LOG_WIDX) bytes).byte a := rfl

theorem bytes_writeLog (s : State) (bytes : List Byte) :
    (s.writeLog bytes).bytes (logBase + 32 * s.fld R.FLT_LOG F.FLT_LOG_WIDX) bytes.length = bytes :=
  bytes_setBytes s.logRoom _ bytes

/-- The other entries of the log keep their bytes. -/
theorem byte_writeLog_ne (s : State) (bytes : List Byte) (h : a < logBase + 32 * s.fld R.FLT_LOG F.FLT_LOG_WIDX
    ∨ logBase + 32 * s.fld R.FLT_LOG F.FLT_LOG_WIDX + bytes.length ≤ a) : (s.writeLog bytes).byte a = s.byte a := by
  rw [byte_writeLog, byte_setBytes_ne _ _ h, byte_of_mem (logRoom_mem s)]

/-! ### The steps of recording an event (R385, R386, R389) -/

/-- The sticky bit of an event, and its bit in the list of the source. -/
def State.markEvent (s : State) (src inst : Nat) : State :=
  if inst = instHub then s.setSrcBit R.FLT_STICKY src true else (s.setSrcBit R.FLT_STICKY src true).setListBit src inst true

/-- FLT_FIRST of an event: VALID, FORCED, REAL, INST and SOURCE. -/
def firstWord (src inst : Nat) (forced real : Bool) : Nat :=
  2 ^ 31 + b2n forced * 2 ^ 30 + b2n real * 2 ^ 29 + (inst % 1024) * 2 ^ 16 + src

/-- The first-source latch takes an event. -/
def State.latchEvent (s : State) (src inst : Nat) (forced real : Bool) : State :=
  (s.setReg R.FLT_FIRST (BitVec.ofNat 32 (firstWord src inst forced real))).setSt R.FLT_FIRST_T R.FLT_FIRST_T_HI (stOf s.lt)

/-- An event finds the latch taken. -/
def State.overflowEvent (s : State) : State := (s.setFlag R.FLT_OVF F.FLT_OVF_OVF true).bump R.FLT_OVF F.FLT_OVF_OVFCNT

/-- An enabled event of a class meets the latch. -/
def State.weighEvent (s : State) (src inst cls : Nat) (forced real : Bool) : State :=
  if 1 ≤ cls then if s.flag R.FLT_FIRST F.FLT_FIRST_VALID then s.overflowEvent else s.latchEvent src inst forced real else s

/-- What recording an event can be: the marks alone where the source is not enabled, else the latch and then a count or an
entry of the log. -/
theorem record_cases (s : State) (src inst detail : Nat) (real queued : Bool) :
    ((s.markEvent src inst).srcEn src = false ∧ s.record src inst detail real queued = s.markEvent src inst)
    ∨ ((s.markEvent src inst).srcEn src = true ∧ ∃ u,
        u = (s.markEvent src inst).weighEvent src inst (s.srcClass src) (s.srcBit R.FLT_FORCE src) real
        ∧ (s.record src inst detail real queued = u.bump (R.FLT_CNT (src / 4)) (F.FLT_CNT_CNT (src % 4))
          ∨ ∃ entry : List Byte, entry.length = 32 ∧ s.record src inst detail real queued = u.writeLog entry)) := by
  unfold State.record
  extract_lets known forced cls sticky marked latch weighed
  have hmarked : marked = s.markEvent src inst := rfl
  have hweighed : weighed = marked.weighEvent src inst cls forced real := by
    refine ite_congr rfl (fun hcls => ?_) (fun _ => rfl)
    by_cases hvalid : marked.flag R.FLT_FIRST F.FLT_FIRST_VALID = true
    · rw [if_pos hvalid]
      exact if_neg (by simp [latch, hvalid])
    · rw [if_neg hvalid]
      exact if_pos (by simp [latch, hcls, hvalid])
  rw [← hmarked]
  by_cases hen : marked.srcEn src = true
  · refine Or.inr ⟨hen, weighed, hweighed, ?_⟩
    rw [if_pos hen]
    by_cases hknown : known = true
    · exact Or.inl (if_pos hknown)
    · exact Or.inr ⟨_, length_logEntry .., if_neg hknown⟩
  · exact Or.inl ⟨Bool.eq_false_iff.2 hen, if_neg hen⟩

/-! ### The registers each step leaves alone -/

theorem reg_markEvent (s : State) (src inst : Nat) (h : a < R.FLT_STICKY 0) : (s.markEvent src inst).reg a = s.reg a := by
  have hsticky : (s.setSrcBit R.FLT_STICKY src true).reg a = s.reg a :=
    reg_setReg_ne s _ (by simp only [R.FLT_STICKY] at h ⊢; omega)
  unfold State.markEvent State.setListBit
  split
  · exact hsticky
  · split
    · exact (reg_setReg_ne _ _ (by simp only [R.FLT_STICKY, R.FLT_LIST] at h ⊢; omega)).trans hsticky
    · exact hsticky

theorem markEvent_mem (s : State) (src inst : Nat) : (s.markEvent src inst).mem = s.mem :=
  ite_keep (P := fun t => t.mem = s.mem) (fun _ => rfl)
    (fun _ => keep_setListBit (P := fun t => t.mem = s.mem) ⟨fun _ _ _ h => h⟩ rfl)

theorem markEvent_lt (s : State) (src inst : Nat) : (s.markEvent src inst).lt = s.lt :=
  ite_keep (P := fun t => t.lt = s.lt) (fun _ => rfl)
    (fun _ => keep_setListBit (P := fun t => t.lt = s.lt) ⟨fun _ _ _ h => h⟩ rfl)

end Sys2Proof.Machine

/-! What an event leaves alone: sticky bits and the set-up of the sources (R384, R385, R391), whatever test it ends or calls for
(R395 to R397). -/
namespace Sys2Proof.Machine

variable {s t : State} {src a : Nat}

/-- A register that holds neither sticky bits nor force lines, enables and reaction classes. -/
abbrev EventReg (a : Nat) : Prop := a < R.FLT_STICKY 0 ∨ R.FLT_CNT 0 ≤ a

/-- From `s` to `t` no source loses its sticky bit, none has its force line, enable or reaction class changed, and a stop that
was asked for is still asked for. -/
structure EventFrame (s t : State) : Prop where
  sticky : ∀ n < 256, s.srcBit R.FLT_STICKY n = true → t.srcBit R.FLT_STICKY n = true
  setup : ∀ a, R.FLT_FORCE 0 ≤ a → a < R.FLT_CNT 0 → t.reg a = s.reg a
  stop : s.stopReq = true → t.stopReq = true

namespace EventFrame

theorem refl (s : State) : EventFrame s s := ⟨fun _ _ h => h, fun _ _ _ => rfl, fun h => h⟩

theorem srcEn (h : EventFrame s t) (hs : src < 256) : t.srcEn src = s.srcEn src := by
  have hreg := h.setup (R.FLT_EN (src / 32)) (by simp only [R.FLT_EN, R.FLT_FORCE]; omega)
    (by simp only [R.FLT_EN, R.FLT_CNT]; omega)
  rw [State.srcEn, State.srcBit, hreg, State.srcEn, State.srcBit]

theorem srcClass (h : EventFrame s t) (hs : src < 256) : t.srcClass src = s.srcClass src := by
  have hreg := h.setup (R.FLT_REACT (src / 16)) (by simp only [R.FLT_REACT, R.FLT_FORCE]; omega)
    (by simp only [R.FLT_REACT, R.FLT_CNT]; omega)
  rw [State.srcClass, State.fld, hreg, State.srcClass, State.fld]

/-! #### The writes -/

theorem setReg (h : EventFrame s t) (ha : EventReg a) (w : Word) : EventFrame s (t.setReg a w) where
  sticky n hn hs := by
    have hne : R.FLT_STICKY (n / 32) ≠ a := by simp only [EventReg, R.FLT_STICKY, R.FLT_CNT] at ha ⊢; omega
    rw [State.srcBit, reg_setReg_ne t w hne]
    exact h.sticky n hn hs
  setup b hlo hhi := by
    have hne : b ≠ a := by simp only [EventReg, R.FLT_STICKY, R.FLT_FORCE, R.FLT_CNT] at ha hlo hhi ⊢; omega
    rw [reg_setReg_ne t w hne, h.setup b hlo hhi]
  stop := h.stop

theorem setFld (h : EventFrame s t) (ha : EventReg a) (f : Fld) (v : Nat) : EventFrame s (t.setFld a f v) := h.setReg ha _

theorem setSticky (h : EventFrame s t) (hs : src < 256) : EventFrame s (t.setSrcBit R.FLT_STICKY src true) where
  sticky n hn hsn := by rw [srcBit_setSrcBit_true, h.sticky n hn hsn, Bool.or_true]
  setup b hlo hhi := by
    have hne : b ≠ R.FLT_STICKY (src / 32) := by simp only [R.FLT_STICKY, R.FLT_FORCE] at hlo ⊢; omega
    exact (reg_setReg_ne t _ hne).trans (h.setup b hlo hhi)
  stop := h.stop

theorem setListBit (h : EventFrame s t) (src inst : Nat) (b : Bool) : EventFrame s (t.setListBit src inst b) := by
  unfold State.setListBit
  exact ite_keep (fun _ => h.setReg (by simp only [EventReg, R.FLT_CNT, R.FLT_LIST]; omega) _) (fun _ => h)

theorem flt (h : EventFrame s t) (x : FltState) : EventFrame s { t with flt := x } := ⟨h.sticky, h.setup, h.stop⟩

theorem keepMem : KeepMem (EventFrame s) where
  setByte _ _ _ h := ⟨h.sticky, h.setup, h.stop⟩

/-! #### The steps of recording an event -/

theorem writeLog (h : EventFrame s t) (bytes : List Byte) : EventFrame s (t.writeLog bytes) := by
  have hlog : EventReg R.FLT_LOG := by decide
  have hroom : EventFrame s t.logRoom := ite_keep (fun _ => (h.setFld hlog _ _).setFld hlog _ _) (fun _ => h)
  rw [writeLog_eq]
  exact ((keep_setBytes keepMem hroom).setFld hlog _ _).flt _

theorem markEvent (h : EventFrame s t) (hs : src < 256) (inst : Nat) : EventFrame s (t.markEvent src inst) :=
  ite_keep (fun _ => h.setSticky hs) (fun _ => (h.setSticky hs).setListBit ..)

theorem weighEvent (h : EventFrame s t) (src inst cls : Nat) (forced real : Bool) :
    EventFrame s (t.weighEvent src inst cls forced real) :=
  have hlatch : EventFrame s (t.latchEvent src inst forced real) :=
    ((h.setReg (by decide) _).setReg (by decide) _).setReg (by decide) _
  have hover : EventFrame s t.overflowEvent := (h.setFld (by decide) _ _).setFld (by decide) _ _
  ite_keep (fun _ => ite_keep (fun _ => hover) (fun _ => hlatch)) (fun _ => h)

theorem record (h : EventFrame s t) (hs : src < 256) (inst detail : Nat) (real queued : Bool) :
    EventFrame s (t.record src inst detail real queued) := by
  have hmark := h.markEvent hs inst
  rcases record_cases t src inst detail real queued with ⟨-, hrec⟩ | ⟨-, _, rfl, hcount | ⟨entry, -, hlog⟩⟩
  · exact hrec ▸ hmark
  · have hcnt : EventReg (R.FLT_CNT (src / 4)) := Or.inr (by simp only [R.FLT_CNT]; omega)
    rw [hcount]
    exact (hmark.weighEvent ..).setFld hcnt _ _
  · rw [hlog]
    exact (hmark.weighEvent ..).writeLog entry

theorem stopRequest (h : EventFrame s t) (src : Nat) : EventFrame s (t.stopRequest src) :=
  ite_keep (fun _ => ⟨h.sticky, h.setup, fun _ => rfl⟩) (fun _ => h)

theorem updAlive (h : EventFrame s t) : EventFrame s t.updAlive :=
  have ha : EventReg R.FLT_ALIVE := by decide
  ((((h.setFld ha _ _).setFld ha _ _).setFld ha _ _).setFld ha _ _).setFld ha _ _

theorem raisePlain (h : EventFrame s t) (hs : src < 256) (inst detail : Nat) : EventFrame s (t.raisePlain src inst detail) :=
  ((h.record hs inst detail true false).stopRequest src).updAlive.flt _

/-! #### The queue of self-tests -/

theorem updStq (h : EventFrame s t) : EventFrame s t.updStq :=
  have hq : EventReg R.FLT_STQ := by decide
  ((h.setFld hq _ _).setFld hq _ _).setFld hq _ _

theorem nextTest (h : EventFrame s t) : EventFrame s t.nextTest := by
  unfold State.nextTest
  extract_lets _ started _ moved
  have hstarted : EventFrame s started := by
    unfold started
    split
    · exact h.flt _
    · exact h
  have hmoved : EventFrame s moved := by
    unfold moved
    split
    · exact ite_keep (fun _ => hstarted.flt _) (fun _ => hstarted)
    · exact hstarted
  exact hmoved.updStq

theorem placeTest (h : EventFrame s t) (q : SelfTest) : EventFrame s (t.placeTest q) :=
  ite_keep (fun _ => (h.flt _).nextTest) (fun _ => (h.flt _).updStq)

theorem queueTests (h : EventFrame s t) (src inst : Nat) (called : Bool) (ts : List TestTarget) :
    EventFrame s (t.queueTests src inst called ts).1 := by
  induction ts generalizing t with
  | nil => exact h
  | cons target ts ih =>
    unfold State.queueTests
    dsimp only
    apply ih
    split
    · exact h
    · split
      · exact h.placeTest _
      · exact h.setFld (by decide) _ _

theorem endTest (h : EventFrame s t) (v : Nat) : EventFrame s (t.endTest v) := by
  unfold State.endTest
  split
  case h_1 => exact h
  case h_2 r _ =>
    extract_lets mine again _ ended last raised
    have hlast : EventFrame s last := (h.flt ended.flt).setReg (a := R.FLT_ST_LAST) (by decide) _
    have hraised : EventFrame s raised :=
      ite_keep (fun _ => hlast.raisePlain (src := 118) (by decide) ..)
        (fun _ => ite_keep (fun _ => hlast.raisePlain (src := 119) (by decide) ..) (fun _ => hlast))
    exact hraised.updAlive.nextTest

end EventFrame

/-! ### Raising a source -/

/-- An event of a source that is not defined does nothing. -/
theorem raiseWith_undefined (s : State) (inst detail : Nat) (real : Bool) (hd : sourceDefined src = false) :
    s.raiseWith src inst detail real = s := by
  simp [State.raiseWith, State.raiseAt, hd]

/-- An event of a defined source is recorded and may ask for a stop; what comes before and after keeps to the frame. -/
theorem raiseWith_steps (s : State) (inst detail : Nat) (real : Bool) (hd : sourceDefined src = true) :
    ∃ u queued, EventFrame s u
      ∧ EventFrame ((u.record src inst detail real queued).stopRequest src) (s.raiseWith src inst detail real) := by
  unfold State.raiseWith State.raiseAt
  extract_lets ts nested
  have htests : EventFrame s
      (if nested then (s, false, false) else s.queueTests src inst (calledFor src && !false) ts).1 := by
    split
    · exact EventFrame.refl s
    · exact (EventFrame.refl s).queueTests ..
  rw [if_neg (by simp [hd])]
  generalize (if nested then (s, false, false) else s.queueTests src inst (calledFor src && !false) ts) = tests at htests ⊢
  obtain ⟨u, queued, full⟩ := tests
  refine ⟨u, queued, htests, ?_⟩
  have hstop := EventFrame.refl ((u.record src inst detail real queued).stopRequest src)
  have hfull := ite_keep (c := full = true) (fun _ => hstop.raisePlain (src := 120) (by decide) instHub 0) (fun _ => hstop)
  have hended := ite_keep (c := nested = true) (fun _ => hfull.endTest 3) (fun _ => hfull)
  exact hended.updAlive

/-- A recorded event shows in STICKY whatever its enable (R385). -/
theorem srcBit_record_self (s : State) (hs : src < 256) (inst detail : Nat) (real queued : Bool) :
    (s.record src inst detail real queued).srcBit R.FLT_STICKY src = true := by
  refine (SpindleFrame.record_sticky (U := fun _ => False) ..).sticky src hs ?_
  rw [srcBit_setSrcBit_true, decide_eq_true rfl, Bool.true_or]

theorem raiseWith_sticky (s : State) (inst detail : Nat) (real : Bool) (hd : sourceDefined src = true) :
    (s.raiseWith src inst detail real).srcBit R.FLT_STICKY src = true := by
  have hs := sourceDefined_lt hd
  obtain ⟨u, queued, -, hafter⟩ := raiseWith_steps s inst detail real hd
  exact hafter.sticky src hs (((EventFrame.refl _).stopRequest src).sticky src hs (srcBit_record_self u hs ..))

theorem raiseWith_stop (inst detail : Nat) (real : Bool) (hd : sourceDefined src = true) (hen : s.srcEn src = true)
    (hcls : s.srcClass src = 3) : (s.raiseWith src inst detail real).stopReq = true := by
  have hs := sourceDefined_lt hd
  obtain ⟨u, queued, hbefore, hafter⟩ := raiseWith_steps s inst detail real hd
  have hrecord := hbefore.record hs inst detail real queued
  refine hafter.stop ?_
  rw [State.stopRequest, hrecord.srcEn hs, hrecord.srcClass hs, hen, hcls]
  rfl

end Sys2Proof.Machine

/-! The first-source latch, the fault log, and the obligation (R389, R390). -/
namespace Sys2Proof.Machine

variable {s : State} {src inst a : Nat}

/-! ### The latch after an event -/

/-- The registers below the log's, FLT_CTRL to FLT_OVF, hold what the marks and the latch left in them. -/
theorem reg_record_enabled (s : State) (inst detail : Nat) (real queued : Bool) (hs : src < 256) (hen : s.srcEn src = true)
    (ha : a < R.FLT_LOG) : (s.record src inst detail real queued).reg a
      = ((s.markEvent src inst).weighEvent src inst (s.srcClass src) (s.srcBit R.FLT_FORCE src) real).reg a := by
  have hmark : (s.markEvent src inst).srcEn src = true := (((EventFrame.refl s).markEvent hs inst).srcEn hs).trans hen
  rcases record_cases s src inst detail real queued with ⟨hoff, -⟩ | ⟨-, _, rfl, hcount | ⟨entry, -, hlog⟩⟩
  · exact absurd (hmark.symm.trans hoff) (by decide)
  · rw [hcount]
    exact reg_setFld_ne _ _ _ (by simp only [R.FLT_LOG, R.FLT_CNT] at ha ⊢; omega)
  · rw [hlog]
    exact reg_writeLog_ne _ _ (Nat.ne_of_lt ha)

theorem record_disabled (s : State) (inst detail : Nat) (real queued : Bool) (hs : src < 256) (hen : s.srcEn src = false) :
    s.record src inst detail real queued = s.markEvent src inst := by
  have hmark : (s.markEvent src inst).srcEn src = false := (((EventFrame.refl s).markEvent hs inst).srcEn hs).trans hen
  rcases record_cases s src inst detail real queued with ⟨-, hrec⟩ | ⟨hon, -⟩
  · exact hrec
  · exact absurd (hmark.symm.trans hon) (by decide)

theorem flag_valid_markEvent (s : State) (src inst : Nat) :
    (s.markEvent src inst).flag R.FLT_FIRST F.FLT_FIRST_VALID = s.flag R.FLT_FIRST F.FLT_FIRST_VALID :=
  flag_of_reg (reg_markEvent s src inst (by decide))

/-- The first enabled event of a class is what the latch holds. -/
theorem reg_record_first (inst detail : Nat) (real queued : Bool) (hs : src < 256) (hen : s.srcEn src = true)
    (hcls : 1 ≤ s.srcClass src) (hfree : s.flag R.FLT_FIRST F.FLT_FIRST_VALID = false) (ha : a < R.FLT_LOG) :
    (s.record src inst detail real queued).reg a
      = ((s.markEvent src inst).latchEvent src inst (s.srcBit R.FLT_FORCE src) real).reg a := by
  rw [reg_record_enabled s inst detail real queued hs hen ha, State.weighEvent, if_pos hcls, flag_valid_markEvent, hfree,
    if_neg Bool.false_ne_true]

/-- A later event counts as overflow. -/
theorem reg_record_later (inst detail : Nat) (real queued : Bool) (hs : src < 256) (hen : s.srcEn src = true)
    (hcls : 1 ≤ s.srcClass src) (hvalid : s.flag R.FLT_FIRST F.FLT_FIRST_VALID = true) (ha : a < R.FLT_LOG) :
    (s.record src inst detail real queued).reg a = (s.markEvent src inst).overflowEvent.reg a := by
  rw [reg_record_enabled s inst detail real queued hs hen ha, State.weighEvent, if_pos hcls, flag_valid_markEvent, hvalid,
    if_pos rfl]

/-! ### What the latch reads -/

theorem reg_first_latchEvent (s : State) (inst : Nat) (forced real : Bool) (hs : src < 256) :
    ((s.latchEvent src inst forced real).reg R.FLT_FIRST).toNat = firstWord src inst forced real := by
  have hreg : (s.latchEvent src inst forced real).reg R.FLT_FIRST = BitVec.ofNat 32 (firstWord src inst forced real) :=
    (reg_setReg_ne _ _ (by decide)).trans ((reg_setReg_ne _ _ (by decide)).trans (reg_setReg_self ..))
  have hforced := b2n_le_one forced
  have hreal := b2n_le_one real
  rw [hreg, BitVec.toNat_ofNat, Nat.mod_eq_of_lt]
  unfold firstWord
  omega

theorem stOf_lt (t : Nat) : stOf t < 2 ^ 48 := by
  have hns := ltNs_lt t
  unfold stOf
  omega

/-- A pair of registers reads the ST written into it. -/
theorem pair_setSt (s : State) {lo hi st : Nat} (hne : lo ≠ hi) (hst : st < 2 ^ 64) : (s.setSt lo hi st).pair lo hi = st := by
  rw [State.pair, State.setSt, reg_setReg_self, reg_setReg_ne _ _ hne, reg_setReg_self, BitVec.toNat_ofNat, BitVec.toNat_ofNat]
  omega

/-- The parts of FLT_FIRST (R389). -/
theorem firstWord_parts (forced real : Bool) (hs : src < 256) (hi : inst < 1024) :
    bitsOf (firstWord src inst forced real) 31 31 = 1
    ∧ firstWord src inst forced real % 256 = src ∧ firstWord src inst forced real / 65536 % 1024 = inst
    ∧ bitsOf (firstWord src inst forced real) 30 30 = b2n forced
    ∧ bitsOf (firstWord src inst forced real) 29 29 = b2n real := by
  have hforced := b2n_le_one forced
  have hreal := b2n_le_one real
  unfold bitsOf firstWord
  omega

/-! ### The rows of the obligation -/

theorem record_first_row (detail : Nat) (real queued : Bool) (hs : src < 256) (hi : inst < 1024) (hen : s.srcEn src = true)
    (hcls : 1 ≤ s.srcClass src) (hfree : s.flag R.FLT_FIRST F.FLT_FIRST_VALID = false) : ∃ t,
    s.record src inst detail real queued = t ∧ t.flag R.FLT_FIRST F.FLT_FIRST_VALID = true
      ∧ (t.reg R.FLT_FIRST).toNat % 256 = src ∧ (t.reg R.FLT_FIRST).toNat / 65536 % 1024 = inst
      ∧ t.flag R.FLT_FIRST F.FLT_FIRST_FORCED = s.srcBit R.FLT_FORCE src ∧ t.flag R.FLT_FIRST F.FLT_FIRST_REAL = real
      ∧ t.pair R.FLT_FIRST_T R.FLT_FIRST_T_HI = stOf s.lt := by
  have hreg : ∀ {a}, a < R.FLT_LOG → _ := reg_record_first (s := s) inst detail real queued hs hen hcls hfree
  have hfirst := (congrArg BitVec.toNat (hreg (by decide))).trans
    (reg_first_latchEvent (s.markEvent src inst) inst (s.srcBit R.FLT_FORCE src) real hs)
  obtain ⟨hvalid, hsrc, hinst, hforced, hreal⟩ := firstWord_parts (s.srcBit R.FLT_FORCE src) real hs hi
  refine ⟨_, rfl, ?valid, ?source, ?unit, ?forced, ?real, ?time⟩
  case source => rw [hfirst, hsrc]
  case unit => rw [hfirst, hinst]
  case valid => exact decide_eq_true (by rw [State.fld, hfirst]; exact hvalid.symm ▸ Nat.one_ne_zero)
  case forced => rw [State.flag, State.fld, hfirst, F.FLT_FIRST_FORCED, hforced, decide_b2n_ne_zero]
  case real => rw [State.flag, State.fld, hfirst, F.FLT_FIRST_REAL, hreal, decide_b2n_ne_zero]
  case time =>
    rw [pair_of_reg (hreg (by decide)) (hreg (by decide)), State.latchEvent,
      pair_setSt _ (by decide) (Nat.lt_trans (stOf_lt _) (by decide)), markEvent_lt]

theorem record_later_row (detail : Nat) (real queued : Bool) (hs : src < 256) (hen : s.srcEn src = true)
    (hcls : 1 ≤ s.srcClass src) (hvalid : s.flag R.FLT_FIRST F.FLT_FIRST_VALID = true) : ∃ t,
    s.record src inst detail real queued = t ∧ t.reg R.FLT_FIRST = s.reg R.FLT_FIRST
      ∧ t.pair R.FLT_FIRST_T R.FLT_FIRST_T_HI = s.pair R.FLT_FIRST_T R.FLT_FIRST_T_HI
      ∧ t.flag R.FLT_OVF F.FLT_OVF_OVF = true ∧ t.srcBit R.FLT_STICKY src = true
      ∧ t.fld R.FLT_OVF F.FLT_OVF_OVFCNT = satInc (F.FLT_OVF_OVFCNT.hi - F.FLT_OVF_OVFCNT.lo + 1)
          (s.fld R.FLT_OVF F.FLT_OVF_OVFCNT) 1 := by
  have hreg : ∀ {a}, a < R.FLT_LOG → _ := reg_record_later (s := s) inst detail real queued hs hen hcls hvalid
  have hkept : ∀ {a}, a < R.FLT_LOG → a ≠ R.FLT_OVF → (s.record src inst detail real queued).reg a = s.reg a :=
    fun {a} ha hne => calc (s.record src inst detail real queued).reg a
      _ = (s.markEvent src inst).overflowEvent.reg a := hreg ha
      _ = (s.markEvent src inst).reg a := (reg_setFld_ne _ _ _ hne).trans (reg_setFld_ne _ _ _ hne)
      _ = s.reg a := reg_markEvent s src inst (Nat.lt_trans ha (by decide))
  refine ⟨_, rfl, hkept (by decide) (by decide),
    pair_of_reg (hkept (by decide) (by decide)) (hkept (by decide) (by decide)), ?ovf, srcBit_record_self s hs .., ?count⟩
  case ovf =>
    rw [flag_of_reg (hreg (by decide)), State.overflowEvent, State.flag, State.bump, State.bumpBy,
      fld_setFld_disjoint _ _ _ _ _ (by decide) (by decide) (by decide) (by decide), ← State.flag,
      flag_setFlag_self _ _ _ _ (by decide) (by decide)]
  case count =>
    have hmark : (s.markEvent src inst).fld R.FLT_OVF F.FLT_OVF_OVFCNT = s.fld R.FLT_OVF F.FLT_OVF_OVFCNT := by
      rw [State.fld, reg_markEvent s src inst (by decide), State.fld]
    rw [State.fld, hreg (by decide), ← State.fld, State.overflowEvent, State.bump,
      fld_bumpBy_self _ _ _ _ (by decide) (by decide), State.setFlag,
      fld_setFld_disjoint _ _ _ _ _ (by decide) (by decide) (by decide) (by decide), hmark]

/-- A write of 1 to VALID clears the latch, its time and the overflow record (R389). -/
theorem fltFirstValidClear_row (hawake : s.awake = true) {v : Word} (hv : v.toNat.testBit 31 = true) :
    ∃ t, exec (.fltFirstValidClear v) s = .next t ∧ t.reg R.FLT_FIRST = 0 ∧ t.reg R.FLT_FIRST_T = 0
      ∧ t.reg R.FLT_FIRST_T_HI = 0 ∧ t.reg R.FLT_OVF = 0 := by
  refine ⟨_, (act_awake s hawake).trans (congrArg _ (if_pos hv)), ?first, ?time, ?timeHi, reg_setReg_self ..⟩
  case timeHi => exact (reg_setReg_ne _ _ (by decide)).trans (reg_setReg_self ..)
  case time => exact (reg_setReg_ne _ _ (by decide)).trans ((reg_setReg_ne _ _ (by decide)).trans (reg_setReg_self ..))
  case first =>
    exact (reg_setReg_ne _ _ (by decide)).trans ((reg_setReg_ne _ _ (by decide)).trans
      ((reg_setReg_ne _ _ (by decide)).trans (reg_setReg_self ..)))

/-! ### The obligation -/

/-- Settles O14: recording an event is its marks, then the latch, then a count or an entry of the log, and what surrounds it
when a source is raised takes back no sticky bit and no request for a stop. -/
theorem eventIsRecorded : Obligations.EventIsRecorded := by
  unfold Obligations.EventIsRecorded
  refine ⟨fun s src inst detail real => ?raised, fun s src inst detail real queued hs hi => ?recorded,
    fun s src inst detail lflags cls => ?logged⟩
  case raised =>
    exact ⟨raiseWith_sticky s inst detail real, raiseWith_undefined s inst detail real, raiseWith_stop inst detail real⟩
  case recorded =>
    refine ⟨record_first_row detail real queued hs hi, record_later_row detail real queued hs,
      fun hawake _ => fltFirstValidClear_row hawake, fun hen => ?disabled⟩
    rw [record_disabled s inst detail real queued hs hen]
    exact ⟨reg_markEvent s src inst (by decide), reg_markEvent s src inst (by decide), markEvent_mem s src inst⟩
  case logged =>
    have hlen := length_logEntry s src inst detail lflags cls
    have hread := bytes_writeLog s (s.logEntry src inst detail lflags cls)
    refine ⟨hlen, writeLog_widx .., ?entry, fun a ha => byte_writeLog_ne s _ ?others⟩
    case entry => rwa [hlen] at hread
    case others => rwa [hlen]

end Sys2Proof.Machine
